-- ==== Sys2Proof/Word.lean ====
section
/-! DEFINITION. The words the block works in, the 64-byte line it moves, and the sparse table
(a list of pairs with strictly rising keys) that every unit table of the state is held in. -/

namespace Sys2Proof

/-- One byte. -/
abbrev Byte := BitVec 8

/-- A 64-byte line; byte `i` of the line is bits `8 i` to `8 i + 7`. -/
abbrev Line := BitVec 512

/-- A sparse table: pairs of a key and a value with strictly rising keys. What an unlisted key
holds is the table's own default, given at each read. -/
abbrev Tbl (α : Type) := List (Nat × α)

end Sys2Proof
end

