-- ==== Sys2Proof/Syntax.lean ====
section
/-! DEFINITION. The commands of the block: one constructor of `Instr` for each row of the table of
operations and events, with the operands its rules read, and the plain data those operands are made of.
Unit numbers are natural numbers; `Sys2Proof/WellFormed.lean` says which ones name a unit. -/

namespace Sys2Proof

/-- Who sent a mailbox or CCI command: a head's mailbox or the MCTP endpoint (R68). -/
inductive Src where
  | head (h : Nat)
  | mctp
  deriving DecidableEq, Repr

/-- MetaValue of a request (R176). -/
inductive MetaV where
  | i | s | a
  deriving DecidableEq, Repr

/-- Response to a back-invalidate snoop; `blk` stands for any Blk form (R178). -/
inductive SnpRsp where
  | i | s | e | blk
  deriving DecidableEq, Repr

/-- A write hint: KIND and TILE (R183). -/
structure Hint where
  kind : Nat
  tile : Nat
  deriving DecidableEq, Repr

/-- The strap balls as sampled (R448, R350, R75). -/
structure Straps where
  nvmMode : Bool
  oscWait : Nat
  i3cSa : Nat
  testMode : Bool
  deriving DecidableEq, Repr

/-- What the slices and monitors report at a stroke boundary: the length of the stroke just ended in
half nanoseconds (R55), the load index L of each head in percent (R77), rail samples as
(rail, tile, units of 50 µV) (R363), bay samples as (bay, SNS, VOUT) (R371), byte totals as (source,
direction, bytes) (R413), signal totals as (SIG, slice, occurrences, cycles in which the condition held)
(R406), overruns as (class, slice, excess in ns) (R46), and the bytes by which the channel scheduler or a held line keeps a pump
back in the stroke that begins, as (pump, bytes) (R44). -/
structure Samples where
  halfNs : Nat
  ingress : List (Nat × Nat)
  rails : List (Nat × Nat × Nat)
  bays : List (Nat × Nat × Nat)
  bytes : List (Nat × Nat × Nat)
  signals : List (Nat × Nat × Nat × Nat)
  overruns : List (Nat × Nat × Nat)
  heldBack : List (Nat × Nat) := []
  vin : Nat := 30000
  deriving DecidableEq, Repr

/-- Payload of a Stroke Frame (R278). -/
structure FrameMsg where
  stroke : BitVec 64
  ver : BitVec 32
  digest : BitVec 64
  arrOfs : Option Int
  hops : Nat
  role : Nat
  holdover : Bool
  planned : Bool
  plain : Bool
  deriving DecidableEq, Repr

/-- One HDM decoder as a host programs it (R63). -/
structure Decoder where
  base : Nat
  size : Nat
  dpaBase : Nat
  ways : Nat
  gran : Nat
  bi : Bool
  deriving DecidableEq, Repr

/-- A dynamic-capacity extent: first DPA, length in bytes and tag (R65). -/
structure Extent where
  dpa : Nat
  length : Nat
  tag : BitVec 128
  deriving DecidableEq, Repr

/-- The transport an SPDM request came over (R326). -/
inductive Transport where
  | doe (h : Nat)
  | mctp
  | link (p : Nat)
  deriving DecidableEq, Repr

/-- The session an SPDM request came in; session 0 is "outside any session". -/
structure Sess where
  tr : Transport
  id : Nat
  deriving DecidableEq, Repr

/-- What the SECDED check finds on the directory entry that an admission reads (R191). -/
inductive DirEcc where
  | good | single | corrupt
  /-- The entry reads without an error of its code, as this word (R167). -/
  | word (w : BitVec 96)
  deriving DecidableEq, Repr

/-- Where a channel request comes from, which decides its page-policy hint (R203): an access or a cistern write-back for a page, a Terdy
request with its origin's hint, a pump, the scrubber, a read of the well map or the frame table, calibration and training. -/
inductive ChOrigin where
  | page (p : Nat)
  | terdy (hint : Nat)
  | pump | scrub | map | probe
  deriving DecidableEq, Repr

/-- Who reads a granule (R237). -/
inductive Reader where
  | home (id : Nat)
  | pump (p : Nat)
  | scrub
  | metadata (mirrorBad : Bool)
  deriving DecidableEq, Repr

/-- One device's results in a calibration burst: the two offset probes, the centre probe and the
oscillator count (R212, R213). -/
structure Probe where
  dev : Nat
  minus : Bool
  plus : Bool
  centre : Bool
  osc : Nat
  deriving DecidableEq, Repr

/-- The setting of one rank as training leaves it: for each device RD_DQS, WR_DQ and OSC_BASE, and the
module temperature in 1/64 °C (R216). -/
structure Setting where
  devs : List (Nat × Nat × Nat)
  temp : Int
  deriving DecidableEq, Repr

/-- Result of bringing up one rank (R210, R211). -/
structure BringUp where
  r : Nat
  tableProbesOk : Bool
  found : Bool
  setting : Setting
  mr4 : Nat
  deriving DecidableEq, Repr

/-- A flit as the receiver has it after FEC: its 256 bytes, whether every codeword it overlaps was correctable, the uncorrectable
codewords among them that no earlier flit overlapped, and the symbols corrected (R252, R257, R265). -/
structure Flit where
  bytes : List Byte
  correctable : Bool
  uncorrectable : Nat
  corrected : Nat
  deriving DecidableEq, Repr

/-- What the upstream device's key message carries: the key of each direction and the salt (R158). -/
structure LinkKeys where
  down : BitVec 256
  up : BitVec 256
  salt : BitVec 32
  deriving DecidableEq, Repr

/-- Keys for a link (R158, R159): the port, and the keys a message carries (none where the device draws them itself). -/
structure LinkKeysIn where
  port : Nat
  keys : Option LinkKeys
  deriving DecidableEq, Repr

/-- What one scrub of a channel covers (R234): how many granules the scheduler lets it read, and the errors met, as granules and
the byte errors of each. -/
structure ScrubRun where
  n : Nat
  errs : List (Nat × List (Nat × Byte))
  deriving DecidableEq, Repr

/-- A CCI command's input: who sends it, and its payload. -/
structure CciInput where
  src : Src
  payload : List Byte
  deriving DecidableEq, Repr

/-- An IDE key programming (R83): whether its DOE session has finished, and whether the stream is the CXL.io Link IDE stream
(else the CXL.cachemem stream). -/
structure IdeProgram where
  inSession : Bool
  io : Bool
  deriving DecidableEq, Repr

/-- The IDE stream of a head: CXL.io Link IDE or CXL.cachemem (R83). -/
structure IdeStream where
  head : Nat
  io : Bool
  deriving DecidableEq, Repr

/-- A Hello message (R254). -/
structure Hello where
  dev : Nat
  root : Bool
  port : Nat
  role : Nat
  credits : List Nat
  deriving DecidableEq, Repr

/-- Header slot and data of a Terdy message (the opcode is the command's own). `data2` is the second
line of a Page Data granule. -/
structure Msg where
  pageHint : Nat
  hint : Hint
  dest : Nat
  cls : Bool
  resent : Bool
  src : Nat
  origin : Nat
  mval : Nat
  poison : Bool
  group : Nat
  tag : Nat
  addr : Nat
  mask : BitVec 64
  data : Line
  data2 : Line
  /-- Data slots of a maintenance message. -/
  raw : List Byte := []
  deriving DecidableEq, Repr

/-- A maintenance broadcast: its originator, EPOCH and BSEQ, and the payload fields of its kind (R270). -/
structure Bcast where
  src : Nat
  epoch : BitVec 32
  bseq : Nat
  dev : Nat
  group : Nat
  cause : Nat
  stroke : BitVec 64
  ver : BitVec 32
  digest : BitVec 64
  act : BitVec 64
  targetVer : BitVec 32
  targetDigest : BitVec 64
  deriving DecidableEq, Repr

/-- A Broadcast Ack (R270, R312). -/
structure BcastAck where
  kind : Nat
  member : Nat
  epoch : BitVec 32
  bseq : Nat
  status : Nat
  slice : Nat
  ver : BitVec 32
  deriving DecidableEq, Repr

/-- A Configuration Pull, request or reply (R314). -/
structure PullMsg where
  src : Nat
  kind : Nat
  outcome : Nat
  ver : BitVec 32
  digest : BitVec 64
  pendVer : BitVec 32
  pendDigest : BitVec 64
  act : BitVec 64
  rootVer : BitVec 32
  rootDigest : BitVec 64
  deriving DecidableEq, Repr

/-- What an entry step meets that is not state of the model: a clock gate that was refused (the block's
slice), an NVM or ledger write in progress, and a head whose link is not in L1 (R338). -/
structure EntryFacts where
  gateRefused : Option Nat
  nvmBusy : Bool
  notL1 : Option Nat
  deriving DecidableEq, Repr

/-- A monitored clock (R354, `CT_CLK_FAIL`). -/
inductive ClockId where
  | aon
  | core
  | fabric (tile : Nat)
  | serdesHost (h : Nat)
  | serdesCascade (p : Nat)
  | ddr (ch : Nat)
  | refclk
  | xo
  deriving DecidableEq, Repr

/-- Why an operating-point sequence ended as a fault (R360). -/
inductive OpFaultReason where
  | pll | rail | avsbus
  deriving DecidableEq, Repr

/-- A module as its SPD describes it (R195). `rate` is the highest rate its SPD allows. -/
structure Dimm where
  mrdimm : Bool
  rate : Nat
  dieGb : Nat
  ranks : Nat
  stack : Nat
  serial : BitVec 32
  x4 : Bool
  ecc40 : Bool
  tempLo : Int
  tempHi : Int
  deriving DecidableEq, Repr

/-- What a patrol or read of the on-package arrays, or of the ledger, found (R393, R401): in the ledger, an uncorrectable word
of the current or of the other copy of the state block, of a pinned, journal or repair record, or of the slot 1 chain. -/
inductive SramFind where
  | nothing
  | single
  | cleanCistern (gran : Nat)
  | dirtyCistern (line : Nat)
  | cleanMap (page : Nat)
  | dirtyMap (page : Nat)
  | engine (pump : Nat)
  | other
  | ledgerSingle
  | ledgerState (current : Bool)
  | ledgerPinned (n : Nat)
  | ledgerJournal (i : Nat)
  | ledgerRepair (i : Nat)
  | ledgerChain
  deriving DecidableEq, Repr

/-- The commands: one constructor for each row of the table, in the table's order. -/
inductive Instr where
  /-- UNSUPPORTED_COMMAND (R57). -/
  | unsupportedCommand (src : Src) (opcode : Nat)
  /-- GET_FW_INFO (R465). -/
  | getFwInfo (src : Src)
  /-- GET_TIMESTAMP (R459). -/
  | getTimestamp (src : Src)
  /-- SET_TIMESTAMP (R459). -/
  | setTimestamp (src : Src) (ts : BitVec 64)
  /-- GET_EVENT_RECORDS (R399). -/
  | getEventRecords (src : Src) (log : Nat)
  /-- SET_EVENT_INTERRUPT_POLICY (R399). -/
  | setEventInterruptPolicy (src : Src) (policy : BitVec 32)
  /-- GET_HEALTH_INFO (R56). -/
  | getHealthInfo (src : Src)
  /-- GET_POISON_LIST (R250). -/
  | getPoisonList (src : Src) (start : Nat) (count : Nat)
  /-- CLEAR_POISON_LIST (R56). -/
  | clearPoisonList (src : Src) (dpa : Nat) (data : Line)
  /-- INJECT_POISON (R330). -/
  | injectPoison (src : Src) (dpa : Nat)
  /-- IDENTIFY_MEMORY_DEVICE (R85). -/
  | identifyMemoryDevice (src : Src)
  /-- GET_SUPPORTED_LOGS (R85). -/
  | getSupportedLogs (src : Src)
  /-- GET_LOG (R85). -/
  | getLog (src : Src) (offset : Nat) (length : Nat)
  /-- GET_MULTI_HEADED_INFO (R56). -/
  | getMultiHeadedInfo (src : Src)
  /-- REQUEST_ABORT_BACKGROUND_OPERATION (R74). -/
  | requestAbort (src : Src)
  /-- GET_HARLUOD_IDENTITY (R459). -/
  | getHarluodIdentity (src : Src) (payload : List Byte)
  /-- MANAGEMENT_READ (R71). -/
  | managementRead (src : Src) (payload : List Byte)
  /-- MANAGEMENT_WRITE (R71). -/
  | managementWrite (src : Src) (payload : List Byte)
  /-- DEVICE_RESET (R72). -/
  | deviceReset (src : Src) (payload : List Byte)
  /-- THERMAL_RESUME (R390). -/
  | thermalResume (src : Src) (payload : List Byte)
  /-- BEGIN (R303). -/
  | beginTxn (src : Src) (payload : List Byte)
  /-- STAGE (R304). -/
  | stage (src : Src) (payload : List Byte)
  /-- VALIDATE (R305). -/
  | validate (src : Src) (payload : List Byte)
  /-- COMMIT (R306). -/
  | commit (src : Src) (payload : List Byte)
  /-- ROLLBACK (R308). -/
  | rollback (src : Src) (payload : List Byte)
  /-- REVERT (R302). -/
  | revert (src : Src) (payload : List Byte)
  /-- POOL_COMMIT (R311). -/
  | poolCommit (src : Src) (payload : List Byte)
  /-- REQUEST_REST (R82). -/
  | requestRest (src : Src) (payload : List Byte)
  /-- CANCEL_REST (R82). -/
  | cancelRest (src : Src) (payload : List Byte)
  /-- GET_POWER_STATUS (R66). -/
  | getPowerStatus (src : Src) (payload : List Byte)
  /-- GET_RECLAIM_REQUEST (R116). -/
  | getReclaimRequest (src : Src) (payload : List Byte)
  /-- RELEASE_RANGE (R117). -/
  | releaseRange (src : Src) (payload : List Byte)
  /-- RELEASE_RANGE_COMPLETE (R117). -/
  | releaseRangeComplete (src : Src)
  /-- RETIRE_RANK (R249). -/
  | retireRank (src : Src) (payload : List Byte)
  /-- GET_RANK_STATUS (R249). -/
  | getRankStatus (src : Src) (payload : List Byte)
  /-- BAY_POWER_STATUS (R379). -/
  | bayPowerStatus (src : Src) (payload : List Byte)
  /-- BAY_POWER_ON (R379). -/
  | bayPowerOn (src : Src) (payload : List Byte)
  /-- BAY_POWER_OFF (R379). -/
  | bayPowerOff (src : Src) (payload : List Byte)
  /-- BAY_POWER_CLEAR (R376). -/
  | bayPowerClear (src : Src) (payload : List Byte)
  /-- REJOIN_DOMAIN (R193). -/
  | rejoinDomain (src : Src) (payload : List Byte)
  /-- GET_CHALLENGE (R330). -/
  | getChallenge (input : CciInput)
  /-- UNLOCK (R330). -/
  | unlock (src : Src) (payload : List Byte)
  /-- RELOCK (R331). -/
  | relock (input : CciInput)
  /-- SCHEDULE_REGISTER_WRITE (R73). -/
  | scheduleRegisterWrite (src : Src) (payload : List Byte)
  /-- READ_COUNTERS (R412). -/
  | readCounters (src : Src) (payload : List Byte)
  /-- SET_ENDPOINT_ID (R75). -/
  | setEndpointId (eid : Nat)
  /-- GET_ENDPOINT_ID (R75). -/
  | getEndpointId
  /-- GET_MESSAGE_TYPE_SUPPORT (R75). -/
  | getMessageTypeSupport
  /-- MCTP_GET_VERSION (R75). -/
  | mctpGetVersion
  /-- IDENTIFY (R75). -/
  | identify (src : Src)
  /-- GET_HEAD_INFO (R75). -/
  | getHeadInfo (src : Src) (h : Nat)
  /-- GET_DCD_INFO (R75). -/
  | getDcdInfo (src : Src)
  /-- GET_HOST_DC_REGION_CONFIGURATION (R75). -/
  | getHostDcRegionConfig (src : Src) (h : Nat)
  /-- SET_DC_REGION_CONFIGURATION (R75). -/
  | setDcRegionConfig (src : Src) (h : Nat)
  /-- GET_DC_REGION_EXTENT_LISTS (R75). -/
  | getDcRegionExtentLists (src : Src) (h : Nat)
  /-- INITIATE_DYNAMIC_CAPACITY_ADD (R65). -/
  | initiateDcAdd (src : Src) (h : Nat) (exts : List Extent)
  /-- INITIATE_DYNAMIC_CAPACITY_RELEASE (R65). -/
  | initiateDcRelease (src : Src) (h : Nat) (exts : List Extent)
  /-- GET_SLD_QOS_CONTROL (R80). -/
  | getSldQosControl (src : Src)
  /-- GET_SLD_QOS_STATUS (R80). -/
  | getSldQosStatus (src : Src)
  /-- PUMP_ABORT (R108). -/
  | pumpAbort (src : Src) (pump : Nat)
  /-- PUMP_RESUME (R109). -/
  | pumpResume (src : Src) (pump : Nat)
  /-- SET_KEY (R153). -/
  | setKey (sess : Sess) (req : List Byte)
  /-- RETIRE_DOMAIN (R153). -/
  | retireDomain (sess : Sess) (req : List Byte)
  /-- ERASE_DOMAIN (R156). -/
  | eraseDomain (sess : Sess) (req : List Byte)
  /-- GET_DOMAIN_STATUS (R153). -/
  | getDomainStatus (sess : Sess) (req : List Byte)
  /-- CLAIM_OWNERSHIP (R319). -/
  | claimOwnership (sess : Sess) (req : List Byte)
  /-- TRANSFER_OWNERSHIP (R319). -/
  | transferOwnership (sess : Sess) (req : List Byte)
  /-- REVOKE_VENDOR_KEY (R321). -/
  | revokeVendorKey (sess : Sess) (req : List Byte)
  /-- DECOMMISSION (R318). -/
  | decommission (sess : Sess) (req : List Byte)
  /-- SET_CERTIFICATE (R324). -/
  | setCertificate (sess : Sess) (slot : Nat) (chain : List Byte)
  /-- GET_CERTIFICATE (R322). -/
  | getCertificate (sess : Sess) (slot : Nat) (offset : Nat) (length : Nat)
  /-- CHALLENGE (R322). -/
  | challenge (sess : Sess) (slot : Nat) (nonce : List Byte)
  /-- NEGOTIATE_ALGORITHMS (R326). -/
  | negotiateAlgorithms (sess : Sess) (supported : Bool)
  /-- KEY_EXCHANGE (R326). -/
  | keyExchange (sess : Sess)
  /-- KEY_UPDATE (R326). -/
  | keyUpdate (sess : Sess)
  /-- HEARTBEAT (R326). -/
  | heartbeat (sess : Sess)
  /-- END_SESSION (R326). -/
  | endSession (sess : Sess)
  /-- GET_MEASUREMENTS (R327). -/
  | getMeasurements (sess : Sess) (index : Nat)
  /-- CLKOUT_CONFIGURATION (R361). -/
  | clkoutConfiguration (src : Src) (value : BitVec 32)
  /-- EVENT_PENDING_CLEAR (R396). -/
  | eventPendingClear (src : Src) (w : Nat) (mask : BitVec 32)
  /-- COUNTER_REPROGRAM (R409). -/
  | counterReprogram (src : Src) (n : Nat) (value : BitVec 32)
  /-- COUNTER_OVF_CLEAR (R410). -/
  | counterOvfClear (src : Src) (n : Nat)
  /-- BANDWIDTH_WINDOW_CONFIG (R415). -/
  | bandwidthWindowConfig (src : Src) (n : Nat) (value : BitVec 32)
  /-- PERTURBATION_GO (R417). -/
  | perturbationGo (src : Src) (p : Nat)
  /-- PERTURBATION_STOP (R417). -/
  | perturbationStop (src : Src) (p : Nat)
  /-- REATTACH (R437). -/
  | reattach (src : Src)
  /-- SPDM_GET_VERSION (R326). -/
  | spdmGetVersion (sess : Sess)
  /-- GET_CAPABILITIES (R326). -/
  | getCapabilities (sess : Sess)
  /-- GET_DIGESTS (R322). -/
  | getDigests (sess : Sess)
  /-- FINISH (R326). -/
  | finish (sess : Sess) (verifies : Bool)
  /-- GET_ENCAPSULATED_REQUEST (R152). -/
  | getEncapsulatedRequest (sess : Sess)
  /-- CLEAR_EVENT_RECORDS (R399). -/
  | clearEventRecords (src : Src) (log : Nat) (all : Bool) (handles : List Nat)
  /-- SET_SLD_QOS_CONTROL (R80). -/
  | setSldQosControl (src : Src) (optimal : Nat) (moderate : Nat) (severe : Nat) (hyst : Nat)
  /-- DELIVER_ENCAPSULATED_RESPONSE (R152). -/
  | deliverEncapsulatedResponse (sess : Sess) (rootHash : BitVec 256) (verifies : Bool)
  /-- COLD_RESET (R13). -/
  | coldReset (straps : Straps)
  /-- RESET_N (R13). -/
  | resetN (pin : Bool)
  /-- PRIMED (R297). -/
  | primed
  /-- PERST_N_ASSERTION (R27). -/
  | perstAssertion (h : Nat)
  /-- PERST_N_DEASSERTION (R60). -/
  | perstDeassertion (h : Nat)
  /-- CONTROL_COMPLEX_RESET (R30). -/
  | controlComplexReset (security : Bool)
  /-- CORES_RESUME (R32). -/
  | coresResume
  /-- LOCKSTEP_MISMATCH (R333). -/
  | lockstepMismatch
  /-- CORE_WATCHDOG_EXPIRY (R333). -/
  | coreWatchdogExpiry
  /-- UNCORRECTABLE_INSTRUCTION_FETCH (R333). -/
  | uncorrectableFetch
  /-- STROKE_BOUNDARY (R47). -/
  | strokeBoundary (smp : Samples)
  /-- ACTIVATION (R48). -/
  | activation
  /-- STROKE_FRAME (R278). -/
  | strokeFrame (p : Nat) (f : FrameMsg)
  /-- PHASE_CORRECTION (R277). -/
  | phaseCorrection
  /-- POOL_OFFSET_REWRITE (R53). -/
  | poolOffsetRewrite
  /-- HOLDOVER_ENTRY (R54). -/
  | holdoverEntry
  /-- HOST_LINK_UP (R59). -/
  | hostLinkUp (h : Nat) (rate : Nat) (width : Nat)
  /-- HOST_LINK_DOWN (R59). -/
  | hostLinkDown (h : Nat)
  /-- HDM_DECODER_COMMIT (R63). -/
  | hdmDecoderCommit (h : Nat) (i : Nat) (dec : Decoder)
  /-- LTR_CONFIG_WRITE (R81). -/
  | ltrConfigWrite (h : Nat) (en : Bool) (snoopNs : Nat) (noSnoopNs : Nat)
  /-- IDE_KEY_PROGRAM (R83). -/
  | ideKeyProgram (h : Nat) (prog : IdeProgram)
  /-- IDE_INTEGRITY_FAILURE (R84). -/
  | ideIntegrityFailure (stream : IdeStream)
  /-- M2S_MEMRD (R21). -/
  | m2sMemRd (h : Nat) (tag : Nat) (dpa : Nat) (mv : MetaV)
  /-- M2S_MEMRDDATA (R176). -/
  | m2sMemRdData (h : Nat) (tag : Nat) (dpa : Nat)
  /-- M2S_MEMINV (R176). -/
  | m2sMemInv (h : Nat) (tag : Nat) (dpa : Nat) (mv : MetaV)
  /-- M2S_MEMINVNT (R176). -/
  | m2sMemInvNT (h : Nat) (tag : Nat) (dpa : Nat) (mv : MetaV)
  /-- M2S_MEMWR (R24). -/
  | m2sMemWr (h : Nat) (tag : Nat) (dpa : Nat) (mv : MetaV) (data : Line)
  /-- M2S_MEMWRPTL (R24). -/
  | m2sMemWrPtl (h : Nat) (tag : Nat) (dpa : Nat) (mv : MetaV) (mask : BitVec 64) (data : Line)
  /-- M2S_MEMCLNEVCT (R176). -/
  | m2sMemClnEvct (h : Nat) (tag : Nat) (dpa : Nat)
  /-- M2S_BIRSP (R178). -/
  | m2sBIRsp (h : Nat) (dpa : Nat) (rsp : SnpRsp)
  /-- M2S_BICONFLICT (R180). -/
  | m2sBIConflict (h : Nat) (dpa : Nat)
  /-- READ_COMPLETION (R21). -/
  | readCompletion (id : Nat)
  /-- INLINE_PROMOTION_END (R26). -/
  | inlinePromotionEnd (page : Nat)
  /-- CISTERN_EVICTION (R25). -/
  | cisternEviction (gran : Nat) (readUe : Bool)
  /-- KEEP_EXPIRY (R183). -/
  | keepExpiry (gran : Nat)
  /-- ADD_DYNAMIC_CAPACITY_RESPONSE (R64). -/
  | addDcResponse (h : Nat) (blocks : List Nat)
  /-- RELEASE_DYNAMIC_CAPACITY (R65). -/
  | releaseDc (h : Nat) (blocks : List Nat)
  /-- STAGE_COMPLETE (R304). -/
  | stageComplete (nvmOk : Bool)
  /-- VALIDATE_COMPLETE (R305). -/
  | validateComplete (readBackOk : Bool)
  /-- COMMIT_SLOT_WRITTEN (R306). -/
  | commitSlotWritten (readBackOk : Bool)
  /-- NVM_WRITE_TIMEOUT (R289). -/
  | nvmWriteTimeout
  /-- UNLOCK_LOCKOUT_EXPIRY (R330). -/
  | unlockLockoutExpiry
  /-- SWEEP_STEP (R95). -/
  | sweepStep (tile : Nat)
  /-- SWEEP_STALE (R96). -/
  | sweepStale (tile : Nat)
  /-- HEAT_DECAY_PASS (R94). -/
  | heatDecayPass (resident : List Nat)
  /-- PUMP_JOB_START (R101). -/
  | pumpJobStart (pump : Nat)
  /-- DECODER_AVAILABLE (R133). -/
  | decoderAvailable (tile : Nat) (dec : Nat)
  /-- FENCE_COMPLETE (R111). -/
  | fenceComplete (pump : Nat)
  /-- FENCE_ABANDON (R112). -/
  | fenceAbandon (pump : Nat)
  /-- COMMIT_PHASE (R105). -/
  | commitPhase (pump : Nat)
  /-- BOOK_SLOT_RETIRE_END (R145). -/
  | bookSlotRetireEnd (slot : Nat)
  /-- ERASE_INVALIDATION_DONE (R156). -/
  | eraseInvalidationDone (dom : Nat)
  /-- DOMAIN_KEY_EMPTY (R154). -/
  | domainKeyEmpty (dom : Nat)
  /-- LINK_KEY_MESSAGE (R158). -/
  | linkKeyMessage (msg : LinkKeysIn)
  /-- LINK_REKEY (R159). -/
  | linkRekey (msg : LinkKeysIn)
  /-- ARBITER_ADMISSION (R169). -/
  | arbiterAdmission (hs : Nat) (ecc : DirEcc)
  /-- TRANSACTION_ACKNOWLEDGED (R172). -/
  | transactionAcknowledged (line : Nat)
  /-- SNOOP_TIMEOUT (R173). -/
  | snoopTimeout (line : Nat)
  /-- HOLD_TIMEOUT (R173). -/
  | holdTimeout (line : Nat)
  /-- REJOIN_TIMEOUT (R194). -/
  | rejoinTimeout (g : Nat)
  /-- CHANNEL_REQUEST (R200). -/
  | channelRequest (ch : Nat) (wr : Bool) (gran : Nat) (origin : ChOrigin)
  /-- DRAM_READ_RETURN (R222). -/
  | dramReadReturn (ch : Nat) (gran : Nat) (reader : Reader) (errs : List (Nat × Byte))
  /-- REFAB_ISSUE (R208). -/
  | refabIssue (ch : Nat) (r : Nat)
  /-- MR4_POLL (R206). -/
  | mr4Poll (ch : Nat) (codes : List (Nat × Nat))
  /-- CALIBRATION_BURST (R212). -/
  | calibrationBurst (ch : Nat) (r : Nat) (probes : List Probe)
  /-- RETRAINING_WINDOW (R215). -/
  | retrainingWindow (ch : Nat) (r : Nat) (ns : Nat)
  /-- RETRAINING_END (R216). -/
  | retrainingEnd (ch : Nat) (r : Nat) (found : Bool) (setting : Setting)
  /-- RETRAINING_TIMEOUT (R216). -/
  | retrainingTimeout (ch : Nat) (r : Nat) (setting : Setting)
  /-- CA_PARITY_ALERT (R217). -/
  | caParityAlert (ch : Nat) (slot : Nat)
  /-- BRING_UP_COMPLETE (R211). -/
  | bringUpComplete (ch : Nat) (results : List BringUp)
  /-- SCRUB_READ (R234). -/
  | scrubRead (ch : Nat) (run : ScrubRun)
  /-- SOFT_PPR (R232). -/
  | softPpr (ch : Nat) (pass : Bool)
  /-- UE_WINDOW_EXPIRY (R244). -/
  | ueWindowExpiry (ch : Nat) (r : Nat)
  /-- EVACUATION_WALK (R245). -/
  | evacuationWalk (tile : Nat)
  /-- EVACUATION_RETRY (R247). -/
  | evacuationRetry (tile : Nat)
  /-- RANK_EMPTY (R245). -/
  | rankEmpty (ch : Nat) (r : Nat)
  /-- CASCADE_TRAINING_START (R253). -/
  | cascadeTrainingStart (p : Nat)
  /-- CASCADE_TRAINING_STEP_TIMEOUT (R253). -/
  | cascadeTrainingStepTimeout (p : Nat)
  /-- CASCADE_LINK_UP (R253). -/
  | cascadeLinkUp (p : Nat) (rate : Nat) (width : Nat) (lanes : Nat)
  /-- PAIR_ALIGNMENT_ACQUIRED (R252). -/
  | pairAlignmentAcquired (p : Nat)
  /-- PAIR_ALIGNMENT_LOST (R252). -/
  | pairAlignmentLost (p : Nat)
  /-- ALIGNMENT_LOSS_TIMEOUT (R266). -/
  | alignmentLossTimeout (p : Nat)
  /-- ADAPTATION_RETRAIN (R256). -/
  | adaptationRetrain (p : Nat)
  /-- LOSS_OF_SIGNAL (R266). -/
  | lossOfSignal (p : Nat)
  /-- FLIT_RECEIVE (R265). -/
  | flitReceive (p : Nat) (f : Flit)
  /-- LINK_CONTROL (R266). -/
  | linkControl (p : Nat) (nak : Bool) (ack : Nat) (credits : List Nat)
  /-- REPLAY_TIMEOUT (R266). -/
  | replayTimeout (p : Nat)
  /-- HELLO (R254). -/
  | hello (p : Nat) (hl : Hello)
  /-- SECURED_TRANSPORT (R158). -/
  | securedTransport (p : Nat) (ofs : Nat) (total : Nat) (frag : List Byte)
  /-- TERDY_MEMRD (R181). -/
  | terdyMemRd (p : Nat) (m : Msg)
  /-- TERDY_MEMRDDATA (R181). -/
  | terdyMemRdData (p : Nat) (m : Msg)
  /-- TERDY_MEMINV (R181). -/
  | terdyMemInv (p : Nat) (m : Msg)
  /-- TERDY_MEMINVNT (R181). -/
  | terdyMemInvNT (p : Nat) (m : Msg)
  /-- TERDY_MEMWR (R264). -/
  | terdyMemWr (p : Nat) (m : Msg)
  /-- TERDY_MEMWRPTL (R264). -/
  | terdyMemWrPtl (p : Nat) (m : Msg)
  /-- TERDY_MEMCLNEVCT (R264). -/
  | terdyMemClnEvct (p : Nat) (m : Msg)
  /-- TERDY_MEMWR_RETRIED (R264). -/
  | terdyMemWrRetried (p : Nat) (m : Msg)
  /-- TERDY_MEMWRPTL_RETRIED (R264). -/
  | terdyMemWrPtlRetried (p : Nat) (m : Msg)
  /-- WRITE_RETRY (R264). -/
  | writeRetry (p : Nat) (m : Msg)
  /-- TERDY_MEMDATA (R23). -/
  | terdyMemData (p : Nat) (m : Msg)
  /-- TERDY_CMP (R23). -/
  | terdyCmp (p : Nat) (m : Msg)
  /-- TERDY_BIRSP (R182). -/
  | terdyBIRsp (p : Nat) (m : Msg)
  /-- TERDY_BICONFLICT (R180). -/
  | terdyBIConflict (p : Nat) (m : Msg)
  /-- TERDY_BICONFLICTACK (R180). -/
  | terdyBIConflictAck (p : Nat) (m : Msg)
  /-- TERDY_BISNPINV (R182). -/
  | terdyBISnpInv (p : Nat) (m : Msg)
  /-- TERDY_BISNPDATA (R182). -/
  | terdyBISnpData (p : Nat) (m : Msg)
  /-- TERDY_BISNPCUR (R182). -/
  | terdyBISnpCur (p : Nat) (m : Msg)
  /-- PAGE_FETCH (R283). -/
  | pageFetch (p : Nat) (m : Msg)
  /-- PAGE_PLACE (R282). -/
  | pagePlace (p : Nat) (m : Msg)
  /-- PAGE_DATA (R282). -/
  | pageData (p : Nat) (m : Msg)
  /-- PAGE_ACK (R284). -/
  | pageAck (p : Nat) (m : Msg)
  /-- PAGE_FREE (R284). -/
  | pageFree (p : Nat) (m : Msg)
  /-- REMOTE_TIMEOUT (R282). -/
  | remoteTimeout (tag : Nat)
  /-- PAGE_ACK_TIMEOUT (R284). -/
  | pageAckTimeout (pump : Nat)
  /-- PAGE_FREE_TIMEOUT (R284). -/
  | pageFreeTimeout (tag : Nat)
  /-- FO_QUIET_EXPIRY (R271). -/
  | foQuietExpiry (dest : Nat)
  /-- ROUTE_NOTICE_SWITCH (R272). -/
  | routeNoticeSwitch (p : Nat) (dest : Nat)
  /-- ROUTE_NOTICE_RESTORE (R272). -/
  | routeNoticeRestore (p : Nat) (dest : Nat)
  /-- FAILBACK (R274). -/
  | failback (p : Nat)
  /-- DOMAIN_DOWN (R189). -/
  | domainDown (p : Nat) (b : Bcast)
  /-- DOMAIN_UP (R194). -/
  | domainUp (p : Nat) (b : Bcast)
  /-- BROADCAST_ACK (R270). -/
  | broadcastAck (p : Nat) (a : BcastAck)
  /-- POOL_PREPARE (R311). -/
  | poolPrepare (p : Nat) (b : Bcast)
  /-- POOL_COMMIT_BROADCAST (R312). -/
  | poolCommitBroadcast (p : Nat) (b : Bcast)
  /-- POOL_ABORT (R312). -/
  | poolAbort (p : Nat) (b : Bcast)
  /-- POOL_REVERT (R313). -/
  | poolRevert (p : Nat) (b : Bcast)
  /-- VOTE_WINDOW_EXPIRY (R311). -/
  | voteWindowExpiry
  /-- COMMIT_WAIT_EXPIRY (R313). -/
  | commitWaitExpiry
  /-- CONFIGURATION_PULL (R314). -/
  | configurationPull (p : Nat) (q : PullMsg)
  /-- CONFIGURATION_PULL_REPLY (R315). -/
  | configurationPullReply (p : Nat) (q : PullMsg)
  /-- VOTED_TIMEOUT (R314). -/
  | votedTimeout
  /-- PULL_RETRY (R314). -/
  | pullRetry
  /-- PULL_GIVE_UP (R314). -/
  | pullGiveUp
  /-- SLOT_VERIFICATION_COMPLETE (R315). -/
  | slotVerificationComplete
  /-- TRANSACTION_TIMEOUT (R309). -/
  | transactionTimeout
  /-- SLEEP_REQUEST (R285). -/
  | sleepRequest (p : Nat) (src : Nat)
  /-- SLEEP_REPLY (R285). -/
  | sleepReply (p : Nat) (accept : Bool) (slice : Nat)
  /-- SLEEP_DRAIN_COMPLETE (R285). -/
  | sleepDrainComplete (p : Nat)
  /-- WAKE_PATTERN_DETECTED (R286). -/
  | wakePatternDetected (p : Nat)
  /-- LINK_RESUMED (R287). -/
  | linkResumed (p : Nat)
  /-- RESUMPTION_TIMEOUT (R287). -/
  | resumptionTimeout (p : Nat)
  /-- FLOOR_RISE (R328). -/
  | floorRise
  /-- DEBUG_SCOPE_EXPIRY (R331). -/
  | debugScopeExpiry
  /-- ENTRY_STEP (R338). -/
  | entryStep (facts : EntryFacts)
  /-- HS_WAIT_EXPIRY (R338). -/
  | hsWaitExpiry
  /-- SLEEP_REPLY_TIMEOUT (R338). -/
  | sleepReplyTimeout
  /-- ENTRY_RETRY (R340). -/
  | entryRetry
  /-- WAKE_SOURCE (R342). -/
  | wakeSource (code : Nat) (idx : Nat)
  /-- WAKE_STEP (R343). -/
  | wakeStep
  /-- REENTRY_IDLE_EXPIRY (R346). -/
  | reentryIdleExpiry
  /-- ACTIVATION_WAKE (R347). -/
  | activationWake
  /-- CLOCK_MONITOR_WINDOW (R354). -/
  | clockMonitorWindow (clk : ClockId) (deviation : Nat)
  /-- SOURCE_SWITCH_STOP_TIMEOUT (R353). -/
  | sourceSwitchStopTimeout (clk : ClockId) (cycles : Nat)
  /-- RC_TRIM (R357). -/
  | rcTrim (steps : List (Nat × Int))
  /-- PLL_FAILURE (R352). -/
  | pllFailure (clk : ClockId)
  /-- PLL_LOCKED (R359). -/
  | pllLocked (tile : Nat)
  /-- RAIL_POLL (R358). -/
  | railPoll (avs : Nat) (mv : Nat)
  /-- OP_SEQUENCE_FAULT (R360). -/
  | opSequenceFault (avs : Nat) (reason : OpFaultReason)
  /-- GATE_REFUSAL_TIMEOUT (R362). -/
  | gateRefusalTimeout (slice : Nat)
  /-- WARNING_CROSSING (R364). -/
  | warningCrossing (rail : Nat) (tile : Nat)
  /-- BRACE_END (R365). -/
  | braceEnd
  /-- RESET_CROSSING (R366). -/
  | resetCrossing (rail : Nat) (tile : Nat) (ctHeld : Bool)
  /-- TILE_RESET_RELEASE (R366). -/
  | tileResetRelease (tile : Nat)
  /-- RAIL_OVERVOLTAGE (R363). -/
  | railOvervoltage (rail : Nat) (tile : Nat) (mv : Nat)
  /-- BAY_INSERTION (R369). -/
  | bayInsertion (n : Nat) (pos : Nat) (dimm : Dimm)
  /-- BAY_REMOVAL (R375). -/
  | bayRemoval (n : Nat) (pos : Nat)
  /-- BAY_RAMP_START (R370). -/
  | bayRampStart (n : Nat)
  /-- BAY_GOOD (R371). -/
  | bayGood (n : Nat)
  /-- RAMP_LIMIT_EXPIRY (R372). -/
  | rampLimitExpiry (n : Nat)
  /-- GATE_NOT_GOOD (R372). -/
  | gateNotGood (n : Nat)
  /-- CURRENT_LIMIT (R373). -/
  | currentLimit (n : Nat)
  /-- CURRENT_LIMIT_CLEARED (R373). -/
  | currentLimitCleared (n : Nat)
  /-- FAULT_TIMER_EXPIRY (R373). -/
  | faultTimerExpiry (n : Nat)
  /-- FAST_TRIP (R373). -/
  | fastTrip (n : Nat)
  /-- RETRY_TIMER_EXPIRY (R374). -/
  | retryTimerExpiry (n : Nat)
  /-- RETRIES_CLEAR (R374). -/
  | retriesClear (n : Nat)
  /-- SHORTED_TRANSISTOR (R377). -/
  | shortedTransistor (n : Nat)
  /-- POWER_DOWN_GATE_DELAY (R379). -/
  | powerDownGateDelay (n : Nat)
  /-- BAY_OUTPUT_LOW (R379). -/
  | bayOutputLow (n : Nat)
  /-- TILE_SENSOR_SAMPLE (R380). -/
  | tileSensorSample (tile : Nat) (raw : Int)
  /-- DIMM_TEMPERATURE_READ (R381). -/
  | dimmTemperatureRead (ch : Nat) (readings : List (List (Option Int)))
  /-- ENFORCEMENT_START (R386). -/
  | enforcementStart
  /-- FAULT_N_RELEASE (R397). -/
  | faultNRelease
  /-- SRAM_PATROL (R393). -/
  | sramPatrol (tile : Nat) (found : SramFind)
  /-- COUNTER_WRAP (R410). -/
  | counterWrap (n : Nat) (inc : Nat)
  /-- BANDWIDTH_WINDOW_CLOSE (R414). -/
  | bandwidthWindowClose (n : Nat)
  /-- PERTURBATION_EXPIRY (R417). -/
  | perturbationExpiry (p : Nat)
  /-- CHROTEN_MODULE_UP (R419). -/
  | chrotenModuleUp (m : Nat) (rate : Nat) (repaired : Bool)
  /-- CHROTEN_MODULE_DOWN (R419). -/
  | chrotenModuleDown (m : Nat) (cannotRepair : Bool)
  /-- CHROTEN_FLIT_RECEIVE (R420). -/
  | chrotenFlitReceive (m : Nat) (crcOk : Bool) (opcode : Nat) (size : Nat)
  /-- CREDIT_RETURN (R422). -/
  | creditReturn (m : Nat) (slots : List Nat)
  /-- GUEST_MEMRD (R429). -/
  | guestMemRd (tag : Nat) (addr : Nat) (mv : MetaV)
  /-- GUEST_MEMRDDATA (R429). -/
  | guestMemRdData (tag : Nat) (addr : Nat)
  /-- GUEST_MEMINV (R429). -/
  | guestMemInv (tag : Nat) (addr : Nat) (mv : MetaV)
  /-- GUEST_MEMINVNT (R429). -/
  | guestMemInvNT (tag : Nat) (addr : Nat) (mv : MetaV)
  /-- GUEST_MEMWR (R424). -/
  | guestMemWr (tag : Nat) (addr : Nat) (mv : MetaV) (hint : Hint) (data : Line)
  /-- GUEST_MEMWRPTL (R424). -/
  | guestMemWrPtl (tag : Nat) (addr : Nat) (mv : MetaV) (hint : Hint) (mask : BitVec 64) (data : Line)
  /-- GUEST_MEMCLNEVCT (R424). -/
  | guestMemClnEvct (tag : Nat) (addr : Nat)
  /-- GUEST_BIRSP (R433). -/
  | guestBIRsp (addr : Nat) (rsp : SnpRsp)
  /-- GUEST_BICONFLICT (R433). -/
  | guestBIConflict (addr : Nat)
  /-- PUSH_REPLY (R435). -/
  | pushReply (addr : Nat) (accept : Bool)
  /-- GUEST_RESET_RELEASE (R427). -/
  | guestResetRelease
  /-- ATTACH (R427). -/
  | attach (idReg : BitVec 32) (caps : BitVec 32) (credits : List Nat)
  /-- ATTACH_TIMEOUT (R427). -/
  | attachTimeout
  /-- DETACH (R436). -/
  | detach
  /-- GUEST_MODULE_LOSS (R436). -/
  | guestModuleLoss
  /-- READY (R441). -/
  | ready
  /-- REFUSE (R441). -/
  | refuse
  /-- QUIESCE_TIMEOUT (R441). -/
  | quiesceTimeout
  /-- GUEST_WAKE (R441). -/
  | guestWake
  /-- RESUMED (R441). -/
  | resumed
  /-- RESUMED_TIMEOUT (R441). -/
  | resumedTimeout
  /-- GUEST_ACCESS_TIMEOUT (R442). -/
  | guestAccessTimeout
  /-- GUEST_REGISTER_ACCESS_PACKET (R443). -/
  | guestRegisterAccessPacket
  /-- RESET_N_DEASSERTION (R448). -/
  | resetNDeassertion (straps : Straps)
  /-- PAIR_WORD (R276). -/
  | pairWord (p : Nat) (word : BitVec 40) (start : Int) (mark : Nat)
  /-- DYNAMIC_ADDRESS (R75). -/
  | dynamicAddress (addr : Option Nat)
  /-- TABLE_ACCESS (R56). -/
  | tableAccess (h : Nat)
  /-- GUEST_ACCESS_COMPLETION (R442). -/
  | guestAccessCompletion (value : BitVec 64)
  /-- WRITE_BURST (R229). -/
  | writeBurst (ch : Nat) (gran : Nat) (ok : Bool)
  /-- AUTO_IDLE_EXPIRY (R203). -/
  | autoIdleExpiry (ch : Nat) (r : Nat) (bank : Nat)
  deriving DecidableEq, Repr

end Sys2Proof
end

