-- ==== Sys2Proof/Config.lean ====
section
/-! DEFINITION. What an implementation fixes and the manual leaves open. Each constant has no body, so nothing can be
proved about its value; a statement that uses one holds for every value. Each is named in the assumption log. -/

namespace Sys2Proof.Config

open Sys2Proof

/-- Free value: a number drawn by the device where the manual states none, by the model's own counter. -/
opaque freeNat : Nat → Nat

/-- Free value: 256 bits from the security engine's random number generator (R150, R330, R153 GENERATE). -/
opaque freeKey : Nat → BitVec 256

/-- Free value: 32 bits from the same generator (R270 EPOCH, R158 salt). -/
opaque freeWord : Nat → BitVec 32

/-- The frame the device would take for an allocation (R468: left to the device), on a tile. -/
opaque frameChoice : Nat → Nat → Nat

/-- The tile's cistern victim when it is full, among the granules it holds (index into them). -/
opaque cisternVictim : Nat → Nat → Nat

/-- The distance of the match that the encoder's search finds (R463: Harluod's choice), by the history, newest word first, and the
words of the page still to come. -/
opaque matchSearch : List Nat → List Nat → Nat

/-- SHA-256 of a byte string (a function of its input; the manual names the standard). -/
opaque sha256 : List Byte → BitVec 256

/-- ECDSA P-256 verification: public key (64 bytes), signature (64 bytes), message digest. -/
opaque ecdsaVerify : List Byte → List Byte → BitVec 256 → Bool

/-- The public key whose SHA-256 is a fused hash, where the manual names a key that no message carries (R318, R319, R330). -/
opaque keyFor : BitVec 256 → List Byte

/-- Harluod's root certificate (R322). -/
opaque vendorRoot : List Byte

/-- DeviceID public key from UDS (R323). -/
opaque deviceKey : BitVec 256 → List Byte

/-- Alias certificate from UDS, firmware hash and SECURITY_VERSION (R323). -/
opaque aliasCert : BitVec 256 → BitVec 256 → Nat → List Byte

/-- Whether every signature of a certificate chain verifies, and its leaf's public key (R324). -/
opaque chainVerify : List Byte → Bool

/-- Public key of the leaf certificate of a chain. -/
opaque chainLeafKey : List Byte → List Byte

/-- Digest of the root certificate of a chain. -/
opaque chainRootHash : List Byte → BitVec 256

/-- Signature by the Alias key over SPDM data. -/
opaque aliasSign : BitVec 256 → List Byte → List Byte

/-- Digest of the boot ROM (measurement 1). -/
opaque romDigest : BitVec 256

/-- DDR5 timing parameter from SPD and JEDEC tables: rate, die density, stack, parameter ID. -/
opaque ddrTiming : Nat → Nat → Nat → Nat → Nat

/-- Byte of the delay table that training finds and no rule states: channel, byte index, stroke of the training. -/
opaque delayByte : Nat → Nat → Nat → Byte

/-- Body of a log, capability list or CXL structure that CXL 3.1 lays out and the manual does not restate. -/
opaque cxlBytes : Nat → List Nat → List Byte

/-- The module over which a stream goes (R425): hash of SRC, DEST and class over the modules in use. -/
opaque streamHash : Nat → Nat → Nat → Nat

/-- Whether the read of the line that is not valid fails uncorrectably when a full cistern evicts a granule (R25), by the model's
counter of free values. -/
opaque mergeFails : Nat → Bool

/-- The SECDED check byte of a directory entry's bits [95:8] (R167: the manual gives no parity matrix). -/
opaque secded : BitVec 88 → BitVec 8

/-- Byte of the calibration pattern on a probe row (R199: the manual states no pattern), by its place among the row's bytes. -/
opaque probeByte : Nat → Byte

end Sys2Proof.Config
end

