-- ==== Sys2Proof/Machine/State.lean ====
section
/-! DEFINITION. The state of the block: every register, queue, buffer, table, mode and pin that the spec names, as
plain data. A record's field defaults are its values at cold reset; a sparse table (`Tbl`) lists only the units
whose record differs from those defaults. Counts of strokes are natural numbers; a register shows their low bits. -/

namespace Sys2Proof.Machine

open Sys2Proof

/-- Return codes of a CCI completion that the manual names (R70, R57, R193), and CXL's for a bad address (R57). -/
inductive Ret where
  | success | invalidInput | unsupported | busy | retryRequired | aborted | invalidPayloadLength | invalidHandle
  | invalidPhysicalAddress
  | backgroundStarted
  deriving DecidableEq, Repr

/-- Response messages toward a requester (R176). -/
inductive Rsp where
  | memData | cmp | cmpS | cmpE | conflictAck | writeRetry
  deriving DecidableEq, Repr

/-- Back-invalidate snoops (R176). -/
inductive Snp where
  | inv | data | cur
  deriving DecidableEq, Repr

/-- Event severities name the four CXL logs (R399). -/
inductive LogId where
  | info | warning | failure | fatal
  deriving DecidableEq, Repr

/-- Kinds of event record (R250, R400). -/
inductive RecKind where
  | vendor | generalMedia | dram | memoryModule
  deriving DecidableEq, Repr

/-- One event record (R399, R400): its kind, the event number (vendor records), cause, time stamp, pool stroke, slice,
repeat count, the count of R34, and the detail as numbers. -/
structure EvRec where
  handle : Nat
  kind : RecKind
  ev : Nat
  cause : Nat
  ts : Nat
  stroke : Nat
  slice : Nat
  rep : Nat
  dropped : Nat
  detail : List Nat
  deriving DecidableEq, Repr

/-- One of the four logs of a head or of the MCTP endpoint (R399). -/
structure EvLog where
  recs : List EvRec := []
  next : Nat := 1
  overflow : Bool := false
  count : Nat := 0
  firstTs : Nat := 0
  lastTs : Nat := 0
  deriving DecidableEq, Repr

/-- Capability structures of a head's function (R56). -/
inductive FnCap where
  | dvsecCxlDevice | dvsecFlexBus | dvsecRegisterLocator
  | hdmDecoder | ras | link | ide | biDecoder
  | deviceStatus | primaryMailbox | memoryDeviceStatus
  | doeCma | doeTableAccess | ltr | aer | laneMargining | dataLinkFeature | physicalLayer64
  deriving DecidableEq, Repr

/-- What function 0 of a head shows its host (R56, R68). -/
structure FnConfig where
  classCode : Nat
  vendor : Nat
  device : Nat
  serial : BitVec 64
  memCapable : Bool
  ioCapable : Bool
  cacheCapable : Bool
  hdmCount : Nat
  hwInitMode : Bool
  /-- Payload Size of the primary mailbox: its power of two. -/
  payloadSize : Nat
  caps : List FnCap
  deriving DecidableEq, Repr

/-- What the block sends: the model's own record of outgoing messages, oldest first. -/
inductive Out where
  /-- An S2M response on head `h`; DevLoad as R77. -/
  | s2m (h tag : Nat) (rsp : Rsp) (line : Line) (poison : Bool) (devload : Nat)
  /-- A back-invalidate snoop to head `h` for a DPA (R176). -/
  | bisnp (h dpa : Nat) (k : Snp)
  /-- A mailbox or CCI completion: return code, extended status, output (R70). -/
  | cci (src : Src) (ret : Ret) (ext : Nat) (payload : List Byte)
  /-- An SPDM response: 0 a normal response, else the ERROR code's name (1 UnexpectedRequest, 2 InvalidRequest,
  3 UnsupportedRequest, 4 Unspecified, 5 SessionLimitExceeded, 6 DecryptError). -/
  | spdm (sess : Sess) (err : Nat) (payload : List Byte)
  /-- An MCTP control response. -/
  | mctpCtl (payload : List Nat)
  /-- A Terdy message leaving cascade port `p`. -/
  | terdy (p opcode : Nat) (m : Msg)
  /-- Link Control leaving port `p`, with the credits it returns (R260, R265). -/
  | linkCtl (p : Nat) (nak : Bool) (ack : Nat) (credits : List Nat)
  /-- A flit leaving port `p`, and one sent again (R157, R257, R266). -/
  | flit (p : Nat) (bytes : List Byte)
  | resend (p seq : Nat) (bytes : List Byte)
  /-- A Hello handed to port `p` (R253). -/
  | hello (p : Nat) (h : Hello)
  /-- A Stroke Frame handed to port `p` (R278). -/
  | frame (p : Nat) (f : FrameMsg)
  /-- The root's stroke mark leaving port `p` (R47): the low 16 bits of the pool stroke count. -/
  | mark (p stroke : Nat)
  /-- A broadcast of one kind handed to port `p` (R270). -/
  | bcast (p kind : Nat) (b : Bcast)
  /-- The result of a decoder commit: committed, or Commit Error (R63). -/
  | decoder (h i : Nat) (ok : Bool)
  /-- A head's CDAT (R56): the length of its DSMAS range, latencies in ns and bandwidth in MB/s of its DSLBIS entries. -/
  | cdat (h length readNs writeNs mbps : Nat)
  /-- A Broadcast Ack toward a device (R270). -/
  | bcastAck (dest : Nat) (a : BcastAck)
  /-- A Configuration Pull toward a device (R314). -/
  | pull (dest : Nat) (q : PullMsg)
  /-- A Route Notice for device `dest` on port `p` (R272). -/
  | notice (p dest : Nat) (restore : Bool)
  /-- Sleep Request, Sleep Reply and the wake pattern (R285, R286). -/
  | sleepReq (p : Nat)
  | sleepReply (p : Nat) (accept : Bool) (slice : Nat)
  | wakePattern (p : Nat)
  /-- The key message on a link (R158, R159). -/
  | linkKeys (p : Nat) (keys : LinkKeys)
  /-- A Chroten message to the guest tile: opcode plus 256 × META, tag, address, data (R426, R435). -/
  | guest (opcode tag addr : Nat) (line : Line) (poison : Bool)
  /-- A sideband message to the guest: 1 Quiesce, 2 Resume, 3 Stroke Count, 4 register read, 5 register write. -/
  | side (code arg val : Nat)
  /-- `GT_RST_N` driven (R427, R436). -/
  | gtRst (asserted : Bool)
  /-- A Chroten credit or retry toward module `m` (R420, R422). -/
  | chroten (m code : Nat)
  /-- A command to DRAM: 1 REFab, 2 SRE, 3 SRX, 4 probe burst, 5 ZQ, 6 sPPR, 7 re-issued commands, 8 write, 9 read. -/
  | dram (ch r cmd : Nat)
  /-- The burst of a granule's write on channel `ch` (R197, R221): on each beat the nibbles of devices 0 to 19. -/
  | burst (ch gran : Nat) (beats : List (List Nat))
  /-- A head's event interrupt (R399), and the I3C in-band interrupt with mandatory byte 0x5E (R399). -/
  | irq (h : Nat) (log : LogId)
  | ibi
  /-- The in-band interrupt for pending MCTP packets, and their number (R75). -/
  | packets (n : Nat)
  /-- What a head's function shows its host once its link is up (R56). -/
  | function (h : Nat) (c : FnConfig)
  /-- An LTR message of a head with its No-Requirement bits set (R81). -/
  | ltr (h : Nat)
  /-- A dynamic-capacity event record to a head: add or release of an extent (R65). -/
  | dcd (h : Nat) (add : Bool) (e : Extent)
  deriving DecidableEq, Repr

/-! ### Time -/

/-- Stroke counts and alignment (R35 to R55). `missed` counts the strokes without a valid mark, `markBad` says that the marks disagree
with the pool count, found at local stroke `badAt`; `src` is the port that the stroke was last taken from, `phaseErr` and `slew`
(the change of the stroke in progress) are in half ns, `corrAt` is one more than the local stroke of the last phase correction,
`refMoved` says that the reference has changed its source in this stroke (R36), `lastHalfNs` is the length of the last stroke;
`running` lists the non-cuttable items that run past a boundary as class, slice and the local time in ns at which they end (R46);
`tsOfs` is the timestamp's offset, and `tsNow` the timestamp at the boundary that began the present stroke (R459). -/
structure TimeSt where
  loc : Nat := 0
  ofs : Int := 0
  overrun : Bool := false
  realigned : Bool := false
  holdover : Bool := false
  planned : Bool := false
  aligned : Bool := true
  phaseErr : Int := 0
  /-- Offset that stroke jitter has put on the last boundary, in half ns (R418). -/
  jit : Int := 0
  missed : Nat := 0
  markBad : Bool := false
  badAt : Nat := 0
  src : Option Nat := none
  slew : Int := 0
  corrAt : Nat := 0
  refMoved : Bool := false
  running : List (Nat × Nat × Nat) := []
  lastHalfNs : Nat := 2000
  overrunLog : BitVec 32 := 0#32
  tsOfs : Int := 0
  tsNow : Nat := 0
  deriving DecidableEq, Repr

/-- What an activation entry does at its stroke (R48). -/
inductive ActKind where
  /-- The activation of the open transaction (R300, R312), and of a Revert or reconciliation (R302, R315). -/
  | config
  | toSlot
  /-- A scheduled register write (R73). -/
  | regWrite (src : Src) (addr : Nat) (value : BitVec 32)
  /-- The operating-point entry of R450 or R359. -/
  | opPoint (target : Nat)
  /-- A perturbation start (R417). -/
  | pert (slot : Nat)
  /-- A perturbation's expiry: timed by its slot, never an entry of the queue (R48). -/
  | pertEnd (slot : Nat)
  deriving DecidableEq, Repr

/-- One entry of the activation queue (R48). -/
structure ActEntry where
  stroke : Nat
  cls : Nat
  kind : ActKind
  deriving DecidableEq, Repr

/-! ### Configuration -/

/-- A region record (R294, R97). -/
structure Region where
  num : Nat
  base : Nat
  size : Nat
  heads : BitVec 16
  group : Nat
  guest : Bool
  kdom : Nat
  tierMax : Nat
  pageHint : Nat
  t4ok : Bool
  reclaim : Bool
  zeroElide : Bool
  book : Nat
  deriving DecidableEq, Repr

/-- A code book (R121, R124): its identifier and the code lengths of T, LH, LL and D. -/
structure Book where
  id : BitVec 32
  t : List Nat
  lh : List Nat
  ll : List Nat
  d : List Nat
  deriving DecidableEq, Repr

/-- A timing record (R204): RATE, CHANNEL (255 for all), SLOT (255 for both), entries (parameter, value). -/
structure TimingRec where
  rate : Nat
  ch : Nat
  slot : Nat
  ents : List (Nat × Nat)
  deriving DecidableEq, Repr

/-- A delay-table record (R211): the 2,720 bytes. -/
structure DelayRec where
  bytes : List Byte
  deriving DecidableEq, Repr

/-- What an image's records say (R290 to R295), in image order. -/
structure Image where
  version : Nat := 0
  secVersion : Nat := 0
  vendorKeyIdx : Nat := 0
  fwVersion : Nat := 0
  fwHash : BitVec 256 := 0#256
  cfgHash : BitVec 256 := 0#256
  poolTag : Option (BitVec 32 × BitVec 64) := none
  regs : List (Nat × BitVec 32) := []
  regions : List Region := []
  headViews : List (Nat × Bool × Nat) := []
  books : List (Nat × Book) := []
  timing : List TimingRec := []
  delays : List DelayRec := []
  kmRoot : Option (BitVec 256) := none
  poolRoot : Option (BitVec 256) := none
  deriving DecidableEq, Repr

/-- The last check of a slot (`CT_SLOT_VER_n`, `CT_SLOT_STAT_n`). -/
structure SlotChk where
  ver : Nat := 0
  valid : Bool := false
  reason : Nat := 0
  deriving DecidableEq, Repr

/-- Transaction states (R303 to R309). -/
inductive TxnSt where
  | idle | opened | ready | writing | voted | queued
  deriving DecidableEq, Repr

/-- A Metadata run: its first frame, and its mirror's (R242, R467). -/
structure MetaRun where
  tile : Nat
  prim : Nat
  mirror : Option Nat
  deriving DecidableEq, Repr

/-- The one transaction (R303). -/
structure Txn where
  st : TxnSt := .idle
  owner : Option Src := none
  num : Nat := 0
  pool : Bool := false
  lastCmd : Nat := 0
  staged : List (Nat × Nat) := []
  stageIssued : Bool := false
  overlay : Tbl (BitVec 32 × BitVec 32) := []
  target : Option Nat := none
  image : Option Image := none
  wantStroke : Nat := 0
  /-- Metadata runs reserved at Validate (R466). -/
  metaReserved : List MetaRun := []
  deriving DecidableEq, Repr

/-- A background command in progress on one mailbox (R68, R74). -/
inductive BgKind where
  /-- Stage (R304): offset and data. -/
  | stage (off : Nat) (data : List Byte)
  | validate
  /-- Commit and Revert with the activation stroke used, and the version that a Revert goes to. -/
  | commit (stroke : Nat)
  | revert (stroke ver : Nat)
  | poolCommit
  | rest
  /-- Release Range: first page, end, next page, pages freed (R117). -/
  | release (lo hi next : Nat) (freed : Nat)
  | retire (ch r : Nat)
  | rejoin (g : Nat)
  /-- Bay Power Off while the bay powers down (R379). -/
  | bayOff (n : Nat)
  deriving DecidableEq, Repr

structure Bg where
  src : Src
  kind : BgKind
  /-- The command has reached the point after which an abort loses. -/
  queued : Bool := false
  /-- Who asked for its abort, for the next boundary (R74, R308). -/
  aborts : List Src := []
  /-- Abandoned by a control-complex reset (R31). -/
  abandoned : Bool := false
  /-- Its mailbox has been reset since (R13): nobody awaits its completion. -/
  mute : Bool := false
  /-- Its completion, when that waits for the cores to return (R31). -/
  result : Option (Ret × Nat × List Byte) := none
  deriving DecidableEq, Repr

/-- The root's pool decision in progress (R311 to R313): phase 0 none, 1 Prepare due, 2 collecting votes, 3 commit
queued and collecting acknowledgements, 4 Revert due, 5 Revert queued. -/
structure PoolRoot where
  phase : Nat := 0
  src : Option Src := none
  bseq : Nat := 0
  startP : Nat := 0
  actS : Nat := 0
  yes : List Nat := []
  acks : List Nat := []
  named : Nat := 0
  ver : BitVec 32 := 0#32
  digest : BitVec 64 := 0#64
  deriving DecidableEq, Repr

/-- A pool member's reconciliation (R314, R315). -/
structure PoolMember where
  votedAt : Nat := 0
  lastAck : Option (BitVec 32 × Nat × Nat) := none
  pulling : Bool := false
  pullStart : Nat := 0
  pullLast : Nat := 0
  verify : Option (Bool × BitVec 32 × BitVec 64) := none
  /-- Source of the last pool broadcast. -/
  rootId : Option Nat := none
  deriving DecidableEq, Repr

/-- The configuration in force. -/
structure CfgSt where
  /-- Values of RW and RWT register fields that differ from reset, by address. -/
  regs : Tbl (BitVec 32) := []
  /-- The active overlay (R460): mask and value by address. -/
  overlay : Tbl (BitVec 32 × BitVec 32) := []
  active : Image := {}
  primed : Image := {}
  slot : Nat := 3
  /-- The slot that the device primed from (R32). -/
  primedSlot : Nat := 3
  restartPend : Bool := false
  lastReason : Nat := 0
  slots : Tbl SlotChk := []
  txn : Txn := {}
  bg : List Bg := []
  /-- Senders of an abort whose background command has completed since: the next boundary tells them so (R74). -/
  lateAborts : List Src := []
  root : PoolRoot := {}
  member : PoolMember := {}
  /-- The slot and image that a queued Revert or reconciliation goes to; the Bool: the active slot becomes Reverted. -/
  toSlot : Option (Nat × Image × Bool) := none
  /-- Ranges of exposed pages still being released under R301: next page and end, exclusive. -/
  releasing : List (Nat × Nat) := []
  /-- Exposed capacity in 256 MiB units (R466). -/
  capacity : Nat := 0
  /-- Pending SLD QoS thresholds for the next boundary (R80). -/
  qos : Option (Nat × Nat × Nat × Nat) := none
  deriving DecidableEq, Repr

/-- Priming progress: `waiting` is step 2 while the guest has neither attached nor failed (R428); `live`: begun by a Commit. -/
inductive Prim where
  | unprimed | waiting | priming (live : Bool) | primed
  deriving DecidableEq, Repr

/-! ### Non-volatile memories -/

/-- OTP (R316, R317): contents and, in `bad`, the fields that cannot be corrected (0 LIFECYCLE, 1 CAPS, 2 SERIAL, 3 UDS,
4 to 7 VENDOR_HASH, 8 VENDOR_REVOKE, 9 FACTORY_HASH, 10 to 13 OWNER_HASH, 14 certificate). What a part is fused with the spec gives per
part or per variant only: the model starts as a ZC-512 base of stepping 0.0 with the capabilities below (DESIGN CHOICE, log 85). -/
structure Otp where
  lifecycle : Nat := 1
  caps0 : BitVec 32 := 0x010003FF#32
  caps1 : BitVec 32 := 0x40201007#32
  serial : BitVec 64 := 0#64
  uds : BitVec 256 := 0#256
  vendorHash : List (BitVec 256) := [0#256, 0#256, 0#256, 0#256]
  revoke : BitVec 4 := 0#4
  factoryHash : BitVec 256 := 0#256
  owners : List (Bool × BitVec 256) := []
  certs : List Byte := []
  opVolt : List Nat := [850, 790, 730, 680]
  bad : List Nat := []
  deriving DecidableEq, Repr

/-- A journal or pinned record (R402). -/
structure JRec where
  seq : Nat
  stroke : Nat
  loc : Nat
  ev : Nat
  cause : Nat
  slice : Nat
  rep : Nat
  detail : List Nat
  deriving DecidableEq, Repr

/-- A repair-table entry (R403). -/
structure Repair where
  serial : BitVec 32
  ch : Nat
  slot : Nat
  rank : Nat
  chip : Nat
  dev : Nat
  bgrp : Nat
  bank : Nat
  row : Nat
  withheld : Bool
  stroke : Nat
  deriving DecidableEq, Repr

/-- What one copy of the ledger's state block holds, apart from SEQ (R401). -/
structure LedState where
  floor : Nat
  slotA : Nat
  slotB : Nat
  decision : Nat
  decVer : BitVec 32
  decDigest : BitVec 64
  decStroke : Nat
  chainLen : Nat
  deriving DecidableEq, Repr

/-- What the MRAM holds of the parts of the ledger that a held write is to change (R401). -/
structure LedHeld where
  seq : Nat
  prev : Option LedState
  block : LedState
  chain : List Byte
  repairs : List Repair
  deriving DecidableEq, Repr

/-- The ledger (R401 to R404). `seq` and the fields after it are the current copy of the state block; `prev` is the other. -/
structure Ledger where
  seq : Nat := 0
  prev : Option LedState := none
  floor : Nat := 0
  floorBad : Bool := false
  slotA : Nat := 0
  slotB : Nat := 0
  decision : Nat := 0
  decVer : BitVec 32 := 0#32
  decDigest : BitVec 64 := 0#64
  decStroke : Nat := 0
  chain : List Byte := []
  pinned : Tbl JRec := []
  journal : List JRec := []
  next : Nat := 0
  wrapped : Bool := false
  jseq : Nat := 0
  repairs : List Repair := []
  /-- Present while a write is held: the MRAM has not changed yet. -/
  mram : Option LedHeld := none
  deriving DecidableEq, Repr

/-! ### Requests -/

/-- Who makes a request at a home slice (R169, R181): a head of this device, its guest, or a member of another
importing device through port `p`. -/
inductive Rq where
  | head (h : Nat)
  | guest
  | remote (p dev origin group : Nat)
  | push (p dev : Nat)
  deriving DecidableEq, Repr

/-- Request kinds of R176 after classification. -/
inductive ReqKind where
  | sharedRead | ownRead | anyRead | uncachedRead
  /-- MemInv, or MemInvNT when the flag is set. -/
  | ownNoData (nt : Bool)
  | write (mask : BitVec 64) (data : Line) (full : Bool) (mv : MetaV) (hint : Hint)
  | cleanEvict
  deriving DecidableEq, Repr

/-- A request at a home slice: the requester, its tag, the exposed line number and its kind. -/
structure Req where
  rq : Rq
  tag : Nat
  line : Nat
  kind : ReqKind
  /-- Write-buffer or extra-entry requests (R264, R424). -/
  extra : Bool := false
  deriving DecidableEq, Repr

/-! ### Heads -/

/-- One head (R56 to R84). `ide`: 0 no stream, 1 Secure, 2 Insecure. -/
structure Head where
  perst : Bool := true
  up : Bool := false
  held : Bool := false
  rate : Nat := 0
  width : Nat := 0
  cxl : Bool := false
  /-- The CXL.cachemem IDE stream and the CXL.io Link IDE stream (R83): 0 none, 1 Secure, 2 Insecure. -/
  ide : Nat := 0
  ideIo : Nat := 0
  degraded : Bool := false
  retrains : Nat := 0
  decoders : Tbl Decoder := []
  /-- Blocks of 256 MiB in the view, as DC extents accepted (R64). -/
  blocks : List Nat := []
  adds : List Extent := []
  releases : List Nat := []
  ltrEn : Bool := false
  snoopNs : Nat := 0
  noSnoopNs : Nat := 0
  restReq : Bool := false
  restTol : Nat := 0
  devload : Nat := 0
  loadPct : Nat := 0
  oov : Nat := 0
  policy : BitVec 32 := 0#32
  reclaimNum : Nat := 0
  /-- Lines of requests admitted in this stroke, in and out, and the requests that wait at the port (R386). -/
  capIn : Nat := 0
  capOut : Nat := 0
  portQ : List Req := []
  deriving DecidableEq, Repr

/-! ### Well map, cistern and pumps -/

/-- Page states (R88). -/
inductive PgSt where
  | unbacked | stable | moving | promoting
  deriving DecidableEq, Repr

/-- A well map entry (R88, R89). Fields are numbers within the widths of R88. -/
structure MapEntry where
  st : PgSt := .unbacked
  tier : Nat := 0
  raw : Bool := false
  parity : Bool := false
  owner : Nat := 0
  poison : Nat := 0
  book : Nat := 0
  kdom : Nat := 0
  heat : Nat := 0
  stamp : Nat := 0
  cold : Nat := 0
  loc : BitVec 48 := 0#48
  deriving DecidableEq, Repr

/-- A frame-table record: KIND and mask. -/
structure FrameRec where
  kind : Nat
  mask : BitVec 16
  deriving DecidableEq, Repr

/-- A cistern granule (R24, R183): valid, dirty and data of its two lines; `keep` is the local stroke at which a keep
retention ends, `stream` marks KIND 2; `px`: the line carries poison until rewritten. -/
structure Gran where
  v0 : Bool := false
  d0 : Bool := false
  v1 : Bool := false
  d1 : Bool := false
  p0 : Bool := false
  p1 : Bool := false
  l0 : Line := 0#512
  l1 : Line := 0#512
  keep : Option Nat := none
  stream : Bool := false
  deriving DecidableEq, Repr

/-- A queued pump job (R101): its type code, its page, and its queueing order. -/
structure JobReq where
  ty : Nat
  page : Nat
  front : Bool := false
  deriving DecidableEq, Repr

/-- Where a page of a job goes (R102): destination tier, LOC, key domain, whether a poisoned line was found, and `how`: 0
stored, 1 no gain, 2 verification failed, 3 excluded from a segment, 4 dropped for want of room, 5 all zeros. -/
structure JobDest where
  page : Nat
  tier : Nat := 0
  loc : BitVec 48 := 0#48
  kdom : Nat := 0
  poisoned : Bool := false
  raw : Bool := false
  how : Nat := 0
  book : Nat := 0
  deriving DecidableEq, Repr

/-- One page that passes through a pump (R100): the entry whose storage is read, its index in a segment, and the book its new encoding
uses (R134). `hist`: decoded only to reach `page` from its restart point. -/
structure JobStep where
  page : Nat
  e : MapEntry
  idx : Nat := 0
  hist : Bool := false
  book : Nat := 0
  deriving DecidableEq, Repr

/-- A position within a stream that a cut decode saves (R139). -/
structure StreamPos where
  byteOff : Nat := 0
  bitOff : Nat := 0
  page : Nat := 0
  words : Nat := 0
  crc : BitVec 32 := 0#32
  deriving DecidableEq, Repr

/-- A pump job and its saved state (R102). -/
structure Job where
  ty : Nat
  pages : List (Nat × MapEntry)
  dest : List JobDest := []
  /-- Frames reserved as destination storage. -/
  frames : List Nat := []
  need : Nat := 0
  done : Nat := 0
  /-- The pages that pass through the job, in order. -/
  steps : List JobStep := []
  /-- Where the decode of the current page stands (R139). -/
  pos : StreamPos := {}
  readStart : Bool := false
  dirty : List Nat := []
  /-- The job reads behind a fence (R111), it waits on it now, and the strokes that each page has waited (R112). -/
  mustFence : Bool := false
  fencing : Bool := false
  waits : List (Nat × Nat) := []
  decoder : Option Nat := none
  waitDec : Bool := false
  /-- Remote phases (R282): 0 none, 1 waiting for Page Ack, 2 acknowledged. -/
  remote : Nat := 0
  remSince : Nat := 0
  tag : Nat := 0
  granules : Nat := 0
  poisoned : Bool := false
  grantSeen : Bool := false
  /-- Restart spacing and book of the encoding (R134). -/
  rst : Nat := 2
  book : Nat := 0
  /-- First frame of the Metadata run that the job moves (R87). -/
  metaRun : Option Nat := none
  deriving DecidableEq, Repr

/-- A pump slice (R99 to R112). `st` as STATE of `MT_PUMP_STAT`; `finished`: the local stroke in which the job became ready
for its commit phase. -/
structure Pump where
  st : Nat := 0
  job : Option Job := none
  /-- A job cut so that an Evacuate job could run first (R246). -/
  parked : Option Job := none
  result : Nat := 0
  halt : Nat := 0
  haltPage : Nat := 0
  haltGran : Nat := 0
  haltAt : Nat := 0
  pages : Nat := 0
  abort : Bool := false
  budget : Nat := 0
  finished : Option Nat := none
  deriving DecidableEq, Repr

/-- An encoder slice (R139, R140, R142). Its context follows from its pump's job and the source buffer. -/
structure Enc where
  /-- The source buffer: the plaintext that the job has read so far. -/
  src : List Byte := []
  failed : Bool := false
  vfail : Nat := 0
  vfailEpoch : Nat := 0
  deriving DecidableEq, Repr

/-- A decoder slice (R132): its last error and the page of it. -/
structure Dec where
  lastErr : Nat := 0
  errPage : Nat := 0
  deriving DecidableEq, Repr

/-- The walk that evacuates a retired rank (R245). -/
structure Evac where
  ch : Nat
  r : Nat
  deriving DecidableEq, Repr

/-- Per memory tile (R94 to R117, R245). -/
structure TileSt where
  sweepPos : Nat := 0
  /-- One more than the local stroke of the last sweep step. -/
  sweptAt : Nat := 0
  parity : Bool := false
  passEpoch : Nat := 0
  stale : Bool := false
  sumpFree : Nat := 0
  usable : Nat := 0
  high : Nat := 0
  low : Nat := 0
  crit : Nat := 0
  armHigh : Bool := true
  armLow : Bool := true
  armCrit : Bool := true
  queue : List JobReq := []
  cands : List Nat := []
  /-- Pages whose fence was abandoned, with the epoch (R112). -/
  shy : List (Nat × Nat) := []
  lost : List Nat := []
  evacs : List Evac := []
  blocked : Bool := false
  /-- Pages whose evacuation found no destination, until the next decay epoch (R247). -/
  stuck : List Nat := []
  deriving DecidableEq, Repr

/-- Slot states of a code-book slot (R143). -/
inductive BookSt where
  | empty | live | retiring
  deriving DecidableEq, Repr

structure BookSlot where
  st : BookSt := .empty
  book : Option Book := none
  pending : Option Book := none
  deriving DecidableEq, Repr

/-- Key domain states (R149). -/
inductive KdSt where
  | empty | live | retiring | erased
  deriving DecidableEq, Repr

/-- A key domain (R149 to R156): pending message 0 none, 1 Set Key, 2 Retire, 3 Erase; `erasing`: its cached data is being
invalidated. -/
structure KDom where
  st : KdSt := .empty
  k1 : BitVec 256 := 0#256
  k2 : BitVec 256 := 0#256
  pend : Nat := 0
  pk1 : BitVec 256 := 0#256
  pk2 : BitVec 256 := 0#256
  sess : Option Sess := none
  erasing : Bool := false
  deriving DecidableEq, Repr

/-! ### Coherence -/

/-- A snoop outstanding (R172, R173): the sharer it went to and the boundaries it has waited. -/
structure SnpOut where
  who : Nat
  kind : Snp
  age : Nat := 0
  sent : Bool := true
  deriving DecidableEq, Repr

/-- A transaction holding a line of a shared region (R172). `who` 41 is the home slice itself. `after`: the directory
entry that the grant leaves, as state and pointers. -/
structure Hold where
  line : Nat
  dev : Nat
  group : Nat
  req : Option Req
  snps : List SnpOut := []
  responded : Bool := false
  age : Nat := 0
  /-- The line waits for a Push Reply (R185); the guest has accepted, and the entry waits for a way (R174). -/
  push : Bool := false
  accept : Bool := false
  /-- Response seen to BISnpData or BISnpCur. -/
  got : Option SnpRsp := none
  /-- The line whose eviction must free a way first (R174). -/
  victim : Option Nat := none
  deriving DecidableEq, Repr

/-- Directory states (R168). -/
inductive DirSt where
  | s | e | g
  deriving DecidableEq, Repr

/-- A directory entry (R167) of a line not in state I. -/
structure DirEnt where
  line : Nat
  st : DirSt
  dev : Nat
  group : Nat
  ptrs : List Nat
  order : Nat
  deriving DecidableEq, Repr

/-- A home slice (R166 to R175). `noCredit`: requests that wait at their own ports for one of the slice's 256 places (R171);
`bounced`: requests back on their wait lists because every way of their set was held (R175). -/
structure Hs where
  rr : Nat := 0
  waiting : List Req := []
  noCredit : List Req := []
  bounced : List Req := []
  holds : List Hold := []
  dir : List DirEnt := []
  grants : Nat := 0
  ce : Nat := 0
  ue : Nat := 0
  hintDrop : Nat := 0
  /-- The most of its 256 places in use in the stroke, and the heads whose requests it held (R77). -/
  peakQ : Nat := 0
  servedQ : List Nat := []
  deriving DecidableEq, Repr

/-- A read whose data is on its way (READ_COMPLETION). -/
structure ReadIn where
  id : Nat
  rq : Rq
  tag : Nat
  line : Nat
  rsp : List Rsp
  failed : Bool := false
  deriving DecidableEq, Repr

/-- An inline promotion in progress (R26). -/
structure Promo where
  page : Nat
  req : Req
  frame : Nat
  old : MapEntry
  /-- Its place among the home slices' requests (R133). -/
  id : Nat := 0
  failed : Bool := false
  /-- Its write was discarded and answered when its domain went down (R188). -/
  dropped : Bool := false
  deriving DecidableEq, Repr

/-- Domain states (`CT_DOM_STAT_g`). -/
inductive DomSt where
  | none | up | down | rejoining
  deriving DecidableEq, Repr

/-- A coherent domain of this device (R163, R187 to R194). -/
structure Dom where
  st : DomSt := .none
  cause : Nat := 0
  source : Nat := 0
  guest : Bool := false
  members : BitVec 16 := 0#16
  stroke : Nat := 0
  detected : Option (Nat × Nat × Nat) := none
  /-- Slice that detected the last cause. -/
  detSlice : Nat := 0
  /-- New membership asked by Rejoin Domain or to be added. -/
  want : Option (BitVec 16 × Bool) := none
  acks : List Nat := []
  bseq : Nat := 0
  since : Nat := 0
  ackAll : Bool := false
  deriving DecidableEq, Repr

/-! ### DRAM -/

/-- Calibration state of one device (R213): delays, their trained values, the oscillator base and the write drift
applied so far. -/
structure DevCal where
  rd : Int := 0
  wr : Int := 0
  rd0 : Int := 0
  wr0 : Int := 0
  osc : Nat := 0
  drift : Int := 0
  deriving DecidableEq, Repr

/-- Rank states (rank states table). -/
inductive RankSt where
  | off | training | active | retraining | failing | retired | empty
  deriving DecidableEq, Repr

/-- A rank (R205 to R220, R223, R243 to R249). `debt` in units of 2^-16. -/
structure Rank where
  st : RankSt := .off
  debt : Nat := 0
  m : Nat := 0
  mNew : Option Nat := none
  /-- Lengths in half ns of the strokes since the previous poll, for a rise of the rate (R207). -/
  credits : List Nat := []
  hot : Bool := false
  retrains : Nat := 0
  centre : Nat := 0
  centreRun : Nat := 0
  devs : List DevCal := []
  temp : Int := 0
  trainedAt : Nat := 0
  /-- The setting came from a delay-table record (R211). -/
  loaded : Bool := false
  bursts : Nat := 0
  retrainAt : Nat := 0
  /-- One more than the local stroke of the last training window (R215). -/
  winAt : Nat := 0
  install : Option (Setting × Bool) := none
  mark : Option Nat := none
  ce : Tbl (Nat × Nat) := []
  ueWin : List (Nat × Nat) := []
  byCommand : Bool := false
  pendRetire : Bool := false
  trigger : Nat := 0
  lost : Bool := false
  prev : RankSt := .off
  moved : Nat := 0
  madeLost : Nat := 0
  selfRef : Bool := false
  deriving DecidableEq, Repr

/-- An entry of the error address table (R227). -/
structure EatEnt where
  slot : Nat
  gran : Nat
  wb : Bool := false
  hard : Bool := false
  remap : Bool := false
  dev : Nat := 0
  rep : Nat := 0
  corr : Nat := 0
  stroke : Nat := 0
  order : Nat := 0
  deriving DecidableEq, Repr

/-- A row of the repair queue (R231): the granule that caused it, and its rank, device and first frame. -/
structure RepairRow where
  gran : Nat
  r : Nat
  dev : Nat
  frame : Nat
  deriving DecidableEq, Repr

/-- A queued channel access (R200): granule, 2-bit hint, arrival order. -/
structure ChReq where
  gran : Nat
  hint : Nat
  order : Nat
  deriving DecidableEq, Repr

/-- An open row (R203): rank, bank number, row and the hint of its last access. -/
structure OpenRow where
  r : Nat
  bank : Nat
  row : Nat
  hint : Nat
  deriving DecidableEq, Repr

/-- A module sensor of one slot (R381): temperature used, unread flag, silent counts per sensor. -/
structure ModTemp where
  read : Bool := false
  unread : Bool := false
  temp : Int := 0
  silent : List Nat := []
  at_ : Nat := 0
  deriving DecidableEq, Repr

/-- A channel slice (R195 to R234). -/
structure Chan where
  dimm0 : Option Dimm := none
  dimm1 : Option Dimm := none
  rate : Nat := 0
  up : Bool := false
  urgent : Bool := false
  urgentCnt : Nat := 0
  drain : Bool := false
  selfRef : Bool := false
  rq : List ChReq := []
  wq : List ChReq := []
  /-- Requests that wait for a fabric credit while their queue is full (R200): reads and writes. -/
  rwait : List ChReq := []
  wwait : List ChReq := []
  order : Nat := 0
  /-- The highest occupancy of the scheduler queues in the stroke, and the heads whose requests it served (R202, R77). -/
  peakQ : Nat := 0
  servedQ : List Nat := []
  rows : List OpenRow := []
  ranks : Tbl Rank := []
  nextRank : Nat := 0
  eat : List EatEnt := []
  rewrite : List Nat := []
  /-- Granules of the channel window whose scrubber rewrite has not completed (R229). -/
  newer : List Nat := []
  repair : List RepairRow := []
  scrubPos : Nat := 0
  /-- One more than the local stroke of the last scrub turn, burst and MR4 poll. -/
  scrubAt : Nat := 0
  burstAt : Nat := 0
  pollAt : Nat := 0
  /-- Pool stroke at which self-refresh stopped the periodic work; the poll and burst owed on the first boundary after it; and the
  periods of each that were missed, with the strokes of scrubbing (R42). -/
  stopAt : Option Nat := none
  oweP : Bool := false
  oweB : Bool := false
  missP : Nat := 0
  missB : Nat := 0
  missS : Nat := 0
  passes : Nat := 0
  ueFound : Nat := 0
  eatLost : Nat := 0
  ue : Nat := 0
  pprDone : Nat := 0
  pprFailed : Nat := 0
  pprUsed : List (Nat × Nat × Nat) := []
  timing : Tbl Nat := []
  t0 : ModTemp := {}
  t1 : ModTemp := {}
  alert0 : Option Nat := none
  alert1 : Option Nat := none
  pllFailed : Bool := false
  bringUp : List Nat := []
  table : Bool := false
  deriving DecidableEq, Repr

/-! ### Cascade -/

/-- Cascade link states. -/
inductive LinkSt where
  | down | training | keying | up | sleep | waking | refused
  deriving DecidableEq, Repr

/-- A flit kept until acknowledged (R266): its sequence number, its bytes, the times it was sent, and the messages in it. -/
structure SentFlit where
  seq : Nat
  bytes : List Byte := []
  tries : Nat
  since : Nat
  msgs : List (Nat × Msg)
  deriving DecidableEq, Repr

/-- A cascade port slice (R251 to R287, R157 to R160). `credits` are those held, in slots, in the Hello order. -/
structure CPort where
  st : LinkSt := .down
  step : Nat := 0
  stepAt : Nat := 0
  rate : Nat := 0
  width : Nat := 0
  lanes : Nat := 0
  degraded : Bool := false
  aligned : Bool := false
  skew : Bool := false
  diff : Nat := 0
  agree : Nat := 0
  neighbour : Nat := 0
  hello : Option Hello := none
  delay : Nat := 0
  /-- Arrival offsets measured lately: low 16 bits of the stroke, 1/16 ns (R276). -/
  arr : List (Nat × Int) := []
  mark : Nat := 0
  markNew : Bool := false
  replays : Nat := 0
  uncorr : Nat := 0
  uncorrAt : List Nat := []
  downs : Nat := 0
  fec : Nat := 0
  corrNow : Nat := 0
  corrRun : Nat := 0
  credits : List Nat := [0, 0, 0, 0, 0, 0, 0, 0]
  txSeq : Nat := 0
  sent : List SentFlit := []
  rxNext : Nat := 0
  nak : Bool := false
  secSt : Nat := 0
  keySel : Bool := false
  rekeys : Nat := 0
  tagFail : Nat := 0
  tagFailNow : Nat := 0
  /-- SEQ of the flits not accepted yet whose tag has failed (R160). -/
  tagFailSeq : List Nat := []
  keyAt : Nat := 0
  newKey : Bool := false
  oldRxKey : Bool := false
  upAt : Nat := 0
  /-- The last Stroke Frame received, and the local stroke in which it came. -/
  frame : Option FrameMsg := none
  frameAt : Nat := 0
  sleepOrdered : Bool := false
  sleepAsked : Bool := false
  draining : Bool := false
  kept : List (Nat × Msg) := []
  /-- `PT_CP_PORT_CFG` as the last training took it. -/
  cfg : BitVec 32 := 0#32
  /-- Local stroke at which pair alignment was lost. -/
  lostAt : Nat := 0
  /-- Key-select bit of the flits received. -/
  rxSel : Bool := false
  /-- Link keys and salt (R158). -/
  kTx : BitVec 256 := 0#256
  /-- The transmit key that the next boundary changes to (R159). -/
  kTxNew : BitVec 256 := 0#256
  kRx : BitVec 256 := 0#256
  /-- The receive key before a change, held until a flit under the new key arrives (R159). -/
  kRxOld : BitVec 256 := 0#256
  salt : BitVec 32 := 0#32
  /-- Secured Transport fragments so far, and the length they make up (R158). -/
  frag : List Byte := []
  fragTotal : Nat := 0
  /-- As at a head (R386). -/
  capIn : Nat := 0
  capOut : Nat := 0
  portQ : List Req := []
  deriving DecidableEq, Repr

/-- The live state of one route entry (`CT_ROUTE_n` RO bits, R271 to R274). -/
structure Route where
  usingAlt : Bool := false
  unreach : Bool := false
  byNotice : Bool := false
  holdUntil : Option Nat := none
  /-- Switch due at the next boundary, after its port went Down or a notice. -/
  switchDue : Bool := false
  /-- Return to PRIMARY when the hold ends (R272, R274). -/
  returnDue : Bool := false
  held : List (Nat × Msg) := []
  deriving DecidableEq, Repr

/-- A request forwarded to an owning device (R282), by its TAG. -/
structure Fwd where
  tag : Nat
  rq : Rq
  rtag : Nat
  page : Nat
  line : Nat
  dest : Nat
  read : Bool
  kind : ReqKind
  since : Nat
  retried : Bool := false
  /-- Responses so far: 1 MemData, 2 Cmp. -/
  got : Nat := 0
  deriving DecidableEq, Repr

/-- A Page Free waiting for its Page Ack (R284). -/
structure FreeOut where
  tag : Nat
  dest : Nat
  addr : Nat
  since : Nat
  again : Bool := false
  deriving DecidableEq, Repr

/-- A page arriving at an owner (R282): importer, tag, page and granules so far. -/
structure PageIn where
  src : Nat
  tag : Nat
  page : Nat
  frame : Nat
  kdom : Nat := 0
  got : Nat
  poison : List (Nat × Nat)
  deriving DecidableEq, Repr

/-- A Pull's fence at the owner (R283). -/
structure FetchIn where
  src : Nat
  tag : Nat
  page : Nat
  deriving DecidableEq, Repr

structure CasSt where
  ports : Tbl CPort := []
  routes : Tbl Route := []
  fwd : List Fwd := []
  frees : List FreeOut := []
  pagesIn : List PageIn := []
  fetchIn : List FetchIn := []
  nextTag : Nat := 0
  /-- Tags not to be reused yet: tag and the stroke from which it may be (R273). -/
  resting : List (Nat × Nat) := []
  /-- Remembered messages: local stroke, SRC, TAG, OPCODE, ADDR (R273). -/
  seen : List (Nat × Nat × Nat × Nat × Nat) := []
  epoch : BitVec 32 := 0#32
  bseq : Nat := 0
  /-- Accepted EPOCH and BSEQ by source (R270). -/
  heard : Tbl (BitVec 32 × Nat) := []
  /-- Domain Up broadcasts to be applied and acknowledged at the next boundary, with the domain's key (R194). -/
  ups : List (Nat × Bcast) := []
  hops : Nat := 0
  deriving DecidableEq, Repr

/-! ### Security -/

/-- An open SPDM session (R326): transport, id, mutual authentication with the key-manager root, phase. -/
structure Session where
  sess : Sess
  bothAuth : Bool := false
  kmRoot : Bool := false
  finished : Bool := false
  deriving DecidableEq, Repr

/-- A key message with its operation (R152). -/
structure KeyReq where
  sess : Sess
  op : Nat
  req : List Byte
  deriving DecidableEq, Repr

structure SecSt where
  nonce : Option (BitVec 256) := none
  fails : Nat := 0
  lockUntil : Option Nat := none
  scope : BitVec 4 := 0#4
  scopePend : Option (BitVec 4 × Nat) := none
  expiry : Nat := 0
  dbgEver : Bool := false
  sessions : List Session := []
  /-- Active since, for FLOOR_HOLD (local stroke). -/
  activeAt : Nat := 0
  /-- Scope bit 3 was opened: the device stays unprimed with scan open until cold reset (R331). -/
  scan : Bool := false
  /-- Key messages that wait for the one being handled (R153). -/
  keyq : List KeyReq := []
  /-- Transports that have negotiated algorithms. -/
  negotiated : List Transport := []
  deriving DecidableEq, Repr

/-- The management cores (R30 to R34, R333). -/
structure Cores where
  away : Bool := false
  halted : Bool := false
  resets : List Nat := []
  mismatch : Nat := 0
  wdog : Nat := 0
  fetchUe : Nat := 0
  /-- Records queued while the cores are away: destination key, log and record (R34). -/
  queue : List (Nat × LogId × EvRec) := []
  lostRecs : Nat := 0
  /-- Commands over MCTP and SPDM messages that wait until the cores run again (R30). -/
  paused : List Instr := []
  deriving DecidableEq, Repr

/-! ### Power states -/

structure Refuser where
  slice : Nat
  cause : Nat
  refused : Nat
  aborted : Nat
  order : Nat
  deriving DecidableEq, Repr

/-- Power state (R334 to R348). `done` is the number of entry steps performed; `stepBusy` says that the next one has begun, at
`stepAt`; `mark` is one more than the local stroke of the last entry or wake step; `woken` counts the tiles ungated. -/
structure PwrSt where
  st : Nat := 0
  target : Nat := 0
  entering : Bool := false
  waking : Bool := false
  wakeTo : Nat := 0
  done : Nat := 0
  stepBusy : Bool := false
  stepAt : Nat := 0
  mark : Nat := 0
  tileAt : Nat := 0
  woken : Nat := 0
  /-- The re-wake follows a refusal (R339). -/
  refused : Bool := false
  /-- The wake interrupted an entry (R345). -/
  cut : Bool := false
  src : Nat := 0
  idx : Nat := 0
  exit1 : Nat := 2
  exit2 : Nat := 20
  exit3 : Nat := 200
  exit4 : Nat := 5000
  lastCause : Nat := 0
  lastSlice : Nat := 0
  lastHeld : Nat := 0
  lastPartner : Nat := 0
  /-- Slice that the partner named in its Sleep Reply (R341). -/
  partnerSlice : Nat := 0
  entries : Nat := 0
  interrupted : Nat := 0
  refusers : List Refuser := []
  refOrder : Nat := 0
  res : List Nat := [0, 0, 0, 0, 0]
  changed : Nat := 0
  retryAt : Option Nat := none
  idleSince : Nat := 0
  afterWake : Bool := false
  deriving DecidableEq, Repr

/-! ### Clocks, operating points and supplies -/

/-- A monitored clock (R354 to R356), keyed by the clock's number. -/
structure Mon where
  bad : Nat := 0
  good : Nat := 0
  failed : Bool := false
  lastFail : Option Nat := none
  latched : Bool := false
  goodNow : Bool := false
  /-- The next window is not judged (R354). -/
  skip : Bool := false
  deriving DecidableEq, Repr

structure ClkSt where
  refSrc : Nat := 2
  straps : Straps := { nvmMode := false, oscWait := 0, i3cSa := 0, testMode := false }
  mons : Tbl Mon := []
  trims : Tbl Int := []
  trimFrozen : Bool := false
  /-- One more than the local stroke of the last trim (R357). -/
  trimAt : Nat := 0
  onRc : BitVec 11 := 0#11
  failTile : Nat := 0
  failDom : Nat := 0
  failIdx : Nat := 0
  forced : Nat := 0
  clkout : BitVec 32 := 1#32
  clkoutPend : Option (BitVec 32) := none
  opNow : Nat := 3
  moving : Bool := false
  raising : Bool := false
  opTo : Nat := 3
  opStart : Nat := 0
  /-- The local stroke at which the rails of the sequence began to move, and by how many mV (R360). -/
  slewAt : Nat := 0
  slewMv : Nat := 0
  pllLocked : List Nat := []
  railMv : List Nat := [750, 750, 750, 750]
  railTgt : List Nat := [750, 750, 750, 750]
  settled : List Nat := [0, 1, 2, 3]
  lowered : Bool := false
  opFault : Bool := false
  faultRail : Nat := 0
  deferred : Bool := false
  booted : Bool := false
  aon : Bool := true
  gateRefused : Tbl Nat := []
  deriving DecidableEq, Repr

/-- Supply monitors (R363 to R366): `now` by key rail * 16 + tile, in 50 µV, `low` by rail. -/
structure SupSt where
  brace : Bool := false
  rail : Nat := 0
  tile : Nat := 0
  warn : BitVec 8 := 0#8
  dips : Nat := 0
  since : Nat := 0
  goodRun : Nat := 0
  lowest : Nat := 0xFFFF
  now : Tbl Nat := []
  low : Tbl Nat := []
  held : List Nat := []
  /-- Rail and tile of the last reset crossing, in the retention flops of R366. -/
  latch : Option (Nat × Nat) := none
  rstRun : Tbl Nat := []
  /-- The last sample of `BAY_VIN`, in 50 µV (R371). -/
  vin : Nat := 30000
  deriving DecidableEq, Repr

/-! ### Bays, thermal, events -/

inductive BaySt where
  | empty | off | queued | ramping | good | limiting | down | retry | latched
  deriving DecidableEq, Repr

/-- A bay controller (R367 to R379). `order` is the stroke at which it was queued, `debounce` the end of a debounce that leads to
the queue, `causeAt` one more than the stroke of CAUSE. -/
structure Bay where
  st : BaySt := .empty
  pres0 : Bool := false
  pres1 : Bool := false
  dimm0 : Option Dimm := none
  dimm1 : Option Dimm := none
  reinsert : Bool := false
  cause : Nat := 0
  causeAt : Nat := 0
  retries : Nat := 0
  timerEnd : Nat := 0
  timerOn : Bool := false
  sns : Nat := 0
  vout : Nat := 0
  limitCnt : Nat := 0
  trip : Nat := 0
  damaged : Nat := 0
  pulls : Nat := 0
  order : Nat := 0
  fromGood : Bool := false
  goodAt : Nat := 0
  /-- Start of the ramp, moved by the time spent Limiting; and when that began (R372). -/
  rampAt : Nat := 0
  limAt : Nat := 0
  gateLow : Bool := false
  debounce : Option Nat := none
  downAt : Nat := 0
  deriving DecidableEq, Repr

/-- A tile's sensor (R380 to R387), temperatures in 1/64 °C. -/
structure Sens where
  raw : Int := 0
  used : Int := 0
  failed : Bool := false
  dev : Nat := 0
  inv : Nat := 0
  crit : Nat := 0
  rate : Bool := false
  /-- Lowest used value of each span of 10,000 strokes, by span number (R387). -/
  spans : List (Nat × Int) := []
  /-- The sample that the next boundary acts on (R380). -/
  fresh : Option Int := none
  at_ : Nat := 0
  seen : Bool := false
  deriving DecidableEq, Repr

structure ThermSt where
  sens : Tbl Sens := []
  throttle : Bool := false
  startAt : Nat := 0
  enforced : Bool := false
  latched : Bool := false
  tile : Nat := 0
  kind : Nat := 0
  ch : Nat := 0
  lost : Nat := 0
  deriving DecidableEq, Repr

/-- Events (R394 to R400). `now` lists the events raised in the present stroke with their records' folding key. -/
structure EvSt where
  pend : BitVec 256 := 0#256
  firstN : Nat := 0
  /-- `FAULT_N` is asserted, and the local stroke at which its last N bit was cleared (R397). -/
  faultPin : Bool := false
  faultClear : Nat := 0
  dropped : Nat := 0
  now : List Nat := []
  logs : Tbl EvLog := []
  /-- Route values in force, where they differ from the class default (R398). -/
  routes : Tbl Nat := []
  queue : List JRec := []
  deriving DecidableEq, Repr

/-- A counter (R405 to R411). -/
structure Cnt where
  count : Nat := 0
  ovf : Bool := false
  gen : Nat := 0
  cfg : BitVec 32 := 0#32
  want : Option (BitVec 32) := none
  deriving DecidableEq, Repr

/-- A bandwidth source (R413 to R415); results as (SEQ, PARTIAL, BYTES, read). -/
structure Bw where
  k : Nat := 10
  missed : Nat := 0
  acc0 : Nat := 0
  acc1 : Nat := 0
  seq : Nat := 0
  partialWin : Bool := false
  toggle : Bool := false
  r00 : Nat × Bool × Nat × Bool := (0, false, 0, true)
  r01 : Nat × Bool × Nat × Bool := (0, false, 0, true)
  r10 : Nat × Bool × Nat × Bool := (0, false, 0, true)
  r11 : Nat × Bool × Nat × Bool := (0, false, 0, true)
  want : Option Nat := none
  /-- One more than the local stroke at which a window last closed or restarted. -/
  doneAt : Nat := 0
  deriving DecidableEq, Repr

/-- A perturbation slot (R416 to R418): state 0 idle, 1 armed, 2 active. -/
structure Pert where
  st : Nat := 0
  kind : Nat := 0
  unit : Bool := false
  target : Nat := 0
  mag : Nat := 0
  start : Nat := 0
  dur : Nat := 0
  endAt : Nat := 0
  stop : Bool := false
  deriving DecidableEq, Repr

/-! ### Chroten and the guest -/

/-- A Chroten module (R419, R420): state 0 down, 1 training, 2 up, 3 L1, 4 out of use. -/
structure Mod where
  st : Nat := 0
  rate : Nat := 0
  repaired : Bool := false
  /-- It has been up since the last `RESET_N`: another training is a retrain. -/
  trained : Bool := false
  retrains : Nat := 0
  retries : Nat := 0
  leaves : List Nat := []
  credits : List Nat := [256, 128, 256, 64]
  deriving DecidableEq, Repr

/-- A message bound for the guest: opcode (plus 256 × META), tag, address, data and poison (R426). -/
structure GMsg where
  op : Nat
  tag : Nat
  addr : Nat
  line : Line
  poison : Bool
  deriving DecidableEq, Repr

/-- A register access that the guest has not completed (R442): who asked, whether it writes, where, its size and value, when it was
sent, and whether a control-complex reset has abandoned its command. -/
structure GAccess where
  src : Src
  write : Bool
  off : Nat
  size : Nat
  val : Nat
  at_ : Nat
  abandoned : Bool := false
  deriving DecidableEq, Repr

/-- The guest tile (R427 to R443). `st`: 0 in reset, 1 attaching, 2 attached, 3 failed. -/
structure GuestSt where
  st : Nat := 0
  coherent : Bool := false
  cause : Nat := 0
  violations : Nat := 0
  oov : Nat := 0
  idReg : BitVec 32 := 0#32
  caps : BitVec 32 := 0#32
  credits : List Nat := []
  relAt : Nat := 0
  rstAt : Nat := 0
  failPend : Option Nat := none
  lateFit : Bool := false
  quiesce : Nat := 0
  /-- The local stroke at which Resume was sent, while Resumed is awaited. -/
  resumeWait : Option Nat := none
  /-- Register accesses toward the guest, oldest first; the first is outstanding. -/
  access : List GAccess := []
  noneUp : Nat := 0
  /-- Messages that wait for credits or for a module. -/
  kept : List GMsg := []
  /-- A coherent guest was fitted at the last priming (R428). -/
  fit : Bool := false
  deriving DecidableEq, Repr

/-- The MCTP endpoint (R75). -/
structure MctpSt where
  eid : Nat := 0
  addr : Option Nat := none
  deriving DecidableEq, Repr

/-- The whole device apart from the queue of waiting commands. -/
structure Dev where
  time : TimeSt := {}
  acts : List ActEntry := []
  cfg : CfgSt := {}
  prim : Prim := .unprimed
  resetHeld : Bool := false
  resetDue : Option Nat := none
  otp : Otp := {}
  nvm : List Host.Cell := []
  nvmWait : Nat := 0
  led : Ledger := {}
  heads : Tbl Head := []
  wmap : Tbl MapEntry := []
  frames : Tbl FrameRec := []
  metaRuns : List MetaRun := []
  dram : List Host.Cell := []
  poison : Tbl Nat := []
  cist : Tbl Gran := []
  tiles : Tbl TileSt := []
  pumps : Tbl Pump := []
  encs : Tbl Enc := []
  decs : Tbl Dec := []
  books : Tbl BookSlot := []
  kdoms : Tbl KDom := []
  hs : Tbl Hs := []
  reads : List ReadIn := []
  promos : List Promo := []
  /-- The heat decay pass (R43): one more than the epoch of the pass under way, the first page it has still to reach, whether a pass is
  owed after wake, and the passes missed (R42). -/
  decayEp : Nat := 0
  decayPos : Nat := 0
  oweD : Bool := false
  missD : Nat := 0
  nextRead : Nat := 0
  doms : Tbl Dom := []
  /-- Domains of other importing devices that are Down here, keyed by device * 256 + g, with a pending down. -/
  remDown : Tbl Nat := []
  /-- Pool stroke at which the cause of such a down was detected (R189). -/
  remAt : Tbl Nat := []
  dry : List Nat := []
  overLimit : Bool := false
  chans : Tbl Chan := []
  cas : CasSt := {}
  sec : SecSt := {}
  cores : Cores := {}
  pwr : PwrSt := {}
  clk : ClkSt := {}
  sup : SupSt := {}
  bays : Tbl Bay := []
  therm : ThermSt := {}
  ev : EvSt := {}
  cnts : Tbl Cnt := []
  bws : Tbl Bw := []
  perts : Tbl Pert := []
  mods : Tbl Mod := []
  gst : GuestSt := {}
  mctp : MctpSt := {}
  out : List Out := []
  /-- The model's own counter of free values taken: no field of the spec. -/
  free : Nat := 0
  deriving DecidableEq, Repr

/-- The state: the device, and the commands that wait, first in, first out. -/
structure State where
  dev : Dev
  pending : List Instr
  deriving DecidableEq, Repr

/-- Why a step can stop as a fault. No command of this block stops: every row of the table has an effect in every
state, or none at all, so no reason is raised by any meaning (safe). -/
inductive Fault where
  deriving DecidableEq, Repr

/-- Why a command has no meaning. -/
inductive Refusal where
  /-- Raised by an arm of `exec` for a command not modelled yet: safe, nothing is claimed of it. -/
  | notModelled (mnemonic : String)
  deriving DecidableEq, Repr

/-- The device right after cold reset: unprimed, nothing written, the OTP of a ZC-512 that no owner has claimed. -/
def State.reset : State := { dev := {}, pending := [] }

end Sys2Proof.Machine
end

