-- ==== Sys2Proof/Machine/Ops.lean ====
section
/-! DEFINITION. The named operations over the state: sparse tables and byte memories, which units are present, the
configuration register file, and raising an event (R394 to R402). -/

namespace Sys2Proof.Machine

open Sys2Proof

/-! ### Sparse tables -/

/-- What key `k` holds, `dflt` where the table lists nothing. -/
def Tbl.get {α : Type} (dflt : α) : Tbl α → Nat → α
  | [], _ => dflt
  | (j, v) :: t, k => if k = j then v else Tbl.get dflt t k

/-- List `v` under key `k`, keeping the keys strictly rising. -/
def Tbl.put {α : Type} : Tbl α → Nat → α → Tbl α
  | [], k, v => [(k, v)]
  | (j, w) :: t, k, v => if k = j then (k, v) :: t else if k < j then (k, v) :: (j, w) :: t else (j, w) :: Tbl.put t k v

/-- List nothing under key `k`. -/
def Tbl.del {α : Type} (t : Tbl α) (k : Nat) : Tbl α := t.filter fun e => e.1 != k

/-- Hold `v` under key `k`; the default value is held by listing nothing. -/
def Tbl.set {α : Type} [DecidableEq α] (dflt : α) (t : Tbl α) (k : Nat) (v : α) : Tbl α :=
  if v = dflt then Tbl.del t k else Tbl.put t k v

/-- Apply `f` to what key `k` holds. -/
def Tbl.upd {α : Type} [DecidableEq α] (dflt : α) (t : Tbl α) (k : Nat) (f : α → α) : Tbl α :=
  Tbl.set dflt t k (f (Tbl.get dflt t k))

/-! ### Byte memories -/

/-- What an unlisted byte of DRAM reads as (log entry 4). -/
def dramBlank : Byte := 0#8

/-- What an unlisted byte of the NVM reads as: erased flash (log entry 5). -/
def nvmBlank : Byte := 0xFF#8

/-- The canonical form of a byte memory: addresses strictly rising and no entry equal to the blank byte. -/
def Memory.wf (blank : Byte) : List Host.Cell → Bool
  | [] => true
  | [(_, v)] => v != blank
  | (a, v) :: (b, w) :: t => v != blank && decide (a < b) && Memory.wf blank ((b, w) :: t)

def Memory.read (blank : Byte) (m : List Host.Cell) (a : Nat) : Byte := Tbl.get blank m a

def Memory.write (blank : Byte) (m : List Host.Cell) (a : Nat) (v : Byte) : List Host.Cell := Tbl.set blank m a v

/-- `n` bytes from address `a` upward. -/
def Memory.readN (blank : Byte) (m : List Host.Cell) (a n : Nat) : List Byte :=
  (List.range n).map fun i => Memory.read blank m (a + i)

def Memory.writeN (blank : Byte) (m : List Host.Cell) (a : Nat) : List Byte → List Host.Cell
  | [] => m
  | b :: bs => Memory.writeN blank (Memory.write blank m a b) (a + 1) bs

/-- Remove every entry from `a` up to but not including `a + n`: those bytes read blank again. -/
def Memory.wipe (m : List Host.Cell) (a n : Nat) : List Host.Cell :=
  m.filter fun c => !(decide (a ≤ c.1) && decide (c.1 < a + n))

/-! ### Bytes and fields -/

/-- A little-endian number from bytes. -/
def leNat : List Byte → Nat
  | [] => 0
  | b :: bs => b.toNat + 256 * leNat bs

/-- `n` bytes of a number, low-order first. -/
def leBytes : Nat → Nat → List Byte
  | 0, _ => []
  | n + 1, v => BitVec.ofNat 8 v :: leBytes n (v / 256)

/-- A big-endian 256-bit number from bytes. -/
def be256 (bs : List Byte) : BitVec 256 := BitVec.ofNat 256 (leNat bs.reverse)

/-- Bytes `off` to `off + n − 1` of a list, zero where it ends. -/
def sub (bs : List Byte) (off n : Nat) : List Byte :=
  (List.range n).map fun i => bs.getD (off + i) 0#8

/-- A little-endian field of a list. -/
def fieldAt (bs : List Byte) (off n : Nat) : Nat := leNat (sub bs off n)

/-- Bits `hi` to `lo` of a number. -/
def bits (v hi lo : Nat) : Nat := (v / 2 ^ lo) % 2 ^ (hi + 1 - lo)

/-- One bit of a number. -/
def bit (v i : Nat) : Bool := v / 2 ^ i % 2 == 1

/-- Add one, holding at `mx`. -/
def satInc (mx v : Nat) : Nat := if v < mx then v + 1 else mx

/-- A Bool as 0 or 1. -/
def b2n (b : Bool) : Nat := if b then 1 else 0

/-- A signed number as `w` bits of two's complement. -/
def twos (w : Nat) (i : Int) : Nat := (i % (2 : Int) ^ w).toNat

/-- The bytes of a line, lowest address first. -/
def lineBytes (l : Line) : List Byte := leBytes 64 l.toNat

/-- A line from its bytes. -/
def lineOf (bs : List Byte) : Line := BitVec.ofNat 512 (leNat bs)

/-- A line with the bytes that a mask names taken from `new` (R176 MemWrPtl). -/
def mergeLine (mask : BitVec 64) (old new : Line) : Line :=
  lineOf ((List.range 64).map fun i =>
    if mask.getLsbD i then (new.toNat / 256 ^ i : Nat) |> BitVec.ofNat 8 else (old.toNat / 256 ^ i : Nat) |> BitVec.ofNat 8)

/-- CRC-32C of a byte list (R127): reflected polynomial 0x82F63B78, start and final XOR of all ones. -/
def crcBit (c : BitVec 32) : BitVec 32 :=
  if c.getLsbD 0 then (c >>> 1) ^^^ 0x82F63B78#32 else c >>> 1

def crcByte (c : BitVec 32) (b : Byte) : BitVec 32 :=
  let x := c ^^^ b.zeroExtend 32
  crcBit (crcBit (crcBit (crcBit (crcBit (crcBit (crcBit (crcBit x)))))))

def crcRun : BitVec 32 → List Byte → BitVec 32
  | c, [] => c
  | c, b :: bs => crcRun (crcByte c b) bs

def crc32c (bs : List Byte) : BitVec 32 := crcRun 0xFFFFFFFF#32 bs ^^^ 0xFFFFFFFF#32

/-! ### Units present (R1 to R5, R9) -/

/-- `CT_CAPS0` as it reads (R3, R317). -/
def Dev.caps0 (d : Dev) : BitVec 32 := if 1 ∈ d.otp.bad then 0x00000003#32 else d.otp.caps0

/-- `CT_CAPS1` as it reads (R3, R317). -/
def Dev.caps1 (d : Dev) : BitVec 32 := if 1 ∈ d.otp.bad then 0#32 else d.otp.caps1

def Dev.tilePresent (d : Dev) (t : Nat) : Bool := decide (t < 11) && bit d.caps0.toNat t

def Dev.nHosts (d : Dev) : Nat := bits d.caps1.toNat 15 8

def Dev.nChans (d : Dev) : Nat := bits d.caps1.toNat 23 16

def Dev.nHs (d : Dev) : Nat := bits d.caps1.toNat 31 24

def Dev.hasZw (d : Dev) : Bool := bit d.caps1.toNat 0

def Dev.hasEnc (d : Dev) : Bool := bit d.caps1.toNat 1

def Dev.hasGuest (d : Dev) : Bool := d.tilePresent 10

/-- Number of memory tiles present. -/
def Dev.nTiles (d : Dev) : Nat := d.nHs / 16

/-- A slice as `CT_OVERRUN_LOG` [27:16] encodes it. -/
def sliceOf (tile win idx : Nat) : Nat := tile * 256 + win * 16 + idx

def headSlice (h : Nat) : Nat := sliceOf (2 + h / 4) 1 (h % 4)
def portSlice (p : Nat) : Nat := sliceOf (2 + p / 4) 2 (p % 4)
def chanSlice (c : Nat) : Nat := sliceOf (6 + c / 8) 1 (c % 8)
def hsSlice (n : Nat) : Nat := sliceOf (6 + n / 16) 2 (n % 16)
def encSlice (n : Nat) : Nat := sliceOf (6 + n / 8) 3 (n % 8)
def decSlice (n : Nat) : Nat := sliceOf (6 + n / 16) 4 (n % 16)
def pumpSlice (n : Nat) : Nat := sliceOf (6 + n / 8) 5 (n % 8)
def tileSlice (t : Nat) : Nat := sliceOf t 0 0
/-- Memory tile MTk's window 0. -/
def mtSlice (k : Nat) : Nat := sliceOf (6 + k) 0 0

/-- Units of one type in one window of a tile (R9). -/
def winSize (tile win : Nat) : Nat :=
  if 2 ≤ tile ∧ tile ≤ 5 then (if win = 1 ∨ win = 2 then 4 else 0)
  else if 6 ≤ tile ∧ tile ≤ 9 then
    (if win = 1 then 8 else if win = 2 then 16 else if win = 3 then 8 else if win = 4 then 16 else if win = 5 then 8 else 0)
  else 0

/-- Whether the unit whose window and index these are is fitted (R4): window 0 is the tile itself. -/
def Dev.unitPresent (d : Dev) (tile win idx : Nat) : Bool :=
  d.tilePresent tile &&
    (win == 0 || (decide (idx < winSize tile win) && ((win != 3 && win != 4) || d.hasZw)))

/-- An offset in window 0 of a memory tile that belongs to its ZW16 unit ZWk, or to its XTS unit XTSk (R1). -/
def inZwUnit (off : Nat) : Bool := decide (0x9000 ≤ off) && decide (off < 0xA000)
def inXtsUnit (off : Nat) : Bool := (decide (0xA000 ≤ off) && decide (off < 0xB000)) || (decide (0x10000 ≤ off) && decide (off < 0x14000))

/-- An offset in window 0 of the control tile that belongs to a bay, and the bay's number (R367). -/
def bayOff? (off : Nat) : Option Nat := if 0x800 ≤ off ∧ off < 0xA00 then some ((off - 0x800) / 16) else none

/-- The unit named by a slice code. -/
def Dev.slicePresent (d : Dev) (s : Nat) : Bool := d.unitPresent (s / 256) (s / 16 % 16) (s % 16)

/-! ### Strokes -/

/-- The pool stroke count (R39): local count plus offset. -/
def Dev.pool (d : Dev) : Nat := (Int.ofNat d.time.loc + d.time.ofs).toNat

/-- The decay epoch (R93). -/
def Dev.epoch (d : Dev) : Nat := d.pool / 1024

/-- The device timestamp (R459). -/
def Dev.stamp (d : Dev) : Nat := (Int.ofNat (d.time.loc * 1000) + d.time.tsOfs).toNat

/-! ### The configuration registers -/

/-- When a register's new value takes effect (R292, R293). -/
inductive RegCls where
  | live | pool | restart | training
  deriving DecidableEq, Repr

/-- An RWT field: its bits, reset value and stated range. -/
structure RwtF where
  hi : Nat
  lo : Nat
  rst : Nat
  mn : Nat
  mx : Nat
  deriving DecidableEq, Repr

/-- A register, or a table of registers, with RWT fields: the tiles that carry it, the window, the offset of the first,
the stride, the count, its class and its RWT fields. -/
structure RegDesc where
  t0 : Nat
  t1 : Nat
  win : Nat
  off : Nat
  stride : Nat
  count : Nat
  cls : RegCls
  fields : List RwtF
  deriving DecidableEq, Repr

/-- A field that takes any value of its width. -/
def RwtF.any (hi lo rst : Nat) : RwtF := { hi, lo, rst, mn := 0, mx := 2 ^ (hi + 1 - lo) - 1 }

def regsCt : List RegDesc :=
  [ ⟨0, 0, 0, 0x214, 0, 1, .live, [⟨15, 8, 50, 10, 100⟩, ⟨7, 0, 4, 1, 20⟩]⟩,
    ⟨0, 0, 0, 0x300, 0, 1, .live, [.any 15 0 0]⟩,
    ⟨0, 0, 0, 0x320, 0, 1, .live, [.any 31 31 0]⟩,
    ⟨0, 0, 0, 0x340, 0, 1, .live, [⟨12, 0, 1024, 1, 4096⟩]⟩,
    ⟨0, 0, 0, 0x360, 0, 1, .pool, [⟨15, 0, 256, 256, 65535⟩]⟩,
    ⟨0, 0, 0, 0x380, 0, 1, .live, [.any 31 31 1, ⟨23, 16, 4, 1, 255⟩, ⟨15, 8, 4, 1, 255⟩]⟩,
    ⟨0, 0, 0, 0x3A0, 0, 1, .restart, [.any 31 31 0, .any 11 0 0]⟩,
    ⟨0, 0, 0, 0x3A4, 0, 1, .pool, [.any 31 16 1024, ⟨15, 12, 4, 2, 15⟩, ⟨11, 8, 4, 1, 15⟩, ⟨7, 0, 16, 1, 255⟩]⟩,
    ⟨0, 0, 0, 0x3E0, 0, 1, .live, [⟨31, 16, 256, 16, 65535⟩, ⟨15, 8, 64, 8, 255⟩, ⟨7, 0, 16, 1, 255⟩]⟩,
    ⟨0, 0, 0, 0x3E4, 0, 1, .live, [⟨15, 0, 1024, 512, 65535⟩]⟩,
    ⟨0, 0, 0, 0x448, 0, 1, .live, [⟨31, 16, 1024, 64, 65535⟩, .any 15 0 1024]⟩,
    ⟨0, 0, 0, 0x504, 0, 1, .live, [⟨31, 16, 1024, 16, 65535⟩, ⟨15, 8, 64, 1, 255⟩, ⟨7, 4, 4, 1, 15⟩, .any 3 3 1,
      .any 2 2 1, .any 1 1 1, .any 0 0 1]⟩,
    ⟨0, 0, 0, 0x508, 0, 1, .live, [⟨23, 16, 16, 1, 255⟩, ⟨5, 0, 8, 1, 32⟩]⟩,
    ⟨0, 0, 0, 0x604, 0, 1, .live, [.any 31 31 1, ⟨23, 16, 20, 5, 100⟩]⟩,
    ⟨0, 0, 0, 0x610, 0, 1, .live, [.any 31 30 0, ⟨15, 8, 10, 2, 100⟩, ⟨7, 0, 25, 2, 100⟩]⟩,
    ⟨0, 0, 0, 0x660, 0, 1, .live, [⟨7, 0, 10, 5, 40⟩]⟩,
    ⟨0, 0, 0, 0x700, 0, 1, .live, [⟨31, 28, 2, 1, 8⟩, ⟨27, 20, 5, 1, 25⟩, ⟨19, 16, 8, 4, 10⟩, .any 15 15 0]⟩,
    ⟨0, 0, 0, 0x800, 16, 32, .live, [⟨31, 25, 32, 10, 100⟩, ⟨24, 19, 5, 1, 50⟩, ⟨18, 12, 10, 0, 100⟩,
      ⟨11, 8, 3, 1, 15⟩, ⟨7, 3, 2, 1, 16⟩]⟩ ]

def regsCt2 : List RegDesc :=
  [ ⟨0, 0, 0, 0xA00, 0, 1, .live, [⟨31, 24, 98, 60, 105⟩, ⟨23, 20, 3, 1, 15⟩, .any 15 0 2000]⟩,
    ⟨0, 0, 0, 0xA04, 0, 1, .live, [⟨31, 24, 90, 50, 100⟩, ⟨23, 16, 10, 0, 100⟩, ⟨15, 8, 50, 10, 100⟩, ⟨7, 0, 8, 0, 30⟩]⟩,
    ⟨0, 0, 0, 0xA08, 0, 1, .live, [.any 31 24 0, .any 23 16 85]⟩,
    ⟨0, 0, 0, 0x4000, 4, 4096, .pool, [.any 31 31 0, .any 30 30 0, .any 7 4 0, .any 3 0 0]⟩,
    ⟨0, 0, 0, 0x8000, 16, 64, .pool, [.any 31 31 0, .any 30 30 0, .any 11 0 0]⟩,
    ⟨0, 0, 0, 0x8004, 16, 64, .pool, [.any 17 0 0]⟩,
    ⟨0, 0, 0, 0x8008, 16, 64, .pool, [.any 17 0 0]⟩,
    ⟨0, 0, 0, 0x800C, 16, 64, .pool, [⟨30, 12, 0, 1, 262144⟩, .any 11 0 0]⟩,
    ⟨0, 0, 0, 0xB100, 4, 256, .live, [.any 3 3 0, .any 2 2 0, .any 1 1 0, .any 0 0 0]⟩,
    ⟨1, 1, 0, 0x120, 4, 32, .live, [.any 31 0 0]⟩ ]

def regsTiles : List RegDesc :=
  [ ⟨2, 5, 1, 0x04, 0, 1, .training, [⟨31, 28, 5, 0, 5⟩, ⟨27, 24, 5, 1, 5⟩, ⟨23, 20, 5, 1, 5⟩]⟩,
    ⟨2, 5, 1, 0x10, 0, 1, .live, [.any 31 24 90, .any 23 16 70, .any 15 8 25, .any 7 4 5]⟩,
    ⟨2, 5, 1, 0x30, 0, 1, .live, [.any 0 0 0]⟩,
    ⟨2, 5, 2, 0x04, 0, 1, .training, [.any 31 31 0, ⟨30, 29, 0, 0, 2⟩, .any 28 28 0, ⟨27, 26, 0, 0, 2⟩, ⟨25, 24, 3, 1, 3⟩,
      ⟨23, 22, 2, 1, 2⟩, .any 21 21 1, .any 11 0 0]⟩,
    ⟨2, 5, 2, 0x1C, 0, 1, .live, [.any 31 31 1, ⟨15, 0, 1500, 100, 65535⟩]⟩,
    ⟨6, 9, 0, 0x8000, 0, 1, .live, [.any 31 24 8, .any 23 16 16, .any 15 12 2, .any 11 8 6, .any 7 4 10, ⟨3, 1, 4, 1, 7⟩]⟩,
    ⟨6, 9, 0, 0x8004, 0, 1, .live, [.any 31 24 32, .any 23 16 16, .any 15 8 8, .any 7 0 4]⟩,
    ⟨6, 9, 0, 0x8010, 0, 1, .live, [⟨28, 24, 4, 1, 16⟩]⟩,
    ⟨6, 9, 0, 0x9000, 0, 1, .live, [.any 31 31 0, ⟨30, 28, 2, 0, 4⟩, ⟨19, 16, 8, 1, 12⟩]⟩,
    ⟨6, 9, 0, 0xB000, 0, 1, .live, [⟨31, 24, 64, 1, 255⟩, ⟨1, 0, 0, 0, 2⟩]⟩,
    ⟨6, 9, 0, 0xC000, 0, 1, .restart, [.any 31 31 0, .any 28 24 0, .any 23 23 0, .any 22 21 0, .any 15 15 0, .any 12 8 0,
      .any 7 7 0, .any 6 5 0, ⟨3, 0, 1, 0, 4⟩]⟩,
    ⟨6, 9, 1, 0x00, 0, 1, .training, [⟨31, 28, 6, 0, 6⟩]⟩,
    ⟨6, 9, 1, 0x08, 0, 1, .live, [⟨31, 24, 50, 10, 255⟩, ⟨23, 16, 32, 1, 255⟩, ⟨15, 8, 48, 2, 64⟩, ⟨7, 0, 16, 0, 63⟩]⟩,
    ⟨6, 9, 1, 0x0C, 0, 1, .live, [⟨31, 29, 4, 1, 4⟩, ⟨28, 27, 1, 1, 2⟩]⟩,
    ⟨6, 9, 1, 0x10, 0, 1, .live, [⟨31, 24, 12, 4, 64⟩, ⟨23, 16, 16, 8, 64⟩, ⟨15, 8, 30, 10, 50⟩, ⟨7, 4, 4, 1, 15⟩, .any 3 3 1]⟩,
    ⟨6, 9, 1, 0x14, 0, 1, .live, [⟨31, 16, 96, 1, 65535⟩, ⟨15, 8, 20, 5, 60⟩]⟩,
    ⟨6, 9, 1, 0x100, 0, 1, .live, [⟨31, 28, 1, 0, 8⟩]⟩,
    ⟨6, 9, 5, 0x00, 0, 1, .live, [.any 31 31 1, ⟨23, 16, 64, 1, 255⟩, ⟨4, 0, 16, 1, 16⟩]⟩ ]

/-- Every register with at least one RWT field. -/
def regTable : List RegDesc := regsCt ++ regsCt2 ++ regsTiles

/-- Tile, window, local index and offset of a management address (R9). -/
def addrTile (a : Nat) : Nat := a / 0x1000000
def addrWin (a : Nat) : Nat := a / 0x100000 % 16
def addrIdx (a : Nat) : Nat := a / 0x10000 % 16
def addrOff (a : Nat) : Nat := if addrWin a = 0 then a % 0x100000 else a % 0x10000

/-- The index of the register within a table row that an offset names. -/
def RegDesc.index (r : RegDesc) (off : Nat) : Option Nat :=
  if off < r.off then none
  else if r.stride = 0 then (if off = r.off then some 0 else none)
  else if (off - r.off) % r.stride = 0 ∧ (off - r.off) / r.stride < r.count then some ((off - r.off) / r.stride)
  else none

/-- The register with RWT fields at an address, and its index in its table. -/
def findReg (a : Nat) : Option (RegDesc × Nat) :=
  regTable.findSome? fun r =>
    if r.t0 ≤ addrTile a ∧ addrTile a ≤ r.t1 ∧ addrWin a = r.win ∧ (r.win ≠ 0 ∨ a % 0x1000000 < 0x100000)
        ∧ (r.win = 0 ∨ addrIdx a < winSize (addrTile a) r.win) then
      (r.index (addrOff a)).map fun i => (r, i)
    else none

/-- The address lies in the management space of an absent unit (R4): a tile that is not fitted, a slice of the windows above 0, the
ZW16 unit or the XTS unit of a memory tile (R1), or a bay of an absent memory tile (R367). -/
def Dev.absentAddr (d : Dev) (a : Nat) : Bool :=
  let t := addrTile a
  let w := addrWin a
  let o := addrOff a
  decide (t < 11) &&
    (!d.tilePresent t || (decide (w ≠ 0) && decide (addrIdx a < winSize t w) && !d.unitPresent t w (addrIdx a)) ||
      (decide (6 ≤ t) && decide (t ≤ 9) && w == 0 && ((inZwUnit o && !d.hasZw) || (inXtsUnit o && !d.hasEnc))) ||
      (t == 0 && w == 0 && (bayOff? o).elim false fun n => decide (d.nChans ≤ n)))

/-- The class of an event (R394, R395): 0 N, 1 A, 2 I, 3 C; none for a number not used. -/
def evN : List Nat := [1, 2, 3, 4, 5, 6, 7, 8, 9, 10, 11]
def evA : List Nat :=
  [42, 43, 45, 46, 47, 48, 49, 51, 64, 65, 66, 81, 82, 83, 84, 86, 87, 88, 89, 92, 93, 94, 95, 103, 104, 110, 111, 114, 117,
   120, 124, 125, 126, 127, 128, 129, 131, 132, 133, 135, 136, 137, 139, 140, 142, 143, 151, 152, 155, 156, 157, 158, 159,
   163, 170, 171, 173, 174, 184, 190, 191, 192, 195, 196, 197, 198, 201, 202, 203, 204, 210, 212, 213, 215, 216, 221, 224,
   225, 226, 241, 250, 254, 255]
def evI : List Nat :=
  [40, 41, 44, 50, 80, 85, 96, 97, 100, 101, 102, 112, 121, 122, 123, 134, 138, 150, 162, 172, 175, 180, 181, 182, 194, 200,
   205, 206, 211, 223, 240, 242, 251]
def evC : List Nat :=
  [67, 90, 91, 105, 113, 115, 116, 118, 130, 141, 153, 154, 160, 161, 176, 183, 193, 217, 218, 220, 222, 243, 252, 253]

def evClass (n : Nat) : Option Nat :=
  if n ∈ evN then some 0 else if n ∈ evA then some 1 else if n ∈ evI then some 2 else if n ∈ evC then some 3 else none

/-- Default routing of an event (R394): LEDGER, MCTP, HEADS, PIN in bits 3 to 0. -/
def evDefault (n : Nat) : Nat :=
  match evClass n with
  | some 0 => 15
  | some 1 => 15
  | some 2 => 6
  | _ => 0

/-- Reset value of a register with RWT fields. -/
def resetOf (a : Nat) : BitVec 32 :=
  match findReg a with
  | none => 0#32
  | some (r, i) =>
    if r.off = 0xB100 then BitVec.ofNat 32 (evDefault i)
    else BitVec.ofNat 32 (r.fields.foldl (fun acc f => acc + f.rst * 2 ^ f.lo) 0)

/-- Mask of the RWT bits of a register. -/
def rwtMask (a : Nat) : BitVec 32 :=
  match findReg a with
  | none => 0#32
  | some (r, i) =>
    if r.off = 0xB100 ∧ (evClass i).getD 0 = 0 then 0#32
    else BitVec.ofNat 32 (r.fields.foldl (fun acc f => acc + (2 ^ (f.hi + 1 - f.lo) - 1) * 2 ^ f.lo) 0)

/-- The active value of a configuration register. -/
def Dev.cfgReg (d : Dev) (a : Nat) : BitVec 32 := Tbl.get (resetOf a) d.cfg.regs a

/-- One field of a configuration register's active value. -/
def Dev.fld (d : Dev) (a hi lo : Nat) : Nat := bits (d.cfgReg a).toNat hi lo

/-- Base addresses of units (R9). -/
def mtBase (k : Nat) : Nat := 0x06000000 + k * 0x01000000
def chBase (c : Nat) : Nat := mtBase (c / 8) + 0x00100000 + c % 8 * 0x00010000
def pumpBase (p : Nat) : Nat := mtBase (p / 8) + 0x00500000 + p % 8 * 0x00010000
def hpBase (h : Nat) : Nat := 0x02000000 + h / 4 * 0x01000000 + 0x00100000 + h % 4 * 0x00010000
def cpBase (p : Nat) : Nat := 0x02000000 + p / 4 * 0x01000000 + 0x00200000 + p % 4 * 0x00010000

/-- `SNP_TO` (R173). -/
def Dev.snpTo (d : Dev) : Nat := d.fld 0x360 15 0
/-- `REM_TO` (R282). -/
def Dev.remTo (d : Dev) : Nat := d.fld 0x3A4 31 16
/-- `RESEND_WIN`, `FO_QUIET`, `FAILBACK` (R271 to R274). -/
def Dev.resendWin (d : Dev) : Nat := d.fld 0x3A4 15 12
def Dev.foQuiet (d : Dev) : Nat := d.fld 0x3A4 11 8
def Dev.failback (d : Dev) : Nat := d.fld 0x3A4 7 0
/-- Device ID and ROOT as primed (R267). -/
def Dev.devId (d : Dev) : Nat := d.fld 0x3A0 11 0
def Dev.isRoot (d : Dev) : Bool := d.fld 0x3A0 31 31 == 1
def Dev.voteWin (d : Dev) : Nat := d.fld 0x3E0 31 16
def Dev.lead (d : Dev) : Nat := d.fld 0x3E0 15 8
def Dev.pullTo (d : Dev) : Nat := d.fld 0x3E0 7 0 * 16
def Dev.commitWait (d : Dev) : Nat := d.fld 0x3E4 15 0 * 1024

/-- A head holds manager rights (`CT_MGR_HEADS`); MCTP always does. -/
def Dev.mgrHead (d : Dev) (h : Nat) : Bool := decide (h < d.nHosts) && bit (d.cfgReg 0x300).toNat h
def Dev.mgr (d : Dev) : Src → Bool
  | .head h => d.mgrHead h
  | .mctp => true

/-- Members of the pool other than the device itself (R267): VALID route entries. -/
def Dev.members (d : Dev) : List Nat :=
  (d.cfg.regs.filter fun e => 0x4000 ≤ e.1 && e.1 < 0x8000 && (e.1 - 0x4000) % 4 == 0 && bit e.2.toNat 31).map
    fun e => (e.1 - 0x4000) / 4

/-- Pool role (`CT_STROKE_STAT` ROLE): 0 alone, 1 root, 2 follower. -/
def Dev.role (d : Dev) : Nat :=
  if d.prim != .primed then 0 else if d.isRoot then 1 else if d.members.isEmpty then 0 else 2

/-! ### Records of units -/

def Dev.head (d : Dev) (h : Nat) : Head := Tbl.get {} d.heads h
def Dev.setHead (d : Dev) (h : Nat) (f : Head → Head) : Dev := { d with heads := Tbl.upd {} d.heads h f }
def Dev.tile (d : Dev) (k : Nat) : TileSt := Tbl.get {} d.tiles k
def Dev.setTile (d : Dev) (k : Nat) (f : TileSt → TileSt) : Dev := { d with tiles := Tbl.upd {} d.tiles k f }
def Dev.pump (d : Dev) (p : Nat) : Pump := Tbl.get {} d.pumps p
def Dev.setPump (d : Dev) (p : Nat) (f : Pump → Pump) : Dev := { d with pumps := Tbl.upd {} d.pumps p f }
def Dev.enc (d : Dev) (n : Nat) : Enc := Tbl.get {} d.encs n
def Dev.setEnc (d : Dev) (n : Nat) (f : Enc → Enc) : Dev := { d with encs := Tbl.upd {} d.encs n f }
def Dev.dec (d : Dev) (n : Nat) : Dec := Tbl.get {} d.decs n
def Dev.setDec (d : Dev) (n : Nat) (f : Dec → Dec) : Dev := { d with decs := Tbl.upd {} d.decs n f }
def Dev.hsl (d : Dev) (n : Nat) : Hs := Tbl.get {} d.hs n
def Dev.setHs (d : Dev) (n : Nat) (f : Hs → Hs) : Dev := { d with hs := Tbl.upd {} d.hs n f }
def Dev.dom (d : Dev) (g : Nat) : Dom := Tbl.get {} d.doms g
def Dev.setDom (d : Dev) (g : Nat) (f : Dom → Dom) : Dev := { d with doms := Tbl.upd {} d.doms g f }
def Dev.chan (d : Dev) (c : Nat) : Chan := Tbl.get {} d.chans c
def Dev.setChan (d : Dev) (c : Nat) (f : Chan → Chan) : Dev := { d with chans := Tbl.upd {} d.chans c f }
def Chan.rank (c : Chan) (r : Nat) : Rank := Tbl.get {} c.ranks r
def Chan.setRank (c : Chan) (r : Nat) (f : Rank → Rank) : Chan := { c with ranks := Tbl.upd {} c.ranks r f }
def Dev.rank (d : Dev) (c r : Nat) : Rank := (d.chan c).rank r
def Dev.setRank (d : Dev) (c r : Nat) (f : Rank → Rank) : Dev := d.setChan c fun x => x.setRank r f
def Dev.port (d : Dev) (p : Nat) : CPort := Tbl.get {} d.cas.ports p
def Dev.setPort (d : Dev) (p : Nat) (f : CPort → CPort) : Dev :=
  { d with cas := { d.cas with ports := Tbl.upd {} d.cas.ports p f } }
def Dev.route (d : Dev) (n : Nat) : Route := Tbl.get {} d.cas.routes n
def Dev.setRoute (d : Dev) (n : Nat) (f : Route → Route) : Dev :=
  { d with cas := { d.cas with routes := Tbl.upd {} d.cas.routes n f } }
def Dev.bay (d : Dev) (n : Nat) : Bay := Tbl.get {} d.bays n
def Dev.setBay (d : Dev) (n : Nat) (f : Bay → Bay) : Dev := { d with bays := Tbl.upd {} d.bays n f }
def Dev.sens (d : Dev) (t : Nat) : Sens := Tbl.get {} d.therm.sens t
def Dev.setSens (d : Dev) (t : Nat) (f : Sens → Sens) : Dev :=
  { d with therm := { d.therm with sens := Tbl.upd {} d.therm.sens t f } }
def Dev.bw (d : Dev) (s : Nat) : Bw := Tbl.get {} d.bws s
def Dev.setBw (d : Dev) (s : Nat) (f : Bw → Bw) : Dev := { d with bws := Tbl.upd {} d.bws s f }
def Dev.pert (d : Dev) (p : Nat) : Pert := Tbl.get {} d.perts p
def Dev.setPert (d : Dev) (p : Nat) (f : Pert → Pert) : Dev := { d with perts := Tbl.upd {} d.perts p f }
def Dev.modu (d : Dev) (m : Nat) : Mod := Tbl.get {} d.mods m
def Dev.setMod (d : Dev) (m : Nat) (f : Mod → Mod) : Dev := { d with mods := Tbl.upd {} d.mods m f }
def Dev.kd (d : Dev) (n : Nat) : KDom := Tbl.get {} d.kdoms n
def Dev.setKd (d : Dev) (n : Nat) (f : KDom → KDom) : Dev := { d with kdoms := Tbl.upd {} d.kdoms n f }
/-- Slot 0 of the book table is live with the built-in book; the others start empty. -/
def bookDflt (n : Nat) : BookSlot := if n = 0 then { st := .live } else {}
def Dev.book (d : Dev) (n : Nat) : BookSlot := Tbl.get (bookDflt n) d.books n
def Dev.setBook (d : Dev) (n : Nat) (f : BookSlot → BookSlot) : Dev :=
  { d with books := Tbl.upd (bookDflt n) d.books n f }
/-- Counters 0 to 255 start in edge mode on their own event (R405). -/
def cntDflt (n : Nat) : Cnt := { cfg := if n < 256 then BitVec.ofNat 32 (0x40000000 + n * 256) else 0#32 }
def Dev.cnt (d : Dev) (n : Nat) : Cnt := Tbl.get (cntDflt n) d.cnts n
def Dev.setCnt (d : Dev) (n : Nat) (f : Cnt → Cnt) : Dev := { d with cnts := Tbl.upd (cntDflt n) d.cnts n f }
def Dev.entry (d : Dev) (page : Nat) : MapEntry := Tbl.get {} d.wmap page
def Dev.setEntry (d : Dev) (page : Nat) (e : MapEntry) : Dev := { d with wmap := Tbl.set {} d.wmap page e }

/-- The in-band interrupt that announces an MCTP message: its packets carry 64 bytes each (R75). A message has a type byte, then the header
of its kind, of 12 bytes for the CCI, 4 for SPDM and 2 for MCTP control (PRESUMED, log 82). -/
def Out.announced : Out → List Out
  | .cci .mctp _ _ p => [.packets ((p.length + 13 + 63) / 64)]
  | .spdm ⟨.mctp, _⟩ _ p => [.packets ((p.length + 5 + 63) / 64)]
  | .mctpCtl p => [.packets ((p.length + 3 + 63) / 64)]
  | _ => []

/-- Append to what the block has sent. -/
def Dev.emit (d : Dev) (o : Out) : Dev := { d with out := d.out ++ o.announced ++ [o] }
def Dev.emits (d : Dev) (os : List Out) : Dev := { d with out := d.out ++ os }

/-- Apply an action to each element of a list in turn. -/
def forAll {α : Type} (d : Dev) (xs : List α) (f : Dev → α → Dev) : Dev := xs.foldl f d

/-- Do `f` when the condition holds. -/
def Dev.when (d : Dev) (c : Bool) (f : Dev → Dev) : Dev := if c then f d else d

/-! ### Raising an event -/

/-- Routing in force of an event (R398); the routing of an N event is fixed. -/
def Dev.routeOf (d : Dev) (n : Nat) : Nat := if evClass n = some 0 then 15 else Tbl.get (evDefault n) d.ev.routes n

/-- The log an event's vendor record goes to (R399). -/
def evLog (n : Nat) : LogId :=
  match evClass n with
  | some 0 => .fatal
  | some 1 => .warning
  | _ => .info

def LogId.num : LogId → Nat
  | .info => 0 | .warning => 1 | .failure => 2 | .fatal => 3

/-- Key of a destination's log: heads 0 to 15, 16 the MCTP endpoint. -/
def logKey (dest : Nat) (l : LogId) : Nat := dest * 4 + l.num

def Dev.log (d : Dev) (key : Nat) : EvLog := Tbl.get {} d.ev.logs key
def Dev.setLog (d : Dev) (key : Nat) (f : EvLog → EvLog) : Dev :=
  { d with ev := { d.ev with logs := Tbl.upd {} d.ev.logs key f } }

/-- Two records of one event in one stroke fold into one (R400). -/
def EvRec.same (a b : EvRec) : Bool :=
  a.kind == .vendor && b.kind == .vendor && a.ev == b.ev && a.stroke == b.stroke && a.ev != 256

/-- One more repeat of a record (R400). -/
def EvRec.again (r x : EvRec) : EvRec := if EvRec.same r x then { x with rep := satInc 65535 x.rep } else x

/-- The log with one more record. -/
def EvLog.add (g : EvLog) (r : EvRec) : EvLog :=
  { g with recs := g.recs ++ [{ r with handle := g.next }], next := g.next % 65535 + 1 }

/-- A record that a full log drops (R399). -/
def EvLog.drop (g : EvLog) (ts : Nat) : EvLog :=
  { g with overflow := true, count := g.count + 1, firstTs := if g.overflow then g.firstTs else ts, lastTs := ts }

/-- The host has set a head's interrupt for a log (R399): two bits in the log's byte of the policy (log entry 63). -/
def Dev.irqOn (d : Dev) (h : Nat) (l : LogId) : Bool := bits (d.head h).policy.toNat (8 * l.num + 1) (8 * l.num) != 0

/-- Post one record to one destination's log (R399, R400). The Bool says that a full log dropped it. -/
def Dev.logPost (d : Dev) (dest : Nat) (l : LogId) (r : EvRec) : Dev × Bool :=
  let k := logKey dest l
  let g := d.log k
  if g.recs.any (EvRec.same r) then (d.setLog k fun g => { g with recs := g.recs.map (EvRec.again r) }, false)
  else if g.recs.length < 64 then
    (if 16 ≤ dest then (d.setLog k fun g => g.add r).emit .ibi
     else if d.irqOn dest l then (d.setLog k fun g => g.add r).emit (.irq dest l) else d.setLog k fun g => g.add r, false)
  else (d.setLog k fun g => g.drop r.ts, true)

/-- A log takes a record as a new one: it holds none of the same event and is not full. -/
def Dev.takesNew (d : Dev) (dest : Nat) (l : LogId) (r : EvRec) : Bool :=
  let g := d.log (logKey dest l)
  !g.recs.any (EvRec.same r) && decide (g.recs.length < 64)

/-- Whether a queued record is of the same event and destination as `r`. -/
def queuedSame (dest : Nat) (r : EvRec) (q : Nat × LogId × EvRec) : Bool := q.1 == dest && EvRec.same r q.2.2

/-- Fold a record into a queued one. -/
def queuedAgain (dest : Nat) (r : EvRec) (q : Nat × LogId × EvRec) : Nat × LogId × EvRec :=
  if q.1 = dest then (q.1, q.2.1, EvRec.again r q.2.2) else q

/-- Post a record, or queue it while the cores are away (R34). Answers the events this raises in turn. The first record delivered after the
cores' return carries the count of those dropped. Each destination's copy of a
record takes one of the 64 places: a DESIGN CHOICE (log entry 71), since R34 does not say how a record bound for several logs
counts. -/
def Dev.post (d : Dev) (dest : Nat) (l : LogId) (r : EvRec) : Dev × List Nat :=
  if d.cores.away || d.cores.halted then
    if d.cores.queue.any (queuedSame dest r) then
      ({ d with cores := { d.cores with queue := d.cores.queue.map (queuedAgain dest r) } }, [])
    else if d.cores.queue.length < 64 then
      ({ d with cores := { d.cores with queue := d.cores.queue ++ [(dest, l, r)] } }, [])
    else
      ({ d with cores := { d.cores with lostRecs := d.cores.lostRecs + 1 },
                ev := { d.ev with dropped := satInc 255 d.ev.dropped } }, [])
  else
    let new := d.takesNew dest l r
    let r := if new then { r with dropped := d.cores.lostRecs } else r
    let d := if new then { d with cores := { d.cores with lostRecs := 0 } } else d
    let x := d.logPost dest l r
    if x.2 then (x.1, [255]) else (x.1, [])

def Dev.postAll (d : Dev) (dests : List Nat) (l : LogId) (r : EvRec) : Dev × List Nat :=
  dests.foldl (fun acc dest => let (e, x) := acc.1.post dest l r; (e, acc.2 ++ x)) (d, [])

/-- CT's used temperature lies in the ledger-write window of R388; a tile not yet sampled counts as inside. -/
def Dev.ledgerWindow (d : Dev) : Bool :=
  !(d.sens 0).seen || (decide (-20 * 64 ≤ (d.sens 0).used) && decide ((d.sens 0).used ≤ 125 * 64))

/-- Ledger writes are held (R401). -/
def Dev.ledgerHeld (d : Dev) : Bool := d.sup.brace || !d.ledgerWindow

/-- The current copy of the state block. -/
def Ledger.block (l : Ledger) : LedState :=
  { floor := l.floor, slotA := l.slotA, slotB := l.slotB, decision := l.decision, decVer := l.decVer, decDigest := l.decDigest,
    decStroke := l.decStroke, chainLen := l.chain.length }

/-- A write of the ledger while writes are held leaves the MRAM as it is (R401). -/
def Ledger.hold (l : Ledger) (held : Bool) : Ledger :=
  if held then
    { l with mram := l.mram.or (some { seq := l.seq, prev := l.prev, block := l.block, chain := l.chain, repairs := l.repairs }) }
  else l

/-- What the MRAM holds. -/
def Ledger.written (l : Ledger) : Ledger :=
  match l.mram with
  | none => l
  | some m =>
    { l with mram := none, seq := m.seq, prev := m.prev, floor := m.block.floor, slotA := m.block.slotA, slotB := m.block.slotB,
             decision := m.block.decision, decVer := m.block.decVer, decDigest := m.block.decDigest, decStroke := m.block.decStroke,
             chain := m.chain, repairs := m.repairs }

/-- Write the state block over the copy with the lower SEQ (R401). -/
def Dev.writeLed (d : Dev) (f : Ledger → Ledger) : Dev :=
  { d with led := { f (d.led.hold d.ledgerHeld) with seq := (d.led.seq + 1) % 2 ^ 32, prev := some d.led.block } }

/-- Records of one stroke stand in ascending event number (R402): the record at index `i` goes before those of its stroke that it should
precede. -/
def sinkRec (j : List JRec) : Nat → Nat → List JRec
  | 0, _ => j
  | n + 1, i =>
    let p := (i + 3071) % 3072
    match j[p]?, j[i]? with
    | some a, some b =>
      if a.loc = b.loc ∧ b.ev < a.ev then sinkRec ((j.set p { b with seq := a.seq }).set i { a with seq := b.seq }) n p else j
    | _, _ => j

/-- Write one journal record into the ledger, with its pinned copy (R402). The Bool says that the journal wrapped. -/
def Ledger.append (l : Ledger) (r : JRec) : Ledger × Bool :=
  let r := { r with seq := l.jseq + 1 }
  let wrap := l.next + 1 == 3072
  let j := sinkRec (if l.journal.length < 3072 then l.journal ++ [r] else l.journal.set l.next r) 256 l.next
  ({ l with
      journal := j
      next := (l.next + 1) % 3072
      wrapped := l.wrapped || wrap
      jseq := (l.jseq + 1) % 2 ^ 32
      pinned := (j.filter fun x => x.loc == r.loc && decide (x.ev < 16)).foldl (fun t x => Tbl.put t x.ev x) l.pinned }, wrap)

/-- The queue of held records with one more, in ascending event number within its stroke (R402). -/
def queueRec (q : List JRec) (r : JRec) : List JRec :=
  let later (x : JRec) : Bool := x.loc == r.loc && decide (r.ev < x.ev)
  (q.filter fun x => !later x) ++ [r] ++ q.filter later

/-- One more repeat of a journal record of event `n` in the stroke `loc` (R400, R402). -/
def JRec.again (n loc : Nat) (x : JRec) : JRec := if x.ev = n ∧ x.loc = loc then { x with rep := satInc 65535 x.rep } else x

/-- A further raise of an event in the stroke counts in its journal record. -/
def Dev.journalAgain (d : Dev) (n : Nat) : Dev :=
  let f := JRec.again n d.time.loc
  { d with ev := { d.ev with queue := d.ev.queue.map f },
           led := { d.led with journal := d.led.journal.map f, pinned := d.led.pinned.map fun x => (x.1, f x.2) } }

/-- Record in the journal, or in the 64-record queue while writes are held (R364, R388, R401). -/
def Dev.journal (d : Dev) (r : JRec) : Dev × List Nat :=
  if d.ledgerHeld then
    let note := if d.ledgerWindow then [] else [217]
    if d.ev.queue.length < 64 then ({ d with ev := { d.ev with queue := queueRec d.ev.queue r } }, note)
    else if r.ev == 4 then ({ d with ev := { d.ev with queue := queueRec (d.ev.queue.drop 1) r } }, note)
    else ({ d with therm := { d.therm with lost := satInc 255 d.therm.lost } }, note ++ [218])
  else
    let (l, wrap) := d.led.append r
    ({ d with led := l }, if wrap then [251] else [])

/-- Add occurrences to a counter in edge mode, wrapping at 2^48 (R406, R410). The Bool says it wrapped. -/
def Cnt.add (c : Cnt) (n : Nat) : Cnt × Bool :=
  if c.count + n < 2 ^ 48 then ({ c with count := c.count + n }, false)
  else ({ c with count := (c.count + n) % 2 ^ 48, ovf := true }, true)

/-- MODE, SIG and SLICE of a counter's configuration in force. -/
def Cnt.mode (c : Cnt) : Nat := bits c.cfg.toNat 31 30
def Cnt.clock (c : Cnt) : Nat := bits c.cfg.toNat 29 29
def Cnt.sig (c : Cnt) : Nat := bits c.cfg.toNat 27 23
def Cnt.slice (c : Cnt) : Nat := bits c.cfg.toNat 19 8

/-- The counters that count event `n`: counter `n` and every higher one that selects it (R405). -/
def Dev.cntsOf (d : Dev) (n : Nat) : List Nat :=
  n :: ((d.cnts.filter fun e => 256 ≤ e.1 && e.2.sig == 0 && e.2.slice % 256 == n).map Prod.fst)

/-- One raise reaches the counters of its event (R396, R406). The counters that wrap are answered. -/
def Dev.countEv (d : Dev) (n : Nat) : Dev × List Nat :=
  (d.cntsOf n).foldl (fun acc k =>
    if (acc.1.cnt k).mode == 1 then
      let (c, w) := (acc.1.cnt k).add 1
      (acc.1.setCnt k fun _ => c, if w then acc.2 ++ [k] else acc.2)
    else acc) (d, [])

/-- An N bit is pending. -/
def Dev.anyN (d : Dev) : Bool := evN.any fun n => d.ev.pend.getLsbD n

/-- Set an event's pending bit; the first N event after none was pending is FIRST_N. -/
def Dev.setPend (d : Dev) (n : Nat) : Dev :=
  { d with ev := { d.ev with
      pend := d.ev.pend ||| (1#256 <<< n)
      faultPin := d.ev.faultPin || evClass n == some 0
      firstN := if evClass n = some 0 ∧ !d.anyN then n else d.ev.firstN } }

/-- What accompanies a raise: the cause code, the slice, the detail, and the heads R66 entitles besides managers. -/
structure EvInfo where
  cause : Nat := 0
  slice : Nat := 0
  detail : List Nat := []
  heads : List Nat := []
  /-- A journal record is written whatever the route says (R402). -/
  must : Bool := false

/-- Heads with manager rights. -/
def Dev.mgrs (d : Dev) : List Nat := (List.range d.nHosts).filter d.mgrHead

/-- What EV240 says of a counter (R410). -/
def wrapInfo (k : Nat) : EvInfo := { detail := [k % 256, k / 256] }

/-- One raise without the events that it causes in turn, which are answered: EV240 for each counter that wraps, and the overflow
and drop events. -/
def Dev.raise1 (d : Dev) (n : Nat) (i : EvInfo) : Dev × List (Nat × EvInfo) :=
  if evClass n = none then (d, []) else
  let first := !(d.ev.now.contains n)
  let (d, c) := (d.setPend n).countEv n
  let d := { d with ev := { d.ev with now := if first then n :: d.ev.now else d.ev.now } }
  let r : EvRec := { handle := 0, kind := .vendor, ev := n, cause := i.cause, ts := d.time.tsNow, stroke := d.pool, slice := i.slice,
                     rep := 0, dropped := 0, detail := i.detail }
  let rt := d.routeOf n
  let heads := if bit rt 1 then (d.mgrs ++ i.heads).eraseDups else []
  let dests := heads ++ (if bit rt 2 then [16] else [])
  let (d, x) := d.postAll dests (evLog n) r
  if (bit rt 3 || i.must) && !first then (d.journalAgain n, c.map (fun k => (240, wrapInfo k)) ++ x.map fun m => (m, ({} : EvInfo)))
  else if bit rt 3 || i.must then
    let (d, y) := d.journal { seq := 0, stroke := d.pool, loc := d.time.loc, ev := n, cause := i.cause, slice := i.slice,
                              rep := 0, detail := i.detail }
    (d, c.map (fun k => (240, wrapInfo k)) ++ (x ++ y).map fun m => (m, ({} : EvInfo)))
  else (d, c.map (fun k => (240, wrapInfo k)) ++ x.map fun m => (m, ({} : EvInfo)))

/-- Raise an event (R396): its pending bit, counters, records and ledger, then the overflow, wrap and drop events that
these cause. -/
def Dev.raiseI (d : Dev) (n : Nat) (i : EvInfo) : Dev :=
  let (d, more) := d.raise1 n i
  more.foldl (fun d m => (d.raise1 m.1 m.2).1) d

/-- Raise an event about a slice. -/
def Dev.raise (d : Dev) (n : Nat) (slice : Nat := 0) (cause : Nat := 0) : Dev :=
  d.raiseI n { slice := slice, cause := cause }

/-- A re-assertion of an N condition (R397): the pending bit alone. -/
def Dev.reassert (d : Dev) (n : Nat) : Dev := d.setPend n

/-- A record that a chapter requires whatever the route bits say (R399), to the given destinations. -/
def Dev.record (d : Dev) (dests : List Nat) (l : LogId) (kind : RecKind) (ev cause slice : Nat) (detail : List Nat) : Dev :=
  let r : EvRec := { handle := 0, kind, ev, cause, ts := d.time.tsNow, stroke := d.pool, slice, rep := 0, dropped := 0, detail }
  let (d, x) := d.postAll dests l r
  x.foldl (fun d m => (d.raise1 m {}).1) d

/-- A journal record that a chapter requires without an event (R402). -/
def Dev.journalNote (d : Dev) (cause slice : Nat) (detail : List Nat) : Dev :=
  let (d, x) := d.journal { seq := 0, stroke := d.pool, loc := d.time.loc, ev := 256, cause, slice, rep := 0, detail }
  x.foldl (fun d m => (d.raise1 m {}).1) d

/-- `FAULT_N` and `ALERT_N` asserted (R397). -/
def Dev.faultN (d : Dev) : Bool := d.ev.faultPin
def Dev.alertN (d : Dev) : Bool :=
  (evA ++ evI ++ evC).any fun n => d.ev.pend.getLsbD n && bit (d.routeOf n) 0

/-- Take one free value: the counter advances. -/
def Dev.fresh (d : Dev) : Nat × Dev := (d.free, { d with free := d.free + 1 })

/-- The step that leaves the device at `d`: every command of the block completes. -/
def State.done (s : State) (d : Dev) : Host.Outcome State Fault Refusal := .next { s with dev := d }

/-! ### Overruns (R46) -/

/-- An overrun is recorded: class, slice and the time past the boundary in ns. -/
def Dev.overrun1 (d : Dev) (cls slice excess : Nat) : Dev :=
  { d with time := { d.time with overrun := true, overrunLog := BitVec.ofNat 32 (cls * 2 ^ 28 + slice * 2 ^ 16 + min excess 65535) } }.raise
    48 slice

/-- When an item of non-cuttable work that is still running ends, in ns of local time. -/
def Dev.runsUntil (d : Dev) (cls slice : Nat) : Option Nat :=
  (d.time.running.find? fun x => x.1 == cls && x.2.1 == slice && decide (d.time.loc * 1000 < x.2.2)).map fun x => x.2.2

/-- The item is still running when it falls due again. -/
def Dev.stillRuns (d : Dev) (cls slice : Nat) : Bool := (d.runsUntil cls slice).isSome

/-- That instance is skipped and counts as an overrun. The excess recorded is what the running item still needs, a DESIGN CHOICE (log
entry 72). -/
def Dev.skipDue (d : Dev) (cls slice : Nat) : Dev := d.overrun1 cls slice ((d.runsUntil cls slice).getD 0 - d.time.loc * 1000)

/-! ### Perturbations (R416, R418) -/

/-- Slot `p` is active: from its start to its end, while scope bit 0 is open. -/
def Dev.pertActive (d : Dev) (p : Nat) : Bool :=
  (d.pert p).st == 2 && decide (d.pool < (d.pert p).endAt) && d.sec.scope.getLsbD 0

/-- The magnitude that active slots of one kind put on a target: the largest (R418); 0 when none is active. -/
def Dev.pertMag (d : Dev) (kind target : Nat) : Nat :=
  (List.range 8).foldl (fun acc p => if d.pertActive p && (d.pert p).kind == kind && (d.pert p).target == target then max acc (d.pert p).mag
    else acc) 0

/-- A pump stall is active on a target. -/
def Dev.pertStall (d : Dev) (target : Nat) : Bool :=
  (List.range 8).any fun p => d.pertActive p && (d.pert p).kind == 5 && (d.pert p).target == target

/-! ### Waking (R335, R342, R345) -/

/-- The home slices do not serve requests: their channels are in self-refresh or their clocks are gated. -/
def Dev.asleep (d : Dev) : Bool := decide (4 ≤ d.pwr.done)

/-- The clock of a slice runs (R41): it is neither gated nor powered down by an entry step of R338. Step 2 stops the pumps and engines,
step 5 the rest of a memory tile, step 8 the hub, step 9 the port tiles. -/
def Dev.clockRuns (d : Dev) (slice : Nat) : Bool :=
  let t := slice / 256
  let w := slice / 16 % 16
  let n := d.pwr.done
  if 6 ≤ t ∧ t ≤ 9 then (if 3 ≤ w then decide (n < 2) else decide (n < 5))
  else if t = 1 then decide (n < 8) || (d.pwr.waking && n == 8)
  else if 2 ≤ t ∧ t ≤ 5 then decide (n < 9)
  else true

def Dev.setPwr (d : Dev) (f : PwrSt → PwrSt) : Dev := { d with pwr := f d.pwr }

/-- A wake source arrives (R342): the device starts to wake to DS0. During an entry it interrupts the entry (R345). -/
def Dev.wake (d : Dev) (code idx : Nat) : Dev :=
  let p := d.pwr
  if p.waking then
    if p.wakeTo = 0 then d else (d.setPwr fun p => { p with wakeTo := 0, src := code, idx := idx }).raise 183
  else if p.entering then
    ((d.setPwr fun p => { p with entering := false, waking := true, wakeTo := 0, cut := true, done := p.done + b2n p.stepBusy, stepBusy := false,
                                 woken := 0, interrupted := satInc 65535 p.interrupted, src := code, idx := idx, retryAt := none }).raise
      182).raise 183
  else if p.st = 0 then d
  else (d.setPwr fun p => { p with waking := true, wakeTo := 0, woken := 0, src := code, idx := idx, retryAt := none }).raise 183

/-- A mailbox command on a resting head, or an MCTP message, wakes the device (R342). -/
def Dev.wakeFor (d : Dev) : Src → Dev
  | .head h => if (d.head h).restReq then d.wake 6 h else d
  | .mctp => d.wake 5 0

/-! ### Completions -/

/-- A completion to its sender (R70). -/
def Dev.reply (d : Dev) (s : Src) (r : Ret) (ext : Nat := 0) (payload : List Byte := []) : Dev :=
  if s = .mctp ∧ 4096 < payload.length then d.emit (.cci s .invalidInput 0 []) else d.emit (.cci s r ext payload)

/-- The management cores are away or halted (R30). -/
def Dev.coresGone (d : Dev) : Bool := d.cores.away || d.cores.halted

/-- A write of one management register can come from a sender: it exists, holds manager rights, and no gate of R30, R85 or R390
turns its command away. -/
def Dev.regOk (d : Dev) (s : Src) : Bool := d.mgr s && !d.coresGone && !d.therm.latched && d.prim == .primed

/-- A command that pauses while the cores are away (R30): it waits, its arrival waking the device, and runs when they are back and no
command is pending (DESIGN CHOICE, log 80). -/
def State.pause (s : State) (i : Instr) : Host.Outcome State Fault Refusal :=
  let d := s.dev.wake 5 0
  s.done { d with cores := { d.cores with paused := d.cores.paused ++ [i] } }

/-- The step that leaves the device at `d` for a sender's command; over MCTP it pauses while the cores are away. -/
def State.mail (s : State) (src : Src) (i : Instr) (d : Dev) : Host.Outcome State Fault Refusal :=
  if src = .mctp ∧ s.dev.coresGone then s.pause i else s.done d

/-- The same for a message of SPDM. -/
def State.spdmMail (s : State) (i : Instr) (d : Dev) : Host.Outcome State Fault Refusal := if s.dev.coresGone then s.pause i else s.done d

/-- A background command ends: it completes, after the cores' return where they are away (R31). -/
def Dev.finishBg (d : Dev) (b : Bg) (r : Ret) (ext : Nat := 0) (out : List Byte := []) : Dev :=
  let gone : Dev := { d with cfg := { d.cfg with bg := d.cfg.bg.filter (· != b), lateAborts := d.cfg.lateAborts ++ b.aborts } }
  if b.abandoned || b.mute then gone
  else if d.coresGone then
    { d with cfg := { d.cfg with bg := d.cfg.bg.map fun x => if x = b then { x with result := some (r, ext, out) } else x } }
  else gone.reply b.src r ext out

/-- A slice as the output of a refused command names it (R70). -/
def sliceOut (s : Nat) : List Byte := leBytes 2 s

/-- A sender as `CT_CFG_STAT` numbers it: heads, then 16. -/
def srcNum : Src → Nat
  | .head h => h
  | .mctp => 16

/-- The transaction state's code (`CT_CFG_STAT` TXN). -/
def TxnSt.num : TxnSt → Nat
  | .idle => 0 | .opened => 1 | .ready => 2 | .writing => 3 | .voted => 4 | .queued => 5

/-- Output of a Busy completion with extended status 0x0104 (R303). -/
def Dev.busyOut (d : Dev) : List Byte :=
  if d.cfg.txn.st = .idle then leBytes 1 31 ++ leBytes 7 0
  else
    leBytes 1 (match d.cfg.txn.owner with | some o => srcNum o | none => 31) ++ leBytes 1 d.cfg.txn.st.num ++ leBytes 2 0 ++
      leBytes 4 d.cfg.txn.num

def Dev.busy104 (d : Dev) (s : Src) : Dev := d.reply s .busy 0x0104 d.busyOut

end Sys2Proof.Machine
end

