-- ==== Sys2Proof/Machine/Operands.lean ====
section
/-! DEFINITION. Address forms: the well map entry (R88, R89), the home slice and directory set of an address (R165,
R166), the decoding of a device physical address (R198, R199), and which exposed addresses a head reaches (R62, R64). -/

namespace Sys2Proof.Machine

open Sys2Proof

/-! ### The well map entry -/

def PgSt.code : PgSt → Nat
  | .unbacked => 0 | .stable => 1 | .moving => 2 | .promoting => 3

/-- STATE of an entry's word; a code that is not used names no state. -/
def PgSt.ofCode : Nat → Option PgSt
  | 0 => some .unbacked | 1 => some .stable | 2 => some .moving | 3 => some .promoting | _ => none

/-- The 128-bit word of a well map entry (R88). -/
def MapEntry.encode (e : MapEntry) : BitVec 128 :=
  BitVec.ofNat 3 e.st.code ++ BitVec.ofNat 2 e.tier ++ BitVec.ofBool e.raw ++ BitVec.ofBool e.parity ++ BitVec.ofNat 3 e.owner ++
    BitVec.ofNat 2 e.poison ++ BitVec.ofNat 4 e.book ++ BitVec.ofNat 12 e.kdom ++ BitVec.ofNat 8 e.heat ++
    BitVec.ofNat 16 e.stamp ++ BitVec.ofNat 4 e.cold ++ 0#24 ++ e.loc

/-- The entry that a 128-bit word holds; none where STATE is not used (R90). -/
def MapEntry.decode (w : BitVec 128) : Option MapEntry :=
  (PgSt.ofCode (w.extractLsb' 125 3).toNat).map fun st =>
    { st := st, tier := (w.extractLsb' 123 2).toNat, raw := w.getLsbD 122, parity := w.getLsbD 121,
      owner := (w.extractLsb' 118 3).toNat, poison := (w.extractLsb' 116 2).toNat, book := (w.extractLsb' 112 4).toNat,
      kdom := (w.extractLsb' 100 12).toNat, heat := (w.extractLsb' 92 8).toNat, stamp := (w.extractLsb' 76 16).toNat,
      cold := (w.extractLsb' 72 4).toNat, loc := w.extractLsb' 0 48 }

/-- An entry whose every field fits its place in the word. -/
def MapEntry.fits (e : MapEntry) : Bool :=
  decide (e.tier < 4) && decide (e.owner < 8) && decide (e.poison < 4) && decide (e.book < 16) && decide (e.kdom < 4096) &&
    decide (e.heat < 256) && decide (e.stamp < 65536) && decide (e.cold < 16)

/-- LOC of each tier (R89). -/
def locT1 (frame : Nat) : BitVec 48 := BitVec.ofNat 48 frame
def locT2 (slots first : Nat) : BitVec 48 := BitVec.ofNat 48 (slots * 2 ^ 36 + first)
def locT3 (idx run head : Nat) : BitVec 48 := BitVec.ofNat 48 (idx * 2 ^ 36 + (run - 1) * 2 ^ 32 + head)
def locT4 (dev page : Nat) : BitVec 48 := BitVec.ofNat 48 (dev * 2 ^ 34 + page)

def MapEntry.frame (e : MapEntry) : Nat := bits e.loc.toNat 31 0
def MapEntry.slots (e : MapEntry) : Nat := bits e.loc.toNat 39 36
def MapEntry.slot (e : MapEntry) : Nat := bits e.loc.toNat 35 0
def MapEntry.segIdx (e : MapEntry) : Nat := bits e.loc.toNat 39 36
def MapEntry.segRun (e : MapEntry) : Nat := bits e.loc.toNat 35 32 + 1
def MapEntry.t4Dev (e : MapEntry) : Nat := bits e.loc.toNat 45 34
def MapEntry.t4Page (e : MapEntry) : Nat := bits e.loc.toNat 33 0

/-- The page has storage on this device. -/
def MapEntry.local (e : MapEntry) : Bool := e.st != .unbacked && decide (e.tier < 3)

/-- The page is held in T4. -/
def MapEntry.remote (e : MapEntry) : Bool := e.st != .unbacked && e.tier == 3

/-- The frames that hold a page's storage. -/
def MapEntry.frames (e : MapEntry) : List Nat :=
  if e.st = .unbacked then []
  else if e.tier = 0 then [e.frame]
  else if e.tier = 1 then [e.slot / 16]
  else if e.tier = 2 then (List.range e.segRun).map (e.frame + ·)
  else []

/-! ### Homes -/

/-- The home slice hash of an exposed page number (R165). -/
def homeHash (p : Nat) : Nat :=
  bits p 5 0 ^^^ bits p 11 6 ^^^ bits p 17 12 ^^^ bits p 23 18 ^^^ bits p 29 24 ^^^ bits p 33 30

/-- The home slice of a page. -/
def Dev.home (d : Dev) (page : Nat) : Nat := if d.nHs = 64 then homeHash page else homeHash page % 32

/-- The number k of the memory tile MTk of a page's home slice. -/
def Dev.homeTile (d : Dev) (page : Nat) : Nat := d.home page / 16

/-! ### Directory entries (R167, R168) -/

/-- STATE of an entry. -/
def DirSt.code : DirSt → Nat
  | .s => 1 | .e => 2 | .g => 3

/-- Bits [95:8] of a directory entry. -/
def DirEnt.body (e : DirEnt) (held : Bool) : BitVec 88 :=
  BitVec.ofNat 40 e.line ++ BitVec.ofNat 3 e.st.code ++ BitVec.ofBool held ++ BitVec.ofNat 3 e.ptrs.length ++ BitVec.ofNat 12 e.dev ++
    BitVec.ofNat 8 e.group ++ BitVec.ofNat 5 (e.ptrs.getD 3 0) ++ BitVec.ofNat 5 (e.ptrs.getD 2 0) ++ BitVec.ofNat 5 (e.ptrs.getD 1 0) ++
    BitVec.ofNat 5 (e.ptrs.getD 0 0) ++ 0#1

/-- A directory entry as the slice stores it (R167), with its check byte. -/
def DirEnt.encode (e : DirEnt) (held : Bool) : BitVec 96 := e.body held ++ Config.secded (e.body held)

/-- The pointer in place `i` of a stored entry, PTR0 to PTR3. -/
def dirPtr (w : BitVec 96) (i : Nat) : Nat := (w.extractLsb' (9 + 5 * i) 5).toNat

/-- A stored entry that no rule of R168 allows (R191): STATE 4 to 7, CNT out of range for its STATE, or a valid pointer above 16. -/
def dirBad (w : BitVec 96) : Bool :=
  let st := (w.extractLsb' 53 3).toNat
  let cnt := (w.extractLsb' 49 3).toNat
  decide (4 ≤ st) || decide (4 < cnt) || (st == 1 && cnt == 0) || (st == 2 && cnt != 1) || (st == 3 && cnt != 0) ||
    (List.range cnt).any fun i => decide (16 < dirPtr w i)

/-- A stored entry of a line that is not in state I, and its HELD bit. -/
def DirEnt.decode (w : BitVec 96) (order : Nat) : Option (DirEnt × Bool) :=
  let st := (w.extractLsb' 53 3).toNat
  if dirBad w then none
  else (if st = 1 then some DirSt.s else if st = 2 then some DirSt.e else if st = 3 then some DirSt.g else none).map fun s =>
    ({ line := (w.extractLsb' 56 40).toNat, st := s, dev := (w.extractLsb' 37 12).toNat, group := (w.extractLsb' 29 8).toNat,
       ptrs := (List.range (w.extractLsb' 49 3).toNat).map (dirPtr w), order := order }, w.getLsbD 52)

/-- The directory set of a line (R166). -/
def dirSet (line : Nat) : Nat := bits line 14 0 ^^^ bits line 29 15 ^^^ bits line 39 30

/-- Page, line within the page, and granule of a line number. -/
def lnPage (line : Nat) : Nat := line / 64
def lnIdx (line : Nat) : Nat := line % 64
def lnGran (line : Nat) : Nat := line / 2
def lnHalf (line : Nat) : Nat := line % 2

/-! ### Device physical addresses -/

/-- A place in DRAM as a rank, by channel and `slot * 4 + rank`, and the frame offset within the rank. -/
structure Place where
  ch : Nat
  r : Nat
  off : Nat
  deriving DecidableEq, Repr

def Chan.dimm (c : Chan) (slot : Nat) : Option Dimm := if slot = 0 then c.dimm0 else c.dimm1

/-- Rank bits of a module (R198). -/
def rankBits (ranks : Nat) : Nat := if ranks = 4 then 2 else if ranks = 2 then 1 else 0

/-- Chip ID bits of a stack height. -/
def chipBits (stack : Nat) : Nat := if stack = 8 then 3 else if stack = 4 then 2 else if stack = 2 then 1 else 0

/-- Row address bits of a die density. -/
def rowBits (dieGb : Nat) : Nat := if dieGb = 32 then 17 else 16

/-- Frames of one rank of a module: a row of 16 KiB is four frames. -/
def dimmFrames (m : Dimm) : Nat := 2 ^ (rowBits m.dieGb + 7 + chipBits m.stack)

/-- Where a frame lies (R198); none where its slot holds no module. -/
def Dev.place (d : Dev) (frame : Nat) : Option Place :=
  let c := frame / 2 ^ 27
  let slot := frame / 2 ^ 26 % 2
  if c < d.nChans then
    match (d.chan c).dimm slot with
    | none => none
    | some m =>
      let rb := rankBits m.ranks
      some { ch := c, r := slot * 4 + frame / 2 ^ (26 - rb) % 2 ^ rb, off := frame % 2 ^ (26 - rb) }
  else none

/-- The first frame number of a rank. -/
def Dev.rankBase (d : Dev) (c r : Nat) : Nat :=
  match (d.chan c).dimm (r / 4) with
  | none => c * 2 ^ 27 + r / 4 * 2 ^ 26
  | some m => c * 2 ^ 27 + r / 4 * 2 ^ 26 + r % 4 * 2 ^ (26 - rankBits m.ranks)

/-- The module in a rank's slot, where the rank exists. -/
def Dev.rankDimm (d : Dev) (c r : Nat) : Option Dimm :=
  match (d.chan c).dimm (r / 4) with
  | none => none
  | some m => if r % 4 < m.ranks then some m else none

/-- Frames of a rank. -/
def Dev.rankCap (d : Dev) (c r : Nat) : Nat := match d.rankDimm c r with | none => 0 | some m => dimmFrames m

/-- The offset of the first frame of a rank's probe row (R199): highest row of BG 0, BA 0, chip 0. -/
def dimmProbe (m : Dimm) : Nat := (2 ^ rowBits m.dieGb - 1) * 2 ^ (7 + chipBits m.stack) + 7 * 4

/-- The DRAM coordinates of a granule (R198): bank group, bank, chip, row, column. -/
structure DramAddr where
  bg : Nat
  ba : Nat
  cid : Nat
  row : Nat
  col : Nat
  deriving DecidableEq, Repr

/-- Decoding of the rank offset in bytes. -/
def dimmDecode (m : Dimm) (a : Nat) : DramAddr :=
  let c := chipBits m.stack
  let row := a / 2 ^ (19 + c)
  { bg := bits a 16 14 ^^^ row % 8, ba := bits a 18 17, cid := a / 2 ^ 19 % 2 ^ c, row := row, col := bits a 13 7 * 16 }

/-- A granule's rank and DRAM coordinates, by its device physical granule number (DPA [43:7]). -/
def Dev.granPlace (d : Dev) (gran : Nat) : Option (Place × DramAddr) :=
  match d.place (gran / 32) with
  | none => none
  | some p =>
    match (d.chan p.ch).dimm (p.r / 4) with
    | none => none
    | some m => some (p, dimmDecode m (p.off * 4096 + gran % 32 * 128))

/-- Bank number of a coordinate within its rank: chip, group and bank. -/
def DramAddr.bank (a : DramAddr) : Nat := a.cid * 32 + a.bg * 4 + a.ba

/-- The populated channels of a memory tile: those with at least one rank up. -/
def rankUp (s : RankSt) : Bool := s == .active || s == .retraining || s == .failing

/-- Local index list of a tile's channels. -/
def tileChans (k : Nat) : List Nat := (List.range 8).map (8 * k + ·)

/-- A rank is one of its tile's configured spare ranks (R248); `MT_SPARE_CFG` takes effect at priming, so a change is read
from the primed image only. -/
def Dev.spareCfg (d : Dev) (k : Nat) : Nat :=
  let a := mtBase k + 0xC000
  match d.cfg.primed.regs.filter fun e => e.1 == a with
  | [] => (resetOf a).toNat
  | l => (l.getLast?.map fun e => e.2.toNat).getD 0

def Dev.isSpare (d : Dev) (c r : Nat) : Bool :=
  let v := d.spareCfg (c / 8)
  (bit v 31 && bits v 28 24 == c && bits v 23 23 == r / 4 && bits v 22 21 == r % 4) ||
    (bit v 15 && bits v 12 8 == c && bits v 7 7 == r / 4 && bits v 6 5 == r % 4)

def Dev.resRanks (d : Dev) (k : Nat) : Nat := bits (d.spareCfg k) 3 0

/-! ### Regions and views -/

/-- The region that holds an exposed page. -/
def Dev.regionOf (d : Dev) (page : Nat) : Option Region :=
  d.cfg.active.regions.find? fun r => decide (r.base ≤ page / 65536) && decide (page / 65536 < r.base + r.size)

/-- The sharing group of a page: 0 for a private region or none. -/
def Dev.groupOf (d : Dev) (page : Nat) : Nat := match d.regionOf page with | some r => r.group | none => 0

/-- Head views are restart records: those of the primed image are in force. Answers the static region's number. -/
def Dev.staticOf (d : Dev) (h : Nat) : Option Nat :=
  (d.cfg.primed.headViews.find? fun v => v.1 == h).bind fun v => if v.2.1 then some v.2.2 else none

def Dev.regionNum (d : Dev) (n : Nat) : Option Region := d.cfg.active.regions.find? fun r => r.num == n

/-- A 256 MiB block lies in a head's view (R64). -/
def Dev.inView (d : Dev) (h blk : Nat) : Bool :=
  match d.staticOf h with
  | some n =>
    match d.regionNum n with
    | some r => decide (r.base ≤ blk) && decide (blk < r.base + r.size)
    | none => false
  | none => (d.head h).blocks.contains blk

/-- The exposed address of a head's DPA 0 (R62). -/
def Dev.headDpaBase (d : Dev) (h : Nat) : Nat :=
  match d.staticOf h with
  | some n => (d.regionNum n).elim 0 fun r => r.base * 2 ^ 28
  | none => 0

/-- The exposed address of a head's DPA, where it lies in the view (R62, R64). -/
def Dev.exposed (d : Dev) (h dpa : Nat) : Option Nat :=
  let a := d.headDpaBase h + dpa
  if d.inView h (a / 2 ^ 28) then some a else none

/-- The head DPA that a head's HDM decoders give a host physical address (R63): interleave takes the granules of one way in `ways`. -/
def Dev.hdm (d : Dev) (h hpa : Nat) : Option Nat :=
  ((d.head h).decoders.find? fun x => decide (x.2.base ≤ hpa) && decide (hpa < x.2.base + x.2.size)).map fun x =>
    let o := hpa - x.2.base
    x.2.dpaBase + o / (x.2.gran * x.2.ways) * x.2.gran + o % x.2.gran

/-- The exposed address of a host physical address, where a decoder covers it and it lies in the view (R63, R64). -/
def Dev.hostAddr (d : Dev) (h hpa : Nat) : Option Nat := (d.hdm h hpa).bind (d.exposed h)

/-- A head's own DPA of an exposed address. -/
def Dev.headDpa (d : Dev) (h a : Nat) : Nat := a - d.headDpaBase h

/-- A head is attached (R60). -/
def Dev.attached (d : Dev) (h : Nat) : Bool := decide (h < d.nHosts) && !(d.head h).perst && (d.head h).up

/-- The attached heads. -/
def Dev.attachedHeads (d : Dev) : List Nat := (List.range d.nHosts).filter d.attached

/-- The heads whose view holds a block. -/
def Dev.viewers (d : Dev) (blk : Nat) : List Nat := (List.range d.nHosts).filter fun h => d.inView h blk

/-! ### Hosting grants (R280, R281) -/

/-- One `CT_T4_GRANT_n` entry: VALID, OWNER, PEER, IB, OB, LENGTH in 256 MiB units, and KDOM. -/
structure Grant where
  n : Nat
  valid : Bool
  owner : Bool
  peer : Nat
  ib : Nat
  ob : Nat
  len : Nat
  kdom : Nat
  deriving DecidableEq, Repr

/-- Grant `n` as a register file holds it. -/
def grantOf (reg : Nat → BitVec 32) (n : Nat) : Grant :=
  let w0 := (reg (0x8000 + n * 16)).toNat
  let w3 := (reg (0x800C + n * 16)).toNat
  { n := n, valid := bit w0 31, owner := bit w0 30, peer := bits w0 11 0, ib := bits (reg (0x8004 + n * 16)).toNat 17 0,
    ob := bits (reg (0x8008 + n * 16)).toNat 17 0, len := bits w3 30 12, kdom := bits w3 11 0 }

/-- The grants in force. -/
def Dev.grants (d : Dev) : List Grant := ((List.range 64).map (grantOf d.cfgReg)).filter Grant.valid

/-- The hosting range of this device that holds an exposed page. -/
def Dev.hosting (d : Dev) (page : Nat) : Option Grant :=
  d.grants.find? fun g => g.owner && decide (g.ob ≤ page / 65536) && decide (page / 65536 < g.ob + g.len)

/-- The importer window that holds an exposed page. -/
def Dev.window (d : Dev) (page : Nat) : Option Grant :=
  d.grants.find? fun g => !g.owner && decide (g.ib ≤ page / 65536) && decide (page / 65536 < g.ib + g.len)

/-- The owner page of an importer page under a grant (R281), and back. -/
def Grant.toOwner (g : Grant) (page : Nat) : Nat := page - g.ib * 65536 + g.ob * 65536
def Grant.toImporter (g : Grant) (page : Nat) : Nat := page - g.ob * 65536 + g.ib * 65536

/-- The attributes of a page: its region's, or the defaults of R97 with T4_OK 0 for a hosting range (R280). -/
def Dev.attrs (d : Dev) (page : Nat) : Option Region :=
  match d.regionOf page with
  | some r => some r
  | none => (d.hosting page).map fun g =>
      { num := 1024 + g.n, base := g.ob, size := g.len, heads := 0#16, group := 0, guest := false, kdom := if d.hasEnc then g.kdom else 0,
        tierMax := if d.hasZw then 2 else 0, pageHint := 0, t4ok := false, reclaim := false, zeroElide := true, book := 0 }

/-- The deepest tier allowed: T1 on an N variant whatever the record says (R8). -/
def Dev.tierMax (d : Dev) (r : Region) : Nat := if d.hasZw then r.tierMax else 0

/-- Pages below the exposed capacity are homed, swept and counted (R466). -/
def Dev.homed (d : Dev) (page : Nat) : Bool := decide (page < d.cfg.capacity * 65536)

end Sys2Proof.Machine
end

