-- ==== Sys2Proof/Machine/Zw.lean ====
section
/-! DEFINITION. The ZW16 format: code books (R121, R124), tokens (R122, R123), decoding of blocks and segments (R128 to
R131), and the encoder's greedy parse (R463, R135 to R137). Words are natural numbers below 65,536; a history is held
newest word first. -/

namespace Sys2Proof.Machine

open Sys2Proof

/-! ### Books -/

/-- The built-in book (slot 0). -/
def builtinBook : Book :=
  { id := 1#32
    t := [2, 3, 6, 6, 6, 6, 6, 6, 6, 6, 6, 6, 6, 6, 3, 4, 4, 6, 6, 6, 6, 6, 6, 6, 6, 6, 6, 6, 6, 0, 0, 0]
    lh := List.replicate 256 8
    ll := List.replicate 256 8
    d := List.replicate 16 4 }

/-- 4-bit code lengths, the lower-numbered symbol of a pair in bits [7:4]. -/
def nibbles : List Byte → List Nat
  | [] => []
  | b :: bs => b.toNat / 16 :: b.toNat % 16 :: nibbles bs

/-- A table is complete when its code space is exactly filled. -/
def tableComplete (ls : List Nat) : Bool :=
  (ls.filter (· != 0)).foldl (fun acc l => acc + 2 ^ (15 - l)) 0 == 2 ^ 15

def tableUnused (ls : List Nat) : Bool := ls.all (· == 0)

/-- The book of a 296-byte body, when it is valid (R124). -/
def parseBook (b : List Byte) : Option Book :=
  let bk : Book := { id := BitVec.ofNat 32 (fieldAt b 4 4), t := nibbles (sub b 16 16), lh := nibbles (sub b 32 128),
                     ll := nibbles (sub b 160 128), d := nibbles (sub b 288 8) }
  let ok := b.length == 296 && fieldAt b 0 2 == 0x425A && fieldAt b 2 1 == 1 && fieldAt b 3 1 == 0 && fieldAt b 12 4 == 0 &&
    bk.id != 0#32 && bk.id != 1#32 && fieldAt b 8 4 == (crc32c (sub b 12 284)).toNat &&
    bk.t.getD 0 0 != 0 && bk.lh.all (· != 0) && bk.ll.all (· != 0) && (bk.t.drop 29).all (· == 0) &&
    tableComplete bk.t && tableComplete bk.lh && tableComplete bk.ll &&
    (tableComplete bk.d || (tableUnused bk.d && ((bk.t.drop 14).take 11).all (· == 0)))
  if ok then some bk else none

/-- Symbols of one length with their codes, from the first code of that length on. -/
def codesOfLen (ls : List Nat) (len code : Nat) : List (Nat × Nat × Nat) × Nat :=
  (List.range ls.length).foldl (fun acc sym =>
    if ls.getD sym 0 = len then (acc.1 ++ [(len, acc.2, sym)], acc.2 + 1) else acc) ([], code)

/-- The canonical code of each used symbol (R121), as (length, code, symbol). -/
def codeTable (ls : List Nat) : List (Nat × Nat × Nat) :=
  ((List.range 15).foldl (fun (acc : List (Nat × Nat × Nat) × Nat) i =>
    let (l, c) := codesOfLen ls (i + 1) (acc.2 * 2)
    (acc.1 ++ l, c)) ([], 0)).1

/-- The four code tables of a book. -/
structure Codes where
  t : List (Nat × Nat × Nat)
  lh : List (Nat × Nat × Nat)
  ll : List (Nat × Nat × Nat)
  d : List (Nat × Nat × Nat)
  deriving DecidableEq, Repr

def Book.codes (b : Book) : Codes := { t := codeTable b.t, lh := codeTable b.lh, ll := codeTable b.ll, d := codeTable b.d }

/-! ### Bits -/

/-- The low `n` bits of a number, most significant first (R120). -/
def toBits : Nat → Nat → List Bool
  | 0, _ => []
  | n + 1, v => bit v n :: toBits n v

def bytesBits (bs : List Byte) : List Bool := bs.flatMap fun b => toBits 8 b.toNat

def bitsNat (bs : List Bool) : Nat := bs.foldl (fun acc b => 2 * acc + b2n b) 0

/-- Bytes of a bit string, zeros in the bits after the last token (R120). -/
def bitsBytes (bs : List Bool) : List Byte :=
  (List.range ((bs.length + 7) / 8)).map fun i =>
    BitVec.ofNat 8 (bitsNat ((List.range 8).map fun j => bs.getD (8 * i + j) false))

/-- Read an `n`-bit field. -/
def takeBits (n : Nat) (bs : List Bool) : Option (Nat × List Bool) :=
  if n ≤ bs.length then some (bitsNat (bs.take n), bs.drop n) else none

/-- Read one symbol: the only code of the table that starts the bits. -/
def takeSym (tbl : List (Nat × Nat × Nat)) (bs : List Bool) : Option (Nat × List Bool) :=
  (tbl.find? fun e => decide (e.1 ≤ bs.length) && bitsNat (bs.take e.1) == e.2.1).map fun e => (e.2.2, bs.drop e.1)

/-! ### Words -/

def pageWords : List Byte → List Nat
  | a :: b :: bs => (a.toNat + 256 * b.toNat) :: pageWords bs
  | _ => []

def wordsPage (ws : List Nat) : List Byte := ws.flatMap fun w => leBytes 2 w

/-! ### Decoding -/

/-- Decode errors, coded as LAST_ERR of `MT_DEC_STAT`: 1 CRC, 2 version or kind, 3 book, 4 token, 5 reference, 6 length,
7 segment header. -/
abbrev DecErr := Nat

/-- `n` words copied from `d` words back, each plus `delta` (R123). -/
def copyWords (d delta : Nat) : Nat → List Nat → List Nat
  | 0, h => h
  | n + 1, h => copyWords d delta n ((h.getD (d - 1) 0 + delta) % 65536 :: h)

/-- Sign extension of a delta field to 16 bits. -/
def signExt (w v : Nat) : Nat := if v / 2 ^ (w - 1) % 2 = 1 then v + 65536 - 2 ^ w else v

/-- Where a decoding stands: the bits left, the group's history, and the words still due in the page. -/
structure DecSt where
  bits : List Bool
  hist : List Nat
  left : Nat

/-- Words from a run of `n`, if the page and the history allow it. -/
def emitRun (s : DecSt) (bs : List Bool) (n d delta : Nat) (ref : Bool) : Except DecErr DecSt :=
  if s.left < n then .error 4
  else if ref ∧ (d > 32768 ∨ d > s.hist.length) then .error 5
  else .ok { bits := bs, hist := if ref then copyWords d delta n s.hist else List.replicate n 0 ++ s.hist, left := s.left - n }

def orErr {α : Type} (e : DecErr) : Option α → Except DecErr α
  | none => .error e
  | some a => .ok a

/-- One token (R122, R123). Running out of bits is a length error. -/
def decodeToken (c : Codes) (s : DecSt) : Except DecErr DecSt := do
  let (sym, bs) ← orErr 6 (takeSym c.t s.bits)
  if sym = 0 then
    let (hi, bs) ← orErr 6 (takeSym c.lh bs)
    let (lo, bs) ← orErr 6 (takeSym c.ll bs)
    .ok { bits := bs, hist := (hi * 256 + lo) :: s.hist, left := s.left - 1 }
  else if sym = 1 then
    let (lo, bs) ← orErr 6 (takeSym c.ll bs)
    match s.hist with
    | [] => .error 5
    | w :: _ => .ok { bits := bs, hist := (w / 256 * 256 + lo) :: s.hist, left := s.left - 1 }
  else if sym ≤ 13 then
    let (e, bs) ← orErr 6 (takeBits (sym - 2) bs)
    emitRun s bs (2 ^ (sym - 2) + e) 0 0 false
  else if sym ≤ 24 then
    let (e, bs) ← orErr 6 (takeBits (sym - 13) bs)
    let (dk, bs) ← orErr 6 (takeSym c.d bs)
    let (de, bs) ← orErr 6 (takeBits dk bs)
    emitRun s bs (2 ^ (sym - 13) + e) (2 ^ dk + de) 0 true
  else if sym ≤ 28 then
    let (dw, bs) ← orErr 6 (takeBits 2 bs)
    let (dv, bs) ← orErr 6 (takeBits (4 * (dw + 1)) bs)
    let (lk, bs) ← orErr 6 (takeBits 4 bs)
    if lk ≥ 12 then .error 4
    else
      let (e, bs) ← orErr 6 (takeBits lk bs)
      emitRun s bs (2 ^ lk + e) (2 ^ (sym - 25)) (signExt (4 * (dw + 1)) dv) true
  else .error 4

/-- Tokens until at least `stop` of a page's 2,048 words are out (R138), at most one token a word. -/
def decodeTo (c : Codes) (stop : Nat) : Nat → DecSt → Except DecErr DecSt
  | 0, s => if 2048 - s.left ≥ stop then .ok s else .error 6
  | n + 1, s => if 2048 - s.left ≥ stop then .ok s else
    match decodeToken c s with
    | .error e => .error e
    | .ok s' => decodeTo c stop n s'

/-- One page's stream over a history (R119, R131): its words oldest first and the history after it. -/
def decodePage (c : Codes) (hist : List Nat) (stream : List Byte) (crc : BitVec 32) : Except DecErr (List Byte × List Nat) :=
  match decodeTo c 2048 2048 { bits := bytesBits stream, hist := hist, left := 2048 } with
  | .error e => .error e
  | .ok s =>
    if s.bits.length ≥ 8 then .error 6
    else
      let page := wordsPage (s.hist.take 2048).reverse
      if crc32c page = crc then .ok (page, s.hist) else .error 1

/-- A T2 block's codes, stream and CRC (R128, R131): SLOTS and BOOK of the entry, the book in that slot. -/
def blockStream (slots book : Nat) (bk : Option Book) (b : List Byte) : Except DecErr (Codes × List Byte × BitVec 32) :=
  let n := fieldAt b 4 2
  if fieldAt b 0 1 ≠ 0x11 then .error 2
  else match bk with
    | none => .error 3
    | some k =>
      if fieldAt b 1 1 / 16 ≠ book ∨ fieldAt b 2 2 ≠ k.id.toNat % 65536 then .error 3
      else if 12 + n > slots * 256 then .error 6
      else .ok (k.codes, sub b 8 n, BitVec.ofNat 32 (fieldAt b (8 + n) 4))

/-- A T2 block decoded (R131). -/
def decodeBlock (slots book : Nat) (bk : Option Book) (b : List Byte) : Except DecErr (List Byte) :=
  match blockStream slots book bk b with
  | .error e => .error e
  | .ok (c, st, crc) => (decodePage c [] st crc).map Prod.fst

/-- END[i] of a segment header, 0 before page 0. -/
def segEnd (b : List Byte) (i : Nat) : Nat := fieldAt b (16 + 2 * i) 2
def segStart (b : List Byte) (i : Nat) : Nat := if i = 0 then 0 else segEnd b (i - 1)
def segIncl (b : List Byte) (i : Nat) : Bool := bit (fieldAt b 6 2) i

/-- A segment header is consistent (R130); `run` is the entry's run length. -/
def segHeaderOk (b : List Byte) (run : Nat) : Bool :=
  let rst := fieldAt b 4 1
  let n := fieldAt b 8 4
  fieldAt b 0 1 == 0x12 && [1, 2, 4, 8, 16].contains rst && fieldAt b 5 1 == run &&
    (List.range 16).all (fun i => decide (segStart b i ≤ segEnd b i)) && segEnd b 15 == n && decide (128 + n ≤ fieldAt b 5 1 * 4096) &&
    (List.range 16).all (fun i => !segIncl b i || decide (segEnd b i - segStart b i ≤ 3584)) &&
    fieldAt b 124 4 == (crc32c (sub b 0 124)).toNat

/-- The included pages of a list decoded in order over a history; answers the last page decoded and how many. -/
def decodeRun (c : Codes) (b : List Byte) : List Nat → List Nat → List Byte → Nat → Except DecErr (List Byte × Nat)
  | [], _, page, n => .ok (page, n)
  | i :: is, hist, page, n =>
    if segIncl b i then
      match decodePage c hist (sub b (128 + segStart b i) (segEnd b i - segStart b i)) (BitVec.ofNat 32 (fieldAt b (48 + 4 * i) 4)) with
      | .error e => .error e
      | .ok (pg, h) => decodeRun c b is h pg (n + 1)
    else decodeRun c b is hist page n

/-- The codes of a segment whose header is right and includes page `p` (R129, R131). -/
def segCodes (run p book : Nat) (bk : Option Book) (b : List Byte) : Except DecErr Codes :=
  if fieldAt b 0 1 ≠ 0x12 then .error 2
  else if segHeaderOk b run then
    match bk with
    | none => .error 3
    | some k =>
      if fieldAt b 1 1 / 16 ≠ book ∨ fieldAt b 2 2 ≠ k.id.toNat % 65536 then .error 3
      else if segIncl b p then .ok k.codes else .error 7
  else .error 7

/-- The restart point of page `p`. -/
def segRestart (b : List Byte) (p : Nat) : Nat := p - p % fieldAt b 4 1

/-- Page `p` of a segment (R129, R131), and how many pages were decoded to reach it. -/
def decodeSegment (run p book : Nat) (bk : Option Book) (b : List Byte) : Except DecErr (List Byte × Nat) :=
  match segCodes run p book bk b with
  | .error e => .error e
  | .ok c =>
    let r := segRestart b p
    decodeRun c b ((List.range (p - r + 1)).map (r + ·)) [] [] 0

/-- The words, newest first, of the included pages of a list decoded in order. -/
def histRun (c : Codes) (b : List Byte) : List Nat → List Nat → Except DecErr (List Nat)
  | [], hist => .ok hist
  | i :: is, hist =>
    if segIncl b i then
      match decodePage c hist (sub b (128 + segStart b i) (segEnd b i - segStart b i)) (BitVec.ofNat 32 (fieldAt b (48 + 4 * i) 4)) with
      | .error e => .error e
      | .ok (_, h) => histRun c b is h
    else histRun c b is hist

/-- Page `p` of a segment before it is decoded: its codes, the history that it continues, its stream and CRC. -/
def segStream (run p book : Nat) (bk : Option Book) (b : List Byte) : Except DecErr (Codes × List Nat × List Byte × BitVec 32) :=
  match segCodes run p book bk b with
  | .error e => .error e
  | .ok c =>
    let r := segRestart b p
    match histRun c b ((List.range (p - r)).map (r + ·)) [] with
    | .error e => .error e
    | .ok h => .ok (c, h, sub b (128 + segStart b p) (segEnd b p - segStart b p), BitVec.ofNat 32 (fieldAt b (48 + 4 * p) 4))

/-! ### Encoding -/

/-- A token the encoder may emit: the words it covers, its bits, and its rank among equals (R463). -/
structure Cand where
  words : Nat
  code : List Bool
  rank : Nat

/-- A symbol's code, where the book has one. -/
def symBits (tbl : List (Nat × Nat × Nat)) (sym : Nat) : Option (List Bool) :=
  (tbl.find? fun e => e.2.2 == sym).map fun e => toBits e.1 e.2.1

/-- Class of a value (R122). -/
def cls (n : Nat) : Nat := Nat.log2 n

/-- Zero words at the start, up to a limit. -/
def zeroRun : Nat → List Nat → Nat
  | 0, _ => 0
  | _, [] => 0
  | n + 1, w :: ws => if w = 0 then zeroRun n ws + 1 else 0

/-- Words that a copy from `d` back plus `delta` would produce rightly. -/
def copyRun (d delta : Nat) : Nat → List Nat → List Nat → Nat
  | 0, _, _ => 0
  | _, _, [] => 0
  | n + 1, h, w :: ws => if (h.getD (d - 1) 0 + delta) % 65536 = w then copyRun d delta n (w :: h) ws + 1 else 0

/-- The narrowest DW that holds a 16-bit delta. -/
def deltaWidth (v : Nat) : Nat :=
  if v < 8 ∨ v ≥ 65528 then 0 else if v < 128 ∨ v ≥ 65408 then 1 else if v < 2048 ∨ v ≥ 63488 then 2 else 3

/-- The literal candidate. Where the same-high-byte literal applies but the book gives its symbol or its low byte no code, no literal is
offered, as R463 leaves a candidate out; a page with no candidate left ends as no gain (DESIGN CHOICE, log 75). -/
def litCand (c : Codes) (hist : List Nat) (w : Nat) : Option Cand :=
  match hist with
  | v :: _ =>
    if v / 256 = w / 256 then
      match symBits c.t 1, symBits c.ll (w % 256) with
      | some a, some b => some ⟨1, a ++ b, 1⟩
      | _, _ => none
    else full
  | [] => full
where
  full := match symBits c.t 0, symBits c.lh (w / 256), symBits c.ll (w % 256) with
    | some a, some b, some e => some ⟨1, a ++ b ++ e, 1⟩
    | _, _, _ => none

def zeroCand (c : Codes) (ws : List Nat) : Option Cand :=
  let n := zeroRun 4095 ws
  if n = 0 then none else (symBits c.t (cls n + 2)).map fun a => ⟨n, a ++ toBits (cls n) (n - 2 ^ cls n), 0⟩

/-- The stride-delta candidate of stride 2^i. -/
def strideCand (c : Codes) (hist ws : List Nat) (i : Nat) : Option Cand :=
  let s := 2 ^ i
  if s ≤ hist.length then
    let delta := (ws.headD 0 + 65536 - hist.getD (s - 1) 0) % 65536
    let n := copyRun s delta 4095 hist ws
    let dw := deltaWidth delta
    if n < 2 then none
    else (symBits c.t (25 + i)).map fun a =>
      ⟨n, a ++ toBits 2 dw ++ toBits (4 * (dw + 1)) delta ++ toBits 4 (cls n) ++ toBits (cls n) (n - 2 ^ cls n), 2 + i⟩
  else none

/-- The match that the search finds: its distance is Harluod's choice (R463, free value), its words are checked. -/
def matchCand (c : Codes) (hist ws : List Nat) : Option Cand :=
  let d := Config.matchSearch hist ws
  if 1 ≤ d ∧ d ≤ hist.length ∧ d ≤ 32768 then
    let n := copyRun d 0 4095 hist ws
    if n < 2 then none
    else match symBits c.t (13 + cls n), symBits c.d (cls d) with
      | some a, some b => some ⟨n, a ++ toBits (cls n) (n - 2 ^ cls n) ++ b ++ toBits (cls d) (d - 2 ^ cls d), 6⟩
      | _, _ => none
  else none

/-- The candidate that R463 prefers: most words, then fewest bits, then rank. -/
def better (a b : Cand) : Bool :=
  decide (a.words > b.words) ||
    (a.words == b.words && (decide (a.code.length < b.code.length) || (a.code.length == b.code.length && decide (a.rank < b.rank))))

def pickCand : List (Option Cand) → Option Cand
  | [] => none
  | none :: l => pickCand l
  | some a :: l => match pickCand l with | none => some a | some b => if better b a then some b else some a

/-- The candidate that the encoder emits for the next words (R463). -/
def nextCand (c : Codes) (hist ws : List Nat) : Option Cand :=
  pickCand (zeroCand c ws :: litCand c hist (ws.headD 0) :: matchCand c hist ws :: (List.range 4).map (strideCand c hist ws))

/-- Encode the words left of a page over a history, within a limit of bits (R135): the code reversed in pieces, or none. -/
def encodeWords (c : Codes) (limit : Nat) : Nat → List Nat → List Nat → List (List Bool) → Nat → Option (List (List Bool))
  | 0, _, _, acc, _ => some acc
  | _, _, [], acc, _ => some acc
  | n + 1, hist, w :: ws, acc, used =>
    match nextCand c hist (w :: ws) with
    | none => none
    | some a =>
      if used + a.code.length > limit then none
      else encodeWords c limit n (((w :: ws).take a.words).reverse ++ hist) ((w :: ws).drop a.words) (a.code :: acc)
        (used + a.code.length)

/-- A page's stream over a history, or no gain (R135); `limit` in bytes. -/
def encodePage (c : Codes) (hist : List Nat) (page : List Byte) (limit : Nat) : Option (List Byte) :=
  (encodeWords c (limit * 8) 2048 hist (pageWords page) [] 0).map fun l => bitsBytes l.reverse.flatten

/-- Where the encoding of a page stands when only its first words are in the source buffer (R140): bits emitted, newest token first,
their number, the words that those tokens cover, the history, the token still open, and whether the page met its limit. -/
structure PartEnc where
  toks : List (List Bool) := []
  used : Nat := 0
  words : Nat := 0
  hist : List Nat := []
  last : Option Cand := none
  met : Bool := false

/-- Encode the words that are there. A token that reaches the last of them is held open while the page goes on, and a lone word that is
not zero is not consumed yet (DESIGN CHOICE, log 74). -/
def encodePart (c : Codes) (limit : Nat) (whole : Bool) : Nat → List Nat → PartEnc → PartEnc
  | 0, _, s => s
  | _, [], s => s
  | n + 1, w :: ws, s =>
    match nextCand c s.hist (w :: ws) with
    | none => { s with met := true }
    | some a =>
      if !whole && a.words ≥ (w :: ws).length then (if a.rank = 1 then s else { s with last := some a })
      else if s.used + a.code.length > limit then { s with met := true }
      else encodePart c limit whole n ((w :: ws).drop a.words)
        { s with toks := a.code :: s.toks, used := s.used + a.code.length, words := s.words + a.words,
                 hist := ((w :: ws).take a.words).reverse ++ s.hist }

/-- Verify-after-compress (R141): the stream decodes to the page. -/
def verifyPage (c : Codes) (hist : List Nat) (page stream : List Byte) : Bool :=
  match decodePage c hist stream (crc32c page) with | .ok (p, _) => p == page | .error _ => false

/-- What an attempt to encode one page gives. -/
inductive EncRes where
  | ok (b : List Byte)
  | noGain
  | verifyFail
  deriving DecidableEq, Repr

/-- A T2 block (R128, R135). -/
def encodeBlock (slot : Nat) (k : Book) (verify : Bool) (page : List Byte) : EncRes :=
  match encodePage k.codes [] page 3572 with
  | none => .noGain
  | some st =>
    if verify && !verifyPage k.codes [] page st then .verifyFail
    else .ok ([0x11#8, BitVec.ofNat 8 (slot * 16 + b2n verify)] ++ leBytes 2 (k.id.toNat % 65536) ++ leBytes 2 st.length ++
      leBytes 2 0 ++ st ++ leBytes 4 (crc32c page).toNat)

/-- A segment being built: streams so far, per-page END and CRC, INCL, the group history, and whether the run is full. -/
structure SegSt where
  out : List Byte := []
  ends : List Nat := []
  crcs : List Nat := []
  incl : Nat := 0
  hist : List Nat := []
  closed : Bool := false
  bad : List Nat := []

/-- Take page `i` (none where it is not part of the segment) into a segment (R103, R135, R137, R142). -/
def SegSt.page (k : Book) (rst : Nat) (verify : Bool) (s : SegSt) (i : Nat) (pg : Option (List Byte)) : SegSt :=
  let hist := if i % rst = 0 then [] else s.hist
  let skip : SegSt := { s with ends := s.ends ++ [s.out.length], crcs := s.crcs ++ [0], hist := hist }
  match pg with
  | none => skip
  | some page =>
    if s.closed then skip
    else
      let room := 61312 - s.out.length
      match encodePage k.codes hist page (min 3584 room) with
      | none => { skip with closed := decide (room < 3584) }
      | some st =>
        if verify && !verifyPage k.codes hist page st then { skip with bad := s.bad ++ [i] }
        else
          { s with out := s.out ++ st, ends := s.ends ++ [s.out.length + st.length], crcs := s.crcs ++ [(crc32c page).toNat],
                   incl := s.incl + 2 ^ i, hist := (pageWords page).reverse ++ hist }

/-- Take the pages of a segment in order from index `i`. -/
def SegSt.pages (k : Book) (rst : Nat) (verify : Bool) : SegSt → Nat → List (Option (List Byte)) → SegSt
  | s, _, [] => s
  | s, i, p :: ps => SegSt.pages k rst verify (s.page k rst verify i p) (i + 1) ps

/-- The bytes of a finished segment; RUN frames as few as hold it. -/
def SegSt.bytes (slot : Nat) (k : Book) (rst : Nat) (verify : Bool) (s : SegSt) : List Byte :=
  let run := (128 + s.out.length + 4095) / 4096
  let h := [0x12#8, BitVec.ofNat 8 (slot * 16 + b2n verify)] ++ leBytes 2 (k.id.toNat % 65536) ++
    [BitVec.ofNat 8 rst, BitVec.ofNat 8 run] ++ leBytes 2 s.incl ++ leBytes 4 s.out.length ++ leBytes 4 0 ++
    s.ends.flatMap (leBytes 2) ++ s.crcs.flatMap (leBytes 4) ++ leBytes 12 0
  h ++ leBytes 4 (crc32c h).toNat ++ s.out

/-- Restart spacing of a code of RST in `MT_ZW_CFG`. -/
def rstPages (code : Nat) : Nat := 2 ^ code

end Sys2Proof.Machine
end

