-- ==== Sys2Proof/Machine/Ecc.lean ====
section
/-! DEFINITION. RS(160,128) over GF(2^8) (R221 to R224): what the decoder answers for a codeword with an error added. The
code is linear, so the outcome depends on the error and on the poison pattern stored, never on the data. -/

namespace Sys2Proof.Machine

open Sys2Proof

/-- Multiplication by alpha on the primitive polynomial x^8 + x^4 + x^3 + x^2 + 1. -/
def gfDouble (a : Nat) : Nat := if a < 128 then 2 * a else (2 * a - 256) ^^^ 0x1D

/-- Product in GF(2^8), over the bits of the second factor from its bit `n − 1` down. -/
def gfMulBits (a b : Nat) : Nat → Nat
  | 0 => 0
  | n + 1 => gfDouble (gfMulBits a (b / 2) n) ^^^ (if b % 2 = 1 then a else 0)

def gfMul (a b : Nat) : Nat := gfMulBits a b 8

/-- alpha to the power `n`. -/
def gfPow : Nat → Nat
  | 0 => 1
  | n + 1 => gfDouble (gfPow n)

/-- Locator of codeword symbol `k`. -/
def symLoc (k : Nat) : Nat := gfPow ((159 - k) % 255)

/-- `v`, `v x`, `v x^2`, …: `n` terms. -/
def gfGeom (v x : Nat) : Nat → List Nat
  | 0 => []
  | n + 1 => v :: gfGeom (gfMul v x) x n

def xorLists : List Nat → List Nat → List Nat
  | a :: as, b :: bs => (a ^^^ b) :: xorLists as bs
  | as, [] => as
  | [], bs => bs

/-- The 32 syndromes of an error given as (symbol, value) pairs. -/
def syndromes (e : List (Nat × Nat)) : List Nat :=
  e.foldl (fun acc p => xorLists acc (gfGeom p.2 (symLoc p.1) 32)) (List.replicate 32 0)

/-- The first symbol of a device's eight (R221). -/
def devSymbol (dev : Nat) : Nat :=
  if dev < 8 then 8 * dev else if dev < 10 then 128 + 8 * (dev - 8) else if dev < 18 then 64 + 8 * (dev - 10) else 144 + 8 * (dev - 18)

/-- Multiply a syndrome list by (1 − X x), for one erased symbol. -/
def eraseOne (x : Nat) : Nat → List Nat → List Nat
  | _, [] => []
  | prev, s :: ss => (s ^^^ gfMul x prev) :: eraseOne x s ss

/-- Erase the eight symbols of a device from a syndrome list. -/
def eraseDev (s : List Nat) (dev : Nat) : List Nat :=
  (List.range 8).foldl (fun s i => eraseOne (symLoc (devSymbol dev + i)) 0 s) s

/-- The syndromes are those of an error on the erased symbols alone, `n` of them. -/
def explained (n : Nat) (s : List Nat) : Bool := (s.drop n).all (· == 0)

/-- The four outcomes of R222; a correction names the device besides the marked one that was changed. -/
inductive EccRes where
  | clean
  | corrected (dev : Option Nat)
  | poisoned (mask : Nat)
  | uncorrectable
  deriving DecidableEq, Repr

/-- Check-symbol errors of a poison pattern (R224): mask 1 line 0, 2 line 1, 3 both. -/
def poisonErr (mask : Nat) : List (Nat × Nat) :=
  let k := if mask = 1 then 0x5A else if mask = 2 then 0xA5 else 0x3C
  if mask = 0 then [] else (List.range 32).map fun i => (128 + i, k ^^^ i)

/-! ### The encoder (R221) -/

/-- The generator (x − 1)(x − α)…(x − α^31): its 32 coefficients below x^32, that of x^31 first. -/
def eccGen : List Nat :=
  ((List.range 32).foldl (fun g i => xorLists (g ++ [0]) (0 :: g.map (gfMul · (gfPow i)))) [1]).drop 1

/-- One symbol into the division by the generator. -/
def eccStep (r : List Nat) (m : Nat) : List Nat :=
  let q := m ^^^ r.headD 0
  xorLists (r.drop 1 ++ [0]) (eccGen.map (gfMul · q))

/-- The codeword of a message with a poison pattern (R221, R224): the message, then its remainder, the coefficient of x^31 first. -/
def eccCodeword (msg : List Nat) (mask : Nat) : List Nat :=
  msg ++ (poisonErr mask).foldl (fun acc p => acc.set (p.1 - 128) (acc.getD (p.1 - 128) 0 ^^^ p.2)) (msg.foldl eccStep (List.replicate 32 0))

/-- The sixteen beats of a codeword's burst (R197, R221): on each the nibbles of devices 0 to 19. -/
def burstBeats (cw : List Nat) : List (List Nat) :=
  (List.range 16).map fun b => (List.range 20).map fun dev =>
    let s := cw.getD (devSymbol dev + b / 2) 0
    if b % 2 = 0 then s % 16 else s / 16 % 16

/-- The decoder's outcome (R222) for an error added to a codeword stored with a poison pattern. -/
def eccDecode (marked : Option Nat) (poison : Nat) (err : List (Nat × Nat)) : EccRes :=
  let s := syndromes (poisonErr poison ++ err)
  if s.all (· == 0) then .clean
  else
    let (base, n) := match marked with | none => (s, 0) | some m => (eraseDev s m, 8)
    if n = 8 ∧ explained 8 base then .corrected none
    else
      match (List.range 20).find? fun dev => some dev != marked && explained (n + 8) (eraseDev base dev) with
      | some dev => .corrected (some dev)
      | none =>
        match [1, 2, 3].find? fun mask =>
            let t := syndromes (poisonErr mask ++ poisonErr poison ++ err)
            match marked with | none => t.all (· == 0) | some m => explained 8 (eraseDev t m) with
        | some mask => .poisoned mask
        | none => .uncorrectable

/-- An error operand as numbers. -/
def errNats (l : List (Nat × Byte)) : List (Nat × Nat) := (l.filter fun p => decide (p.1 < 160)).map fun p => (p.1, p.2.toNat)

end Sys2Proof.Machine
end

