-- ==== Sys2Proof/Machine/Aes.lean ====
section
/-! DEFINITION. AES-256, the XTS mode of IEEE 1619 that stored data goes through (R146 to R148).
Bytes are natural numbers below 256 and blocks are lists of 16 of them, first byte first, so that a word on
paper is a word here. -/

namespace Sys2Proof.Machine

open Sys2Proof

/-! ### The field GF(2^8) and the S-box (FIPS 197) -/

/-- The S-box as one number: byte `x` from the low end is the substitute of `x`. -/
def sboxTable : Nat :=
  0x16bb54b00f2d99416842e6bf0d89a18cdf2855cee9871e9b948ed9691198f8e19e1dc186b95735610ef6034866b53e708a8bbd4b1f74dde8c6b4a61c2e2578ba08ae7a65eaf4566ca94ed58d6d37c8e779e4959162acd3c25c2406490a3a32e0db0b5ede14b8ee4688902a22dc4f816073195d643d7ea7c41744975fec130ccdd2f3ff1021dab6bcf5389d928f40a351a89f3c507f02f94585334d43fbaaefd0cf584c4a39becb6a5bb1fc20ed00d153842fe329b3d63b52a05a6e1b1a2c830975b227ebe28012079a059618c323c7041531d871f1e5a534ccf73f362693fdb7c072a49cafa2d4adf04759fa7dc982ca76abd7fe2b670130c56f6bf27b777c63

/-- The inverse S-box, laid out alike. -/
def sboxInvTable : Nat :=
  0x7d0c2155631469e126d677ba7e042b17619953833cbbebc8b0f52aae4d3be0a0ef9cc9939f7ae52d0d4ab519a97f51605fec8027591012b131c7078833a8dd1ff45acd78fec0db9a2079d2c64b3e56fc1bbe18aa0e62b76f89c5291d711af1476edf751ce837f9e28535ade72274ac9673e6b4f0cecff297eadc674f4111913a6b8a130103bdafc1020f3fca8f1e2cd00645b3b80558e4f70ad3bc8c00abd890849d8da75746155edab9edfd5048706c92b6655dcc5ca4d41698688664f6f87225d18b6d49a25b76b224d92866a12e084ec3fa420b954cee3d23c2a632947b54cbe9dec444438e3487ff2f9b8239e37cfbd7f3819ea340bf38a53630d56a0952

def sbox (x : Nat) : Nat := sboxTable / 256 ^ x % 256
def sboxInv (x : Nat) : Nat := sboxInvTable / 256 ^ x % 256

/-- A byte times x in the field of x^8 + x^4 + x^3 + x + 1. -/
def gfTwice (a : Nat) : Nat := if a < 128 then 2 * a else (2 * a) ^^^ 0x11B

/-- The product of a byte with a small constant. -/
def gfTimes : Nat → Nat → Nat
  | 2, a => gfTwice a
  | 3, a => gfTwice a ^^^ a
  | 9, a => gfTwice (gfTwice (gfTwice a)) ^^^ a
  | 11, a => gfTwice (gfTwice (gfTwice a) ^^^ a) ^^^ a
  | 13, a => gfTwice (gfTwice (gfTwice a ^^^ a)) ^^^ a
  | 14, a => gfTwice (gfTwice (gfTwice a ^^^ a) ^^^ a)
  | _, a => a

/-- Two byte lists added bit by bit. -/
def xorBytes (a b : List Nat) : List Nat := List.zipWith (· ^^^ ·) a b

/-! ### AES-256 -/

/-- The word of the key schedule after `prev`, `i` words in, from the word 8 places back. -/
def keyWord (i : Nat) (back prev : List Nat) : List Nat :=
  let turned := match prev with | [a, b, c, e] => [b, c, e, a] | w => w
  let sub :=
    if i % 8 = 0 then xorBytes (turned.map sbox) [2 ^ (i / 8 - 1), 0, 0, 0]
    else if i % 8 = 4 then prev.map sbox else prev
  xorBytes back sub

/-- `n` more words of the schedule, from the last eight, latest first. -/
def keyMore : Nat → Nat → List (List Nat) → List (List Nat)
  | 0, _, acc => acc
  | n + 1, i, acc => keyMore n (i + 1) (keyWord i (acc.getD 7 []) (acc.getD 0 []) :: acc)

/-- A list in pieces of `n`, at most `k` of them. -/
def piecesOf (n : Nat) : Nat → List Nat → List (List Nat)
  | 0, _ => []
  | k + 1, xs => xs.take n :: piecesOf n k (xs.drop n)

/-- The fifteen round keys of a 32-byte key. -/
def roundKeys (key : List Nat) : List (List Nat) :=
  piecesOf 16 15 ((keyMore 52 8 (piecesOf 4 8 key).reverse).reverse.flatten)

/-- The bytes of a block moved by SHIFTROWS: byte `i` comes from place `(5 i) mod 16`; and back. -/
def shiftRows (b : List Nat) : List Nat := (List.range 16).map fun i => b.getD (5 * i % 16) 0
def shiftRowsInv (b : List Nat) : List Nat := (List.range 16).map fun i => b.getD (13 * i % 16) 0

/-- One column times the matrix whose first row is given. -/
def mixColumn (m0 m1 m2 m3 : Nat) : List Nat → List Nat
  | [a, b, c, e] =>
    [gfTimes m0 a ^^^ gfTimes m1 b ^^^ gfTimes m2 c ^^^ gfTimes m3 e, gfTimes m3 a ^^^ gfTimes m0 b ^^^ gfTimes m1 c ^^^ gfTimes m2 e,
     gfTimes m2 a ^^^ gfTimes m3 b ^^^ gfTimes m0 c ^^^ gfTimes m1 e, gfTimes m1 a ^^^ gfTimes m2 b ^^^ gfTimes m3 c ^^^ gfTimes m0 e]
  | w => w

def mixColumns (b : List Nat) : List Nat := ((piecesOf 4 4 b).map (mixColumn 2 3 1 1)).flatten
def mixColumnsInv (b : List Nat) : List Nat := ((piecesOf 4 4 b).map (mixColumn 14 11 13 9)).flatten

/-- The rounds of encryption after the first key is added. -/
def aesRounds : List (List Nat) → List Nat → List Nat
  | [], b => b
  | [k], b => xorBytes (shiftRows (b.map sbox)) k
  | k :: ks, b => aesRounds ks (xorBytes (mixColumns (shiftRows (b.map sbox))) k)

/-- One block encrypted under the round keys of a key. -/
def aesEncrypt (ks : List (List Nat)) (b : List Nat) : List Nat :=
  match ks with
  | [] => b
  | k :: ks => aesRounds ks (xorBytes b k)

/-- The rounds of decryption, over the round keys from the thirteenth down to the first. -/
def aesRoundsInv : List (List Nat) → List Nat → List Nat
  | [], b => b
  | [k], b => xorBytes ((shiftRowsInv b).map sboxInv) k
  | k :: ks, b => aesRoundsInv ks (mixColumnsInv (xorBytes ((shiftRowsInv b).map sboxInv) k))

/-- One block decrypted. -/
def aesDecrypt (ks : List (List Nat)) (b : List Nat) : List Nat :=
  match ks.reverse with
  | [] => b
  | k :: ks => aesRoundsInv ks (xorBytes b k)

/-- The bytes of a key as the messages carry it, first byte first. -/
def keyBytes (k : BitVec 256) : List Nat := ((leBytes 32 k.toNat).map BitVec.toNat)

/-! ### XTS (IEEE 1619) -/

/-- A little-endian number as bytes, and back. -/
def natBytes : Nat → Nat → List Nat
  | 0, _ => []
  | n + 1, v => v % 256 :: natBytes n (v / 256)

def bytesNat : List Nat → Nat
  | [] => 0
  | b :: bs => b + 256 * bytesNat bs

/-- The tweak times x in GF(2^128). -/
def tweakTwice (t : Nat) : Nat := if t < 2 ^ 127 then 2 * t else (2 * t % 2 ^ 128) ^^^ 0x87

def tweakAt : Nat → Nat → Nat
  | 0, t => t
  | n + 1, t => tweakAt n (tweakTwice t)

/-- Blocks under successive tweaks; `f` encrypts or decrypts a block. -/
def xtsBlocks (f : List Nat → List Nat) : Nat → List (List Nat) → List Nat
  | _, [] => []
  | t, b :: bs => let w := natBytes 16 t; xorBytes (f (xorBytes b w)) w ++ xtsBlocks f (tweakTwice t) bs

/-- Whole blocks of a data unit, from block `j` on: the tweak is the unit's device physical address `i` under K2 (R148). -/
def xtsRun (f : List Nat → List Nat) (k2 : BitVec 256) (i j : Nat) (bs : List Byte) : List Byte :=
  let t := bytesNat (aesEncrypt (roundKeys (keyBytes k2)) (natBytes 16 i))
  ((xtsBlocks f (tweakAt j t) (piecesOf 16 (bs.length / 16) (bs.map BitVec.toNat))).map (BitVec.ofNat 8))

/-- XTS-AES-256 encryption and decryption of blocks `j` on of the unit at `i`. -/
def xtsEncrypt (k1 k2 : BitVec 256) (i j : Nat) (bs : List Byte) : List Byte := xtsRun (aesEncrypt (roundKeys (keyBytes k1))) k2 i j bs
def xtsDecrypt (k1 k2 : BitVec 256) (i j : Nat) (bs : List Byte) : List Byte := xtsRun (aesDecrypt (roundKeys (keyBytes k1))) k2 i j bs

end Sys2Proof.Machine
end

