-- ==== Sys2Proof/Machine/Wire.lean ====
section
/-! DEFINITION. What travels on a Terdy link: message slots (R259), flits and their AES-256-GCM protection (R157, R257 to R259), and the
codeword pairs that carry them over the lanes (R251). -/

namespace Sys2Proof

/-! ### The header of a flit (R257) -/

/-- A little-endian 16-bit field of a flit. -/
def Flit.half (f : Flit) (i : Nat) : Nat := (f.bytes.getD i 0#8).toNat + 256 * (f.bytes.getD (i + 1) 0#8).toNat

def Flit.seq (f : Flit) : Nat := f.half 0 % 4096
def Flit.null (f : Flit) : Bool := f.half 0 / 8192 % 2 == 1
def Flit.plain (f : Flit) : Bool := f.half 0 / 16384 % 2 == 1
def Flit.keySel (f : Flit) : Bool := f.half 0 / 32768 % 2 == 1
def Flit.mark (f : Flit) : Nat := f.half 2

namespace Machine

/-! ### AES-256-GCM (R157) -/

/-- One step of the product of GHASH: the value times x, most significant bit first. -/
def ghashTwice (v : Nat) : Nat := if v % 2 = 1 then v / 2 ^^^ (0xE1 * 2 ^ 120) else v / 2

/-- The product in the field of GHASH, over the `n` low bits of `x`, most significant first. -/
def ghashMul (x : Nat) : Nat → Nat → Nat → Nat
  | 0, _, z => z
  | n + 1, v, z => ghashMul x n (ghashTwice v) (if x / 2 ^ n % 2 = 1 then z ^^^ v else z)

/-- Bytes as one number, first byte most significant, and back. -/
def beNat (bs : List Nat) : Nat := bs.foldl (fun a b => 256 * a + b) 0
def beNats (n v : Nat) : List Nat := (natBytes n v).reverse

/-- Bytes in blocks of 16, the last filled with zeros. -/
def gcmBlocks (bs : List Nat) : List (List Nat) :=
  (piecesOf 16 ((bs.length + 15) / 16) bs).map fun b => b ++ List.replicate (16 - b.length) 0

/-- GHASH of blocks under H. -/
def ghash (h : Nat) (bs : List (List Nat)) : Nat := bs.foldl (fun y b => ghashMul (y ^^^ beNat b) 128 h 0) 0

/-- The blocks under successive counters, from counter `i` on. -/
def gcmCtr (ks : List (List Nat)) (nonce : List Nat) : Nat → List (List Nat) → List Nat
  | _, [] => []
  | i, b :: bs => xorBytes b (aesEncrypt ks (nonce ++ beNats 4 i)) ++ gcmCtr ks nonce (i + 1) bs

/-- Payload encrypted, or decrypted, under a nonce of 12 bytes. -/
def gcmRun (ks : List (List Nat)) (nonce bs : List Nat) : List Nat := (gcmCtr ks nonce 2 (gcmBlocks bs)).take bs.length

/-- The first 96 bits of the tag of a ciphertext and its additional data. -/
def gcmTag (ks : List (List Nat)) (nonce aad ct : List Nat) : List Nat :=
  let h := beNat (aesEncrypt ks (List.replicate 16 0))
  let s := ghash h (gcmBlocks aad ++ gcmBlocks ct ++ [beNats 8 (8 * aad.length) ++ beNats 8 (8 * ct.length)])
  (xorBytes (beNats 16 s) (aesEncrypt ks (nonce ++ beNats 4 1))).take 12

/-- The nonce of a flit: the salt, then the full sequence number, each least significant byte first as a flit's other fields
(DESIGN CHOICE, log 81). -/
def flitNonce (salt : BitVec 32) (seq : Nat) : List Nat := natBytes 4 salt.toNat ++ natBytes 8 seq

/-! ### Messages in slots (R259) -/

/-- The header slot of a message with `size` data slots. -/
def headerSlot (op size : Nat) (m : Msg) : List Nat :=
  [op % 256, m.pageHint % 4 * 64 + m.hint.kind % 4 * 16 + m.hint.tile % 16] ++
    natBytes 2 (m.dest % 4096 + 4096 * b2n m.cls + 8192 * b2n m.resent) ++ natBytes 2 (m.src % 4096 + 4096 * (size % 16)) ++
    [m.origin % 32 + 32 * (m.mval % 4) + 128 * b2n m.poison, m.group % 256] ++ natBytes 2 m.tag ++ natBytes 6 m.addr

/-- The data slots of a message: a byte-mask slot, one line, or the two lines of a granule. -/
def dataSlots (op : Nat) (m : Msg) : List Nat :=
  if op ∈ [0x05, 0x08, 0x20] then natBytes 64 m.data.toNat
  else if op ∈ [0x06, 0x09] then natBytes 8 m.mask.toNat ++ List.replicate 8 0 ++ natBytes 64 m.data.toNat
  else if op = 0x28 then natBytes 64 m.data.toNat ++ natBytes 64 m.data2.toNat
  else if 0x40 ≤ op then m.raw.map BitVec.toNat
  else []

/-- An Empty slot. -/
def emptySlot : List Nat := 0xFF :: List.replicate 15 0

/-- The fifteen slots of a flit that carries one message. -/
def flitSlots (op : Nat) (m : Msg) : List Nat :=
  let x := dataSlots op m
  headerSlot op (x.length / 16) m ++ x ++ (List.replicate (14 - x.length / 16) emptySlot).flatten

/-- The header of a message received: its opcode, SIZE and dateline class. -/
structure SlotHead where
  op : Nat
  size : Nat
  cls : Bool
  deriving DecidableEq, Repr

/-- The headers of the messages in slots, in order. -/
def slotHeads : Nat → List (List Nat) → List SlotHead
  | 0, _ => []
  | _, [] => []
  | n + 1, b :: bs =>
    let size := b.getD 5 0 / 16
    { op := b.getD 0 0, size := size, cls := b.getD 3 0 / 16 % 2 == 1 } :: slotHeads n (bs.drop size)

/-! ### Data slots of maintenance messages -/

/-- Hello (R253). -/
def helloSlots (h : Hello) : List Byte :=
  leBytes 2 (h.dev % 4096 + 32768 * b2n h.root) ++ leBytes 1 h.port ++ leBytes 1 h.role ++ leBytes 4 0 ++ h.credits.flatMap (leBytes 1)

/-- Stroke Frame (R278). -/
def frameSlots (f : FrameMsg) : List Byte :=
  leBytes 8 f.stroke.toNat ++ leBytes 4 f.ver.toNat ++ leBytes 8 f.digest.toNat ++
    leBytes 4 (f.arrOfs.elim 0x80000000 fun a => (a % 2 ^ 32).toNat) ++
    leBytes 2 (f.hops % 4096 + 4096 * (f.role % 4) + 16384 * b2n f.holdover + 32768 * b2n f.planned) ++ leBytes 6 0

/-- A broadcast of each kind (R270, R311 to R313). -/
def bcastSlots (kind : Nat) (b : Bcast) : List Byte :=
  if kind ≤ 2 then
    leBytes 2 (b.dev % 4096) ++ leBytes 1 b.group ++ leBytes 1 (if kind = 1 then b.cause else 0) ++ leBytes 8 b.stroke.toNat ++ leBytes 4 0
  else
    let tag := leBytes 4 b.ver.toNat ++ leBytes 8 b.digest.toNat
    if kind = 3 then tag ++ leBytes 4 0
    else if kind = 4 then tag ++ leBytes 4 0 ++ leBytes 8 b.act.toNat ++ leBytes 8 0
    else if kind = 5 then tag ++ leBytes 2 (b.dev % 4096) ++ leBytes 1 b.cause ++ leBytes 1 0
    else tag ++ leBytes 4 b.targetVer.toNat ++ leBytes 8 b.act.toNat ++ leBytes 8 b.targetDigest.toNat

/-- A Broadcast Ack: Domain Up's has no data slot (R270, R311). -/
def ackSlots (a : BcastAck) : List Byte :=
  if a.kind ≤ 2 then [] else leBytes 1 a.kind ++ leBytes 1 a.status ++ leBytes 2 a.slice ++ leBytes 4 a.ver.toNat ++ leBytes 8 0

/-- A Configuration Pull (R314). -/
def pullSlots (q : PullMsg) : List Byte :=
  leBytes 1 q.kind ++ leBytes 1 (if q.kind = 2 then q.outcome else 0) ++ leBytes 2 0 ++ leBytes 4 q.ver.toNat ++ leBytes 8 q.digest.toNat ++
    (if q.kind = 2 then leBytes 4 0 ++ leBytes 8 q.act.toNat ++ leBytes 4 q.rootVer.toNat ++ leBytes 8 q.rootDigest.toNat ++ leBytes 8 0
     else leBytes 4 q.pendVer.toNat ++ leBytes 8 q.pendDigest.toNat ++ leBytes 20 0)

/-! ### Flits -/

/-- HDR and MARK (R257, R258). -/
def flitHead (keySel plain null : Bool) (seq mark : Nat) : List Nat :=
  natBytes 2 (seq % 4096 + 8192 * b2n null + 16384 * b2n plain + 32768 * b2n keySel) ++ natBytes 2 mark

/-- A flit under a key (R157), and a plain one (R259). -/
def sealFlit (key : BitVec 256) (salt : BitVec 32) (seq : Nat) (hd slots : List Nat) : List Byte :=
  let ks := roundKeys (keyBytes key)
  let ct := gcmRun ks (flitNonce salt seq) slots
  (hd ++ ct ++ gcmTag ks (flitNonce salt seq) hd ct).map (BitVec.ofNat 8)

def plainFlit (hd slots : List Nat) : List Byte :=
  let bs : List Byte := (hd ++ slots).map (BitVec.ofNat 8)
  bs ++ leBytes 4 (crc32c bs).toNat ++ List.replicate 8 0#8

/-- The flit of a port that carries one message. -/
def CPort.flitOf (c : CPort) (mark op : Nat) (m : Msg) : List Byte :=
  if 2 ≤ c.secSt then sealFlit c.kTx c.salt c.txSeq (flitHead c.keySel false false c.txSeq mark) (flitSlots op m)
  else plainFlit (flitHead c.keySel true false c.txSeq mark) (flitSlots op m)

/-- The key that a received flit is under (R159). -/
def CPort.rxKey (c : CPort) (f : Flit) : BitVec 256 := if c.oldRxKey && f.keySel == c.rxSel then c.kRxOld else c.kRx

/-- The sequence number the next flit must carry, and whether it is the first under a new key (R159). -/
def CPort.expected (c : CPort) (f : Flit) : Nat × Bool :=
  if decide (2 ≤ c.secSt) && c.oldRxKey && f.keySel != c.rxSel then (0, true) else (c.rxNext, false)

/-- The full sequence number of a received flit: the one nearest to the expected one that ends in its SEQ. -/
def CPort.fullSeq (c : CPort) (f : Flit) : Nat :=
  let n := (c.expected f).1
  let ahead := (f.seq + 4096 - n % 4096) % 4096
  if ahead < 2048 ∨ n + ahead < 4096 then n + ahead else n + ahead - 4096

/-- Bytes of a flit as numbers. -/
def Flit.part (f : Flit) (i n : Nat) : List Nat := (sub f.bytes i n).map BitVec.toNat

/-- The tag, or for a PLAIN flit the CRC-32C, is good (R265). -/
def CPort.tagOk (c : CPort) (f : Flit) : Bool :=
  if f.plain then sub f.bytes 244 12 == leBytes 4 (crc32c (sub f.bytes 0 244)).toNat ++ List.replicate 8 0#8
  else
    gcmTag (roundKeys (keyBytes (c.rxKey f))) (flitNonce c.salt (c.fullSeq f)) (Flit.part f 0 4) (Flit.part f 4 240) == Flit.part f 244 12

/-- The headers of the messages in a received flit. -/
def CPort.msgsIn (c : CPort) (f : Flit) : List SlotHead :=
  let slots :=
    if f.plain then Flit.part f 4 240
    else gcmRun (roundKeys (keyBytes (c.rxKey f))) (flitNonce c.salt (c.fullSeq f)) (Flit.part f 4 240)
  slotHeads 15 (piecesOf 16 15 slots)

/-! ### Codeword pairs (R251) -/

/-- A pair word: SYNC, BND, BND_OFS, PAIR_CNT. -/
def pairWordOf (bnd : Bool) (ofs cnt : Nat) : BitVec 40 :=
  BitVec.ofNat 40 (0xB4D * 2 ^ 28 + b2n bnd * 2 ^ 27 + (if bnd then ofs % 8192 else 0) * 2 ^ 14 + cnt % 64 * 2 ^ 8)

/-- BND and BND_OFS of a pair word. -/
def pairBnd (w : BitVec 40) : Bool := w.getLsbD 27
def pairOfs (w : BitVec 40) : Nat := bits w.toNat 26 14

/-- The message bits of a pair as one number of 10,280 bits, the first bit sent most significant: the pair word, then five flits. -/
def pairMessage (w : BitVec 40) (flits : List (List Byte)) : Nat :=
  (flits.take 5).foldl (fun a f => a * 2 ^ 2048 + beNat (f.map BitVec.toNat)) w.toNat

/-- The 10-bit symbols of a message of `n` of them. -/
def symbolsOf (n v : Nat) : List Nat := ((List.range n).map fun i => v / 2 ^ (10 * (n - 1 - i)) % 1024)

/-- The product in GF(2^10) of IEEE 802.3, x^10 + x^3 + 1, over the `n` low bits of `a`. -/
def gf10Mul (b : Nat) : Nat → Nat → Nat
  | 0, _ => 0
  | n + 1, a =>
    let hi := gf10Mul b n (a / 2)
    (if hi < 512 then 2 * hi else (2 * hi) ^^^ 0x409) ^^^ (if a % 2 = 1 then b else 0)

/-- A polynomial times (x + r), its coefficients from the highest, the leading 1 left out. -/
def timesRoot (r : Nat) (g : List Nat) : List Nat :=
  List.zipWith (· ^^^ ·) (g ++ [0]) ((1 :: g).map fun c => gf10Mul c 10 r)

/-- The generator polynomial of RS(544,514): its roots are the powers 0 to 29 of x. -/
def rsGen : Nat → Nat → List Nat → List Nat
  | 0, _, g => g
  | n + 1, r, g => rsGen n (gf10Mul 2 10 r) (timesRoot r g)

/-- One message symbol through the encoder of RS(544,514). -/
def rsStep (g rem : List Nat) (m : Nat) : List Nat :=
  let f := m ^^^ rem.headD 0
  List.zipWith (· ^^^ ·) (rem.drop 1 ++ [0]) (g.map fun c => gf10Mul c 10 f)

/-- A codeword: 514 message symbols and their 30 parity symbols. -/
def codeword (msg : List Nat) : List Nat := msg ++ msg.foldl (rsStep (rsGen 30 1 [])) (List.replicate 30 0)

/-- The symbols of a pair in the order sent: A0, B0, A1, B1 and so on. -/
def pairSymbols (w : BitVec 40) (flits : List (List Byte)) : List Nat :=
  let xs := symbolsOf 1028 (pairMessage w flits)
  (List.zipWith (fun a b => [a, b]) (codeword (xs.take 514)) (codeword (xs.drop 514))).flatten

/-- The symbols of a pair that an active lane of `width` carries. -/
def laneSymbols (width lane : Nat) (xs : List Nat) : List Nat :=
  ((List.range xs.length).filter fun k => k % width == lane).map fun k => xs.getD k 0

/-- The Gray coding of PAM4: two bits, the first sent most significant, as a level. -/
def pam4 (b : Nat) : Nat := if b = 2 then 3 else if b = 3 then 2 else b

/-- A 10-bit symbol as the five levels of its lane. -/
def symbolLevels (s : Nat) : List Nat := (List.range 5).map fun i => pam4 (s / 4 ^ (4 - i) % 4)

end Machine

end Sys2Proof
end

