-- ==== Sys2Proof/Machine/Wells.lean ====
section
/-! DEFINITION. Storage: encryption at rest (R146 to R149), the frame table and the floats (R86, R113 to R115, R468), allocation and
release, the cistern (R19, R24, R25, R183), heat (R93, R94), the lost-write table (R116, R238) and the job queue (R98, R101). -/

namespace Sys2Proof.Machine

open Sys2Proof

/-- What a table lists under a key. -/
def Tbl.look {α : Type} : Tbl α → Nat → Option α
  | [], _ => none
  | (j, v) :: t, k => if k = j then some v else if k < j then none else Tbl.look t k

/-! ### Encryption at rest (R146 to R149) -/

/-- State of a key domain as the datapath uses it: domain 0 is Live once primed, and a part without encryption uses none (R150, R162). -/
def Dev.kdSt (d : Dev) (n : Nat) : KdSt := if n = 0 ∨ !d.hasEnc then .live else (d.kd n).st

/-- Bytes on their way to DRAM: whole blocks from block `j` on of the data unit at device physical address `unit`, under the pair of
domain `kd` (R146, R148). -/
def Dev.seal (d : Dev) (kd unit j : Nat) (bs : List Byte) : List Byte :=
  if d.hasEnc then xtsEncrypt (d.kd kd).k1 (d.kd kd).k2 unit j bs else bs

/-- Bytes on their way from DRAM. -/
def Dev.unseal (d : Dev) (kd unit j : Nat) (bs : List Byte) : List Byte :=
  if d.hasEnc then xtsDecrypt (d.kd kd).k1 (d.kd kd).k2 unit j bs else bs

/-- Plaintext of `n` data units of `size` bytes from device physical address `a` on. -/
def Dev.readUnits (d : Dev) (kd size a n : Nat) : List Byte :=
  (List.range n).flatMap fun i => d.unseal kd (a + i * size) 0 (Memory.readN dramBlank d.dram (a + i * size) size)

/-- Ciphertext of whole data units of `size` bytes that begin at device physical address `a`. -/
def Dev.sealUnits (d : Dev) (kd size a : Nat) (bs : List Byte) : List Byte :=
  (List.range (bs.length / size)).flatMap fun i => d.seal kd (a + i * size) 0 (sub bs (i * size) size)

/-- The first granule of a segment's run, which holds its header (R137). -/
def Dev.segHeader (d : Dev) (e : MapEntry) : List Byte :=
  d.unseal e.kdom (e.frame * 4096) 0 (Memory.readN dramBlank d.dram (e.frame * 4096) 128)

/-! ### The frame table -/

/-- Kind of a frame the table does not list, from its place. -/
def Dev.frameDefault (d : Dev) (f : Nat) : Nat :=
  match d.place f with
  | none => 7
  | some p =>
    match d.rankDimm p.ch p.r with
    | none => 7
    | some m =>
      if p.off ≥ dimmFrames m then 7
      else if dimmProbe m ≤ p.off ∧ p.off < dimmProbe m + 4 then 7
      else if rankUp (d.rank p.ch p.r).st then (if d.isSpare p.ch p.r then 6 else 0)
      else 7

/-- The frame-table record of a frame. -/
def Dev.frameRec (d : Dev) (f : Nat) : FrameRec :=
  match Tbl.look d.frames f with
  | some r => r
  | none => { kind := d.frameDefault f, mask := 0#16 }

def Dev.setFrame (d : Dev) (f kind : Nat) (mask : BitVec 16) : Dev := { d with frames := Tbl.put d.frames f { kind, mask } }

/-- The frame returns to what its place makes it. -/
def Dev.clearFrame (d : Dev) (f : Nat) : Dev := { d with frames := Tbl.del d.frames f }

/-- A rank with its first frame and its size. -/
structure RankRef where
  ch : Nat
  r : Nat
  base : Nat
  cap : Nat
  deriving DecidableEq, Repr

/-- The ranks of a memory tile that exist, by channel and index. -/
def Dev.tileRanks (d : Dev) (k : Nat) : List RankRef :=
  (tileChans k).flatMap fun c => (List.range 8).filterMap fun r =>
    match d.rankDimm c r with
    | none => none
    | some m => if c < d.nChans then some { ch := c, r := r, base := d.rankBase c r, cap := dimmFrames m } else none

def Dev.refUp (d : Dev) (q : RankRef) : Bool := rankUp (d.rank q.ch q.r).st

/-- Listed records within a rank. -/
def Dev.listed (d : Dev) (q : RankRef) : List (Nat × FrameRec) :=
  d.frames.filter fun e => decide (q.base ≤ e.1) && decide (e.1 < q.base + q.cap)

/-- Frames of a rank of the kinds given. -/
def Dev.kindCount (d : Dev) (q : RankRef) (kinds : List Nat) : Nat := ((d.listed q).filter fun e => kinds.contains e.2.kind).length

/-- Free frames of a tile, the sump included. -/
def Dev.allFree (d : Dev) (k : Nat) : Nat :=
  (((d.tileRanks k).filter fun q => d.refUp q && !d.isSpare q.ch q.r).map fun q => q.cap - 4 - (d.listed q).length).sum

/-- F of a tile. -/
def Dev.free_ (d : Dev) (k : Nat) : Nat := d.allFree k - (d.tile k).sumpFree

/-- Spare frames of a tile. -/
def Dev.spareFree (d : Dev) (k : Nat) : Nat :=
  (((d.tileRanks k).filter fun q => d.refUp q && d.isSpare q.ch q.r).map fun q => q.cap - 4 - (d.listed q).length).sum

/-- U of a tile: frames of kinds 0 to 5. -/
def Dev.usableNow (d : Dev) (k : Nat) : Nat :=
  d.allFree k + ((d.tileRanks k).map fun q => d.kindCount q [1, 2, 3, 4, 5]).sum

def tileList (d : Dev) : List Nat := List.range d.nTiles

/-- The fraction of U that a field of `MT_FLOAT_CFG` gives (R113). -/
def Dev.floatOf (d : Dev) (k hi lo : Nat) : Nat := (d.tile k).usable * d.fld (mtBase k + 0x8004) hi lo / 1024

/-- Recompute U, the floats and the sump of a tile (R113). Frames that come to the tile fill its sump first, as freed frames do. -/
def Dev.recompute (d : Dev) (k : Nat) : Dev :=
  let u := d.usableNow k
  let old := (d.tile k).usable
  let d := d.setTile k fun t => { t with usable := u }
  let target := d.floatOf k 7 0
  d.setTile k fun t => { t with high := d.floatOf k 31 24, low := d.floatOf k 23 16, crit := d.floatOf k 15 8,
                                sumpFree := min target (min (d.allFree k) (t.sumpFree + (u - old))) }

/-- Sump size of a tile in force. -/
def Dev.sumpSize (d : Dev) (k : Nat) : Nat := d.floatOf k 7 0

/-- Frame number to memory tile. -/
def frameTile (f : Nat) : Nat := f / 2 ^ 30

/-- A run of `n` Free (or `kind`) frames starts at `f`, all in one rank. -/
def Dev.runFree (d : Dev) (kind f n : Nat) : Bool :=
  (List.range n).all fun i => (d.frameRec (f + i)).kind == kind &&
    (match d.place f, d.place (f + i) with | some p, some q => p.ch == q.ch && p.r == q.r | _, _ => false)

/-- Starts worth trying in a rank: its first frame, and the frame after each listed one and after the probe row. -/
def Dev.runStarts (d : Dev) (q : RankRef) : List Nat :=
  q.base :: (d.listed q).map (fun e => e.1 + 1) ++
    (match d.rankDimm q.ch q.r with | some m => [q.base + dimmProbe m + 4] | none => [])

/-- The first run of `n` frames of a kind on a tile. -/
def Dev.findRun (d : Dev) (k kind n : Nat) : Option Nat :=
  (d.tileRanks k).findSome? fun q => (d.runStarts q).find? fun f => decide (f + n ≤ q.base + q.cap) && d.runFree kind f n

/-- The frame (or first frame of a run of `n`) that the device takes on a tile: its own choice where that is possible
(R468: left to the device), else the first one there is. -/
def Dev.chooseRun (d : Dev) (k kind n : Nat) : Option Nat :=
  let c := Config.frameChoice d.free k
  if frameTile c = k ∧ d.runFree kind c n then some c else d.findRun k kind n

/-- Tile of the sump that R113 takes next: most frames left, lowest ID on a tie. -/
def bestBy (f : Nat → Nat) : List Nat → Option Nat
  | [] => none
  | k :: ks => match bestBy f ks with | none => some k | some j => if f j > f k then some j else some k

/-- Insert a tile behind those whose count is not smaller. -/
def insertBy (f : Nat → Nat) (k : Nat) : List Nat → List Nat
  | [] => [k]
  | j :: js => if f j < f k then k :: j :: js else j :: insertBy f k js

/-- Tiles by count, the largest first, the lowest ID first on a tie (R113). -/
def byFree (f : Nat → Nat) (ks : List Nat) : List Nat := ks.foldl (fun l k => insertBy f k l) []

/-- What storage is wanted for (R113). -/
inductive Purpose where
  /-- Promote and Pull. -/
  | promote
  /-- First write to an Unbacked page, inline promotion. -/
  | first
  /-- Demote, Build, Push, Compact, Re-encode, Re-key. -/
  | move
  deriving DecidableEq, Repr

/-- The tile a placement is made on (R114). -/
def Dev.placeTile (d : Dev) (home : Nat) : Nat :=
  if d.free_ home ≤ (d.tile home).low then
    match bestBy d.free_ (tileList d) with
    | some k => if d.free_ k > (d.tile k).low then k else home
    | none => home
  else home

/-- The float that a purpose may draw F down to. -/
def Dev.floor_ (d : Dev) (k : Nat) : Purpose → Nat
  | .promote => (d.tile k).low
  | .first => (d.tile k).crit
  | .move => 0

def Dev.bumpFree (d : Dev) : Dev := { d with free := d.free + 1 }

/-- Take one frame for a purpose and record it; the frame and the device after. -/
def Dev.allocFrame (d : Dev) (home : Nat) (p : Purpose) (kind : Nat) (mask : BitVec 16) : Option (Nat × Dev) :=
  let k := d.placeTile home
  if d.free_ k > d.floor_ k p then
    (d.chooseRun k 0 1).map fun f => (f, (d.bumpFree.setFrame f kind mask))
  else if p = .first then
    let own := if (d.tile home).sumpFree > 0 then some home else
      (bestBy (fun j => (d.tile j).sumpFree) (tileList d)).filter fun j => decide ((d.tile j).sumpFree > 0)
    match own with
    | none => none
    | some j => (d.chooseRun j 0 1).map fun f =>
        (f, (d.bumpFree.setFrame f kind mask).setTile j fun t => { t with sumpFree := t.sumpFree - 1 })
  else none

/-- The destination run of `n` frames for an evacuation from tile `k` (R113): spare frames of that tile, then its F, then the F of the
other tiles, the largest first. -/
def Dev.evacDest (d : Dev) (k n : Nat) : Option Nat :=
  match d.chooseRun k 6 n with
  | some f => some f
  | none =>
    if d.free_ k ≥ n ∧ d.free_ k > 0 ∧ (d.chooseRun k 0 n).isSome then d.chooseRun k 0 n
    else
      ((byFree d.free_ ((tileList d).filter (· != k))).find? fun j =>
        decide (d.free_ j ≥ n) && decide (d.free_ j > 0) && (d.chooseRun j 0 n).isSome).bind fun j => d.chooseRun j 0 n

/-- The row of a frame is remapped (R231) and awaits repair. -/
def Dev.rowRemapped (d : Dev) (f : Nat) : Bool :=
  match d.place f with
  | none => false
  | some p => (d.chan p.ch).eat.any fun e => e.remap && (e.gran % 2 ^ 32 / 32 + p.ch * 2 ^ 27) / 4 == f / 4

/-- A frame that nothing uses any more: Withheld on a remapped row, else what its rank makes it, and a Free one refills its
tile's sump first (R113, R231, R245). -/
def Dev.freeFrame (d : Dev) (f : Nat) : Dev :=
  if d.rowRemapped f then d.setFrame f 7 0#16
  else
    let d := d.clearFrame f
    let k := frameTile f
    if d.frameDefault f = 0 ∧ (d.tile k).sumpFree < d.sumpSize k then d.setTile k fun t => { t with sumpFree := t.sumpFree + 1 }
    else d

/-- Contiguous bits of a slot mask: `n` from slot `i`. -/
def slotMask (i n : Nat) : BitVec 16 := BitVec.ofNat 16 ((2 ^ n - 1) * 2 ^ i)

/-- The lowest run of `n` clear slots in a mask. -/
def slotFit (mask : BitVec 16) (n : Nat) : Option Nat :=
  (List.range (17 - n)).find? fun i => mask &&& slotMask i n == 0#16

/-- Slots for a T2 page on a tile by first fit (R468): the first slot's number. -/
def Dev.fitSlots (d : Dev) (k n : Nat) (kindOk : Nat → Bool) : Option Nat :=
  d.frames.findSome? fun e =>
    if e.2.kind = 2 ∧ frameTile e.1 = k ∧ kindOk e.1 then (slotFit e.2.mask n).map fun i => e.1 * 16 + i else none

def Dev.takeSlots (d : Dev) (first n : Nat) : Dev :=
  d.setFrame (first / 16) 2 ((d.frameRec (first / 16)).mask ||| slotMask (first % 16) n)

/-- A slot frame that takes no new page: on a rank that is not up, or on a remapped row. -/
def Dev.slotFrameOk (d : Dev) (f : Nat) : Bool :=
  match d.place f with | some p => rankUp (d.rank p.ch p.r).st && !d.rowRemapped f | none => false

/-- Allocate `n` slots for a purpose (R114, R468). -/
def Dev.allocSlots (d : Dev) (home n : Nat) (p : Purpose) : Option (Nat × Dev) :=
  let k := d.placeTile home
  match d.fitSlots k n d.slotFrameOk with
  | some s => some (s, d.takeSlots s n)
  | none => (d.allocFrame home p 2 (slotMask 0 n)).map fun x => (x.1 * 16, x.2)

/-- Free slots of a page. -/
def Dev.freeSlots (d : Dev) (first n : Nat) : Dev :=
  let f := first / 16
  let m := (d.frameRec f).mask &&& ~~~ slotMask (first % 16) n
  if m = 0#16 then d.freeFrame f else d.setFrame f 2 m

/-- Record a run of frames as a segment with a live mask. -/
def Dev.takeSegment (d : Dev) (head run : Nat) (live : BitVec 16) : Dev :=
  (List.range run).foldl (fun d i => if i = 0 then d.setFrame head 3 live else d.setFrame (head + i) 4 0#16) d

def Dev.freeRun (d : Dev) (head run : Nat) : Dev := (List.range run).foldl (fun d i => d.freeFrame (head + i)) d

/-! ### The job queue -/

/-- A page has a job queued or running (R101). -/
def Dev.pageBusy (d : Dev) (page : Nat) : Bool :=
  (tileList d).any (fun k => (d.tile k).queue.any fun j => j.page == page) ||
    d.pumps.any fun p => (p.2.job.elim false fun j => j.pages.any fun q => q.1 == page) ||
      (p.2.parked.elim false fun j => j.pages.any fun q => q.1 == page)

/-- A job goes to the head of its tile's queue; a full queue drops it. -/
def Dev.queueFirst (d : Dev) (ty page : Nat) : Dev :=
  d.setTile (d.homeTile page) fun t => if t.queue.length < 256 then { t with queue := { ty, page, front := true } :: t.queue } else t

/-- Queue a job for a page on its home tile; a full queue drops it. -/
def Dev.queueJob (d : Dev) (ty page : Nat) (front : Bool := false) : Dev :=
  let k := d.homeTile page
  if d.pageBusy page ∨ (d.tile k).queue.length ≥ 256 then d
  else d.setTile k fun t => { t with queue := if front then { ty, page, front } :: t.queue else t.queue ++ [{ ty, page, front }] }

/-- A page leaves the candidate list (R99). -/
def Dev.dropCand (d : Dev) (page : Nat) : Dev := d.setTile (d.homeTile page) fun t => { t with cands := t.cands.filter (· != page) }

/-- A page leaves its segment's live mask; the run is freed when none is left, and four or fewer call for a Compact
(R86, R98). -/
def Dev.leaveSegment (d : Dev) (e : MapEntry) : Dev :=
  let h := e.frame
  let m := (d.frameRec h).mask &&& ~~~ slotMask e.segIdx 1
  if m = 0#16 then d.freeRun h e.segRun
  else
    let d := d.setFrame h 3 m
    if m.cpop.toNat ≤ 4 then
      match d.wmap.find? fun x => x.2.st == .stable && x.2.tier == 2 && x.2.frame == h && m.getLsbD x.2.segIdx && !d.pageBusy x.1 &&
          (d.attrs x.1).elim false (fun r => decide (d.tierMax r ≥ 1)) with
      | some x => d.queueJob 6 x.1
      | none => d
    else d

/-- Release the storage that an entry names; storage on another device is released by its owner (R284). -/
def Dev.releaseStorage (d : Dev) (e : MapEntry) : Dev :=
  if e.st = .unbacked then d
  else if e.tier = 0 then d.freeFrame e.frame
  else if e.tier = 1 then d.freeSlots e.slot e.slots
  else if e.tier = 2 then d.leaveSegment e
  else d

/-- The entry is valid (R90): its POISON is not 3, its fields are those of its tier, and the storage it names agrees with the frame
table. -/
def Dev.entryOk (d : Dev) (e : MapEntry) : Bool :=
  if e.poison = 3 then false
  else if e.st = .unbacked then true
  else if e.tier = 0 then (d.frameRec e.frame).kind == 1
  else if e.tier = 1 then (d.frameRec (e.slot / 16)).kind == 2 && e.slots != 0 && e.slots != 15
  else if e.tier = 2 then (d.frameRec e.frame).kind == 3 && decide (e.segRun ≤ 15)
  else true

/-- The page reads as poison throughout: POISON 2 or an invalid entry (R90, R237). -/
def Dev.pagePoisoned (d : Dev) (e : MapEntry) : Bool := e.poison == 2 || !d.entryOk e

/-! ### The cistern -/

def Dev.gran (d : Dev) (g : Nat) : Gran := Tbl.get {} d.cist g
def Dev.setGran (d : Dev) (g : Nat) (v : Gran) : Dev := { d with cist := Tbl.set {} d.cist g v }

/-- The tile whose cistern holds a granule. -/
def Dev.granTile (d : Dev) (g : Nat) : Nat := d.homeTile (g / 32)

/-- A line in the cistern: its data and whether it carries poison. -/
def Dev.cistLine (d : Dev) (line : Nat) : Option (Line × Bool) :=
  let g := d.gran (lnGran line)
  if lnHalf line = 0 then (if g.v0 then some (g.l0, g.p0) else none) else (if g.v1 then some (g.l1, g.p1) else none)

/-- Granule `i` of a T1 frame: device physical granule number. -/
def frameGran (f i : Nat) : Nat := f * 32 + i

/-- The two lines of a granule of a T1 frame under domain `kd`, with poison: blocks 8g to 8g + 7 of the frame's data unit (R148). -/
def Dev.dramGran (d : Dev) (kd pg : Nat) : (Line × Bool) × (Line × Bool) :=
  let p := Tbl.get 0 d.poison pg
  let bs := d.unseal kd (pg / 32 * 4096) (pg % 32 * 8) (Memory.readN dramBlank d.dram (pg * 128) 128)
  ((lineOf (bs.take 64), bit p 0), (lineOf (bs.drop 64), bit p 1))

/-- Write a granule of a T1 frame under domain `kd`, with the poison pattern of a mask (R148, R224, R225). -/
def Dev.putGran (d : Dev) (kd pg : Nat) (a b : Line) (mask : Nat) : Dev :=
  { d with dram := Memory.writeN dramBlank d.dram (pg * 128) (d.seal kd (pg / 32 * 4096) (pg % 32 * 8) (lineBytes a ++ lineBytes b))
           poison := Tbl.set 0 d.poison pg mask }

/-- The rank of a frame takes writes (rank states table, R246). -/
def Dev.frameWritable (d : Dev) (f : Nat) : Bool :=
  match d.place f with | some p => rankUp (d.rank p.ch p.r).st | none => false

/-- A frame lies on a Retired rank. -/
def Dev.frameRetired (d : Dev) (f : Nat) : Bool :=
  match d.place f with | some p => (d.rank p.ch p.r).st == .retired | none => false

/-- Any frame of a page's storage lies on a Retired rank (R246). -/
def Dev.onRetired (d : Dev) (e : MapEntry) : Bool := e.frames.any d.frameRetired

/-- A page is dirtied for a job that has started reading it (R104). -/
def Job.dirtied (j : Job) (page : Nat) : Job :=
  if j.readStart && j.pages.any (fun q => q.1 == page) && !j.dirty.contains page then { j with dirty := page :: j.dirty } else j

def Dev.dirtyPage (d : Dev) (page : Nat) : Dev :=
  { d with pumps := d.pumps.map fun p =>
      (p.1, { p.2 with job := p.2.job.map (·.dirtied page), parked := p.2.parked.map (·.dirtied page) }) }

/-! ### Lost writes and poison -/

/-- Set a page's POISON, never downward from 2. -/
def Dev.poisonPage (d : Dev) (page v : Nat) : Dev :=
  let e := d.entry page
  d.setEntry page { e with poison := max e.poison v }

/-- List a line as lost (R116, R238); a full table poisons the page. -/
def Dev.loseLine (d : Dev) (line : Nat) : Dev :=
  let k := d.homeTile (lnPage line)
  if (d.tile k).lost.contains line then d
  else if (d.tile k).lost.length < 256 then d.setTile k fun t => { t with lost := t.lost ++ [line] }
  else d.poisonPage (lnPage line) 2

def Dev.isLost (d : Dev) (line : Nat) : Bool := (d.tile (d.homeTile (lnPage line))).lost.contains line

/-- A line written is no longer lost. -/
def Dev.foundLine (d : Dev) (line : Nat) : Dev :=
  if d.isLost line then d.setTile (d.homeTile (lnPage line)) fun t => { t with lost := t.lost.filter (· != line) } else d

/-- No line of a page is lost any more. -/
def Dev.foundPage (d : Dev) (page : Nat) : Dev :=
  d.setTile (d.homeTile page) fun t => { t with lost := t.lost.filter fun l => lnPage l != page }

/-- A General Media record about `len` bytes at an exposed address (R250): code 0 uncorrectable ECC, 1 data path error;
transaction type 0 Host Read, 1 Host Write, 2 Internal Media Scrub, 3 Internal Media Management. The last detail says that
the address is the exposed one, with the Component Identifier valid. -/
def Dev.mediaRecord (d : Dev) (addr len code tt : Nat) : Dev :=
  let seers := d.viewers (addr / 2 ^ 28)
  let d := forAll d seers fun d h => d.record [h] .failure .generalMedia 256 0 0 [d.headDpa h addr, len, code, tt, 0]
  d.record ((d.mgrs.filter fun h => !seers.contains h) ++ [16]) .failure .generalMedia 256 0 0 [addr, len, code, tt, 1]

/-- A record about DRAM or a module to the managers and the MCTP endpoint (R66, R250). -/
def Dev.mgrRecord (d : Dev) (l : LogId) (k : RecKind) (detail : List Nat) : Dev := d.record (d.mgrs ++ [16]) l k 256 0 0 detail

/-- A write that is discarded and whose line is recorded as lost (R116, R151, R282). -/
def Dev.discardWrite (d : Dev) (line : Nat) : Dev := (d.loseLine line).mediaRecord (line * 64) 64 1 1

/-- The rank of a granule meets an uncorrectable granule (R237, R244): EV131, and its window of 2^20 strokes. -/
def Dev.meetUe (d : Dev) (pg : Nat) : Dev :=
  match d.place (pg / 32) with
  | none => d
  | some p =>
    let lim := d.fld 0x380 23 16
    let d := d.setChan p.ch fun c =>
      (c.setRank p.r fun r =>
        let w := r.ueWin.filter fun x => decide (d.time.loc < x.2 + 2 ^ 20)
        let w := if w.any fun x => x.1 == pg then w else w ++ [(pg, d.time.loc)]
        { r with ueWin := w, trigger := if w.length ≥ lim ∧ r.trigger = 0 then 3 else r.trigger })
    let d := d.setChan p.ch fun c => { c with ue := satInc 65535 c.ue }
    d.raise 131 (chanSlice p.ch)

/-- Rewrite a granule poisoned, or list its lines as lost where that cannot be done (R237, R238). -/
def Dev.poisonGran (d : Dev) (page g pg mask : Nat) : Dev :=
  if d.frameWritable (pg / 32) then
    let d := { d with poison := Tbl.set 0 d.poison pg (Tbl.get 0 d.poison pg ||| mask) }
    d.poisonPage page 1
  else (d.loseLine (2 * g)).loseLine (2 * g + 1)

/-- Make a page lost (R237): Unbacked with POISON 2, its storage released. -/
def Dev.losePage (d : Dev) (page : Nat) : Dev :=
  let e := d.entry page
  let d := d.setEntry page { poison := 2, kdom := e.kdom }
  let d := (d.releaseStorage e).dropCand page
  let d := d.foundPage page
  (d.raise 143 (hsSlice (d.home page))).mediaRecord (page * 4096) 4096 0 3

/-! ### Cistern eviction and placement -/

/-- The device physical granule that holds a granule of a T1 page. -/
def Dev.t1Gran (d : Dev) (g : Nat) : Option Nat :=
  let e := d.entry (g / 32)
  if e.st != .unbacked && e.tier == 0 then some (frameGran e.frame (g % 32)) else none

/-- A dirty granule may be written back now: its page is in T1, its frame takes writes (R246), and its domain encrypts (R149). -/
def Dev.evictable (d : Dev) (g : Nat) : Bool :=
  let v := d.gran g
  !(v.d0 || v.d1) ||
    (match d.t1Gran g with | some pg => d.frameWritable (pg / 32) && d.kdSt (d.entry (g / 32)).kdom == .live | none => false)

/-- Write a granule back (R25): the line that is not valid comes from the frame, poisoned if that read fails. -/
def Dev.writeBack (d : Dev) (g : Nat) (readUe : Bool) : Dev :=
  let v := d.gran g
  match d.t1Gran g with
  | none => d
  | some pg =>
    let kd := (d.entry (g / 32)).kdom
    let m := d.dramGran kd pg
    let miss := !(v.v0 && v.v1)
    let a := if v.v0 then (v.l0, v.p0) else if readUe then (m.1.1, true) else m.1
    let b := if v.v1 then (v.l1, v.p1) else if readUe then (m.2.1, true) else m.2
    let mask := b2n a.2 + 2 * b2n b.2
    let d := d.putGran kd pg a.1 b.1 mask
    let d := d.dirtyPage (g / 32)
    let d := if mask != 0 then d.poisonPage (g / 32) 1 else d
    if miss && readUe then d.meetUe pg else d

/-- Evict a granule from the cistern; a dirty one that cannot be written back stays (R246). -/
def Dev.evictGran (d : Dev) (g : Nat) (readUe : Bool) : Dev :=
  let v := d.gran g
  if v.d0 || v.d1 then (if d.evictable g then (d.writeBack g readUe).setGran g {} else d)
  else d.setGran g {}

/-- Granules that each memory tile's cistern holds: 64 MiB of 128 bytes. -/
def cistSize : Nat := 524288

/-- A granule's retention has not ended (R183). -/
def Dev.kept (d : Dev) (v : Gran) : Bool := match v.keep with | some t => decide (d.time.loc < t) | none => false

/-- Granules of a tile that may be evicted: streamed ones first, kept ones last (R183); which of a rank, the model leaves
free. -/
def Dev.victims (d : Dev) (k : Nat) : List Nat :=
  let all := d.cist.filter fun e => d.granTile e.1 == k && d.evictable e.1
  let s := all.filter fun e => e.2.stream
  let n := all.filter fun e => !e.2.stream && !d.kept e.2
  ((if s.isEmpty then (if n.isEmpty then all else n) else s)).map Prod.fst

/-- Make room for a granule in a tile's cistern when it is full. Whether the read that completes a half-valid granule fails (R25) is a
free value. -/
def Dev.makeRoom (d : Dev) (k : Nat) : Dev :=
  if (d.cist.filter fun e => d.granTile e.1 == k).length < cistSize then d
  else
    let vs := d.victims k
    match vs with
    | [] => d
    | v :: _ => d.bumpFree.evictGran (vs.getD (Config.cisternVictim d.free k % vs.length) v) (Config.mergeFails d.free)

/-- Place a line in the cistern (R24). -/
def Dev.placeLine (d : Dev) (line : Nat) (data : Line) (poison dirty : Bool) : Dev :=
  let g := lnGran line
  let d := if (d.gran g).v0 || (d.gran g).v1 then d else d.makeRoom (d.granTile g)
  let v := d.gran g
  d.setGran g (if lnHalf line = 0 then { v with v0 := true, l0 := data, p0 := poison, d0 := v.d0 || dirty }
               else { v with v1 := true, l1 := data, p1 := poison, d1 := v.d1 || dirty })

/-- Fill a line from storage: never over a valid one. -/
def Dev.fillLine (d : Dev) (line : Nat) (data : Line) (poison : Bool) : Dev :=
  match d.cistLine line with
  | some _ => d
  | none => if d.isLost line then d else d.placeLine line data poison false

/-- Place the 64 lines of a page dirty against a new frame. -/
def Dev.placePage (d : Dev) (page : Nat) (lines : List (Line × Bool)) : Dev :=
  (lines.zipIdx).foldl (fun d x => match d.cistLine (page * 64 + x.2) with
    | some _ => d.placeLine (page * 64 + x.2) ((d.cistLine (page * 64 + x.2)).getD x.1).1 ((d.cistLine (page * 64 + x.2)).getD x.1).2 true
    | none => d.placeLine (page * 64 + x.2) x.1.1 x.1.2 true) d

/-- Drop every granule of a page from the cistern. -/
def Dev.dropPage (d : Dev) (page : Nat) : Dev := { d with cist := d.cist.filter fun e => e.1 / 32 != page }

/-- Mark every granule of a page clean (R105). -/
def Dev.cleanPage (d : Dev) (page : Nat) : Dev :=
  { d with cist := d.cist.map fun e => if e.1 / 32 = page then (e.1, { e.2 with d0 := false, d1 := false }) else e }

/-! ### Stored pages -/

/-- The book that a slot decodes with. -/
def Dev.slotBook (d : Dev) (n : Nat) : Option Book :=
  if n = 0 then some builtinBook else if (d.book n).st = .empty then none else (d.book n).book

def bytesLines (bs : List Byte) : List (Line × Bool) := (List.range 64).map fun i => (lineOf (sub bs (64 * i) 64), false)

/-- The page as its storage holds it: 64 lines with poison, and the pages decoded to reach it; or the decoder's error. -/
def Dev.storedPage (d : Dev) (e : MapEntry) : Except DecErr (List (Line × Bool) × Nat) :=
  if e.tier = 0 then
    .ok ((List.range 32).flatMap (fun i => let m := d.dramGran e.kdom (frameGran e.frame i); [m.1, m.2]), 1)
  else if e.tier = 1 then
    (decodeBlock e.slots e.book (d.slotBook e.book) (d.readUnits e.kdom 256 (e.slot * 256) e.slots)).map
      fun p => (bytesLines p, 1)
  else
    (decodeSegment e.segRun e.segIdx e.book (d.slotBook e.book)
      (d.readUnits e.kdom 4096 (e.frame * 4096) e.segRun)).map fun p => (bytesLines p.1, p.2)

/-- The page as a reader sees it: the cistern in preference to storage, and lost lines as poison (R111, R241). -/
def Dev.pageView (d : Dev) (page : Nat) (stored : List (Line × Bool)) : List (Line × Bool) :=
  (stored.zipIdx).map fun x =>
    let line := page * 64 + x.2
    let v := (d.cistLine line).getD x.1
    (v.1, v.2 || d.isLost line)

def linesBytes (ls : List (Line × Bool)) : List Byte := ls.flatMap fun l => lineBytes l.1

/-! ### Heat -/

/-- One decay step (R94). -/
def decayStep (sh h : Nat) : Nat := if h = 0 then 0 else h - max 1 (h / 2 ^ sh)

/-- `m` decay steps; 255 or more leave zero. -/
def decaySteps (sh : Nat) : Nat → Nat → Nat
  | 0, h => h
  | n + 1, h => decaySteps sh n (decayStep sh h)

/-- An entry with its heat brought up to date (R94, R96). An Unbacked entry keeps none (R91). -/
def Dev.warm (d : Dev) (k : Nat) (e : MapEntry) : MapEntry :=
  if e.st = .unbacked then e
  else
    let t := d.tile k
    let h := if t.stale && e.parity != t.parity then 0 else e.heat
    let m := (d.epoch + 65536 - e.stamp) % 65536
    let h := if m ≥ 255 then 0 else decaySteps (d.fld (mtBase k + 0x8000) 3 1) m h
    { e with heat := h, stamp := d.epoch % 65536, parity := t.parity }

/-- A line access reaches the home slice (R93). -/
def Dev.heat (d : Dev) (page : Nat) : Dev :=
  let e := d.entry page
  if e.st = .unbacked then d
  else
    let e := d.warm (d.homeTile page) e
    d.setEntry page { e with heat := satInc 255 e.heat, cold := 0 }

/-- The heat fields of a page that becomes backed by its first write (R91). -/
def Dev.firstHeat (d : Dev) (k : Nat) (e : MapEntry) : MapEntry :=
  { e with heat := 1, stamp := d.epoch % 65536, cold := 0, parity := (d.tile k).parity }

/-! ### Level of a tile and the dry state -/

/-- LEVEL of `MT_FLOAT_STAT`. -/
def Dev.level (d : Dev) (k : Nat) : Nat :=
  let f := d.free_ k
  let t := d.tile k
  if f ≤ t.crit then 3 else if f ≤ t.low then 2 else if f ≤ t.high then 1 else 0

/-- Overcommit on, or allocation behaving as if it were (R115, R116). -/
def Dev.overcommit (d : Dev) : Bool := d.fld 0x320 31 31 == 1 || d.overLimit

/-- A page's region is in the dry state. -/
def Dev.isDry (d : Dev) (page : Nat) : Bool := match d.attrs page with | some r => d.dry.contains r.num | none => false

/-- A head's view takes in a part of a region (R62). -/
def Dev.viewsRegion (d : Dev) (h : Nat) (r : Region) : Bool :=
  match d.staticOf h with
  | some n => n == r.num
  | none => (d.head h).blocks.any fun b => decide (r.base ≤ b) && decide (b < r.base + r.size)

/-- Heads that see the event records of region `n` (R66). -/
def Dev.regionHeads (d : Dev) (n : Nat) : List Nat := (List.range d.nHosts).filter fun h => (d.regionNum n).any (d.viewsRegion h)

/-- Raise an event about a page at its home slice: its region's heads see it. -/
def Dev.raisePage (d : Dev) (n page : Nat) : Dev :=
  d.raiseI n { slice := hsSlice (d.home page), heads := (d.attrs page).elim [] fun r => d.regionHeads r.num }

/-- The region of a page enters the dry state (R116): EV083 for the write, EV084 when the region enters. -/
def Dev.enterDry (d : Dev) (page : Nat) : Dev :=
  let d := d.raisePage 83 page
  match d.attrs page with
  | none => d
  | some r => if d.dry.contains r.num then d else ({ d with dry := d.dry ++ [r.num] }).raisePage 84 page

/-! ### Lengths bound (R115, R466) -/

/-- Committed exposure in 256 MiB units of a set of regions and grants held as owner. -/
def committedOf (rs : List Region) (gs : List Grant) : Nat :=
  (rs.map Region.size).sum + ((gs.filter Grant.owner).map Grant.len).sum

/-- Frame count of the largest non-spare rank of a tile. -/
def Dev.largestRank (d : Dev) (k : Nat) : Nat :=
  (((d.tileRanks k).filter fun q => d.refUp q && !d.isSpare q.ch q.r).map RankRef.cap).foldl max 0

/-- The limit of R115 in frames: Free and in-use frames less Metadata, sump and spare reserve, plus the capacity that
others guarantee. -/
def Dev.limitFrames (d : Dev) (gs : List Grant) : Nat :=
  let own := ((tileList d).map fun k =>
    d.usableNow k - ((d.tileRanks k).map fun q => d.kindCount q [5]).sum - d.sumpSize k - d.resRanks k * d.largestRank k).sum
  own + ((gs.filter fun g => !g.owner).map fun g => g.len * 65536).sum

/-- Exposed capacity of a configuration in 256 MiB units. -/
def capacityOf (rs : List Region) (gs : List Grant) : Nat :=
  (rs.map (fun r => r.base + r.size) ++ (gs.filter Grant.owner).map (fun g => g.ob + g.len)).foldl max 0

end Sys2Proof.Machine
end

