-- ==== Sys2Proof/Machine/Links.lean ====
section
/-! DEFINITION. Sending: Terdy messages over the routes (R260 to R263, R266, R268, R271), broadcasts (R270), and responses
to each kind of requester (R172, R176, R181). -/

namespace Sys2Proof.Machine

open Sys2Proof

/-! ### Messages -/

/-- Slots of a message, header included; 0 for an opcode that is not used. A variable message counts its least. -/
def opSlots (op : Nat) : Nat :=
  if op ∈ [0x01, 0x02, 0x03, 0x04, 0x07, 0x10, 0x11, 0x12, 0x21, 0x22, 0x23, 0x24, 0x25, 0x29, 0x30, 0x31, 0x32, 0x45, 0x46, 0x48]
  then 1
  else if op ∈ [0x05, 0x08, 0x20] then 5
  else if op ∈ [0x06, 0x09] then 6
  else if op = 0x28 then 9
  else if op = 0x40 then 3
  else if op ∈ [0x41, 0x42, 0x43, 0x44, 0x47] then 2
  else 0

/-- Virtual channel of an opcode: 0 REQ, 1 RSP, 2 SNP, 3 MNT. -/
def opVc (op : Nat) : Nat :=
  if op ∈ [0x01, 0x02, 0x03, 0x04, 0x08, 0x09] then 0
  else if op ∈ [0x30, 0x31, 0x32] then 2
  else if op ≥ 0x40 then 3
  else 1

/-- Whether a message of an opcode may have a SIZE (data slots), under R259's table. -/
def sizeOk (op size : Nat) : Bool :=
  if op = 0x42 ∨ op = 0x47 then decide (1 ≤ size) && decide (size ≤ 14)
  else if op = 0x43 then decide (size ≤ 14)
  else if op = 0x44 then decide (size ≤ 1)
  else if op = 0x00 ∨ op = 0xFF then size == 0
  else opSlots op != 0 && size + 1 == opSlots op

/-- A message with every field at zero. -/
def msg0 : Msg :=
  { pageHint := 0, hint := { kind := 0, tile := 0 }, dest := 0, cls := false, resent := false, src := 0, origin := 0, mval := 0,
    poison := false, group := 0, tag := 0, addr := 0, mask := 0#64, data := 0#512, data2 := 0#512 }

/-! ### Ports and routes -/

/-- A port's configuration: the register's value, which a training takes (R254). -/
def Dev.portReg (d : Dev) (p : Nat) : BitVec 32 := d.cfgReg (cpBase p + 4)
def Dev.portCfg (d : Dev) (p : Nat) : BitVec 32 := if (d.port p).st = .down then d.portReg p else (d.port p).cfg

/-- Cascade ports present. -/
def Dev.ports (d : Dev) : List Nat := List.range d.nHosts

def Dev.portUp (d : Dev) (p : Nat) : Bool := decide (p < d.nHosts) && (d.port p).st == .up
def Dev.upPorts (d : Dev) : List Nat := d.ports.filter d.portUp

/-- A device's route entry: VALID, ALT_VALID, ALT, PRIMARY. -/
def Dev.routeReg (d : Dev) (n : Nat) : Nat := (d.cfgReg (0x4000 + 4 * n)).toNat
def Dev.routeValid (d : Dev) (n : Nat) : Bool := bit (d.routeReg n) 31
def Dev.routeAlt (d : Dev) (n : Nat) : Option Nat := if bit (d.routeReg n) 30 then some (bits (d.routeReg n) 7 4) else none
def Dev.routePrimary (d : Dev) (n : Nat) : Nat := bits (d.routeReg n) 3 0

/-- A sleeping or waking port takes messages for its link (R286). -/
def Dev.portAsleep (d : Dev) (p : Nat) : Bool := decide (p < d.nHosts) && ((d.port p).st == .sleep || (d.port p).st == .waking)

/-- The port a message to a device leaves on (R268); where no port is Up, a sleeping one, which it wakes (R286). -/
def Dev.outPort (d : Dev) (n : Nat) : Option Nat :=
  let a := d.routeAlt n
  let prim := d.routePrimary n
  if !d.routeValid n then none
  else if d.portUp prim && !(d.route n).usingAlt then some prim
  else if a.any d.portUp then a
  else if d.portAsleep prim && !(d.route n).usingAlt then some prim
  else if a.any d.portAsleep then a
  else none

/-- A device is reachable now. -/
def Dev.reachable (d : Dev) (n : Nat) : Bool := (d.outPort n).isSome

/-- The cascade port slice toward a device. -/
def Dev.portToward (d : Dev) (n : Nat) : Nat := (d.outPort n).getD (d.routePrimary n)

/-- Credit index of a channel and class in the Hello order. -/
def creditIdx (op : Nat) (cls : Bool) : Nat := opVc op * 2 + b2n cls

/-- Slots of a message, header included: a maintenance message has as many data slots as its content fills. -/
def msgSlots (op : Nat) (m : Msg) : Nat := if 0x40 ≤ op then 1 + m.raw.length / 16 else opSlots op

/-- A port can send a message now: credits for its slots and room for its flit (R260, R266), whose sequence number is below 2^32 (R159). -/
def CPort.canSend (c : CPort) (op : Nat) (m : Msg) : Bool :=
  decide (c.sent.length < 1024) && decide (c.txSeq < 2 ^ 32) && decide (c.credits.getD (creditIdx op m.cls) 0 ≥ msgSlots op m)

/-- Send one message in a flit of its own (R257, R266), which is kept as it was sent. -/
def CPort.push (c : CPort) (now op : Nat) (m : Msg) (bytes : List Byte) : CPort :=
  { c with credits := c.credits.modify (creditIdx op m.cls) (· - msgSlots op m), txSeq := c.txSeq + 1,
           sent := c.sent ++ [{ seq := c.txSeq, bytes := bytes, tries := 1, since := now, msgs := [(op, m)] }] }

/-- One message leaves on a port, in a flit. -/
def Dev.putFlit (d : Dev) (p op : Nat) (m : Msg) : Dev :=
  let bytes := (d.port p).flitOf (d.pool % 65536) op m
  ((d.setPort p fun c => c.push d.time.loc op m bytes).emit (.terdy p op m)).emit (.flit p bytes)

/-- Put a message out on a port, or keep it until credits or the link return; each channel and class has its own queue
(R261). -/
def Dev.sendOn (d : Dev) (p op : Nat) (m : Msg) : Dev :=
  let m := if bit (d.portCfg p).toNat 28 then { m with cls := true } else m
  let c := d.port p
  if c.st = .up ∧ !c.draining ∧ c.canSend op m ∧ !(c.kept.any fun k => creditIdx k.1 k.2.cls == creditIdx op m.cls) then d.putFlit p op m
  else
    let d := d.setPort p fun c => { c with kept := c.kept ++ [(op, m)] }
    if c.st = .sleep then (d.setPort p fun c => { c with st := .waking, stepAt := d.time.loc }).emit (.wakePattern p) else d

/-- Send the messages a port kept, as far as credits allow, each channel and class in order. -/
def Dev.flushPort (d : Dev) (p : Nat) : Dev :=
  let ks := (d.port p).kept
  let d := d.setPort p fun c => { c with kept := [] }
  forAll d ks fun d k => d.sendOn p k.1 k.2

/-- Send a message to a device by its route, or hold it while the route is held (R268, R271). The Bool says that it was
sent or held. -/
def Dev.sendTo (d : Dev) (op : Nat) (m : Msg) : Dev × Bool :=
  if (d.route m.dest).holdUntil.isSome then
    (d.setRoute m.dest fun r => { r with held := r.held ++ [(op, m)] }, true)
  else
    match d.outPort m.dest with
    | some p => ((d.setRoute m.dest fun r => { r with unreach := false }).sendOn p op m, true)
    | none => ((d.setRoute m.dest fun r => { r with unreach := true }).raise 156 (tileSlice 1), false)

/-- Send and forget. -/
def Dev.send (d : Dev) (op : Nat) (m : Msg) : Dev := (d.sendTo op m).1

/-! ### Maintenance messages -/

/-- A maintenance message of this device, from its control complex, with its data slots. -/
def Dev.maint (d : Dev) (dest : Nat) (raw : List Byte) : Msg := { msg0 with dest := dest, src := d.devId, origin := 19, raw := raw }

/-- A maintenance message to the neighbour on a port. -/
def Dev.toNeighbour (d : Dev) (p op mval addr : Nat) (raw : List Byte) : Dev :=
  d.sendOn p op { d.maint (d.port p).neighbour raw with mval := mval, addr := addr }

/-- A Route Notice for a device on a port (R272). -/
def Dev.sendNotice (d : Dev) (p n : Nat) (restore : Bool) : Dev := (d.emit (.notice p n restore)).toNeighbour p 0x48 (b2n restore) n []

/-- A new transaction tag (R273): one that no outstanding or resting transaction uses. -/
def Dev.tagUsed (d : Dev) (t : Nat) : Bool :=
  d.cas.fwd.any (fun f => f.tag == t) || d.cas.frees.any (fun f => f.tag == t) ||
    d.cas.resting.any (fun r => r.1 == t && decide (d.time.loc < r.2))

def Dev.newTag (d : Dev) : Nat × Dev :=
  let t := ((List.range 65536).find? fun i => !d.tagUsed ((d.cas.nextTag + i) % 65536)).getD 0
  let t := (d.cas.nextTag + t) % 65536
  (t, { d with cas := { d.cas with nextTag := (t + 1) % 65536 } })

/-- A tag rests for RESEND_WIN strokes after its transaction (R273). -/
def Dev.restTag (d : Dev) (t : Nat) : Dev :=
  { d with cas := { d.cas with resting := (d.cas.resting.filter fun r => decide (d.time.loc < r.2)) ++ [(t, d.time.loc + d.resendWin)] } }

/-! ### Broadcasts -/

/-- A broadcast payload with every field at zero. -/
def bcast0 : Bcast :=
  { src := 0, epoch := 0#32, bseq := 0, dev := 0, group := 0, cause := 0, stroke := 0#64, ver := 0#32, digest := 0#64, act := 0#64,
    targetVer := 0#32, targetDigest := 0#64 }

/-- A broadcast on a port. -/
def Dev.sendBcast (d : Dev) (p kind : Nat) (b : Bcast) : Dev :=
  (d.emit (.bcast p kind b)).sendOn p 0x43
    { d.maint 0 (bcastSlots kind b) with src := b.src, tag := b.bseq, addr := kind + 256 * b.epoch.toNat }

/-- A Broadcast Ack to a device (R270). -/
def Dev.sendAck (d : Dev) (dest : Nat) (a : BcastAck) : Dev :=
  (d.emit (.bcastAck dest a)).send 0x44
    { d.maint dest (ackSlots a) with mval := 0, tag := a.bseq, addr := a.kind + 256 * a.epoch.toNat }

/-- Originate a broadcast (R270): the next BSEQ, to every Up port. -/
def Dev.broadcast (d : Dev) (kind : Nat) (b : Bcast) : Dev :=
  let n := (d.cas.bseq + 1) % 65536
  let d := { d with cas := { d.cas with bseq := n } }
  let b := { b with src := d.devId, epoch := d.cas.epoch, bseq := n }
  forAll d d.upPorts fun d p => d.sendBcast p kind b

/-- Accept a received broadcast (R270): none when it is to be discarded, else the device with the broadcast noted and
forwarded. -/
def Dev.hear (d : Dev) (p kind : Nat) (b : Bcast) : Option Dev :=
  let ok := match Tbl.look d.cas.heard b.src with
    | none => true
    | some (e, l) => e != b.epoch || (let x := (b.bseq + 65536 - l) % 65536; decide (1 ≤ x) && decide (x ≤ 32767))
  if ok && d.portUp p then
    let d := { d with cas := { d.cas with heard := Tbl.put d.cas.heard b.src (b.epoch, b.bseq) } }
    some (forAll d (d.upPorts.filter (· != p)) fun d q => d.sendBcast q kind b)
  else none

/-- Acknowledge a broadcast to its originator (R270). -/
def Dev.ack (d : Dev) (kind : Nat) (b : Bcast) (status slice : Nat) (ver : BitVec 32) : Dev :=
  d.sendAck b.src { kind, member := d.devId, epoch := b.epoch, bseq := b.bseq, status, slice, ver }

/-! ### Toward the guest (R422, R425, R426) -/

/-- Slots and credit class of a message toward the guest. -/
def gSlots (op : Nat) : Nat := if op % 256 = 0x20 ∨ op % 256 = 0x34 then 5 else 1
def gClass (op : Nat) : Nat := if op % 256 < 0x30 then 2 else 3

/-- The guest modules that are up. -/
def Dev.guestModsUp (d : Dev) : List Nat := [49, 50, 51, 52].filter fun m => (d.modu m).st == 2

/-- Send a message to the guest on the module of its stream, or keep it until that module has credits; a guest that is not attached
gets nothing (R435, R436). -/
def Dev.guestOut (d : Dev) (x : GMsg) : Dev :=
  let ms := d.guestModsUp
  let c := gClass x.op
  let m := ms.getD (Config.streamHash (hsSlice (d.home (x.addr / 4096))) 0xA00 c % ms.length) 49
  if d.gst.st ≠ 2 ∨ d.gst.failPend.isSome then d
  else if ms.isEmpty ∨ d.gst.kept.any (fun k => gClass k.op == c) ∨ (d.modu m).credits.getD c 0 < gSlots x.op then
    { d with gst := { d.gst with kept := d.gst.kept ++ [x] } }
  else
    (d.setMod m fun y => { y with credits := y.credits.modify c (· - gSlots x.op) }).emit (.guest x.op x.tag x.addr x.line x.poison)

/-- Send what waited, in order. -/
def Dev.flushGuest (d : Dev) : Dev :=
  forAll { d with gst := { d.gst with kept := [] } } d.gst.kept fun d x => d.guestOut x

/-! ### Responses -/

def Rsp.opcode : Rsp → Nat
  | .memData => 0x20 | .cmp => 0x21 | .cmpS => 0x21 | .cmpE => 0x21 | .conflictAck => 0x24 | .writeRetry => 0x25

/-- META of a Cmp. -/
def Rsp.mval : Rsp → Nat
  | .cmpS => 1 | .cmpE => 2 | _ => 0

/-- One response to a requester: S2M for a head whose link is up, Chroten for the guest, Terdy for another device. -/
def Dev.respond1 (d : Dev) (rq : Rq) (tag line : Nat) (r : Rsp) (data : Line) (poison : Bool) : Dev :=
  match rq with
  | .head h =>
    if (d.head h).up then d.emit (.s2m h tag r (if r = .memData then data else 0#512) (poison && r == .memData) (d.head h).devload) else d
  | .guest => d.guestOut { op := r.opcode + 256 * r.mval, tag := tag, addr := line * 64, line := if r = .memData then data else 0#512,
                           poison := poison && r == .memData }
  | .remote _ dev origin group =>
    d.send r.opcode { msg0 with dest := dev, src := d.devId, origin := origin, group := group, tag := tag, addr := line * 64,
                                mval := r.mval, poison := poison && r == .memData, data := if r = .memData then data else 0#512 }
  | .push _ _ => d

def Dev.respond (d : Dev) (rq : Rq) (tag line : Nat) (rs : List Rsp) (data : Line) (poison : Bool) : Dev :=
  forAll d rs fun d r => d.respond1 rq tag line r data poison

/-- A read answered with poison: a General Media record for poison returned to a read (R250). -/
def Dev.poisonRead (d : Dev) (rq : Rq) (tag line : Nat) (rs : List Rsp) : Dev :=
  (d.respond rq tag line rs 0#512 true).mediaRecord (line * 64) 64 0 0

/-- Requester number at the arbiter. -/
def Rq.num : Rq → Nat
  | .head h => h
  | .guest => 32
  | .remote p _ _ _ => 16 + p
  | .push p _ => 16 + p

/-- The number a sharer pointer names a requester by (R167). -/
def Rq.ptr : Rq → Nat
  | .head h => h
  | .guest => 16
  | .remote _ _ o _ => o
  | .push _ _ => 31

/-- The coherent domain that a request for a line belongs to: its device and group, group 0 for none. -/
def Dev.domainOf (d : Dev) (rq : Rq) (line : Nat) : Nat × Nat :=
  match rq with
  | .remote _ dev _ g => (dev, g)
  | _ => (d.devId, d.groupOf (lnPage line))

/-- A snoop to a sharer of a domain (R176, R182). -/
def snpOp : Snp → Nat
  | .inv => 0x30 | .data => 0x31 | .cur => 0x32

def Dev.snoop (d : Dev) (dev group who line : Nat) (k : Snp) : Dev :=
  if dev = d.devId then
    if who = 16 then d.guestOut { op := snpOp k, tag := 0, addr := line * 64, line := 0#512, poison := false } else d.emit (.bisnp who (d.headDpa who (line * 64)) k)
  else d.send (snpOp k) { msg0 with dest := dev, src := dev, origin := who, group := group, addr := line * 64 }

end Sys2Proof.Machine
end

