-- ==== Sys2Proof/Machine/Coherence.lean ====
section
/-! DEFINITION. The home slice: serving reads and writes of a line (R18 to R26, R91, R92, R116, R237, R239), the arbiter
(R169 to R175), the directory (R166 to R168, R176 to R180, R191), forwarding to T4 (R23, R282) and domains going down
(R187 to R189). -/

namespace Sys2Proof.Machine

open Sys2Proof

/-! ### Domains -/

/-- Whether a domain serves (0), has a cause detected but not yet handled (1), or is Down or Rejoining (2). -/
def Dev.domState (d : Dev) (dev g : Nat) : Nat :=
  if dev = d.devId then
    (if (d.dom g).detected.isSome then 1 else if (d.dom g).st = .up then 0 else 2)
  else match Tbl.look d.remDown (dev * 256 + g) with
    | none => 0
    | some n => if n = 2 ∨ n = 3 then 2 else 1

/-- A cause of going down is detected (R187): the home slices take no new request of the domain from now on. -/
def Dev.detectDown (d : Dev) (dev g cause source : Nat) (slice : Nat := 0x100) : Dev :=
  if dev = d.devId then
    if ((d.dom g).st = .up ∨ (d.dom g).st = .rejoining) ∧ (d.dom g).detected.isNone then
      d.setDom g fun x => { x with detected := some (cause, source, d.pool), detSlice := slice }
    else d
  else
    let e := { d with remDown := Tbl.put d.remDown (dev * 256 + g) (if cause = 7 then 1 else 16 + cause)
                      remAt := Tbl.put d.remAt (dev * 256 + g) d.pool }
    match Tbl.look d.remDown (dev * 256 + g) with
    | none => e
    | some 3 => e
    | some _ => d

/-- Members of a domain of this device by pointer number; of another device's domain every head and the guest, since the
owner does not know its members (log entry 20). -/
def Dev.domMembers (d : Dev) (dev g : Nat) : List Nat :=
  if dev = d.devId then
    (List.range 16).filter (fun h => (d.dom g).members.getLsbD h) ++ (if (d.dom g).guest then [16] else [])
  else List.range 17

/-- Each group of this device of which a head is a member goes down (R28, R84, R187). -/
def Dev.memberDead (d : Dev) (h cause : Nat) : Dev :=
  forAll d ((List.range 256).filter fun g => g != 0 && (d.dom g).members.getLsbD h && (d.dom g).st != .none) fun d g =>
    d.detectDown d.devId g cause h (headSlice h)

/-- Each domain of which the guest is a member goes down with cause 8. -/
def Dev.guestDead (d : Dev) : Dev :=
  forAll d ((List.range 256).filter fun g => g != 0 && (d.dom g).guest && (d.dom g).st != .none) fun d g =>
    d.detectDown d.devId g 8 16 0xA00

/-! ### Keys -/

/-- A write that would allocate storage cannot be encrypted: the page's domain is not Live (R149, R151, log entry 21). -/
def Dev.keyless (d : Dev) (page : Nat) : Bool :=
  match d.attrs page with
  | none => false
  | some r => d.kdSt r.kdom != .live

/-- A backed page whose domain is Erased reads as poison (R156). -/
def Dev.erasedPage (d : Dev) (e : MapEntry) : Bool := e.local && d.kdSt e.kdom == .erased

/-- An inline promotion ends because its page is released: its frame is free, and its write is answered. -/
def Dev.endPromo (d : Dev) (page : Nat) : Dev :=
  match d.promos.find? fun x => x.page == page with
  | none => d
  | some x =>
    let d := { d with promos := d.promos.filter fun y => y.page != page }.freeFrame x.frame
    if x.dropped then d else d.respond x.req.rq x.req.tag x.req.line [.cmp] 0#512 false

/-- Make a page Unbacked: its storage, cistern granules and lost lines go (R117, R156, R301). -/
def Dev.unback (d : Dev) (page : Nat) : Dev :=
  let e := d.entry page
  let d := (d.endPromo page).setEntry page { kdom := e.kdom }
  ((((d.releaseStorage e).dropPage page).foundPage page).dropCand page)

/-! ### Serving a read -/

/-- What a read meets when it is admitted. -/
inductive ReadHit where
  | data (l : Line)
  | poison
  | zero
  | miss
  deriving DecidableEq, Repr

/-- The lookups of a read (R21, R91, R116, R156, R237). -/
def Dev.lookup (d : Dev) (line : Nat) : ReadHit :=
  let e := d.entry (lnPage line)
  if d.pagePoisoned e || d.isLost line || d.erasedPage e then .poison
  else match d.cistLine line with
    | some (l, p) => if p then .poison else .data l
    | none => if e.st = .unbacked then .zero else .miss

/-- Queue a Promote for a T2 or T3 page that is read often enough (R98). -/
def Dev.promoteTrigger (d : Dev) (page : Nat) : Dev :=
  let e := d.entry page
  let k := d.homeTile page
  if e.st = .stable ∧ (e.tier = 1 ∨ e.tier = 2) ∧ e.heat ≥ d.fld (mtBase k + 0x8000) 31 24 ∧ d.free_ k > (d.tile k).low then
    d.queueJob 1 page
  else d

/-- Queue a Pull for a T4 page that is used often enough (R98). -/
def Dev.pullTrigger (d : Dev) (page : Nat) : Dev :=
  let e := d.entry page
  let k := d.homeTile page
  if e.st = .stable ∧ e.tier = 3 ∧ e.heat ≥ d.fld (mtBase k + 0x8000) 23 16 ∧ d.free_ k > (d.tile k).low then d.queueJob 2 page
  else d

/-- The home slice meets an entry that is not valid (R90). -/
def Dev.noteInvalid (d : Dev) (page : Nat) : Dev := if d.entryOk (d.entry page) then d else d.raisePage 87 page

/-- Answer a read, or start the read of its storage. -/
def Dev.serveRead (d : Dev) (rq : Rq) (tag line : Nat) (rs : List Rsp) : Dev :=
  let d := (((d.noteInvalid (lnPage line)).heat (lnPage line))).promoteTrigger (lnPage line)
  match d.lookup line with
  | .data l => d.respond rq tag line rs l false
  | .zero => d.respond rq tag line rs 0#512 false
  | .poison => d.poisonRead rq tag line rs
  | .miss => { d with reads := d.reads ++ [{ id := d.nextRead, rq, tag, line, rsp := rs }], nextRead := d.nextRead + 1 }

/-! ### Serving a write -/

/-- Back a page with a T1 frame (R91, R239): zero granules dirty in the cistern, or a poisoned frame. -/
def Dev.backPage (d : Dev) (page : Nat) (poisoned : Bool) : Option Dev :=
  match d.attrs page with
  | none => none
  | some r =>
    (d.allocFrame (d.homeTile page) .first 1 0#16).map fun x =>
      let d := x.2
      let e := d.firstHeat (d.homeTile page)
        { st := .stable, tier := 0, kdom := r.kdom, loc := locT1 x.1, poison := b2n poisoned }
      let d := d.setEntry page e
      if poisoned then forAll d (List.range 32) fun d i => d.putGran r.kdom (frameGran x.1 i) 0#512 0#512 3
      else d.placePage page (List.replicate 64 (0#512, false))

/-- The line as a partial write finds it. -/
def Dev.oldLine (d : Dev) (line : Nat) : Line × Bool :=
  match d.cistLine line with
  | some x => x
  | none => match d.t1Gran (lnGran line) with
    | some pg =>
      let m := d.dramGran (d.entry (lnPage line)).kdom pg
      if lnHalf line = 0 then m.1 else m.2
    | none => (0#512, false)

/-- Retention of a hinted write (R183). -/
def Dev.hintGran (d : Dev) (line : Nat) (h : Hint) : Dev :=
  let g := lnGran line
  if h.kind = 1 then
    d.setGran g { d.gran g with keep := some (d.time.loc + d.fld (mtBase (d.granTile g) + 0xB000) 31 24), stream := false }
  else if h.kind = 2 then d.setGran g { d.gran g with stream := true, keep := none }
  else d

/-- Apply a write to a page in T1 (R24): the line is dirty in the cistern, its poison and its place among lost lines go when
it is written whole. -/
def Dev.writeT1 (d : Dev) (line : Nat) (mask : BitVec 64) (data : Line) (full : Bool) (h : Hint) : Dev :=
  let page := lnPage line
  let e := d.entry page
  -- R239: a T1 page with POISON 2 has its own frame rewritten poisoned first
  let d := if e.poison = 2 then
      (forAll d (List.range 32) fun d i => d.putGran e.kdom (frameGran e.frame i) 0#512 0#512 3).dropPage page
        |>.setEntry page { e with poison := 1 }
    else d
  let old := d.oldLine line
  let e := d.entry page
  let d := d.setEntry page { e with raw := false }
  let d := d.placeLine line (if full then data else mergeLine mask old.1 data) (!full && old.2) true
  let d := if full then d.foundLine line else d
  ((d.hintGran line h).dirtyPage page).dropCand page

/-- Push the line just written to the guest's cache (R183, R185): the line stays held for the guest's answer. -/
def Dev.pushGuest (d : Dev) (q : Req) (h : Hint) : Dev :=
  if h.kind = 3 then
    (d.setHs (d.home (lnPage q.line)) fun s => { s with holds := s.holds.map fun x => if x.line = q.line then { x with push := true } else x }).guestOut
      { op := 0x34, tag := q.tag, addr := q.line * 64, line := ((d.cistLine q.line).getD (0#512, false)).1,
        poison := ((d.cistLine q.line).getD (0#512, false)).2 }
  else d

/-- The page of a write has an entry that is not valid, which counts as POISON 2, or names an Erased domain: it becomes Unbacked first
(R90, R156). Storage that an invalid entry names is not released. -/
def Dev.beforeWrite (d : Dev) (page : Nat) : Dev :=
  let e := d.entry page
  if !d.entryOk e then (d.noteInvalid page).setEntry page { poison := 2, kdom := e.kdom }
  else if d.erasedPage e then d.unback page
  else d

/-- A write that finds no place (R116): lost, answered with Cmp, its region dry. -/
def Dev.writeNotPlaced (d : Dev) (rq : Rq) (tag line : Nat) : Dev :=
  (((d.discardWrite line).respond rq tag line [.cmp] 0#512 false).enterDry (lnPage line))

/-- A write to a page that is being promoted, such as a write-back, which is not made to wait (R170): the line is dirty in the cistern, against the frame that
the promotion fills. A partial one merges with the page's storage. -/
def Dev.writePromoting (d : Dev) (q : Req) (mask : BitVec 64) (data : Line) (full : Bool) : Dev :=
  let old : Line × Bool := match d.cistLine q.line with
    | some x => x
    | none => match d.storedPage (d.entry (lnPage q.line)) with
      | .ok r => r.1.getD (lnIdx q.line) (0#512, true)
      | .error _ => (0#512, true)
  let d := (d.placeLine q.line (if full then data else mergeLine mask old.1 data) (!full && old.2) true).dirtyPage (lnPage q.line)
  (if full then d.foundLine q.line else d).respond q.rq q.tag q.line [.cmp] 0#512 false

/-- A write after its ordering (R24, R26, R91, R104, R107, R116, R151, R156, R239); a push to the guest follows its Cmp (R185). -/
def Dev.serveWrite (d : Dev) (q : Req) (mask : BitVec 64) (data : Line) (full : Bool) (h : Hint) : Dev :=
  let page := lnPage q.line
  let cmp (d : Dev) := d.respond q.rq q.tag q.line [.cmp] 0#512 false
  let d := (d.beforeWrite page).dirtyPage page
  let e := d.entry page
  let d := d.heat page
  if d.isDry page then cmp (d.discardWrite q.line)
  else if e.st = .promoting then (d.writePromoting q mask data full).pushGuest q h
  else if e.st = .unbacked then
    if d.keyless page then (cmp (d.discardWrite q.line)).raisePage 103 page
    else match d.backPage page (e.poison == 2) with
      | none => d.writeNotPlaced q.rq q.tag q.line
      | some d => (cmp (d.writeT1 q.line mask data full h)).pushGuest q h
  else if e.tier = 0 then (cmp (d.writeT1 q.line mask data full h)).pushGuest q h
  else
    -- inline promotion (R26)
    if d.keyless page then (cmp (d.discardWrite q.line)).raisePage 103 page
    else match d.allocFrame (d.homeTile page) .first 1 0#16 with
    | none => d.writeNotPlaced q.rq q.tag q.line
    | some (f, d) =>
      let e := d.entry page
      let d := d.setEntry page { e with st := .promoting, owner := 0 }
      { d with promos := d.promos ++ [{ page, req := q, frame := f, old := e, id := d.nextRead }], nextRead := d.nextRead + 1 }

/-! ### Forwarding to T4 -/

/-- The Terdy opcode and META of a request kind. -/
def ReqKind.opcode : ReqKind → Nat × Nat
  | .sharedRead => (0x01, 1) | .ownRead => (0x01, 2) | .uncachedRead => (0x01, 0) | .anyRead => (0x02, 0)
  | .ownNoData nt => (if nt then 0x04 else 0x03, 2)
  | .write _ _ full mv _ => (if full then 0x05 else 0x06, match mv with | .i => 0 | .s => 1 | .a => 2)
  | .cleanEvict => (0x07, 0)

def ReqKind.isWrite : ReqKind → Bool
  | .write .. => true | .cleanEvict => true | _ => false

/-- The response messages that complete a request answered as while its domain is down, or by a timeout. -/
def ReqKind.downRsp : ReqKind → List Rsp
  | .sharedRead => [.memData, .cmpS] | .ownRead => [.memData, .cmpE] | .anyRead => [.memData, .cmpS]
  | .uncachedRead => [.memData] | .ownNoData _ => [.cmpE] | .write .. => [.cmp] | .cleanEvict => [.cmp]

/-- Responses of a private region's request (R164): data for a read, Cmp otherwise. -/
def ReqKind.privateRsp : ReqKind → List Rsp
  | .write .. | .cleanEvict | .ownNoData _ => [.cmp]
  | _ => [.memData]

/-- The responses that complete a request without its data, in a shared or a private region. -/
def ReqKind.failRsp (k : ReqKind) (g : Nat) : List Rsp := if g = 0 then k.privateRsp else k.downRsp

/-- A forwarded request that gets no answer (R282): a read completes with poison, a write is lost. -/
def Dev.remoteFail (d : Dev) (rq : Rq) (tag line : Nat) (k : ReqKind) : Dev :=
  match k with
  | .write .. => (d.discardWrite line).respond rq tag line [.cmp] 0#512 false
  | .cleanEvict => d.respond rq tag line [.cmp] 0#512 false
  | k => d.poisonRead rq tag line (k.failRsp (d.groupOf (lnPage line)))

/-- A write of the same requester to the line was answered with Write Retry and has not completed: later ones wait (R264). -/
def Dev.retryHold (d : Dev) (q : Req) : Bool :=
  q.kind.isWrite && d.cas.fwd.any fun f => f.retried && f.line == q.line && f.rq == q.rq

/-- The message of a forwarded request (R181, R282): the owner's address, the importer, the origin and the hints. -/
def Dev.fwdMsg (d : Dev) (rq : Rq) (tag line : Nat) (k : ReqKind) : Msg :=
  let page := lnPage line
  let e := d.entry page
  let m : Msg := { msg0 with dest := e.t4Dev, src := d.devId, origin := rq.ptr, group := d.groupOf page, tag := tag,
                             addr := e.t4Page * 4096 + lnIdx line * 64, mval := k.opcode.2, pageHint := (d.regionOf page).elim 0 Region.pageHint }
  match k with
  | .write mask x _ _ h => { m with hint := h, mask := mask, data := x }
  | _ => m

/-- A request is a write to a region in the dry state (R116). -/
def Dev.dryWrite (d : Dev) (line : Nat) : ReqKind → Bool
  | .write .. => d.isDry (lnPage line)
  | _ => false

/-- Forward a request for a page in T4 (R23, R181, R282). A read counts toward a Pull. A write to a dry region is discarded (R116). -/
def Dev.forward (d : Dev) (rq : Rq) (tag line : Nat) (k : ReqKind) : Dev :=
  let page := lnPage line
  let d := d.heat page
  if d.dryWrite line k then (d.discardWrite line).respond rq tag line [.cmp] 0#512 false else
  let d := d.pullTrigger page
  let e := d.entry page
  if d.isLost line && !k.isWrite then d.poisonRead rq tag line (k.failRsp (d.groupOf page)) else
  let (t, d) := d.newTag
  let d := match k with | .write .. => d.dirtyPage page | _ => d
  let (d, ok) := d.sendTo k.opcode.1 (d.fwdMsg rq t line k)
  if ok then
    { d with cas := { d.cas with fwd := d.cas.fwd ++ [{ tag := t, rq, rtag := tag, page, line, dest := e.t4Dev,
                                                         read := !k.isWrite, kind := k, since := d.time.loc }] } }
  else (d.remoteFail rq tag line k).restTag t

/-! ### The directory -/

def Hs.ent (h : Hs) (line : Nat) : Option DirEnt := h.dir.find? fun e => e.line == line

/-- Replace, add or free the entry of a line. -/
def Hs.putEnt (h : Hs) (line : Nat) (e : Option DirEnt) : Hs :=
  { h with dir := h.dir.filter (fun x => x.line != line) ++ e.toList }

def Hs.held (h : Hs) (line : Nat) : Bool := h.holds.any fun x => x.line == line

def Hs.setHold (h : Hs) (line : Nat) (f : Hold → Hold) : Hs :=
  { h with holds := h.holds.map fun x => if x.line = line then f x else x }

/-- The entry after a grant to pointer `q` of state `st` with pointers `ps`. -/
def Hs.grant (h : Hs) (line dev g : Nat) (st : DirSt) (ps : List Nat) : Hs :=
  { h.putEnt line (some { line, st, dev, group := g, ptrs := ps, order := h.grants }) with grants := h.grants + 1 }

/-- The snoops that an ordered request sends, by the entry it finds (R176). -/
def Dev.snoopsFor (d : Dev) (dev g ptr : Nat) (k : ReqKind) : Option DirEnt → List (Nat × Snp)
  | none => []
  | some e =>
    let named := (if e.st = .g then d.domMembers dev g else e.ptrs).filter (· != ptr)
    match e.st, k with
    | .s, .ownRead | .s, .ownNoData _ | .g, .ownRead | .g, .ownNoData _ | .e, .ownRead | .e, .ownNoData _ => named.map fun w => (w, .inv)
    | .s, .write .. | .g, .write .. => named.map fun w => (w, .inv)
    | .e, .write .. => named.map fun w => (w, .inv)
    | .e, .sharedRead | .e, .anyRead => named.map fun w => (w, .data)
    | .e, .uncachedRead => named.map fun w => (w, .cur)
    | _, _ => []

/-- The directory after an ordered request, from the entry at the end of its snoops and the response to the owner's snoop
(R176); with the responses to the requester. -/
def Hs.after (h : Hs) (line dev g ptr : Nat) (k : ReqKind) (got : Option SnpRsp) : Hs × List Rsp :=
  let own (rs : List Rsp) := (h.grant line dev g .e [ptr], rs)
  match k with
  | .ownRead => own [.memData, .cmpE]
  | .ownNoData _ => own [.cmpE]
  | .write .. => (h.putEnt line none, [.cmp])
  | .cleanEvict => (h, [.cmp])
  | .uncachedRead =>
    match h.ent line with
    | some e =>
      if e.st = .e then
        match got with
        | some .s => (h.putEnt line (some { e with st := .s }), [.memData])
        | some .i => (h.putEnt line none, [.memData])
        | _ => (h, [.memData])
      else (h, [.memData])
    | none => (h, [.memData])
  | .sharedRead | .anyRead =>
    match h.ent line with
    | none => if k = .anyRead ∧ got.isNone then own [.memData, .cmpE] else (h.grant line dev g .s [ptr], [.memData, .cmpS])
    | some e =>
      match e.st with
      | .g => (h.grant line dev g .g [], [.memData, .cmpS])
      | .s =>
        let ps := if e.ptrs.contains ptr then e.ptrs else e.ptrs ++ [ptr]
        (if ps.length > 4 then h.grant line dev g .g [] else h.grant line dev g .s ps, [.memData, .cmpS])
      | .e =>
        if e.ptrs = [ptr] then (if k = .anyRead then own [.memData, .cmpE] else (h.grant line dev g .s [ptr], [.memData, .cmpS]))
        else if got = some .s then (h.grant line dev g .s (e.ptrs ++ [ptr]), [.memData, .cmpS])
        else (h.grant line dev g .s [ptr], [.memData, .cmpS])

/-- A request kind that is granted an entry when the line has none. -/
def ReqKind.grants : ReqKind → Bool
  | .sharedRead | .ownRead | .anyRead | .ownNoData _ => true
  | _ => false

/-! ### Holds -/

/-- Serve the data of a held request whose snoops are all answered, and apply its transition (R176, R177). -/
def Dev.finishHold (d : Dev) (n : Nat) (x : Hold) : Dev :=
  match x.req with
  | none =>
    -- fence, victim or Release Range (requester 41): the way is freed and the line released
    let d := d.setHs n fun h => { h.putEnt x.line none with holds := h.holds.filter fun y => y.line != x.line }
    d.setHs n fun h => { h with holds := h.holds.map fun y => if y.victim = some x.line then { y with victim := none } else y }
  | some q =>
    let r := (d.hsl n).after x.line x.dev x.group q.rq.ptr q.kind x.got
    let d := d.setHs n fun h => { h with dir := r.1.dir, grants := r.1.grants }
    let d := d.setHs n fun h => h.setHold x.line fun y => { y with responded := true }
    match q.kind with
    | .write m data full _ hnt => d.serveWrite q m data full hnt
    | .ownNoData _ => ((d.heat (lnPage q.line)).dirtyPage (lnPage q.line)).respond q.rq q.tag q.line r.2 0#512 false
    | .ownRead => (d.dirtyPage (lnPage q.line)).serveRead q.rq q.tag q.line r.2
    | .anyRead => (if r.2.contains .cmpE then d.dirtyPage (lnPage q.line) else d).serveRead q.rq q.tag q.line r.2
    | .cleanEvict => d.respond q.rq q.tag q.line r.2 0#512 false
    | _ => d.serveRead q.rq q.tag q.line r.2

/-- The ways of a line's set in use. -/
def Hs.ways (h : Hs) (line : Nat) : List DirEnt := h.dir.filter fun e => dirSet e.line == dirSet line

/-- A line without an entry finds all 16 ways of its set in use (R166). -/
def Hs.setFull (h : Hs) (line : Nat) : Bool := (h.ent line).isNone && decide ((h.ways line).length ≥ 16)

/-- The victim of R174: the least recently granted entry of the set that is not held. -/
def Hs.victim (h : Hs) (line : Nat) : Option DirEnt :=
  ((h.ways line).filter fun e => !h.held e.line).foldl (fun acc e =>
    match acc with | none => some e | some a => if e.order < a.order then some e else acc) none

/-- A hold needs a way that its set has not (R174): its grant, or the guest's Shared copy, gives its line an entry. -/
def Hs.wantsWay (h : Hs) (x : Hold) : Bool := h.setFull x.line && (x.accept || (x.req.elim false fun q => q.kind.grants))

/-- A hold may proceed: its snoops are answered, its victim is gone, and its page is not being promoted (R92). -/
def Dev.holdReady (d : Dev) (x : Hold) : Bool :=
  x.snps.isEmpty && (!x.responded || x.accept) && x.victim.isNone && (x.req.isNone || x.accept || (d.entry (lnPage x.line)).st != .promoting)

/-- Record a hold of a line, and send its snoops (R172). -/
def Dev.addHold (d : Dev) (n line dev g : Nat) (req : Option Req) (snps : List (Nat × Snp)) (victim : Option Nat) : Dev :=
  let x : Hold := { line, dev, group := g, req, snps := snps.map fun s => { who := s.1, kind := s.2 }, victim }
  let d := d.setHs n fun h => { h with holds := h.holds ++ [x] }
  forAll d snps fun d s => d.snoop dev g s.1 line s.2

/-- An eviction or invalidation under requester 41 begins (R169, R174). -/
def Dev.evictLine (d : Dev) (n : Nat) (e : DirEnt) : Dev :=
  let who := if e.st = .g then d.domMembers e.dev e.group else e.ptrs
  (d.setHs n fun h => { h with rr := 0 }).addHold n e.line e.dev e.group none (who.map fun w => (w, .inv)) none

/-- A hold whose grant finds its set full since it was admitted: a victim is evicted first, or the grant is not made and the request
is back on its wait list (R174, R175). -/
def Dev.wayFor (d : Dev) (n : Nat) (x : Hold) : Dev :=
  match (d.hsl n).victim x.line with
  | some v => ((d.raise 118 (hsSlice n)).setHs n fun h => h.setHold x.line fun y => { y with victim := some v.line }).evictLine n v
  | none =>
    (d.raise 115 (hsSlice n)).setHs n fun h =>
      { h with holds := h.holds.filter fun y => y.line != x.line
               waiting := if x.accept then h.waiting else x.req.toList ++ h.waiting
               bounced := if x.accept then h.bounced else x.req.toList ++ h.bounced }

/-- The guest's accepted copy enters the directory and the line is released (R185). -/
def Dev.finishPush (d : Dev) (n : Nat) (x : Hold) : Dev :=
  d.setHs n fun h => { h.grant x.line x.dev x.group .s [16] with holds := h.holds.filter fun y => y.line != x.line }

/-- A hold that may proceed does so; several may follow one another. -/
def Dev.settle (d : Dev) (n : Nat) : Nat → Dev
  | 0 => d
  | fuel + 1 =>
    match (d.hsl n).holds.find? d.holdReady with
    | none => d
    | some x =>
      (if (d.hsl n).wantsWay x then d.wayFor n x else if x.accept then d.finishPush n x else d.finishHold n x).settle n fuel

/-- Start holding a line, with its snoops (R172). -/
def Dev.startHold (d : Dev) (n line dev g : Nat) (req : Option Req) (snps : List (Nat × Snp)) (victim : Option Nat) : Dev :=
  (d.addHold n line dev g req snps victim).settle n 64

/-- Back-invalidate one line on behalf of requester 41: 1 victim, 2 fence, 3 Release Range. -/
def Dev.backInvalidate (d : Dev) (n : Nat) (e : DirEnt) : Dev := (d.evictLine n e).settle n 64

/-! ### Admission -/

/-- Answer a request of a domain that is Down (R188). -/
def Dev.answerDown (d : Dev) (q : Req) : Dev :=
  match q.kind with
  | .write .. | .cleanEvict => d.respond q.rq q.tag q.line [.cmp] 0#512 false
  | k => d.poisonRead q.rq q.tag q.line k.downRsp

/-- A write-back: a MemWr or MemWrPtl from the recorded owner, or a MemClnEvct (R169). -/
def Dev.isWriteBack (d : Dev) (q : Req) : Bool :=
  let (dev, g) := d.domainOf q.rq q.line
  match q.kind with
  | .cleanEvict => true
  | .write .. => g != 0 && (match (d.hsl (d.home (lnPage q.line))).ent q.line with
      | some e => e.st == .e && e.dev == dev && e.group == g && e.ptrs == [q.rq.ptr]
      | none => false)
  | _ => false

/-- A write hint that is usable (R184); a dropped one is counted in HINT_DROP and EV116. -/
def Dev.hintUsable (d : Dev) (q : Req) (h : Hint) (full : Bool) : Bool :=
  let n := d.home (lnPage q.line)
  let (dev, g) := d.domainOf q.rq q.line
  if h.kind = 0 then true
  else if h.kind = 3 then
    h.tile == 10 && d.gst.coherent && d.gst.st == 2 && g != 0 && dev == d.devId && (d.dom g).guest && full
  else h.tile == 6 + n / 16 || h.tile == 15

/-- Drop an unusable hint. -/
def Dev.checkHint (d : Dev) (q : Req) : Dev × Req :=
  match q.kind with
  | .write m x full mv h =>
    if d.hintUsable q h full then (d, q)
    else
      let n := d.home (lnPage q.line)
      ((d.setHs n fun s => { s with hintDrop := satInc 65535 s.hintDrop }).raise 116 (hsSlice n),
       { q with kind := .write m x full mv { kind := 0, tile := 0 } })
  | _ => (d, q)

/-- A write-back takes effect at once, held line or not (R170, R176). -/
def Dev.admitWriteBack (d : Dev) (q : Req) : Dev :=
  let n := d.home (lnPage q.line)
  let (dev, g) := d.domainOf q.rq q.line
  if g ≠ 0 ∧ d.domState dev g = 2 then d.answerDown q
  else if (d.entry (lnPage q.line)).remote then d.forward q.rq q.tag q.line q.kind
  else
    let (d, q) := d.checkHint q
    match q.kind with
    | .write m data full mv h =>
      let d := d.setHs n fun s =>
        match s.ent q.line, mv with
        | some _, .i => s.putEnt q.line none
        | some e, .s => s.putEnt q.line (some { e with st := .s })
        | _, _ => s
      if (d.entry (lnPage q.line)).st = .promoting then d.writePromoting q m data full
      else d.serveWrite q m data full h
    | _ =>
      let d := if g = 0 then d else d.setHs n fun s =>
        match s.ent q.line with
        | some e =>
          if e.st = .g ∨ !(e.ptrs.contains q.rq.ptr) ∨ e.dev ≠ dev ∨ e.group ≠ g then s
          else
            let ps := e.ptrs.filter (· != q.rq.ptr)
            s.putEnt q.line (if ps.isEmpty then none else some { e with ptrs := ps })
        | none => s
      d.respond q.rq q.tag q.line [.cmp] 0#512 false

/-- Admit one ordered request (R169, R172, R176). The Bool says that it was admitted rather than sent back to its wait list
for want of a way (R175). -/
def Dev.admitReq (d : Dev) (q : Req) : Dev × Bool :=
  let n := d.home (lnPage q.line)
  let (dev, g) := d.domainOf q.rq q.line
  let d := d.setHs n fun h => { h with rr := (q.rq.num + 1) % 42 }
  let (d, q) := d.checkHint q
  if (d.entry (lnPage q.line)).remote && (g == 0 || d.domState dev g != 2) then (d.forward q.rq q.tag q.line q.kind, true)
  else if g = 0 then
    match q.kind with
    | .write m data full _ h => (d.serveWrite q m data full h, true)
    | .ownNoData _ => ((d.heat (lnPage q.line)).respond q.rq q.tag q.line [.cmp] 0#512 false, true)
    | k => (d.serveRead q.rq q.tag q.line k.privateRsp, true)
  else if d.domState dev g = 2 then (d.answerDown q, true)
  else
    let h := d.hsl n
    let ent := h.ent q.line
    let snps := d.snoopsFor dev g q.rq.ptr q.kind ent
    if q.kind.grants && h.setFull q.line then
      match h.victim q.line with
      | none => (d.raise 115 (hsSlice n), false)
      | some v =>
        let d := d.raise 118 (hsSlice n)
        let d := d.startHold n q.line dev g (some q) snps (some v.line)
        (d.backInvalidate n v, true)
    else (d.startHold n q.line dev g (some q) snps none, true)

/-- A request must wait: its page is being promoted, or lies on a Retired rank and misses the cistern (R92, R246). -/
def Dev.mustWait (d : Dev) (line : Nat) : Bool :=
  let e := d.entry (lnPage line)
  e.st == .promoting || (d.onRetired e && (d.cistLine line).isNone && e.poison != 2 && !d.isLost line)

/-- A waiting request for a page on a Retired rank moves the page's Evacuate job to the head of the queue (R246). -/
def Dev.frontEvac (d : Dev) (page : Nat) : Dev :=
  let k := d.homeTile page
  match (d.tile k).queue.find? fun j => j.page == page && j.ty == 7 with
  | some _ => d.setTile k fun t =>
      { t with queue := { ty := 7, page := page, front := true } :: t.queue.filter fun j => !(j.page == page && j.ty == 7) }
  | none => d.queueJob 7 page true

/-- A line is held (R164, R172): by a transaction of a shared region, or by a private read whose response has not left. -/
def Dev.lineHeld (d : Dev) (n line : Nat) : Bool := (d.hsl n).held line || d.reads.any fun r => r.line == line

/-- A request that found every way of its set held waits until one of its lines is released (R175). -/
def Hs.noWay (h : Hs) (q : Req) : Bool := h.bounced.contains q && h.setFull q.line && (h.victim q.line).isNone

/-- An ordered request is eligible (R169): its domain is served or Down, its line not held, and nothing of its own or of the
page stands before it. -/
def Dev.eligible (d : Dev) (n : Nat) (q : Req) : Bool :=
  let (dev, g) := d.domainOf q.rq q.line
  !d.asleep && !(d.lineHeld n q.line) && !d.mustWait q.line && !d.retryHold q && (g == 0 || d.domState dev g != 1) && !(d.hsl n).noWay q

/-- Requests that a home slice holds, pending and admitted (R171). -/
def Dev.slicePlaces (d : Dev) (n : Nat) : Nat :=
  (d.hsl n).waiting.length + ((d.hsl n).holds.filter fun x => x.req.isSome).length +
    (d.reads.filter fun r => d.home (lnPage r.line) == n && (d.domainOf r.rq r.line).2 == 0).length

/-- The home slice has a credit to give (R171). -/
def Dev.hasCredit (d : Dev) (n : Nat) : Bool := decide (d.slicePlaces n < 256)

/-- A request joins its wait list. -/
def Dev.enlist (d : Dev) (n : Nat) (q : Req) : Dev :=
  let d := d.setHs n fun h => { h with waiting := h.waiting ++ [q] }
  if d.onRetired (d.entry (lnPage q.line)) then d.frontEvac (lnPage q.line) else d

/-- The places of a home slice in use when a request reaches it, and whose it is, for the load index of R77. -/
def Dev.noteLoad (d : Dev) (q : Req) : Dev :=
  let n := d.home (lnPage q.line)
  let v := d.slicePlaces n + 1
  d.setHs n fun h => { h with peakQ := max h.peakQ v
                              servedQ := match q.rq with
                                | .head x => if h.servedQ.contains x then h.servedQ else h.servedQ ++ [x]
                                | _ => h.servedQ }

/-- A request reaches its home slice (R169 to R171). A write-back takes effect at once, and is never made to wait (R170). Without a
credit an ordered request stays at its own port. A request to a private line that finds no other eligible request is what the
arbiter's present cycle admits; any other waits for an admission, as every request does that reaches a sleeping slice (R335). -/
def Dev.arrive (d : Dev) (q : Req) : Dev :=
  let n := d.home (lnPage q.line)
  let (dev, g) := d.domainOf q.rq q.line
  if d.isWriteBack q && !d.asleep && (g == 0 || d.domState dev g != 1) then d.admitWriteBack q
  else if !(d.hsl n).noCredit.isEmpty || !d.hasCredit n then d.setHs n fun h => { h with noCredit := h.noCredit ++ [q] }
  else if g = 0 && d.eligible n q && !((d.hsl n).waiting.any fun w => lnPage w.line == lnPage q.line || d.eligible n w) then (d.admitReq q).1
  else d.enlist n q

/-- Credits returned let requests in that wait at their ports, the longest-waiting first (R171). -/
def Dev.useCredits (d : Dev) (n : Nat) : Nat → Dev
  | 0 => d
  | fuel + 1 =>
    match (d.hsl n).noCredit with
    | [] => d
    | q :: rest => if d.hasCredit n then ((d.setHs n fun h => { h with noCredit := rest }).enlist n q).useCredits n fuel else d

/-- A request of a head, the guest or another device to a line: to its home slice, or forwarded when the page is in T4 (R18,
R23). It is a wake source (R335, R342). -/
def Dev.request (d : Dev) (q : Req) : Dev :=
  let d := (d.wake 2 q.rq.num).setPwr fun p => { p with idleSince := d.time.loc }
  let (dev, g) := d.domainOf q.rq q.line
  if (d.entry (lnPage q.line)).remote && !d.asleep then
    if g ≠ 0 ∧ d.domState dev g = 2 then d.answerDown q
    else if d.retryHold q ∨ (g ≠ 0 ∧ d.domState dev g = 1) then d.setHs (d.home (lnPage q.line)) fun h => { h with waiting := h.waiting ++ [q] }
    else d.forward q.rq q.tag q.line q.kind
  else (d.noteLoad q).arrive q

/-- The request the arbiter takes next (R169): the first eligible requester at or after the pointer, its oldest request. -/
def Dev.pickOrdered (d : Dev) (n : Nat) : Option Req :=
  let h := d.hsl n
  let el := (h.waiting.zipIdx).filter fun x =>
    d.eligible n x.1 && !d.isWriteBack x.1 &&
      !(h.waiting.take x.2).any (fun w => w.line == x.1.line && w.rq == x.1.rq)
  (el.foldl (fun (acc : Option (Nat × Req)) x =>
    let dist := (x.1.rq.num + 42 - h.rr) % 42
    match acc with | none => some (dist, x.1) | some a => if dist < a.1 then some (dist, x.1) else acc) none).map Prod.snd

/-- The write-back that the arbiter takes next: ascending requester number. -/
def Dev.pickWriteBack (d : Dev) (n : Nat) : Option Req :=
  ((d.hsl n).waiting.filter fun q =>
      let (dev, g) := d.domainOf q.rq q.line
      d.isWriteBack q && !d.asleep && !d.retryHold q && (g == 0 || d.domState dev g != 1)).foldl (fun (acc : Option Req) q =>
    match acc with | none => some q | some a => if q.rq.num < a.rq.num then some q else acc) none

/-- Take one request off a wait list. -/
def Hs.unwait (h : Hs) (q : Req) : Hs := { h with waiting := h.waiting.erase q, bounced := h.bounced.erase q }

/-- One admission cycle of a home slice (R169): a write-back, then an ordered request, which keeps its place when every way of its set is
held (R175). -/
def Dev.arbitrate (d : Dev) (n : Nat) : Dev :=
  let d := d.useCredits n 256
  let d := match d.pickWriteBack n with
    | none => d
    | some q => (d.setHs n fun h => h.unwait q).admitWriteBack q
  match d.pickOrdered n with
  | none => d
  | some q =>
    let r := (d.setHs n fun h => h.unwait q).admitReq q
    if r.2 then r.1.useCredits n 256
    else r.1.setHs n fun h => { h with waiting := (d.hsl n).waiting, bounced := h.bounced ++ [q] }

/-! ### Directory errors (R191) -/

/-- A slice's directory is corrupted: every domain with a region here goes down, and every remote domain it tracks. -/
def Dev.corruptDir (d : Dev) (n : Nat) : Dev :=
  let d := (d.setHs n fun h => { h with ue := satInc 65535 h.ue }).raise 114 (hsSlice n)
  let d := forAll d ((List.range 256).filter fun g => g != 0 && (d.dom g).st != .none) fun d g => d.detectDown d.devId g 6 31 (hsSlice n)
  forAll d ((d.hsl n).dir.filter fun e => e.dev != d.devId) fun d e => d.detectDown e.dev e.group 6 31

/-- The lines whose entries an admission cycle reads: those of the write-back and of the ordered request, and a victim's. -/
def Dev.linesRead (d : Dev) (n : Nat) : List Nat :=
  let qs := (d.pickWriteBack n).toList ++ (d.pickOrdered n).toList
  qs.map Req.line ++ qs.filterMap fun q =>
    if q.kind.grants && (d.hsl n).setFull q.line then ((d.hsl n).victim q.line).map DirEnt.line else none

/-- Apply the SECDED finding of an admission, if it reads an entry. The Bool says that admission goes on. -/
def Dev.dirCheck (d : Dev) (n : Nat) (ecc : DirEcc) : Dev × Bool :=
  if (d.linesRead n).any fun l => ((d.hsl n).ent l).isSome then
    match ecc with
    | .good => (d, true)
    | .single => ((d.setHs n fun h => { h with ce := satInc 65535 h.ce }).raise 113 (hsSlice n), true)
    | .corrupt => (d.corruptDir n, false)
    | .word w => if dirBad w then (d.corruptDir n, false) else (d, true)
  else (d, true)

/-! ### Snoop responses (R178) -/

def snpAllows : Snp → SnpRsp → Bool
  | .inv, .i => true
  | .data, .s => true | .data, .i => true
  | .cur, .i => true | .cur, .s => true | .cur, .e => true
  | _, _ => false

/-- A response from a member of a domain to a snoop of a line. -/
def Dev.snoopResponse (d : Dev) (dev g who line : Nat) (r : SnpRsp) : Dev :=
  let n := d.home (lnPage line)
  match (d.hsl n).holds.find? fun x => x.line == line && x.dev == dev && x.group == g && x.snps.any fun s => s.who == who with
  | none => d.raise 117 (hsSlice n)
  | some x =>
    match x.snps.find? fun s => s.who == who with
    | none => d
    | some s =>
      if snpAllows s.kind r then
        let d := d.setHs n fun h => h.setHold line fun y =>
          { y with snps := y.snps.filter (fun s => s.who != who), got := if s.kind = .inv then y.got else some r }
        -- a write-back may have left the owner as a sharer meanwhile; BIRspI says that it holds no copy
        let d := if s.kind ≠ .inv ∧ r = .i then d.setHs n fun h => match h.ent line with
            | some e => if e.st = .s then
                let ps := e.ptrs.filter (· != who)
                h.putEnt line (if ps.isEmpty then none else some { e with ptrs := ps }) else h
            | none => h
          else d
        d.settle n 64
      else (d.raise 117 (hsSlice n)).detectDown dev g 5 (if dev = d.devId then who else 17) (hsSlice n)

/-! ### Domain down (R188) -/

/-- Complete a transaction of a domain that has gone down. -/
def Dev.abandonHold (d : Dev) (x : Hold) : Dev :=
  match x.req with
  | some q => if x.responded then d else d.answerDown q
  | none => d

/-- A write that waits for an inline promotion has not been applied: it is discarded and answered (R188). -/
def Dev.dropPromos (d : Dev) (dev g : Nat) : Dev :=
  let mine (x : Promo) : Bool := !x.dropped && d.domainOf x.req.rq x.req.line == (dev, g)
  let xs := d.promos.filter mine
  forAll { d with promos := d.promos.map fun x => if mine x then { x with dropped := true } else x } xs fun d x =>
    d.respond x.req.rq x.req.tag x.req.line [.cmp] 0#512 false

/-- What every home slice does for a domain at the boundary after detection. -/
def Dev.downSlices (d : Dev) (dev g : Nat) : Dev :=
  let d := d.dropPromos dev g
  -- reads whose data is on its way
  let mine (r : ReadIn) : Bool := d.domainOf r.rq r.line == (dev, g)
  let rs := d.reads.filter mine
  let d := { d with reads := d.reads.filter fun r => !mine r }
  let d := forAll d rs fun d r => d.poisonRead r.rq r.tag r.line r.rsp
  forAll d (List.range d.nHs) fun d n =>
    let h := d.hsl n
    let d := forAll d (h.holds.filter fun x => x.dev == dev && x.group == g) fun d x => d.abandonHold x
    let ws := h.waiting.filter fun q => d.domainOf q.rq q.line == (dev, g)
    let d := d.setHs n fun h =>
      { h with holds := (h.holds.filter fun x => !(x.dev == dev && x.group == g)).map fun y =>
                 { y with victim := match y.victim with
                            | some l => if h.dir.any (fun e => e.line == l && e.dev == dev && e.group == g) then none else some l
                            | none => none }
               dir := h.dir.filter fun e => !(e.dev == dev && e.group == g)
               waiting := h.waiting.filter fun q => !(ws.contains q)
               bounced := h.bounced.filter fun q => !(ws.contains q) }
    let d := forAll d ws fun d q => d.answerDown q
    (d.settle n 64).useCredits n 256

/-- Handle a domain of this device going down (R188, R189): its state, its event and records, its broadcast. -/
def Dev.handleDown (d : Dev) (g : Nat) : Dev :=
  match (d.dom g).detected with
  | none => d
  | some (cause, source, stroke) =>
    let d := d.setDom g fun x =>
      { x with st := .down, cause := cause, source := source, stroke := stroke % 2 ^ 32, detected := none, acks := [], ackAll := false }
    let d := d.downSlices d.devId g
    let heads := (d.domMembers d.devId g).filter fun h => h < 16 && d.attached h
    let d := d.raiseI 111 { detail := [g, cause], heads := heads }
    let d := d.record ((heads ++ d.mgrs).eraseDups) (evLog 111) .vendor 256 cause 0 [g, cause]
    if cause = 7 then d
    else d.broadcast 1 { bcast0 with dev := d.devId, group := g, cause := cause, stroke := BitVec.ofNat 64 stroke }

/-- Handle a domain of another device going down here (R188, R189): none of its members is a head of this device. -/
def Dev.handleRemoteDown (d : Dev) (key code : Nat) : Dev :=
  let cause := if code = 1 then 7 else code - 16
  let at_ := (Tbl.look d.remAt key).getD d.pool
  let d := { d with remDown := Tbl.put d.remDown key 2 }
  let d := d.downSlices (key / 256) (key % 256)
  let d := d.raiseI 111 { detail := [key / 256, key % 256] }
  let d := d.record d.mgrs (evLog 111) .vendor 256 cause 0 [key / 256, key % 256, cause]
  if code = 1 then d
  else d.broadcast 1 { bcast0 with dev := key / 256, group := key % 256, cause := cause, stroke := BitVec.ofNat 64 at_ }

/-- Release a hold whose transaction is acknowledged (R172): its place is free (R171). A write that waits for an inline promotion has
not had its response yet. -/
def Dev.releaseHold (d : Dev) (n line : Nat) : Dev :=
  if d.promos.any fun x => x.req.line == line && !x.dropped then d
  else (d.setHs n fun h => { h with holds := h.holds.filter fun x => !(x.line == line && x.responded && !x.push && !x.accept) }).useCredits n 256

end Sys2Proof.Machine
end

