-- ==== Sys2Proof/Machine/Dram.lean ====
section
/-! DEFINITION. The DRAM channels (R195 to R220) and stored-data integrity (R222 to R248): requests, corrections, remapping
and soft repair, scrubbing, refresh, calibration, retraining, bring-up, rank retirement and the evacuation walk. -/

namespace Sys2Proof.Machine

open Sys2Proof

/-! ### Modules and rates (R195, R196) -/

/-- The granule number of the device at granule `g` of channel `ch`'s window (R199), and a number within the window. -/
def chGran (ch g : Nat) : Nat := 2 ^ 32 * ch + g
def granOf (g : Nat) : Nat := g % 2 ^ 32

/-- Data rate in MT/s of a rate code. -/
def rateMts (c : Nat) : Nat := [4800, 5200, 5600, 6000, 6400, 8000, 8800].getD c 0

/-- A module is supported in a channel with one or with two modules. -/
def dimmOk (m : Dimm) (two : Bool) : Bool :=
  m.x4 && m.ecc40 && (m.dieGb == 16 || m.dieGb == 32) && [1, 2, 4].contains m.ranks &&
    (if m.mrdimm then [1, 2, 4].contains m.stack && !two else [1, 2, 4, 8].contains m.stack) &&
    decide (m.ranks * dimmFrames m ≤ 2 ^ 26)

def dimmsAgree (a b : Dimm) : Bool := a.mrdimm == b.mrdimm && a.dieGb == b.dieGb && a.ranks == b.ranks && a.stack == b.stack

/-- A module may be brought up beside what the other slot holds: nothing, or a module that it must agree with. -/
def fitsBeside (m : Dimm) : Option Dimm → Bool
  | none => dimmOk m false
  | some n => dimmOk m true && dimmsAgree m n

/-- Whether the module of each slot may be brought up when both are fitted anew: slot 0's alone where the two disagree. -/
def slotsOk (a b : Option Dimm) : Bool × Bool :=
  (a.elim false fun m => dimmOk m b.isSome, b.elim false fun n => fitsBeside n a)

/-- The modules that a channel runs once the given slots have been looked at (R195), from the modules fitted: a module already brought up
stays while it is fitted, and a newcomer must agree with it. -/
def Chan.modules (c : Chan) (slots : List Nat) (a b : Option Dimm) : Option Dimm × Option Dimm :=
  let old0 := if a.isSome then c.dimm0 else none
  let old1 := if b.isSome then c.dimm1 else none
  if slots.contains 0 then
    if slots.contains 1 then (a.filter fun _ => (slotsOk a b).1, b.filter fun _ => (slotsOk a b).2)
    else (a.filter fun m => fitsBeside m old1, old1)
  else if slots.contains 1 then (old0, b.filter fun n => fitsBeside n old0)
  else (old0, old1)

/-- The rate of a channel for the modules brought up: the highest rate code that every limit allows. -/
def rateFor (ms : List Dimm) (maxCode : Nat) : Option Nat :=
  match ms with
  | [] => none
  | m :: _ =>
    let table := if m.mrdimm then 8800 else if ms.length = 2 then 5600 else 6400
    let lim := (ms.map Dimm.rate).foldl min (min table (rateMts maxCode))
    ((if m.mrdimm then [6, 5] else [4, 3, 2, 1, 0]).find? fun c => decide (rateMts c ≤ lim))

/-- `MAX_RATE` of a channel. -/
def Dev.maxRate (d : Dev) (c : Nat) : Nat := d.fld (chBase c) 31 28

/-- Timing parameter `id` in use: the derived value, lengthened by the timing records for this rate (R204). -/
def Dev.timingOf (d : Dev) (c : Nat) (m : Dimm) (rate id : Nat) : Nat :=
  let recs := d.cfg.primed.timing.filter fun t => t.rate == rateMts rate && (t.ch == c || t.ch == 255)
  let vs := recs.flatMap fun t => (t.ents.filter fun e => e.1 == id).map Prod.snd
  vs.foldl max (Config.ddrTiming (rateMts rate) m.dieGb m.stack id)

/-- A timing record for this channel names another rate (R204). -/
def Dev.timingIgnored (d : Dev) (c rate : Nat) : Bool :=
  d.cfg.primed.timing.any fun t => (t.ch == c || t.ch == 255) && t.rate != rateMts rate

/-! ### Storage of a rank -/

def Dev.rankRef (d : Dev) (c r : Nat) : RankRef := { ch := c, r := r, base := d.rankBase c r, cap := d.rankCap c r }

/-- The rank holds storage: frames of kind 1 to 5 (R245). -/
def Dev.rankHolds (d : Dev) (c r : Nat) : Bool := decide (d.kindCount (d.rankRef c r) [1, 2, 3, 4, 5] > 0)

/-- The pages whose storage includes a frame. -/
def Dev.pagesAt (d : Dev) (f : Nat) : List (Nat × MapEntry) := d.wmap.filter fun x => x.2.frames.contains f

/-- Byte `x` of a segment's run is read to decode its page `p`: the header, or a stream from the restart point on. -/
def segReads (b : List Byte) (p x : Nat) : Bool :=
  let r := p - p % max 1 (fieldAt b 4 1)
  decide (x < 128) || (decide (128 + segStart b r < x + 128) && decide (x < 128 + segEnd b p))

/-- The pages whose data a granule holds, or helps to decode. -/
def Dev.pagesAtGran (d : Dev) (pg : Nat) : List (Nat × MapEntry) :=
  (d.pagesAt (pg / 32)).filter fun x =>
    let e := x.2
    if e.tier = 0 then true
    else if e.tier = 1 then decide (e.slot ≤ pg / 2) && decide (pg / 2 < e.slot + e.slots)
    else segReads (d.segHeader e) e.segIdx ((pg - e.frame * 32) * 128)

/-! ### Metadata (R87, R147, R242) -/

/-- Frames of a tile, and the runs that its frame table fills: 16,384 records of 4 bytes to a run. -/
def Dev.tileFrames (d : Dev) (k : Nat) : Nat := ((d.tileRanks k).map RankRef.cap).sum
def Dev.tableRuns (d : Dev) (k : Nat) : Nat := (d.tileFrames k + 16383) / 16384

/-- The `i`-th frame of a tile, over its ranks in order. -/
def nthFrame : List RankRef → Nat → Option Nat
  | [], _ => none
  | q :: qs, i => if i < q.cap then some (q.base + i) else nthFrame qs (i - q.cap)

/-- The `i`-th page homed on a tile, in ascending order: every aligned group of 64 pages has as many on each tile. -/
def Dev.nthHomed (d : Dev) (k i : Nat) : Option Nat :=
  let n := 64 / max 1 d.nTiles
  (((List.range 64).map (i / n * 64 + ·)).filter fun g => d.homeTile g == k)[i % n]?

/-- Where a Metadata granule stands: its tile, the number of its run among the tile's, and its place in the run. -/
def Dev.metaPlace (d : Dev) (pg : Nat) : Option (Nat × Nat × Nat) :=
  let f := pg / 32
  let at_ (g : Nat) : Bool := decide (g ≤ f) && decide (f < g + 16)
  (d.metaRuns.find? fun m => at_ m.prim || m.mirror.elim false at_).map fun m =>
    let base := if at_ m.prim then m.prim else m.mirror.getD 0
    (m.tile, (((d.metaRuns.filter fun x => x.tile == m.tile).findIdx? (· == m)).getD 0), pg - base * 32)

/-- The well map entries (pages) and the frame-table records (frames) in a Metadata granule. The frame table fills a tile's first runs
and the entries of its homed pages, in ascending order, the rest: a DESIGN CHOICE (log entry 73), since R87 states no layout. -/
def Dev.metaHolds (d : Dev) (pg : Nat) : List Nat × List Nat :=
  match d.metaPlace pg with
  | none => ([], [])
  | some (k, r, o) =>
    if r < d.tableRuns k then ([], (List.range 32).filterMap fun i => nthFrame (d.tileRanks k) (r * 16384 + o * 32 + i))
    else ((List.range 8).filterMap fun i => d.nthHomed k ((r - d.tableRuns k) * 4096 + o * 8 + i), [])

/-- A frame-table record as stored: KIND in bits [31:28], the mask in bits [15:0]. -/
def FrameRec.word (x : FrameRec) : Nat := x.kind * 2 ^ 28 + x.mask.toNat

/-- The 128 bytes of a Metadata granule before encryption. -/
def Dev.metaBytes (d : Dev) (pg : Nat) : List Byte :=
  let h := d.metaHolds pg
  let bs := h.1.flatMap (fun g => leBytes 16 (d.entry g).encode.toNat) ++ h.2.flatMap fun f => leBytes 4 (d.frameRec f).word
  bs ++ List.replicate (128 - bs.length) 0#8

/-- A frame of a rank's probe row (R199). -/
def Dev.onProbeRow (d : Dev) (f : Nat) : Bool :=
  match d.place f with
  | none => false
  | some p => (d.rankDimm p.ch p.r).elim false fun m => decide (dimmProbe m ≤ p.off) && decide (p.off < dimmProbe m + 4)

/-- The 128 bytes that stand in DRAM at a granule, as the check bytes cover them (R146, R147): Metadata under domain 0, the calibration
pattern of a probe row as it is, all other storage as it was sealed. -/
def Dev.storedBytes (d : Dev) (pg : Nat) : List Byte :=
  if (d.frameRec (pg / 32)).kind = 5 then d.seal 0 (pg / 32 * 4096) (pg % 32 * 8) (d.metaBytes pg)
  else if d.onProbeRow (pg / 32) then (List.range 128).map fun i => Config.probeByte (pg % 128 * 128 + i)
  else Memory.readN dramBlank d.dram (pg * 128) 128

/-- A Metadata granule's run has no mirror to serve it (R242: a tile with one populated rank). -/
def Dev.unmirrored (d : Dev) (pg : Nat) : Bool :=
  d.metaRuns.any fun m => decide (m.prim ≤ pg / 32) && decide (pg / 32 < m.prim + 16) && m.mirror.isNone

/-- An uncorrectable read of a Metadata granule: served from the mirror, or the entries and records in it given up. -/
def Dev.metaUe (d : Dev) (pg : Nat) (mirrorBad : Bool) : Dev :=
  let d := d.raise 140 (mtSlice (frameTile (pg / 32)))
  if mirrorBad ∨ d.unmirrored pg then
    let held := d.metaHolds pg
    let d := forAll d (held.1.filter d.homed) fun d page =>
      let e := d.entry page
      let d := if e.st != .unbacked && e.tier == 0 then d.setFrame e.frame 7 0#16 else d
      let d := ((d.setEntry page { poison := 2, kdom := e.kdom }).foundPage page).dropCand page
      (d.raise 143 (hsSlice (d.home page))).mediaRecord (page * 4096) 4096 0 3
    forAll d held.2 fun d f => d.setFrame f 7 0#16
  else d

/-! ### Uncorrectable granules -/

/-- What becomes of the data of an uncorrectable granule that a home slice or the scrubber met (R236, R237, R238); `scrub`
adds the scrubber's General Media record. -/
def Dev.ueAt (d : Dev) (pg : Nat) (scrub : Bool) : Dev :=
  let f := pg / 32
  let k := (d.frameRec f).kind
  if k = 5 then d.metaUe pg false
  else if k = 0 ∨ k = 6 then (if scrub then d.setFrame f 7 0#16 else d)
  else forAll d (d.pagesAtGran pg) fun d x =>
    let d := if scrub then d.mediaRecord (x.1 * 4096 + (if x.2.tier = 0 then pg % 32 * 128 else 0))
        (if x.2.tier = 0 then 128 else 4096) 0 2 else d
    if x.2.tier = 0 then d.poisonGran x.1 (x.1 * 32 + pg % 32) pg 3 else d.losePage x.1

/-- A pump halts (R109): 1 uncorrectable read, 2 CRC-32C failure, 3 write failure. -/
def Dev.haltPump (d : Dev) (p cause page gran : Nat) : Dev :=
  (d.setPump p fun x => { x with st := 5, halt := cause, haltPage := page, haltGran := gran, haltAt := d.time.loc }).raise 86 (pumpSlice p) cause

/-- A read meets an uncorrectable granule (R237). -/
def Dev.readUe (d : Dev) (pg : Nat) (who : Reader) : Dev :=
  let d := d.meetUe pg
  let f := pg / 32
  match who with
  | .home id =>
    let d := { d with reads := d.reads.map (fun r => if r.id = id then { r with failed := true } else r)
                      promos := d.promos.map fun p => if p.old.frames.contains f then { p with failed := true } else p }
    if d.promos.any fun p => p.old.frames.contains f then d else d.ueAt pg false
  | .pump p =>
    match (d.pump p).job with
    | some j =>
      match j.pages.find? fun x => x.2.frames.contains f with
      | some x => d.haltPump p 1 x.1 pg
      | none => d
    | none => d
  | .scrub => (d.setChan (pg / 2 ^ 32) fun c => { c with ueFound := satInc 255 c.ueFound }).ueAt pg true
  | .metadata mirrorBad => d.metaUe pg mirrorBad

/-! ### Corrections (R226 to R231) -/

/-- DRAM record detail: channel, rank, device, bank group, bank, row, column, maintenance needed. -/
def dramDetail (p : Place) (a : DramAddr) (dev maint : Nat) : List Nat := [p.ch, p.r, dev, a.bg, a.ba, a.row, a.col, maint]

/-- Queue the Evacuate job of a page; the pages of one segment share a job (R245). -/
def Dev.queueEvac (d : Dev) (page : Nat) : Dev :=
  let e := d.entry page
  if e.tier = 2 ∧ ((tileList d).any fun k => (d.tile k).queue.any fun j => j.ty == 7 && (d.entry j.page).st == .stable &&
      (d.entry j.page).tier == 2 && (d.entry j.page).frame == e.frame) then d
  else if (tileList d).any fun k => (d.tile k).stuck.contains page then d
  else d.queueJob 7 page

/-- A job names a Metadata run by the number of its first frame, above every page number. -/
def metaPage (f : Nat) : Nat := 2 ^ 40 + f

/-- Queue the move of a copy of a Metadata run on its own tile (R87). -/
def Dev.queueMeta (d : Dev) (k f : Nat) : Dev :=
  if d.pageBusy (metaPage f) ∨ (d.tile k).queue.length ≥ 256 ∨ (d.tile k).stuck.contains (metaPage f) then d
  else d.setTile k fun t => { t with queue := t.queue ++ [{ ty := 7, page := metaPage f }] }

/-- First frames of the copies of Metadata runs that take in frame `f`. -/
def Dev.runsAt (d : Dev) (f : Nat) : List (Nat × Nat) :=
  d.metaRuns.flatMap fun m => ((m.prim :: m.mirror.toList).filter fun g => decide (g ≤ f) && decide (f < g + 16)).map fun g => (m.tile, g)

/-- The four frames of the row of a granule. -/
def rowFrames (pg : Nat) : List Nat := (List.range 4).map (pg / 128 * 4 + ·)

/-- Remap the row of a granule (R231). The entry has REMAP already. -/
def Dev.remapRow (d : Dev) (pg dev : Nat) : Dev :=
  match d.granPlace pg with
  | none => d
  | some (p, a) =>
    let full := decide ((d.chan p.ch).repair.length ≥ 8)
    let d := if full then d else
      d.setChan p.ch fun c => { c with repair := c.repair ++ [{ gran := pg, r := p.r, dev := dev, frame := pg / 128 * 4 }] }
    let d := forAll d (rowFrames pg) fun d f =>
      let k := (d.frameRec f).kind
      if k = 0 ∨ k = 6 then d.setFrame f 7 0#16
      else if k = 5 then forAll d (d.runsAt f) fun d x => d.queueMeta x.1 x.2
      else forAll d (d.pagesAt f) fun d x => d.queueEvac x.1
    let d := (d.raise 133 (chanSlice p.ch)).mgrRecord .warning .dram (dramDetail p a dev 1)
    if full then (d.setChan p.ch fun c => { c with pprFailed := satInc 255 c.pprFailed }).raise 135 (chanSlice p.ch) else d

/-- One more distinct hard granule of a device (R223, R230). -/
def Dev.hardGran (d : Dev) (p : Place) (a : DramAddr) (dev : Nat) : Dev :=
  let n := satInc 255 (Tbl.get (0, 0) (d.rank p.ch p.r).ce dev).2
  let d := d.setRank p.ch p.r fun r => { r with ce := Tbl.upd (0, 0) r.ce dev fun x => (x.1, n) }
  let d := (d.raise 132 (chanSlice p.ch)).mgrRecord .warning .dram (dramDetail p a dev 0)
  if n < d.fld 0x380 15 8 then d
  else
    match (d.rank p.ch p.r).mark with
    | none =>
      ((d.setRank p.ch p.r fun r => { r with mark := some dev }).raise 136 (chanSlice p.ch)).mgrRecord .warning .memoryModule [p.ch, p.r, dev]
    | some m => if m = dev then d else d.setRank p.ch p.r fun r => { r with trigger := if r.trigger = 0 then 4 else r.trigger }

/-- The error address table of a channel after a correction of granule `g` on a device (R227, R230), with the entry before
the update; none when the table has no room. -/
def Chan.eatSlot (c : Chan) (g : Nat) : Option EatEnt :=
  match c.eat.find? fun e => e.gran == g with
  | some e => some e
  | none =>
    let fresh (s : Nat) : EatEnt := { slot := s, gran := g }
    if c.eat.length < 16 then ((List.range 16).find? fun s => !(c.eat.any fun e => e.slot == s)).map fresh
    else
      ((c.eat.filter fun e => !e.remap).foldl (fun (acc : Option EatEnt) e =>
        match acc with | none => some e | some a => if e.order < a.order then some e else acc) none).map fun e => fresh e.slot

def Chan.putEat (c : Chan) (e : EatEnt) : Chan :=
  { c with eat := c.eat.filter (fun x => x.slot != e.slot) ++ [{ e with order := c.order }], order := c.order + 1 }

/-- A correction on one device (R226 to R231). -/
def Dev.correction (d : Dev) (pg dev : Nat) : Dev :=
  match d.granPlace pg with
  | none => d
  | some (p, a) =>
    let g := granOf pg
    let d := d.setRank p.ch p.r fun r => { r with ce := Tbl.upd (0, 0) r.ce dev fun x => (satInc 16777215 x.1, x.2) }
    let d := d.raise 130 (chanSlice p.ch)
    match (d.chan p.ch).eatSlot g with
    | none => (d.setChan p.ch fun c => { c with eatLost := satInc 65535 c.eatLost }).raise 142 (chanSlice p.ch)
    | some e =>
      let e := { e with corr := satInc 65535 e.corr, stroke := d.pool % 2 ^ 32, dev := dev }
      let rep := if e.wb then min 2 (e.rep + 1) else e.rep
      let newHard := rep ≥ 1 && !e.hard
      let newMap := rep == 2 && !e.remap
      let e := { e with rep := rep, wb := false, hard := e.hard || newHard, remap := e.remap || newMap }
      let d := d.setChan p.ch fun c => c.putEat e
      let d := if newHard then d.hardGran p a dev else d
      if newMap then d.remapRow pg dev else d

/-- A corrected granule is rewritten by the scrubber (R228): at once when the scrubber found it, else through the queue. -/
def Dev.rewriteLater (d : Dev) (pg : Nat) (atOnce : Bool) : Dev :=
  let g := granOf pg
  d.setChan (pg / 2 ^ 32) fun c =>
    if atOnce then { c with newer := if c.newer.contains g then c.newer else c.newer ++ [g] }
    else if c.rewrite.contains g ∨ c.rewrite.length ≥ 16 then c
    else { c with rewrite := c.rewrite ++ [g] }

/-- A rank's cells can be read: not Off, and not lost (R243). -/
def Rank.readable (r : Rank) : Bool := !(r.lost) && (rankUp r.st || r.st == .retired)

/-- The outcome of reading a granule with an error added. -/
def Dev.readGran (d : Dev) (pg : Nat) (err : List (Nat × Nat)) : EccRes :=
  match d.place (pg / 32) with
  | none => .uncorrectable
  | some p => if (d.rank p.ch p.r).readable then eccDecode (d.rank p.ch p.r).mark (Tbl.get 0 d.poison pg) err else .uncorrectable

/-- A granule's data returns to a reader (R222, R225, R226, R237). -/
def Dev.readReturn (d : Dev) (pg : Nat) (who : Reader) (err : List (Nat × Nat)) : Dev :=
  match d.readGran pg err with
  | .clean => d
  | .poisoned _ => d
  | .corrected dev =>
    let d := match dev with | none => d | some n => d.correction pg n
    d.rewriteLater pg (who == .scrub)
  | .uncorrectable => d.readUe pg who

/-! ### Requests (R200 to R203) -/

/-- The bank's row after an access with a hint: closed by auto-precharge, or open. -/
def Chan.access (c : Chan) (r : Nat) (a : DramAddr) (hint : Nat) : Chan :=
  let rest := c.rows.filter fun x => !(x.r == r && x.bank == a.bank)
  { c with rows := if hint = 2 then rest else rest ++ [{ r := r, bank := a.bank, row := a.row, hint := hint }] }

def Chan.closeRank (c : Chan) (r : Nat) : Chan := { c with rows := c.rows.filter fun x => x.r != r }

/-- DRAIN after the queues change (R201). -/
def Dev.drainCh (d : Dev) (ch : Nat) : Dev :=
  let a := chBase ch + 8
  d.setChan ch fun c => { c with drain := !c.wq.isEmpty && (c.rq.isEmpty || decide (c.wq.length ≥ d.fld a 15 8) ||
    (c.drain && decide (c.wq.length > d.fld a 7 0))) }

/-- The rank of a granule takes reads, or writes. -/
def Dev.chServes (d : Dev) (pg : Nat) (wr : Bool) : Bool :=
  match d.granPlace pg with
  | none => false
  | some (p, _) => let s := (d.rank p.ch p.r).st; p.off < d.rankCap p.ch p.r && (rankUp s || (s == .retired && !wr))

/-- The page-policy hint of a request, by its origin (R203). -/
def Dev.hintOf (d : Dev) (gran : Nat) : ChOrigin → Nat
  | .page p => (d.regionOf p).elim 0 Region.pageHint
  | .terdy h => h % 4
  | .pump => if gran % 32 = 31 then 2 else 1
  | .scrub | .map | .probe => 2

/-- A write enters the write queue. It makes the scrubber's rewrite of its granule void (R229). -/
def Chan.addWrite (c : Chan) (x : ChReq) : Chan := { c with wq := c.wq ++ [x], newer := c.newer.filter (· != x.gran) }

/-- A read enters the read queue, unless a queued write has its data (R200). -/
def Chan.addRead (c : Chan) (x : ChReq) : Chan := if c.wq.any fun y => y.gran == x.gran then c else { c with rq := c.rq ++ [x] }

/-- The largest queue occupancy of the stroke (R202). -/
def Chan.sampled (c : Chan) : Chan := { c with peakQ := max c.peakQ (max c.rq.length c.wq.length) }

/-- A request reaches the slice: with its class's queue full it waits for a credit (R200). -/
def Chan.accept (c : Chan) (wr : Bool) (g hint : Nat) : Chan :=
  let x : ChReq := { gran := g, hint := hint, order := c.order }
  let c := { c with order := c.order + 1 }
  (if wr then (if c.wq.length ≥ 64 ∨ !c.wwait.isEmpty then { c with wwait := c.wwait ++ [x] } else c.addWrite x)
   else if c.rq.length ≥ 64 ∨ !c.rwait.isEmpty then { c with rwait := c.rwait ++ [x] } else c.addRead x).sampled

/-- Credits that a queue's free places return (R200): the requests that have waited longest enter. -/
def Chan.refill (c : Chan) : Chan :=
  let c := match c.wwait with
    | x :: rest => if c.wq.length < 64 then ({ c with wwait := rest }).addWrite x else c
    | [] => c
  (match c.rwait with
   | x :: rest => if c.rq.length < 64 then ({ c with rwait := rest }).addRead x else c
   | [] => c).sampled

/-- The heads whose reads a channel request serves (R77). -/
def Dev.servedHeads (d : Dev) : ChOrigin → List Nat
  | .page p => d.reads.filterMap fun r => match r.rq with
      | .head h => if lnPage r.line = p then some h else none
      | _ => none
  | _ => []

/-- CHANNEL_REQUEST (R200). -/
def Dev.channelRequest (d : Dev) (ch : Nat) (wr : Bool) (gran : Nat) (who : ChOrigin) : Dev :=
  let g := granOf gran
  if ch < d.nChans ∧ !(d.chan ch).selfRef ∧ d.chServes (chGran ch g) wr then
    (d.setChan ch fun c => { c.accept wr g (d.hintOf g who) with servedQ := (c.servedQ ++ d.servedHeads who).eraseDups }).drainCh ch
  else d

/-- A read of a granule was queued before the write of it that would complete now (R200: accesses to one granule keep their order). -/
def Chan.readFirst (c : Chan) (g : Nat) : Bool :=
  match c.wq.find? fun x => x.gran == g with
  | none => false
  | some w => c.rq.any fun x => x.gran == g && decide (x.order < w.order)

/-- A queued access to a granule leaves its queue; what its hint does to the row. -/
def Dev.accessDone (d : Dev) (ch : Nat) (wr : Bool) (g : Nat) : Dev :=
  let c := d.chan ch
  let q := if wr then c.wq else c.rq
  match q.find? fun x => x.gran == g with
  | none => d
  | some x =>
    let d := d.setChan ch fun c => (if wr then { c with wq := c.wq.erase x } else { c with rq := c.rq.erase x }).refill
    (match d.granPlace (chGran ch g) with
    | some (p, a) => d.setChan ch fun c => c.access p.r a x.hint
    | none => d).drainCh ch

/-- DRAM_READ_RETURN (R222). -/
def Dev.dramReadReturn (d : Dev) (ch gran : Nat) (who : Reader) (errs : List (Nat × Byte)) : Dev :=
  let g := granOf gran
  if ch < d.nChans ∧ (d.place (chGran ch g / 32)).isSome then
    (d.accessDone ch false g).readReturn (chGran ch g) who (errNats errs)
  else d

/-- The pump whose destination a frame is. -/
def Dev.destPump (d : Dev) (f : Nat) : Option Nat :=
  (d.pumps.find? fun p => p.2.st != 5 && p.2.job.elim false fun j => j.frames.contains f).map Prod.fst

/-- WRITE_BURST (R229): a write of a granule completes, or fails (R109, R238). -/
def Dev.writeBurst (d : Dev) (ch gran : Nat) (ok : Bool) : Dev :=
  let g := granOf gran
  let pg := chGran ch g
  let c := d.chan ch
  if ch < d.nChans ∧ (c.wq.any (fun x => x.gran == g) ∨ c.newer.contains g) ∧ !c.readFirst g then
    let queued := c.wq.any fun x => x.gran == g
    let d := if queued then d.accessDone ch true g else d.setChan ch fun c => { c with newer := c.newer.filter (· != g) }
    let d := if ok then d.emit (.burst ch g (burstBeats (eccCodeword ((d.storedBytes pg).map BitVec.toNat) (Tbl.get 0 d.poison pg)))) else d
    if ok then d.setChan ch fun c => { c with eat := c.eat.map fun e => if e.gran = g then { e with wb := true } else e }
    else if queued then
      match d.destPump (pg / 32) with
      | some p => d.haltPump p 3 0 pg
      | none =>
        if Tbl.get 0 d.poison pg != 0 then
          forAll d ((d.pagesAt (pg / 32)).filter fun x => x.2.tier == 0) fun d x =>
            (d.loseLine (x.1 * 64 + pg % 32 * 2)).loseLine (x.1 * 64 + pg % 32 * 2 + 1)
        else d
    else d
  else d

/-- AUTO_IDLE_EXPIRY (R203): a row whose last access carried Auto closes. -/
def Dev.autoIdleExpiry (d : Dev) (ch r bank : Nat) : Dev :=
  d.setChan ch fun c => { c with rows := c.rows.filter fun x => !(x.r == r && x.bank == bank && (x.hint == 0 || x.hint == 3)) }

/-! ### Refresh (R205 to R209) -/

/-- A rank that is refreshed by the slice: not Off, Training, Empty or in self-refresh. -/
def Rank.refreshed (r : Rank) : Bool := (rankUp r.st || (r.st == .retired && !r.lost)) && !r.selfRef

/-- Ranks of a channel. -/
def rankList : List Nat := List.range 8

/-- Credit of one stroke of `half` half nanoseconds at rate `m`, in units of 2^-16 (R207); tREFI in ps. -/
def refCredit (half m trefi : Nat) : Nat := if trefi = 0 then 0 else (half * 500 * 65536 * m + trefi - 1) / trefi

/-- Step 5 for one rank: the credit of the stroke just ended, a rise's arrears, the new rate. -/
def Rank.credit (r : Rank) (half trefi : Nat) : Rank :=
  let r := { r with debt := r.debt + refCredit half r.m trefi, credits := half :: r.credits }
  match r.mNew with
  | none => r
  | some m =>
    let rise := (r.credits.map fun h => refCredit h m trefi - refCredit h r.m trefi).sum
    { r with debt := r.debt + (if m > r.m then rise else 0), m := m, mNew := none, credits := [] }

/-- `POSTPONE_MAX`. -/
def Dev.postponeMax (d : Dev) (ch : Nat) : Nat := d.fld (chBase ch + 0xC) 31 29

/-- Step 5 of a boundary for one channel (R207). -/
def Dev.refreshCredit (d : Dev) (ch : Nat) : Dev :=
  let c := d.chan ch
  if c.selfRef then d
  else
    let trefi := Tbl.get 0 c.timing 0x13
    let d := forAll d rankList fun d r =>
      if (d.rank ch r).refreshed then d.setRank ch r fun x => x.credit d.time.lastHalfNs trefi else d
    let beyond := rankList.any fun r => (d.rank ch r).refreshed && decide ((d.rank ch r).debt / 65536 > d.postponeMax ch)
    if beyond && !c.urgent then
      (d.setChan ch fun c => { c with urgent := true, urgentCnt := satInc 255 c.urgentCnt }).raise 120 (chanSlice ch)
    else d

/-- Refresh urgency ends when every rank's debt is below POSTPONE_MAX (R208). -/
def Dev.endUrgent (d : Dev) (ch : Nat) : Dev :=
  if (d.chan ch).urgent && rankList.all (fun r => !(d.rank ch r).refreshed || decide ((d.rank ch r).debt < d.postponeMax ch * 65536)) then
    d.setChan ch fun c => { c with urgent := false }
  else d

/-- REFab to a rank until its debt is below 1 (R219, R232). -/
def Dev.payRefresh (d : Dev) (ch r : Nat) : Dev :=
  (forAll d (List.range ((d.rank ch r).debt / 65536)) fun d _ => d.emit (.dram ch r 1)).setRank ch r fun x => { x with debt := x.debt % 65536 }

/-- REFAB_ISSUE (R208): one all-bank refresh of a rank that owes one. -/
def Dev.refabIssue (d : Dev) (ch r : Nat) : Dev :=
  if ch < d.nChans ∧ r < 8 ∧ !(d.chan ch).selfRef ∧ (d.rank ch r).refreshed ∧ (d.rank ch r).debt ≥ 65536 then
    let d := (d.setRank ch r fun x => { x with debt := x.debt - 65536 }).setChan ch fun c => c.closeRank r
    (d.emit (.dram ch r 1)).endUrgent ch
  else d

/-- Rate of an MR4 indication (R206): 0 slower than 1x, 1 for 1x, 2 for 2x, 3 for 4x, more above the range. -/
def mr4Rate (code : Nat) : Nat := if code ≤ 1 then 1 else if code = 2 then 2 else 4

/-- The rate a rank takes from an MR4 read, with the floor of MIN_RATE. -/
def Dev.mr4Floor (d : Dev) (ch code : Nat) : Nat := max (mr4Rate code) (d.fld (chBase ch + 0xC) 28 27)

/-- One rank's MR4 result (R206). -/
def Dev.mr4Rank (d : Dev) (ch r code : Nat) : Dev :=
  if (d.rank ch r).refreshed then
    let m := d.mr4Floor ch code
    let d := if m != (d.rank ch r).m || m == 4 then d.raise 121 (chanSlice ch) else d
    d.setRank ch r fun x => { x with mNew := some m, hot := mr4Rate code == 4 }
  else d

/-- A channel's poll falls due (R206), or is owed since the channel slept (R42). -/
def Dev.pollDue (d : Dev) (ch : Nat) : Bool :=
  decide (ch < d.nChans) && !(d.chan ch).selfRef && (d.pool % 16 == 15 || (d.chan ch).oweP) && (d.chan ch).pollAt != d.time.loc + 1

/-- MR4_POLL (R206): at strokes with S mod 16 = 15. One that still runs has the instance skipped (R46). -/
def Dev.mr4Poll (d : Dev) (ch : Nat) (codes : List (Nat × Nat)) : Dev :=
  if d.pollDue ch then
    let e := d.setChan ch fun c => { c with pollAt := d.time.loc + 1, oweP := false }
    if d.stillRuns 2 (chanSlice ch) then e.skipDue 2 (chanSlice ch)
    else
      forAll e (rankList.filter fun r => codes.any fun x => x.1 == r) fun d r =>
        d.mr4Rank ch r (((codes.filter fun x => x.1 == r).map Prod.snd).foldl max 0)
  else d

/-! ### Calibration and retraining (R212 to R217) -/

/-- A quotient rounded to the nearest integer, halves upward. -/
def roundDiv (n : Int) (m : Nat) : Int := (2 * n + m) / (2 * m)

/-- Read and write adjustment of one device (R213). -/
def DevCal.adjust (c : DevCal) (p : Probe) (oscK : Nat) : DevCal :=
  let step : Int := if p.minus && !p.plus then -1 else if p.plus && !p.minus then 1 else 0
  let est := if c.osc = 0 then c.drift else roundDiv ((Int.ofNat p.osc - Int.ofNat c.osc) * Int.ofNat oscK) c.osc
  { c with rd := c.rd + step, wr := c.wr + (est - c.drift), drift := est }

/-- Start retraining a rank (R214). -/
def Dev.startRetrain (d : Dev) (ch r : Nat) : Dev :=
  if (d.rank ch r).st = .active then
    (d.setRank ch r fun x => { x with st := .retraining, retrains := satInc 255 x.retrains, retrainAt := d.time.loc }).raise 122 (chanSlice ch)
  else d

/-- The module temperature of a slot as R381 gives it. -/
def Chan.modTemp (c : Chan) (slot : Nat) : ModTemp := if slot = 0 then c.t0 else c.t1

/-- The module's temperature differs from the rank's TEMP by TEMP_TRIG or more (R214). -/
def Dev.tempMoved (d : Dev) (ch r : Nat) : Bool :=
  let t := (d.chan ch).modTemp (r / 4)
  t.read && decide ((t.temp - (d.rank ch r).temp).natAbs ≥ d.fld (chBase ch + 0x14) 15 8 * 64)

/-- A device's delay has moved more than DRIFT_LIM from its trained value (R214). -/
def DevCal.drifted (c : DevCal) (lim : Nat) : Bool := decide ((c.rd - c.rd0).natAbs > lim) || decide ((c.wr - c.wr0).natAbs > lim)

/-- The next Active rank in turn (R212). -/
def Chan.nextActive (c : Chan) : Option Nat :=
  ((List.range 8).map fun i => (c.nextRank + i) % 8).find? fun r => (c.rank r).st == .active

/-- The adjustments after a burst (R213), and what they start (R214). -/
def Dev.burstResult (d : Dev) (ch r : Nat) (ps : List Probe) : Dev :=
  let cfg := chBase ch + 0x10
  let d :=
    if ps.any fun p => !p.centre then
      (d.setRank ch r fun x => { x with centre := satInc 255 x.centre, centreRun := x.centreRun + 1 }).raise 125 (chanSlice ch)
    else
      d.setRank ch r fun x =>
        { x with centreRun := 0
                 devs := x.devs.zipIdx.map fun y =>
                   match ps.find? fun p => p.dev == y.2 with
                   | some p => y.1.adjust p (d.fld (chBase ch + 0x14) 31 16)
                   | none => y.1 }
  let x := d.rank ch r
  if (x.devs.any fun c => c.drifted (d.fld cfg 31 24)) || decide (x.centreRun ≥ 2) || d.tempMoved ch r then d.startRetrain ch r else d

/-- A channel's burst falls due, to the next Active rank in turn (R212), or is owed since the channel slept (R42). -/
def Dev.burstDue (d : Dev) (ch r : Nat) : Bool :=
  let c := d.chan ch
  decide (ch < d.nChans) && !c.selfRef && (d.pool % 64 == 2 * ch || c.oweB) && c.burstAt != d.time.loc + 1 && c.nextActive == some r

/-- CALIBRATION_BURST (R212): at strokes with S mod 64 = 2n, to the next Active rank in turn. One that still runs has the instance
skipped (R46). -/
def Dev.calibrationBurst (d : Dev) (ch r : Nat) (ps : List Probe) : Dev :=
  if d.burstDue ch r && d.stillRuns 3 (chanSlice ch) then
    (d.setChan ch fun c => { c with burstAt := d.time.loc + 1, oweB := false }).skipDue 3 (chanSlice ch)
  else if d.burstDue ch r then
    let live := d.fld (chBase ch + 0x10) 3 3 == 1
    let d := d.setChan ch fun c => { c with burstAt := d.time.loc + 1, oweB := false, nextRank := (r + 1) % 8 }
    let d := d.setRank ch r fun x => { x with bursts := x.bursts + 1 }
    let n := (d.rank ch r).bursts
    let d := if n % 16 = 0 ∨ (n % 16 = 1 ∧ n > 1) then d.emit (.dram ch r 5) else d
    if live then
      let d := (d.emit (.dram ch r 4)).setChan ch fun c =>
        { c with rows := c.rows.filter fun x => x.r != r || (x.hint != 1 && x.bank != 0) }
      d.burstResult ch r ps
    else d
  else d

/-- RETRAINING_WINDOW (R215): the stroke's one window of training accesses to the probe row, which holds no data; no window while the
channel is refresh-urgent, and none longer than RT_WIN. -/
def Dev.retrainingWindow (d : Dev) (ch r ns : Nat) : Dev :=
  if ch < d.nChans ∧ (d.rank ch r).st = .retraining ∧ !(d.chan ch).urgent ∧ ns ≤ d.fld (chBase ch + 0x10) 15 8 * 10 ∧
      (d.rank ch r).winAt ≠ d.time.loc + 1 then
    (d.setRank ch r fun x => { x with winAt := d.time.loc + 1 }).emit (.dram ch r 4)
  else d

/-- RETRAINING_END (R216): the setting waits for the next boundary. -/
def Dev.retrainingEnd (d : Dev) (ch r : Nat) (found : Bool) (st : Setting) : Dev :=
  if ch < d.nChans ∧ (d.rank ch r).st = .retraining ∧ (d.rank ch r).install.isNone then
    d.setRank ch r fun x => { x with install := some (st, found) }
  else d

/-- RETRAINING_TIMEOUT (R216): 1,024 strokes without completion. -/
def Dev.retrainingTimeout (d : Dev) (ch r : Nat) (st : Setting) : Dev :=
  if d.time.loc ≥ (d.rank ch r).retrainAt + 1024 then d.retrainingEnd ch r false st else d

/-- Delays as a setting gives them, by device. -/
def settingCal (s : Setting) : List DevCal :=
  s.devs.map fun x => { rd := x.1, wr := x.2.1, rd0 := x.1, wr0 := x.2.1, osc := x.2.2, drift := 0 }

/-- Install the setting that waits (R216); without a working one the rank is Failing. -/
def Dev.installSetting (d : Dev) (ch r : Nat) : Dev :=
  match (d.rank ch r).install with
  | none => d
  | some (s, found) =>
    if (d.rank ch r).st = .retraining then
      let d := d.setRank ch r fun x =>
        { x with install := none, devs := settingCal s, temp := s.temp, trainedAt := d.pool % 2 ^ 32, loaded := false, centreRun := 0,
                 st := if found then .active else .failing,
                 trigger := if found ∨ x.trigger ≠ 0 then x.trigger else 1 }
      d.raise (if found then 123 else 124) (chanSlice ch)
    else d.setRank ch r fun x => { x with install := none }

/-- CA_PARITY_ALERT (R217): the commands are issued again once; a second alert within 1,024 strokes is a command error. -/
def Dev.caParityAlert (d : Dev) (ch slot : Nat) : Dev :=
  if ch < d.nChans ∧ slot < 2 ∧ ((d.chan ch).dimm slot).isSome then
    let last := if slot = 0 then (d.chan ch).alert0 else (d.chan ch).alert1
    let second := last.elim false fun t => decide (d.time.loc ≤ t + 1024)
    let d := (d.setChan ch fun c => if slot = 0 then { c with alert0 := some d.time.loc } else { c with alert1 := some d.time.loc }).emit
      (.dram ch (slot * 4) 7)
    if second then
      let d := d.raise 128 (chanSlice ch)
      forAll d ((List.range 4).map (slot * 4 + ·)) fun d r =>
        if rankUp (d.rank ch r).st then d.setRank ch r fun x => { x with trigger := if x.trigger = 0 then 2 else x.trigger } else d
    else d
  else d

/-! ### Scrubbing (R234 to R236) -/

/-- Scrub reads of a rank: 0 none, 1 held, 2 made (rank states table). -/
def Rank.scrub (r : Rank) : Nat := if r.st = .active ∨ r.st = .failing then 2 else if r.st = .retraining then 1 else 0

/-- The first frame at or after `f` of a rank that the scrubber reads or holds at. -/
def Dev.nextRankFrame (d : Dev) (ch f : Nat) : Option Nat :=
  (rankList.filterMap fun r =>
    let q := d.rankRef ch r
    if (d.rank ch r).scrub > 0 ∧ f < q.base + q.cap then some (max f q.base) else none).foldl
      (fun (acc : Option Nat) x => match acc with | none => some x | some a => some (min a x)) none

/-- The next frame at or after `f` that is not Withheld, on a rank that is scrubbed. -/
def Dev.nextScrubFrame (d : Dev) (ch : Nat) : Nat → Nat → Option Nat
  | 0, _ => none
  | n + 1, f =>
    match d.nextRankFrame ch f with
    | none => none
    | some g => if (d.frameRec g).kind = 7 then d.nextScrubFrame ch n (g + 1) else some g

/-- The next granule of the channel window at or after a position, wrapping once; the Bool says that it wrapped. -/
def Dev.nextScrub (d : Dev) (ch pos : Nat) : Option (Nat × Bool) :=
  let base := ch * 2 ^ 27
  let fuel := d.frames.length + 64
  match d.nextScrubFrame ch fuel (base + pos / 32) with
  | some f => some (if f = base + pos / 32 then (pos, false) else ((f - base) * 32, false))
  | none =>
    match d.nextScrubFrame ch fuel base with
    | some f => some ((f - base) * 32, true)
    | none => none

/-- The scrub read of granule `g` of the channel's window, on a rank that is scrubbed. -/
def Dev.scrubGran (d : Dev) (ch g : Nat) (errs : List (Nat × List (Nat × Byte))) : Dev :=
  match d.place (chGran ch g / 32) with
  | none => d
  | some p =>
    if (d.rank ch p.r).scrub = 2 then
      (d.setChan ch fun c => { c with scrubPos := granOf (g + 1) }).readReturn (chGran ch g) .scrub
        (errNats (((errs.find? fun x => x.1 == g).map Prod.snd).getD []))
    else d

/-- One scrub read of the walk. -/
def Dev.scrubOne (d : Dev) (ch : Nat) (errs : List (Nat × List (Nat × Byte))) : Dev :=
  match d.nextScrub ch (d.chan ch).scrubPos with
  | none => d
  | some (g, wrapped) =>
    (if wrapped then (d.setChan ch fun c => { c with scrubPos := g, passes := satInc 65535 c.passes }).raise 141 (chanSlice ch)
      else d.setChan ch fun c => { c with scrubPos := g }).scrubGran ch g errs

/-- The rewrite of granule `g`, the first of the queue, unless its rank does not take it now. -/
def Dev.rewriteGran (d : Dev) (ch g : Nat) (rest : List Nat) (errs : List (Nat × List (Nat × Byte))) : Dev :=
  match d.place (chGran ch g / 32) with
  | none => d.setChan ch fun c => { c with rewrite := rest }
  | some p =>
    if (d.rank ch p.r).scrub = 1 then d
    else if (d.rank ch p.r).scrub = 0 then d.setChan ch fun c => { c with rewrite := rest }
    else
      let err := errNats (((errs.find? fun x => x.1 == g).map Prod.snd).getD [])
      let d := d.setChan ch fun c => { c with rewrite := rest }
      -- an uncorrectable granule has no corrected value to rewrite
      (if d.readGran (chGran ch g) err = .uncorrectable then d else d.rewriteLater (chGran ch g) true).readReturn (chGran ch g) .scrub err

/-- Serve one address of the rewrite queue (R228). -/
def Dev.serveRewrite (d : Dev) (ch : Nat) (errs : List (Nat × List (Nat × Byte))) : Dev :=
  match (d.chan ch).rewrite with
  | [] => d
  | g :: rest => d.rewriteGran ch g rest errs

/-- SCRUB_READ (R234): at most RATE granules of the walk, and up to two queued addresses, once per stroke. The stroke's work is cut after
`n` granules where the channel scheduler holds it back, and is not made up (R44, R45). -/
def Dev.scrubRead (d : Dev) (ch n : Nat) (errs : List (Nat × List (Nat × Byte))) : Dev :=
  if ch < d.nChans ∧ !(d.chan ch).selfRef ∧ (d.chan ch).scrubAt ≠ d.time.loc + 1 then
    let d := d.setChan ch fun c => { c with scrubAt := d.time.loc + 1 }
    let d := forAll d (List.range (min n (d.fld (chBase ch + 0x100) 31 28))) fun d _ => d.scrubOne ch errs
    forAll d [0, 1] fun d _ => d.serveRewrite ch errs
  else d

/-! ### Soft repair (R232, R233, R403) -/

/-- Serial numbers of the modules fitted. -/
def Dev.serials (d : Dev) : List (BitVec 32) :=
  (List.range d.nChans).flatMap fun c => ((d.chan c).dimm0.toList ++ (d.chan c).dimm1.toList).map Dimm.serial

/-- Write a row to the ledger's repair table (R403): over the first entry that matches no fitted module. -/
def Dev.recordRepair (d : Dev) (x : Repair) : Dev :=
  let l := d.led.hold d.ledgerHeld
  match l.repairs.findIdx? fun e => !(d.serials.contains e.serial) with
  | some i => { d with led := { l with repairs := l.repairs.set i x } }
  | none =>
    if l.repairs.length < 1792 then { d with led := { l with repairs := l.repairs ++ [x] } }
    else d.raise 254 (tileSlice 0)

/-- The module temperature lies in the soft-PPR window (R388), read no more than 16 strokes ago. -/
def Dev.pprWindow (d : Dev) (ch slot : Nat) : Bool :=
  match (d.chan ch).dimm slot with
  | none => false
  | some m =>
    let t := (d.chan ch).modTemp slot
    let lo := max m.tempLo (Int.ofNat (d.fld 0xA08 31 24) * 64)
    let hi := min m.tempHi (Int.ofNat (d.fld 0xA08 23 16) * 64)
    t.read && !t.unread && decide (d.time.loc ≤ t.at_ + 16) && decide (lo ≤ t.temp) && decide (t.temp ≤ hi)

/-- The first queued row that R232 lets the slice repair now. -/
def Dev.pprRow (d : Dev) (ch : Nat) : Option RepairRow :=
  let c := d.chan ch
  if c.urgent || c.selfRef || d.sup.brace || (d.pool % 64 == 2 * ch && c.nextActive.isSome) then none
  else c.repair.find? fun x =>
    (List.range 4).all (fun i => (d.frameRec (x.frame + i)).kind == 7) && (c.rank x.r).st == .active && d.pprWindow ch (x.r / 4)

/-- SOFT_PPR (R232, R233): `pass` says that every test pattern passed. -/
def Dev.softPpr (d : Dev) (ch : Nat) (pass : Bool) : Dev :=
  if ch < d.nChans then
    match d.pprRow ch with
    | none => d
    | some x =>
      match d.granPlace x.gran, (d.chan ch).dimm (x.r / 4) with
      | some (p, a), some m =>
        let key := (x.r, x.dev, a.bg)
        let ok := pass && !((d.chan ch).pprUsed.contains key)
        let d := d.payRefresh ch x.r
        let d := (d.setChan ch fun c => { (c.closeRank x.r) with
          repair := c.repair.erase x, pprUsed := if c.pprUsed.contains key then c.pprUsed else c.pprUsed ++ [key] }).emit (.dram ch x.r 6)
        let rec_ : Repair := { serial := m.serial, ch := ch, slot := x.r / 4, rank := x.r % 4, chip := a.cid, dev := x.dev, bgrp := a.bg,
                               bank := a.ba, row := a.row, withheld := !ok, stroke := d.pool }
        if ok then
          let d := d.setChan ch fun c => { c with pprDone := satInc 255 c.pprDone,
                                                  eat := c.eat.filter fun e => !(e.remap && chGran ch e.gran / 128 == x.gran / 128) }
          let d := forAll d (rowFrames x.gran) fun d f => d.freeFrame f
          ((d.raise 134 (chanSlice ch)).mgrRecord .info .dram (dramDetail p a x.dev 0)).recordRepair rec_
        else
          let d := d.setChan ch fun c => { c with pprFailed := satInc 255 c.pprFailed }
          ((d.raise 135 (chanSlice ch)).mgrRecord .warning .dram (dramDetail p a x.dev 1)).recordRepair rec_
      | _, _ => d
  else d

/-! ### Retirement (R243 to R248) -/

/-- UE_WINDOW_EXPIRY (R244): granules met 2^20 strokes ago or more leave the window. -/
def Dev.ueWindowExpiry (d : Dev) (ch r : Nat) : Dev :=
  if ch < d.nChans ∧ r < 8 then
    d.setRank ch r fun x => { x with ueWin := x.ueWin.filter fun w => decide (d.time.loc < w.2 + 2 ^ 20) }
  else d

/-- Retire a rank (R245). A rank that is Off with storage is lost (R243). -/
def Dev.retireNow (d : Dev) (ch r cause : Nat) (byCommand : Bool) : Dev :=
  let d := d.setRank ch r fun x =>
    { x with prev := x.st, lost := x.lost || x.st == .off, st := .retired, byCommand := byCommand, pendRetire := false, trigger := 0,
             install := none, moved := 0, madeLost := 0 }
  let k := ch / 8
  let d := d.setTile k fun t => { t with evacs := if t.evacs.contains { ch := ch, r := r } then t.evacs else t.evacs ++ [{ ch := ch, r := r }] }
  (d.raiseI 137 { slice := chanSlice ch, cause := cause, detail := [ch, r, cause, 0] }).mgrRecord .warning .memoryModule [ch, r, cause]

/-- A trigger of R244 acted on at a boundary: retirement, or EV137 with the flag "pending". -/
def Dev.rankTrigger (d : Dev) (ch r : Nat) : Dev :=
  let x := d.rank ch r
  if x.trigger = 0 then d
  else if x.st = .retired then
    d.setRank ch r fun y => { y with byCommand := false, trigger := 0, lost := y.lost || x.trigger == 5 }
  else if rankUp x.st || (x.st == .off && x.lost) then
    if d.fld 0x380 31 31 = 1 then d.retireNow ch r x.trigger false
    else (d.setRank ch r fun y => { y with pendRetire := true, trigger := 0 }).raiseI 137
      { slice := chanSlice ch, cause := x.trigger, detail := [ch, r, x.trigger, 1] }
  else d.setRank ch r fun y => { y with trigger := 0 }

/-- A rank goes Off (R243): with storage it waits for its retirement as lost. -/
def Dev.rankOff (d : Dev) (ch r : Nat) : Dev :=
  if (d.rank ch r).st = .off then d
  else
    let d := d.setChan ch fun c => { (c.closeRank r) with bringUp := c.bringUp.filter (· != r), repair := c.repair.filter fun x => x.r != r }
    if (d.rank ch r).st = .retired then
      if d.rankHolds ch r then d.setRank ch r fun x => { x with trigger := 5, lost := true } else d
    else if d.rankHolds ch r then
      d.setRank ch r fun x => { x with st := .off, lost := true, trigger := 5, m := 0, mNew := none, install := none, debt := 0 }
    else d.setRank ch r fun _ => {}

/-- Every rank of a slot goes Off. -/
def Dev.slotOff (d : Dev) (ch slot : Nat) : Dev := forAll d ((List.range 4).map (slot * 4 + ·)) fun d r => d.rankOff ch r

/-- A page of a lost rank becomes a lost page (R243). -/
def Dev.loseAt (d : Dev) (ch r page : Nat) : Dev :=
  (d.losePage page).setRank ch r fun x => { x with madeLost := x.madeLost + 1 }

/-- The walk over one rank (R245): Metadata runs first, then one job per T1 page, T2 page and T3 segment. -/
def Dev.walkRank (d : Dev) (k ch r : Nat) : Dev :=
  let q := d.rankRef ch r
  let recs := (d.listed q).filter fun e => decide (1 ≤ e.2.kind) && decide (e.2.kind ≤ 5)
  let metas := recs.filter fun e => e.2.kind == 5
  let d := forAll d metas fun d e => forAll d ((d.runsAt e.1).filter fun x => x.2 == e.1) fun d x => d.queueMeta x.1 x.2
  if (d.rank ch r).lost then
    forAll d (recs.filter fun e => e.2.kind != 5) fun d e => forAll d (d.pagesAt e.1) fun d x => d.loseAt ch r x.1
  else if metas.isEmpty then
    forAll d recs fun d e => if (d.tile k).queue.length < 256 then forAll d (d.pagesAt e.1) fun d x => d.queueEvac x.1 else d
  else d

/-- EVACUATION_WALK (R245) of a memory tile. -/
def Dev.evacuationWalk (d : Dev) (k : Nat) : Dev :=
  if k < d.nTiles then forAll d (d.tile k).evacs fun d e => d.walkRank k e.ch e.r else d

/-- EVACUATION_RETRY (R247): at a decay epoch the walk tries the blocked pages again. -/
def Dev.evacuationRetry (d : Dev) (k : Nat) : Dev :=
  if k < d.nTiles ∧ (d.tile k).blocked ∧ d.pool % 1024 = 0 then
    (d.setTile k fun t => { t with stuck := [] }).evacuationWalk k
  else d

/-- An output of 16 bytes: pages moved, pages made lost (Retire Rank). -/
def Rank.retireOut (r : Rank) : List Byte := leBytes 8 r.moved ++ leBytes 8 r.madeLost

/-- The Retire Rank command that waits on a rank. -/
def Dev.retireBg (d : Dev) (ch r : Nat) : Option Bg :=
  d.cfg.bg.find? fun b => match b.kind with | .retire c q => c == ch && q == r | _ => false

/-- RANK_EMPTY (R245): none of the rank's frames is of kind 1 to 5; EV138, and its command completes (R249). -/
def Dev.rankEmpty (d : Dev) (ch r : Nat) : Dev :=
  if ch < d.nChans ∧ (d.rank ch r).st = .retired ∧ !d.rankHolds ch r then
    let x := d.rank ch r
    let d := d.setRank ch r fun x => { x with st := .empty, trigger := 0, m := 0, mNew := none }
    let d := d.setTile (ch / 8) fun t => { t with evacs := t.evacs.filter (· != { ch := ch, r := r }) }
    let d := (d.raise 138 (chanSlice ch)).mgrRecord .info .memoryModule [ch, r]
    match d.retireBg ch r with
    | none => d
    | some b =>
      d.finishBg b .success 0 x.retireOut
  else d

/-- An Empty rank enters self-refresh at the boundary after it is reported (R218). -/
def Dev.parkRank (d : Dev) (ch r : Nat) : Dev :=
  let x := d.rank ch r
  if x.st = .empty ∧ !x.selfRef ∧ !x.lost then (d.setRank ch r fun y => { y with selfRef := true, debt := 0 }).emit (.dram ch r 2) else d

/-! ### Self-refresh of a channel (R219, R220) -/

/-- The slice refuses self-refresh entry. -/
def Dev.selfRefRefused (d : Dev) (ch : Nat) : Bool :=
  (d.chan ch).urgent || rankList.any fun r => (d.rank ch r).st == .training || (d.rank ch r).st == .retraining

/-- Enter self-refresh: the queued requests complete, the debt is paid below 1, the banks close. -/
def Dev.enterSelfRef (d : Dev) (ch : Nat) : Dev :=
  let d := d.setChan ch fun c => { c with rq := [], rwait := [], wq := c.wq ++ c.wwait, wwait := [] }
  let d := forAll d (d.chan ch).wq fun d x => d.writeBurst ch x.gran true
  let d := d.setChan ch fun c => { c with wq := [], drain := false, rows := [], selfRef := true, stopAt := some d.pool }
  forAll d rankList fun d r =>
    if (d.rank ch r).refreshed then (d.payRefresh ch r).emit (.dram ch r 2) else d

/-- Periods of `n` strokes, at phase `o`, that fell due after stroke `a` and up to stroke `b`. -/
def periodsIn (n o a b : Nat) : Nat := (b + n - o) / n - (a + n - o) / n

/-- The periodic work that a sleep stopped (R42): the periods missed are recorded, and what missed one is owed once. -/
def Chan.afterSleep (c : Chan) (ch now : Nat) : Chan :=
  match c.stopAt with
  | none => c
  | some a =>
    let p := periodsIn 16 15 a now
    let b := periodsIn 64 (2 * ch % 64) a now
    { c with stopAt := none, missP := p, missB := b, missS := now - a, oweP := c.oweP || decide (0 < p), oweB := c.oweB || decide (0 < b) }

/-- Leave self-refresh: D is 0, and the rate that MR4 shows, which no rule here states (log entry 30), is in force from the
next boundary. -/
def Dev.exitSelfRef (d : Dev) (ch : Nat) : Dev :=
  let d := d.setChan ch fun c => { c with selfRef := false }.afterSleep ch d.pool
  forAll d rankList fun d r =>
    if (d.rank ch r).refreshed then
      let code := Config.freeNat d.free % 4
      let d := d.bumpFree
      ((d.setRank ch r fun x => { x with debt := 0, credits := [] }).mr4Rank ch r code).emit (.dram ch r 3)
    else d

/-! ### Bring-up (R210, R211) -/

/-- The delay record of a channel that matches its rate and modules (R211). -/
def Dev.delayRec (d : Dev) (ch rate : Nat) : Option DelayRec :=
  d.cfg.primed.delays.find? fun x =>
    fieldAt x.bytes 3 1 == ch && fieldAt x.bytes 4 2 == rateMts rate &&
      fieldAt x.bytes 8 4 == ((d.chan ch).dimm0.elim 0 fun m => m.serial.toNat) &&
      fieldAt x.bytes 12 4 == ((d.chan ch).dimm1.elim 0 fun m => m.serial.toNat) &&
      fieldAt x.bytes 24 4 == (crc32c (sub x.bytes 32 2688)).toNat

/-- A slot's old contents go before its new module is brought up: its pages are lost, its frames, tables and marks cleared. -/
def Dev.clearSlot (d : Dev) (ch slot : Nat) : Dev :=
  let d := forAll d ((List.range 4).map (slot * 4 + ·)) fun d r =>
    let q := d.rankRef ch r
    let d := forAll d (d.listed q) fun d e => forAll d (d.pagesAt e.1) fun d x => d.loseAt ch r x.1
    let d := { d with frames := d.frames.filter fun e => !(decide (q.base ≤ e.1) && decide (e.1 < q.base + q.cap)) }
    let d := d.setTile (ch / 8) fun t => { t with evacs := t.evacs.filter (· != { ch := ch, r := r }) }
    d.setRank ch r fun _ => {}
  d.setChan ch fun c =>
    { c with eat := c.eat.filter (fun e => decide (e.gran / 2 ^ 31 ≠ slot)), rewrite := c.rewrite.filter (fun g => decide (g / 2 ^ 31 ≠ slot)),
             newer := c.newer.filter (fun g => decide (g / 2 ^ 31 ≠ slot)), repair := c.repair.filter (fun x => decide (x.r / 4 ≠ slot)),
             pprUsed := c.pprUsed.filter (fun x => decide (x.1 / 4 ≠ slot)),
             t0 := if slot = 0 then {} else c.t0, t1 := if slot = 1 then {} else c.t1,
             alert0 := if slot = 0 then none else c.alert0, alert1 := if slot = 1 then none else c.alert1 }

/-- Steps 1 to 3 of bring-up for the given slots (R210): the ranks are Training until BRING_UP_COMPLETE. `a` and `b` are the
modules fitted. A rejected module raises EV125 (R195) and its slot is empty to the channel. -/
def Dev.channelStart (d : Dev) (ch : Nat) (slots : List Nat) (a b : Option Dimm) : Dev :=
  let use0 := ((d.chan ch).modules slots a b).1
  let use1 := ((d.chan ch).modules slots a b).2
  let rate := rateFor (use0.toList ++ use1.toList) (d.maxRate ch)
  let use0 := if rate.isSome || !slots.contains 0 then use0 else none
  let use1 := if rate.isSome || !slots.contains 1 then use1 else none
  let bad := slots.filter fun s => (if s = 0 then a.isSome && use0.isNone else b.isSome && use1.isNone)
  let d := forAll d bad fun d _ => d.raise 125 (chanSlice ch)
  let d := forAll d slots fun d s => d.clearSlot ch s
  let d := d.setChan ch fun c => { c with dimm0 := use0, dimm1 := use1 }
  let came := (slots.contains 0 && use0.isSome) || (slots.contains 1 && use1.isSome)
  match (if came then rate else none), use0.toList ++ use1.toList with
  | some rt, m :: _ =>
    let d := d.setChan ch fun c =>
      { c with rate := rt, timing := (List.range 0x1B).map fun i => (i + 1, d.timingOf ch m rt (i + 1) % 2 ^ 24) }
    let d := if d.timingIgnored ch rt then d.raise 129 (chanSlice ch) else d
    let news := rankList.filter fun r => slots.contains (r / 4) && (d.rankDimm ch r).isSome
    let d := forAll d news fun d r => d.setRank ch r fun _ => { st := .training }
    d.setChan ch fun c => { c with bringUp := c.bringUp.filter (fun r => !news.contains r) ++ news, table := (d.delayRec ch rt).isSome }
  | _, _ => d

/-- Device entry `i` of rank block `r` of a delay table: RD_DQS, WR_DQ. -/
def DelayRec.dev (x : DelayRec) (r i : Nat) : Nat × Nat :=
  let o := 32 + 336 * r + 16 + 16 * i
  (fieldAt x.bytes (o + 2) 1, fieldAt x.bytes (o + 10) 1)

/-- TEMP of a rank block. -/
def DelayRec.temp (x : DelayRec) (r : Nat) : Int :=
  let v := fieldAt x.bytes (32 + 336 * r + 2) 2
  if v < 32768 then Int.ofNat v else Int.ofNat v - 65536

/-- The setting a rank takes: the accepted table's delays with the oscillator counts just recorded, or the trained one. -/
def Dev.settingOf (d : Dev) (ch : Nat) (b : BringUp) : Setting :=
  match (if (d.chan ch).table then d.delayRec ch (d.chan ch).rate else none) with
  | none => b.setting
  | some x =>
    { temp := x.temp b.r,
      devs := (List.range 20).map fun i => ((x.dev b.r i).1, (x.dev b.r i).2, ((b.setting.devs.getD i (0, 0, 0)).2.2)) }

/-- The four frames of a row that a repair entry names. -/
def Dev.repairFrames (d : Dev) (x : Repair) : List Nat :=
  match d.rankDimm x.ch (x.slot * 4 + x.rank) with
  | none => []
  | some m =>
    let c := chipBits m.stack
    let off := (x.row * 2 ^ (7 + c) + x.chip * 2 ^ 7 + x.bank * 2 ^ 5 + (x.bgrp ^^^ x.row % 8) * 4)
    (List.range 4).map (d.rankBase x.ch (x.slot * 4 + x.rank) + off + ·)

/-- The ledger's repairs and withholdings repeated for one rank (R233, R403). -/
def Dev.replayRepairs (d : Dev) (ch r : Nat) : Dev :=
  match d.rankDimm ch r with
  | none => d
  | some m =>
    forAll d (d.led.repairs.filter fun x => x.serial == m.serial && x.ch == ch && x.slot * 4 + x.rank == r) fun d x =>
      if x.withheld then forAll d (d.repairFrames x) fun d f => d.setFrame f 7 0#16
      else (d.setChan ch fun c => { c with pprUsed := c.pprUsed ++ [(r, x.dev, x.bgrp)] }).emit (.dram ch r 6)

/-- One rank comes up (R210 step 8), or stays Empty with its frames Withheld (R211). -/
def Dev.rankUpNow (d : Dev) (ch : Nat) (b : BringUp) : Dev :=
  let tab := (d.chan ch).table
  if tab || b.found then
    let s := d.settingOf ch b
    let d := d.setRank ch b.r fun _ =>
      { st := .active, m := d.mr4Floor ch b.mr4, hot := mr4Rate b.mr4 == 4, devs := settingCal s, temp := s.temp,
        trainedAt := d.pool % 2 ^ 32, loaded := tab }
    -- R199: the probe row takes its calibration patterns
    (d.emit (.dram ch b.r 8)).replayRepairs ch b.r
  else (d.setRank ch b.r fun _ => { st := .empty }).raise 127 (chanSlice ch)

/-- BRING_UP_COMPLETE (R210, R211): the results of the ranks in training. -/
def Dev.bringUpComplete (d : Dev) (ch : Nat) (rs : List BringUp) : Dev :=
  let rs := rs.filter fun b => (d.chan ch).bringUp.contains b.r && (d.rank ch b.r).st == .training
  if ch < d.nChans ∧ !rs.isEmpty then
    let d := if (d.chan ch).table ∧ rs.any (fun b => !b.tableProbesOk) then
        (d.setChan ch fun c => { c with table := false }).raise 126 (chanSlice ch) else d
    let d := forAll d rs fun d b => if (d.rank ch b.r).st = .training then d.rankUpNow ch b else d
    d.setChan ch fun c => { c with bringUp := c.bringUp.filter fun r => !(rs.any fun b => b.r == r), up := true }
  else d

/-! ### Commands -/

/-- CHANNEL_REQUEST (R200). -/
def execChannelRequest (ch : Nat) (wr : Bool) (gran : Nat) (origin : ChOrigin) (s : State) : Host.Outcome State Fault Refusal :=
  s.done (s.dev.channelRequest ch wr gran origin)

/-- DRAM_READ_RETURN (R222). -/
def execDramReadReturn (ch : Nat) (gran : Nat) (reader : Reader) (errs : List (Nat × Byte)) (s : State) :
    Host.Outcome State Fault Refusal :=
  s.done (s.dev.dramReadReturn ch gran reader errs)

/-- WRITE_BURST (R229). -/
def execWriteBurst (ch : Nat) (gran : Nat) (ok : Bool) (s : State) : Host.Outcome State Fault Refusal :=
  s.done (s.dev.writeBurst ch gran ok)

/-- AUTO_IDLE_EXPIRY (R203). -/
def execAutoIdleExpiry (ch : Nat) (r : Nat) (bank : Nat) (s : State) : Host.Outcome State Fault Refusal :=
  s.done (s.dev.autoIdleExpiry ch r bank)

/-- REFAB_ISSUE (R208). -/
def execRefabIssue (ch : Nat) (r : Nat) (s : State) : Host.Outcome State Fault Refusal := s.done (s.dev.refabIssue ch r)

/-- MR4_POLL (R206). -/
def execMr4Poll (ch : Nat) (codes : List (Nat × Nat)) (s : State) : Host.Outcome State Fault Refusal :=
  s.done (s.dev.mr4Poll ch codes)

/-- CALIBRATION_BURST (R212). -/
def execCalibrationBurst (ch : Nat) (r : Nat) (probes : List Probe) (s : State) : Host.Outcome State Fault Refusal :=
  s.done (s.dev.calibrationBurst ch r probes)

/-- RETRAINING_WINDOW (R215). -/
def execRetrainingWindow (ch : Nat) (r : Nat) (ns : Nat) (s : State) : Host.Outcome State Fault Refusal :=
  s.done (s.dev.retrainingWindow ch r ns)

/-- RETRAINING_END (R216). -/
def execRetrainingEnd (ch : Nat) (r : Nat) (found : Bool) (setting : Setting) (s : State) : Host.Outcome State Fault Refusal :=
  s.done (s.dev.retrainingEnd ch r found setting)

/-- RETRAINING_TIMEOUT (R216). -/
def execRetrainingTimeout (ch : Nat) (r : Nat) (setting : Setting) (s : State) : Host.Outcome State Fault Refusal :=
  s.done (s.dev.retrainingTimeout ch r setting)

/-- CA_PARITY_ALERT (R217). -/
def execCaParityAlert (ch : Nat) (slot : Nat) (s : State) : Host.Outcome State Fault Refusal :=
  s.done (s.dev.caParityAlert ch slot)

/-- BRING_UP_COMPLETE (R211). -/
def execBringUpComplete (ch : Nat) (results : List BringUp) (s : State) : Host.Outcome State Fault Refusal :=
  s.done (s.dev.bringUpComplete ch results)

/-- SCRUB_READ (R234). -/
def execScrubRead (ch : Nat) (run : ScrubRun) (s : State) : Host.Outcome State Fault Refusal :=
  s.done (s.dev.scrubRead ch run.n run.errs)

/-- SOFT_PPR (R232). -/
def execSoftPpr (ch : Nat) (pass : Bool) (s : State) : Host.Outcome State Fault Refusal := s.done (s.dev.softPpr ch pass)

/-- UE_WINDOW_EXPIRY (R244). -/
def execUeWindowExpiry (ch : Nat) (r : Nat) (s : State) : Host.Outcome State Fault Refusal := s.done (s.dev.ueWindowExpiry ch r)

/-- EVACUATION_WALK (R245). -/
def execEvacuationWalk (tile : Nat) (s : State) : Host.Outcome State Fault Refusal := s.done (s.dev.evacuationWalk tile)

/-- EVACUATION_RETRY (R247). -/
def execEvacuationRetry (tile : Nat) (s : State) : Host.Outcome State Fault Refusal := s.done (s.dev.evacuationRetry tile)

/-- RANK_EMPTY (R245). -/
def execRankEmpty (ch : Nat) (r : Nat) (s : State) : Host.Outcome State Fault Refusal := s.done (s.dev.rankEmpty ch r)

end Sys2Proof.Machine
end

