-- ==== Sys2Proof/Machine/Pumps.lean ====
section
/-! DEFINITION. The pumps (R98 to R112, R133 to R145, R154, R186, R240 to R247, R281 to R284): choosing and starting a job,
fencing, the budgeted read, encoding, the commit phase, abort and halt; the sweep and heat decay (R94 to R96, R98, R99). -/

namespace Sys2Proof.Machine

open Sys2Proof

/-! ### What a pump may do -/

def Dev.pumpEnabled (d : Dev) (p : Nat) : Bool := d.fld (pumpBase p) 31 31 == 1

/-- A pump must stop: ENABLE is clear, the device is in the brace state (R110), or a pump stall is active (R418). -/
def Dev.pumpOff (d : Dev) (p : Nat) : Bool :=
  d.sup.brace || !d.pumpEnabled p || d.pertStall (pumpSlice p) || d.pertStall (mtSlice (p / 8))

/-- `BUDGET` in bytes (R100). -/
def Dev.pumpBudget (d : Dev) (p : Nat) : Nat := d.fld (pumpBase p) 4 0 * 256

def Dev.nPumps (d : Dev) : Nat := 8 * d.nTiles

/-- A tile's F is at or below High (R98). -/
def Dev.atHigh (d : Dev) (k : Nat) : Bool := decide (d.free_ k ≤ (d.tile k).high)

/-- The pump that the sweep runs on: the lowest-numbered one that is not halted (R95). -/
def Dev.sweepPump (d : Dev) (k : Nat) : Option Nat := ((List.range 8).map (8 * k + ·)).find? fun p => (d.pump p).st != 5

/-- Class of a queued job (R101). -/
def jobClass (ty : Nat) (high : Bool) : Nat :=
  if ty = 7 then 1 else if ty = 1 ∨ ty = 2 then 2 else if ty = 8 ∨ ty = 9 then 4 else if high then 3 else 5

/-- A job type that uses the encoder. -/
def jobEncodes (ty : Nat) : Bool := ty == 3 || ty == 4 || ty == 6 || ty == 8

/-- The job types that the pump of a failed encoder still takes (R142): Promote, Pull, Evacuate and Re-key. -/
def jobPlain (ty : Nat) : Bool := ty == 1 || ty == 2 || ty == 7 || ty == 9

/-- The queued job that a pump takes (R101). -/
def Dev.pickJob (d : Dev) (p : Nat) : Option JobReq :=
  let k := p / 8
  let ok (j : JobReq) : Bool := (!(d.enc p).failed || jobPlain j.ty) && (!d.therm.enforced || j.ty == 7)
  (((d.tile k).queue.filter ok).foldl (fun (acc : Option JobReq) j =>
    match acc with
    | none => some j
    | some a => if jobClass j.ty (d.atHigh k) < jobClass a.ty (d.atHigh k) then some j else acc) none)

/-- The key domain that a job writes a page under: the region's, or the page's own when only that one can encrypt (R97, R149,
R154). -/
def Dev.jobKdom (d : Dev) (page : Nat) (e : MapEntry) : Option Nat :=
  let want := (d.attrs page).elim e.kdom Region.kdom
  if d.kdSt want = .live then some want else if d.kdSt e.kdom = .live then some e.kdom else none

/-- The book slot of a new encoding (R134). -/
def Dev.encBook (d : Dev) (page : Nat) : Nat :=
  let b := (d.attrs page).elim 0 Region.book
  if (d.book b).st = .live then b else 0

/-- A page whose lines other caches may hold: of a shared region or a hosting range (R111). -/
def Dev.mayShare (d : Dev) (page : Nat) : Bool := d.groupOf page != 0 || (d.regionOf page).isNone && (d.hosting page).isSome

/-- A run of `n` frames of a kind on a tile, in a rank that satisfies `ok`. -/
def Dev.findRunIf (d : Dev) (k kind n : Nat) (ok : RankRef → Bool) : Option Nat :=
  ((d.tileRanks k).filter ok).findSome? fun q => (d.runStarts q).find? fun f => decide (f + n ≤ q.base + q.cap) && d.runFree kind f n

/-- The move limit of the allocation table for `n` frames on the tile R114 chooses. -/
def Dev.moveRun (d : Dev) (home n : Nat) : Option Nat :=
  let k := d.placeTile home
  if d.free_ k ≥ n ∧ n > 0 then d.chooseRun k 0 n else none

/-! ### Fences (R111, R112) -/

/-- No line of a page is cached or held. -/
def Dev.fenceDone (d : Dev) (page : Nat) : Bool :=
  let h := d.hsl (d.home page)
  !(h.dir.any fun e => lnPage e.line == page) && !(h.holds.any fun x => lnPage x.line == page)

/-- Back-invalidate the lines of a page that are cached and not held. -/
def Dev.fencePage (d : Dev) (page : Nat) : Dev :=
  let n := d.home page
  forAll d ((d.hsl n).dir.filter fun e => lnPage e.line == page) fun d e =>
    if (d.hsl n).held e.line ∨ ((d.hsl n).ent e.line).isNone then d else d.backInvalidate n e

/-! ### Reading and writing storage -/

def zeroPage : List (Line × Bool) := List.replicate 64 (0#512, false)

/-- Write a page's lines into a T1 frame under a domain, poison with the pattern that its lines need (R148, R241). -/
def Dev.writeFrame (d : Dev) (kd f : Nat) (ls : List (Line × Bool)) : Dev :=
  forAll d (List.range 32) fun d i =>
    let a := ls.getD (2 * i) (0#512, false)
    let b := ls.getD (2 * i + 1) (0#512, false)
    d.putGran kd (frameGran f i) a.1 b.1 (b2n a.2 + 2 * b2n b.2)

/-- Write whole data units of `size` bytes under a domain over storage that begins at a byte address, clearing in-band poison there
(R148). -/
def Dev.writeUnits (d : Dev) (kd size addr : Nat) (bs : List Byte) : Dev :=
  { d with dram := Memory.writeN dramBlank d.dram addr (d.sealUnits kd size addr bs)
           poison := d.poison.filter fun e => !(decide (addr / 128 ≤ e.1) && decide (e.1 < (addr + bs.length + 127) / 128)) }

def padTo (n : Nat) (bs : List Byte) : List Byte := bs ++ List.replicate (n - bs.length) 0#8

/-- The pages that pass through a job on pages `ps` of the segment that `e` lies in, by index: each of them, and those decoded only to
reach one of them from its restart point (R100). A page that INCL leaves out is not decoded. -/
def Dev.segSteps (d : Dev) (e : MapEntry) (ps : List (Nat × MapEntry)) : List JobStep :=
  let h := d.segHeader e
  let r := max 1 (fieldAt h 4 1)
  (List.range 16).filterMap fun i =>
    match ps.find? fun x => x.2.segIdx == i with
    | some x => some { page := x.1, e := x.2, idx := i }
    | none => (ps.find? fun x => decide (i < x.2.segIdx) && x.2.segIdx / r == i / r && segIncl h i).map fun x =>
        { page := x.1, e := x.2, idx := i, hist := true }

/-- The pages that pass through a job of a type, with the book of each new encoding (R100, R134). A Pull's pages come from their owner. -/
def Dev.jobSteps (d : Dev) (ty : Nat) (ps : List (Nat × MapEntry)) : List JobStep :=
  if ty = 2 then []
  else
    let plain := ps.map fun x => ({ page := x.1, e := x.2, idx := x.2.segIdx } : JobStep)
    let l := match ps with
      | (_, e) :: _ => if e.tier = 2 ∧ ty ≠ 7 ∧ ty ≠ 9 then d.segSteps e ps else plain
      | [] => []
    l.map fun x => { x with book := d.encBook x.page }

/-! ### Starting a job (R101, R103, R113, R247) -/

/-- Set a page Moving for a pump (R104). -/
def Dev.setMoving (d : Dev) (p page : Nat) : Dev :=
  (d.setEntry page { d.entry page with st := .moving, owner := p % 8 }).dropCand page

/-- Live pages of the segment that an entry lies in. -/
def Dev.segmentPages (d : Dev) (e : MapEntry) : List (Nat × MapEntry) :=
  d.wmap.filter fun x => x.2.st != .unbacked && x.2.tier == 2 && x.2.frame == e.frame

/-- A job whose plaintext goes to the source buffer of the pump's encoder slice (R139): all but those that move a stored form as it is. -/
def Job.buffered (j : Job) : Bool := j.metaRun.isNone && j.ty != 2 && j.ty != 7 && j.ty != 9

/-- A pump has its job: its pages Moving and out of every queue (R101), fencing where a page may be shared; a Pull's page is fenced by
its owner (R283). -/
def Dev.launch (d : Dev) (p : Nat) (j : Job) : Dev :=
  let pages := j.pages.map Prod.fst
  let fence := j.ty != 2 && pages.any d.mayShare
  let steps := d.jobSteps j.ty j.pages
  let j := { j with steps := steps, need := if steps.isEmpty then j.need else 4096 * steps.length, mustFence := fence, fencing := fence }
  let d := forAll d pages fun d g => d.setMoving p g
  let d := forAll d (tileList d) fun d k => d.setTile k fun t => { t with queue := t.queue.filter fun q => !pages.contains q.page }
  let d := if j.buffered then d.setEnc p fun x => { x with src := [] } else d
  let d := d.setPump p fun x => { x with st := if fence then 3 else 1, job := some j, finished := none }
  if fence then forAll d pages fun d g => d.fencePage g else d

/-- No destination for an Evacuate job (R247). -/
def Dev.blockEvac (d : Dev) (k page : Nat) : Dev :=
  (d.setTile k fun t => { t with blocked := true, stuck := t.stuck ++ [page] }).raise 139 (mtSlice k)

/-- A candidate group of 16 pages for a build: the first of the tile's list that share the page's key domain and book, now and in the
segment to come (R99; which 16 of more agree is not stated: DESIGN CHOICE, log 76). -/
def Dev.buildGroup (d : Dev) (k page : Nat) : List (Nat × MapEntry) :=
  let e := d.entry page
  (((d.tile k).cands.map fun g => (g, d.entry g)).filter fun x =>
    x.2.st == .stable && x.2.tier == 1 && x.2.kdom == e.kdom && x.2.book == e.book && d.jobKdom x.1 x.2 == d.jobKdom page e &&
      d.encBook x.1 == d.encBook page && x.2.poison == 0 && d.entryOk x.2).take 16

/-- Move of a Metadata run within its own tile (R87, R467). -/
def Dev.startMeta (d : Dev) (p f : Nat) : Dev :=
  let k := p / 8
  match d.metaRuns.find? fun m => m.prim == f || m.mirror == some f with
  | none => d
  | some m =>
    let other := if m.prim = f then m.mirror else some m.prim
    let away (q : RankRef) : Bool := match other.bind d.place with
      | none => true
      | some x => if (d.tileRanks k).any (fun r => d.refUp r && r.ch != q.ch) then q.ch != x.ch else q.r != x.r
    match (d.findRunIf k 6 16 fun q => d.refUp q && away q).orElse
        (fun _ => if d.free_ k ≥ 16 then d.findRunIf k 0 16 fun q => d.refUp q && away q else none) with
    | none => d.blockEvac k (metaPage f)
    | some g =>
      let fs := (List.range 16).map (g + ·)
      let d := forAll d fs fun d x => d.setFrame x 5 0#16
      d.launch p { ty := 7, pages := [], frames := fs, need := 65536, metaRun := some f }

/-- Start an Evacuate or Re-key job that moves storage as it is (R245, R154); `evac` says which limits apply. -/
def Dev.startCopy (d : Dev) (p page : Nat) (e : MapEntry) (ty : Nat) : Dev :=
  let evac := ty == 7
  let k := match e.frames with | f :: _ => frameTile f | [] => p / 8
  let stop (d : Dev) : Dev := if evac then d.blockEvac (p / 8) page else d
  match d.jobKdom page e with
  | none => stop d
  | some kd =>
    if e.tier = 0 then
      match (if evac then d.evacDest k 1 else d.moveRun (d.homeTile page) 1) with
      | none => stop d
      | some f =>
        (d.bumpFree.setFrame f 1 0#16).launch p
          { ty, pages := [(page, e)], frames := [f], dest := [{ page, tier := 0, loc := locT1 f, kdom := kd, raw := e.raw }] }
    else if e.tier = 1 then
      let got : Option (Nat × Dev) :=
        if evac then
          match d.fitSlots k e.slots d.slotFrameOk with
          | some s => some (s, d.takeSlots s e.slots)
          | none => (d.evacDest k 1).map fun f =>
              match (if frameTile f = k then none else d.fitSlots (frameTile f) e.slots d.slotFrameOk) with
              | some s => (s, d.takeSlots s e.slots)
              | none => (f * 16, d.bumpFree.setFrame f 2 (slotMask 0 e.slots))
        else d.allocSlots (d.homeTile page) e.slots .move
      match got with
      | none => stop d
      | some (s, d) =>
        d.launch p { ty, pages := [(page, e)], frames := [s / 16], dest := [{ page, tier := 1, loc := locT2 e.slots s, kdom := kd, book := e.book }] }
    else
      let pages := d.segmentPages e
      if pages.all fun x => x.2.st == .stable && d.entryOk x.2 then
        match (if evac then d.evacDest k e.segRun else d.moveRun (d.homeTile page) e.segRun) with
        | none => stop d
        | some f =>
          (d.bumpFree.takeSegment f e.segRun 0#16).launch p
            { ty, pages := pages, frames := (List.range e.segRun).map (f + ·),
              dest := pages.map fun x => { page := x.1, tier := 2, loc := locT3 x.2.segIdx e.segRun f, kdom := kd, book := e.book } }
      else stop d

/-- Start a Build (R103): 16 candidates and a run of 15 frames. -/
def Dev.startBuild (d : Dev) (p page : Nat) : Dev :=
  let k := p / 8
  let pages := d.buildGroup k page
  if pages.length < 16 ∨ (pages.map Prod.fst).any (fun g => g != page && d.pageBusy g) then d
  else match d.moveRun k 15 with
    | none => d.raise 90 (pumpSlice p)
    | some f =>
      (d.bumpFree.takeSegment f 15 0#16).launch p
        { ty := 4, pages := pages, frames := (List.range 15).map (f + ·), book := d.encBook page, rst := d.fld (mtBase k + 0x9000) 30 28 }

/-- Start one queued job whose page is Stable and valid (R90, R98, R107, R241); a job that cannot start is dropped. -/
def Dev.startJob (d : Dev) (p : Nat) (q : JobReq) : Dev :=
  let page := q.page
  if page ≥ 2 ^ 40 then (if q.ty = 7 then d.startMeta p (page - 2 ^ 40) else d)
  else
    let e := d.entry page
    if e.st != .stable || !d.entryOk e || d.erasedPage e then d
    else match d.attrs page with
    | none => d
    | some r =>
      let clean := e.poison == 0
      match q.ty with
      | 1 =>
        if e.tier = 1 ∨ e.tier = 2 then
          match d.jobKdom page e, d.allocFrame (d.homeTile page) .promote 1 0#16 with
          | some kd, some (f, d) => d.launch p { ty := 1, pages := [(page, e)], frames := [f],
                                                 dest := [{ page, tier := 0, loc := locT1 f, kdom := kd }] }
          | _, _ => d
        else d
      | 2 =>
        if e.tier = 3 then
          match d.jobKdom page e, d.allocFrame (d.homeTile page) .promote 1 0#16 with
          | some kd, some (f, d) =>
            let (t, d) := d.newTag
            let d := d.launch p { ty := 2, pages := [(page, e)], frames := [f], need := 4096, readStart := true, remote := 1, tag := t,
                                  remSince := d.time.loc, dest := [{ page, tier := 0, loc := locT1 f, kdom := kd }] }
            d.send 0x10 { msg0 with dest := e.t4Dev, src := d.devId, tag := t, addr := e.t4Page * 4096 }
          | _, _ => d
        else d
      | 3 =>
        if e.tier = 0 ∧ !e.raw ∧ clean ∧ d.tierMax r ≥ 1 then
          d.launch p { ty := 3, pages := [(page, e)] }
        else d
      | 4 => if e.tier = 1 ∧ d.tierMax r ≥ 2 then d.startBuild p page else d
      | 5 =>
        match d.window page with
        | some g =>
          if e.tier ≤ 2 ∧ clean ∧ r.t4ok ∧ d.reachable g.peer then
            d.launch p { ty := 5, pages := [(page, e)] }
          else d
        | none => d
      | 6 =>
        if e.tier = 2 then
          d.launch p { ty := 6, pages := (d.segmentPages e).filter fun x =>
            x.2.st == .stable && d.entryOk x.2 && (d.attrs x.1).elim false (fun r => decide (d.tierMax r ≥ 1)) }
        else d
      | 7 => if e.frames.any (fun f => d.frameRetired f || d.rowRemapped f) then d.startCopy p page e 7 else d
      | 8 =>
        if !clean ∨ (d.book e.book).st ≠ .retiring then d
        else if e.tier = 1 then d.launch p { ty := 8, pages := [(page, e)] }
        else if e.tier = 2 then
          let pages := d.segmentPages e
          if pages.all fun x => x.2.st == .stable && x.2.poison == 0 then
            match d.moveRun (d.homeTile page) 15 with
            | none => d
            | some f =>
              (d.bumpFree.takeSegment f 15 0#16).launch p
                { ty := 8, pages := pages, frames := (List.range 15).map (f + ·), book := d.encBook page,
                  rst := d.fld (mtBase (p / 8) + 0x9000) 30 28 }
          else d
        else d
      | 9 =>
        if d.kdSt e.kdom ≠ .retiring then d
        else if e.tier = 3 then d.setEntry page { e with kdom := r.kdom }
        else d.startCopy p page e 9
      | _ => d

/-! ### Decoders (R132, R133) -/

/-- A job whose source must be decoded. -/
def Job.decodes (j : Job) : Bool :=
  (j.ty == 1 || j.ty == 4 || j.ty == 5 || j.ty == 6 || j.ty == 8) && j.pages.any fun x => x.2.tier == 1 || x.2.tier == 2

/-- Decoders that the pumps of a tile hold. -/
def Dev.pumpDecs (d : Dev) (k : Nat) : List Nat :=
  (List.range 8).filterMap fun i => (d.pump (8 * k + i)).job.bind Job.decoder

/-- The requests of a tile's home slices that need a decoder (R133): reads and inline promotions of pages in T2 or T3. -/
def Dev.homeDecs (d : Dev) (k : Nat) : List Nat :=
  ((d.reads.filter fun r => let e := d.entry (lnPage r.line)
      d.homeTile (lnPage r.line) == k && (e.tier == 1 || e.tier == 2)).map ReadIn.id) ++
    (d.promos.filter fun x => d.homeTile x.page == k && (x.old.tier == 1 || x.old.tier == 2)).map Promo.id

/-- The decoder of a home slice's request, if it holds one (R133): those that the pumps do not hold go to the requests in their order. -/
def Dev.homeDec (d : Dev) (k id : Nat) : Option Nat :=
  (((List.range 16).map (16 * k + ·)).filter fun n => !(d.pumpDecs k).contains n)[((d.homeDecs k).filter (· < id)).length]?

/-- A request of a home slice on a page of a tier may go on: it needs no decoder or holds one (R133). -/
def Dev.mayDecode (d : Dev) (page tier id : Nat) : Bool := !(tier == 1 || tier == 2) || (d.homeDec (d.homeTile page) id).isSome

/-- A decoder that a pump may take (R133): one is free, and the tile's pumps hold fewer than PUMP_DEC. -/
def Dev.freeDec (d : Dev) (k : Nat) : Option Nat :=
  let held := d.pumpDecs k
  if held.length < d.fld (mtBase k + 0x9000) 19 16 ∧ held.length + (d.homeDecs k).length < 16 then
    ((List.range 16).map (16 * k + ·)).find? fun n => !held.contains n
  else none

/-- A decode error is recorded in a decoder's registers and raised (R132). -/
def Dev.decodeError (d : Dev) (n page : Nat) (e : DecErr) : Dev :=
  (d.setDec n fun _ => { lastErr := e, errPage := page }).raise (if e = 1 then 94 else 93) (decSlice n)

/-- An encoder's verification failure (R142). -/
def Dev.verifyFail (d : Dev) (p : Nat) : Dev :=
  let d := d.setEnc p fun x =>
    let n := if x.vfailEpoch = d.epoch then satInc 15 x.vfail else 1
    { x with vfail := n, vfailEpoch := d.epoch, failed := x.failed || decide (n ≥ 4) }
  d.raise 95 (encSlice p)

/-! ### The read (R100, R102, R104, R138, R139) -/

/-- The bytes of the first `n` granules of a T1 page's frame. -/
def Dev.frameBytes (d : Dev) (e : MapEntry) (n : Nat) : List Byte :=
  (List.range n).flatMap fun i => let m := d.dramGran e.kdom (frameGran e.frame i); lineBytes m.1.1 ++ lineBytes m.2.1

/-- The stream that a decoder works on for a page, the history before it, newest word first, and the CRC it must meet. -/
def Dev.stepStream (d : Dev) (x : JobStep) : Except DecErr (Codes × List Nat × List Byte × BitVec 32) :=
  let e := x.e
  if e.tier = 1 then
    (blockStream e.slots e.book (d.slotBook e.book) (d.readUnits e.kdom 256 (e.slot * 256) e.slots)).map fun r => (r.1, [], r.2)
  else segStream e.segRun x.idx e.book (d.slotBook e.book) (d.readUnits e.kdom 4096 (e.frame * 4096) e.segRun)

/-- Plaintext of a page from its start to at least `n` bytes, and where the decode then stands: whole granules of a T1 page, whole
tokens of a stream (R138). -/
def Dev.stepRead (d : Dev) (x : JobStep) (n : Nat) : Except DecErr (List Byte × StreamPos) :=
  if x.e.tier = 0 then .ok (d.frameBytes x.e (min 32 ((n + 127) / 128)), {})
  else match d.stepStream x with
    | .error e => .error e
    | .ok (c, h, st, crc) =>
      match decodeTo c (min 2048 ((n + 1) / 2)) 2048 { bits := bytesBits st, hist := h, left := 2048 } with
      | .error e => .error e
      | .ok s =>
        let bs := wordsPage (s.hist.take (2048 - s.left)).reverse
        let at_ := st.length * 8 - s.bits.length
        if s.left = 0 ∧ s.bits.length ≥ 8 then .error 6
        else if s.left = 0 ∧ crc32c bs ≠ crc then .error 1
        else .ok (bs, { byteOff := at_ / 8, bitOff := at_ % 8, page := x.idx, words := 2048 - s.left, crc := crc32c bs })

/-- Read a job's pages from byte `a` of its plaintext to at least byte `b`; the pages of the list begin at byte `o`. -/
def Dev.readSteps (d : Dev) (a b : Nat) : Nat → List JobStep → Except (JobStep × DecErr) (List Byte × StreamPos)
  | _, [] => .ok ([], {})
  | o, x :: xs =>
    if b ≤ o then .ok ([], {})
    else if o + 4096 ≤ a then d.readSteps a b (o + 4096) xs
    else match d.stepRead x (min 4096 (b - o)) with
      | .error e => .error (x, e)
      | .ok (bs, pos) =>
        if b ≤ o + 4096 then .ok (bs.drop (a - o), pos)
        else (d.readSteps a b (o + 4096) xs).map fun r => (bs.drop (a - o) ++ r.1, r.2)

/-- What a job's next turn of at most `budget` bytes reads (R45, R138): the bytes counted, the plaintext for the source buffer, and the
position in the stream. The operation in progress when the budget is reached completes. -/
def Dev.advance (d : Dev) (j : Job) (budget : Nat) : Except (JobStep × DecErr) (Nat × List Byte × StreamPos) :=
  let b := min j.need (j.done + budget)
  if j.buffered then (d.readSteps j.done b 0 j.steps).map fun r => (r.1.length, r.1, r.2)
  else .ok (min (j.need - j.done) ((b - j.done + 127) / 128 * 128), [], {})

/-- The pages that a job stores, as read: the source buffer, the cistern in preference to it, and lost lines as poison (R111, R139,
R241). A write since the read start has dirtied its page, which then does not commit (R104). -/
def Dev.jobView (d : Dev) (p : Nat) (j : Job) : List (JobStep × List (Line × Bool)) :=
  (j.steps.zipIdx.filter fun x => !x.1.hist).map fun x =>
    let e := x.1.e
    let ls := (bytesLines (sub (d.enc p).src (x.2 * 4096) 4096)).zipIdx
    (x.1, d.pageView x.1.page (ls.map fun y => (y.1.1, e.tier == 0 && bit (Tbl.get 0 d.poison (frameGran e.frame (y.2 / 2))) (y.2 % 2))))

/-! ### Storing (R103, R128, R134 to R137, R141, R142) -/

/-- Store one page as a T2 block, or say why not (R128, R136): the destination and the frames it takes. -/
def Dev.storeT2 (d : Dev) (p page kd : Nat) (ls : List (Line × Bool)) (book : Nat) (rawOk : Bool) : Dev × JobDest × List Nat :=
  let verify := d.fld (mtBase (p / 8) + 0x9000) 31 31 == 1
  let raw (d : Dev) (setRaw : Bool) : Dev × JobDest × List Nat :=
    if rawOk then
      match d.allocFrame (d.homeTile page) .promote 1 0#16 with
      | none => (d, { page, how := 4 }, [])
      | some (f, d) => (d.writeFrame kd f ls, { page, tier := 0, loc := locT1 f, kdom := kd, raw := setRaw }, [f])
    else (d, { page, how := if setRaw then 1 else 2 }, [])
  match d.slotBook book with
  | none => (d, { page, how := 4 }, [])
  | some k =>
    match encodeBlock book k verify (linesBytes ls) with
    | .noGain => raw d true
    | .verifyFail => raw (d.verifyFail p) false
    | .ok bs =>
      let n := (bs.length + 255) / 256
      match d.allocSlots (d.homeTile page) n .move with
      | none => (d, { page, how := 4 }, [])
      | some (s, d) => (d.writeUnits kd 256 (s * 256) (padTo (n * 256) bs), { page, tier := 1, loc := locT2 n s, kdom := kd, book }, [s / 16])

/-- Store pages by index as a segment under a domain in a reserved run (R103, R137, R142); how each page fared. -/
def Dev.storeT3 (d : Dev) (p kd head : Nat) (book rst : Nat) (src : List (Option (Nat × List (Line × Bool)))) : Dev × List JobDest :=
  let verify := d.fld (mtBase (p / 8) + 0x9000) 31 31 == 1
  match d.slotBook book with
  | none => (d, src.filterMap fun x => x.map fun y => { page := y.1, how := 3 })
  | some k =>
    let s := SegSt.pages k (rstPages rst) verify {} 0 (src.map fun x => x.map fun y => linesBytes y.2)
    let d := forAll d s.bad fun d _ => d.verifyFail p
    let bs := s.bytes book k (rstPages rst) verify
    let run := (bs.length + 4095) / 4096
    let d := if s.incl = 0 then d else d.writeUnits kd 4096 (head * 4096) (padTo (run * 4096) bs)
    (d, (src.zipIdx).filterMap fun x => x.1.map fun y =>
      if bit s.incl x.2 then { page := y.1, tier := 2, loc := locT3 x.2 run head, kdom := kd, book } else { page := y.1, how := 3 })

/-- A job that writes a segment: Build, and Re-encode of T3. -/
def Job.segment (j : Job) : Bool := j.ty == 4 || j.ty == 8 && !j.frames.isEmpty && j.pages.any fun x => x.2.tier == 2

/-- The pages of a new segment by index, with the index of each among the job's steps: a Build's in its order, a Re-encode's where they
were (R144). -/
def Job.segInput (j : Job) : List (Option (JobStep × Nat)) :=
  if j.ty = 4 then j.steps.zipIdx.map some else (List.range 16).map fun i => j.steps.zipIdx.find? fun x => !x.1.hist && x.1.idx == i

/-- A page is all zeros. -/
def allZero (ls : List (Line × Bool)) : Bool := ls.all fun l => l.1 == 0#512 && !l.2

def anyPoison (ls : List (Line × Bool)) : Bool := ls.any Prod.snd

/-- Send a page to its owner (R282): Page Place, then 32 Page Data. -/
def Dev.sendPage (d : Dev) (dev tag addr : Nat) (ls : List (Line × Bool)) : Dev :=
  forAll d (List.range 32) fun d i =>
    let a := ls.getD (2 * i) (0#512, false)
    let b := ls.getD (2 * i + 1) (0#512, false)
    d.send 0x28 { msg0 with dest := dev, src := d.devId, tag := tag, addr := addr + i * 128, mval := b2n a.2 + 2 * b2n b.2,
                            data := a.1, data2 := b.1 }

/-- The job is ready for its commit phase. -/
def Dev.jobReady (d : Dev) (p : Nat) (j : Job) : Dev :=
  d.setPump p fun x => { x with st := 2, job := some { j with done := j.need, decoder := none, waitDec := false }, finished := some d.time.loc }

/-- Copy one page's stored form to its destination under the domain it goes to (R148, R154, R245). -/
def Dev.copyStored (d : Dev) (e : MapEntry) (x : JobDest) (ls : List (Line × Bool)) : Dev :=
  if e.tier = 0 then d.writeFrame x.kdom x.loc.toNat ls
  else if e.tier = 1 then d.writeUnits x.kdom 256 (bits x.loc.toNat 35 0 * 256) (d.readUnits e.kdom 256 (e.slot * 256) e.slots)
  else d.writeUnits x.kdom 4096 (bits x.loc.toNat 31 0 * 4096) (d.readUnits e.kdom 4096 (e.frame * 4096) e.segRun)

/-- A job that moves a segment's run as it is. -/
def Job.segCopy (j : Job) : Bool := (j.ty == 7 || j.ty == 9) && j.pages.any fun x => x.2.tier == 2

/-- Encode and store the pages of a T2-bound job one after the other, each under its own book (R134). -/
def Dev.storeAll (d : Dev) (p : Nat) (j : Job) (src : List (JobStep × List (Line × Bool))) : Dev × List JobDest × List Nat :=
  src.foldl (fun (acc : Dev × List JobDest × List Nat) x =>
    let g := x.1.page
    if j.ty = 3 ∧ allZero x.2 ∧ (acc.1.attrs g).elim false Region.zeroElide then (acc.1, acc.2.1 ++ [{ page := g, how := 5 }], acc.2.2)
    else match acc.1.jobKdom g x.1.e with
      | none => (acc.1, acc.2.1 ++ [{ page := g, how := 4 }], acc.2.2)
      | some kd =>
        let y := acc.1.storeT2 p g kd x.2 x.1.book (j.ty != 3)
        (y.1, acc.2.1 ++ [{ y.2.1 with poisoned := anyPoison x.2 }], acc.2.2 ++ y.2.2)) (d, [], [])

/-- The whole source has been read: encode it and fill the destination. Nothing reads a destination before its commit, so the model fills
it here whole, where the pump fills it granule by granule (R140; DESIGN CHOICE, log 74). -/
def Dev.finishJob (d : Dev) (p : Nat) (j : Job) : Dev :=
  if j.metaRun.isSome ∨ j.ty = 2 then d.jobReady p j
  else if j.ty = 7 ∨ j.ty = 9 then
    let view (x : Nat × MapEntry) : List (Line × Bool) := match d.storedPage x.2 with | .ok r => d.pageView x.1 r.1 | .error _ => []
    let xs := (j.pages.zip j.dest).map fun x => (x.1.2, x.2, if x.1.2.tier = 0 then view x.1 else [])
    let d := forAll d (if j.segCopy then xs.take 1 else xs) fun d x => d.copyStored x.1 x.2.1 x.2.2
    d.jobReady p { j with dest := xs.map fun x => { x.2.1 with poisoned := x.1.tier != 0 || anyPoison x.2.2 } }
  else
    let src := d.jobView p j
    if j.ty = 1 then
      let xs := src.zip j.dest
      (forAll d xs fun d x => d.writeFrame x.2.kdom x.2.loc.toNat x.1.2).jobReady p
        { j with dest := xs.map fun x => { x.2 with poisoned := anyPoison x.1.2 } }
    else if j.segment then
      match (src.head?).bind fun x => d.jobKdom x.1.page x.1.e with
      | none => d.jobReady p { j with dest := src.map fun x => { page := x.1.page, how := 4 } }
      | some kd =>
        let at_ (x : JobStep) : Option (Nat × List (Line × Bool)) := (src.find? fun y => y.1 == x).map fun y => (y.1.page, y.2)
        let r := d.storeT3 p kd (j.frames.headD 0) j.book j.rst (j.segInput.map fun x => x.bind fun y => at_ y.1)
        r.1.jobReady p { j with dest := r.2 }
    else if j.ty = 5 then
      match src with
      | x :: _ =>
        match d.window x.1.page with
        | none => d.jobReady p { j with dest := [{ page := x.1.page, how := 4 }] }
        | some w =>
          let (t, d) := d.newTag
          let op := w.toOwner x.1.page
          let d := d.send 0x11 { msg0 with dest := w.peer, src := d.devId, tag := t, addr := op * 4096 }
          let d := d.sendPage w.peer t (op * 4096) x.2
          let j := { j with dest := [{ page := x.1.page, tier := 3, loc := locT4 w.peer op, kdom := x.1.e.kdom, poisoned := anyPoison x.2 }],
                            remote := 1, remSince := d.time.loc, tag := t, done := j.need, decoder := none }
          d.setPump p fun y => { y with st := 2, job := some j }
      | [] => d.jobReady p j
    else
      let r := d.storeAll p j src
      r.1.jobReady p { j with dest := r.2.1, frames := r.2.2 }

/-- Use the budget that the pump has left (R45, R102). A job whose fence has ended fences again where a line has been granted before its
read start (R111). -/
def Dev.pumpRun (d : Dev) (p : Nat) : Dev :=
  let x := d.pump p
  match x.job with
  | none => d
  | some j =>
    if j.fencing || j.remote != 0 || x.finished.isSome || x.st == 5 || x.st == 6 then d
    else if j.mustFence && !j.readStart && !(j.pages.all fun g => d.fenceDone g.1) then
      forAll (d.setPump p fun x => { x with st := 3, job := some { j with fencing := true } }) j.pages fun d g => d.fencePage g.1
    else
      let dec := if j.decodes && j.decoder.isNone then d.freeDec (p / 8) else j.decoder
      if j.decodes && dec.isNone then d.setPump p fun x => { x with st := 2, job := some { j with waitDec := true } }
      else if x.budget = 0 ∧ j.need > j.done then d.setPump p fun x => { x with st := 2 }
      else match d.advance j x.budget with
        | .error (s, err) => (d.decodeError (dec.getD (16 * (p / 8))) s.page err).haltPump p 2 s.page 0
        | .ok (n, bs, pos) =>
          let j := { j with done := j.done + n, pos := pos, readStart := true, decoder := dec, waitDec := false }
          let d := if j.buffered then d.setEnc p fun y => { y with src := y.src ++ bs } else d
          let d := d.setPump p fun x => { x with st := if j.done < j.need then 2 else 1, job := some j, budget := x.budget - n }
          if j.done < j.need then d else d.finishJob p j

/-- Take queued jobs until one starts. -/
def Dev.takeJob (d : Dev) (p : Nat) : Nat → Dev
  | 0 => d
  | n + 1 =>
    match d.pickJob p with
    | none => d
    | some q =>
      let d := d.setTile (p / 8) fun t => { t with queue := t.queue.erase q }
      let d := d.startJob p q
      if (d.pump p).job.isSome then d.pumpRun p else d.takeJob p n

/-- A pump may work: enabled, not in the brace state, not stopped or halted (R109, R110). -/
def Dev.pumpFree (d : Dev) (p : Nat) : Bool :=
  decide (p < d.nPumps) && !d.pumpOff p && d.pwr.done == 0 && (d.pump p).job.isNone && (d.pump p).st == 0

/-- PUMP_JOB_START (R101). -/
def Dev.pumpJobStart (d : Dev) (p : Nat) : Dev := if d.pumpFree p then d.takeJob p 256 else d

/-- DECODER_AVAILABLE (R133): a decoder of a tile that the pumps may have and no pump holds goes to the lowest of its pumps that wait for
one. -/
def Dev.decoderAvailable (d : Dev) (k n : Nat) : Dev :=
  match ((List.range 8).map (8 * k + ·)).find? fun p => (d.pump p).job.elim false Job.waitDec with
  | none => d
  | some p =>
    if k < d.nTiles ∧ n < 16 ∧ !(d.pumpDecs k).contains (16 * k + n) ∧ (d.freeDec k).isSome then
      (d.setPump p fun x => { x with job := x.job.map fun j => { j with decoder := some (16 * k + n), waitDec := false } }).pumpRun p
    else d

/-- FENCE_COMPLETE (R111): lines still cached are back-invalidated; when none is cached or held the fence ends. -/
def Dev.fenceComplete (d : Dev) (p : Nat) : Dev :=
  match (d.pump p).job with
  | none => d
  | some j =>
    if j.fencing ∧ (d.pump p).st = 3 then
      let d := forAll d j.pages fun d x => d.fencePage x.1
      if j.pages.all fun x => d.fenceDone x.1 then
        (d.setPump p fun x => { x with st := 1, job := some { j with fencing := false } }).pumpRun p
      else d
    else d

/-! ### Ending a job (R105, R106, R108, R109) -/

/-- Ask an owner to free a page (R284). -/
def Dev.sendPageFree (d : Dev) (dev addr : Nat) : Dev :=
  let (t, d) := d.newTag
  let d := { d with cas := { d.cas with frees := d.cas.frees ++ [({ tag := t, dest := dev, addr := addr, since := d.time.loc } : FreeOut)] } }
  d.send 0x12 { msg0 with dest := dev, src := d.devId, tag := t, addr := addr }

/-- Free the destination that a job reserved for one page (R106). -/
def Dev.freeDest (d : Dev) (x : JobDest) (acked : Bool) : Dev :=
  if x.how ≠ 0 then d
  else if x.tier = 0 then d.freeFrame (bits x.loc.toNat 31 0)
  else if x.tier = 1 then d.freeSlots (bits x.loc.toNat 35 0) (bits x.loc.toNat 39 36)
  else if x.tier = 3 ∧ acked then d.sendPageFree (bits x.loc.toNat 45 34) (bits x.loc.toNat 33 0 * 4096)
  else d

/-- Release the frames of a reserved run that holds no live page, or those beyond the part used. -/
def Dev.trimRun (d : Dev) (frames : List Nat) (keep : Nat) : Dev :=
  forAll d (frames.drop keep) fun d f => d.freeFrame f

/-- Frames used of a job's reserved segment run: none when no page of it is live. -/
def Dev.runUsed (d : Dev) (j : Job) : Nat :=
  match j.frames with
  | [] => 0
  | h :: _ =>
    if (d.frameRec h).mask = 0#16 then 0
    else ((j.dest.filter fun x => x.how == 0 && x.tier == 2).map fun x => bits x.loc.toNat 35 32 + 1).foldl max 0

/-- A job of a segment's run: Build, and Re-encode, Evacuate or Re-key of T3. -/
def Job.ownsRun (j : Job) : Bool := j.segment || j.segCopy

/-- A page of an ended job that has not committed returns to its source. -/
def Dev.restorePage (d : Dev) (p page : Nat) : Dev :=
  let e := d.entry page
  if e.st = .moving ∧ e.owner = p % 8 then d.setEntry page { e with st := .stable, owner := 0 } else d

/-- The pump's job is over: the decoder and the run's unused part are free, and the encoder's state is lost (R140); a parked job comes
back. -/
def Dev.endJob (d : Dev) (p result pages : Nat) : Dev :=
  let d := match (d.pump p).job with
    | some j =>
      let d := if j.buffered then d.setEnc p fun x => { x with src := [] } else d
      if j.tag ≠ 0 ∨ j.remote ≠ 0 then d.restTag j.tag else d
    | none => d
  d.setPump p fun x =>
    { x with st := if x.parked.isSome then 2 else 0, job := x.parked, parked := none, result := result, pages := pages, finished := none, halt := 0 }

/-- Roll a job back to before it started (R108, R109, R156). -/
def Dev.rollBack (d : Dev) (p result : Nat) : Dev :=
  match (d.pump p).job with
  | none => d
  | some j =>
    let d := forAll d j.pages fun d x => d.restorePage p x.1
    let d := if j.ownsRun then d.trimRun j.frames 0
      else if j.metaRun.isSome then forAll d j.frames fun d f => d.freeFrame f
      else forAll d j.dest fun d x => d.freeDest x (j.remote == 2)
    d.endJob p result 0

/-- Whether a Pull's commit is to be refused (R283). -/
def Dev.pullStale (d : Dev) (j : Job) (page : Nat) : Bool :=
  j.grantSeen || d.cas.fwd.any fun f => f.page == page && (match f.kind with | .write .. => false | .cleanEvict => false | _ => d.groupOf page != 0)

/-- The entry of a committed page. -/
def commitEntry (e : MapEntry) (x : JobDest) : MapEntry :=
  { e with st := .stable, owner := 0, tier := x.tier, loc := x.loc, raw := x.raw, kdom := x.kdom,
           book := if x.tier = 1 ∨ x.tier = 2 then x.book else 0,
           poison := if e.poison = 1 ∧ !x.poisoned then 0 else e.poison }

/-- Place a promoted or pulled page in the cistern as PUMP_HINT directs: its granules that are absent from it (R186). -/
def Dev.pumpHint (d : Dev) (page : Nat) : Dev :=
  let h := d.fld (mtBase (d.homeTile page) + 0xB000) 1 0
  if h = 0 then d
  else
    let e := d.entry page
    match d.storedPage e with
    | .error _ => d
    | .ok r =>
      forAll d (List.range 32) fun d i =>
        let line := page * 64 + 2 * i
        let was := d.gran (lnGran line)
        if was.v0 || was.v1 then d
        else
          let a := r.1.getD (2 * i) (0#512, false)
          let b := r.1.getD (2 * i + 1) (0#512, false)
          ((d.fillLine line a.1 a.2).fillLine (line + 1) b.1 b.2).hintGran line { kind := h, tile := 15 }

/-- Ask the home slice to replace one page's entry (R105): 0 committed, 1 refused, 2 not part of the result. -/
def Dev.commitOne (d : Dev) (p : Nat) (j : Job) (x : JobDest) : Dev × Nat :=
  let e := d.entry x.page
  let ok := e.st == .moving && e.owner == p % 8 && !(j.dirty.contains x.page) && (j.ty != 2 || !d.pullStale j x.page)
  if !ok ∨ x.how = 4 then
    let d := (if j.ownsRun then d else d.freeDest x (j.remote == 2)).restorePage p x.page
    (if j.ty = 7 then d.queueFirst 7 x.page else d, 1)
  else if x.how = 3 then (d.restorePage p x.page, 2)
  else if x.how = 1 ∨ x.how = 2 then
    (d.setEntry x.page { e with st := .stable, owner := 0, raw := e.raw || x.how == 1 }, 0)
  else if x.how = 5 then
    let d := d.setEntry x.page { kdom := e.kdom }
    ((d.releaseStorage e).cleanPage x.page, 0)
  else
    let d := d.setEntry x.page (commitEntry e x)
    let d : Dev := if x.tier = 2 then
        let h := bits x.loc.toNat 31 0
        d.setFrame h 3 ((d.frameRec h).mask ||| slotMask (bits x.loc.toNat 39 36) 1)
      else d
    let d : Dev := match (e.frames.head?).bind d.place with
      | some q => if (d.rank q.ch q.r).st == .retired then d.setRank q.ch q.r fun r => { r with moved := r.moved + 1 } else d
      | none => d
    let d := if e.tier = 3 then d.sendPageFree e.t4Dev (e.t4Page * 4096) else d.releaseStorage e
    let d := if j.ty = 3 ∨ j.ty = 4 ∨ j.ty = 5 then d.cleanPage x.page else if j.ty = 2 then d.dropPage x.page else d
    let d := if j.ty = 1 ∨ j.ty = 2 then d.pumpHint x.page else d
    let d := if j.ty = 7 then d.setTile (p / 8) fun t => if t.stuck.isEmpty then { t with blocked := false } else t else d
    (d, 0)

/-- A Metadata run has been copied (R87, R467): its frames go, the run is at its new place. -/
def Dev.commitMeta (d : Dev) (j : Job) (f : Nat) : Dev :=
  let g := j.frames.headD 0
  let d := { d with metaRuns := d.metaRuns.map fun m =>
    if m.prim = f then { m with prim := g } else if m.mirror = some f then { m with mirror := some g } else m }
  forAll d ((List.range 16).map (f + ·)) fun d x => d.freeFrame x

/-- COMMIT_PHASE (R105), at step 6 of the boundary after the stroke in which the job became ready. -/
def Dev.commitPhase (d : Dev) (p : Nat) : Dev :=
  match (d.pump p).job, (d.pump p).finished with
  | some j, some t =>
    if t < d.time.loc ∧ (d.pump p).st ≠ 5 ∧ (d.pump p).st ≠ 6 ∧ !(d.pump p).abort then
      match j.metaRun with
      | some f => ((d.commitMeta j f).endJob p 1 0)
      | none =>
        let d := d.setPump p fun x => { x with st := 4 }
        let r := j.dest.foldl (fun (acc : Dev × List Nat) x => let y := acc.1.commitOne p j x; (y.1, acc.2 ++ [y.2])) (d, [])
        let d := if j.ownsRun then r.1.trimRun j.frames (r.1.runUsed j) else r.1
        d.endJob p (if r.2.contains 1 then 4 else 1) (r.2.filter (· == 0)).length
    else d
  | _, _ => d

/-- The strokes that a page of a job has waited on its fence (R112). -/
def Job.waited (j : Job) (page : Nat) : Nat := Tbl.get 0 j.waits page

/-- A job without some of its pages, whose reading has not started (R112): they return to their sources, and what was reserved for them
is free. -/
def Dev.dropPages (d : Dev) (p : Nat) (j : Job) (gone : List Nat) : Dev :=
  let d := forAll d gone fun d g => d.restorePage p g
  let d := if j.ownsRun then d else forAll d (j.dest.filter fun x => gone.contains x.page) fun d x => d.freeDest x false
  let pages := j.pages.filter fun x => !gone.contains x.1
  let steps := (d.jobSteps j.ty pages).map fun x =>
    { x with book := (j.steps.find? fun y => y.page == x.page).elim x.book JobStep.book }
  d.setPump p fun x => { x with result := 5, job := some { j with pages, steps, need := 4096 * steps.length,
                                                                  dest := j.dest.filter fun x => !gone.contains x.page } }

/-- FENCE_ABANDON (R112): the pages that have waited HOLD_LIMIT strokes are abandoned; the job goes on with the others, if any. -/
def Dev.fenceAbandon (d : Dev) (p : Nat) : Dev :=
  match (d.pump p).job with
  | none => d
  | some j =>
    let slow := (j.pages.map Prod.fst).filter fun g => !d.fenceDone g && decide (j.waited g ≥ d.fld (pumpBase p) 23 16)
    if j.fencing ∧ slow ≠ [] then
      let d := d.setTile (p / 8) fun t => { t with shy := (t.shy.filter fun x => decide (d.epoch < x.2 + 16)) ++ slow.map fun g => (g, d.epoch) }
      let d := if slow.length = j.pages.length then d.rollBack p 5 else d.dropPages p j slow
      forAll d slow fun d _ => d.raise 91 (pumpSlice p)
    else d

/-- PUMP_ABORT (R108): a write of ABORT by a sender with manager rights. -/
def Dev.pumpAbort (d : Dev) (s : Src) (p : Nat) : Dev :=
  if d.regOk s ∧ p < d.nPumps then d.setPump p fun x => { x with abort := true } else d

/-- Discard a halted job (R109). -/
def Dev.discardHalted (d : Dev) (p : Nat) : Dev := if (d.pump p).st = 5 then d.rollBack p 6 else d

/-- PUMP_RESUME (R109): a write of RESUME by a sender with manager rights; ignored unless the pump is halted. -/
def Dev.pumpResume (d : Dev) (s : Src) (p : Nat) : Dev := if d.regOk s ∧ p < d.nPumps then d.discardHalted p else d

/-! ### At a stroke boundary (R45, R108, R110, R240, R246) -/

/-- Step 6: the pending abort of a pump. A pump without a job has nothing to roll back: RESULT reads already complete (R108; for a pump
whose last job did not just complete the manual does not say: DESIGN CHOICE, log 77). -/
def Dev.examineAbort (d : Dev) (p : Nat) : Dev :=
  if (d.pump p).abort then
    let d := if (d.pump p).job.isNone then d.setPump p fun x => { x with result := 2 } else d.rollBack p 3
    d.setPump p fun x => { x with abort := false }
  else d

/-- What becomes of the data that halted a pump (R240); then RESUME, and the job is queued again. -/
def Dev.haltDisposal (d : Dev) (p : Nat) : Dev :=
  let x := d.pump p
  match x.job with
  | none => d
  | some j =>
    if x.st = 5 ∧ x.haltAt < d.time.loc ∧ !d.cores.away ∧ !d.cores.halted then
      let e := (j.pages.find? fun y => y.1 == x.haltPage).map Prod.snd
      let d := d.discardHalted p
      let d :=
        if x.halt = 3 then
          let f := x.haltGran / 32
          let d := d.setFrame f 7 0#16
          match d.place f with
          | some q => d.setRank q.ch q.r fun r =>
              let w := if r.ueWin.any fun y => y.1 == x.haltGran then r.ueWin else r.ueWin ++ [(x.haltGran, d.time.loc)]
              { r with ueWin := w, trigger := if w.length ≥ d.fld 0x380 23 16 ∧ r.trigger = 0 then 3 else r.trigger }
          | none => d
        else
          match e with
          | some e => if x.halt = 1 ∧ e.tier = 0 then d.poisonGran x.haltPage (x.haltPage * 32 + x.haltGran % 32) x.haltGran 3
                      else d.losePage x.haltPage
          | none => d
      forAll d (j.pages.take 1) fun d y => d.queueJob j.ty y.1
    else d

/-- Stopping in the brace state or with ENABLE clear, and starting again (R110). -/
def Dev.pumpStop (d : Dev) (p : Nat) : Dev :=
  let stop := d.pumpOff p
  d.setPump p fun x =>
    if stop then { x with st := if x.st = 5 then 5 else 6 }
    else if x.st = 6 then { x with st := if x.job.isNone then 0 else if (x.job.elim false Job.fencing) then 3 else 2 }
    else x

/-- A cut job gives its decoder up: any decoder of the tile continues the decode (R139). -/
def Dev.pumpCut (d : Dev) (p : Nat) : Dev := d.setPump p fun x => { x with job := x.job.map fun j => { j with decoder := none } }

/-- Refill a pump's budget (R45, R95, R338, R386), less the bytes by which the channel scheduler or a held line keeps it back (R44). -/
def Dev.pumpRefill (d : Dev) (held : List (Nat × Nat)) (p : Nat) : Dev :=
  let k := p / 8
  let sweep := if d.sweepPump k = some p then d.fld (mtBase k + 0x8010) 28 24 * 256 else 0
  let evac := ((d.pump p).job.elim true fun j => j.ty == 7)
  let b := if (d.therm.enforced && !evac) || d.pwr.done != 0 then 0 else d.pumpBudget p - sweep - ((held.filter fun x => x.1 == p).map Prod.snd).sum
  d.setPump p fun x => { x with budget := b }

/-- A fence that reaches a boundary: each page that still waits has waited one stroke more, and the fence goes on, or is abandoned on a
page at its limit (R112). -/
def Dev.fenceTick (d : Dev) (p : Nat) : Dev :=
  match (d.pump p).job with
  | some j =>
    if j.fencing then
      let waits := (j.pages.filter fun x => !d.fenceDone x.1).foldl (fun t x => Tbl.set 0 t x.1 (j.waited x.1 + 1)) j.waits
      (forAll (d.setPump p fun x => { x with job := some { j with waits } }) j.pages fun d x => d.fencePage x.1).fenceAbandon p
    else d
  | none => d

/-- A request that waits for a page on a Retired rank has its Evacuate job taken by the lowest-numbered pump that is not
halted, whose own job is cut (R246). -/
def Dev.urgentEvac (d : Dev) (k : Nat) : Dev :=
  match (d.tile k).queue with
  | q :: rest =>
    if q.front ∧ q.ty = 7 then
      match d.sweepPump k with
      | none => d
      | some p =>
        let x := d.pump p
        if x.st = 6 ∨ x.parked.isSome ∨ x.finished.isSome ∨ (x.job.elim false fun j => j.ty == 7) then d
        else
          let d := d.setTile k fun t => { t with queue := rest }
          let d := (d.pumpCut p).setPump p fun x => { x with parked := x.job, job := none, st := 0 }
          let d := d.startJob p q
          if (d.pump p).job.isSome then d.pumpRun p
          else d.setPump p fun y => { y with job := y.parked, parked := none, st := x.st }
    else d
  | [] => d

/-- Step 6 of a boundary: aborts first, then stops, commit phases, budgets, fences and resumed jobs (R105, R108, R110). -/
def Dev.pumpsStep6 (d : Dev) (held : List (Nat × Nat)) : Dev :=
  let ps := List.range d.nPumps
  let d := forAll d ps Dev.examineAbort
  let d := forAll d ps Dev.pumpStop
  let d := forAll d ps Dev.commitPhase
  let d := forAll d ps Dev.pumpCut
  let d := forAll d ps fun d p => d.pumpRefill held p
  let d := forAll d (tileList d) Dev.urgentEvac
  let d := forAll d ps Dev.fenceTick
  forAll d ps Dev.pumpRun

/-! ### Heat decay and the sweep (R94 to R99) -/

/-- A heat decay pass starts: at the first stroke of an epoch, or owed at the first boundary after wake (R42, R43). -/
def Dev.decayDue (d : Dev) : Bool := (d.pool % 1024 == 0 || d.oweD) && d.decayEp != d.epoch + 1

/-- The tiles wake: the passes that fell due while they were stopped count as missed, and one pass is owed (R42). -/
def Dev.oweDecay (d : Dev) : Dev := if d.decayEp < d.epoch + 1 then { d with oweD := true, missD := d.epoch + 1 - d.decayEp } else d

/-- HEAT_DECAY_PASS (R43, R94): a pass over the entries resident in the map cache, in ascending page, starts or goes on at its saved
position; `resident` are the entries that this turn reaches. -/
def Dev.heatDecayPass (d : Dev) (resident : List Nat) : Dev :=
  let d := if d.decayDue then { d with decayEp := d.epoch + 1, decayPos := 0, oweD := false } else d
  if d.decayEp = d.epoch + 1 then
    let l := (resident.filter d.homed).filter fun g => decide (d.decayPos ≤ g)
    { forAll d l fun d g => d.setEntry g (d.warm (d.homeTile g) (d.entry g)) with decayPos := (l.map (· + 1)).foldl max d.decayPos }
  else d

/-- The fence on a page was abandoned within the last 16 epochs (R112). -/
def Dev.isShy (d : Dev) (k page : Nat) : Bool := (d.tile k).shy.any fun x => x.1 == page && decide (d.epoch < x.2 + 16)

/-- Add a page to a tile's candidate list, and queue a Build when 16 agree (R99). A newcomer to a full list is dropped (DESIGN CHOICE,
log 76). -/
def Dev.addCand (d : Dev) (k page : Nat) : Dev :=
  let c := (d.tile k).cands
  let d := if c.contains page ∨ c.length ≥ 64 then d else d.setTile k fun t => { t with cands := t.cands ++ [page] }
  if (d.buildGroup k page).length ≥ 16 then
    match (d.buildGroup k page).head? with
    | some x => if (d.tile k).queue.any fun j => j.ty == 4 && (d.buildGroup k page).any (fun y => y.1 == j.page) then d else d.queueJob 4 x.1
    | none => d
  else d

/-- The job that a sweep visit calls for (R97, R98, R144, R154): the first in the order of the trigger table, moves out of a forbidden tier
first. A page that becomes a candidate of a Build may be pushed, re-encoded or re-keyed before. -/
def Dev.sweepJob (d : Dev) (k page : Nat) : Dev :=
  let e := d.entry page
  let cfg := mtBase k + 0x8000
  match d.attrs page with
  | none => d
  | some r =>
    let high := d.atHigh k
    let cold (lim : Nat) : Bool := decide (e.cold ≥ (if high then 1 else lim))
    if e.st != .stable || d.pageBusy page || d.isShy k page then d
    else if (e.tier = 1 ∧ d.tierMax r < 1) ∨ (e.tier = 2 ∧ d.tierMax r < 2) then d.queueJob 1 page
    else if e.tier = 3 ∧ (!r.t4ok ∨ (d.window page).isNone) then d.queueJob 2 page
    else if e.tier = 0 ∧ !e.raw ∧ e.poison = 0 ∧ d.tierMax r ≥ 1 ∧ cold (d.fld cfg 15 12) then d.queueJob 3 page
    else
    let d := if e.tier = 1 ∧ e.poison = 0 ∧ d.tierMax r ≥ 2 ∧ cold (d.fld cfg 11 8) then d.addCand k page else d
    if e.tier ≤ 2 ∧ e.poison = 0 ∧ high ∧ r.t4ok ∧ cold (d.fld cfg 7 4) ∧ ((d.window page).elim false fun g => d.reachable g.peer) then
      d.queueJob 5 page
    else if (e.tier = 1 ∨ e.tier = 2) ∧ e.poison = 0 ∧ (d.book e.book).st = .retiring then d.queueJob 8 page
    else if d.kdSt e.kdom = .retiring then d.queueJob 9 page
    else d

/-- One sweep visit (R94, R98, R156). -/
def Dev.sweepVisit (d : Dev) (k page : Nat) : Dev :=
  let e := d.entry page
  if d.erasedPage e then d.unback page
  else if e.st = .unbacked then d
  else
    let e := d.warm k e
    let d := d.setEntry page { e with cold := if e.heat = 0 then satInc 15 e.cold else e.cold }
    if d.entryOk e && e.poison != 3 then d.sweepJob k page else d.raisePage 87 page

/-- The first page at or after `g` that is homed on a tile. -/
def Dev.nextHomed (d : Dev) (k : Nat) : Nat → Nat → Option Nat
  | 0, _ => none
  | n + 1, g => if !d.homed g then none else if d.homeTile g = k then some g else d.nextHomed k n (g + 1)

/-- A pass starts: the tile flips its parity and records the epoch (R95). -/
def Dev.passStart (d : Dev) (k : Nat) : Dev :=
  d.setTile k fun t => { t with parity := !t.parity, passEpoch := d.epoch, sweepPos := 0 }

/-- One entry of the walk; at the end of a pass the next one starts. -/
def Dev.sweepOne (d : Dev) (k : Nat) : Dev :=
  match d.nextHomed k 256 (d.tile k).sweepPos with
  | some g => (d.sweepVisit k g).setTile k fun t => { t with sweepPos := g + 1 }
  | none =>
    let d := (d.setTile k fun t => { t with stale := false }).passStart k
    match d.nextHomed k 256 0 with
    | some g => (d.sweepVisit k g).setTile k fun t => { t with sweepPos := g + 1 }
    | none => d

/-- SWEEP_STEP (R95): SWEEP_BYTES of entries, once per stroke, on the tile's lowest pump that is not halted. -/
def Dev.sweepStep (d : Dev) (k : Nat) : Dev :=
  match d.sweepPump k with
  | none => d
  | some p =>
    if k < d.nTiles ∧ (d.tile k).sweptAt ≠ d.time.loc + 1 ∧ !d.pumpOff p ∧ d.pwr.done = 0 ∧ d.cfg.capacity > 0 then
      forAll (d.setTile k fun t => { t with sweptAt := d.time.loc + 1 }) (List.range (d.fld (mtBase k + 0x8010) 28 24 * 16)) fun d _ => d.sweepOne k
    else d

/-- SWEEP_STALE (R96): 2^15 epochs since the pass began. -/
def Dev.sweepStale (d : Dev) (k : Nat) : Dev :=
  if k < d.nTiles ∧ d.epoch ≥ (d.tile k).passEpoch + 2 ^ 15 then
    ((d.setTile k fun t => { t with stale := true }).raise 89 (mtSlice k)).passStart k
  else d

/-- References to a book slot from a tile's pages, or from every tile's. -/
def Dev.bookRefs (d : Dev) (n : Nat) : Nat :=
  (d.wmap.filter fun x => x.2.st != .unbacked && (x.2.tier == 1 || x.2.tier == 2) && x.2.book == n).length

/-- BOOK_SLOT_RETIRE_END (R145): a Retiring slot without references. -/
def Dev.bookSlotRetireEnd (d : Dev) (n : Nat) : Dev :=
  if n < 16 ∧ (d.book n).st = .retiring ∧ d.bookRefs n = 0 then
    (d.setBook n fun b => match b.pending with
      | some x => { st := .live, book := some x, pending := none }
      | none => {}).raise 96 (mtSlice 0)
  else d

/-! ### Commands that end without effect (R31, R108, R194, R249) -/

/-- A Retire Rank that is aborted (R249): the rank returns to the state it held, unless a trigger has arisen on it. -/
def Dev.retireBack (d : Dev) (ch r : Nat) : Dev :=
  let x := d.rank ch r
  if x.st = .retired ∧ x.byCommand ∧ x.trigger = 0 then
    (d.setRank ch r fun x => { x with st := x.prev, byCommand := false }).setTile (ch / 8) fun t =>
      { t with evacs := t.evacs.filter (· != { ch := ch, r := r }) }
  else d.setRank ch r fun x => { x with byCommand := false }

/-- The pumps that run Evacuate jobs of a rank examine an abort at step 6 of this boundary (R108). -/
def Dev.abortEvacs (d : Dev) (ch r : Nat) : Dev :=
  let here (f : Nat) : Bool := match d.place f with | some q => q.ch == ch && q.r == r | none => false
  forAll d ((List.range d.nPumps).filter fun p => (d.pump p).job.elim false fun j =>
      j.ty == 7 && (j.pages.any (fun x => x.2.frames.any here) || j.metaRun.any here)) fun d p => d.setPump p fun x => { x with abort := true }

/-- A Rejoining domain returns to Down, and the device broadcasts Domain Down again. -/
def Dev.rejoinBack (d : Dev) (g : Nat) : Dev :=
  let x := d.dom g
  (d.setDom g fun x => { x with st := .down, want := none, acks := [], ackAll := false }).broadcast 1
    { bcast0 with dev := d.devId, group := g, cause := x.cause, stroke := BitVec.ofNat 64 d.pool }

/-! ### Commands -/

/-- PUMP_JOB_START (R101). -/
def execPumpJobStart (pump : Nat) (s : State) : Host.Outcome State Fault Refusal := s.done (s.dev.pumpJobStart pump)

/-- DECODER_AVAILABLE (R133). -/
def execDecoderAvailable (tile : Nat) (dec : Nat) (s : State) : Host.Outcome State Fault Refusal :=
  s.done (s.dev.decoderAvailable tile dec)

/-- FENCE_COMPLETE (R111). -/
def execFenceComplete (pump : Nat) (s : State) : Host.Outcome State Fault Refusal := s.done (s.dev.fenceComplete pump)

/-- FENCE_ABANDON (R112). -/
def execFenceAbandon (pump : Nat) (s : State) : Host.Outcome State Fault Refusal := s.done (s.dev.fenceAbandon pump)

/-- COMMIT_PHASE (R105). -/
def execCommitPhase (pump : Nat) (s : State) : Host.Outcome State Fault Refusal := s.done (s.dev.commitPhase pump)

/-- PUMP_ABORT (R108). -/
def execPumpAbort (src : Src) (pump : Nat) (s : State) : Host.Outcome State Fault Refusal := s.mail src (.pumpAbort src pump) (s.dev.pumpAbort src pump)

/-- PUMP_RESUME (R109). -/
def execPumpResume (src : Src) (pump : Nat) (s : State) : Host.Outcome State Fault Refusal := s.mail src (.pumpResume src pump) (s.dev.pumpResume src pump)

/-- HEAT_DECAY_PASS (R94). -/
def execHeatDecayPass (resident : List Nat) (s : State) : Host.Outcome State Fault Refusal :=
  s.done (s.dev.heatDecayPass resident)

/-- SWEEP_STEP (R95). -/
def execSweepStep (tile : Nat) (s : State) : Host.Outcome State Fault Refusal := s.done (s.dev.sweepStep tile)

/-- SWEEP_STALE (R96). -/
def execSweepStale (tile : Nat) (s : State) : Host.Outcome State Fault Refusal := s.done (s.dev.sweepStale tile)

/-- BOOK_SLOT_RETIRE_END (R145). -/
def execBookSlotRetireEnd (slot : Nat) (s : State) : Host.Outcome State Fault Refusal := s.done (s.dev.bookSlotRetireEnd slot)

end Sys2Proof.Machine
end

