-- ==== Sys2Proof/Machine/Image.lean ====
section
/-! DEFINITION. Configuration images (R288 to R295, R469): the areas of the NVM, the header, the records of both parts, and
the checks of R296 and R305 in the order of R469. -/

namespace Sys2Proof.Machine

open Sys2Proof

/-! ### NVM areas (R288) -/

/-- Base of slot A (0), slot B (1) and the factory slot (2). -/
def slotBase (n : Nat) : Nat := if n = 0 then 0x1000000 else if n = 1 then 0x2000000 else 0

def stageBase : Nat := 0x3000000

/-- Bytes of an NVM area. -/
def areaSize : Nat := 0x1000000

def Dev.nvmBytes (d : Dev) (a n : Nat) : List Byte := Memory.readN nvmBlank d.nvm a n

/-- Slot state in the ledger (R296): 0 None, 1 Committed, 2 Pending, 3 Discarded, 4 Reverted; always 0 for the factory slot. -/
def Dev.slotState (d : Dev) (n : Nat) : Nat := if n = 0 then d.led.slotA else if n = 1 then d.led.slotB else 0

def Dev.setSlotState (d : Dev) (n v : Nat) : Dev :=
  if n = 0 then d.writeLed fun l => { l with slotA := v }
  else if n = 1 then d.writeLed fun l => { l with slotB := v } else d

/-! ### Owner and vendor keys (R291, R317, R318) -/

/-- The current owner: index and hash of the highest valid OWNER_HASH entry. -/
def Dev.currentOwner (d : Dev) : Option (Nat × BitVec 256) :=
  (([3, 2, 1, 0] : List Nat).filterMap fun i =>
    match d.otp.owners[i]? with
    | some (true, h) => if (10 + i) ∈ d.otp.bad then none else some (i, h)
    | _ => none).head?

/-- LIFECYCLE: 0 Manufacture, 1 Unclaimed, 2 Owned, 3 Decommissioned (R318). -/
def Dev.lifecycle (d : Dev) : Nat :=
  if d.otp.lifecycle = 0 ∨ d.otp.lifecycle = 3 then d.otp.lifecycle else if d.currentOwner.isSome then 2 else 1

/-- The hash that an owner key must have (R291): the current owner's, or the factory key's before a claim. -/
def Dev.ownerHash (d : Dev) : Option (BitVec 256) :=
  match d.currentOwner with
  | some (_, h) => some h
  | none => if 9 ∈ d.otp.bad then none else some d.otp.factoryHash

/-- VENDOR_REVOKE as it counts (R317, R321). -/
def Dev.revoked (d : Dev) : BitVec 4 := if 8 ∈ d.otp.bad then 7#4 else d.otp.revoke

/-- A vendor key of index `i` is accepted by its hash (R291, R321). -/
def Dev.vendorKeyOk (d : Dev) (i : Nat) (key : List Byte) : Bool :=
  decide (i < 4) && !(decide (i < 3) && d.revoked.getLsbD i) && !d.otp.bad.contains (4 + i) &&
    d.otp.vendorHash[i]? == some (Config.sha256 key)

/-! ### The header (R290, R469) -/

structure Header where
  version : Nat
  security : Nat
  length : Nat
  fwLen : Nat
  part : Nat
  keyIdx : Nat
  deriving DecidableEq, Repr

def zeros (bs : List Byte) : Bool := bs.all (· == 0#8)

/-- The header of an image in an area of `size` bytes, when it is well formed. -/
def parseHeader (h : List Byte) (size : Nat) : Option Header :=
  let len := fieldAt h 16 4
  let fw := fieldAt h 20 4
  let ok := sub h 0 4 == [0x5A#8, 0x54#8, 0x48#8, 0x50#8] && fieldAt h 4 2 == 1 && zeros (sub h 6 2) && fieldAt h 8 4 != 0 &&
    len % 8 == 0 && decide (1024 ≤ len) && decide (len ≤ size) && fw % 8 == 0 && decide (16 ≤ fw) && decide (512 + fw + 8 ≤ len) &&
    zeros (sub h 25 7) && zeros (sub h 257 7) && zeros (sub h 328 184)
  if ok then
    some { version := fieldAt h 8 4, security := fieldAt h 12 4, length := len, fwLen := fw, part := fieldAt h 24 1,
           keyIdx := fieldAt h 256 1 }
  else none

def Dev.headerAt (d : Dev) (base : Nat) : Option Header := parseHeader (d.nvmBytes base 512) areaSize

/-! ### Records -/

/-- A check that failed: REASON, image offset (0xFFFFFFFF for the header) and record TYPE. -/
structure ImgFail where
  reason : Nat
  off : Nat := 0xFFFFFFFF
  ty : Nat := 0
  deriving DecidableEq, Repr

/-- What the walk over the records has found: the records, the offsets of its regions and head views in their order, the types
seen in the part, the number of records or entries skipped with EV041, and the first BOOK record. -/
structure Walk where
  img : Image := {}
  regionOffs : List Nat := []
  viewOffs : List Nat := []
  bookOff : Nat := 0xFFFFFFFF
  poolOff : Nat := 0xFFFFFFFF
  seen : List Nat := []
  skipped : Nat := 0
  deriving DecidableEq, Repr

/-- A record as framed: offset, TYPE, the OPTIONAL flag and the body. -/
structure Rec where
  off : Nat
  ty : Nat
  opt : Bool
  body : List Byte

/-- The part of a known type: true for the firmware part. -/
def recPart (ty : Nat) : Option Bool :=
  if ty = 1 ∨ ty = 2 then some true
  else if ty ∈ [0x10, 0x11, 0x20, 0x30, 0x31, 0x40, 0x50, 0x51, 0x60, 0x61] then some false else none

/-- How often a type may stand in its part. -/
def recMax (ty : Nat) : Option Nat :=
  if ty ∈ [1, 2, 0x10, 0x11, 0x60, 0x61] then some 1
  else if ty = 0x30 then some 1024 else if ty = 0x40 then some 15 else if ty = 0x51 then some 32 else none

/-- The length that a type requires. -/
def recLenOk (ty : Nat) (b : List Byte) : Bool :=
  let n := b.length
  if ty = 2 ∨ ty = 0x31 then n == 8 else if ty = 0x10 then n == 4 else if ty = 0x11 then n == 16
  else if ty = 0x20 then n % 8 == 0 else if ty = 0x30 then n == 24 else if ty = 0x40 then n == 304
  else if ty = 0x50 then decide (8 ≤ n) && n == 8 + 4 * fieldAt b 3 1
  else if ty = 0x51 then n == 2720 else if ty = 0x60 ∨ ty = 0x61 then n == 32 else true

/-- Reserved fields of one rank block of a delay table. -/
def rankBlockZero (b : List Byte) (r : Nat) : Bool :=
  let o := 32 + 336 * r
  decide (fieldAt b o 1 < 2) && fieldAt b (o + 1) 1 == 0 && zeros (sub b (o + 8) 8)

/-- Every reserved field of a body is zero. -/
def recReservedOk (ty : Nat) (b : List Byte) : Bool :=
  if ty = 2 then zeros (sub b 4 4)
  else if ty = 0x10 then bits (fieldAt b 0 4) 30 12 == 0
  else if ty = 0x11 then zeros (sub b 12 4)
  else if ty = 0x30 then
    zeros (sub b 2 2) && decide (fieldAt b 15 1 < 2) && decide (fieldAt b 16 2 < 4096) && !bit (fieldAt b 18 1) 7 &&
      decide (fieldAt b 19 1 < 16) && zeros (sub b 20 4)
  else if ty = 0x31 then zeros (sub b 4 4)
  else if ty = 0x40 then zeros (sub b 1 7) && zeros (sub b 11 1) && zeros (sub b 20 4)
  else if ty = 0x51 then
    decide (fieldAt b 6 1 < 64) && fieldAt b 7 1 == 0 && zeros (sub b 28 4) && (List.range 8).all (rankBlockZero b)
  else true

/-- The form of a register block entry: 0, or REASON 8 or 10 (R6, R292, R293). -/
def Dev.entryForm (d : Dev) (a : Nat) (v : BitVec 32) : Nat :=
  if a % 4 ≠ 0 then 8 else if d.absentAddr a then 10
  else if (findReg a).isNone ∨ rwtMask a = 0#32 then 8
  else if v &&& ~~~(rwtMask a) ≠ 0#32 then 8 else 0

/-- Every RWT field of a value lies in its stated range. -/
def rangeOk (a : Nat) (v : BitVec 32) : Bool :=
  match findReg a with
  | none => true
  | some (r, _) => r.fields.all fun f => decide (f.mn ≤ bits v.toNat f.hi f.lo) && decide (bits v.toNat f.hi f.lo ≤ f.mx)

/-- A spare rank names a channel of its own tile (`MT_SPARE_CFG`, R248). -/
def spareOk (a : Nat) (v : BitVec 32) : Bool :=
  if addrWin a = 0 ∧ 6 ≤ addrTile a ∧ addrTile a ≤ 9 ∧ addrOff a = 0xC000 then
    let k := addrTile a - 6
    (!bit v.toNat 31 || bits v.toNat 28 24 / 8 == k) && (!bit v.toNat 15 || bits v.toNat 12 8 / 8 == k)
  else true

/-- A value that a register of its own accord accepts (R293). -/
def valueOk (a : Nat) (v : BitVec 32) : Bool := rangeOk a v && spareOk a v

/-- The 8-byte entries of a register block. -/
def regEntries (b : List Byte) : List (Nat × BitVec 32) :=
  (List.range (b.length / 8)).map fun i => (fieldAt b (8 * i) 4, BitVec.ofNat 32 (fieldAt b (8 * i + 4) 4))

/-- The region of a record body. -/
def regionOfBody (b : List Byte) : Region :=
  let f := fieldAt b 18 1
  { num := fieldAt b 0 2, base := fieldAt b 4 4, size := fieldAt b 8 4, heads := BitVec.ofNat 16 (fieldAt b 12 2),
    group := fieldAt b 14 1, guest := bit (fieldAt b 15 1) 0, kdom := fieldAt b 16 2, tierMax := bits f 1 0,
    pageHint := bits f 3 2, t4ok := bit f 4, reclaim := bit f 5, zeroElide := bit f 6, book := fieldAt b 19 1 }

/-- Heads that a region binds, as numbers. -/
def Region.bound (r : Region) : List Nat := (List.range 16).filter fun h => r.heads.getLsbD h

/-- A coherent guest tile is fitted (R428). -/
def Dev.coherentGuest (d : Dev) : Bool := d.hasGuest && d.gst.coherent && !d.gst.lateFit

/-- Content of one region record: 0 or a REASON (R162, R292, R294). -/
def Dev.regionReason (d : Dev) (r : Region) : Nat :=
  if r.num > 1023 ∨ r.size = 0 then 11
  else if r.base + r.size > 262144 ∨ r.tierMax = 3 ∨ (r.guest ∧ !d.coherentGuest) ∨ (r.kdom ≠ 0 ∧ !d.hasEnc) then 12
  else if r.group = 0 then (if r.bound.length = 1 ∧ !r.guest then 0 else 12)
  else if r.bound.length < 2 then 12 else 0

/-- The timing record of a body. -/
def timingOfBody (b : List Byte) : TimingRec :=
  { rate := fieldAt b 4 2, ch := fieldAt b 6 1, slot := fieldAt b 7 1,
    ents := (List.range (fieldAt b 3 1)).map fun i => (fieldAt b (8 + 4 * i + 3) 1, fieldAt b (8 + 4 * i) 3) }

/-- A timing entry against the derived value of each fitted module that runs at the record's rate (R204). -/
def Dev.timingEntOk (d : Dev) (t : TimingRec) (e : Nat × Nat) : Bool :=
  decide (1 ≤ e.1) && decide (e.1 ≤ 0x1B) && e.2 != 0 &&
    (List.range d.nChans).all fun c =>
      !(t.ch == c || t.ch == 255) || !(d.chan c).up || rateMts (d.chan c).rate != t.rate ||
        ([0, 1] : List Nat).all fun s => !(t.slot == s || t.slot == 255) ||
          (match (d.chan c).dimm s with
           | none => true
           | some m =>
             let v := Config.ddrTiming t.rate m.dieGb m.stack e.1
             if e.1 ≤ 3 then e.2 == v else decide (v ≤ e.2))

def Dev.timingOk (d : Dev) (b : List Byte) : Bool :=
  let t := timingOfBody b
  fieldAt b 0 2 == 0x5454 && fieldAt b 2 1 == 1 && decide (1 ≤ fieldAt b 3 1) && decide (fieldAt b 3 1 ≤ 32) &&
    (decide (t.ch < 32) || t.ch == 255) && (decide (t.slot < 2) || t.slot == 255) && t.ents.all (d.timingEntOk t)

/-- Accept a record of the image. -/
def Walk.img' (w : Walk) (f : Image → Image) : Except Nat Walk := .ok { w with img := f w.img }

/-- A record that names an absent unit: skipped under OPTIONAL, else REASON 10 (R6). -/
def Walk.absent (w : Walk) (opt : Bool) : Except Nat Walk := if opt then .ok { w with skipped := w.skipped + 1 } else .error 10

/-- A register block (R6, R293). -/
def Dev.regBlock (d : Dev) (w : Walk) (r : Rec) : Except Nat Walk :=
  let es := regEntries r.body
  let bad := es.find? fun e => let f := d.entryForm e.1 e.2; f == 8 || (f == 10 && !r.opt)
  match bad with
  | some e => .error (d.entryForm e.1 e.2)
  | none =>
    let keep := es.filter fun e => d.entryForm e.1 e.2 == 0
    if keep.all fun e => valueOk e.1 e.2 then
      .ok { w with img := { w.img with regs := w.img.regs ++ keep }, skipped := w.skipped + (es.length - keep.length) }
    else .error 11

/-- A head view record (R62, R294). -/
def Dev.headView (d : Dev) (w : Walk) (r : Rec) : Except Nat Walk :=
  let h := fieldAt r.body 0 1
  let mode := fieldAt r.body 1 1
  if w.img.headViews.any fun v => v.1 == h then .error 8
  else if h > 15 ∨ mode > 1 ∨ fieldAt r.body 2 2 > 1023 then (if h ≤ 15 ∧ h ≥ d.nHosts then w.absent r.opt else .error 11)
  else if h ≥ d.nHosts then w.absent r.opt
  else .ok { w with img := { w.img with headViews := w.img.headViews ++ [(h, mode == 1, fieldAt r.body 2 2)] },
                    viewOffs := w.viewOffs ++ [r.off] }

/-- A code book record (R124, R125). -/
def Dev.codeBook (d : Dev) (w : Walk) (r : Rec) : Except Nat Walk :=
  let n := fieldAt r.body 0 1
  if !d.hasZw then w.absent r.opt
  else if n = 0 ∨ n > 15 then .error 11
  else match parseBook (sub r.body 8 296) with
    | none => .error 14
    | some b =>
      if w.img.books.any fun x => x.1 == n then .error 14
      else .ok { w with img := { w.img with books := w.img.books ++ [(n, b)] }, bookOff := min w.bookOff r.off }

/-- One record of a known type whose framing, part, count, length and reserved fields hold. -/
def Dev.recordBody (d : Dev) (w : Walk) (r : Rec) : Except Nat Walk :=
  if r.ty = 1 then .ok w
  else if r.ty = 2 then w.img' fun i => { i with fwVersion := fieldAt r.body 0 4 }
  else if r.ty = 0x10 then w.img' fun i => { i with regs := i.regs ++ [(0x3A0, BitVec.ofNat 32 (fieldAt r.body 0 4))] }
  else if r.ty = 0x11 then
    .ok { w with img := { w.img with poolTag := some (BitVec.ofNat 32 (fieldAt r.body 0 4), BitVec.ofNat 64 (fieldAt r.body 4 8)) },
                 poolOff := r.off }
  else if r.ty = 0x20 then d.regBlock w r
  else if r.ty = 0x30 then
    let g := regionOfBody r.body
    if g.bound.any fun h => decide (h ≥ d.nHosts) then w.absent r.opt
    else match d.regionReason g with
      | 0 => .ok { w with img := { w.img with regions := w.img.regions ++ [g] }, regionOffs := w.regionOffs ++ [r.off] }
      | x => .error x
  else if r.ty = 0x31 then d.headView w r
  else if r.ty = 0x40 then d.codeBook w r
  else if r.ty = 0x50 then
    let c := fieldAt r.body 6 1
    if c ≠ 255 ∧ c < 32 ∧ c ≥ d.nChans then w.absent r.opt
    else if d.timingOk r.body then w.img' fun i => { i with timing := i.timing ++ [timingOfBody r.body] }
    else .error 11
  else if r.ty = 0x51 then
    let c := fieldAt r.body 3 1
    if c ≥ 32 then .error 11 else if c ≥ d.nChans then w.absent r.opt
    else w.img' fun i => { i with delays := i.delays ++ [{ bytes := r.body }] }
  else if r.ty = 0x60 then w.img' fun i => { i with kmRoot := some (be256 r.body) }
  else w.img' fun i => { i with poolRoot := some (be256 r.body) }

/-- One record other than End (R292, R469 step 9). -/
def Dev.record1 (d : Dev) (fw : Bool) (w : Walk) (r : Rec) : Except Nat Walk :=
  match recPart r.ty with
  | none => if r.opt then .ok { w with skipped := w.skipped + 1 } else .error 9
  | some p =>
    let over_ := match recMax r.ty with | none => false | some m => decide ((w.seen.filter (· == r.ty)).length ≥ m)
    if p != fw || over_ || !recLenOk r.ty r.body || !recReservedOk r.ty r.body then .error 8
    else d.recordBody { w with seen := r.ty :: w.seen } r

/-- The types a part must hold besides End. -/
def missingType (fw : Bool) (seen : List Nat) : Option Nat :=
  if fw then ([1, 2] : List Nat).find? fun t => !seen.contains t else none

/-- Walk the records of one part from `off` to `stop`; the number bounds the records left. -/
def Dev.walk (d : Dev) (bs : List Byte) (fw : Bool) (stop : Nat) : Nat → Nat → Walk → Except (ImgFail × Nat) Walk
  | 0, off, w => .error ({ reason := 8, off := off, ty := 0xFFFF }, w.skipped)
  | n + 1, off, w =>
    if off ≥ stop then .error ({ reason := 8, off := stop, ty := 0xFFFF }, w.skipped) else
    let ty := fieldAt bs off 2
    let fl := fieldAt bs (off + 2) 2
    let len := fieldAt bs (off + 4) 4
    let next := off + 8 + (len + 7) / 8 * 8
    if next > stop ∨ fl > 1 ∨ !zeros (sub bs (off + 8 + len) (next - (off + 8 + len))) then
      .error ({ reason := 8, off := off, ty := ty }, w.skipped)
    else if ty = 0xFFFF then
      if len ≠ 0 then .error ({ reason := 8, off := off, ty := ty }, w.skipped)
      else if next ≠ stop then .error ({ reason := 8, off := next, ty := fieldAt bs next 2 }, w.skipped)
      else match missingType fw w.seen with
        | some t => .error ({ reason := 8, off := off, ty := t }, w.skipped)
        | none => .ok { w with seen := [] }
    else match d.record1 fw w { off := off, ty := ty, opt := fl == 1, body := sub bs (off + 8) len } with
      | .error x => .error ({ reason := x, off := off, ty := ty }, w.skipped)
      | .ok w => d.walk bs fw stop n next w

/-! ### Composition of register values (R460) -/

/-- The last value that an image sets for a register. -/
def Image.setsReg (i : Image) (a : Nat) : Option (BitVec 32) := (i.regs.reverse.find? fun e => e.1 == a).map Prod.snd

def mergeBits (v : BitVec 32) (o : BitVec 32 × BitVec 32) : BitVec 32 := (v &&& ~~~o.1) ||| (o.2 &&& o.1)

/-- A register's value from an image and the active overlay: the overlay holds only where the image sets nothing. -/
def composeReg (i : Image) (ov : Tbl (BitVec 32 × BitVec 32)) (a : Nat) : BitVec 32 :=
  match i.setsReg a with
  | some v => v
  | none => match Tbl.look ov a with
    | none => resetOf a
    | some o => mergeBits (resetOf a) o

/-- The same with a committing transaction's overlay over it. -/
def composeWith (i : Image) (ov txn : Tbl (BitVec 32 × BitVec 32)) (a : Nat) : BitVec 32 :=
  match Tbl.look txn a with
  | none => composeReg i ov a
  | some o => mergeBits (composeReg i ov a) o

/-- Pairs of a list, each with those after it. -/
def pairsAny {α : Type} (f : α → α → Bool) : List α → Bool
  | [] => false
  | x :: xs => xs.any (f x) || pairsAny f xs

def rangesMeet (a n b m : Nat) : Bool := decide (a < b + m) && decide (b < a + n)

/-- Thresholds that R79 refuses. -/
def devloadBad (op mo se hy : Nat) : Bool :=
  !(decide (0 < op) && decide (op < mo) && decide (mo < se) && decide (se ≤ 100) && decide (hy < op))

def devloadRegBad (v : BitVec 32) : Bool :=
  devloadBad (bits v.toNat 15 8) (bits v.toNat 23 16) (bits v.toNat 31 24) (bits v.toNat 7 4)

def floatBad (v : BitVec 32) : Bool :=
  let hi := bits v.toNat 31 24
  let lo := bits v.toNat 23 16
  let cr := bits v.toNat 15 8
  !(decide (hi > lo) && decide (lo > cr) && decide (cr > 0) && decide (bits v.toNat 7 0 ≥ 1))

/-- The joined checks that a configuration breaks, by the address of the register at fault: R79, REM_TO against SNP_TO, the
floats, the write-queue levels, the PPR window, the stroke ports. -/
def Dev.joinedBad (d : Dev) (reg : Nat → BitVec 32) : List Nat :=
  let heads := List.range d.nHosts
  let ports := heads.map fun p => (reg (cpBase p + 4)).toNat
  let prim := (ports.filter fun v => bits v 27 26 == 1).length
  (heads.filter fun h => devloadRegBad (reg (hpBase h + 0x10))).map (fun h => hpBase h + 0x10) ++
  (if bits (reg 0x3A4).toNat 31 16 ≤ bits (reg 0x360).toNat 15 0 + 16 then [0x3A4] else []) ++
  ((List.range d.nTiles).filter fun k => floatBad (reg (mtBase k + 0x8004))).map (fun k => mtBase k + 0x8004) ++
  ((List.range d.nChans).filter fun c =>
    let v := (reg (chBase c + 8)).toNat
    decide (bits v 15 8 ≤ bits v 7 0)).map (fun c => chBase c + 8) ++
  (let v := (reg 0xA08).toNat
   if bits v 31 24 < bits v 23 16 ∧ bits v 23 16 ≤ 95 then [] else [0xA08]) ++
  (if prim > 1 ∨ (ports.filter fun v => bits v 27 26 == 2).length > 1 ∨ (bit (reg 0x3A0).toNat 31 ∧ prim > 0) then [cpBase 0 + 4] else [])

/-- Grants that a register file holds. -/
def grantsOf (reg : Nat → BitVec 32) : List Grant := ((List.range 64).map (grantOf reg)).filter Grant.valid

/-- R280 and the entries that may not name the device itself, over a configuration's registers and regions. -/
def gridBad (reg : Nat → BitVec 32) (rs : List Region) : Bool :=
  let own := bits (reg 0x3A0).toNat 11 0
  let gs := grantsOf reg
  let hosts := gs.filter Grant.owner
  let wins := gs.filter fun g => !g.owner
  bit (reg (0x4000 + 4 * own)).toNat 31 || gs.any (fun g => g.peer == own) ||
    pairsAny (fun a b => rangesMeet a.ib a.len b.ib b.len) wins ||
    pairsAny (fun a b => rangesMeet a.ob a.len b.ob b.len) hosts ||
    hosts.any fun g => rs.any fun r => rangesMeet g.ob g.len r.base r.size

/-! ### Code-book slots (R143) -/

/-- A slot after the activation of an image that names `x` for it, with or without references. Two books are the same when they are equal
whole, code lengths and all, not by BOOK_ID alone (DESIGN CHOICE, log 89). -/
def BookSlot.next (s : BookSlot) (x : Option Book) (refs : Bool) : BookSlot :=
  match s.st with
  | .empty => (match x with | none => {} | some b => { st := .live, book := some b })
  | .live =>
    if x.isSome && x == s.book then s
    else if refs then { s with st := .retiring, pending := x }
    else (match x with | none => {} | some b => { st := .live, book := some b })
  | .retiring => if x.isSome && x == s.book then { st := .live, book := s.book } else { s with pending := x }

/-- Slot `n` after the activation of an image. -/
def Dev.bookAfter (d : Dev) (i : Image) (n : Nat) : BookSlot :=
  (d.book n).next ((i.books.find? fun b => b.1 == n).map Prod.snd) (decide (d.bookRefs n > 0))

/-! ### Checks that span records (R469 step 10) -/

/-- The first region that overlaps an earlier one or shares its number, by index. -/
def regionClash (rs : List Region) : Option Nat :=
  (List.range rs.length).find? fun i =>
    match rs[i]? with
    | none => false
    | some r => (rs.take i).any fun x => x.num == r.num || rangesMeet x.base x.size r.base r.size

/-- A static head's view that R62 or R294 refuses. -/
def viewBad (rs : List Region) (v : Nat × Bool × Nat) : Bool :=
  v.2.1 && (match rs.find? fun r => r.num == v.2.2 with
    | none => true
    | some r => !(r.bound == [v.1]) || r.group != 0 || rs.any fun x => x.group != 0 && x.heads.getLsbD v.1)

/-- A region is kept as it is by a configuration. -/
def Region.keeps (o : Region) (rs : List Region) : Bool :=
  rs.any fun r => r.num == o.num && r.base == o.base && r.size == o.size && r.heads == o.heads && r.group == o.group

/-- Some head has part of a region in its view (R301). -/
def Dev.viewed (d : Dev) (r : Region) : Bool := (List.range r.size).any fun i => !(d.viewers (r.base + i)).isEmpty

/-- A range of a removed region is still being released (R301). -/
def Dev.stillReleasing (d : Dev) (r : Region) : Bool :=
  d.cfg.releasing.any fun x => rangesMeet (r.base * 65536) (r.size * 65536) x.1 (x.2 - x.1)

/-- R301 at Validate: the offset of the region at fault. -/
def Dev.regionChangeBad (d : Dev) (w : Walk) : Option Nat :=
  match d.cfg.active.regions.find? fun o => !o.keeps w.img.regions && d.viewed o with
  | some o => some (((w.img.regions.zip w.regionOffs).find? fun x => x.1.num == o.num).elim 0xFFFFFFFF Prod.snd)
  | none => ((w.img.regions.zip w.regionOffs).find? fun x => d.stillReleasing x.1).map Prod.snd

/-- R125 over the slots that the activation would leave: the region at fault. -/
def Dev.bookClash (d : Dev) (w : Walk) : Option (Nat × Nat) :=
  if pairsAny (fun a b => a.2.id == b.2.id) w.img.books then some (w.bookOff, 0x40)
  else if d.hasZw then
    (((w.img.regions.zip w.regionOffs).find? fun x => x.1.book != 0 && (d.bookAfter w.img x.1.book).st == .empty).map
      fun x => (x.2, 0x30))
  else none

/-! ### Pool configuration and digests -/

/-- CONFIG_VERSION of the active image, 0 while there is none. -/
def Dev.cfgVersion (d : Dev) : Nat := d.cfg.active.version

/-- Configuration digest: bytes 0 to 7 of the SHA-256 of the configuration part, little-endian. -/
def Image.digest (i : Image) : BitVec 64 := BitVec.ofNat 64 (leNat (leBytes 32 i.cfgHash.toNat).reverse)

/-- Pool configuration version and digest of an image (its own when it has no Pool tag). -/
def Image.poolVer (i : Image) : BitVec 32 := i.poolTag.elim (BitVec.ofNat 32 i.version) Prod.fst
def Image.poolDig (i : Image) : BitVec 64 := i.poolTag.elim i.digest Prod.snd

/-- The device is a member of a pool with others (R267). -/
def Dev.inPool (d : Dev) : Bool := d.prim == .primed && !d.members.isEmpty

/-- Addresses of Pool-class registers that differ from reset in either configuration. -/
def poolRegs (i : Image) (d : Dev) : List Nat :=
  ((i.regs.map Prod.fst) ++ d.cfg.regs.map Prod.fst).filter fun a =>
    match findReg a with | some (r, _) => r.cls == .pool | none => false

/-- R295 at Validate: the Pool tag or a Pool-class change is not allowed. -/
def Dev.poolBad (d : Dev) (i : Image) (pool : Bool) : Bool :=
  if pool then (match i.poolTag with | none => true | some t => decide (t.1.toNat ≤ d.cfg.active.poolVer.toNat))
  else d.inPool && (i.poolTag != d.cfg.active.poolTag ||
    (poolRegs i d).any fun a => composeReg i d.cfg.overlay a != d.cfgReg a)

/-! ### Metadata runs and the limit (R115, R466, R467) -/

/-- Metadata runs of one tile for a capacity: runs of 4,096 entries of the pages it homes, and of 65,536 / 4 frames' records
(log entry 40). -/
def Dev.runsNeeded (d : Dev) (k cap : Nat) : Nat :=
  let pages := cap * 65536 / max 1 d.nTiles
  let frames := ((d.tileRanks k).map RankRef.cap).sum
  (pages + 4095) / 4096 + (frames + 16383) / 16384

def Dev.runsHeld (d : Dev) (k : Nat) : Nat := (d.metaRuns.filter fun m => m.tile == k).length

/-- Populated channels of a tile, in ascending order: those with a rank that is up. -/
def Dev.populated (d : Dev) (k : Nat) : List Nat := (tileChans k).filter fun c => (d.tileRanks k).any fun q => q.ch == c && d.refUp q

/-- Frames for a run on a rank that `ok` admits: those after the last run placed there, else the first that fit (R467: left to the
device). -/
def Dev.runOn (d : Dev) (k : Nat) (last : List Nat) (ok : RankRef → Bool) : Option Nat :=
  let up := fun q => d.refUp q && !d.isSpare q.ch q.r && ok q
  let near := last.filter fun f => (d.tileRanks k).any fun q => up q && decide (q.base ≤ f) && decide (f + 32 ≤ q.base + q.cap)
  let hint := near.foldl max 0 + 16
  if !near.isEmpty && d.runFree 0 hint 16 then some hint else d.findRunIf k 0 16 up

/-- Place run `r` of a tile and its mirror (R242, R467). `last` lists runs placed before. -/
def Dev.placeRun (d : Dev) (k r : Nat) (last : List Nat) : Option (MetaRun × Dev) :=
  let cs := d.populated k
  if cs.isEmpty then none else
  let c := cs.getD (r % cs.length) 0
  match d.runOn k last fun q => q.ch == c with
  | none => none
  | some f =>
    let d1 := forAll d ((List.range 16).map (f + ·)) fun d x => d.setFrame x 5 0#16
    let prank := (d.place f).elim 99 Place.r
    let m := if cs.length > 1 then (let c2 := cs.getD ((r + 1) % cs.length) 0; d1.runOn k last fun q => q.ch == c2)
      else d1.runOn k last fun q => q.ch == c && q.r != prank
    match m with
    | some g => some ({ tile := k, prim := f, mirror := some g }, forAll d1 ((List.range 16).map (g + ·)) fun d x => d.setFrame x 5 0#16)
    | none =>
      if cs.length > 1 || (d.tileRanks k).any (fun q => q.ch == c && q.r != prank && d.refUp q && !d.isSpare q.ch q.r) then none
      else some ({ tile := k, prim := f, mirror := none }, d1)

/-- Place `n` more runs on a tile; none where the tile lacks the frames. `acc` is the latest first. -/
def Dev.placeRuns (d : Dev) (k : Nat) : Nat → List MetaRun → Option (List MetaRun × Dev)
  | 0, acc => some (acc.reverse, d)
  | n + 1, acc =>
    match d.placeRun k (d.runsHeld k + acc.length) ((acc.take 8).flatMap fun m => m.prim :: m.mirror.toList) with
    | none => none
    | some (m, d) => d.placeRuns k n (m :: acc)

/-- Reserve the runs that a capacity needs on one tile. -/
def Dev.reserveTile (d : Dev) (k cap : Nat) : Option (List MetaRun × Dev) := d.placeRuns k (d.runsNeeded k cap - d.runsHeld k) []

/-- Reserve the runs that a capacity needs on every tile (R466). -/
def Dev.reserveRuns (d : Dev) (cap : Nat) : Option (List MetaRun × Dev) :=
  (tileList d).foldl (fun (acc : Option (List MetaRun × Dev)) k =>
    match acc with
    | none => none
    | some (ms, d) => match d.reserveTile k cap with
      | none => none
      | some (xs, d) => some (ms ++ xs, d)) (some ([], d))

/-- Free the frames of runs. -/
def Dev.freeRuns (d : Dev) (ms : List MetaRun) : Dev :=
  forAll d ms fun d m => (d.freeRun m.prim 16 |> fun d => match m.mirror with | some g => d.freeRun g 16 | none => d)

/-! ### The checks of R296 and R305 in order (R469) -/

/-- Result of checking an image: the first failure, the CONFIG_VERSION read, the image where the checks pass, and the records
skipped with EV041. -/
structure Checked where
  fail : Option ImgFail := none
  ver : Nat := 0
  img : Image := {}
  skipped : Nat := 0
  deriving DecidableEq, Repr

/-- Steps 2 to 7: header, PART, BODY_HASH, both keys and signatures, the floor. -/
def Dev.checkHead (d : Dev) (bs : List Byte) : Except ImgFail Header :=
  match parseHeader (sub bs 0 512) areaSize with
  | none => .error { reason := 1 }
  | some h =>
    let fw := sub bs 512 h.fwLen
    let cf := sub bs (512 + h.fwLen) (h.length - 512 - h.fwLen)
    if h.part ≠ bits d.caps0.toNat 31 24 then .error { reason := 7 }
    else if Config.sha256 (fw ++ cf) ≠ be256 (sub bs 32 32) then .error { reason := 2 }
    else if !(d.vendorKeyOk h.keyIdx (sub bs 264 64) && Config.ecdsaVerify (sub bs 264 64) (sub bs 64 64) (Config.sha256 fw)) then
      .error { reason := 3 }
    else if !(d.ownerHash == some (Config.sha256 (sub bs 192 64)) &&
        Config.ecdsaVerify (sub bs 192 64) (sub bs 128 64) (Config.sha256 (sub bs 0 64 ++ cf))) then .error { reason := 4 }
    else if h.security < (if d.led.floorBad then 0xFFFFFFFF else d.led.floor) then .error { reason := 5 }
    else .ok h

/-- Step 9: the records of both parts. -/
def Dev.checkRecords (d : Dev) (bs : List Byte) (h : Header) : Except (ImgFail × Nat) Walk :=
  match d.walk bs true (512 + h.fwLen) (h.fwLen / 8 + 1) 512 {} with
  | .error e => .error e
  | .ok w => d.walk bs false h.length (h.length / 8 + 1) (512 + h.fwLen) w

/-- Step 10. `val` is the open transaction's overlay and POOL flag at Validate, none at slot selection and Revert. -/
def Dev.checkSpan (d : Dev) (w : Walk) (val : Option (Tbl (BitVec 32 × BitVec 32) × Bool)) : Option ImgFail :=
  let i := w.img
  let reg := match val with
    | none => composeReg i []
    | some (t, _) => composeWith i d.cfg.overlay t
  match regionClash i.regions with
  | some n => some { reason := 12, off := w.regionOffs.getD n 0xFFFFFFFF, ty := 0x30 }
  | none =>
  match (i.headViews.zip w.viewOffs).find? fun v => viewBad i.regions v.1 with
  | some v => some { reason := 12, off := v.2, ty := 0x31 }
  | none =>
  match (if val.isSome then d.regionChangeBad w else none) with
  | some o => some { reason := 12, off := o, ty := 0x30 }
  | none =>
  match d.bookClash w with
  | some o => some { reason := 14, off := o.1, ty := o.2 }
  | none =>
  if (match val with | some (_, p) => d.poolBad i p | none => false) then some { reason := 15, off := w.poolOff, ty := 0x11 }
  else if !(d.joinedBad reg).isEmpty || gridBad reg i.regions then some { reason := 11, ty := 0x20 }
  else if val.isSome ∧ d.prim = .primed ∧ !bit (reg 0x320).toNat 31 ∧
      committedOf i.regions (grantsOf reg) * 65536 > d.limitFrames (grantsOf reg) then some { reason := 13, ty := 0x30 }
  else none

/-- All the checks on the image at `base`. At Validate, `val` also asks for a version above the active one. -/
def Dev.checkImage (d : Dev) (base : Nat) (val : Option (Tbl (BitVec 32 × BitVec 32) × Bool)) : Checked :=
  let ver := (d.headerAt base).elim 0 Header.version
  let len := (d.headerAt base).elim 512 Header.length
  let bs := d.nvmBytes base len
  match d.checkHead bs with
  | .error f => { fail := some f, ver := ver }
  | .ok h =>
    if val.isSome ∧ h.version ≤ d.cfgVersion then { fail := some { reason := 6 }, ver := ver }
    else match d.checkRecords bs h with
      | .error (f, n) => { fail := some f, ver := ver, skipped := n }
      | .ok w =>
        { fail := d.checkSpan w val, ver := ver, skipped := w.skipped,
          img := { w.img with
            version := h.version, secVersion := h.security, vendorKeyIdx := h.keyIdx, fwHash := Config.sha256 (sub bs 512 h.fwLen),
            cfgHash := Config.sha256 (sub bs (512 + h.fwLen) (h.length - 512 - h.fwLen)) } }

/-- Raise EV041 for each skipped record, and keep what the check found in the slot's registers. -/
def Dev.skips (d : Dev) (n : Nat) : Dev := forAll d (List.range n) fun d _ => d.raise 41

def Dev.noteSlot (d : Dev) (n : Nat) (c : Checked) : Dev :=
  { d with cfg := { d.cfg with slots := Tbl.upd {} d.cfg.slots n fun s =>
      { ver := c.ver, valid := c.fail.isNone, reason := c.fail.elim s.reason ImgFail.reason } } }

/-- Check a slot (R296). -/
def Dev.checkSlot (d : Dev) (n : Nat) : Dev × Checked :=
  let c := d.checkImage (slotBase n) none
  ((d.skips c.skipped).noteSlot n c, c)

/-! ### Choosing a slot (R296) -/

/-- Insert a candidate before the first with a lower version. -/
def insertCand (x : Nat × Nat) : List (Nat × Nat) → List (Nat × Nat)
  | [] => [x]
  | y :: ys => if x.1 > y.1 then x :: y :: ys else y :: insertCand x ys

/-- Candidates in descending CONFIG_VERSION, A before B before the factory slot. -/
def Dev.candidates (d : Dev) : List (Nat × Nat) :=
  ((([0, 1] : List Nat).filter fun n => decide (d.slotState n ≤ 1)) ++ [2]).foldl
    (fun acc n => insertCand ((d.headerAt (slotBase n)).elim 0 Header.version, n) acc) []

/-- Slot selection: EV042 for each candidate that fails, until one passes. -/
def Dev.selectFrom (d : Dev) : List (Nat × Nat) → Dev × Option (Nat × Image)
  | [] => (d, none)
  | (_, n) :: xs =>
    let (d, c) := d.checkSlot n
    if c.fail.isNone then (d, some (n, c.img)) else (d.raise 42).selectFrom xs

end Sys2Proof.Machine
end

