-- ==== Sys2Proof/Machine/Activate.lean ====
section
/-! DEFINITION. The activation queue (R48 to R51), the composition of register values (R460), and what an activation of a
configuration changes (R143, R155, R300 to R302, R466); applying an image at priming (R297). -/

namespace Sys2Proof.Machine

open Sys2Proof

/-! ### The queue (R48, R49) -/

/-- The earliest stroke that an entry may name now (R49). -/
def Dev.earliest (d : Dev) : Nat := d.pool + 2

/-- Queue an entry, or refuse it: late before full (R49). -/
def Dev.queueAct (d : Dev) (stroke cls : Nat) (k : ActKind) : Except Ret Dev :=
  if stroke < d.earliest then .error .invalidInput
  else if d.acts.length ≥ 16 then .error .busy
  else .ok { d with acts := d.acts ++ [{ stroke := stroke, cls := cls, kind := k }] }

/-- The stroke that a command's input names: 0 is the earliest. -/
def Dev.wanted (d : Dev) (s : Nat) : Nat := if s = 0 then d.earliest else s

/-! ### Register values -/

/-- A register that takes its value only at priming (R300). -/
def restartReg (a : Nat) : Bool := match findReg a with | some (r, _) => r.cls == .restart | none => false

/-- A register of the Pool class, or one that takes effect at priming, bring-up or training (R73, R310). -/
def closedReg (a : Nat) : Bool := match findReg a with | some (r, _) => r.cls != .live | none => false

/-- What `CT_ROUTE_n` writes do to the live state of route `n`: a changed entry is not switched. -/
def Dev.routesChanged (d : Dev) (old : Tbl (BitVec 32)) : Dev :=
  forAll d ((d.cfg.regs ++ old).map Prod.fst).eraseDups fun d a =>
    if 0x4000 ≤ a ∧ a < 0x8000 ∧ Tbl.look old a ≠ Tbl.look d.cfg.regs a then
      d.setRoute ((a - 0x4000) / 4) fun r => { r with usingAlt := false, unreach := false, byNotice := false, switchDue := false }
    else d

/-- A Refused port whose configuration changes trains again (R254). -/
def Dev.portsChanged (d : Dev) (old : Tbl (BitVec 32)) : Dev :=
  forAll d d.ports fun d p =>
    if (d.port p).st = .refused ∧ Tbl.look old (cpBase p + 4) ≠ Tbl.look d.cfg.regs (cpBase p + 4) then
      d.setPort p fun c => { c with st := .down, hello := none }
    else d

/-- Put a register file in force. -/
def Dev.putRegs (d : Dev) (t : Tbl (BitVec 32)) : Dev :=
  let old := d.cfg.regs
  ({ d with cfg := { d.cfg with regs := t } }.routesChanged old).portsChanged old

/-- Add a value to the active overlay and put it in force (R73, R80, R310). -/
def ovAdd (ov : Tbl (BitVec 32 × BitVec 32)) (a : Nat) (o : BitVec 32 × BitVec 32) : Tbl (BitVec 32 × BitVec 32) :=
  let (m, v) := (Tbl.look ov a).getD (0#32, 0#32)
  Tbl.put ov a (m ||| o.1, mergeBits v o)

def Dev.overlayReg (d : Dev) (a : Nat) (o : BitVec 32 × BitVec 32) : Dev :=
  let d := { d with cfg := { d.cfg with overlay := ovAdd d.cfg.overlay a o } }
  d.putRegs (Tbl.set (resetOf a) d.cfg.regs a (mergeBits (d.cfgReg a) o))

/-- Registers whose values a composition decides. -/
def Dev.composeAddrs (d : Dev) (i : Image) (ov txn : Tbl (BitVec 32 × BitVec 32)) : List Nat :=
  (d.cfg.regs.map Prod.fst ++ i.regs.map Prod.fst ++ ov.map Prod.fst ++ txn.map Prod.fst).eraseDups

/-- The register file of a new image with an overlay (R460); registers of the Restart class keep their values. -/
def Dev.composeAll (d : Dev) (i : Image) (ov txn : Tbl (BitVec 32 × BitVec 32)) : Tbl (BitVec 32) :=
  (d.composeAddrs i ov txn).foldl (fun t a =>
    if restartReg a then t else Tbl.set (resetOf a) t a (composeWith i ov txn a)) d.cfg.regs

/-- Values of the active overlay that the new image leaves in it, less those that break a joined check (R460). -/
def Dev.keptOverlay (d : Dev) (i : Image) (txn : Tbl (BitVec 32 × BitVec 32)) : Tbl (BitVec 32 × BitVec 32) :=
  let ov := d.cfg.overlay.filter fun e => (i.setsReg e.1).isNone
  ov.foldl (fun acc e =>
    let without := Tbl.del acc e.1
    if (d.joinedBad (composeWith i acc txn)).length > (d.joinedBad (composeWith i without txn)).length then without else acc) ov

/-- Activate registers for a new image: R460 in full, with EV051 for each overlay value that leaves for a joined check. -/
def Dev.activateRegs (d : Dev) (i : Image) (txn : Tbl (BitVec 32 × BitVec 32)) : Dev :=
  let all := d.cfg.overlay.filter fun e => (i.setsReg e.1).isNone
  let ov := d.keptOverlay i txn
  let d := d.putRegs (d.composeAll i ov txn)
  let d := { d with cfg := { d.cfg with overlay := txn.foldl (fun t e => ovAdd t e.1 e.2) ov } }
  forAll d (List.range (all.length - ov.length)) fun d _ => d.raise 51

/-- A value of the active overlay that breaks a joined check leaves it: the register takes the image's or its reset value, with EV051
(R460). -/
def Dev.dropBreaking (d : Dev) (a : Nat) : Dev :=
  let back := composeReg d.cfg.active [] a
  let without (x : Nat) : BitVec 32 := if x = a then back else d.cfgReg x
  if (d.joinedBad without).length < (d.joinedBad d.cfgReg).length then
    ({ d with cfg := { d.cfg with overlay := Tbl.del d.cfg.overlay a } }.putRegs (Tbl.set (resetOf a) d.cfg.regs a back)).raise 51
  else d

/-- A transaction without an image applies its overlay alone (R310), over the values of the active overlay that go with it (R460). -/
def Dev.activateOverlay (d : Dev) (txn : Tbl (BitVec 32 × BitVec 32)) : Dev :=
  let others := (d.cfg.overlay.filter fun e => (Tbl.look txn e.1).isNone).map Prod.fst
  forAll (forAll d txn fun d e => d.overlayReg e.1 e.2) others Dev.dropBreaking

/-! ### Books, key domains, coherent domains, capacity -/

/-- The slot banks switch (R143); EV097 for each slot that becomes Retiring. -/
def Dev.activateBooks (d : Dev) (i : Image) : Dev :=
  if !d.hasZw then d else
  forAll d ((List.range 15).map (· + 1)) fun d n =>
    let was := d.book n
    let now := d.bookAfter i n
    let d := d.setBook n fun _ => now
    if was.st = .live ∧ now.st = .retiring then d.raise 97 (mtSlice 0) else d

/-- A Retiring domain that a region names is Live again (R155). -/
def Dev.activateKeys (d : Dev) (i : Image) : Dev :=
  forAll d i.regions fun d r => if (d.kd r.kdom).st = .retiring then d.setKd r.kdom fun k => { k with st := .live } else d

/-- Heads that the regions of a group bind. -/
def groupHeads (rs : List Region) (g : Nat) : BitVec 16 :=
  (rs.filter fun r => r.group == g).foldl (fun m r => m ||| r.heads) 0#16

/-- Bound heads that are attached (R163). -/
def Dev.groupMembers (d : Dev) (g : Nat) : BitVec 16 :=
  BitVec.ofNat 16 ((List.range 16).foldl (fun m h =>
    if (groupHeads d.cfg.active.regions g).getLsbD h && d.attached h then m + 2 ^ h else m) 0)

/-- The guest tile is a member of a group (R163). -/
def Dev.groupGuest (d : Dev) (g : Nat) : Bool :=
  d.cfg.active.regions.any (fun r => r.group == g && r.guest) && d.gst.coherent && d.gst.st == 2

/-- A domain after a change of the regions or of attachment: a group with regions has one, which comes Up. An Up domain gains members; it
loses one only by going down (R193). -/
def Dev.syncDom (d : Dev) (g : Nat) : Dev :=
  if d.cfg.active.regions.any fun r => r.group == g then
    match (d.dom g).st with
    | .none => d.setDom g fun _ => { st := .up, members := d.groupMembers g, guest := d.groupGuest g, stroke := d.pool }
    | .up => d.setDom g fun x => { x with members := x.members ||| d.groupMembers g, guest := x.guest || d.groupGuest g }
    | _ => d
  else if (d.dom g).st = .none ∨ d.hs.any (fun h => h.2.dir.any fun e => e.dev == d.devId && e.group == g) then d
  else d.setDom g fun _ => {}

def Dev.syncDoms (d : Dev) : Dev := forAll d ((List.range 255).map (· + 1)) fun d g => d.syncDom g

/-- The event record of R85 by which a head's host reads its capacity again. -/
def Dev.capacityRecord (d : Dev) (h : Nat) : Dev := d.record [h] .info .vendor 256 0 (headSlice h) [d.cfg.capacity]

/-- Dynamic heads: those present without a static view. -/
def Dev.dynamicHeads (d : Dev) : List Nat := (List.range d.nHosts).filter fun h => (d.staticOf h).isNone

/-- The exposed capacity follows the regions and hosting ranges (R466). -/
def Dev.activateCapacity (d : Dev) : Dev :=
  let c := capacityOf d.cfg.active.regions d.grants
  if c = d.cfg.capacity then d
  else
    let d := { d with cfg := { d.cfg with capacity := c } }
    forAll d d.dynamicHeads fun d h => d.capacityRecord h

/-- Ranges of pages that a configuration leaves for release (R301): those of regions that are gone, and the parts of a moved
region that its new range does not cover. -/
def releasesOf (old new : List Region) : List (Nat × Nat) :=
  old.flatMap fun o =>
    match new.find? fun r => r.num == o.num with
    | none => [(o.base * 65536, (o.base + o.size) * 65536)]
    | some r =>
      (if o.base < r.base then [(o.base * 65536, min (o.base + o.size) r.base * 65536)] else []) ++
      (if r.base + r.size < o.base + o.size then [(max o.base (r.base + r.size) * 65536, (o.base + o.size) * 65536)] else [])

/-- Ranges of pages of hosting ranges that are gone, or are not the same range for the same importer any more (R301, R466). -/
def hostingGone (old new : List Grant) : List (Nat × Nat) :=
  (old.filter fun o => o.owner && !new.any fun g => g.owner && g.peer == o.peer && g.ob == o.ob && g.len == o.len).map fun o =>
    (o.ob * 65536, (o.ob + o.len) * 65536)

/-- The release of hosting ranges that the registers no longer give begins. -/
def Dev.releaseHosting (d : Dev) (old : List Grant) : Dev :=
  { d with cfg := { d.cfg with releasing := d.cfg.releasing ++ hostingGone old d.grants } }

/-! ### Activation of an image (R300) -/

/-- The Restart records of an image differ from those in force. -/
def restartDiffers (a b : Image) : Bool :=
  a.fwHash != b.fwHash || a.headViews != b.headViews || a.timing != b.timing || a.delays != b.delays || a.poolRoot != b.poolRoot ||
    ((a.regs ++ b.regs).map Prod.fst).any fun x => restartReg x && composeReg a [] x != composeReg b [] x

/-- The Live and Pool records of an image in slot `n` take effect, with a transaction's overlay. -/
def Dev.activateImage (d : Dev) (n : Nat) (i : Image) (txn : Tbl (BitVec 32 × BitVec 32)) : Dev :=
  let old := d.cfg.active
  let d := ((d.activateRegs i txn).releaseHosting d.grants).activateBooks i
  let d := { d with cfg := { d.cfg with active := i, slot := n, releasing := d.cfg.releasing ++ releasesOf old.regions i.regions,
                                        restartPend := restartDiffers i d.cfg.primed },
                    sec := { d.sec with activeAt := d.time.loc } }
  let d := if old.poolRoot = i.poolRoot then d else d.writeLed fun l => { l with chain := [] }
  (((d.activateKeys i).syncDoms).activateCapacity).raise 44

/-- The transaction returns to Idle: reserved Metadata runs are freed and a Pending slot written for it is Discarded. -/
def Dev.txnIdle (d : Dev) : Dev :=
  let d := d.freeRuns d.cfg.txn.metaReserved
  let d := match d.cfg.txn.target with
    | some t => if d.slotState t = 2 then d.setSlotState t 3 else d
    | none => d
  { d with cfg := { d.cfg with txn := { num := d.cfg.txn.num } } }

/-- The background command of a kind that the activation completes. -/
def Dev.bgWhere (d : Dev) (f : BgKind → Bool) : Option Bg := d.cfg.bg.find? fun b => b.result.isNone && f b.kind

/-- Complete the Commit whose entry takes effect. -/
def Dev.commitDone (d : Dev) (s : Nat) : Dev :=
  match d.bgWhere fun k => match k with | .commit _ => true | _ => false with
  | some b => d.finishBg b .success 0 (leBytes 8 s)
  | none => d

/-- Change the background commands. -/
def Dev.mapBg (d : Dev) (f : Bg → Bg) : Dev := { d with cfg := { d.cfg with bg := d.cfg.bg.map f } }

/-- The stroke that a Commit's entry was queued for. -/
def Dev.commitStroke (d : Dev) : Nat :=
  ((d.cfg.bg.findSome? fun b => match b.kind with | .commit s => some s | _ => none)).getD d.pool

/-- The entry of the open transaction takes effect (R300, R306, R310, R312). -/
def Dev.activateTxn (d : Dev) : Dev :=
  let t := d.cfg.txn
  if t.st != .queued then d else
  let s := d.commitStroke
  let d := { d with cfg := { d.cfg with txn := { num := t.num } } }
  match t.image, t.target with
  | some i, some n =>
    let d := { d with metaRuns := d.metaRuns ++ t.metaReserved }
    ((d.activateImage n i t.overlay).setSlotState n 1).commitDone s
  | _, _ => ((d.activateOverlay t.overlay).raise 44).commitDone s

/-- Output of Pool Commit: outcome, cause, member, stroke. -/
def poolOut (outcome cause member stroke : Nat) : List Byte :=
  leBytes 1 outcome ++ leBytes 1 cause ++ leBytes 2 member ++ leBytes 4 0 ++ leBytes 8 stroke

/-- The commands that a Revert's activation completes: Revert, and the Pool Commit that a pool Revert ends (R302, R313). -/
def Dev.revertDone (d : Dev) : Dev :=
  let r := d.cfg.root
  let d := if r.phase = 5 then { d with cfg := { d.cfg with root := {} } } else d
  match d.bgWhere fun k => match k with | .revert _ _ => true | .poolCommit => r.phase == 5 | _ => false with
  | some b => (match b.kind with
    | .revert s v => d.finishBg b .success 0 (leBytes 8 s ++ leBytes 4 v)
    | _ => d.finishBg b .retryRequired 0x0105 (poolOut 2 0 r.named r.actS))
  | none => d

/-- A reconciled member raises EV047 and acknowledges with status 1 (R315). -/
def Dev.reconciled (d : Dev) : Dev :=
  match d.cfg.member.verify with
  | none => d
  | some (rev, _, _) =>
    let root := d.cfg.member.rootId.getD 0
    let (e, q) := (Tbl.get (0#32, 0) d.cas.heard root)
    let d := { d with cfg := { d.cfg with member := { d.cfg.member with verify := none } } }
    let a : BcastAck := { kind := if rev then 6 else 4, member := d.devId, epoch := e, bseq := q, status := 1, slice := 0,
                          ver := d.cfg.active.poolVer }
    (d.raise 47).sendAck root a

/-- A Revert's or reconciliation's entry takes effect (R302, R315). -/
def Dev.activateTo (d : Dev) : Dev :=
  match d.cfg.toSlot with
  | none => d
  | some (n, i, rev) =>
    let was := d.cfg.slot
    let d := { d with cfg := { d.cfg with toSlot := none } }
    let d := match d.reserveRuns (capacityOf i.regions (grantsOf (composeReg i []))) with
      | some (ms, d) => { d with metaRuns := d.metaRuns ++ ms }
      | none => d
    let d := (d.activateImage n i []).setSlotState n 1
    if rev then (d.setSlotState was 4).revertDone else d.reconciled

/-! ### Priming (R297) -/

/-- Step 5: every seated bay that is Off waits for its ramp (R369, R370). -/
def Dev.primeBays (d : Dev) : Dev :=
  { d with bays := d.bays.map fun b =>
      (b.1, if b.2.st = .off then { b.2 with st := .queued, order := d.time.loc, debounce := none } else b.2) }

/-- Steps 3 and 4: the image of slot `n` is in force, with no overlay; the entry of R450 is queued, and step 5 begins. -/
def Dev.primeFrom (d : Dev) (n : Nat) (i : Image) (live : Bool) : Dev :=
  let regs := (i.regs.map Prod.fst).eraseDups.foldl (fun t a => Tbl.set (resetOf a) t a (composeReg i [] a)) []
  let d : Dev := { d with
    cfg := { d.cfg with regs := regs, overlay := [], active := i, primed := i, slot := n, primedSlot := n, restartPend := false,
                        releasing := [], qos := none, capacity := 0 }
    prim := .priming live
    books := i.books.foldl (fun t b => if d.hasZw then Tbl.put t b.1 { st := .live, book := some b.2 } else t) []
    sec := { d.sec with activeAt := d.time.loc } }
  (match d.queueAct d.earliest 2 (.opPoint (d.fld 0x610 31 30)) with | .ok d => d | .error _ => d).primeBays

/-- Steps 1 and 2 (R296, R298, R317, R318, R331, R448): the device refuses to prime, or selects a slot. -/
def Dev.primeStart (d : Dev) : Dev :=
  let d : Dev := { d with prim := .unprimed, gst := { d.gst with fit := d.gst.st == 2 && d.gst.coherent } }
  if ([0, 1, 2, 3] : List Nat).any d.otp.bad.contains then d.raise 11 (tileSlice 0)
  else if d.sec.scan then d
  else if d.lifecycle = 3 ∨ d.clk.straps.testMode then d.raise 43 (tileSlice 0)
  else match d.selectFrom d.candidates with
    | (d, some (n, i)) => d.primeFrom n i false
    | (d, none) => d.raise 43 (tileSlice 0)

/-- Priming begins; its step 2 waits for the guest (R428). -/
def Dev.primeBegin (d : Dev) : Dev := if d.hasGuest then { d with prim := .waiting } else d.primeStart

/-- The guest has attached or failed: priming goes on where it waits. -/
def Dev.primeGuest (d : Dev) : Dev := if d.prim = .waiting then d.primeStart else d

end Sys2Proof.Machine
end

