-- ==== Sys2Proof/Machine/Txn.lean ====
section
/-! DEFINITION. Mailbox command gates (R30, R31, R57, R67, R70, R76, R85, R390, R461) and the configuration transaction
(R289, R302 to R310): Begin, Stage, Validate, Commit, Rollback, Revert. -/

namespace Sys2Proof.Machine

open Sys2Proof

/-! ### Gates -/

/-- What a command needs: manager rights; whether it is accepted in priming-only mode (R85), while latched off (R390); whether it
is MCTP only (R57). -/
structure Gate where
  manager : Bool := false
  unprimed : Bool := false
  latched : Bool := false
  mctp : Bool := false
  /-- It never wakes the device (R342). -/
  quiet : Bool := false

/-- The sender exists. -/
def Dev.srcOk (d : Dev) : Src → Bool
  | .head h => decide (h < d.nHosts)
  | .mctp => true

/-- The completion of a command that a gate turns away, if one does. -/
def Dev.gateStop (d : Dev) (src : Src) (g : Gate) : Option (Ret × Nat) :=
  if d.coresGone then some (.busy, 0)
  else if d.therm.latched && !g.latched then some (.busy, 0)
  else if g.mctp && src != .mctp then some (.unsupported, 0)
  else if d.prim != .primed && !g.unprimed then some (.unsupported, 0x0107)
  else if g.manager && !d.mgr src then some (.invalidInput, 0x0108)
  else none

/-- Run a command behind its gates. -/
def Dev.gated (d : Dev) (src : Src) (g : Gate) (f : Dev → Dev) : Dev :=
  if !d.srcOk src then d else
  let d := if g.quiet then d else d.wakeFor src
  match d.gateStop src g with
    | some (r, e) => d.reply src r e
    | none => f d

/-- The input of a vendor command: R76 over MCTP, R68 and R461 for its length, then its reserved bytes. Rights and the owner of the
transaction are judged before (DESIGN CHOICE, log 84). -/
def Dev.vend (d : Dev) (src : Src) (p : List Byte) (lenOk reservedOk : Bool) (f : Dev → Dev) : Dev :=
  if src == .mctp && decide (p.length > 4096) then d.reply src .invalidInput
  else if !lenOk || decide (p.length > 65536) then d.reply src .invalidPayloadLength
  else if !reservedOk then d.reply src .invalidInput
  else f d

/-- The vendor commands that the manual allows only to the owner of the transaction. -/
def Dev.owned (d : Dev) (src : Src) (f : Dev → Dev) : Dev :=
  if d.cfg.txn.st = .idle then d.reply src .invalidInput 0x0102
  else if d.cfg.txn.owner != some src then d.reply src .invalidInput 0x0103
  else f d

/-- A background command runs on the sender's mailbox (R68). -/
def Dev.bgRuns (d : Dev) (src : Src) : Bool := d.cfg.bg.any fun b => b.src == src

/-- Start a background command. -/
def Dev.startBg (d : Dev) (src : Src) (k : BgKind) (queued : Bool := false) : Dev :=
  let b : Bg := { src := src, kind := k, queued := queued }
  { d with cfg := { d.cfg with bg := d.cfg.bg ++ [b] } }.reply src .backgroundStarted

/-- A background command that meets one already running on its mailbox completes with Busy (R68, log entry 41). -/
def Dev.asBg (d : Dev) (src : Src) (f : Dev → Dev) : Dev := if d.bgRuns src then d.reply src .busy else f d

/-- Note the owner's last transaction command (R309). -/
def Dev.touchTxn (d : Dev) : Dev := { d with cfg := { d.cfg with txn := { d.cfg.txn with lastCmd := d.time.loc } } }

def Dev.setTxn (d : Dev) (f : Txn → Txn) : Dev := { d with cfg := { d.cfg with txn := f d.cfg.txn } }

/-- The transaction is Open again: what a passing Validate left, reserved runs and a written target slot, is given up. -/
def Dev.reopen (d : Dev) : Dev :=
  let d := d.freeRuns d.cfg.txn.metaReserved
  let d := match d.cfg.txn.target with
    | some t => if d.slotState t = 2 then d.setSlotState t 3 else d
    | none => d
  d.setTxn fun t => { t with st := .opened, image := none, metaReserved := [], target := none }

/-! ### Writing the NVM (R289, R388) -/

/-- The NVM may be erased and programmed: CT's used temperature is within 0 °C to 95 °C and there is no brace state. A tile not
yet sampled counts as inside. -/
def Dev.nvmWritable (d : Dev) : Bool :=
  !d.sup.brace && (!(d.sens 0).seen || (decide (0 ≤ (d.sens 0).used) && decide ((d.sens 0).used ≤ 95 * 64)))

/-- Program a slot with the staged image: the slot is erased first. -/
def Dev.writeSlot (d : Dev) (n : Nat) : Dev :=
  let len := (d.headerAt stageBase).elim 0 Header.length
  let bs := d.nvmBytes stageBase len
  { d with nvm := Memory.writeN nvmBlank (Memory.wipe d.nvm (slotBase n) areaSize) (slotBase n) bs }

/-- The read-back of a slot: BODY_HASH and both signatures (R306 step 3), noted as a check of the slot (log entry 42). -/
def Dev.readBack (d : Dev) (n : Nat) (ok : Bool) : Dev × Bool :=
  let len := (d.headerAt (slotBase n)).elim 512 Header.length
  let bs := d.nvmBytes (slotBase n) len
  let good := ok && (match d.checkHead bs with | .ok _ => true | .error f => f.reason == 5)
  ({ d with cfg := { d.cfg with slots := Tbl.upd {} d.cfg.slots n fun s =>
      { ver := (d.headerAt (slotBase n)).elim 0 Header.version, valid := good, reason := if good then s.reason else 17 } } }, good)

/-! ### Begin and Stage (R303, R304) -/

/-- A Revert or a pool decision is in progress (R302, R303). -/
def Dev.decisionOpen (d : Dev) : Bool := d.cfg.toSlot.isSome || d.cfg.root.phase != 0

/-- BEGIN (R303). -/
def Dev.beginTxn (d : Dev) (src : Src) (p : List Byte) : Dev :=
  d.gated src { manager := d.prim == .primed, unprimed := true } fun d =>
  d.vend src p (p.length == 8) (decide (fieldAt p 0 1 < 2) && zeros (sub p 1 3)) fun d =>
  if d.cfg.txn.st != .idle || d.decisionOpen then d.busy104 src
  else if fieldAt p 4 4 ≠ 0 ∧ fieldAt p 4 4 ≠ d.cfgVersion then d.reply src .invalidInput
  else
    let n := (d.cfg.txn.num + 1) % 2 ^ 32
    (d.setTxn fun _ => { st := .opened, owner := some src, num := n, pool := bit (fieldAt p 0 1) 0, lastCmd := d.time.loc }).reply
      src .success 0 (leBytes 4 n)

/-- Bytes of the staged header's LENGTH that the staged ranges cover. -/
def stagedCount (len : Nat) (rs : List (Nat × Nat)) : Nat := (rs.map fun r => min (r.1 + r.2) len - min r.1 len).sum

def Dev.stagedLen (d : Dev) : Nat := leNat (d.nvmBytes (stageBase + 16) 4)

/-- A Stage's range is one that R304 allows. -/
def Dev.stageOk (d : Dev) (off n : Nat) : Bool :=
  off % 8 == 0 && n % 8 == 0 &&
    (if d.cfg.txn.staged.isEmpty then off == 0 && decide (512 ≤ n) && decide (n ≤ areaSize)
     else decide (off + n ≤ min d.stagedLen areaSize) && !(d.cfg.txn.staged.any fun r => rangesMeet r.1 r.2 off n))

/-- STAGE (R304). -/
def Dev.stage (d : Dev) (src : Src) (p : List Byte) : Dev :=
  d.gated src { unprimed := true } fun d => d.owned src fun d =>
  d.vend src p (decide (8 ≤ p.length)) (zeros (sub p 4 4)) fun d =>
  let d := d.touchTxn
  if !(d.cfg.txn.st == .opened || d.cfg.txn.st == .ready) || !d.stageOk (fieldAt p 0 4) (p.length - 8) then d.reply src .invalidInput
  else d.asBg src fun d =>
    let d := d.reopen.setTxn fun t => { t with stageIssued := true }
    ({ d with nvmWait := 0 }).startBg src (.stage (fieldAt p 0 4) (p.drop 8))

/-- The Stage, Validate or Commit that runs for the open transaction. -/
def Dev.txnBg (d : Dev) (f : BgKind → Bool) : Option Bg := d.cfg.bg.find? fun b => b.result.isNone && !b.abandoned && f b.kind

/-- STAGE_COMPLETE (R304): the bytes are in the staging area; while the NVM may not be written the Stage waits (R289). -/
def Dev.stageComplete (d : Dev) (nvmOk : Bool) : Dev :=
  match d.txnBg fun k => match k with | .stage _ _ => true | _ => false with
  | none => d
  | some b =>
    if !nvmOk || !d.nvmWritable then d
    else match b.kind with
      | .stage off data =>
        let m := if d.cfg.txn.staged.isEmpty then Memory.wipe d.nvm stageBase areaSize else d.nvm
        let d := { d with nvm := Memory.writeN nvmBlank m (stageBase + off) data }
        let d := (d.setTxn fun t => { t with staged := t.staged ++ [(off, data.length)] }).touchTxn
        d.finishBg b .success
      | _ => d

/-! ### Validate (R305) -/

/-- VALIDATE (R305). -/
def Dev.validate (d : Dev) (src : Src) (p : List Byte) : Dev :=
  d.gated src { unprimed := true } fun d => d.owned src fun d =>
  d.vend src p p.isEmpty true fun d =>
  let d := d.touchTxn
  if !(d.cfg.txn.st == .opened || d.cfg.txn.st == .ready) then d.reply src .invalidInput
  else d.asBg src fun d => ({ d.reopen with nvmWait := 0 }).startBg src .validate

/-- Output of Validate. -/
def validateOut (f : Option ImgFail) (ver : Nat) : List Byte :=
  match f with
  | none => leBytes 4 0 ++ leBytes 4 0 ++ leBytes 4 0 ++ leBytes 4 ver
  | some x => leBytes 1 x.reason ++ leBytes 3 0 ++ leBytes 4 x.off ++ leBytes 2 x.ty ++ leBytes 2 0 ++ leBytes 4 ver

/-- The checks of Validate on a transaction without an image: its overlay over the values in force (R293, R295, R460). -/
def Dev.checkOverlay (d : Dev) : Option ImgFail :=
  let t := d.cfg.txn
  let reg (a : Nat) : BitVec 32 := match Tbl.look t.overlay a with | some o => mergeBits (d.cfgReg a) o | none => d.cfgReg a
  if t.overlay.any fun e => !valueOk e.1 (reg e.1) then some { reason := 11, ty := 0x20 }
  else if t.pool then some { reason := 15, ty := 0x11 }
  else if !(d.joinedBad reg).isEmpty then some { reason := 11, ty := 0x20 }
  else none

/-- The target slot (R299, R307). -/
def Dev.targetSlot (d : Dev) : Nat :=
  if d.prim != .primed then (if d.led.slotA ≤ 1 ∧ d.led.slotB > 1 then 1 else 0)
  else if d.cfg.slot = 0 then 1 else if d.cfg.slot = 1 then 0
  else
    let free (s : Nat) : Bool := s == 0 || s == 3 || s == 4
    if free d.led.slotB && !free d.led.slotA then 1 else 0

/-- Validation ends with a failure: the transaction is Open. -/
def Dev.validateFail (d : Dev) (b : Bg) (f : ImgFail) (ver : Nat) : Dev :=
  let d := { d with cfg := { d.cfg with lastReason := f.reason } }
  let d := (d.setTxn fun t => { t with st := .opened, image := none }).touchTxn
  d.finishBg b .invalidInput 0 (validateOut (some f) ver)

/-- Validation passes: the transaction is Ready. -/
def Dev.validatePass (d : Dev) (b : Bg) (i : Option Image) (ms : List MetaRun) (target : Option Nat) (ver : Nat) : Dev :=
  let d := (d.setTxn fun t => { t with st := .ready, image := i, metaReserved := ms, target := target }).touchTxn
  d.finishBg b .success 0 (validateOut none ver)

/-- VALIDATE_COMPLETE (R305): the staged image, or the overlay alone, is checked in the order of R469; under POOL the target
slot is written and read back, which waits while the NVM may not be written. -/
def Dev.validateComplete (d : Dev) (readBackOk : Bool) : Dev :=
  match d.txnBg fun k => k == .validate with
  | none => d
  | some b =>
    let t := d.cfg.txn
    if !t.stageIssued then
      match d.checkOverlay with
      | some f => d.validateFail b f 0
      | none => d.validatePass b none [] none 0
    else if stagedCount d.stagedLen t.staged < d.stagedLen ∨ t.staged.isEmpty then d.validateFail b { reason := 16 } 0
    else
      let c := d.checkImage stageBase (some (t.overlay, t.pool))
      match c.fail with
      | some f => (d.skips c.skipped).validateFail b f c.ver
      | none =>
        match (if d.prim = .primed then d.reserveRuns (capacityOf c.img.regions (grantsOf (composeWith c.img d.cfg.overlay t.overlay)))
               else some ([], d)) with
        | none => (d.skips c.skipped).validateFail b { reason := 13, ty := 0x30 } c.ver
        | some (ms, d1) =>
          if !t.pool then (d1.skips c.skipped).validatePass b (some c.img) ms none c.ver
          else if !d.nvmWritable then d
          else
            let n := d.targetSlot
            let (d2, ok) := (((d1.skips c.skipped).setSlotState n 2).writeSlot n).readBack n readBackOk
            if ok then d2.validatePass b (some c.img) ms (some n) c.ver
            else ((d2.freeRuns ms).setSlotState n 3).validateFail b { reason := 17 } c.ver

/-! ### Commit (R299, R306) -/

/-- Commit and pool Validate leave the target slot Discarded, the transaction in the state given. -/
def Dev.dropTarget (d : Dev) (st : TxnSt) : Dev :=
  let d := match d.cfg.txn.target with | some n => d.setSlotState n 3 | none => d
  d.setTxn fun t => { t with st := st, target := none }

/-- Step 4 of Commit: the entry is queued or refused (R49). -/
def Dev.commitQueue (d : Dev) (b : Bg) : Dev :=
  let s := d.wanted d.cfg.txn.wantStroke
  match d.queueAct s 1 .config with
  | .ok d =>
    let d := d.setTxn fun t => { t with st := .queued }
    { d with cfg := { d.cfg with bg := d.cfg.bg.map fun x => if x = b then { x with kind := .commit s, queued := true } else x } }
  | .error r => ((d.dropTarget .ready).touchTxn.raise 51).finishBg b r

/-- COMMIT (R306): a transaction without a staged image has no slot to write and queues its entry at once. -/
def Dev.commit (d : Dev) (src : Src) (p : List Byte) : Dev :=
  d.gated src { unprimed := true } fun d => d.owned src fun d =>
  d.vend src p (p.length == 8) true fun d =>
  let d := d.touchTxn
  if d.cfg.txn.st != .ready || d.cfg.txn.pool then d.reply src .invalidInput
  else d.asBg src fun d =>
    let d := d.setTxn fun t => { t with st := .writing, wantStroke := fieldAt p 0 8 }
    let d := ({ d with nvmWait := 0 }).startBg src (.commit 0)
    if d.cfg.txn.image.isSome then
      let n := d.targetSlot
      (d.setSlotState n 2).setTxn fun t => { t with target := some n }
    else match d.txnBg fun k => k == .commit 0 with
      | some b => d.commitQueue b
      | none => d

/-- COMMIT_SLOT_WRITTEN (R306): the slot write and its read-back end. Unprimed, the device primes from the slot (R299). -/
def Dev.commitSlotWritten (d : Dev) (readBackOk : Bool) : Dev :=
  match d.txnBg (fun k => k == .commit 0), d.cfg.txn.target, d.cfg.txn.image with
  | some b, some n, some i =>
    if d.cfg.txn.st != .writing || b.queued || !d.nvmWritable then d
    else
      let (d, ok) := (d.writeSlot n).readBack n readBackOk
      if !ok then ((d.dropTarget .ready).touchTxn).finishBg b .invalidInput
      else if d.prim = .primed then d.commitQueue b
      else
        let d := { d with cfg := { d.cfg with bg := d.cfg.bg.map fun x => if x = b then { x with queued := true } else x } }
        d.primeFrom n i true
  | _, _, _ => d

/-! ### Rollback, Revert (R302, R308) -/

/-- An abort of a background command is asked for; the next boundary examines it (R74). -/
def Dev.askAbort (d : Dev) (b : Bg) (by_ : Src) : Dev :=
  { d with cfg := { d.cfg with bg := d.cfg.bg.map fun x => if x = b then { x with aborts := x.aborts ++ [by_] } else x } }

/-- ROLLBACK (R308), for the owner or a manager. -/
def Dev.rollback (d : Dev) (src : Src) (p : List Byte) : Dev :=
  d.gated src { unprimed := true } fun d =>
  let t := d.cfg.txn
  if t.owner != some src && !d.mgr src then
    (if t.st = .idle then d.reply src .invalidInput 0x0102 else d.reply src .invalidInput 0x0103)
  else d.vend src p p.isEmpty true fun d =>
  match t.st with
  | .idle => d.reply src .invalidInput 0x0102
  | .opened | .ready => d.txnIdle.reply src .success
  | .writing =>
    (match d.txnBg fun k => match k with | .commit _ => true | _ => false with
     | some b => d.askAbort b src
     | none => d.reply src .success)
  | .queued => d.reply src .success 0x0106
  | .voted => d.reply src .busy

/-- The previous image (R302): the eligible slot other than the active one with the highest CONFIG_VERSION below the active. -/
def Dev.prevSlot (d : Dev) : Option Nat :=
  let el := (([0, 1] : List Nat).filter fun n => decide (d.slotState n ≤ 1)) ++ [2]
  let c := (el.filter fun n => n != d.cfg.slot).filterMap fun n =>
    (d.headerAt (slotBase n)).bind fun h => if h.version < d.cfgVersion then some (h.version, n) else none
  (c.foldl (fun acc x => insertCand x acc) []).head?.map Prod.snd

/-- Queue a Revert to the previous image for a stroke; none where the previous image fails. -/
def Dev.findPrev (d : Dev) (pool : Bool) : Dev × Option (Nat × Image) :=
  match d.prevSlot with
  | none => (d, none)
  | some n =>
    let (d, c) := d.checkSlot n
    if c.fail.isSome ∨ (!pool ∧ d.inPool ∧ c.img.poolTag ≠ d.cfg.active.poolTag) then (d, none) else (d, some (n, c.img))

/-- REVERT (R302). With POOL the root orders a pool Revert (R313). -/
def Dev.revert (d : Dev) (src : Src) (p : List Byte) : Dev :=
  d.gated src { manager := true } fun d =>
  d.vend src p (p.length == 9) (decide (fieldAt p 8 1 < 2)) fun d =>
  let pool := fieldAt p 8 1 == 1
  if d.cfg.txn.st != .idle || d.decisionOpen then d.busy104 src
  else if pool && !d.isRoot then d.reply src .invalidInput
  else d.asBg src fun d =>
    let (d, f) := d.findPrev pool
    match f with
    | none => d.reply src .invalidInput
    | some (n, i) =>
      if pool then
        let d := d.startBg src (.revert 0 i.version)
        { d with cfg := { d.cfg with root := { phase := 4, src := some src, ver := d.cfg.active.poolVer, digest := d.cfg.active.poolDig } } }
      else
        let s := d.wanted (fieldAt p 0 8)
        match d.queueAct s 1 .toSlot with
        | .error r => (d.raise 51).reply src r
        | .ok d => { d with cfg := { d.cfg with toSlot := some (n, i, true) } }.startBg src (.revert s i.version) true

/-! ### Timeouts (R289, R309) and aborts (R464) -/

/-- A rolled-back Stage, Validate or Commit (R464). -/
def Dev.rollBackTxn (d : Dev) (b : Bg) : Dev :=
  match b.kind with
  | .validate => d.reopen
  | .commit _ => d.dropTarget .ready
  | _ => d

/-- NVM_WRITE_TIMEOUT (R289): a write has waited 10 s in total. -/
def Dev.nvmWriteTimeout (d : Dev) : Dev :=
  match d.txnBg fun k => match k with | .stage _ _ => true | .validate => d.cfg.txn.pool | .commit _ => d.cfg.txn.st == .writing | _ => false with
  | none => d
  | some b =>
    if d.nvmWait < 10000000 || b.queued then d
    else
      let d := if b.kind == .validate then d.setSlotState d.targetSlot 3 else d
      ((d.rollBackTxn b).touchTxn).finishBg b .retryRequired 0x0105 (sliceOut (tileSlice 0))

/-- The owner of the open transaction is gone (R309). -/
def Dev.ownerGone (d : Dev) : Bool :=
  match d.cfg.txn.owner with
  | some (.head h) => (d.head h).perst || !(d.head h).up
  | some .mctp => d.mctp.addr.isNone
  | none => false

/-- TRANSACTION_TIMEOUT (R309). -/
def Dev.transactionTimeout (d : Dev) : Dev :=
  let t := d.cfg.txn
  if (t.st == .opened || t.st == .ready) && (decide (d.time.loc ≥ t.lastCmd + 30000000) || d.ownerGone) then
    let d := match d.txnBg fun k => match k with | .stage _ _ => true | .validate => true | _ => false with
      | some b => d.finishBg b .aborted
      | none => d
    d.txnIdle.raise 45
  else d

/-! ### Commands -/

/-- BEGIN (R303). -/
def execBeginTxn (src : Src) (payload : List Byte) (s : State) : Host.Outcome State Fault Refusal :=
  s.mail src (.beginTxn src payload) (s.dev.beginTxn src payload)

/-- STAGE (R304). -/
def execStage (src : Src) (payload : List Byte) (s : State) : Host.Outcome State Fault Refusal := s.mail src (.stage src payload) (s.dev.stage src payload)

/-- STAGE_COMPLETE (R304). -/
def execStageComplete (nvmOk : Bool) (s : State) : Host.Outcome State Fault Refusal := s.done (s.dev.stageComplete nvmOk)

/-- VALIDATE (R305). -/
def execValidate (src : Src) (payload : List Byte) (s : State) : Host.Outcome State Fault Refusal :=
  s.mail src (.validate src payload) (s.dev.validate src payload)

/-- VALIDATE_COMPLETE (R305). -/
def execValidateComplete (readBackOk : Bool) (s : State) : Host.Outcome State Fault Refusal :=
  s.done (s.dev.validateComplete readBackOk)

/-- COMMIT (R306). -/
def execCommit (src : Src) (payload : List Byte) (s : State) : Host.Outcome State Fault Refusal :=
  s.mail src (.commit src payload) (s.dev.commit src payload)

/-- COMMIT_SLOT_WRITTEN (R306). -/
def execCommitSlotWritten (readBackOk : Bool) (s : State) : Host.Outcome State Fault Refusal :=
  s.done (s.dev.commitSlotWritten readBackOk)

/-- ROLLBACK (R308). -/
def execRollback (src : Src) (payload : List Byte) (s : State) : Host.Outcome State Fault Refusal :=
  s.mail src (.rollback src payload) (s.dev.rollback src payload)

/-- REVERT (R302). -/
def execRevert (src : Src) (payload : List Byte) (s : State) : Host.Outcome State Fault Refusal :=
  s.mail src (.revert src payload) (s.dev.revert src payload)

/-- NVM_WRITE_TIMEOUT (R289). -/
def execNvmWriteTimeout (s : State) : Host.Outcome State Fault Refusal := s.done s.dev.nvmWriteTimeout

/-- TRANSACTION_TIMEOUT (R309). -/
def execTransactionTimeout (s : State) : Host.Outcome State Fault Refusal := s.done s.dev.transactionTimeout

end Sys2Proof.Machine
end

