-- ==== Sys2Proof/Machine/Pool.lean ====
section
/-! DEFINITION. Pool-wide commit (R311 to R315): the root's decision, the members' votes, pool Revert, and reconciliation by
Configuration Pull. -/

namespace Sys2Proof.Machine

open Sys2Proof

def Dev.setRoot (d : Dev) (f : PoolRoot → PoolRoot) : Dev := { d with cfg := { d.cfg with root := f d.cfg.root } }
def Dev.setMember (d : Dev) (f : PoolMember → PoolMember) : Dev := { d with cfg := { d.cfg with member := f d.cfg.member } }

/-- The Pool tag of the open transaction's image. -/
def Dev.txnTag (d : Dev) : Option (BitVec 32 × BitVec 64) := d.cfg.txn.image.bind Image.poolTag

/-- Pool version and digest in force. -/
def Dev.poolNow (d : Dev) : BitVec 32 × BitVec 64 := (d.cfg.active.poolVer, d.cfg.active.poolDig)

/-- Write the root's decision to the ledger (R311): 1 committed, 2 aborted, 3 reverted. -/
def Dev.decide_ (d : Dev) (o : Nat) (v : BitVec 32 × BitVec 64) (s : Nat) : Dev :=
  d.writeLed fun l => { l with decision := o, decVer := v.1, decDigest := v.2, decStroke := s }

/-- The running Pool Commit. -/
def Dev.poolBg (d : Dev) : Option Bg := d.bgWhere fun k => k == .poolCommit

/-- End the running Pool Commit. -/
def Dev.endPoolCmd (d : Dev) (r : Ret) (ext : Nat) (out : List Byte) : Dev :=
  match d.poolBg with | some b => d.finishBg b r ext out | none => d

/-! ### The root (R311 to R313) -/

/-- POOL_COMMIT (R311). -/
def Dev.poolCommit (d : Dev) (src : Src) (p : List Byte) : Dev :=
  d.gated src { manager := true } fun d => d.vend src p p.isEmpty true fun d =>
  if !d.isRoot || d.cfg.txn.st != .ready || !d.cfg.txn.pool || d.txnTag.isNone then d.reply src .invalidInput 0x0102
  else if d.cfg.root.phase ≠ 0 then d.reply src .busy
  else d.asBg src fun d =>
    (d.setRoot fun _ => { phase := 1, src := some src, ver := (d.txnTag.getD (0#32, 0#64)).1, digest := (d.txnTag.getD (0#32, 0#64)).2 }).startBg
      src .poolCommit

/-- The root broadcasts Pool Abort and returns to Ready. Cause: 1 refused, 2 no vote, 3 abort command. -/
def Dev.rootAbort (d : Dev) (cause member : Nat) : Dev :=
  let r := d.cfg.root
  let d := d.broadcast 5 { bcast0 with ver := r.ver, digest := r.digest, dev := member, cause := cause }
  let d := (d.decide_ 2 (r.ver, r.digest) 0).setTxn fun t => if t.st = .voted then { t with st := .ready } else t
  (d.setRoot fun _ => {}).touchTxn

/-- Step P of R311 at a boundary. -/
def Dev.rootPrepare (d : Dev) : Dev :=
  let d := d.broadcast 3 { bcast0 with ver := d.cfg.root.ver, digest := d.cfg.root.digest }
  (d.setTxn fun t => { t with st := .voted }).setRoot fun r => { r with phase := 2, startP := d.pool, bseq := d.cas.bseq, yes := [], acks := [] }

/-- Every member has acknowledged the Commit: Pool Commit completes with Success (R313). -/
def Dev.rootAcked (d : Dev) : Dev :=
  if d.cfg.root.phase = 3 ∧ d.members.all d.cfg.root.acks.contains then
    let s := d.cfg.root.actS
    (d.setRoot fun _ => {}).endPoolCmd .success 0 (poolOut 0 0 0 s)
  else d

/-- Boundary V of R311: the decision is in the ledger, the root's activation is queued and Pool Commit is broadcast. -/
def Dev.rootCommit (d : Dev) : Dev :=
  let r := d.cfg.root
  let s := d.pool + d.lead
  match d.queueAct s 1 .config with
  | .error x => ((d.raise 51).rootAbort 1 d.devId).endPoolCmd x 0 []
  | .ok d =>
    let d := (d.decide_ 1 (r.ver, r.digest) s).setTxn fun t => { t with st := .queued }
    let d := d.broadcast 4 { bcast0 with ver := r.ver, digest := r.digest, act := BitVec.ofNat 64 s }
    let d := d.mapBg fun b => if b.kind = .poolCommit then { b with queued := true } else b
    (d.setRoot fun r => { r with phase := 3, actS := s, acks := [], bseq := d.cas.bseq }).rootAcked

/-- After a control-complex reset the root broadcasts the Commit again (R31); it waits COMMIT_WAIT strokes from there for the
acknowledgements (DESIGN CHOICE, log 79). -/
def Dev.rootAgain (d : Dev) : Dev :=
  let r := d.cfg.root
  if r.phase = 3 then
    let d := d.broadcast 4 { bcast0 with ver := r.ver, digest := r.digest, act := BitVec.ofNat 64 r.actS }
    d.setRoot fun r => { r with bseq := d.cas.bseq, startP := d.pool }
  else d

/-- Where the root's Revert goes: back to the image in force while its own activation still waits, else the previous image. -/
def Dev.rootTarget (d : Dev) : Dev × Option (Nat × Image) :=
  if d.cfg.txn.st = .queued then (d, some (d.cfg.slot, d.cfg.active)) else d.findPrev true

/-- The boundary at which the root orders a pool Revert (R313). -/
def Dev.rootRevert (d : Dev) : Dev :=
  let r := d.cfg.root
  let t := d.pool + d.lead
  let (d, f) := d.rootTarget
  match f with
  | none => ((d.setRoot fun _ => {}).raise 46).endPoolCmd .retryRequired 0x0105 (poolOut 2 0 r.named 0)
  | some (n, i) =>
    match d.queueAct t 1 .toSlot with
    | .error x => ((d.setRoot fun _ => {}).raise 51).endPoolCmd x 0 []
    | .ok d =>
      let d := { d with cfg := { d.cfg with toSlot := some (n, i, true) } }.mapBg fun b =>
        match b.kind with | .revert _ v => { b with kind := .revert t v, queued := true } | _ => b
      let d := d.decide_ 3 (i.poolVer, i.poolDig) t
      let d := d.broadcast 6 { bcast0 with ver := r.ver, digest := r.digest, targetVer := i.poolVer, targetDigest := i.poolDig,
                                           act := BitVec.ofNat 64 t }
      d.setRoot fun r => { r with phase := 5, actS := t, bseq := d.cas.bseq }

/-- What the root's decision does at a stroke boundary; `s0` is the state it is decided on (R458). An abort that wins at the same
boundary goes first (R311). -/
def Dev.poolBoundary (d s0 : Dev) : Dev :=
  let r := s0.cfg.root
  if d.coresGone ∨ d.cfg.root.phase ≠ r.phase then d
  else if r.phase = 1 then d.rootPrepare
  else if r.phase = 2 ∧ s0.members.all r.yes.contains then d.rootCommit
  else if r.phase = 4 then d.rootRevert
  else d

/-- VOTE_WINDOW_EXPIRY (R311). -/
def Dev.voteWindowExpiry (d : Dev) : Dev :=
  let r := d.cfg.root
  if r.phase = 2 ∧ !d.coresGone ∧ d.pool ≥ r.startP + d.voteWin then
    match d.members.find? fun m => !r.yes.contains m with
    | some m => (d.rootAbort 2 m).endPoolCmd .retryRequired 0x0105 (poolOut 1 2 m 0)
    | none => d
  else d

/-- COMMIT_WAIT_EXPIRY (R313); the decision waits while the cores are away (R31). -/
def Dev.commitWaitExpiry (d : Dev) : Dev :=
  let r := d.cfg.root
  if r.phase = 3 ∧ !d.coresGone ∧ d.pool ≥ max r.actS r.startP + d.commitWait then
    match d.members.find? fun m => !r.acks.contains m with
    | some m => d.setRoot fun r => { r with phase := 4, named := m }
    | none => d
  else d

/-- A vote (R311): one that arrives after its window is ignored. -/
def Dev.takeVote (d : Dev) (a : BcastAck) : Dev :=
  let r := d.cfg.root
  if r.phase = 2 ∧ a.bseq = r.bseq ∧ d.pool < r.startP + d.voteWin ∧ d.members.contains a.member then
    if a.status = 0 then d.setRoot fun r => { r with yes := if r.yes.contains a.member then r.yes else a.member :: r.yes }
    else (d.rootAbort 1 a.member).endPoolCmd .retryRequired 0x0105 (poolOut 1 1 a.member 0)
  else d

/-- An acknowledgement of Pool Commit (R313). -/
def Dev.takeAck (d : Dev) (a : BcastAck) : Dev :=
  if d.cfg.root.phase = 3 ∧ d.members.contains a.member then
    if a.status = 2 then d.setRoot fun r => { r with phase := 4, named := a.member }
    else (d.setRoot fun r => { r with acks := if r.acks.contains a.member then r.acks else a.member :: r.acks }).rootAcked
  else d

/-! ### Members (R311 to R313) -/

/-- Hear a pool broadcast: while the cores are away it is lost to the device (R312). -/
def Dev.hearPool (d : Dev) (p kind : Nat) (b : Bcast) (f : Dev → Dev) : Dev :=
  match d.hear p kind b with
  | none => d
  | some d => if d.coresGone then d else f (d.setMember fun m => { m with rootId := some b.src })

/-- POOL_PREPARE (R311): the vote. -/
def Dev.poolPrepare (d : Dev) (p : Nat) (b : Bcast) : Dev :=
  d.hearPool p 3 b fun d =>
    let t := d.cfg.txn
    if t.st = .ready ∧ t.pool then
      if d.txnTag = some (b.ver, b.digest) then
        ((d.setTxn fun t => { t with st := .voted }).setMember fun m => { m with votedAt := d.time.loc }).ack 3 b 0 0 d.poolNow.1
      else d.ack 3 b 2 0 d.poolNow.1
    else d.ack 3 b 1 0 d.poolNow.1

/-- The status already sent for this Commit (R312). -/
def Dev.ackedBefore (d : Dev) (b : Bcast) : Option Nat :=
  match d.cfg.member.lastAck with
  | some (v, s, st) => if v = b.ver ∧ s = b.act.toNat then some st else none
  | none => none

/-- POOL_COMMIT_BROADCAST (R312). -/
def Dev.poolCommitBroadcast (d : Dev) (p : Nat) (b : Bcast) : Dev :=
  d.hearPool p 4 b fun d =>
    let s := b.act.toNat
    match d.ackedBefore b with
    | some st => d.ack 4 b st 0 d.poolNow.1
    | none =>
      if d.cfg.txn.st = .voted ∧ d.txnTag = some (b.ver, b.digest) then
        let late := decide (s < d.earliest)
        match d.queueAct (if late then d.earliest else s) 1 .config with
        | .error _ => (d.raise 51).ack 4 b 2 0 d.poolNow.1
        | .ok d =>
          let d := (d.setTxn fun t => { t with st := .queued }).setMember fun m => { m with lastAck := some (b.ver, s, b2n late) }
          (if late then d.raise 47 else d).ack 4 b (b2n late) 0 d.poolNow.1
      else if d.poolNow = (b.ver, b.digest) then d.ack 4 b 0 0 d.poolNow.1
      else d.ack 4 b 2 0 d.poolNow.1

/-- POOL_ABORT (R312). -/
def Dev.poolAbort (d : Dev) (p : Nat) (b : Bcast) : Dev :=
  d.hearPool p 5 b fun d =>
    if (d.cfg.txn.st == .voted || d.cfg.txn.st == .ready) && d.cfg.txn.pool && d.txnTag == some (b.ver, b.digest) then d.txnIdle else d

/-- The slot that is Pending with a Pool tag, and its tag (`POOL_PEND`). -/
def Dev.pendingSlot (d : Dev) : Option (Nat × (BitVec 32 × BitVec 64)) :=
  ([0, 1] : List Nat).findSome? fun n =>
    if d.slotState n = 2 then
      match d.headerAt (slotBase n) with
      | none => none
      | some h =>
        (match d.checkRecords (d.nvmBytes (slotBase n) h.length) h with
         | .ok w => w.img.poolTag.map fun t => (n, t)
         | .error _ => none)
    else none

/-- Give up what is Pending under a tag: the slot is Discarded, with the transaction and the entry that would activate it. -/
def Dev.dropPending (d : Dev) (tag : BitVec 32 × BitVec 64) : Dev :=
  match d.pendingSlot with
  | some (n, t) =>
    if t = tag then
      let d := if d.cfg.txn.target = some n then
          ({ d with acts := d.acts.filter fun (a : ActEntry) => a.kind != ActKind.config }).txnIdle else d
      d.setSlotState n 3
    else d
  | none => d

/-- POOL_REVERT (R313). -/
def Dev.poolRevert (d : Dev) (p : Nat) (b : Bcast) : Dev :=
  d.hearPool p 6 b fun d =>
    if d.poolNow = (b.ver, b.digest) then
      let (d, f) := d.findPrev true
      match f with
      | none => (d.raise 46).ack 6 b 2 0 d.poolNow.1
      | some (n, i) =>
        let late := decide (b.act.toNat < d.earliest)
        (match d.queueAct (if late then d.earliest else b.act.toNat) 1 .toSlot with
         | .error _ => (d.raise 51).ack 6 b 2 0 d.poolNow.1
         | .ok d =>
           let d := { d with cfg := { d.cfg with toSlot := some (n, i, true) } }
           (if late then d.raise 47 else d).ack 6 b (b2n late) 0 d.poolNow.1)
    else if d.poolNow = (b.targetVer, b.targetDigest) then (d.dropPending (b.ver, b.digest)).ack 6 b 0 0 d.poolNow.1
    else (d.raise 46).ack 6 b 2 0 d.poolNow.1

/-! ### Reconciliation (R314, R315) -/

/-- The root's device ID, as far as the member knows it: the source of the last pool broadcast, a neighbour that says it is the
root, else a free value (log entry 43). -/
def Dev.rootDest (d : Dev) : Nat :=
  match d.cfg.member.rootId with
  | some r => r
  | none => ((d.ports.findSome? fun p => (d.port p).hello.bind fun h => if h.root then some h.dev else none)).getD
      (Config.freeNat d.free % 4096)

/-- A Configuration Pull to a device (R314). -/
def Dev.pullMsgTo (d : Dev) (dest : Nat) (q : PullMsg) : Dev := (d.emit (.pull dest q)).send 0x47 (d.maint dest (pullSlots q))

/-- Send Configuration Pull of kind 1 or 3 to the root. -/
def Dev.sendPull (d : Dev) (kind : Nat) : Dev :=
  let tag := (d.pendingSlot.map Prod.snd).getD (0#32, 0#64)
  (d.pullMsgTo d.rootDest { src := d.devId, kind := kind, outcome := 0, ver := d.poolNow.1, digest := d.poolNow.2,
                            pendVer := tag.1, pendDigest := tag.2, act := 0#64, rootVer := 0#32, rootDigest := 0#64 }).bumpFree

/-- Begin to pull (R314). -/
def Dev.startPull (d : Dev) : Dev :=
  if d.isRoot || d.cfg.member.pulling || d.coresGone then d
  else (d.setMember fun m => { m with pulling := true, pullStart := d.time.loc, pullLast := d.time.loc }).sendPull 1

/-- VOTED_TIMEOUT (R314). -/
def Dev.votedTimeout (d : Dev) : Dev :=
  if d.cfg.txn.st = .voted ∧ !d.isRoot ∧ d.time.loc ≥ d.cfg.member.votedAt + d.voteWin + d.commitWait then d.startPull else d

/-- PULL_RETRY (R314). -/
def Dev.pullRetry (d : Dev) : Dev :=
  let m := d.cfg.member
  if m.pulling ∧ !d.coresGone ∧ d.time.loc ≥ m.pullLast + d.pullTo ∧ d.time.loc < m.pullStart + d.commitWait then
    (d.setMember fun m => { m with pullLast := d.time.loc }).sendPull 1
  else d

/-- PULL_GIVE_UP (R314). -/
def Dev.pullGiveUp (d : Dev) : Dev :=
  let m := d.cfg.member
  if m.pulling ∧ d.time.loc ≥ m.pullStart + d.commitWait then
    (d.setMember fun m => { m with pulling := false }).raise 46
  else d

/-- CONFIGURATION_PULL (R314): the root replies with kind 2, and reverts on kind 3 while its decision is within COMMIT_WAIT. -/
def Dev.configurationPull (d : Dev) (p : Nat) (q : PullMsg) : Dev :=
  if !d.portUp p || !d.isRoot || d.prim != .primed || d.coresGone then d
  else
    let d := d.pullMsgTo q.src { src := d.devId, kind := 2, outcome := d.led.decision, ver := d.led.decVer, digest := d.led.decDigest,
                                 pendVer := 0#32, pendDigest := 0#64, act := BitVec.ofNat 64 d.led.decStroke, rootVer := d.poolNow.1,
                                 rootDigest := d.poolNow.2 }
    let open_ := d.led.decision == 1 && decide (d.pool ≤ d.led.decStroke + d.commitWait) && decide (d.cfg.root.phase < 4)
    if q.kind = 3 ∧ open_ then d.setRoot fun r => { r with phase := 4, named := q.src, ver := d.led.decVer, digest := d.led.decDigest }
    else d

/-- The member cannot reconcile: it sends kind 3 and raises EV046. -/
def Dev.cannotApply (d : Dev) : Dev :=
  (((if d.cfg.txn.st = .voted then d.txnIdle else d).setMember fun m => { m with pulling := false, verify := none }).sendPull 3).raise 46

/-- CONFIGURATION_PULL_REPLY (R315). -/
def Dev.configurationPullReply (d : Dev) (p : Nat) (q : PullMsg) : Dev :=
  if !d.portUp p || !d.cfg.member.pulling || d.coresGone || q.kind != 2 then d
  else if d.poolNow = (q.rootVer, q.rootDigest) then
    let d := d.setMember fun m => { m with pulling := false }
    (match d.pendingSlot with
     | some (_, t) => d.dropPending t
     | none => d)
  else match d.pendingSlot with
    | some (_, t) =>
      if t = (q.rootVer, q.rootDigest) then
        d.setMember fun m => { m with pulling := false, verify := some (q.outcome == 3, q.rootVer, q.rootDigest) }
      else d.cannotApply
    | none => d.cannotApply

/-- SLOT_VERIFICATION_COMPLETE (R315): the Pending slot passes the checks of R296 and its activation is queued. -/
def Dev.slotVerificationComplete (d : Dev) : Dev :=
  if d.cfg.member.verify.isNone || d.cfg.toSlot.isSome then d
  else match d.pendingSlot with
    | none => d.cannotApply
    | some (n, _) =>
      let (d, c) := d.checkSlot n
      if c.fail.isSome then d.cannotApply
      else match d.queueAct d.earliest 1 .toSlot with
        | .error _ => (d.raise 51).cannotApply
        | .ok d =>
          let d := if d.cfg.txn.target = some n then (d.freeRuns d.cfg.txn.metaReserved).setTxn fun t => { num := t.num } else d
          { d with cfg := { d.cfg with toSlot := some (n, c.img, false) } }

/-! ### Commands -/

/-- POOL_COMMIT (R311). -/
def execPoolCommit (src : Src) (payload : List Byte) (s : State) : Host.Outcome State Fault Refusal :=
  s.mail src (.poolCommit src payload) (s.dev.poolCommit src payload)

/-- POOL_PREPARE (R311). -/
def execPoolPrepare (p : Nat) (b : Bcast) (s : State) : Host.Outcome State Fault Refusal := s.done (s.dev.poolPrepare p b)

/-- POOL_COMMIT_BROADCAST (R312). -/
def execPoolCommitBroadcast (p : Nat) (b : Bcast) (s : State) : Host.Outcome State Fault Refusal :=
  s.done (s.dev.poolCommitBroadcast p b)

/-- POOL_ABORT (R312). -/
def execPoolAbort (p : Nat) (b : Bcast) (s : State) : Host.Outcome State Fault Refusal := s.done (s.dev.poolAbort p b)

/-- POOL_REVERT (R313). -/
def execPoolRevert (p : Nat) (b : Bcast) (s : State) : Host.Outcome State Fault Refusal := s.done (s.dev.poolRevert p b)

/-- VOTE_WINDOW_EXPIRY (R311). -/
def execVoteWindowExpiry (s : State) : Host.Outcome State Fault Refusal := s.done s.dev.voteWindowExpiry

/-- COMMIT_WAIT_EXPIRY (R313). -/
def execCommitWaitExpiry (s : State) : Host.Outcome State Fault Refusal := s.done s.dev.commitWaitExpiry

/-- CONFIGURATION_PULL (R314). -/
def execConfigurationPull (p : Nat) (q : PullMsg) (s : State) : Host.Outcome State Fault Refusal :=
  s.done (s.dev.configurationPull p q)

/-- CONFIGURATION_PULL_REPLY (R315). -/
def execConfigurationPullReply (p : Nat) (q : PullMsg) (s : State) : Host.Outcome State Fault Refusal :=
  s.done (s.dev.configurationPullReply p q)

/-- VOTED_TIMEOUT (R314). -/
def execVotedTimeout (s : State) : Host.Outcome State Fault Refusal := s.done s.dev.votedTimeout

/-- PULL_RETRY (R314). -/
def execPullRetry (s : State) : Host.Outcome State Fault Refusal := s.done s.dev.pullRetry

/-- PULL_GIVE_UP (R314). -/
def execPullGiveUp (s : State) : Host.Outcome State Fault Refusal := s.done s.dev.pullGiveUp

/-- SLOT_VERIFICATION_COMPLETE (R315). -/
def execSlotVerificationComplete (s : State) : Host.Outcome State Fault Refusal := s.done s.dev.slotVerificationComplete

end Sys2Proof.Machine
end

