-- ==== Sys2Proof/Machine/Security.lean ====
section
/-! DEFINITION. SPDM, key messages, security messages, debug unlock and the management cores (R30 to R34, R149 to R156,
R316 to R333). -/

namespace Sys2Proof.Machine

open Sys2Proof

/-! ### SPDM (R322 to R327) -/

/-- The transport is there: a head whose link is up, the MCTP endpoint, or a cascade port that is keying or keyed. -/
def Dev.transportUp (d : Dev) : Transport → Bool
  | .doe h => decide (h < d.nHosts) && (d.head h).up
  | .mctp => true
  | .link p => d.ports.contains p && ((d.port p).st == .keying || (d.port p).st == .up)

/-- An SPDM request that reaches the responder (R318, R326). -/
def Dev.spdm (d : Dev) (s : Sess) (f : Dev → Dev) : Dev :=
  if !d.transportUp s.tr || d.coresGone then d
  else if d.lifecycle = 3 then d.emit (.spdm s 4 [])
  else f d

/-- A request that SPDM takes only after the algorithms are negotiated (log entry 50). -/
def Dev.negotiated (d : Dev) (s : Sess) (f : Dev → Dev) : Dev :=
  d.spdm s fun d => if d.sec.negotiated.contains s.tr then f d else d.emit (.spdm s 1 [])

def Dev.setSec (d : Dev) (f : SecSt → SecSt) : Dev := { d with sec := f d.sec }

def Dev.session (d : Dev) (s : Sess) : Option Session := d.sec.sessions.find? fun x => x.sess == s

def Dev.setSession (d : Dev) (s : Sess) (f : Session → Session) : Dev :=
  d.setSec fun c => { c with sessions := c.sessions.map fun x => if x.sess = s then f x else x }

def Dev.dropSession (d : Dev) (s : Sess) : Dev :=
  d.setSec fun c => { c with sessions := c.sessions.filter fun x => x.sess != s }

/-- Within a finished secured session (R326); over MCTP its message is a wake source (R342). -/
def Dev.secured (d : Dev) (s : Sess) (f : Dev → Dev) : Dev :=
  d.spdm s fun d =>
    let d := if s.tr = .mctp then d.wake 5 0 else d
    match d.session s with
    | some x => if x.finished then f d else d.emit (.spdm s 1 [])
    | none => d.emit (.spdm s 1 [])

/-- SPDM_GET_VERSION: 1.0, 1.1 and 1.2; negotiation starts again. -/
def Dev.spdmGetVersion (d : Dev) (s : Sess) : Dev :=
  d.spdm s fun d =>
    (d.setSec fun c => { c with negotiated := c.negotiated.filter (· != s.tr) }).emit (.spdm s 0 [0x10#8, 0x11#8, 0x12#8])

/-- GET_CAPABILITIES: CERT, CHAL, MEAS with signature, ENCRYPT, MAC, MUT_AUTH, KEY_EX, ENCAP, HBEAT, KEY_UPD, SET_CERT. -/
def Dev.getCapabilities (d : Dev) (s : Sess) : Dev := d.spdm s fun d => d.emit (.spdm s 0 (leBytes 4 0x000873D6))

/-- NEGOTIATE_ALGORITHMS (R326). -/
def Dev.negotiateAlgorithms (d : Dev) (s : Sess) (ok : Bool) : Dev :=
  d.spdm s fun d =>
    if ok then
      (d.setSec fun c => { c with negotiated := if c.negotiated.contains s.tr then c.negotiated else s.tr :: c.negotiated }).emit (.spdm s 0 [])
    else d.emit (.spdm s 3 [])

/-- Alias certificate of this start (R323). -/
def Dev.aliasCert (d : Dev) : List Byte := Config.aliasCert d.otp.uds d.cfg.primed.fwHash d.cfg.primed.secVersion

/-- A certificate chain (R322, R317): slot 0 Harluod's, slot 1 the owner's with the Alias certificate, empty where none. -/
def Dev.certChain (d : Dev) (slot : Nat) : List Byte :=
  if slot = 0 then Config.vendorRoot ++ (if 14 ∈ d.otp.bad then [] else d.otp.certs) ++ d.aliasCert
  else if slot = 1 ∧ d.led.chain ≠ [] then d.led.chain ++ d.aliasCert
  else []

/-- A 256-bit digest as bytes. -/
def digestBytes (x : BitVec 256) : List Byte := (leBytes 32 x.toNat).reverse

/-- GET_DIGESTS (R322): the mask of slots with a chain, and their digests. -/
def Dev.getDigests (d : Dev) (s : Sess) : Dev :=
  d.negotiated s fun d =>
    let one (n : Nat) : List Byte := if d.certChain n = [] then [] else digestBytes (Config.sha256 (d.certChain n))
    d.emit (.spdm s 0 (leBytes 1 (if d.certChain 1 = [] then 1 else 3) ++ one 0 ++ one 1))

/-- GET_CERTIFICATE (R322): slot, portion and remainder lengths, and the portion. -/
def Dev.getCertificate (d : Dev) (s : Sess) (slot off len : Nat) : Dev :=
  d.negotiated s fun d =>
    let c := d.certChain slot
    if c.length ≤ off then d.emit (.spdm s 2 [])
    else
      let n := min len (c.length - off)
      d.emit (.spdm s 0 (leBytes 2 slot ++ leBytes 2 n ++ leBytes 2 (c.length - off - n) ++ sub c off n))

/-- A signature by the Alias key (R323). -/
def Dev.aliasSign (d : Dev) (data : List Byte) : List Byte := Config.aliasSign (Config.sha256 d.aliasCert) data

/-- CHALLENGE (R322): the chain's digest, a random nonce and the signature. -/
def Dev.challenge (d : Dev) (s : Sess) (slot : Nat) (nonce : List Byte) : Dev :=
  d.negotiated s fun d =>
    if d.certChain slot = [] then d.emit (.spdm s 2 [])
    else
      let (n, d) := d.fresh
      let body := leBytes 1 slot ++ digestBytes (Config.sha256 (d.certChain slot)) ++ digestBytes (Config.freeKey n)
      d.emit (.spdm s 0 (body ++ d.aliasSign (nonce ++ body)))

/-- The transport's session limit. -/
def sessionLimit : Transport → Nat
  | .doe _ => 2
  | .mctp => 4
  | .link _ => 1

/-- KEY_EXCHANGE (R326): opens the session that the request names. -/
def Dev.keyExchange (d : Dev) (s : Sess) : Dev :=
  d.negotiated s fun d =>
    if s.id = 0 ∨ (d.session s).isSome then d.emit (.spdm s 2 [])
    else if (d.sec.sessions.filter fun x => x.sess.tr == s.tr).length ≥ sessionLimit s.tr then d.emit (.spdm s 5 [])
    else
      let x : Session := { sess := s }
      let (n, d) := (d.setSec fun c => { c with sessions := c.sessions ++ [x] }).fresh
      let body := digestBytes (Config.freeKey n)
      d.emit (.spdm s 0 (body ++ d.aliasSign body))

/-- In a session whose handshake is not finished. -/
def Dev.handshake (d : Dev) (s : Sess) (f : Dev → Dev) : Dev :=
  d.spdm s fun d =>
    match d.session s with
    | some x => if x.finished then d.emit (.spdm s 1 []) else f d
    | none => d.emit (.spdm s 1 [])

/-- GET_ENCAPSULATED_REQUEST (R152): the device asks for the requester's certificate. -/
def Dev.getEncapsulatedRequest (d : Dev) (s : Sess) : Dev := d.handshake s fun d => d.emit (.spdm s 0 [])

/-- DELIVER_ENCAPSULATED_RESPONSE (R152, R325): the requester's chain. On a link both chains must end in the pool's owner root,
and a chain that is missing or does not ends the session with EV176. -/
def Dev.deliverEncapsulatedResponse (d : Dev) (s : Sess) (root : BitVec 256) (ok : Bool) : Dev :=
  d.handshake s fun d =>
    match s.tr with
    | .link p =>
      if ok && d.cfg.active.poolRoot == some root && !d.led.chain.isEmpty then
        (d.setSession s fun x => { x with bothAuth := true }).emit (.spdm s 0 [])
      else ((d.dropSession s).raise 176 (portSlice p)).emit (.spdm s 2 [])
    | _ =>
      if ok then
        (d.setSession s fun x => { x with bothAuth := true, kmRoot := d.cfg.primed.kmRoot == some root }).emit (.spdm s 0 [])
      else d.emit (.spdm s 2 [])

/-- FINISH (R326). -/
def Dev.finish (d : Dev) (s : Sess) (ok : Bool) : Dev :=
  d.handshake s fun d =>
    if ok then (d.setSession s fun x => { x with finished := true }).emit (.spdm s 0 [])
    else (d.dropSession s).emit (.spdm s 6 [])

/-- KEY_UPDATE, HEARTBEAT and END_SESSION (R326). -/
def Dev.keyUpdate (d : Dev) (s : Sess) : Dev := d.secured s fun d => d.emit (.spdm s 0 [])
def Dev.heartbeat (d : Dev) (s : Sess) : Dev := d.secured s fun d => d.emit (.spdm s 0 [])
def Dev.endSession (d : Dev) (s : Sess) : Dev := d.secured s fun d => (d.dropSession s).emit (.spdm s 0 [])

/-- The floor as it counts (R328, R329). -/
def Dev.floorNow (d : Dev) : Nat := if d.led.floorBad then 0xFFFFFFFF else d.led.floor

/-- SERIAL as the device reports it (R317). -/
def Dev.serial (d : Dev) : BitVec 64 := if 2 ∈ d.otp.bad then 0#64 else d.otp.serial

/-- A fused hash as it counts: one that cannot be corrected is absent (R317). -/
def Dev.vendorHash (d : Dev) (i : Nat) : BitVec 256 := if (4 + i) ∈ d.otp.bad then 0#256 else d.otp.vendorHash.getD i 0#256

/-- Bytes of the active overlay, which measurement 8 digests. -/
def overlayBytes (t : Tbl (BitVec 32 × BitVec 32)) : List Byte :=
  t.flatMap fun e => leBytes 4 e.1 ++ leBytes 4 e.2.1.toNat ++ leBytes 4 e.2.2.toNat

/-- The value of a measurement block (measurement blocks table): its DMTF value type and bytes. -/
def Dev.measurement (d : Dev) (i : Nat) : Nat × List Byte :=
  let a := d.cfg.active
  match i with
  | 1 => (0, digestBytes Config.romDigest)
  | 2 => (1, digestBytes d.cfg.primed.fwHash)
  | 3 => (0x86, leBytes 4 d.cfg.primed.fwVersion)
  | 4 => (0x87, leBytes 4 a.secVersion ++ leBytes 4 d.floorNow)
  | 5 => (3, leBytes 4 a.version ++ digestBytes a.cfgHash)
  | 6 => (2, leBytes 4 d.caps0.toNat ++ leBytes 4 d.caps1.toNat ++ leBytes 8 d.serial.toNat ++ leBytes 1 d.lifecycle ++
            leBytes 1 ((d.currentOwner.map Prod.fst).getD 0) ++ leBytes 1 d.revoked.toNat ++
            ((List.range 4).flatMap fun i => digestBytes (d.vendorHash i)) ++
            digestBytes (if 9 ∈ d.otp.bad then 0#256 else d.otp.factoryHash))
  | 7 => (5, leBytes 1 d.sec.scope.toNat ++ leBytes 1 (b2n d.sec.dbgEver))
  | _ => (4, leBytes 4 a.poolVer.toNat ++ leBytes 8 a.poolDig.toNat ++
            digestBytes (if d.cfg.overlay = [] then 0#256 else Config.sha256 (overlayBytes d.cfg.overlay)))

/-- One measurement block as it is sent: index, value type, length, value. -/
def Dev.measBlock (d : Dev) (i : Nat) : List Byte :=
  let m := d.measurement i
  leBytes 1 i ++ leBytes 1 m.1 ++ leBytes 2 m.2.length ++ m.2

/-- GET_MEASUREMENTS (R327): index 0 asks for the count and 255 for all blocks. -/
def Dev.getMeasurements (d : Dev) (s : Sess) (i : Nat) : Dev :=
  d.negotiated s fun d =>
    if i = 0 then d.emit (.spdm s 0 [8#8])
    else if !(decide (i ≤ 8) || i == 255) then d.emit (.spdm s 2 [])
    else
      let (n, d) := d.fresh
      let body := (if i = 255 then ((List.range 8).map (· + 1)).flatMap d.measBlock else d.measBlock i) ++ digestBytes (Config.freeKey n)
      d.emit (.spdm s 0 (body ++ d.aliasSign body))

/-- SET_CERTIFICATE (R324). -/
def Dev.setCertificate (d : Dev) (s : Sess) (slot : Nat) (chain : List Byte) : Dev :=
  d.spdm s fun d =>
    let inSession := (d.session s).any fun x => x.finished
    if s.tr == .mctp && inSession && slot == 1 && decide (chain.length ≤ 4096) && !chain.isEmpty && Config.chainVerify chain &&
        Config.chainLeafKey chain == Config.deviceKey d.otp.uds && d.cfg.active.poolRoot == some (Config.chainRootHash chain) then
      (d.writeLed fun l => { l with chain := chain }).emit (.spdm s 0 [])
    else d.emit (.spdm s 2 [])

/-! ### Key messages (R149 to R156) -/

/-- References of a domain: pages in T1, T2 or T3 whose entries name it (R149). -/
def Dev.kdomRefs (d : Dev) (n : Nat) : Nat := (d.wmap.filter fun x => x.2.local && x.2.kdom == n).length

def KdSt.num : KdSt → Nat
  | .empty => 0 | .live => 1 | .retiring => 2 | .erased => 3

/-- The response to a key message, while its session lasts. -/
def Dev.keyReply (d : Dev) (s : Sess) (op status dom : Nat) : Dev :=
  if (d.session s).isNone then d
  else
    d.emit (.spdm s 0 (leBytes 1 (op + 128) ++ leBytes 1 status ++ leBytes 2 dom ++ leBytes 1 (d.kdSt dom).num ++ leBytes 3 0 ++
      leBytes 8 (d.kdomRefs dom)))

/-- The format of a key message (key message request table). -/
def keyForm (op : Nat) (r : List Byte) : Bool :=
  let fl := fieldAt r 1 1
  let dom := fieldAt r 2 2
  (if op = 1 then decide (fl < 2) else fl == 0) && zeros (sub r 4 4) && decide (dom < 4096) && (op == 4 || decide (0 < dom)) &&
    (if op = 1 ∧ fl = 0 then r.length == 72 else r.length == 8)

/-- The status with which a key message is refused at once (R153, R162). -/
def Dev.keyRefused (d : Dev) (op : Nat) (r : List Byte) : Option Nat :=
  let dom := fieldAt r 2 2
  let st := d.kdSt dom
  let named := d.cfg.active.regions.any fun g => g.kdom == dom
  if !d.hasEnc then some 4
  else if !keyForm op r then some 3
  else if op = 1 then
    if st != .empty then some 2 else if fieldAt r 1 1 = 0 ∧ sub r 8 32 = sub r 40 32 then some 3 else none
  else if op = 2 then if st != .live then some 2 else if named then some 1 else none
  else if op = 3 then if st != .live && st != .retiring then some 2 else if named then some 1 else none
  else none

/-- Drop the cistern granules of the pages that name a domain, dirty ones without writing them back (R156 step 1). -/
def Dev.dropDomain (d : Dev) (n : Nat) : Dev :=
  forAll d ((d.wmap.filter fun x => x.2.local && x.2.kdom == n).map Prod.fst) fun d g => d.dropPage g

/-- Handle one key message. Set Key and Retire Domain take effect at the next boundary, and Erase Domain once every tile has
invalidated its granules. -/
def Dev.keyHandle (d : Dev) (q : KeyReq) : Dev :=
  let dom := fieldAt q.req 2 2
  match d.keyRefused q.op q.req with
  | some st => d.keyReply q.sess q.op st dom
  | none =>
    if q.op = 1 then
      if fieldAt q.req 1 1 = 1 then
        let (n, d) := d.fresh
        let (m, d) := d.fresh
        d.setKd dom fun k => { k with pend := 1, pk1 := Config.freeKey n, pk2 := Config.freeKey m, sess := some q.sess }
      else d.setKd dom fun k => { k with pend := 1, pk1 := BitVec.ofNat 256 (fieldAt q.req 8 32), pk2 := BitVec.ofNat 256 (fieldAt q.req 40 32), sess := some q.sess }
    else if q.op = 2 then d.setKd dom fun k => { k with pend := 2, sess := some q.sess }
    else if q.op = 3 then (d.setKd dom fun k => { k with erasing := true, sess := some q.sess }).dropDomain dom
    else d.keyReply q.sess 4 0 dom

/-- A key message is being handled. -/
def Dev.keyBusy (d : Dev) : Bool := d.kdoms.any fun k => k.2.pend != 0 || k.2.erasing

/-- Handle the key messages that wait, one at a time (R153). -/
def Dev.keyDrain (d : Dev) : Nat → Dev
  | 0 => d
  | n + 1 =>
    match d.sec.keyq with
    | [] => d
    | q :: rest => if d.keyBusy then d else Dev.keyDrain ((d.setSec fun c => { c with keyq := rest }).keyHandle q) n

def Dev.keyPump (d : Dev) : Dev := d.keyDrain (d.sec.keyq.length + 1)

/-- A key message arrives (R152). -/
def Dev.keyMessage (d : Dev) (s : Sess) (op : Nat) (req : List Byte) : Dev :=
  d.spdm s fun d =>
    let d := if s.tr = .mctp then d.wake 5 0 else d
    let ok := (d.session s).any fun x => x.finished && x.bothAuth && x.kmRoot
    match s.tr with
    | .link _ => d.emit (.spdm s 1 [])
    | _ =>
      if !ok then d.emit (.spdm s 1 [])
      else
        let q : KeyReq := { sess := s, op := op, req := req }
        (d.setSec fun c => { c with keyq := c.keyq ++ [q] }).keyPump

def Dev.setKey (d : Dev) (s : Sess) (req : List Byte) : Dev := d.keyMessage s 1 req
def Dev.retireDomain (d : Dev) (s : Sess) (req : List Byte) : Dev := d.keyMessage s 2 req
def Dev.eraseDomain (d : Dev) (s : Sess) (req : List Byte) : Dev := d.keyMessage s 3 req
def Dev.getDomainStatus (d : Dev) (s : Sess) (req : List Byte) : Dev := d.keyMessage s 4 req

/-- A Set Key or Retire Domain takes effect (R153). -/
def Dev.keyLive (d : Dev) (n : Nat) : Dev :=
  let k := d.kd n
  let d := d.setKd n fun k =>
    { k with st := (if k.pend = 1 then .live else .retiring), k1 := (if k.pend = 1 then k.pk1 else k.k1),
             k2 := (if k.pend = 1 then k.pk2 else k.k2), pend := 0, pk1 := 0#256, pk2 := 0#256, sess := none }
  let d := d.raiseI (if k.pend = 1 then 100 else 101) { slice := tileSlice 0, detail := [n] }
  match k.sess with
  | some s => d.keyReply s k.pend 0 n
  | none => d

/-- Key messages at a stroke boundary: those accepted before it take effect, while the cores run (R30, R153). -/
def Dev.keyBoundary (d s0 : Dev) : Dev :=
  if d.coresGone then d
  else (forAll d ((s0.kdoms.filter fun k => k.2.pend != 0).map Prod.fst) fun d n => d.keyLive n).keyPump

/-- ERASE_INVALIDATION_DONE (R156): the key is erased, the domain is Erased, and the job pages of the domain are rolled back. -/
def Dev.eraseInvalidationDone (d : Dev) (n : Nat) : Dev :=
  let k := d.kd n
  if !k.erasing then d
  else
    let d := d.dropDomain n
    let jobs := (List.range d.nPumps).filter fun p => (d.pump p).job.any fun j => j.pages.any fun x => x.2.local && x.2.kdom == n
    let d := forAll d jobs fun d p => d.rollBack p 3
    let d := d.setKd n fun k => { k with st := .erased, k1 := 0#256, k2 := 0#256, erasing := false, sess := none }
    let d := match k.sess with | some s => d.keyReply s 3 0 n | none => d
    d.keyPump

/-- DOMAIN_KEY_EMPTY (R154, R156): no page names the domain any more. -/
def Dev.domainKeyEmpty (d : Dev) (n : Nat) : Dev :=
  let k := d.kd n
  if n ≠ 0 ∧ (k.st = .retiring ∨ k.st = .erased) ∧ !k.erasing ∧ d.kdomRefs n = 0 then
    (d.setKd n fun k => { k with st := .empty, k1 := 0#256, k2 := 0#256 }).raiseI 102 { slice := tileSlice 0, detail := [n] }
  else d

/-! ### Security messages (R318 to R321) -/

/-- A security message in a secured session: `f` answers the STATUS and the device after it. -/
def Dev.secMessage (d : Dev) (s : Sess) (op : Nat) (overDoe : Bool) (len : Nat) (req : List Byte) (f : Dev → Nat × Dev) : Dev :=
  d.secured s fun d =>
    let trOk := match s.tr with | .mctp => true | .doe _ => overDoe | .link _ => false
    let (st, d) := if !trOk then (4, d) else if req.length ≠ len then (2, d) else f d
    d.emit (.spdm s 0 (leBytes 1 (op + 128) ++ leBytes 1 st))

/-- A signature by the key with a fused hash (R318, R319, R330). -/
def hashVerify (h : BitVec 256) (sig : List Byte) (digest : BitVec 256) : Bool :=
  Config.sha256 (Config.keyFor h) == h && Config.ecdsaVerify (Config.keyFor h) sig digest

/-- The OWNER_HASH entry that the next burn takes; 4 where none is left (R317, R319). -/
def Dev.nextOwner (d : Dev) : Nat :=
  ((List.range 4).find? fun i => decide (d.otp.owners.length ≤ i) && !d.otp.bad.contains (10 + i)).getD 4

/-- Burn an OWNER_HASH entry. -/
def Dev.burnOwner (d : Dev) (i : Nat) (h : BitVec 256) : Dev :=
  let pad := List.replicate (i - d.otp.owners.length) (false, 0#256)
  { d with otp := { d.otp with owners := d.otp.owners ++ pad ++ [(true, h)] } }.raise 170 (tileSlice 0)

/-- CLAIM_OWNERSHIP (R319). -/
def Dev.claimOwnership (d : Dev) (s : Sess) (req : List Byte) : Dev :=
  d.secMessage s 0x20 false 136 req fun d =>
    let key := sub req 8 64
    if d.lifecycle ≠ 1 ∨ !(d.prim != .primed || d.cfg.slot == 2) then (1, d)
    else if d.nextOwner ≠ 0 then (3, d)
    else if !Config.ecdsaVerify key (sub req 72 64) (Config.sha256 (leBytes 8 d.serial.toNat ++ key)) then (2, d)
    else if !d.nvmWritable then (5, d)
    else (0, d.burnOwner 0 (Config.sha256 key))

/-- TRANSFER_OWNERSHIP (R319). -/
def Dev.transferOwnership (d : Dev) (s : Sess) (req : List Byte) : Dev :=
  d.secMessage s 0x21 false 200 req fun d =>
    let key := sub req 8 64
    match d.lifecycle, d.currentOwner with
    | 2, some (i, h) =>
      let dig := Config.sha256 (leBytes 8 d.serial.toNat ++ key ++ leBytes 1 i)
      if d.nextOwner = 4 then (3, d)
      else if !(Config.ecdsaVerify key (sub req 72 64) dig && hashVerify h (sub req 136 64) dig) then (2, d)
      else if !d.nvmWritable then (5, d)
      else (0, d.burnOwner d.nextOwner (Config.sha256 key))
    | _, _ => (1, d)

/-- REVOKE_VENDOR_KEY (R321). -/
def Dev.revokeVendorKey (d : Dev) (s : Sess) (req : List Byte) : Dev :=
  d.secMessage s 0x22 true 136 req fun d =>
    let k := fieldAt req 1 1
    let j := fieldAt req 2 1
    let key := sub req 8 64
    if !(decide (k < j) && decide (j < 4)) then (3, d)
    else if !(d.vendorKeyOk j key && Config.ecdsaVerify key (sub req 72 64) (Config.sha256 (leBytes 1 0x22 ++ leBytes 1 k))) then (2, d)
    else if !d.nvmWritable then (5, d)
    else (0, { d with otp := { d.otp with revoke := d.otp.revoke ||| (1#4 <<< k) } }.raise 171 (tileSlice 0))

/-- DECOMMISSION (R318). -/
def Dev.decommission (d : Dev) (s : Sess) (req : List Byte) : Dev :=
  d.secMessage s 0x23 false 136 req fun d =>
    match d.lifecycle, d.currentOwner with
    | 2, some (_, h) =>
      if !hashVerify h (sub req 72 64) (Config.sha256 (leBytes 8 d.serial.toNat ++ leBytes 1 0x23)) then (2, d)
      else if !d.nvmWritable then (5, d)
      else (0, { d with otp := { d.otp with lifecycle := 3, uds := BitVec.allOnes 256 } })
    | _, _ => (1, d)

/-! ### Anti-rollback (R328) -/

/-- FLOOR_RISE (R328). -/
def Dev.floorRise (d : Dev) : Dev :=
  let v := d.cfg.active.secVersion
  if d.prim == .primed && decide (d.floorNow < v) && decide (d.sec.activeAt + d.fld 0x448 15 0 * 2 ^ 20 ≤ d.time.loc) then
    (d.writeLed fun l => { l with floor := v }).raiseI 172 { slice := tileSlice 0, detail := [v] }
  else d

/-! ### Debug unlock (R330 to R332) -/

/-- GET_CHALLENGE (R330). -/
def Dev.getChallenge (d : Dev) (src : Src) (p : List Byte) : Dev :=
  d.gated src { mctp := true } fun d =>
  d.vend src p (p.length == 1) true fun d =>
    let (n, d) := d.fresh
    (d.setSec fun c => { c with nonce := some (Config.freeKey n) }).reply src .success 0
      (digestBytes (Config.freeKey n) ++ leBytes 8 d.serial.toNat ++ leBytes 1 d.sec.scope.toNat)

/-- Both signatures of an Unlock verify (R330). -/
def Dev.unlockOk (d : Dev) (p : List Byte) : Bool :=
  match d.sec.nonce, d.ownerHash with
  | some n, some h =>
    let dig := Config.sha256 (digestBytes n ++ leBytes 8 d.serial.toNat ++ sub p 1 7)
    let i := fieldAt p 136 1
    let vendor := Config.keyFor (d.otp.vendorHash.getD i 0#256)
    hashVerify h (sub p 8 64) dig &&
      (!bit (fieldAt p 1 1) 3 || (d.vendorKeyOk i vendor && Config.ecdsaVerify vendor (sub p 72 64) dig))
  | _, _ => false

/-- UNLOCK (R330, R331). -/
def Dev.unlock (d : Dev) (src : Src) (p : List Byte) : Dev :=
  d.gated src { mctp := true } fun d =>
  d.vend src p (p.length == 137) (zeros (sub p 2 2)) fun d =>
  if d.sec.lockUntil.any fun u => decide (d.time.loc < u) then d.reply src .busy
  else
    let d := if d.sec.lockUntil.isSome then d.setSec fun c => { c with lockUntil := none, fails := 0 } else d
    let scope := fieldAt p 1 1
    let dur := fieldAt p 4 4
    if decide (16 ≤ scope) || !d.unlockOk p then
      let n := d.sec.fails + 1
      let d := d.setSec fun c => { c with nonce := none, fails := n, lockUntil := if n = 8 then some (d.time.loc + 2 ^ 20) else none }
      (d.raise 174 (tileSlice 0)).reply src .invalidInput
    else if dur = 0 ∨ dur > 4096 then (d.setSec fun c => { c with nonce := none }).reply src .invalidInput
    else
      (d.setSec fun c => { c with nonce := none, fails := 0, scopePend := some (BitVec.ofNat 4 scope, dur * 2 ^ 20), dbgEver := true }).reply
        src .success 0 (leBytes 1 d.sec.scope.toNat)

/-- UNLOCK_LOCKOUT_EXPIRY (R330). -/
def Dev.unlockLockoutExpiry (d : Dev) : Dev :=
  if d.sec.lockUntil.any fun u => decide (u ≤ d.time.loc) then d.setSec fun c => { c with lockUntil := none, fails := 0 } else d

/-- Scopes 0 to 2 close (R331); EV175 where one was open. -/
def Dev.closeScopes (d : Dev) : Dev :=
  if d.sec.scope &&& 7#4 = 0#4 then d
  else (d.setSec fun c => { c with scope := c.scope &&& 8#4, expiry := 0 }).raise 175 (tileSlice 0)

/-- RELOCK (R331): an Unlock that has not yet opened its scopes 0 to 2 loses them too. -/
def Dev.relock (d : Dev) (src : Src) (p : List Byte) : Dev :=
  d.gated src { mctp := true } fun d =>
  d.vend src p (p.length == 1) true fun d =>
    ((d.setSec fun c => { c with scopePend := c.scopePend.map fun x => (x.1 &&& 8#4, x.2) }).closeScopes).reply src .success

/-- DEBUG_SCOPE_EXPIRY (R331). -/
def Dev.debugScopeExpiry (d : Dev) : Dev :=
  if d.sec.scope &&& 7#4 ≠ 0#4 ∧ d.sec.expiry ≤ d.pool then d.closeScopes else d

/-- The scopes of a successful Unlock open at a stroke boundary (R331). Bit 3 orders the reset of R72. -/
def Dev.scopeBoundary (d s0 : Dev) : Dev :=
  match s0.sec.scopePend with
  | none => d
  | some (sc, dur) =>
    if sc = 0#4 then d.setSec fun c => { c with scopePend := none }
    else
      let low := sc &&& 7#4
      let d := d.setSec fun c =>
        { c with scopePend := none, scope := c.scope ||| sc, scan := c.scan || sc.getLsbD 3,
                 expiry := if low = 0#4 then c.expiry else d.pool + dur }
      let d := if sc.getLsbD 3 then { d with resetDue := some (d.time.loc + 2) } else d
      d.raiseI 173 { slice := tileSlice 0, detail := [sc.toNat], must := true }

/-! ### The management cores (R30 to R34, R333) -/

/-- Background commands at a control-complex reset: all but those with an activation entry queued are abandoned (R31). -/
def Dev.abandonBg (d : Dev) : Dev := d.mapBg fun b => if b.queued || b.result.isSome then b else { b with abandoned := true }

/-- A Request Rest that is abandoned leaves no rest request (R31). -/
def Dev.abandonRest (d : Dev) : Dev :=
  forAll d (d.cfg.bg.filter fun b => b.kind == .rest && b.result.isNone) fun d b =>
    match b.src with
    | .head h => (d.setHead h fun x => { x with restReq := false, restTol := 0 }).wake 8 h
    | .mctp => d

/-- A Retire Rank or Rejoin Domain that is abandoned leaves no partial effect (R31): as an abort that wins would. -/
def Dev.abandonParts (d : Dev) : Dev :=
  forAll d (d.cfg.bg.filter fun b => b.result.isNone) fun d b =>
    match b.kind with
    | .retire c r => (d.retireBack c r).abortEvacs c r
    | .rejoin g => if (d.dom g).st = .rejoining then d.rejoinBack g else d.setDom g fun x => { x with want := none }
    | _ => d

/-- The control complex resets: sessions end, transactions in Open, Ready and Writing return to Idle, scopes close. A third
reset within 10 s leaves the cores halted (R33). -/
def Dev.coresReset (d : Dev) : Dev :=
  let recent := d.time.loc :: d.cores.resets.filter fun t => decide (d.time.loc < t + 10000000)
  let d := (d.abandonRest.abandonParts.abandonBg).closeScopes
  let d := d.setSec fun c => { c with sessions := [], negotiated := [], nonce := none, keyq := [], scopePend := none }
  let unqueued := d.cfg.bg.any fun b => !b.queued && b.result.isNone && (match b.kind with | .revert _ _ => true | _ => false)
  let d := if d.cfg.root.phase = 4 && unqueued then { d with cfg := { d.cfg with root := {} } } else d
  let d := if d.cfg.root.phase = 1 ∨ d.cfg.root.phase = 2 then { d with cfg := { d.cfg with root := {} } }.txnIdle else d
  let d := match d.cfg.txn.st with
    | .opened | .ready => d.txnIdle
    | .writing => { d.freeRuns d.cfg.txn.metaReserved with cfg := { d.cfg with txn := { num := d.cfg.txn.num } } }
    | _ => d
  let d := { d with cores := { d.cores with away := true, resets := recent },
                    gst := { d.gst with access := d.gst.access.map fun a => { a with abandoned := true } } }
  if recent.length ≥ 3 then { d with cores := { d.cores with halted := true } }.raise 11 (tileSlice 0) else d

/-- CONTROL_COMPLEX_RESET (R30). Only `RESET_N` or cold reset releases halted cores. -/
def Dev.controlComplexReset (d : Dev) (security : Bool) : Dev :=
  if d.cores.halted then d else (d.journalNote (b2n security) (tileSlice 0) []).coresReset

/-- LOCKSTEP_MISMATCH, CORE_WATCHDOG_EXPIRY and UNCORRECTABLE_INSTRUCTION_FETCH (R333). -/
def Dev.lockstepMismatch (d : Dev) : Dev :=
  if d.cores.halted then d
  else ({ d with cores := { d.cores with mismatch := satInc 255 d.cores.mismatch } }.raise 8 (tileSlice 0)).coresReset

def Dev.coreWatchdogExpiry (d : Dev) : Dev :=
  if d.cores.halted ∨ d.sec.scope.getLsbD 2 then d
  else ({ d with cores := { d.cores with wdog := satInc 255 d.cores.wdog } }.raise 9 (tileSlice 0)).coresReset

def Dev.uncorrectableFetch (d : Dev) : Dev :=
  if d.cores.halted then d
  else ({ d with cores := { d.cores with fetchUe := satInc 255 d.cores.fetchUe } }.raise 10 (tileSlice 0)).coresReset

/-- The firmware part in a slot verifies under R291 and R296 (R32). -/
def Dev.firmwareOk (d : Dev) (n : Nat) : Bool :=
  let bs := d.nvmBytes (slotBase n) ((d.headerAt (slotBase n)).elim 512 fun h => 512 + h.fwLen)
  match parseHeader (sub bs 0 512) areaSize with
  | none => false
  | some h =>
    d.vendorKeyOk h.keyIdx (sub bs 264 64) && Config.ecdsaVerify (sub bs 264 64) (sub bs 64 64) (Config.sha256 (sub bs 512 h.fwLen)) &&
      decide (d.floorNow ≤ h.security)

/-- Post the queued records of R34. -/
def Dev.postQueue (d : Dev) : List (Nat × LogId × EvRec) → Dev
  | [] => d
  | (k, l, r) :: rest =>
    let (d, x) := d.post k l r
    Dev.postQueue (x.foldl (fun d m => (d.raise1 m {}).1) d) rest

/-- The event queue is delivered when the cores return (R34, R400). -/
def Dev.deliverQueue (d : Dev) : Dev :=
  let q := d.cores.queue
  let lost := d.cores.lostRecs
  let d := { d with cores := { d.cores with queue := [] } }.postQueue q
  if lost = 0 then d else d.raise 250 (tileSlice 0)

/-- Complete what waited for the cores: abandoned commands are Aborted, finished ones complete (R31). -/
def Dev.completeBg (d : Dev) : Dev :=
  forAll { d with cfg := { d.cfg with bg := d.cfg.bg.filter fun b => b.result.isNone && !b.abandoned } } (d.cfg.bg.filter fun b => !b.mute) fun d b =>
    match b.result with
    | some (r, e, o) => forAll (d.reply b.src r e o) b.aborts fun d a => d.reply a .success 0x0106
    | none => if b.abandoned then forAll (d.reply b.src .aborted) b.aborts fun d a => d.reply a .aborted else d

/-- CORES_RESUME (R31, R32, R34, R307, R314). -/
def Dev.coresResume (d : Dev) : Dev :=
  if !d.cores.away || d.cores.halted then d
  else if d.prim = .primed ∧ !d.firmwareOk d.cfg.primedSlot then
    { d with cores := { d.cores with halted := true } }.raise 11 (tileSlice 0)
  else
    let d := { d with cores := { d.cores with away := false } }
    let d := forAll d [0, 1] fun d n =>
      if d.slotState n = 2 ∧ d.cfg.txn.target ≠ some n ∧ !d.pendingSlot.any (fun x => x.1 == n) then d.setSlotState n 3 else d
    let d := (d.deliverQueue.completeBg).rootAgain
    let gone := d.gst.access.filter fun a => a.abandoned
    let d := forAll { d with gst := { d.gst with access := d.gst.access.filter fun a => !a.abandoned } } gone fun d a =>
      d.reply a.src .aborted
    if d.prim = .primed ∧ d.pendingSlot.isSome then d.startPull else d

/-! ### Commands -/

/-- CONTROL_COMPLEX_RESET (R30). -/
def execControlComplexReset (security : Bool) (s : State) : Host.Outcome State Fault Refusal :=
  s.done (s.dev.controlComplexReset security)

/-- CORES_RESUME (R32). -/
def execCoresResume (s : State) : Host.Outcome State Fault Refusal := s.done s.dev.coresResume

/-- LOCKSTEP_MISMATCH (R333). -/
def execLockstepMismatch (s : State) : Host.Outcome State Fault Refusal := s.done s.dev.lockstepMismatch

/-- CORE_WATCHDOG_EXPIRY (R333). -/
def execCoreWatchdogExpiry (s : State) : Host.Outcome State Fault Refusal := s.done s.dev.coreWatchdogExpiry

/-- UNCORRECTABLE_INSTRUCTION_FETCH (R333). -/
def execUncorrectableFetch (s : State) : Host.Outcome State Fault Refusal := s.done s.dev.uncorrectableFetch

/-- GET_CHALLENGE (R330). -/
def execGetChallenge (input : CciInput) (s : State) : Host.Outcome State Fault Refusal :=
  s.mail input.src (.getChallenge input) (s.dev.getChallenge input.src input.payload)

/-- UNLOCK (R330). -/
def execUnlock (src : Src) (payload : List Byte) (s : State) : Host.Outcome State Fault Refusal :=
  s.mail src (.unlock src payload) (s.dev.unlock src payload)

/-- RELOCK (R331). -/
def execRelock (input : CciInput) (s : State) : Host.Outcome State Fault Refusal :=
  s.mail input.src (.relock input) (s.dev.relock input.src input.payload)

/-- UNLOCK_LOCKOUT_EXPIRY (R330). -/
def execUnlockLockoutExpiry (s : State) : Host.Outcome State Fault Refusal := s.done s.dev.unlockLockoutExpiry

/-- SET_KEY (R153). -/
def execSetKey (sess : Sess) (req : List Byte) (s : State) : Host.Outcome State Fault Refusal := s.spdmMail (.setKey sess req) (s.dev.setKey sess req)

/-- RETIRE_DOMAIN (R153). -/
def execRetireDomain (sess : Sess) (req : List Byte) (s : State) : Host.Outcome State Fault Refusal :=
  s.spdmMail (.retireDomain sess req) (s.dev.retireDomain sess req)

/-- ERASE_DOMAIN (R156). -/
def execEraseDomain (sess : Sess) (req : List Byte) (s : State) : Host.Outcome State Fault Refusal :=
  s.spdmMail (.eraseDomain sess req) (s.dev.eraseDomain sess req)

/-- ERASE_INVALIDATION_DONE (R156). -/
def execEraseInvalidationDone (dom : Nat) (s : State) : Host.Outcome State Fault Refusal :=
  s.done (s.dev.eraseInvalidationDone dom)

/-- GET_DOMAIN_STATUS (R153). -/
def execGetDomainStatus (sess : Sess) (req : List Byte) (s : State) : Host.Outcome State Fault Refusal :=
  s.spdmMail (.getDomainStatus sess req) (s.dev.getDomainStatus sess req)

/-- DOMAIN_KEY_EMPTY (R154). -/
def execDomainKeyEmpty (dom : Nat) (s : State) : Host.Outcome State Fault Refusal := s.done (s.dev.domainKeyEmpty dom)

/-- CLAIM_OWNERSHIP (R319). -/
def execClaimOwnership (sess : Sess) (req : List Byte) (s : State) : Host.Outcome State Fault Refusal :=
  s.spdmMail (.claimOwnership sess req) (s.dev.claimOwnership sess req)

/-- TRANSFER_OWNERSHIP (R319). -/
def execTransferOwnership (sess : Sess) (req : List Byte) (s : State) : Host.Outcome State Fault Refusal :=
  s.spdmMail (.transferOwnership sess req) (s.dev.transferOwnership sess req)

/-- REVOKE_VENDOR_KEY (R321). -/
def execRevokeVendorKey (sess : Sess) (req : List Byte) (s : State) : Host.Outcome State Fault Refusal :=
  s.spdmMail (.revokeVendorKey sess req) (s.dev.revokeVendorKey sess req)

/-- DECOMMISSION (R318). -/
def execDecommission (sess : Sess) (req : List Byte) (s : State) : Host.Outcome State Fault Refusal :=
  s.spdmMail (.decommission sess req) (s.dev.decommission sess req)

/-- SET_CERTIFICATE (R324). -/
def execSetCertificate (sess : Sess) (slot : Nat) (chain : List Byte) (s : State) : Host.Outcome State Fault Refusal :=
  s.spdmMail (.setCertificate sess slot chain) (s.dev.setCertificate sess slot chain)

/-- GET_CERTIFICATE (R322). -/
def execGetCertificate (sess : Sess) (slot : Nat) (offset : Nat) (length : Nat) (s : State) : Host.Outcome State Fault Refusal :=
  s.spdmMail (.getCertificate sess slot offset length) (s.dev.getCertificate sess slot offset length)

/-- CHALLENGE (R322). -/
def execChallenge (sess : Sess) (slot : Nat) (nonce : List Byte) (s : State) : Host.Outcome State Fault Refusal :=
  s.spdmMail (.challenge sess slot nonce) (s.dev.challenge sess slot nonce)

/-- NEGOTIATE_ALGORITHMS (R326). -/
def execNegotiateAlgorithms (sess : Sess) (supported : Bool) (s : State) : Host.Outcome State Fault Refusal :=
  s.spdmMail (.negotiateAlgorithms sess supported) (s.dev.negotiateAlgorithms sess supported)

/-- KEY_EXCHANGE (R326). -/
def execKeyExchange (sess : Sess) (s : State) : Host.Outcome State Fault Refusal := s.spdmMail (.keyExchange sess) (s.dev.keyExchange sess)

/-- KEY_UPDATE (R326). -/
def execKeyUpdate (sess : Sess) (s : State) : Host.Outcome State Fault Refusal := s.spdmMail (.keyUpdate sess) (s.dev.keyUpdate sess)

/-- HEARTBEAT (R326). -/
def execHeartbeat (sess : Sess) (s : State) : Host.Outcome State Fault Refusal := s.spdmMail (.heartbeat sess) (s.dev.heartbeat sess)

/-- END_SESSION (R326). -/
def execEndSession (sess : Sess) (s : State) : Host.Outcome State Fault Refusal := s.spdmMail (.endSession sess) (s.dev.endSession sess)

/-- GET_MEASUREMENTS (R327). -/
def execGetMeasurements (sess : Sess) (index : Nat) (s : State) : Host.Outcome State Fault Refusal :=
  s.spdmMail (.getMeasurements sess index) (s.dev.getMeasurements sess index)

/-- FLOOR_RISE (R328). -/
def execFloorRise (s : State) : Host.Outcome State Fault Refusal := s.done s.dev.floorRise

/-- DEBUG_SCOPE_EXPIRY (R331). -/
def execDebugScopeExpiry (s : State) : Host.Outcome State Fault Refusal := s.done s.dev.debugScopeExpiry

/-- SPDM_GET_VERSION (R326). -/
def execSpdmGetVersion (sess : Sess) (s : State) : Host.Outcome State Fault Refusal := s.spdmMail (.spdmGetVersion sess) (s.dev.spdmGetVersion sess)

/-- GET_CAPABILITIES (R326). -/
def execGetCapabilities (sess : Sess) (s : State) : Host.Outcome State Fault Refusal := s.spdmMail (.getCapabilities sess) (s.dev.getCapabilities sess)

/-- GET_DIGESTS (R322). -/
def execGetDigests (sess : Sess) (s : State) : Host.Outcome State Fault Refusal := s.spdmMail (.getDigests sess) (s.dev.getDigests sess)

/-- FINISH (R326). -/
def execFinish (sess : Sess) (verifies : Bool) (s : State) : Host.Outcome State Fault Refusal :=
  s.spdmMail (.finish sess verifies) (s.dev.finish sess verifies)

/-- GET_ENCAPSULATED_REQUEST (R152). -/
def execGetEncapsulatedRequest (sess : Sess) (s : State) : Host.Outcome State Fault Refusal :=
  s.spdmMail (.getEncapsulatedRequest sess) (s.dev.getEncapsulatedRequest sess)

/-- DELIVER_ENCAPSULATED_RESPONSE (R152). -/
def execDeliverEncapsulatedResponse (sess : Sess) (rootHash : BitVec 256) (verifies : Bool) (s : State) :
    Host.Outcome State Fault Refusal :=
  s.spdmMail (.deliverEncapsulatedResponse sess rootHash verifies) (s.dev.deliverEncapsulatedResponse sess rootHash verifies)

end Sys2Proof.Machine
end

