-- ==== Sys2Proof/Machine/Power.lean ====
section
/-! DEFINITION. Power states, rest and wake (R81, R82, R334 to R348, R441). -/

namespace Sys2Proof.Machine

open Sys2Proof

/-! ### Choosing a state (R336, R337) -/

/-- A head's tolerance in ns (R81). -/
def Head.tolerance (h : Head) : Nat := if !h.restReq then 0 else if h.ltrEn then min h.snoopNs h.noSnoopNs else h.restTol

/-- Every attached head rests, and there is one. -/
def Dev.allResting (d : Dev) : Bool := !d.attachedHeads.isEmpty && d.attachedHeads.all fun h => (d.head h).restReq

/-- The smallest tolerance among the attached heads. -/
def Dev.minTol (d : Dev) : Nat :=
  (d.attachedHeads.map fun h => (d.head h).tolerance).foldl (fun acc t => match acc with | none => some t | some a => some (min a t)) none
    |>.getD 0

/-- Effective exit time of a state in µs. -/
def PwrSt.exit (p : PwrSt) : Nat → Nat
  | 0 => 0 | 1 => p.exit1 | 2 => p.exit2 | 3 => p.exit3 | _ => p.exit4

/-- The state that the device chooses (R336). -/
def Dev.choose (d : Dev) : Nat :=
  if d.prim = .primed ∧ d.allResting then
    (([4, 3, 2, 1] : List Nat).find? fun n => d.fld 0x504 (n - 1) (n - 1) == 1 && decide (d.pwr.exit n * 1000 ≤ d.minTol)).getD 0
  else 0

/-- Exit times are computed again; a computed value above the nominal one raises EV184 (R337). -/
def Dev.exitTimes (d : Dev) : Dev :=
  let c := max 1 (d.fld 0x508 5 0)
  let g := d.fld 0x508 23 16
  let e2 := 4 + (d.nChans + c - 1) / c
  let e3 := 108 + (d.nTiles - 1) * g + e2
  let e4 := 2000 + (((([2, 3, 4, 5] : List Nat).filter d.tilePresent).length) + 1) * g + e3
  let d := d.setPwr fun p => { p with exit1 := 2, exit2 := max 20 e2, exit3 := max 200 e3, exit4 := max 5000 e4 }
  if e2 > 20 ∨ e3 > 200 ∨ e4 > 5000 then d.raise 184 (tileSlice 0) else d

/-! ### Entry (R338 to R341) -/

/-- The last step of each state's group. -/
def groupEnd : Nat → Nat
  | 0 => 0 | 1 => 2 | 2 => 5 | 3 => 8 | _ => 10

/-- The voltage of the operating point in force (R450: the boot voltage until the first sequence ends). -/
def Dev.opMv (d : Dev) : Nat := if d.clk.booted then d.otp.opVolt.getD d.clk.opNow 750 else 750

/-- Set an AVSBus rail's target; a rail already there is settled (R358). -/
def Dev.setRail (d : Dev) (i mv : Nat) : Dev :=
  let near := decide ((d.clk.railMv.getD i 0) ≤ mv + 5) && decide (mv ≤ (d.clk.railMv.getD i 0) + 5)
  { d with clk := { d.clk with railTgt := d.clk.railTgt.set i mv
                               settled := (d.clk.settled.filter (· != i)) ++ (if near then [i] else []) } }

/-- A home slice is idle (entry step 3). -/
def Dev.hsIdle (d : Dev) (n : Nat) : Bool :=
  (d.hsl n).waiting.isEmpty && (d.hsl n).noCredit.isEmpty && (d.hsl n).holds.isEmpty && !(d.reads.any fun r => d.home (lnPage r.line) == n) &&
    !(d.promos.any fun p => d.home p.page == n) && !(d.cas.fwd.any fun f => d.home f.page == n)

/-- Output of Request Rest. -/
def restOut (st outcome a b slice : Nat) : List Byte :=
  leBytes 1 st ++ leBytes 1 outcome ++ leBytes 1 a ++ leBytes 1 b ++ leBytes 2 slice ++ leBytes 2 0

/-- The Request Rest that waits on the entry. -/
def Dev.restBg (d : Dev) : Option Bg := d.cfg.bg.find? fun b => b.result.isNone && b.kind == .rest

def Dev.endRest (d : Dev) (r : Ret) (ext : Nat) (out : List Byte) : Dev :=
  match d.restBg with | some b => d.finishBg b r ext out | none => d

/-- Note a refusal against its slice (`CT_PWR_REFUSE_n`). -/
def Dev.noteRefuser (d : Dev) (slice cause : Nat) (part : Bool) : Dev :=
  d.setPwr fun p =>
    let o := p.refOrder + 1
    let bump (x : Refuser) : Refuser :=
      { x with cause := cause, order := o, refused := if part then x.refused else satInc 255 x.refused,
               aborted := if part then satInc 255 x.aborted else x.aborted }
    let fresh : Refuser := bump { slice := slice, cause := cause, refused := 0, aborted := 0, order := o }
    let rs :=
      if p.refusers.any fun x => x.slice == slice then p.refusers.map fun x => if x.slice = slice then bump x else x
      else if p.refusers.length < 16 then p.refusers ++ [fresh]
      else
        let oldest := p.refusers.foldl (fun m x => min m x.order) o
        p.refusers.map fun x => if x.order = oldest then fresh else x
    { p with refusers := rs, refOrder := o }

/-- A refusal in the group being entered (R339, R341). Step 3 waits and stops no block, so a refusal right after it counts in REFUSED. -/
def Dev.refuseEntry (d : Dev) (slice cause : Nat) (partner : Nat := 0) (partnerSlice : Nat := 0) : Dev :=
  if !d.pwr.entering then d
  else
    let p := d.pwr
    let d := d.noteRefuser slice cause (decide (p.done > groupEnd p.st) && !(p.st == 1 && p.done == 3))
    let d := d.setPwr fun p =>
      { p with entering := false, waking := true, wakeTo := p.st, refused := true, done := p.done + b2n p.stepBusy, stepBusy := false, woken := 0,
               lastCause := cause, lastSlice := slice, lastHeld := p.st, lastPartner := partner, partnerSlice := partnerSlice,
               retryAt := some (d.time.loc + d.fld 0x504 31 16) }
    d.raiseI 181 { slice := slice, cause := cause, detail := [p.st, partner, partnerSlice] }

/-- Step 1's refusal causes: the slice named. -/
def Dev.entryBusy (d : Dev) (f : EntryFacts) : Option Nat :=
  match (tileList d).find? fun k => !(d.tile k).evacs.isEmpty with
  | some k => some (mtSlice k)
  | none =>
    let write := f.nvmBusy || d.cfg.txn.st == .writing || d.cfg.bg.any fun b => match b.kind with | .stage _ _ => true | _ => false
    let ramp := d.bays.any fun b => b.2.st == .ramping
    let due := d.acts.any fun a => decide (a.stroke ≤ d.pool + d.pwr.exit d.pwr.target + 16)
    if write || ramp || due then some (tileSlice 0) else none

/-- Sleep Request on a port (R285). -/
def Dev.askSleep (d : Dev) (p : Nat) : Dev := (d.emit (.sleepReq p)).toNeighbour p 0x45 0 0 []

/-- Order the Up cascade ports to sleep and send Sleep Request (R285). -/
def Dev.sleepLinks (d : Dev) : Dev :=
  forAll d (d.ports.filter fun p => (d.port p).st == .up) fun d p =>
    (d.setPort p fun x => { x with sleepOrdered := true, sleepAsked := true }).askSleep p

/-- Every port ordered to sleep sleeps. -/
def Dev.linksAsleep (d : Dev) : Bool := d.ports.all fun p => (d.port p).st != .up && (d.port p).st != .waking

/-- The condition that ends a step which takes more than its stroke. -/
def Dev.stepOver (d : Dev) (n : Nat) : Bool :=
  match n with
  | 2 => d.gst.quiesce != 1
  | 3 => (List.range d.nHs).all d.hsIdle
  | 7 => d.clk.settled.contains 2
  | 8 => d.linksAsleep
  | 10 => ([0, 1, 3] : List Nat).all d.clk.settled.contains
  | _ => true

/-- Modules of the guest tile. -/
def guestMods : List Nat := [49, 50, 51, 52]

/-- A clock gate's request is refused (R362). -/
def Dev.countGate (d : Dev) (slice : Nat) : Dev :=
  { d with clk := { d.clk with gateRefused := Tbl.upd 0 d.clk.gateRefused (slice / 256) (satInc 65535) } }.raise 193 slice

/-- The effect with which a step begins, or the refusal it meets. -/
def Dev.beginStep (d : Dev) (f : EntryFacts) (n : Nat) : Dev :=
  let gate (d : Dev) (k : Dev → Dev) : Dev := match f.gateRefused with | some s => (d.countGate s).refuseEntry s 4 | none => k d
  let calm (k : Dev → Dev) : Dev := if d.sup.brace || d.clk.moving then d.refuseEntry (tileSlice 0) 6 else k d
  match n with
  | 1 => (match d.entryBusy f with | some s => d.refuseEntry s 6 | none => d)
  | 2 => gate d fun d =>
      if d.gst.st = 2 then { d with gst := { d.gst with quiesce := 1 } }.emit (.side 1 0 0) else d
  | 4 =>
    (match (List.range d.nChans).find? fun c => (d.chan c).up && d.selfRefRefused c with
     | some c => d.refuseEntry (chanSlice c) 2
     | none => forAll d ((List.range d.nChans).filter fun c => (d.chan c).up) fun d c => d.enterSelfRef c)
  | 5 => gate d fun d => forAll d (guestMods.filter fun m => (d.modu m).st == 2) fun d m => d.setMod m fun x => { x with st := 3 }
  | 6 => calm fun d => d
  | 7 => calm fun d => d.setRail 2 600
  | 8 => d.sleepLinks
  | 9 => (match f.notL1 with | some h => d.refuseEntry (headSlice h) 5 | none => d)
  | 10 => calm fun d => ((d.setRail 0 600).setRail 1 600).setRail 3 600
  | _ => d

/-- The step that was begun completes if its condition holds; step 8 ends with the hub's gates. -/
def Dev.endStep (d : Dev) (f : EntryFacts) : Dev :=
  if d.pwr.entering ∧ d.pwr.stepBusy ∧ d.stepOver (d.pwr.done + 1) then
    match (if d.pwr.done + 1 = 8 then f.gateRefused else none) with
    | some s => (d.countGate s).refuseEntry s 4
    | none => d.setPwr fun p => { p with done := p.done + 1, stepBusy := false }
  else d

/-- The state of a completed group is reached at the boundary after its last step (R338). -/
def Dev.reachState (d : Dev) : Dev :=
  let p := d.pwr
  if p.entering ∧ !p.stepBusy ∧ p.st < p.target ∧ p.done ≥ groupEnd (p.st + 1) then
    let s := p.st + 1
    let d := (d.setPwr fun p => { p with st := s, entries := satInc 65535 p.entries, changed := d.pool, entering := s != p.target }).raiseI 180
      { slice := tileSlice 0, detail := [s] }
    if s = p.target then d.endRest .success 0 (restOut s 0 0 0 0) else d
  else d

/-- ENTRY_STEP (R338): once per boundary, at its step 7. -/
def Dev.entryStep (d : Dev) (f : EntryFacts) : Dev :=
  if !d.pwr.entering || d.pwr.mark == d.time.loc + 1 then d
  else
    let d := ((d.setPwr fun p => { p with mark := d.time.loc + 1 }).endStep f).reachState
    let p := d.pwr
    if !p.entering || p.stepBusy || decide (p.done ≥ groupEnd p.target) then d
    else
      let d := d.beginStep f (p.done + 1)
      if d.pwr.entering then (d.setPwr fun p => { p with stepBusy := true, stepAt := d.time.loc }).endStep f else d

/-- HS_WAIT_EXPIRY (R338). -/
def Dev.hsWaitExpiry (d : Dev) : Dev :=
  let p := d.pwr
  if p.entering ∧ p.stepBusy ∧ p.done = 2 ∧ d.time.loc ≥ p.stepAt + d.fld 0x504 7 4 then
    match (List.range d.nHs).find? fun n => !d.hsIdle n with
    | some n => d.refuseEntry (hsSlice n) 1
    | none => d
  else d

/-- SLEEP_REPLY_TIMEOUT (R338, R341): a partner that is silent for 4 strokes. -/
def Dev.sleepReplyTimeout (d : Dev) : Dev :=
  let p := d.pwr
  if p.entering ∧ p.stepBusy ∧ p.done = 7 ∧ d.time.loc ≥ p.stepAt + 4 then
    match d.ports.find? fun q => (d.port q).sleepAsked && (d.port q).st == .up && !(d.port q).draining with
    | some q => (d.setPort q fun x => { x with sleepAsked := false }).refuseEntry (portSlice q) 3 (d.port q).neighbour 0
    | none => d
  else d

/-! ### Waking (R343 to R347, R441) -/

/-- The wake or re-wake is over: the device holds the state aimed at. A Request Rest that waited on an entry that a wake source
interrupted completes (R345); the count of IDLE_MIN begins with a wake to DS0 (R346; DEDUCED, log 90). -/
def Dev.wakeDone (d : Dev) : Dev :=
  let p := d.pwr
  let moved := p.wakeTo != p.st
  let d := d.setPwr fun p =>
    { p with waking := false, st := p.wakeTo, refused := false, changed := if moved then d.pool else p.changed,
             afterWake := p.wakeTo == 0, woken := 0, cut := false, idleSince := if p.wakeTo = 0 then d.time.loc else p.idleSince }
  if p.refused then
    let d := forAll d (d.attachedHeads.filter fun h => (d.head h).restReq && d.restBg.elim true fun b => b.src != .head h) fun d h =>
      d.record [h] .info .vendor 256 p.lastCause p.lastSlice [p.wakeTo, p.lastPartner, p.partnerSlice]
    d.endRest .retryRequired 0x0105 (restOut p.wakeTo 1 p.lastCause 0 p.lastSlice)
  else if p.wakeTo = 0 ∧ p.cut then d.endRest .success 0 (restOut 0 2 p.src p.idx 0)
  else d

/-- The guest's modules leave L1 and, on a wake to DS0, Resume is sent (R441). -/
def Dev.guestUp (d : Dev) : Dev :=
  if d.pwr.wakeTo ≥ 2 then d
  else
    let d := forAll d (guestMods.filter fun m => (d.modu m).st == 3) fun d m => d.setMod m fun x => { x with st := 2 }
    if d.pwr.wakeTo = 0 ∧ d.gst.st = 2 ∧ d.gst.quiesce = 2 then
      { d with gst := { d.gst with quiesce := 0, resumeWait := some d.time.loc } }.emit (.side 2 0 0)
    else { d with gst := { d.gst with quiesce := if d.pwr.wakeTo = 0 then 0 else d.gst.quiesce } }

/-- A sleeping port sends the wake pattern (R286). -/
def Dev.wakeLink (d : Dev) (p : Nat) : Dev :=
  if (d.port p).st = .sleep then (d.setPort p fun x => { x with st := .waking, stepAt := d.time.loc }).emit (.wakePattern p) else d

/-- Ungate the next of a list of tiles, TILE_GAP strokes apart; each is up within 8 strokes. The step is undone when all are. -/
def Dev.ungate (d : Dev) (tiles : List Nat) (f : Dev → Dev) : Dev :=
  let p := d.pwr
  if p.woken < tiles.length then
    if p.woken = 0 ∨ d.time.loc ≥ p.tileAt + d.fld 0x508 23 16 then
      let d := d.setPwr fun p => { p with woken := p.woken + 1, tileAt := d.time.loc }
      if p.woken = 0 then f d else d
    else d
  else if d.time.loc ≥ p.tileAt + 8 then d.setPwr fun p => { p with done := p.done - 1, woken := 0 }
  else d

/-- Undo the last step performed, within the budget of R343. -/
def Dev.undoStep (d : Dev) : Dev :=
  let p := d.pwr
  match p.done with
  | 10 =>
    let d := if p.woken = 0 then ((d.setRail 0 d.opMv).setRail 1 d.opMv).setRail 3 750 else d
    let d := d.setPwr fun p => { p with woken := 1 }
    if ([0, 1, 3] : List Nat).all d.clk.settled.contains then d.setPwr fun p => { p with done := 9, woken := 0 } else d
  | 9 => d.ungate (1 :: ([5, 4, 3, 2] : List Nat).filter d.tilePresent) Dev.guestUp
  | 8 =>
    let keep := decide (p.wakeTo = 2) && p.refused
    let d := forAll d d.ports fun d q =>
      (d.setPort q fun x => { x with sleepOrdered := x.sleepOrdered && keep, sleepAsked := false }).wakeLink q
    d.setPwr fun p => { p with done := 7, woken := 0 }
  | 7 =>
    let d := if p.woken = 0 then d.setRail 2 d.opMv else d
    let d := d.setPwr fun p => { p with woken := 1 }
    if d.clk.settled.contains 2 then d.setPwr fun p => { p with done := 6, woken := 0 } else d
  | 6 =>
    let d := d.ungate (([9, 8, 7, 6] : List Nat).filter d.tilePresent) Dev.guestUp
    if d.pwr.done < 6 then d.oweDecay else d
  | 5 => d.guestUp.setPwr fun p => { p with done := 4, woken := 0 }
  | 4 =>
    let cs := ((List.range d.nChans).filter fun c => (d.chan c).selfRef).reverse
    let n := max 1 (d.fld 0x508 5 0)
    let d := forAll d (cs.take n) fun d c => d.exitSelfRef c
    if cs.length ≤ n then d.setPwr fun p => { p with done := groupEnd p.wakeTo } else d
  | _ => d.guestUp.setPwr fun p => { p with done := groupEnd p.wakeTo }

/-- WAKE_STEP (R343): once per stroke; the state aimed at is held at the boundary after its last step. -/
def Dev.wakeStep (d : Dev) : Dev :=
  if !d.pwr.waking || d.pwr.mark == d.time.loc + 1 then d
  else
    let d := d.setPwr fun p => { p with mark := d.time.loc + 1 }
    if d.pwr.done ≤ groupEnd d.pwr.wakeTo then d.wakeDone else d.undoStep

/-- WAKE_SOURCE (R342): codes 1 to 9. -/
def Dev.wakeSource (d : Dev) (code idx : Nat) : Dev := if code = 0 ∨ 9 < code then d else d.wake code idx

/-- ENTRY_RETRY (R340). -/
def Dev.entryRetry (d : Dev) : Dev :=
  let p := d.pwr
  let slept := p.lastCause == 3 && d.linksAsleep && d.ports.any fun q => (d.port q).st == .sleep
  if !p.entering && !p.waking && decide (p.st < p.target) && p.retryAt.any fun t => decide (t ≤ d.time.loc) || slept then
    d.setPwr fun p => { p with retryAt := none, entering := true }
  else d

/-- REENTRY_IDLE_EXPIRY (R346). -/
def Dev.reentryIdleExpiry (d : Dev) : Dev :=
  if d.pwr.afterWake ∧ d.time.loc ≥ d.pwr.idleSince + d.fld 0x504 15 8 then d.setPwr fun p => { p with afterWake := false } else d

/-- ACTIVATION_WAKE (R347): an entry falls due within the exit time and 2 strokes. -/
def Dev.activationWake (d : Dev) : Dev :=
  let p := d.pwr
  if (p.st > 0 || p.entering) && !(p.waking && p.wakeTo == 0) then
    match d.acts.find? fun a => decide (a.stroke ≤ d.pool + p.exit p.st + 2) with
    | some a => d.wake 7 a.cls
    | none => d
  else d

/-- The evaluation of R336 at a stroke boundary, and the residency count of R348. A Request Rest that waits while the state chosen is the
one held has reached its target (R82). -/
def Dev.restBoundary (d : Dev) : Dev :=
  let d := d.setPwr fun p => { p with res := p.res.set p.st ((p.res.getD p.st 0) + 1) }
  let t := d.choose
  let d := d.setPwr fun p => { p with target := t }
  let p := d.pwr
  let low := ((d.attachedHeads.map fun h => ((d.head h).tolerance, h)).foldl (fun (acc : Option (Nat × Nat)) x =>
    match acc with | none => some x | some a => if x.1 < a.1 then some x else acc) none).elim 0 Prod.snd
  if p.waking then d
  else if p.entering then
    if p.st < t then d
    else if p.done = groupEnd p.st ∧ !p.stepBusy ∧ t = p.st then
      (d.setPwr fun p => { p with entering := false }).endRest .success 0 (restOut t 0 0 0 0)
    else d.wake 8 low
  else if t < p.st then
    if t = 0 then d.wake 8 low
    else (d.setPwr fun p => { p with waking := true, wakeTo := t, woken := 0, src := 8, idx := low, retryAt := none }).raise 183
  else if t = p.st then (d.setPwr fun p => { p with retryAt := none }).endRest .success 0 (restOut t 0 0 0 0)
  else if p.retryAt.isNone ∧ !p.afterWake then d.setPwr fun p => { p with entering := true }
  else d

/-! ### Rest commands (R81, R82) -/

/-- A head's rest request ends: a wake source of code 8 (R82, R342). -/
def Dev.endHeadRest (d : Dev) (h : Nat) : Dev :=
  if (d.head h).restReq then
    let att := d.attached h
    let d := d.setHead h fun x => { x with restReq := false, restTol := 0 }
    if att then d.wake 8 h else d
  else d

/-- REQUEST_REST (R82). Over MCTP, which has no head to rest, it completes with Invalid Input (DESIGN CHOICE, log 87). -/
def Dev.requestRest (d : Dev) (src : Src) (p : List Byte) : Dev :=
  d.gated src { quiet := true } fun d =>
  d.vend src p (p.length == 8) (zeros (sub p 4 4)) fun d =>
  match src with
  | .mctp => d.reply src .invalidInput
  | .head h =>
    if d.bgRuns src then d.reply src .busy
    else
      let was := d.allResting
      let d := d.setHead h fun x => { x with restReq := true, restTol := fieldAt p 0 4 }
      if was || !d.allResting then d.reply src .success 0 (restOut d.pwr.st 3 0 0 0)
      else if d.choose = 0 then d.reply src .success 0 (restOut 0 0 0 0 0)
      else d.startBg src .rest

/-- CANCEL_REST (R82); over MCTP as Request Rest (DESIGN CHOICE, log 87). -/
def Dev.cancelRest (d : Dev) (src : Src) (p : List Byte) : Dev :=
  d.gated src { quiet := true } fun d =>
  d.vend src p p.isEmpty true fun d =>
  match src with
  | .mctp => d.reply src .invalidInput
  | .head h => (d.endHeadRest h).reply src .success

/-- A set of heads as a 16-bit mask. -/
def headMask (hs : List Nat) : Nat := (hs.map fun h => 2 ^ h).sum

/-- GET_POWER_STATUS (R66). -/
def Dev.getPowerStatus (d : Dev) (src : Src) (p : List Byte) : Dev :=
  d.gated src { quiet := true } fun d =>
  d.vend src p p.isEmpty true fun d =>
    let w := d.pwr
    let mgr := d.mgr src
    let m (x : Nat) : Nat := if mgr then x else 0
    let (rest, tol) := match src with | .head h => ((d.head h).restReq, min (d.head h).tolerance 0xFFFFFFFF) | .mctp => (false, 0)
    d.reply src .success 0 (
      leBytes 1 w.st ++ leBytes 1 w.target ++ leBytes 1 (b2n rest + 2 * b2n w.entering + 4 * b2n w.waking) ++ leBytes 1 w.src ++
      leBytes 4 tol ++ leBytes 4 (m (if d.allResting then min d.minTol 0xFFFFFFFF else 0)) ++ leBytes 2 (m (headMask d.attachedHeads)) ++
      leBytes 2 (m (headMask ((List.range d.nHosts).filter fun h => (d.head h).restReq))) ++ leBytes 2 (m w.lastSlice) ++
      leBytes 1 (m w.lastCause) ++ leBytes 1 w.idx ++ leBytes 8 w.changed ++ leBytes 4 0)

/-! ### The guest's sideband handshake (R441) -/

/-- READY: the guest has quiesced. -/
def Dev.ready (d : Dev) : Dev := if d.gst.quiesce = 1 then { d with gst := { d.gst with quiesce := 2 } } else d

/-- REFUSE: a refusal of cause 4 against slice 0xA00. -/
def Dev.refuse (d : Dev) : Dev :=
  if d.gst.quiesce = 1 then ({ d with gst := { d.gst with quiesce := 0 } }).refuseEntry 0xA00 4 else d

/-- QUIESCE_TIMEOUT: no answer within 10 µs. -/
def Dev.quiesceTimeout (d : Dev) : Dev :=
  if d.gst.quiesce = 1 ∧ d.time.loc ≥ d.pwr.stepAt + 10 then
    (({ d with gst := { d.gst with quiesce := 0 } }).raise 226 0xA00).refuseEntry 0xA00 4
  else d

/-- GUEST_WAKE: wake source code 2 with INDEX 32. -/
def Dev.guestWake (d : Dev) : Dev := if d.gst.st = 2 then d.wake 2 32 else d

/-! ### Commands -/

/-- REQUEST_REST (R82). -/
def execRequestRest (src : Src) (payload : List Byte) (s : State) : Host.Outcome State Fault Refusal :=
  s.mail src (.requestRest src payload) (s.dev.requestRest src payload)

/-- CANCEL_REST (R82). -/
def execCancelRest (src : Src) (payload : List Byte) (s : State) : Host.Outcome State Fault Refusal :=
  s.mail src (.cancelRest src payload) (s.dev.cancelRest src payload)

/-- GET_POWER_STATUS (R66). -/
def execGetPowerStatus (src : Src) (payload : List Byte) (s : State) : Host.Outcome State Fault Refusal :=
  s.mail src (.getPowerStatus src payload) (s.dev.getPowerStatus src payload)

/-- ENTRY_STEP (R338). -/
def execEntryStep (facts : EntryFacts) (s : State) : Host.Outcome State Fault Refusal := s.done (s.dev.entryStep facts)

/-- HS_WAIT_EXPIRY (R338). -/
def execHsWaitExpiry (s : State) : Host.Outcome State Fault Refusal := s.done s.dev.hsWaitExpiry

/-- SLEEP_REPLY_TIMEOUT (R338). -/
def execSleepReplyTimeout (s : State) : Host.Outcome State Fault Refusal := s.done s.dev.sleepReplyTimeout

/-- ENTRY_RETRY (R340). -/
def execEntryRetry (s : State) : Host.Outcome State Fault Refusal := s.done s.dev.entryRetry

/-- WAKE_SOURCE (R342). -/
def execWakeSource (code : Nat) (idx : Nat) (s : State) : Host.Outcome State Fault Refusal := s.done (s.dev.wakeSource code idx)

/-- WAKE_STEP (R343). -/
def execWakeStep (s : State) : Host.Outcome State Fault Refusal := s.done s.dev.wakeStep

/-- REENTRY_IDLE_EXPIRY (R346). -/
def execReentryIdleExpiry (s : State) : Host.Outcome State Fault Refusal := s.done s.dev.reentryIdleExpiry

/-- ACTIVATION_WAKE (R347). -/
def execActivationWake (s : State) : Host.Outcome State Fault Refusal := s.done s.dev.activationWake

/-- READY (R441). -/
def execReady (s : State) : Host.Outcome State Fault Refusal := s.done s.dev.ready

/-- REFUSE (R441). -/
def execRefuse (s : State) : Host.Outcome State Fault Refusal := s.done s.dev.refuse

/-- QUIESCE_TIMEOUT (R441). -/
def execQuiesceTimeout (s : State) : Host.Outcome State Fault Refusal := s.done s.dev.quiesceTimeout

/-- GUEST_WAKE (R441). -/
def execGuestWake (s : State) : Host.Outcome State Fault Refusal := s.done s.dev.guestWake

end Sys2Proof.Machine
end

