-- ==== Sys2Proof/Machine/Clocks.lean ====
section
/-! DEFINITION. Clock sources, monitors and failover, operating points, `CLKOUT`, clock gates and supply monitors (R349 to R365). -/

namespace Sys2Proof.Machine

open Sys2Proof

def Dev.setClk (d : Dev) (f : ClkSt → ClkSt) : Dev := { d with clk := f d.clk }
def Dev.setSup (d : Dev) (f : SupSt → SupSt) : Dev := { d with sup := f d.sup }

/-! ### Monitors and failover (R351, R353 to R356) -/

/-- The number of a monitored clock. -/
def clockKey : ClockId → Nat
  | .aon => 0 | .core => 1 | .fabric t => 2 + t | .serdesHost h => 32 + h | .serdesCascade p => 64 + p | .ddr c => 96 + c
  | .refclk => 128 | .xo => 129

/-- Tile, DOMAIN and INDEX as `CT_CLK_FAIL` encodes a clock. -/
def clockFail : ClockId → Nat × Nat × Nat
  | .aon => (0, 1, 0) | .core => (0, 2, 0) | .fabric t => (t, 3, 0) | .serdesHost h => (2 + h / 4, 4, h % 4)
  | .serdesCascade p => (2 + p / 4, 4, 4 + p % 4) | .ddr c => (6 + c / 8, 5, c % 8) | .refclk => (0, 6, 0) | .xo => (0, 7, 0)

def Dev.mon (d : Dev) (k : Nat) : Mon := Tbl.get {} d.clk.mons k
def Dev.setMon (d : Dev) (k : Nat) (f : Mon → Mon) : Dev := d.setClk fun c => { c with mons := Tbl.upd {} c.mons k f }

/-- Tiles with fabric PLLs. -/
def Dev.fabricTiles (d : Dev) : List Nat := ([1, 2, 3, 4, 5, 6, 7, 8, 9] : List Nat).filter d.tilePresent

/-- A clock that exists, runs and is judged: the crystal oscillator only after its start wait (R350, R354). -/
def Dev.monitored (d : Dev) : ClockId → Bool
  | .fabric t => d.fabricTiles.contains t &&
      decide (d.pwr.done < (if t = 1 then 8 else if t < 6 then 9 else 5))
  | .serdesHost h => decide (h < d.nHosts) && decide (d.pwr.done < 9)
  | .serdesCascade p => d.ports.contains p && decide (d.pwr.done < 9)
  | .ddr c => decide (c < d.nChans) && decide (d.pwr.done < 4) && !(d.chan c).pllFailed
  | .xo => d.clk.straps.oscWait != 7 && decide (d.time.loc ≥ 250 * 2 ^ d.clk.straps.oscWait)
  | _ => true

/-- The clock belongs to a unit that is fitted (R5). -/
def Dev.clockThere (d : Dev) : ClockId → Bool
  | .fabric t => d.fabricTiles.contains t
  | .serdesHost h => decide (h < d.nHosts)
  | .serdesCascade p => decide (p < d.nHosts)
  | .ddr c => decide (c < d.nChans)
  | _ => true

/-- Change the device reference; each change raises EV197 (R351), and bears on the length of the stroke in progress (R36). -/
def Dev.setRef (d : Dev) (s : Nat) : Dev :=
  if d.clk.refSrc = s then d
  else ({ (d.setClk fun c => { c with refSrc := s }) with time := { d.time with refMoved := true } }).raiseI 197
    { slice := tileSlice 0, detail := [s] }

/-- The reference that R351 chooses at once. A failed source comes back only at a stroke boundary. -/
def Dev.chooseRef (d : Dev) : Dev :=
  let ok (k : Nat) : Bool := (d.mon k).goodNow && !(d.mon k).failed
  let keep0 := d.clk.refSrc == 0 && !(d.mon 128).failed
  let keep1 := d.clk.refSrc == 1 && !(d.mon 129).failed
  d.setRef (if ok 128 || keep0 then 0 else if ok 129 || keep1 then 1 else 2)

/-- A domain switches to its failover source (R356). -/
def Dev.failover (d : Dev) (c : ClockId) : Dev :=
  let f := clockFail c
  let d := d.setClk fun k => { k with failTile := f.1, failDom := f.2.1, failIdx := f.2.2 }
  match c with
  | .aon => (d.setClk fun k => { k with aon := false }).raise 1 (tileSlice 0)
  | .core => (d.setClk fun k => { k with onRc := k.onRc ||| 1#11 }).raise 1 (tileSlice 0)
  | .fabric t => (d.setClk fun k => { k with onRc := k.onRc ||| (1#11 <<< t) }).raise 1 (tileSlice t)
  | _ => d

/-- The clock is declared failed at its second consecutive bad window; the AON RC only where `REFCLK` and the crystal oscillator are
good (R354, R355). A second failure within 2^20 strokes latches (R356). -/
def Dev.clockBad (d : Dev) (c : ClockId) : Dev :=
  let k := clockKey c
  let d := d.setMon k fun m => { m with bad := satInc 255 m.bad, good := 0, goodNow := false }
  let m := d.mon k
  let fails := decide (m.bad ≥ 2) && !m.failed && (k != 0 || ((d.mon 128).goodNow && (d.mon 129).goodNow))
  if fails then
    let d := d.setMon k fun m =>
      { m with failed := true, latched := m.latched || m.lastFail.any (fun t => decide (d.time.loc < t + 2 ^ 20)), lastFail := some d.time.loc }
    (d.failover c).chooseRef
  else d

/-- CLOCK_MONITOR_WINDOW (R354): `deviation` in units of 0.1 %. -/
def Dev.clockMonitorWindow (d : Dev) (c : ClockId) (deviation : Nat) : Dev :=
  let k := clockKey c
  if !d.monitored c then d
  else if (d.mon k).skip then d.setMon k fun m => { m with skip := false }
  else if deviation > d.fld 0x604 23 16 then d.clockBad c
  else (d.setMon k fun m => { m with bad := 0, good := satInc 255 m.good, goodNow := true }).chooseRef

/-- A clock whose source has failed and been judged good for 64 windows since, and is not latched; a reference, which is no domain's
source, never is (R351, R356). -/
def Dev.recovered (d : Dev) (k : Nat) : Bool :=
  (d.mon k).failed && decide ((d.mon k).good ≥ 64) && (!(d.mon k).latched || decide (128 ≤ k))

/-- Return to recovered sources at a stroke boundary (R351, R356); the window of the switch is not judged (R354). -/
def Dev.clockBoundary (d : Dev) : Dev :=
  if d.fld 0x604 31 31 = 0 then d
  else
    let back (d : Dev) (k : Nat) (f : ClkSt → ClkSt) : Dev :=
      if d.recovered k then (d.setMon k fun m => { m with failed := false, bad := 0, skip := decide (k < 128) }).setClk f else d
    let d := back d 0 fun c => { c with aon := true }
    let d := back d 1 fun c => { c with onRc := c.onRc &&& ~~~1#11 }
    let d := forAll d d.fabricTiles fun d t => back d (2 + t) fun c => { c with onRc := c.onRc &&& ~~~(1#11 <<< t) }
    let d := back d 129 id
    (back d 128 id).chooseRef

/-- SOURCE_SWITCH_STOP_TIMEOUT (R353): the time to the forced stop, in AON cycles. -/
def Dev.sourceSwitchStopTimeout (d : Dev) (c : ClockId) (cycles : Nat) : Dev :=
  if !d.clockThere c then d
  else (d.setClk fun k => { k with forced := min cycles 65535 }).raiseI 192
    { slice := tileSlice (clockFail c).1, detail := [clockKey c, cycles] }

/-- RC_TRIM (R357): RC 0 is the always-on one and RC 1 + t that of tile t. -/
def Dev.rcTrim (d : Dev) (steps : List (Nat × Int)) : Dev :=
  if d.pool % 1024 ≠ 0 ∨ d.clk.trimAt = d.time.loc + 1 then d
  else if d.clk.refSrc < 2 || (d.role == 2 && d.time.aligned && !d.time.holdover) then
    forAll (d.setClk fun c => { c with trimFrozen := false, trimAt := d.time.loc + 1 }) (steps.filter fun s => s.1 == 0 || d.tilePresent (s.1 - 1)) fun d s =>
      let v := max (-127) (min 127 (Tbl.get 0 d.clk.trims s.1 + max (-1) (min 1 s.2)))
      let d := d.setClk fun c => { c with trims := Tbl.set 0 c.trims s.1 v }
      if v = 127 ∨ v = -127 then d.raise 196 (tileSlice (s.1 - 1)) else d
  else if d.clk.trimFrozen then d
  else (d.setClk fun c => { c with trimFrozen := true }).raise 196 (tileSlice 0)

/-! ### Operating points (R50, R358 to R360, R364, R450) -/

/-- The voltage of a point. -/
def Dev.opVolt (d : Dev) (n : Nat) : Nat := d.otp.opVolt.getD n 750

/-- A point needs a higher voltage than the one in force. -/
def Dev.opRaises (d : Dev) (n : Nat) : Bool := decide (d.opVolt n > d.opMv)

/-- An entry of the activation queue that would raise a voltage (R364): a scheduled write of `CT_OP_CFG` brings OP_TARGET. -/
def Dev.actRaises (d : Dev) (a : ActEntry) : Bool :=
  match a.kind with
  | .opPoint t => d.opRaises t
  | .regWrite _ x v => x == 0x610 && d.opRaises (bits v.toNat 31 30)
  | _ => false

/-- The brace state defers a raise that has fallen due (R364). -/
def Dev.raiseHeld (d : Dev) : Bool := d.sup.brace && d.acts.any fun a => a.cls == 2 && decide (a.stroke ≤ d.pool) && d.actRaises a

/-- Set the targets of VDD_HT, VDD_PT and VDD_MT. -/
def Dev.setRails (d : Dev) (mv : Nat) : Dev := ((d.setRail 0 mv).setRail 1 mv).setRail 2 mv

/-- The sequence writes the voltage `tgt` to its rails, `mv` mV away (R359). -/
def Dev.moveRails (d : Dev) (tgt mv : Nat) : Dev := (d.setRails tgt).setClk fun c => { c with slewAt := d.time.loc, slewMv := mv }

/-- Strokes that the rails of the sequence take to slew (R360): RISE_SLEW or FALL_SLEW in units of 0.25 mV/µs. -/
def Dev.slewTime (d : Dev) : Nat :=
  let s := max 1 (if d.clk.raising then d.fld 0x610 15 8 else d.fld 0x610 7 0)
  (d.clk.slewMv * 4 + s - 1) / s

/-- An operating-point entry takes effect: the sequence starts, or is skipped while OP_FAULT is set (R359, R360). -/
def Dev.startOp (d : Dev) (n : Nat) : Dev :=
  if d.clk.opFault then d.raise 195 (tileSlice 0)
  else
    let up := d.opRaises n
    let d := d.setClk fun c =>
      { c with moving := true, raising := up, opTo := n, opStart := d.time.loc, pllLocked := [], lowered := false, deferred := false }
    if up then d.moveRails (d.opVolt n) (d.opVolt n - d.opMv) else d

/-- The domains run at the new frequency; the window of the change is not judged. -/
def Dev.opSwitch (d : Dev) : Dev :=
  forAll (d.setClk fun c => { c with opNow := c.opTo }) d.fabricTiles fun d t => d.setMon (2 + t) fun m => { m with skip := true }

def Dev.opEnd (d : Dev) : Dev :=
  (d.setClk fun c => { c with moving := false, booted := true}).raiseI 194 { slice := tileSlice 0, detail := [d.clk.opTo] }

/-- The sequence at a stroke boundary (R359); it pauses while the cores are away (R30). -/
def Dev.opBoundary (d : Dev) : Dev :=
  let c := d.clk
  let locked := d.fabricTiles.all c.pllLocked.contains
  let still := ([0, 1, 2] : List Nat).all c.settled.contains
  if !c.moving || c.deferred || d.coresGone then d
  else if c.raising then (if locked && still then d.opSwitch.opEnd else d)
  else if c.lowered then (if still then d.opEnd else d)
  else if locked then (d.opSwitch.moveRails (d.opVolt c.opTo) (d.opMv - d.opVolt c.opTo)).setClk fun c => { c with lowered := true }
  else d

/-- PLL_LOCKED (R359). -/
def Dev.pllLocked (d : Dev) (t : Nat) : Dev :=
  if d.clk.moving && d.fabricTiles.contains t && !d.clk.pllLocked.contains t then
    d.setClk fun c => { c with pllLocked := t :: c.pllLocked }
  else d

/-- RAIL_POLL (R358): the read of a moving rail. -/
def Dev.railPoll (d : Dev) (i mv : Nat) : Dev :=
  if i < 4 ∧ !d.clk.settled.contains i then
    let tgt := d.clk.railTgt.getD i 0
    d.setClk fun c =>
      { c with railMv := c.railMv.set i mv, settled := if mv ≤ tgt + 5 ∧ tgt ≤ mv + 5 then i :: c.settled else c.settled }
  else d

/-- OP_SEQUENCE_FAULT (R360): a PLL not locked within 20 strokes, a rail not settled within 64 strokes of its slew time, or three
AVSBus frames without an answer. -/
def Dev.opSequenceFault (d : Dev) (i : Nat) (why : OpFaultReason) : Dev :=
  let c := d.clk
  let due := match why with
    | .pll => decide (d.time.loc ≥ c.opStart + 20) && !d.fabricTiles.all c.pllLocked.contains
    | .rail => decide (d.time.loc ≥ c.slewAt + d.slewTime + 64) && decide (i < 3) && !c.settled.contains i && !c.deferred
    | .avsbus => decide (i < 4)
  if !(c.moving && due) || d.coresGone then d
  else
    let d := if c.raising then d.setRails d.opMv else d
    let d := d.setClk fun c =>
      { c with moving := false, opNow := max c.opNow c.opTo, opFault := true, faultRail := i % 4, deferred := false }
    d.raise 195 (tileSlice 0)

/-! ### `CLKOUT` and clock gates (R361, R362) -/

/-- CLKOUT_CONFIGURATION (R361): the RW bits of the value take effect at the next boundary. -/
def Dev.clkoutConfiguration (d : Dev) (src : Src) (v : BitVec 32) : Dev :=
  if d.regOk src then d.setClk fun c => { c with clkoutPend := some (v &&& 0xBF9FFFFF#32) } else d

/-- The setting written in the stroke before takes effect. -/
def Dev.clkoutBoundary (d : Dev) : Dev :=
  match d.clk.clkoutPend with
  | some v => d.setClk fun c => { c with clkout := v, clkoutPend := none }
  | none => d

/-- GATE_REFUSAL_TIMEOUT (R362): during an entry step that closes gates it is a refusal of cause 4 (R338). -/
def Dev.gateRefusalTimeout (d : Dev) (slice : Nat) : Dev :=
  if !d.slicePresent slice then d
  else
    let d := d.countGate slice
    let p := d.pwr
    if p.entering && p.stepBusy && decide (p.done + 1 ∈ [2, 5, 8]) then d.refuseEntry slice 4 else d

/-! ### Supplies (R363 to R365) -/

/-- The target in force of an AVSBus rail for the monitors: the boot voltage until the first sequence ends. -/
def Dev.railTarget (d : Dev) (i : Nat) : Nat := if !d.clk.booted && d.clk.moving && i != 3 then 750 else d.clk.railTgt.getD i 750

/-- Nominal value, warning level and reset level of a monitored rail in mV. -/
def Dev.railLevels (d : Dev) (r : Nat) : Nat × Nat × Nat :=
  match r with
  | 0 => (800, 760, 720) | 5 => (1100, 1050, 1000) | 6 => (900, 860, 820) | 7 => (1800, 1710, 1620)
  | _ => (d.railTarget (r - 1), d.railTarget (r - 1) - 40, d.railTarget (r - 1) - 80)

/-- A rail has a monitor on a tile (monitored rails table). -/
def Dev.monitorOn (d : Dev) (r t : Nat) : Bool :=
  d.tilePresent t &&
    (match r with
     | 0 => t == 0 | 7 => t == 0 | 1 => t == 1
     | 2 => decide (2 ≤ t ∧ t ≤ 5) | 6 => decide (2 ≤ t ∧ t ≤ 5)
     | 3 => decide (6 ≤ t ∧ t ≤ 9) | 4 => decide (6 ≤ t ∧ t ≤ 9) | 5 => decide (6 ≤ t ∧ t ≤ 9)
     | _ => false)

/-- Every sampled rail of the given tiles is above its warning level plus HYST. -/
def Dev.railsGood (d : Dev) (on : Nat → Bool) : Bool :=
  d.sup.now.all fun e => !on (e.1 % 16) || decide (e.2 ≥ ((d.railLevels (e.1 / 16)).2.1 + d.fld 0x660 7 0) * 20)

/-- WARNING_CROSSING (R364): the brace state. A raise under way holds its rails where they were last read. -/
def Dev.warningCrossing (d : Dev) (r t : Nat) : Dev :=
  if !d.monitorOn r t then d
  else
    let d := d.setSup fun s =>
      { s with brace := true, rail := r, tile := t, warn := s.warn ||| (1#8 <<< r), goodRun := 0,
               since := (if s.brace then s.since else d.time.loc),
               lowest := min (if s.brace then s.lowest else 0xFFFF) (Tbl.get 0xFFFF s.now (r * 16 + t)) }
    let d :=
      if d.clk.moving && d.clk.raising && !d.clk.deferred then
        let m := d.clk.railMv
        (((d.setRail 0 (m.getD 0 0)).setRail 1 (m.getD 1 0)).setRail 2 (m.getD 2 0)).setClk fun c => { c with deferred := true }
      else d
    d.raiseI 190 { slice := tileSlice t, detail := [r] }

/-- Ledger records that were held are written (R365, R401). -/
def Dev.drainLedger (d : Dev) : Dev :=
  if d.ledgerHeld then d
  else
    let q := d.ev.queue
    forAll { d with ev := { d.ev with queue := [] }, led := { d.led with mram := none } } q fun d r =>
      let (d, x) := d.journal r
      x.foldl (fun d m => (d.raise1 m {}).1) d

/-- A raise that the brace state held resumes (R364). -/
def Dev.resumeRaise (d : Dev) : Dev :=
  if d.clk.deferred && d.clk.moving then
    (d.moveRails (d.opVolt d.clk.opTo) (d.opVolt d.clk.opTo - d.clk.railMv.foldl min 65535)).setClk fun c => { c with deferred := false }
  else d

/-- BRACE_END (R365): held records are written with one dip record, and a held raise resumes. -/
def Dev.braceEnd (d : Dev) : Dev :=
  if !(d.sup.brace && decide (d.sup.goodRun ≥ 8)) then d
  else
    let s := d.sup
    let d := d.setSup fun s => { s with brace := false, dips := satInc 65535 s.dips }
    let long := d.time.loc - s.since
    -- the dip record's detail in 16-bit units (R402): rail and tile, the lowest sample, the duration
    let d := (d.drainLedger).journalNote 0 (tileSlice s.tile) [s.rail + 256 * s.tile, s.lowest, long % 65536, long / 65536]
    let d := d.resumeRaise
    d.raise 191 (tileSlice s.tile)

/-- RAIL_OVERVOLTAGE (R363): more than 50 mV above nominal or target; no other effect. -/
def Dev.railOvervoltage (d : Dev) (r t mv : Nat) : Dev :=
  if d.monitorOn r t ∧ mv > (d.railLevels r).1 + 50 then d.raiseI 198 { slice := tileSlice t, detail := [r, mv] } else d

/-- Rail samples of a stroke (R363): last and lowest values, the mask of rails below warning, and the runs of good strokes. -/
def Dev.railBoundary (d : Dev) (xs : List (Nat × Nat × Nat)) : Dev :=
  let xs := xs.filter fun x => d.monitorOn x.1 x.2.1
  let d := forAll d xs fun d x => d.setSup fun s =>
    { s with now := Tbl.put s.now (x.1 * 16 + x.2.1) (x.2.2 % 65536), low := Tbl.upd 0xFFFF s.low x.1 (min (x.2.2 % 65536)),
             lowest := if s.brace ∧ x.1 = s.rail ∧ x.2.1 = s.tile then min s.lowest (x.2.2 % 65536) else s.lowest }
  let below (r : Nat) : Bool := d.sup.now.any fun e => e.1 / 16 == r && decide (e.2 < (d.railLevels r).2.1 * 20)
  let mask := (List.range 8).foldl (fun m r => if below r then m ||| (1#8 <<< r) else m) 0#8
  let good := d.railsGood fun _ => true
  let runs := d.sup.held.foldl (fun t k => Tbl.set 0 t k (if d.railsGood (· == k) then Tbl.get 0 t k + 1 else 0)) d.sup.rstRun
  d.setSup fun s => { s with warn := mask, goodRun := if s.brace then (if good then s.goodRun + 1 else 0) else 0, rstRun := runs }

/-! ### Commands -/

/-- SOURCE_SWITCH_STOP_TIMEOUT (R353). -/
def execSourceSwitchStopTimeout (clk : ClockId) (cycles : Nat) (s : State) : Host.Outcome State Fault Refusal :=
  s.done (s.dev.sourceSwitchStopTimeout clk cycles)

/-- RC_TRIM (R357). -/
def execRcTrim (steps : List (Nat × Int)) (s : State) : Host.Outcome State Fault Refusal := s.done (s.dev.rcTrim steps)

/-- PLL_LOCKED (R359). -/
def execPllLocked (tile : Nat) (s : State) : Host.Outcome State Fault Refusal := s.done (s.dev.pllLocked tile)

/-- RAIL_POLL (R358). -/
def execRailPoll (avs : Nat) (mv : Nat) (s : State) : Host.Outcome State Fault Refusal := s.done (s.dev.railPoll avs mv)

/-- OP_SEQUENCE_FAULT (R360). -/
def execOpSequenceFault (avs : Nat) (reason : OpFaultReason) (s : State) : Host.Outcome State Fault Refusal :=
  s.done (s.dev.opSequenceFault avs reason)

/-- CLKOUT_CONFIGURATION (R361). -/
def execClkoutConfiguration (src : Src) (value : BitVec 32) (s : State) : Host.Outcome State Fault Refusal :=
  s.mail src (.clkoutConfiguration src value) (s.dev.clkoutConfiguration src value)

/-- GATE_REFUSAL_TIMEOUT (R362). -/
def execGateRefusalTimeout (slice : Nat) (s : State) : Host.Outcome State Fault Refusal := s.done (s.dev.gateRefusalTimeout slice)

/-- WARNING_CROSSING (R364). -/
def execWarningCrossing (rail : Nat) (tile : Nat) (s : State) : Host.Outcome State Fault Refusal :=
  s.done (s.dev.warningCrossing rail tile)

/-- BRACE_END (R365). -/
def execBraceEnd (s : State) : Host.Outcome State Fault Refusal := s.done s.dev.braceEnd

/-- RAIL_OVERVOLTAGE (R363). -/
def execRailOvervoltage (rail : Nat) (tile : Nat) (mv : Nat) (s : State) : Host.Outcome State Fault Refusal :=
  s.done (s.dev.railOvervoltage rail tile mv)

end Sys2Proof.Machine
end

