-- ==== Sys2Proof/Machine/Bays.lean ====
section
/-! DEFINITION. DIMM bay power (R367 to R379). -/

namespace Sys2Proof.Machine

open Sys2Proof

def BaySt.num : BaySt → Nat
  | .empty => 0 | .off => 1 | .queued => 2 | .ramping => 3 | .good => 4 | .limiting => 5 | .down => 6 | .retry => 7 | .latched => 8

/-- Bays present (R367). -/
def Dev.nBays (d : Dev) : Nat := d.nChans

/-- The channel of a bay's position, and the slot that the bay powers. -/
def bayChan (n pos : Nat) : Nat := 2 * (n / 2) + pos

/-- Fields of `CT_BAY_CTL_n`. -/
def Dev.bayCtl (d : Dev) (n hi lo : Nat) : Nat := d.fld (0x800 + n * 16) hi lo

/-- Both positions' ranks go Off (R375, R379). -/
def Dev.bayRanksOff (d : Dev) (n : Nat) : Dev := forAll d [0, 1] fun d pos => d.slotOff (bayChan n pos) (n % 2)

/-- Precedence of causes that arise at one boundary (R378): smaller goes first. -/
def causeRank (c : Nat) : Nat :=
  match c with
  | 5 => 0 | 6 => 1 | 3 => 2 | 2 => 3 | 4 => 4 | _ => 5

def Bay.setCause (b : Bay) (now c : Nat) : Bay :=
  if b.causeAt = now + 1 ∧ causeRank b.cause ≤ causeRank c then b else { b with cause := c, causeAt := now + 1 }

/-- No module is seated. -/
def Bay.vacant (b : Bay) : Bool := !b.pres0 && !b.pres1

/-- The gate is off and no ramp waits. -/
def Bay.rest (b : Bay) (st : BaySt) : Bay := { b with st := st, timerOn := false, gateLow := false, debounce := none, timerEnd := 0 }

/-- Queue a bay for a ramp: a need of the control tile wakes the device (R342, R370). -/
def Dev.queueBay (d : Dev) (n : Nat) : Dev :=
  (d.setBay n fun b => { b.rest .queued with order := d.time.loc }).wake 9 0

/-- The event of a switch-off, with the ledger record of R378. -/
def Dev.bayEvent (d : Dev) (ev n : Nat) : Dev :=
  let b := d.bay n
  d.raiseI ev { slice := tileSlice 0, cause := b.cause, detail := [n, b.cause, b.sns, b.vout], must := true }

/-- A bay latches. -/
def Dev.latchBay (d : Dev) (n cause ev : Nat) : Dev :=
  let d := d.bayRanksOff n
  (d.setBay n fun b => { (b.rest .latched).setCause d.time.loc cause with damaged := satInc 255 b.damaged }).bayEvent ev n

/-- A fault switch-off counts a retry (R374). -/
def Dev.faultRetry (d : Dev) (n cause : Nat) : Dev :=
  let d := d.bayRanksOff n
  let d := d.setBay n fun b =>
    { (b.rest .retry).setCause d.time.loc cause with
        retries := satInc 16 b.retries, limitCnt := if cause = 2 then satInc 255 b.limitCnt else b.limitCnt,
        trip := if cause = 3 then satInc 255 b.trip else b.trip }
  let d := d.bayEvent 201 n
  let t := d.bayCtl n 18 12
  if (d.bay n).retries > d.bayCtl n 11 8 ∨ t = 0 then (d.setBay n fun b => b.rest .latched).raiseI 202 { slice := tileSlice 0, detail := [n] }
  else d.setBay n fun b => { b with timerOn := true, timerEnd := d.time.loc + t * 100000 }

/-! ### Insertion and removal (R369, R375, R376) -/

/-- BAY_INSERTION (R369, R376), at the end of its debounce. -/
def Dev.bayInsertion (d : Dev) (n pos : Nat) (m : Dimm) : Dev :=
  let b := d.bay n
  if n ≥ d.nBays ∨ pos > 1 ∨ (if pos = 0 then b.pres0 else b.pres1) then d
  else
    let d := d.setBay n fun b =>
      if pos = 0 then { b with pres0 := true, dimm0 := some m } else { b with pres1 := true, dimm1 := some m }
    match b.st with
    | .empty | .off =>
      let d := d.setBay n fun b => { b with st := .off }
      if d.fld 0x700 15 15 == 1 || (match d.prim with | .priming _ => true | _ => false) then d.queueBay n else d
    | .retry | .latched => (d.setBay n fun b => { b with reinsert := true }).raiseI 205 { slice := tileSlice 0, detail := [n] }
    | _ => d

/-- BAY_REMOVAL (R375, R376). -/
def Dev.bayRemoval (d : Dev) (n pos : Nat) : Dev :=
  let b := d.bay n
  if n ≥ d.nBays ∨ pos > 1 ∨ !(if pos = 0 then b.pres0 else b.pres1) then d
  else
    let d := d.setBay n fun b => if pos = 0 then { b with pres0 := false, dimm0 := none } else { b with pres1 := false, dimm1 := none }
    let idle (b : Bay) : Bay := if b.vacant then b.rest .empty else b
    match b.st with
    | .ramping | .good | .limiting =>
      let d := d.bayRanksOff n
      (d.setBay n fun b =>
        { (b.rest (if b.vacant then .empty else .off)).setCause d.time.loc 6 with pulls := satInc 255 b.pulls }).bayEvent 204 n
    | .retry | .latched => (d.setBay n fun b => { b with reinsert := true }).raiseI 205 { slice := tileSlice 0, detail := [n] }
    | .off | .queued => d.setBay n idle
    | _ => d

/-! ### The ramp (R370 to R372) -/

/-- The bay that ramps next: the one queued first, in ascending number. -/
def Dev.nextRamp (d : Dev) : Option Nat :=
  ((List.range d.nBays).filter fun n => (d.bay n).st == .queued).foldl (fun (acc : Option Nat) n =>
    match acc with | none => some n | some m => if (d.bay n).order < (d.bay m).order then some n else acc) none

/-- BAY_RAMP_START (R370, R371): at the earliest in the stroke after the one in which the bay was queued. -/
def Dev.bayRampStart (d : Dev) (n : Nat) : Dev :=
  let ramps := ((List.range d.nBays).filter fun k => (d.bay k).st == .ramping).length
  if d.nextRamp = some n ∧ (d.bay n).order < d.time.loc ∧ ramps < d.fld 0x700 31 28 ∧ !d.sup.brace ∧ !d.therm.latched ∧ d.prim ≠ .unprimed then
    d.setBay n fun b => { b with st := .ramping, fromGood := false, rampAt := d.time.loc }
  else d

/-- Every bay that may start its ramp at this boundary does. -/
def Dev.rampBoundary (d : Dev) : Dev :=
  forAll d (List.range 8) fun d _ => match d.nextRamp with | some n => d.bayRampStart n | none => d

/-- Power a bay down (R379): its ranks are Off and the modules' outputs disabled. -/
def Dev.powerDown (d : Dev) (n : Nat) : Dev :=
  let d := d.bayRanksOff n
  d.setBay n fun b => { b.rest .down with downAt := d.time.loc }

/-- The module fitted in a position of a bay. -/
def Bay.module (b : Bay) (pos : Nat) : Option Dimm := if pos = 0 then b.dimm0 else b.dimm1

/-- BAY_GOOD (R371, R195): bring-up of both positions starts; a bay with a rejected module is powered down. -/
def Dev.bayGood (d : Dev) (n : Nat) : Dev :=
  if n ≥ d.nBays ∨ (d.bay n).st ≠ .ramping then d
  else
    let s := n % 2
    let d := (d.setBay n fun b => { b with st := .good, goodAt := d.time.loc }).raiseI 200 { slice := tileSlice 0, detail := [n] }
    let d := forAll d [0, 1] fun d pos =>
      let m := if pos = 0 then (d.bay n).dimm0 else (d.bay n).dimm1
      let c := bayChan n pos
      if m.isNone || (d.chan c).pllFailed then d
      else
        let o := (d.bay (n + 1 - 2 * s)).module pos
        d.channelStart c [s] (if s = 0 then m else o) (if s = 1 then m else o)
    let bad := ([0, 1] : List Nat).any fun pos =>
      let m := if pos = 0 then (d.bay n).dimm0 else (d.bay n).dimm1
      let c := d.chan (bayChan n pos)
      m.isSome && !c.pllFailed && (if s = 0 then c.dimm0.isNone else c.dimm1.isNone)
    if bad then d.powerDown n else d

/-- The ramp limit of a bay in strokes (R372): 1.5 × (`BAY_VIN` × 8 ÷ SLEW) + 2 ms. -/
def Dev.rampLimit (d : Dev) (n : Nat) : Nat := d.sup.vin * 12 / (10 * max 1 (d.bayCtl n 7 3)) + 2000

/-- RAMP_LIMIT_EXPIRY (R372). -/
def Dev.rampLimitExpiry (d : Dev) (n : Nat) : Dev :=
  if n < d.nBays ∧ (d.bay n).st = .ramping ∧ (d.bay n).rampAt + d.rampLimit n ≤ d.time.loc then d.latchBay n 4 203 else d

/-- GATE_NOT_GOOD (R372): for 1 ms while Good. -/
def Dev.gateNotGood (d : Dev) (n : Nat) : Dev :=
  if n < d.nBays ∧ (d.bay n).st = .good then d.latchBay n 4 203 else d

/-! ### Faults (R373, R374, R377) -/

/-- CURRENT_LIMIT (R373). -/
def Dev.currentLimit (d : Dev) (n : Nat) : Dev :=
  let b := d.bay n
  if n < d.nBays ∧ (b.st = .ramping ∨ b.st = .good) then
    d.setBay n fun b =>
      { b with st := .limiting, fromGood := b.st == .good, limAt := d.time.loc, timerOn := true,
               timerEnd := d.time.loc + d.bayCtl n 24 19 * 1000 }
  else d

/-- CURRENT_LIMIT_CLEARED (R373). -/
def Dev.currentLimitCleared (d : Dev) (n : Nat) : Dev :=
  let b := d.bay n
  if n < d.nBays ∧ b.st = .limiting ∧ d.time.loc < b.timerEnd then
    d.setBay n fun b =>
      { b with st := (if b.fromGood then .good else .ramping), goodAt := if b.fromGood then d.time.loc else b.goodAt,
               rampAt := if b.fromGood then b.rampAt else b.rampAt + (d.time.loc - b.limAt), timerOn := false, timerEnd := 0 }
  else d

/-- FAULT_TIMER_EXPIRY (R373). -/
def Dev.faultTimerExpiry (d : Dev) (n : Nat) : Dev :=
  if n < d.nBays ∧ (d.bay n).st = .limiting ∧ (d.bay n).timerEnd ≤ d.time.loc then d.faultRetry n 2 else d

/-- FAST_TRIP (R373). -/
def Dev.fastTrip (d : Dev) (n : Nat) : Dev :=
  let b := d.bay n
  if n < d.nBays ∧ (b.st = .ramping ∨ b.st = .good ∨ b.st = .limiting) then d.faultRetry n 3 else d

/-- RETRY_TIMER_EXPIRY (R374, R376): a seated bay is debounced afresh, and is Queued after that. -/
def Dev.retryTimerExpiry (d : Dev) (n : Nat) : Dev :=
  let b := d.bay n
  if n < d.nBays ∧ b.st = .retry ∧ b.timerEnd ≤ d.time.loc then
    if b.vacant then d.setBay n fun b => { b.rest .empty with retries := 0 }
    else d.setBay n fun b => { b.rest .off with debounce := some (d.time.loc + d.fld 0x700 27 20 * 10000) }
  else d

/-- RETRIES_CLEAR (R374). -/
def Dev.retriesClear (d : Dev) (n : Nat) : Dev :=
  let b := d.bay n
  if n < d.nBays ∧ b.st = .good ∧ b.goodAt + 2 ^ 20 ≤ d.time.loc then d.setBay n fun b => { b with retries := 0 } else d

/-- SHORTED_TRANSISTOR (R377): the gate is off and the output stays above 1 V. -/
def Dev.shortedTransistor (d : Dev) (n : Nat) : Dev :=
  let b := d.bay n
  let gateOff := match b.st with
    | .ramping | .good | .limiting => false
    | .down => b.gateLow
    | .latched => b.cause != 5
    | _ => true
  if decide (n < d.nBays) && gateOff then d.latchBay n 5 3 else d

/-! ### Powering down and Bay Power (R376, R379) -/

/-- POWER_DOWN_GATE_DELAY (R379). -/
def Dev.powerDownGateDelay (d : Dev) (n : Nat) : Dev :=
  let b := d.bay n
  if n < d.nBays ∧ b.st = .down ∧ b.downAt + 5000 ≤ d.time.loc then d.setBay n fun b => { b with gateLow := true } else d

/-- `CT_BAY_STAT_n`, `CT_BAY_MEAS_n` and `CT_BAY_HIST_n`. -/
def Dev.bayStat (d : Dev) (n : Nat) : Nat :=
  let b := d.bay n
  b.st.num * 2 ^ 28 + b2n b.pres0 * 2 ^ 27 + b2n b.pres1 * 2 ^ 26 + b2n b.reinsert * 2 ^ 25 + b.cause % 16 * 2 ^ 21 + min 15 b.retries * 2 ^ 17 +
    (if b.timerOn then min 65535 ((b.timerEnd - d.time.loc + 999) / 1000) else 0)
def Dev.bayMeas (d : Dev) (n : Nat) : Nat := (d.bay n).sns % 65536 * 65536 + (d.bay n).vout % 65536
def Dev.bayHist (d : Dev) (n : Nat) : Nat :=
  let b := d.bay n
  b.limitCnt * 2 ^ 24 + b.trip * 2 ^ 16 + b.damaged * 2 ^ 8 + b.pulls

def Dev.bayOut (d : Dev) (n : Nat) : List Byte :=
  leBytes 4 (d.bayStat n) ++ leBytes 4 (d.bayMeas n) ++ leBytes 4 (d.bayHist n) ++ leBytes 4 0

/-- BAY_OUTPUT_LOW (R379): the bay is Off, EV206, and a Bay Power Off completes. -/
def Dev.bayOutputLow (d : Dev) (n : Nat) : Dev :=
  let b := d.bay n
  if n < d.nBays ∧ b.st = .down ∧ b.gateLow then
    let d := d.setBay n fun b => (b.rest (if b.vacant then .empty else .off)).setCause d.time.loc 1
    let d := d.raiseI 206 { slice := tileSlice 0, detail := [n] }
    forAll d (d.cfg.bg.filter fun x => x.kind == .bayOff n && x.result.isNone) fun d x => d.finishBg x .success 0 (d.bayOut n)
  else d

/-- Behind the gates of Bay Power, for the bay that byte 0 of the input names, where it is present. -/
def Dev.bayPower (d : Dev) (src : Src) (p : List Byte) (f : Dev → Nat → Dev) : Dev :=
  d.gated src { manager := true } fun d =>
  d.vend src p (p.length == 8) (zeros (sub p 2 6)) fun d =>
    if fieldAt p 0 1 < d.nBays then f d (fieldAt p 0 1) else d.reply src .invalidInput

/-- BAY_POWER_STATUS (R379). -/
def Dev.bayPowerStatus (d : Dev) (src : Src) (p : List Byte) : Dev := d.bayPower src p fun d n => d.reply src .success 0 (d.bayOut n)

/-- BAY_POWER_ON (R379). -/
def Dev.bayPowerOn (d : Dev) (src : Src) (p : List Byte) : Dev :=
  d.bayPower src p fun d n =>
    match (d.bay n).st with
    | .off => let d := d.queueBay n; d.reply src .success 0 (d.bayOut n)
    | .queued | .ramping | .good | .limiting => d.reply src .success 0 (d.bayOut n)
    | .down => d.reply src .busy
    | _ => d.reply src .invalidInput

/-- Every rank of both positions is Empty or Off. -/
def Dev.bayClear (d : Dev) (n : Nat) : Bool :=
  ([0, 1] : List Nat).all fun pos => (List.range 4).all fun r =>
    let x := d.rank (bayChan n pos) (n % 2 * 4 + r)
    x.st == .off || x.st == .empty

/-- BAY_POWER_OFF (R379). -/
def Dev.bayPowerOff (d : Dev) (src : Src) (p : List Byte) : Dev :=
  d.bayPower src p fun d n =>
    if !d.bayClear n then d.reply src .invalidInput
    else match (d.bay n).st with
      | .queued | .ramping | .retry =>
        let d := d.setBay n fun b => (b.rest (if b.vacant then .empty else .off)).setCause d.time.loc 1
        d.reply src .success 0 (d.bayOut n)
      | .good | .limiting => d.asBg src fun d => (d.powerDown n).startBg src (.bayOff n)
      | .down => d.reply src .busy
      | _ => d.reply src .success 0 (d.bayOut n)

/-- BAY_POWER_CLEAR (R376, R379). -/
def Dev.bayPowerClear (d : Dev) (src : Src) (p : List Byte) : Dev :=
  d.bayPower src p fun d n =>
    if (d.bay n).st = .latched then
      let d := d.setBay n fun b => { b.rest .off with retries := 0, reinsert := false }
      d.reply src .success 0 (d.bayOut n)
    else d.reply src .invalidInput

/-- Bays at a stroke boundary: samples (R371), and the debounces of R374 that are over. -/
def Dev.bayBoundary (d : Dev) (xs : List (Nat × Nat × Nat)) (vin : Nat) : Dev :=
  let d := forAll (d.setSup fun s => { s with vin := vin }) (xs.filter fun x => decide (x.1 < d.nBays)) fun d x => d.setBay x.1 fun b => { b with sns := x.2.1, vout := x.2.2 }
  forAll d ((List.range d.nBays).filter fun n => (d.bay n).debounce.any fun t => decide (t ≤ d.time.loc)) fun d n => d.queueBay n

/-! ### Commands -/

/-- BAY_POWER_STATUS (R379). -/
def execBayPowerStatus (src : Src) (payload : List Byte) (s : State) : Host.Outcome State Fault Refusal :=
  s.mail src (.bayPowerStatus src payload) (s.dev.bayPowerStatus src payload)

/-- BAY_POWER_ON (R379). -/
def execBayPowerOn (src : Src) (payload : List Byte) (s : State) : Host.Outcome State Fault Refusal :=
  s.mail src (.bayPowerOn src payload) (s.dev.bayPowerOn src payload)

/-- BAY_POWER_OFF (R379). -/
def execBayPowerOff (src : Src) (payload : List Byte) (s : State) : Host.Outcome State Fault Refusal :=
  s.mail src (.bayPowerOff src payload) (s.dev.bayPowerOff src payload)

/-- BAY_POWER_CLEAR (R376). -/
def execBayPowerClear (src : Src) (payload : List Byte) (s : State) : Host.Outcome State Fault Refusal :=
  s.mail src (.bayPowerClear src payload) (s.dev.bayPowerClear src payload)

/-- BAY_INSERTION (R369). -/
def execBayInsertion (n : Nat) (pos : Nat) (dimm : Dimm) (s : State) : Host.Outcome State Fault Refusal :=
  s.done (s.dev.bayInsertion n pos dimm)

/-- BAY_REMOVAL (R375). -/
def execBayRemoval (n : Nat) (pos : Nat) (s : State) : Host.Outcome State Fault Refusal := s.done (s.dev.bayRemoval n pos)

/-- BAY_RAMP_START (R370). -/
def execBayRampStart (n : Nat) (s : State) : Host.Outcome State Fault Refusal := s.done (s.dev.bayRampStart n)

/-- BAY_GOOD (R371). -/
def execBayGood (n : Nat) (s : State) : Host.Outcome State Fault Refusal := s.done (s.dev.bayGood n)

/-- RAMP_LIMIT_EXPIRY (R372). -/
def execRampLimitExpiry (n : Nat) (s : State) : Host.Outcome State Fault Refusal := s.done (s.dev.rampLimitExpiry n)

/-- GATE_NOT_GOOD (R372). -/
def execGateNotGood (n : Nat) (s : State) : Host.Outcome State Fault Refusal := s.done (s.dev.gateNotGood n)

/-- CURRENT_LIMIT (R373). -/
def execCurrentLimit (n : Nat) (s : State) : Host.Outcome State Fault Refusal := s.done (s.dev.currentLimit n)

/-- CURRENT_LIMIT_CLEARED (R373). -/
def execCurrentLimitCleared (n : Nat) (s : State) : Host.Outcome State Fault Refusal := s.done (s.dev.currentLimitCleared n)

/-- FAULT_TIMER_EXPIRY (R373). -/
def execFaultTimerExpiry (n : Nat) (s : State) : Host.Outcome State Fault Refusal := s.done (s.dev.faultTimerExpiry n)

/-- FAST_TRIP (R373). -/
def execFastTrip (n : Nat) (s : State) : Host.Outcome State Fault Refusal := s.done (s.dev.fastTrip n)

/-- RETRY_TIMER_EXPIRY (R374). -/
def execRetryTimerExpiry (n : Nat) (s : State) : Host.Outcome State Fault Refusal := s.done (s.dev.retryTimerExpiry n)

/-- RETRIES_CLEAR (R374). -/
def execRetriesClear (n : Nat) (s : State) : Host.Outcome State Fault Refusal := s.done (s.dev.retriesClear n)

/-- SHORTED_TRANSISTOR (R377). -/
def execShortedTransistor (n : Nat) (s : State) : Host.Outcome State Fault Refusal := s.done (s.dev.shortedTransistor n)

/-- POWER_DOWN_GATE_DELAY (R379). -/
def execPowerDownGateDelay (n : Nat) (s : State) : Host.Outcome State Fault Refusal := s.done (s.dev.powerDownGateDelay n)

/-- BAY_OUTPUT_LOW (R379). -/
def execBayOutputLow (n : Nat) (s : State) : Host.Outcome State Fault Refusal := s.done (s.dev.bayOutputLow n)

end Sys2Proof.Machine
end

