-- ==== Sys2Proof/Machine/Thermal.lean ====
section
/-! DEFINITION. Temperature sensing and thermal protection (R380 to R390). -/

namespace Sys2Proof.Machine

open Sys2Proof

def Dev.setTherm (d : Dev) (f : ThermSt → ThermSt) : Dev := { d with therm := f d.therm }

/-! ### Tile sensors (R380 to R383, R387) -/

/-- Package neighbours of a tile. -/
def neighbours (t : Nat) : List Nat :=
  match t with
  | 0 => [1, 2, 4] | 1 => [0, 6, 7, 8, 9, 10] | 2 => [0, 6] | 3 => [7, 10] | 4 => [0, 8] | 5 => [9, 10]
  | 6 => [1, 2, 7] | 7 => [1, 3, 6] | 8 => [1, 4, 9] | 9 => [1, 5, 8] | 10 => [1, 3, 5] | _ => []

def Dev.tilesPresent (d : Dev) : List Nat := (List.range 11).filter d.tilePresent

/-- Latest used values of a tile's usable neighbours that have one. -/
def Dev.nearTemps (d : Dev) (t : Nat) : List Int :=
  ((neighbours t).filter fun n => d.tilePresent n && !(d.sens n).failed && (d.sens n).seen).map fun n => (d.sens n).used

def listMax (xs : List Int) : Option Int := xs.foldl (fun acc x => some (match acc with | none => x | some a => max a x)) none
def listMin (xs : List Int) : Option Int := xs.foldl (fun acc x => some (match acc with | none => x | some a => min a x)) none

/-- A reading deviates from neighbours that agree (R382). -/
def deviates (near : List Int) (v : Int) : Bool :=
  match listMax near, listMin near with
  | some hi, some lo =>
    let n := near.length
    decide (2 ≤ n) && decide (hi - lo ≤ 960) && decide ((v * n - near.sum).natAbs > 960 * n)
  | _, _ => false

/-- The used value of a tile whose sensor has failed (R383). -/
def Dev.substitute (d : Dev) (t : Nat) : Option Int :=
  let far := (d.tilesPresent.filter fun n => !(d.sens n).failed && (d.sens n).seen).map fun n => (d.sens n).used
  ((listMax (d.nearTemps t)).or (listMax far)).map fun v => v + Int.ofNat (d.fld 0xA04 7 0) * 64

/-- A tile's sensor fails (R382). -/
def Dev.sensorFail (d : Dev) (t : Nat) : Dev :=
  (d.setSens t fun s => { s with failed := true, spans := [] }).raiseI 213 { slice := tileSlice t, detail := [t], must := true }

/-- The rate condition after a sample (R387). -/
def Dev.rateCheck (d : Dev) (t : Nat) : Dev :=
  let s := d.sens t
  let span := d.pool / 10000
  let old := s.spans.filter fun x => decide (x.1 < span) && decide (span ≤ x.1 + 10)
  let now := match s.spans.find? fun x => x.1 == span with | some x => min x.2 s.used | none => s.used
  let lim := d.fld 0xA04 23 16
  let rise := s.used - ((listMin (old.map Prod.snd)).elim now fun m => min m now)
  let hot := decide (lim ≠ 0) && decide (rise > Int.ofNat (lim * 64))
  let stay := decide (lim ≠ 0) && s.rate && decide (rise > Int.ofNat (lim * 32))
  let d := d.setSens t fun s => { s with spans := old ++ [(span, now)], rate := hot || stay }
  if hot && !s.rate then d.raise 215 (tileSlice t) else d

/-- TILE_SENSOR_SAMPLE (R380): the thermal manager acts on the sample at the next boundary. -/
def Dev.tileSensorSample (d : Dev) (t : Nat) (raw : Int) : Dev :=
  if d.tilePresent t ∧ d.pool % 16 = t then
    if d.stillRuns 4 (tileSlice t) then d.skipDue 4 (tileSlice t) else d.setSens t fun s => { s with fresh := some raw }
  else d

/-- Act on one sample. -/
def Dev.takeSample (d : Dev) (t : Nat) (v : Int) : Dev :=
  let d := d.setSens t fun s => { s with raw := v, fresh := none, at_ := d.time.loc, seen := true }
  let bad := decide (v < -2560) || decide (v > 9600)
  let d :=
    if (d.sens t).failed then d
    else if bad then
      let d := d.setSens t fun s => { s with inv := s.inv + 1 }
      if (d.sens t).inv ≥ 2 then d.sensorFail t else d
    else
      let dev := deviates (d.nearTemps t) v
      let d := d.setSens t fun s => { s with inv := 0, used := v, dev := if dev then s.dev + 1 else 0 }
      if (d.sens t).dev ≥ 8 then d.sensorFail t else d
  let d := if (d.sens t).failed then d.setSens t fun s => { s with used := (d.substitute t).getD s.used } else d
  let d := d.setSens t fun s => { s with crit := if s.used ≥ 7040 then s.crit + 1 else 0 }
  if bad && !(d.sens t).failed then d else d.rateCheck t

/-! ### Module temperatures (R381) -/

/-- The channel's modules by slot. -/
def Dev.slotDimm (d : Dev) (ch slot : Nat) : Option Dimm := if slot = 0 then (d.chan ch).dimm0 else (d.chan ch).dimm1

/-- The temperature in use of a module. -/
def Dev.moduleTemp (d : Dev) (ch slot : Nat) : Option Int :=
  let t := (d.chan ch).modTemp slot
  if (d.slotDimm ch slot).isNone then none
  else if t.read then some t.temp
  else if !t.unread then none
  else
    let k := ch / 8
    let read := (List.range 16).filterMap fun i =>
      let x := (d.chan (8 * k + i / 2)).modTemp (i % 2)
      if (d.slotDimm (8 * k + i / 2) (i % 2)).isSome && x.read then some x.temp else none
    some ((listMax read).elim (Int.ofNat (d.fld 0xA04 31 24) * 64) fun v => v + Int.ofNat (d.fld 0xA04 7 0) * 64)

/-- Silent-read counts of a module's sensors after one read; a sensor silent for 4 is ignored until bring-up. -/
def silence (old : List Nat) (rs : List (Option Int)) : List Nat :=
  rs.zipIdx.map fun x => let n := old.getD x.2 0; if n ≥ 4 then 4 else if x.1.isSome then 0 else n + 1

/-- One module's sensors are read. -/
def ModTemp.take (t : ModTemp) (now : Nat) (rs : List (Option Int)) : ModTemp :=
  let sil := silence t.silent rs
  let vals := (rs.zip sil).filterMap fun x => if x.2 = 0 then x.1 else none
  let dead := sil.all (· ≥ 4)
  match listMax vals with
  | some v => { read := true, unread := false, temp := v, silent := sil, at_ := now }
  | none => { t with silent := sil, read := t.read && !dead, unread := dead }

/-- DIMM_TEMPERATURE_READ (R381, R214). -/
def Dev.dimmTemperatureRead (d : Dev) (ch : Nat) (readings : List (List (Option Int))) : Dev :=
  if ch ≥ d.nChans ∨ d.pool % 16 ≠ 8 then d
  else
    let d := forAll d [0, 1] fun d s =>
      if (d.slotDimm ch s).isNone then d
      else
        let old := (d.chan ch).modTemp s
        let new := old.take d.time.loc (readings.getD s [])
        let d := d.setChan ch fun c => if s = 0 then { c with t0 := new } else { c with t1 := new }
        if new.unread && !old.unread then d.raiseI 216 { slice := chanSlice ch, detail := [s] } else d
    forAll d rankList fun d r => if (d.rank ch r).st = .active ∧ d.tempMoved ch r then d.startRetrain ch r else d

/-! ### Throttling (R384 to R386) -/

/-- Channel and slot of every module position. -/
def Dev.modulePlaces (d : Dev) : List (Nat × Nat) := (List.range (2 * d.nChans)).map fun i => (i / 2, i % 2)

/-- Why throttling is due at `less` degrees below the levels: KIND, tile, channel. -/
def Dev.hotCause (d : Dev) (less : Nat) : Option (Nat × Nat × Nat) :=
  let tl : Int := (Int.ofNat (d.fld 0xA00 31 24) - Int.ofNat less) * 64
  let ml : Int := (Int.ofNat (d.fld 0xA04 31 24) - Int.ofNat less) * 64
  match d.tilesPresent.find? fun t => (d.sens t).seen && decide ((d.sens t).used ≥ tl) with
  | some t => some (1, t, 0)
  | none =>
    match d.modulePlaces.find? fun p => (d.moduleTemp p.1 p.2).any fun v => decide (v ≥ ml) with
    | some p => some (2, 6 + p.1 / 8, p.1)
    | none =>
      match d.tilesPresent.find? fun t => (d.sens t).rate with
      | some t => some (3, t, 0)
      | none =>
        match (List.range d.nChans).find? fun c => rankList.any fun r => (d.rank c r).hot with
        | some c => some (4, 6 + c / 8, c)
        | none => if d.tilesPresent.all fun t => (d.sens t).failed then some (5, 0, 0) else none

/-- ENFORCEMENT_START (R386). -/
def Dev.enforcementStart (d : Dev) : Dev :=
  let t := d.therm
  if t.throttle ∧ !t.enforced ∧ d.time.loc ≥ t.startAt + d.fld 0xA00 15 0 then
    (d.setTherm fun t => { t with enforced := true }).raise 212 (tileSlice t.tile)
  else d

/-- Throttling starts or ends at a boundary. -/
def Dev.throttleBoundary (d : Dev) : Dev :=
  if d.therm.throttle then
    match d.hotCause (d.fld 0xA00 23 20) with
    | some _ => d.enforcementStart
    | none => (d.setTherm fun t => { t with throttle := false, enforced := false }).raise 211 (tileSlice 0)
  else
    match d.hotCause 0 with
    | none => d
    | some (k, t, c) =>
      let d := d.setTherm fun x => { x with throttle := true, startAt := d.time.loc, kind := k, tile := t, ch := c }
      let d := d.raise 210 (tileSlice t) k
      if d.fld 0xA00 15 0 = 0 then d.enforcementStart else d

/-! ### Critical shutdown (R389, R390) -/

/-- A port slice after a reset of its tile: only its pin and its sticky counts stay. -/
def Head.afterReset (h : Head) : Head := { perst := h.perst, retrains := h.retrains }

/-- What keeps counting through a reset of its tile: counts that only cold reset clears. -/
def Hs.afterReset (h : Hs) : Hs := { ce := h.ce, ue := h.ue }
def Chan.afterReset (c : Chan) : Chan := { ue := c.ue }
def CPort.afterReset (c : CPort) : CPort := { replays := c.replays }
def Mod.afterReset (m : Mod) : Mod := { retrains := m.retrains, retries := m.retries }

/-- Apply `f` to every record of a table, listing none that is the default. -/
def Tbl.mapAll {α : Type} [DecidableEq α] (dflt : α) (f : α → α) (t : Tbl α) : Tbl α :=
  (t.map fun e => (e.1, f e.2)).filter fun e => e.2 ≠ dflt

/-- Reset every tile other than the control tile: links, maps, memories, keys, domains and channels. -/
def Dev.resetTiles (d : Dev) : Dev :=
  let d := if d.hasGuest then d.emit (.gtRst true) else d
  { d with
    heads := Tbl.mapAll {} Head.afterReset d.heads
    wmap := [], frames := [], metaRuns := [], dram := [], poison := [], cist := [], tiles := [], pumps := [], encs := [], decs := []
    books := [], kdoms := [], hs := Tbl.mapAll {} Hs.afterReset d.hs, reads := [], promos := [], doms := [], remDown := [], remAt := [], dry := [], overLimit := false
    chans := Tbl.mapAll {} Chan.afterReset d.chans, cas := { ports := Tbl.mapAll {} CPort.afterReset d.cas.ports }
    mods := Tbl.mapAll {} Mod.afterReset d.mods, gst := { violations := d.gst.violations, rstAt := d.time.loc } }

/-- Pull down every bay's gate without the sequence of R379. -/
def Dev.bayCut (d : Dev) : Dev :=
  { d with bays := d.bays.map fun b =>
      (b.1, if b.2.st = .latched ∨ b.2.st = .empty then b.2 else b.2.rest (if b.2.vacant then .empty else .off)) }

/-- The device latches off because of a tile (R389). -/
def Dev.latchOff (d : Dev) (t : Nat) : Dev :=
  let temps := (List.range 11).map fun n => twos 16 (d.sens n).used
  let d := d.raiseI 4 { slice := tileSlice t, must := true, detail := [t, twos 16 (d.sens t).used, twos 16 (d.sens t).raw] ++ temps ++ [d.pool] }
  let d := d.bayCut.resetTiles
  let d := (((d.setRail 0 600).setRail 1 600).setRail 2 600).setRail 3 600
  let d := d.setPwr fun p => { p with st := 0, target := 0, entering := false, waking := false, done := 0, stepBusy := false, retryAt := none }
  { d with resetDue := none }.setTherm fun x => { x with latched := true, tile := t }

/-- What the thermal manager does at a boundary: samples, shutdown, throttling, and ledger records held for want of a window. -/
def Dev.thermalBoundary (d : Dev) : Dev :=
  let d := forAll d d.tilesPresent fun d t => match (d.sens t).fresh with | some v => d.takeSample t v | none => d
  let d := if d.ev.queue.isEmpty && d.led.mram.isNone then d else d.drainLedger
  if d.therm.latched then d
  else
    match d.tilesPresent.find? fun t => decide ((d.sens t).crit ≥ 2) with
    | some t => d.latchOff t
    | none => d.throttleBoundary

/-- The hottest tile: its used value and ID. -/
def Dev.hottest (d : Dev) : Int × Nat :=
  (d.tilesPresent.foldl (fun (acc : Option (Int × Nat)) t =>
    match acc with
    | none => some ((d.sens t).used, t)
    | some a => if (d.sens t).used > a.1 then some ((d.sens t).used, t) else acc) none).getD (0, 0)

/-- THERMAL_RESUME (R390). -/
def Dev.thermalResume (d : Dev) (src : Src) (p : List Byte) : Dev :=
  d.gated src { manager := true, latched := true } fun d =>
  d.vend src p p.isEmpty true fun d =>
    let h := d.hottest
    if !d.therm.latched then d.reply src .invalidInput
    else if h.1 ≥ 5760 then d.reply src .retryRequired 0x0105 (sliceOut (tileSlice h.2))
    else
      ({ d with resetDue := some (d.time.loc + 2) }).reply src .success 0 (leBytes 2 (twos 16 h.1) ++ leBytes 1 h.2 ++ leBytes 1 0)

/-! ### Commands -/

/-- TILE_SENSOR_SAMPLE (R380). -/
def execTileSensorSample (tile : Nat) (raw : Int) (s : State) : Host.Outcome State Fault Refusal :=
  s.done (s.dev.tileSensorSample tile raw)

/-- DIMM_TEMPERATURE_READ (R381). -/
def execDimmTemperatureRead (ch : Nat) (readings : List (List (Option Int))) (s : State) : Host.Outcome State Fault Refusal :=
  s.done (s.dev.dimmTemperatureRead ch readings)

/-- ENFORCEMENT_START (R386). -/
def execEnforcementStart (s : State) : Host.Outcome State Fault Refusal := s.done s.dev.enforcementStart

/-- THERMAL_RESUME (R390). -/
def execThermalResume (src : Src) (payload : List Byte) (s : State) : Host.Outcome State Fault Refusal :=
  s.mail src (.thermalResume src payload) (s.dev.thermalResume src payload)

end Sys2Proof.Machine
end

