-- ==== Sys2Proof/Machine/Monitor.lean ====
section
/-! DEFINITION. Events after they are raised (R396 to R400): clearing, pins, logs and their commands; counters (R405 to R412),
bandwidth windows (R413 to R415) and the perturbation unit (R416 to R418). -/

namespace Sys2Proof.Machine

open Sys2Proof

/-! ### Pending bits and the pins (R396, R397) -/

/-- Clear the pending bits of word `w` that a mask names; the release of `FAULT_N` is timed from the last N bit. -/
def Dev.clearPend (d : Dev) (w : Nat) (mask : BitVec 32) : Dev :=
  let had := d.anyN
  let d := { d with ev := { d.ev with pend := d.ev.pend &&& ~~~(mask.zeroExtend 256 <<< (32 * w)) } }
  if had && !d.anyN then { d with ev := { d.ev with faultClear := d.time.loc, firstN := 0 } } else d

/-- EVENT_PENDING_CLEAR (R396): a write of `CT_EV_PEND_w`. -/
def Dev.eventPendingClear (d : Dev) (src : Src) (w : Nat) (mask : BitVec 32) : Dev :=
  if d.regOk src && decide (w < 8) then d.clearPend w mask else d

/-- FAULT_N_RELEASE (R397): 1 µs after the last N pending bit is cleared. -/
def Dev.faultNRelease (d : Dev) : Dev :=
  if d.ev.faultPin && !d.anyN && decide (d.time.loc ≥ d.ev.faultClear + 1) then { d with ev := { d.ev with faultPin := false } } else d

/-! ### The ledger's patrol (R401) -/

/-- A journal record that reads as absent. -/
def absentRec : JRec := { seq := 0, stroke := 0, loc := 0, ev := 0, cause := 0, slice := 0, rep := 0, detail := [] }

/-- An uncorrectable word in the state block: the other copy is used; with neither good, the floor is that of R329 and every slot
state reads None. -/
def Ledger.lose (l : Ledger) (current : Bool) : Ledger :=
  if !current then { l with prev := none }
  else match l.prev with
    | some b =>
      { l with prev := none, seq := l.seq - 1, floor := b.floor, slotA := b.slotA, slotB := b.slotB, decision := b.decision,
               decVer := b.decVer, decDigest := b.decDigest, decStroke := b.decStroke, chain := l.chain.take b.chainLen }
    | none => { l with floorBad := true, slotA := 0, slotB := 0, decision := 0, decVer := 0#32, decDigest := 0#64, decStroke := 0, chain := [] }

/-- What the patrol does about a ledger word (R401): EV252 for a corrected one, EV005 for one that cannot be. -/
def Dev.ledgerFind (d : Dev) (x : SramFind) : Dev :=
  let bad (f : Ledger → Ledger) : Dev := { d with led := f d.led }.raise 5 (tileSlice 0)
  match x with
  | .ledgerSingle => d.raise 252 (tileSlice 0)
  | .ledgerState c => bad fun l => l.lose c
  | .ledgerPinned n => bad fun l => { l with pinned := Tbl.del l.pinned n }
  | .ledgerJournal i => bad fun l => { l with journal := l.journal.set i absentRec }
  | .ledgerRepair i => bad fun l => { l with repairs := l.repairs.eraseIdx i }
  | .ledgerChain => bad fun l => { l with chain := [] }
  | _ => d

/-! ### Event logs (R399) -/

/-- The destination of a sender's own logs. -/
def srcDest : Src → Nat
  | .head h => h
  | .mctp => 16

/-- The log that a number names. -/
def logOf : Nat → Option LogId
  | 0 => some .info | 1 => some .warning | 2 => some .failure | 3 => some .fatal | _ => none

/-- The detail bytes of a vendor record from byte 20 of its payload (R402, R410, R341, R188): those that a chapter defines. -/
def detailBytes (r : EvRec) : List Byte :=
  let two := (r.detail.map (leBytes 2)).flatten
  let bs :=
    if r.ev = 4 then leBytes 2 (r.detail.getD 0 0) ++ leBytes 2 (r.detail.getD 2 0) ++ ((r.detail.drop 3).take 11 |>.map (leBytes 2)).flatten
    else if r.ev = 240 then leBytes 1 (r.detail.getD 0 0) ++ leBytes 1 (r.detail.getD 1 0)
    else if r.ev ∈ [3, 111, 137, 181, 201, 202, 203, 204, 256] then two
    else []
  sub bs 0 60

/-- A UUID's bytes in the order its text gives them. -/
def uuidBytes (n : Nat) : List Byte := (leBytes 16 n).reverse

/-- The UUID of a record: the Harluod event UUID (R465); those of the CXL kinds are CXL 3.1's (PRESUMED, log entry 60). -/
def RecKind.uuid : RecKind → List Byte
  | .vendor => uuidBytes 0x5a1c9e047b3d4f62a8e10c94d27b6f13
  | .generalMedia => uuidBytes 0xfbcd0a77c260417f85a9088b1621eba6
  | .dram => uuidBytes 0x601dcbb39c064eabb8af4e9bfb5c9624
  | .memoryModule => uuidBytes 0xfe927475dd594339a58679bab113b774

/-- The vendor record's class code; a record that no event stands behind is of class I. -/
def recClass (n : Nat) : Nat := (evClass n).getD 2

/-- A record's payload (R400; R250 for the CXL kinds). -/
def EvRec.payload (r : EvRec) : List Byte :=
  match r.kind with
  | .vendor =>
    leBytes 2 r.ev ++ leBytes 1 (recClass r.ev) ++ leBytes 1 r.cause ++ leBytes 8 r.stroke ++ leBytes 2 r.slice ++
      leBytes 2 (min r.rep 65535) ++ leBytes 2 r.dropped ++ leBytes 2 0 ++ detailBytes r
  | .generalMedia => sub (Config.cxlBytes 1 r.detail) 0 80
  | .dram => sub (Config.cxlBytes 2 r.detail) 0 80
  | .memoryModule => sub (Config.cxlBytes 3 r.detail) 0 80

/-- A 128-byte event record: UUID, length, flags with the severity, handle, time stamp, payload. -/
def EvRec.bytes (l : LogId) (r : EvRec) : List Byte :=
  r.kind.uuid ++ leBytes 1 128 ++ leBytes 3 l.num ++ leBytes 2 r.handle ++ leBytes 2 0 ++ leBytes 8 r.ts ++ leBytes 16 0 ++ r.payload

/-- GET_EVENT_RECORDS (R399): the records of one of the sender's logs, with its overflow indication, count and time stamps. -/
def Dev.getEventRecords (d : Dev) (src : Src) (n : Nat) : Dev :=
  d.gated src { unprimed := true } fun d =>
    match logOf n with
    | none => d.reply src .invalidInput
    | some l =>
      let g := d.log (logKey (srcDest src) l)
      -- over MCTP as many records as its messages hold (R76), with More Event Records
      let rs := if src = .mctp then g.recs.take 31 else g.recs
      d.reply src .success 0
        (leBytes 1 (b2n g.overflow + 2 * b2n (decide (rs.length < g.recs.length))) ++ leBytes 1 0 ++ leBytes 2 g.count ++
          leBytes 8 g.firstTs ++ leBytes 8 g.lastTs ++ leBytes 2 rs.length ++ leBytes 10 0 ++ (rs.map (EvRec.bytes l)).flatten)

/-- A log without some of its records: its overflow indication clears when one is removed. -/
def EvLog.without (g : EvLog) (all : Bool) (hs : List Nat) : EvLog :=
  let rs := if all then [] else g.recs.filter fun r => !hs.contains r.handle
  if rs.length < g.recs.length then { g with recs := rs, overflow := false, count := 0, firstTs := 0, lastTs := 0 } else g

/-- CLEAR_EVENT_RECORDS (R399): a handle that matches no record completes with Invalid Handle. -/
def Dev.clearEventRecords (d : Dev) (src : Src) (n : Nat) (all : Bool) (hs : List Nat) : Dev :=
  d.gated src { unprimed := true } fun d =>
    match logOf n with
    | none => d.reply src .invalidInput
    | some l =>
      let k := logKey (srcDest src) l
      if !all && hs.any fun h => !((d.log k).recs.any fun r => r.handle == h) then d.reply src .invalidHandle
      else (d.setLog k fun g => g.without all hs).reply src .success

/-- SET_EVENT_INTERRUPT_POLICY (R399): a head's own setting. -/
def Dev.setEventInterruptPolicy (d : Dev) (src : Src) (v : BitVec 32) : Dev :=
  d.gated src {} fun d =>
    match src with
    | .head h => (d.setHead h fun x => { x with policy := v }).reply src .success
    | .mctp => d.reply src .unsupported

/-! ### Counters (R405 to R412) -/

/-- The window and tiles of the slices that a signal takes (R406). -/
def sigTakes (sig slice : Nat) : Bool :=
  let tile := slice / 256
  let win := slice / 16 % 16
  if sig = 1 then true
  else if sig = 2 ∨ sig = 3 then decide (2 ≤ tile) && decide (tile ≤ 5) && win == 1
  else if sig = 4 ∨ sig = 5 then decide (2 ≤ tile) && decide (tile ≤ 5) && win == 2
  else if 6 ≤ sig ∧ sig ≤ 16 then
    decide (6 ≤ tile) && decide (tile ≤ 9) &&
      win == (if sig ≤ 9 then 2 else if sig ≤ 13 then 1 else if sig = 14 then 5 else if sig = 15 then 3 else 4)
  else false

/-- A counter's signal and slice: counters 0 to 255 count their own event. -/
def Dev.cntSource (d : Dev) (n : Nat) : Nat × Nat := if n < 256 then (0, n) else ((d.cnt n).sig, (d.cnt n).slice)

/-- BAD: the selection names no valid source (R406). -/
def Dev.cntBad (d : Dev) (n : Nat) : Bool :=
  let (sig, slice) := d.cntSource n
  sig != 0 && !(sigTakes sig slice && d.slicePresent slice)

/-- The configuration bits that a write to counter `n` sets: MODE 3 is taken as 0; SIG and SLICE of an event's own counter are fixed. -/
def cntValue (n : Nat) (v : BitVec 32) : BitVec 32 :=
  let mode := if bits v.toNat 31 30 = 3 then 0#32 else v &&& 0xC0000000#32
  let low := if n < 256 then BitVec.ofNat 32 (n * 256) else v &&& 0x0F8FFF00#32
  mode ||| (v &&& 0x20000000#32) ||| low

/-- A write of `CT_CNT_CFG_n` (R409, R410): with OVF 1 it clears OVF at once and changes nothing else; with OVF 0 it reprograms. -/
def Dev.cntWrite (d : Dev) (n : Nat) (v : BitVec 32) : Dev :=
  if 1024 ≤ n then d
  else if v.getLsbD 28 then d.setCnt n fun c => { c with ovf := false }
  else d.setCnt n fun c => { c with want := some (cntValue n v) }

/-- COUNTER_REPROGRAM (R409): it takes effect at step 3 of the next boundary. -/
def Dev.counterReprogram (d : Dev) (src : Src) (n : Nat) (v : BitVec 32) : Dev :=
  if d.regOk src && !v.getLsbD 28 then d.cntWrite n v else d

/-- COUNTER_OVF_CLEAR (R410). -/
def Dev.counterOvfClear (d : Dev) (src : Src) (n : Nat) : Dev := if d.regOk src then d.cntWrite n 0x10000000#32 else d

/-- Add to a counter, raising EV240 where it wraps (R410). -/
def Dev.cntAdd (d : Dev) (n k : Nat) : Dev :=
  let (c, w) := (d.cnt n).add k
  let d := d.setCnt n fun _ => c
  if w then d.raiseI 240 (wrapInfo n) else d

/-- The counter is assigned to a unit that is not fitted (R5). -/
def Dev.cntAbsent (d : Dev) (n : Nat) : Bool := (d.cntSource n).1 != 0 && !d.slicePresent (d.cntSource n).2

/-- The clock that a counter's source counts runs: cycle-based quantities advance only then (R41). -/
def Dev.cntRuns (d : Dev) (n : Nat) : Bool := (d.cntSource n).1 == 0 || d.clockRuns (d.cntSource n).2

/-- COUNTER_WRAP (R410): the source's increments take COUNT past 2^48 − 1. Edge counts of events wrap in their own raises. -/
def Dev.counterWrap (d : Dev) (n inc : Nat) : Dev :=
  let c := d.cnt n
  if n < 1024 ∧ c.mode ≠ 0 ∧ !d.cntBad n ∧ d.cntRuns n ∧ !(c.mode == 1 && (d.cntSource n).1 == 0) ∧ c.count + inc ≥ 2 ^ 48 then d.cntAdd n inc else d

/-- What one stroke adds to a counter, from the totals of its source (R406): occurrences and cycles in which the condition held. A
source whose clock does not run adds no occurrence and no cycle (R41); under CLOCK 1 it adds the stroke if its condition held. -/
def Dev.cntGain (d : Dev) (sigs : List (Nat × Nat × Nat × Nat)) (n : Nat) : Nat :=
  let c := d.cnt n
  let (sig, slice) := d.cntSource n
  let slice := if sig = 0 then slice % 256 else slice
  let mine := sigs.filter fun x => x.1 == sig && x.2.1 == slice
  let occ := (mine.map fun x => x.2.2.1).sum
  let cyc := (mine.map fun x => x.2.2.2).sum
  if d.cntBad n then 0
  else if c.mode = 1 then (if sig = 0 ∨ !d.cntRuns n then 0 else occ)
  else if c.mode = 2 then
    (if c.clock = 0 then (if d.cntRuns n then cyc else 0) else b2n (decide (0 < cyc) || (sig == 0 && d.ev.pend.getLsbD slice)))
  else 0

/-- Step 3 of a boundary: the stroke just ended counts under the old configuration, then reprograms take effect (R409). -/
def Dev.cntBoundary (d s0 : Dev) (sigs : List (Nat × Nat × Nat × Nat)) : Dev :=
  let d := forAll d (s0.cnts.map Prod.fst) fun d n => let g := s0.cntGain sigs n; if g = 0 then d else d.cntAdd n g
  forAll d (s0.cnts.map Prod.fst) fun d n =>
    match (s0.cnt n).want with
    | none => d
    | some v => d.setCnt n fun c => { cfg := v, gen := (c.gen + 1) % 256 }

/-- `CT_CNT_n` (R411); the counter of an event that is not used reads zero (R395), and so does one assigned to an absent unit (R5). -/
def Dev.cntRead (d : Dev) (n : Nat) : Nat :=
  let c := d.cnt n
  if (n < 256 ∧ evClass n = none) ∨ d.cntAbsent n then 0 else c.gen * 2 ^ 56 + b2n c.ovf * 2 ^ 48 + c.count

/-- READ_COUNTERS (R412). -/
def Dev.readCounters (d : Dev) (src : Src) (p : List Byte) : Dev :=
  d.gated src { manager := true } fun d =>
    let m := fieldAt p 0 2
    d.vend src p (decide (8 ≤ p.length) && p.length == 8 + 2 * m) (zeros (sub p 2 6)) fun d =>
      let ns := (List.range m).map fun i => fieldAt p (8 + 2 * i) 2
      if m = 0 ∨ 256 < m ∨ ns.any fun n => decide (1023 < n) then d.reply src .invalidInput
      else d.reply src .success 0 (leBytes 8 d.pool ++ leBytes 8 d.pool ++ (ns.map fun n => leBytes 8 (d.cntRead n)).flatten)

/-! ### Bandwidth windows (R413 to R415) -/

/-- A source that is fitted. -/
def Dev.bwPresent (d : Dev) (s : Nat) : Bool :=
  if s < 16 then decide (s < d.nHosts) else if s < 32 then decide (s - 16 < d.nHosts) else decide (s < 64) && decide (s - 32 < d.nChans)

/-- A write of `CT_BW_CFG_s`: K takes effect at the next boundary; a 1 in bit 8 clears MISSED. -/
def Dev.bwWrite (d : Dev) (s : Nat) (v : BitVec 32) : Dev :=
  if s < 64 then
    d.setBw s fun b => { b with want := some (min 20 (bits v.toNat 31 27)), missed := if v.getLsbD 8 then 0 else b.missed }
  else d

/-- BANDWIDTH_WINDOW_CONFIG (R415). -/
def Dev.bandwidthWindowConfig (d : Dev) (src : Src) (s : Nat) (v : BitVec 32) : Dev := if d.regOk src then d.bwWrite s v else d

/-- Put a window's results into the registers not written last. -/
def Bw.close (b : Bw) (part : Bool) : Bw :=
  let n := (b.seq + 1) % 65536
  let p := part || b.partialWin
  let x := (n, p, b.acc0 % 2 ^ 47, false)
  let y := (n, p, b.acc1 % 2 ^ 47, false)
  let b := { b with seq := n, partialWin := false, acc0 := 0, acc1 := 0 }
  if b.toggle then { b with r01 := x, r11 := y, toggle := false } else { b with r00 := x, r10 := y, toggle := true }

/-- The results that closing overwrites unread. -/
def Bw.unread (b : Bw) : Nat :=
  if b.toggle then b2n (!b.r01.2.2.2) + b2n (!b.r11.2.2.2) else b2n (!b.r00.2.2.2) + b2n (!b.r10.2.2.2)

/-- A window closes (R414): a result overwritten unread counts in MISSED and raises EV243. -/
def Dev.bwClose (d : Dev) (s : Nat) (part : Bool) : Dev :=
  let u := (d.bw s).unread
  let d := d.setBw s fun b => { b.close part with missed := min 255 (b.missed + u), doneAt := d.time.loc + 1 }
  forAll d (List.range u) fun d _ => d.raise 243 (tileSlice 0)

/-- Every open window closes at a boundary at which the pool count is stepped or rewritten (R415). -/
def Dev.bwCloseAll (d : Dev) : Dev := forAll d ((List.range 64).filter d.bwPresent) fun d s => if (d.bw s).doneAt = d.time.loc + 1 then d else d.bwClose s true

/-- The slice of a bandwidth source. -/
def bwSlice (s : Nat) : Nat := if s < 16 then headSlice s else if s < 32 then portSlice (s - 16) else chanSlice (s - 32)

/-- BANDWIDTH_WINDOW_CLOSE (R414): at a boundary S with S mod 2^K = 0, once; skipped while an earlier close still runs (R46). -/
def Dev.bandwidthWindowClose (d : Dev) (s : Nat) : Dev :=
  if d.bwPresent s ∧ d.pool % 2 ^ (d.bw s).k = 0 ∧ (d.bw s).doneAt ≠ d.time.loc + 1 then
    if d.stillRuns 5 (bwSlice s) then (d.setBw s fun b => { b with doneAt := d.time.loc + 1 }).skipDue 5 (bwSlice s) else d.bwClose s false
  else d

/-- The windows that end at this boundary close (R414, R47 step 3). -/
def Dev.bwCloseDue (d : Dev) : Dev := forAll d (List.range 64) Dev.bandwidthWindowClose

/-- The slices report their totals at a boundary, a gated one nothing (R413); the windows that end here close, all of them where the
pool count was rewritten; then a written K takes effect (R414, R415). -/
def Dev.bwBoundary (d s0 : Dev) (xs : List (Nat × Nat × Nat)) (all : Bool) : Dev :=
  let d := forAll d xs fun d x =>
    if d.bwPresent x.1 && s0.clockRuns (bwSlice x.1) then
      d.setBw x.1 fun b => if x.2.1 = 0 then { b with acc0 := b.acc0 + x.2.2 } else { b with acc1 := b.acc1 + x.2.2 }
    else d
  let d := if all then d.bwCloseAll else d.bwCloseDue
  forAll d (s0.bws.map Prod.fst) fun d s =>
    match (s0.bw s).want with
    | none => d
    | some k => d.setBw s fun b => { b with k := k, want := none, acc0 := 0, acc1 := 0, partialWin := true, doneAt := d.time.loc + 1 }

/-! ### The perturbation unit (R416 to R418) -/

/-- The unit is usable: bit 0 of DBG_SCOPE is set (R416). -/
def Dev.pertOpen (d : Dev) : Bool := d.sec.scope.getLsbD 0

/-- A target of the type that a kind takes. -/
def pertTakes (kind slice : Nat) : Bool :=
  let tile := slice / 256
  let win := slice / 16 % 16
  let io := decide (2 ≤ tile) && decide (tile ≤ 5)
  let mt := decide (6 ≤ tile) && decide (tile ≤ 9)
  match kind with
  | 1 => (io && (win == 1 || win == 2)) || (mt && (win == 1 || win == 2))
  | 2 => io && (win == 1 || win == 2)
  | 3 => mt && win == 1
  | 4 => slice == 0
  | 5 => mt && (win == 5 || slice % 256 == 0)
  | 6 => mt && win == 2
  | 7 => mt && win == 2
  | _ => false

def pertMagOk (kind mag : Nat) : Bool :=
  match kind with
  | 1 => decide (1 ≤ mag) && decide (mag ≤ 100)
  | 4 => decide (1 ≤ mag) && decide (mag ≤ 100)
  | 5 => true
  | _ => decide (1 ≤ mag) && decide (mag ≤ 1023)

/-- START with the high bits of the pool stroke count (`CT_PERT_START_p`). -/
def Dev.pertStart (d : Dev) (p : Nat) : Nat := d.pool / 2 ^ 32 * 2 ^ 32 + (d.pert p).start

/-- A write of GO (R417): check the slot, queue its entry and arm it, or say why not. -/
def Dev.pertGo (d : Dev) (p : Nat) : Except (Ret × Bool) Dev :=
  let x := d.pert p
  if !(pertTakes x.kind x.target && d.slicePresent x.target && pertMagOk x.kind x.mag) || x.dur == 0 || x.st != 0 then
    .error (.invalidInput, false)
  else match d.queueAct (d.pertStart p) 3 (.pert p) with
    | .error r => .error (r, true)
    | .ok d => .ok (d.setPert p fun x => { x with st := 1 })

/-- PERTURBATION_GO (R417): the command that writes GO completes with what R49 says where the entry is refused. -/
def Dev.perturbationGo (d : Dev) (src : Src) (p : Nat) : Dev :=
  if d.regOk src && d.pertOpen && decide (p < 8) then
    match d.pertGo p with
    | .ok d => d.reply src .success
    | .error (r, late) => (if late then d.raise 51 (tileSlice 0) else d).reply src r
  else d

/-- A write of STOP: an armed or active slot ends at the next boundary. -/
def Dev.pertStop (d : Dev) (p : Nat) : Dev := if (d.pert p).st = 0 then d else d.setPert p fun x => { x with stop := true }

/-- PERTURBATION_STOP (R417). -/
def Dev.perturbationStop (d : Dev) (src : Src) (p : Nat) : Dev :=
  if d.regOk src && d.pertOpen && decide (p < 8) then d.pertStop p else d

/-- A slot ends; an armed slot's entry leaves the queue. -/
def Dev.pertEnd (d : Dev) (p : Nat) : Dev :=
  { d.setPert p fun x => { x with st := 0, stop := false } with acts := d.acts.filter fun a => a.kind != .pert p }

/-- A perturbation starts (R417), at step 4 of the boundary of START; it ends at START + DURATION. -/
def Dev.pertBegin (d : Dev) (p start : Nat) : Dev :=
  if (d.pert p).st = 1 then (d.setPert p fun x => { x with st := 2, endAt := start + x.dur }).raise 241 (d.pert p).target else d

/-- PERTURBATION_EXPIRY (R417): at START + DURATION. -/
def Dev.perturbationExpiry (d : Dev) (p : Nat) : Dev :=
  if p < 8 ∧ (d.pert p).st = 2 ∧ d.pool ≥ (d.pert p).endAt then (d.pertEnd p).raise 242 (d.pert p).target else d

/-- At a boundary: slots with STOP written end, and all of them when scope bit 0 has closed (R417). -/
def Dev.pertBoundary (d s0 : Dev) : Dev :=
  forAll d (List.range 8) fun d p =>
    if (d.pert p).st ≠ 0 ∧ ((s0.pert p).stop ∨ !d.pertOpen) then d.pertEnd p else d

/-! ### Commands -/

/-- EVENT_PENDING_CLEAR (R396). -/
def execEventPendingClear (src : Src) (w : Nat) (mask : BitVec 32) (s : State) : Host.Outcome State Fault Refusal :=
  s.mail src (.eventPendingClear src w mask) (s.dev.eventPendingClear src w mask)

/-- FAULT_N_RELEASE (R397). -/
def execFaultNRelease (s : State) : Host.Outcome State Fault Refusal := s.done s.dev.faultNRelease

/-- GET_EVENT_RECORDS (R399). -/
def execGetEventRecords (src : Src) (log : Nat) (s : State) : Host.Outcome State Fault Refusal :=
  s.mail src (.getEventRecords src log) (s.dev.getEventRecords src log)

/-- CLEAR_EVENT_RECORDS (R399). -/
def execClearEventRecords (src : Src) (log : Nat) (all : Bool) (handles : List Nat) (s : State) :
    Host.Outcome State Fault Refusal :=
  s.mail src (.clearEventRecords src log all handles) (s.dev.clearEventRecords src log all handles)

/-- SET_EVENT_INTERRUPT_POLICY (R399). -/
def execSetEventInterruptPolicy (src : Src) (policy : BitVec 32) (s : State) : Host.Outcome State Fault Refusal :=
  s.mail src (.setEventInterruptPolicy src policy) (s.dev.setEventInterruptPolicy src policy)

/-- READ_COUNTERS (R412). -/
def execReadCounters (src : Src) (payload : List Byte) (s : State) : Host.Outcome State Fault Refusal :=
  s.mail src (.readCounters src payload) (s.dev.readCounters src payload)

/-- COUNTER_REPROGRAM (R409). -/
def execCounterReprogram (src : Src) (n : Nat) (value : BitVec 32) (s : State) : Host.Outcome State Fault Refusal :=
  s.mail src (.counterReprogram src n value) (s.dev.counterReprogram src n value)

/-- COUNTER_OVF_CLEAR (R410). -/
def execCounterOvfClear (src : Src) (n : Nat) (s : State) : Host.Outcome State Fault Refusal :=
  s.mail src (.counterOvfClear src n) (s.dev.counterOvfClear src n)

/-- COUNTER_WRAP (R410). -/
def execCounterWrap (n : Nat) (inc : Nat) (s : State) : Host.Outcome State Fault Refusal := s.done (s.dev.counterWrap n inc)

/-- BANDWIDTH_WINDOW_CONFIG (R415). -/
def execBandwidthWindowConfig (src : Src) (n : Nat) (value : BitVec 32) (s : State) : Host.Outcome State Fault Refusal :=
  s.mail src (.bandwidthWindowConfig src n value) (s.dev.bandwidthWindowConfig src n value)

/-- BANDWIDTH_WINDOW_CLOSE (R414). -/
def execBandwidthWindowClose (n : Nat) (s : State) : Host.Outcome State Fault Refusal := s.done (s.dev.bandwidthWindowClose n)

/-- PERTURBATION_GO (R417). -/
def execPerturbationGo (src : Src) (p : Nat) (s : State) : Host.Outcome State Fault Refusal := s.mail src (.perturbationGo src p) (s.dev.perturbationGo src p)

/-- PERTURBATION_STOP (R417). -/
def execPerturbationStop (src : Src) (p : Nat) (s : State) : Host.Outcome State Fault Refusal :=
  s.mail src (.perturbationStop src p) (s.dev.perturbationStop src p)

/-- PERTURBATION_EXPIRY (R417). -/
def execPerturbationExpiry (p : Nat) (s : State) : Host.Outcome State Fault Refusal := s.done (s.dev.perturbationExpiry p)

end Sys2Proof.Machine
end

