-- ==== Sys2Proof/Machine/Guest.lean ====
section
/-! DEFINITION. The Chroten fabric and the guest tile (R419 to R444). -/

namespace Sys2Proof.Machine

open Sys2Proof

def Dev.setGst (d : Dev) (f : GuestSt → GuestSt) : Dev := { d with gst := f d.gst }

/-! ### Request classes (R176) -/

/-- The class of a MemRd by its MetaValue. -/
def readKind : MetaV → ReqKind
  | .i => .uncachedRead | .s => .sharedRead | .a => .ownRead

/-! ### Modules (R419 to R422, R425) -/

/-- The tile of a module, by the hub's module numbers. -/
def modTile (m : Nat) : Nat :=
  if m = 0 then 0 else if m < 25 then 2 + (m - 1) / 6 else if m < 49 then 6 + (m - 25) / 6 else 10

/-- The modules of a tile other than the hub. -/
def tileMods (t : Nat) : List Nat := (List.range 53).filter fun m => modTile m == t

def Dev.modPresent (d : Dev) (m : Nat) : Bool := decide (m < 53) && d.tilePresent (modTile m)

/-- A guest module that is up, in L1 or not. -/
def Dev.anyGuestMod (d : Dev) : Bool := guestMods.any fun m => (d.modu m).st == 2 || (d.modu m).st == 3

/-- CHROTEN_MODULE_UP (R419): a module has trained; a retrain is counted and raises EV220. -/
def Dev.chrotenModuleUp (d : Dev) (m rate : Nat) (repaired : Bool) : Dev :=
  let x := d.modu m
  if d.modPresent m ∧ (x.st = 0 ∨ x.st = 1) ∧ 1 ≤ rate ∧ rate ≤ 6 then
    let d := d.setMod m fun y =>
      { y with st := 2, rate := rate, repaired := repaired, trained := true,
               retrains := if y.trained then satInc 255 y.retrains else y.retrains }
    (if x.trained then d.raise 220 (tileSlice (modTile m)) else d).flushGuest
  else d

/-- The guest fails (R436): detected now, acted on at the next boundary; its domains serve no new request from now on. -/
def Dev.guestFail (d : Dev) (cause : Nat) : Dev :=
  if (d.gst.st = 1 ∨ d.gst.st = 2) ∧ d.gst.failPend.isNone then (d.setGst fun g => { g with failPend := some cause }).guestDead else d

/-- A module goes down (R419): it trains again, or is taken out of use when it cannot repair or has left the active state more
than 4 times within 2^20 strokes. -/
def Dev.moduleDown (d : Dev) (m : Nat) (cannotRepair : Bool) : Dev :=
  let x := d.modu m
  let now := (x.leaves.filter fun t => decide (d.time.loc < t + 2 ^ 20)) ++ (if x.st = 2 ∨ x.st = 3 then [d.time.loc] else [])
  let off := cannotRepair || decide (now.length > 4)
  let d := d.setMod m fun y => { y with st := if off then 4 else 1, rate := 0, repaired := false, leaves := now }
  let d := if off then d.raise 221 (tileSlice (modTile m)) else d
  let d := if modTile m = 10 ∧ !d.anyGuestMod then d.setGst fun g => { g with noneUp := d.time.loc } else d
  if (tileMods 10).all fun j => (d.modu j).st == 4 then d.guestFail 1 else d

/-- A tile with no module in use, whose loss resets the device: a memory tile, a port tile, or the hub itself (R425). -/
def Dev.cutOff (d : Dev) (m : Nat) : Bool :=
  let t := modTile m
  (decide (2 ≤ t) && decide (t ≤ 9) && (tileMods t).all fun j => (d.modu j).st == 4) ||
    ((List.range 53).filter d.modPresent).all fun j => (d.modu j).st == 4

/-- Slots of a Chroten message by its opcode; 0 for an opcode that is not used (R421). -/
def chrotenSlots (op : Nat) : Nat :=
  if op ∈ [0x00, 0x01, 0x02, 0x03, 0x04, 0x07, 0x21, 0x22, 0x23, 0x24, 0x25, 0x30, 0x31, 0x32, 0xFF] then 1
  else if op ∈ [0x05, 0x20, 0x34] then 5
  else if op = 0x06 then 6
  else 0

/-- A message of the guest that the fabric discards is counted (R421, R443). -/
def Dev.violate (d : Dev) : Dev := d.setGst fun g => { g with violations := satInc 65535 g.violations }

/-- CHROTEN_FLIT_RECEIVE (R420, R421): a flit that fails its CRC is retried; a malformed message is discarded. -/
def Dev.chrotenFlitReceive (d : Dev) (m : Nat) (crcOk : Bool) (op size : Nat) : Dev :=
  if !(d.modPresent m && (d.modu m).st == 2) then d
  else if !crcOk then
    ((d.setMod m fun x => { x with retries := satInc 255 x.retries }).emit (.chroten m 1)).raise 222 (tileSlice (modTile m))
  else if chrotenSlots op ≠ 0 ∧ size + 1 = chrotenSlots op then d
  else if modTile m = 10 then d.violate.raise 225 0xA00
  else d.raise 7 (tileSlice (modTile m))

/-- CREDIT_RETURN (R422): slots returned for REQ, WR, RSP and SNP. -/
def Dev.creditReturn (d : Dev) (m : Nat) (slots : List Nat) : Dev :=
  if d.modPresent m && (d.modu m).st == 2 then
    (d.setMod m fun x => { x with credits := (x.credits.zipIdx).map fun c => c.1 + slots.getD c.2 0 }).flushGuest
  else d

/-! ### Attaching (R427, R428, R437) -/

/-- GUEST_RESET_RELEASE (R427): 1 ms after the guest's reset began. -/
def Dev.guestResetRelease (d : Dev) : Dev :=
  if d.hasGuest ∧ d.gst.st = 0 ∧ d.time.loc ≥ d.gst.rstAt + 1000 then
    (d.setGst fun g => { g with st := 1, relAt := d.time.loc, noneUp := d.time.loc }).emit (.gtRst false)
  else d

/-- What an Attach message must say (R427). -/
def Dev.attachOk (d : Dev) (caps : BitVec 32) (credits : List Nat) : Bool :=
  let rate := bits caps.toNat 27 25
  decide (1 ≤ rate) && decide (rate ≤ 6) && credits.length == 4 && credits.all (fun c => decide (16 ≤ c)) &&
    (List.range (bits caps.toNat 29 28 + 1)).all fun i => (d.modu (49 + i)).st == 2

/-- ATTACH (R427, R428, R438). -/
def Dev.attach (d : Dev) (id caps : BitVec 32) (credits : List Nat) : Dev :=
  if d.gst.st ≠ 1 ∨ d.gst.failPend.isSome then d
  else if d.attachOk caps credits then
    let d := d.setGst fun g =>
      { g with st := 2, idReg := id, caps := caps, credits := credits, coherent := caps.getLsbD 31, kept := [], quiesce := 0,
               lateFit := d.prim != .waiting && !g.fit }
    let d := forAll d guestMods fun d m => d.setMod m fun x => { x with credits := credits }
    ((d.emit (.side 3 0 d.pool)).raise 223 0xA00).primeGuest
  else (d.raise 226 0xA00).guestFail 5

/-- ATTACH_TIMEOUT (R427): 50 ms from the release. -/
def Dev.attachTimeout (d : Dev) : Dev :=
  if d.gst.st = 1 ∧ d.gst.failPend.isNone ∧ d.time.loc ≥ d.gst.relAt + 50000 then (d.raise 226 0xA00).guestFail 5 else d

/-- DETACH (R436). -/
def Dev.detach (d : Dev) : Dev := if d.gst.st = 2 then d.guestFail 2 else d

/-- GUEST_MODULE_LOSS (R436): no guest module has been up for 64 consecutive strokes. -/
def Dev.guestModuleLoss (d : Dev) : Dev :=
  if d.gst.st = 2 ∧ !d.anyGuestMod ∧ d.time.loc ≥ d.gst.noneUp + 64 then d.guestFail 1 else d

/-- A failed guest goes back into reset (R437). -/
def Dev.guestAgain (d : Dev) : Dev :=
  if d.gst.st = 3 then
    (d.setGst fun g => { g with st := 0, rstAt := d.time.loc, failPend := none, kept := [], resumeWait := none }).emit (.gtRst true)
  else d

/-- REATTACH (R437): a write of `HT_GUEST_CTL`, ignored unless the guest has failed. -/
def Dev.reattach (d : Dev) (src : Src) : Dev := if d.regOk src && d.hasGuest then d.guestAgain else d

/-- RESUMED (R441): the guest answers a Resume with a module active. -/
def Dev.resumed (d : Dev) : Dev :=
  if d.gst.resumeWait.isSome ∧ !d.guestModsUp.isEmpty then (d.setGst fun g => { g with resumeWait := none }).flushGuest else d

/-- RESUMED_TIMEOUT (R441): no answer within 10 µs; the guest fails and the wake goes on. -/
def Dev.resumedTimeout (d : Dev) : Dev :=
  match d.gst.resumeWait with
  | some t => if d.time.loc ≥ t + 10 then ((d.setGst fun g => { g with resumeWait := none }).raise 226 0xA00).guestFail 4 else d
  | none => d

/-- What the device does about a failed guest at the first boundary after detection (R436). -/
def Dev.guestBoundary (d s0 : Dev) : Dev :=
  match s0.gst.failPend with
  | none => d.flushGuest
  | some c =>
    let d := (d.setGst fun g => { g with st := 3, cause := c, failPend := none, kept := [], quiesce := 0, resumeWait := none }).raise 224 0xA00
    let d := forAll d (List.range d.nHs) fun d n => d.setHs n fun h => { h with waiting := h.waiting.filter (fun q => q.rq != Rq.guest), noCredit := h.noCredit.filter (fun q => q.rq != Rq.guest), bounced := h.bounced.filter (fun q => q.rq != Rq.guest) }
    ({ d with reads := d.reads.filter fun r => r.rq != Rq.guest }.emit (.gtRst true)).primeGuest

/-! ### Requests (R424, R426, R429, R430, R434) -/

/-- A region lies in the guest's uncached view. -/
def Dev.guestUncached (d : Dev) (r : Region) : Bool :=
  bit (d.cfgReg (0x01000120 + 4 * (r.num / 32))).toNat (r.num % 32)

/-- The guest is a member of the domain of a line. -/
def Dev.guestMember (d : Dev) (line : Nat) : Bool :=
  let g := d.groupOf (lnPage line)
  g != 0 && (d.dom g).guest

/-- A region of either view holds the line (R429). -/
def Dev.guestViews (d : Dev) (line : Nat) : Bool :=
  match d.regionOf (lnPage line) with
  | some r => r.guest || d.guestUncached r
  | none => false

/-- A request outside both views (R429, R64): the port's answer, OOV and EV067. -/
def Dev.guestOov (d : Dev) (tag line : Nat) (k : ReqKind) : Dev :=
  let d := (d.setGst fun g => { g with oov := satInc 65535 g.oov }).raise 67 0xA00
  match k with
  | .write .. | .cleanEvict => d.respond .guest tag line [.cmp] 0#512 false
  | .ownNoData _ => d.respond .guest tag line [.cmpE] 0#512 false
  | _ => d.respond .guest tag line [.memData] 0#512 true

/-- A coherence violation (R434): the request completes with poison, or is discarded, and the guest fails. -/
def Dev.guestBad (d : Dev) (tag line : Nat) (k : Option ReqKind) : Dev :=
  let d := match k with
    | some .sharedRead | some .ownRead | some .anyRead => d.respond .guest tag line [.memData] 0#512 true
    | _ => d
  (d.violate.raise 225 0xA00).guestFail 3

/-- A request of the attached guest: coherent classes need membership, uncached ones a view. -/
def Dev.guestRequest (d : Dev) (tag addr : Nat) (k : ReqKind) (coherent : Bool) : Dev :=
  let line := addr / 64
  if d.gst.st ≠ 2 ∨ d.gst.failPend.isSome then d
  else if coherent then
    (if d.guestMember line then d.request { rq := .guest, tag := tag, line := line, kind := k } else d.guestBad tag line (some k))
  else if d.guestViews line then d.request { rq := .guest, tag := tag, line := line, kind := k, extra := k.isWrite }
  else d.guestOov tag line k

/-- GUEST_MEMRD. -/
def Dev.guestMemRd (d : Dev) (tag addr : Nat) (mv : MetaV) : Dev := d.guestRequest tag addr (readKind mv) (mv != .i)
/-- GUEST_MEMRDDATA. -/
def Dev.guestMemRdData (d : Dev) (tag addr : Nat) : Dev := d.guestRequest tag addr .anyRead true
/-- GUEST_MEMINV. -/
def Dev.guestMemInv (d : Dev) (tag addr : Nat) (_ : MetaV) : Dev := d.guestRequest tag addr (.ownNoData false) true
/-- GUEST_MEMINVNT. -/
def Dev.guestMemInvNT (d : Dev) (tag addr : Nat) (_ : MetaV) : Dev := d.guestRequest tag addr (.ownNoData true) true
/-- GUEST_MEMWR. -/
def Dev.guestMemWr (d : Dev) (tag addr : Nat) (mv : MetaV) (h : Hint) (x : Line) : Dev :=
  d.guestRequest tag addr (.write (BitVec.allOnes 64) x true mv h) false
/-- GUEST_MEMWRPTL. -/
def Dev.guestMemWrPtl (d : Dev) (tag addr : Nat) (mv : MetaV) (h : Hint) (mask : BitVec 64) (x : Line) : Dev :=
  d.guestRequest tag addr (.write mask x false mv h) false
/-- GUEST_MEMCLNEVCT. -/
def Dev.guestMemClnEvct (d : Dev) (tag addr : Nat) : Dev := d.guestRequest tag addr .cleanEvict true

/-- The device of a line's home and the line's number there: a page in T4 is homed on its owner (R23, R182). -/
def Dev.remoteHome (d : Dev) (line : Nat) : Option (Nat × Nat) :=
  let e := d.entry (lnPage line)
  if e.remote then some (e.t4Dev, e.t4Page * 64 + lnIdx line) else none

def snpCode : SnpRsp → Nat
  | .i => 0 | .s => 1 | .e => 2 | .blk => 3

/-- A BIRsp of a member of this device: to the home slice, or over the cascade to the line's owner (R178, R182). -/
def Dev.memberRsp (d : Dev) (who line : Nat) (r : SnpRsp) : Dev :=
  let g := d.groupOf (lnPage line)
  match d.remoteHome line with
  | some (dev, l) => d.send 0x22 { msg0 with dest := dev, src := d.devId, origin := who, group := g, addr := l * 64, mval := snpCode r }
  | none => d.snoopResponse d.devId g who line r

/-- A BIConflict of a member: answered by the home (R180). -/
def Dev.memberConflict (d : Dev) (who line : Nat) (rq : Rq) : Dev :=
  match d.remoteHome line with
  | some (dev, l) =>
    d.send 0x23 { msg0 with dest := dev, src := d.devId, origin := who, group := d.groupOf (lnPage line), addr := l * 64 }
  | none => d.respond1 rq 0 line .conflictAck 0#512 false

/-- GUEST_BIRSP (R178, R433). -/
def Dev.guestBIRsp (d : Dev) (addr : Nat) (r : SnpRsp) : Dev :=
  if d.gst.st = 2 ∧ d.gst.failPend.isNone then d.memberRsp 16 (addr / 64) r else d

/-- GUEST_BICONFLICT (R180, R434). -/
def Dev.guestBIConflict (d : Dev) (addr : Nat) : Dev :=
  if d.gst.st ≠ 2 ∨ d.gst.failPend.isSome then d
  else if d.guestMember (addr / 64) then d.memberConflict 16 (addr / 64) .guest
  else d.guestBad 0 (addr / 64) none

/-- PUSH_REPLY (R185, R435): the directory becomes S{16} on acceptance; the line is released either way. -/
def Dev.pushReply (d : Dev) (addr : Nat) (accept : Bool) : Dev :=
  let line := addr / 64
  let n := d.home (lnPage line)
  match (d.hsl n).holds.find? fun x => x.line == line && x.push with
  | none => d
  | some x =>
    if accept && (d.hsl n).setFull line then
      (d.setHs n fun h => h.setHold line fun y => { y with push := false, accept := true }).settle n 64
    else d.setHs n fun h =>
      let h := if accept then h.grant line x.dev x.group .s [16] else h
      { h with holds := h.holds.filter fun y => y.line != line }

/-! ### Management accesses to the guest's window (R442, R443) -/

/-- Send the first access that waits; its 2 µs begin. -/
def Dev.guestAccessSend (d : Dev) : Dev :=
  match d.gst.access with
  | [] => d
  | a :: t => (d.setGst fun g => { g with access := { a with at_ := d.time.loc } :: t }).emit (.side (if a.write then 5 else 4) a.off a.val)

/-- Start a register access to the guest; the accesses go one at a time. -/
def Dev.guestAccess (d : Dev) (src : Src) (write : Bool) (off size : Nat) (val : Nat) : Dev :=
  let e := d.setGst fun g => { g with access := g.access ++ [{ src := src, write := write, off := off, size := size, val := val, at_ := d.time.loc }] }
  if d.gst.access.isEmpty then e.guestAccessSend else e

/-- GUEST_ACCESS_COMPLETION (R442). -/
def Dev.guestAccessCompletion (d : Dev) (v : BitVec 64) : Dev :=
  match d.gst.access with
  | [] => d
  | a :: t =>
    if a.abandoned then d
    else
      let d := d.setGst fun g => { g with access := t }
      (d.reply a.src .success 0 (if a.write then [] else leBytes 8 (v.toNat % 2 ^ (8 * a.size)))).guestAccessSend

/-- GUEST_ACCESS_TIMEOUT (R442): not complete within 2 µs. -/
def Dev.guestAccessTimeout (d : Dev) : Dev :=
  match d.gst.access with
  | [] => d
  | a :: t =>
    if d.time.loc ≥ a.at_ + 2 ∧ !a.abandoned then
      (((d.setGst fun g => { g with access := t }).reply a.src .invalidInput 0x0101).raise 226 0xA00).guestAccessSend
    else d

/-- GUEST_REGISTER_ACCESS_PACKET (R443): discarded and counted. -/
def Dev.guestRegisterAccessPacket (d : Dev) : Dev := if d.hasGuest then d.violate else d

/-! ### Commands -/

/-- CHROTEN_MODULE_UP (R419). -/
def execChrotenModuleUp (m : Nat) (rate : Nat) (repaired : Bool) (s : State) : Host.Outcome State Fault Refusal :=
  s.done (s.dev.chrotenModuleUp m rate repaired)

/-- CHROTEN_FLIT_RECEIVE (R420). -/
def execChrotenFlitReceive (m : Nat) (crcOk : Bool) (opcode : Nat) (size : Nat) (s : State) : Host.Outcome State Fault Refusal :=
  s.done (s.dev.chrotenFlitReceive m crcOk opcode size)

/-- CREDIT_RETURN (R422). -/
def execCreditReturn (m : Nat) (slots : List Nat) (s : State) : Host.Outcome State Fault Refusal :=
  s.done (s.dev.creditReturn m slots)

/-- GUEST_MEMRD (R429). -/
def execGuestMemRd (tag : Nat) (addr : Nat) (mv : MetaV) (s : State) : Host.Outcome State Fault Refusal :=
  s.done (s.dev.guestMemRd tag addr mv)

/-- GUEST_MEMRDDATA (R429). -/
def execGuestMemRdData (tag : Nat) (addr : Nat) (s : State) : Host.Outcome State Fault Refusal :=
  s.done (s.dev.guestMemRdData tag addr)

/-- GUEST_MEMINV (R429). -/
def execGuestMemInv (tag : Nat) (addr : Nat) (mv : MetaV) (s : State) : Host.Outcome State Fault Refusal :=
  s.done (s.dev.guestMemInv tag addr mv)

/-- GUEST_MEMINVNT (R429). -/
def execGuestMemInvNT (tag : Nat) (addr : Nat) (mv : MetaV) (s : State) : Host.Outcome State Fault Refusal :=
  s.done (s.dev.guestMemInvNT tag addr mv)

/-- GUEST_MEMWR (R424). -/
def execGuestMemWr (tag : Nat) (addr : Nat) (mv : MetaV) (hint : Hint) (data : Line) (s : State) :
    Host.Outcome State Fault Refusal :=
  s.done (s.dev.guestMemWr tag addr mv hint data)

/-- GUEST_MEMWRPTL (R424). -/
def execGuestMemWrPtl (tag : Nat) (addr : Nat) (mv : MetaV) (hint : Hint) (mask : BitVec 64) (data : Line) (s : State) :
    Host.Outcome State Fault Refusal :=
  s.done (s.dev.guestMemWrPtl tag addr mv hint mask data)

/-- GUEST_MEMCLNEVCT (R424). -/
def execGuestMemClnEvct (tag : Nat) (addr : Nat) (s : State) : Host.Outcome State Fault Refusal :=
  s.done (s.dev.guestMemClnEvct tag addr)

/-- GUEST_BIRSP (R433). -/
def execGuestBIRsp (addr : Nat) (rsp : SnpRsp) (s : State) : Host.Outcome State Fault Refusal :=
  s.done (s.dev.guestBIRsp addr rsp)

/-- GUEST_BICONFLICT (R433). -/
def execGuestBIConflict (addr : Nat) (s : State) : Host.Outcome State Fault Refusal := s.done (s.dev.guestBIConflict addr)

/-- PUSH_REPLY (R435). -/
def execPushReply (addr : Nat) (accept : Bool) (s : State) : Host.Outcome State Fault Refusal :=
  s.done (s.dev.pushReply addr accept)

/-- GUEST_RESET_RELEASE (R427). -/
def execGuestResetRelease (s : State) : Host.Outcome State Fault Refusal := s.done s.dev.guestResetRelease

/-- ATTACH (R427). -/
def execAttach (idReg : BitVec 32) (caps : BitVec 32) (credits : List Nat) (s : State) : Host.Outcome State Fault Refusal :=
  s.done (s.dev.attach idReg caps credits)

/-- ATTACH_TIMEOUT (R427). -/
def execAttachTimeout (s : State) : Host.Outcome State Fault Refusal := s.done s.dev.attachTimeout

/-- DETACH (R436). -/
def execDetach (s : State) : Host.Outcome State Fault Refusal := s.done s.dev.detach

/-- GUEST_MODULE_LOSS (R436). -/
def execGuestModuleLoss (s : State) : Host.Outcome State Fault Refusal := s.done s.dev.guestModuleLoss

/-- REATTACH (R437). -/
def execReattach (src : Src) (s : State) : Host.Outcome State Fault Refusal := s.mail src (.reattach src) (s.dev.reattach src)

/-- RESUMED (R441). -/
def execResumed (s : State) : Host.Outcome State Fault Refusal := s.done s.dev.resumed

/-- RESUMED_TIMEOUT (R441). -/
def execResumedTimeout (s : State) : Host.Outcome State Fault Refusal := s.done s.dev.resumedTimeout

/-- GUEST_ACCESS_TIMEOUT (R442). -/
def execGuestAccessTimeout (s : State) : Host.Outcome State Fault Refusal := s.done s.dev.guestAccessTimeout

/-- GUEST_REGISTER_ACCESS_PACKET (R443). -/
def execGuestRegisterAccessPacket (s : State) : Host.Outcome State Fault Refusal := s.done s.dev.guestRegisterAccessPacket

/-- GUEST_ACCESS_COMPLETION (R442). -/
def execGuestAccessCompletion (value : BitVec 64) (s : State) : Host.Outcome State Fault Refusal :=
  s.done (s.dev.guestAccessCompletion value)

end Sys2Proof.Machine
end

