-- ==== Sys2Proof/Machine/Cascade.lean ====
section
/-! DEFINITION. Cascade links: training (R252 to R255), adaptation (R256), flits, acknowledgement and replay (R257 to R259, R265,
R266), link keys (R157 to R160, R325), routes and ring failover (R268, R271 to R274), and sleep (R285 to R287). -/

namespace Sys2Proof.Machine

open Sys2Proof

/-! ### Link state -/

/-- A port slice is on the link in a state that carries flits. -/
def CPort.live (c : CPort) : Bool := c.st == .training || c.st == .keying || c.st == .up || c.st == .refused

/-- Keys are installed (R259). -/
def CPort.keyed (c : CPort) : Bool := decide (2 ≤ c.secSt)

/-- Messages of a failed port's flits that are sent again after a failure (R271): not Link Control, Empty or Stroke Frame. -/
def CPort.unacked (c : CPort) : List (Nat × Msg) :=
  ((c.sent.flatMap SentFlit.msgs).filter fun x => x.1 != 0x00 && x.1 != 0xFF && x.1 != 0x40).map fun x =>
    (x.1, { x.2 with resent := true })

/-- A port's link is gone: what its next training starts from. -/
def CPort.drop (c : CPort) : CPort :=
  { c with st := .down, step := 0, rate := 0, width := 0, lanes := 0, aligned := false, secSt := 0, keySel := false, newKey := false,
           oldRxKey := false, nak := false, frame := none, arr := [], agree := 0, diff := 0, sleepOrdered := false,
           sleepAsked := false, draining := false, corrNow := 0, corrRun := 0, uncorrAt := [], tagFailSeq := [], frag := [],
           fragTotal := 0, sent := [], kept := c.unacked ++ c.kept.filter fun x => x.1 != 0x40 }

/-- Routes with this PRIMARY whose ALT is Up switch at the next boundary (R271). -/
def Dev.failRoutes (d : Dev) (p : Nat) : Dev :=
  forAll d (d.members.filter fun n => d.routePrimary n == p && !(d.route n).usingAlt && (d.routeAlt n).any d.portUp) fun d n =>
    d.setRoute n fun r => { r with switchDue := true }

/-- A link leaves Up, other than into Sleep (R253, R266), or its resumption fails (R287); the next training may start at once. -/
def Dev.linkDown (d : Dev) (p : Nat) : Dev :=
  let d := d.setPort p fun c => { c.drop with downs := if c.st = .up then satInc 255 c.downs else c.downs, stepAt := d.time.loc }
  let d := { d with sec := { d.sec with sessions := d.sec.sessions.filter fun x => x.sess.tr != Transport.link p } }
  (d.failRoutes p).raise 151 (portSlice p)

/-- Training ends without a link: the next one starts after `wait` strokes. -/
def Dev.linkFail (d : Dev) (p wait : Nat) : Dev :=
  { d with sec := { d.sec with sessions := d.sec.sessions.filter fun x => x.sess.tr != Transport.link p } }.setPort p fun c =>
    { c.drop with stepAt := d.time.loc + wait }

/-! ### Training -/

/-- Begin training from step 1 with the configuration as it stands. -/
def Dev.trainFrom1 (d : Dev) (p : Nat) : Dev :=
  d.setPort p fun c =>
    { c with st := .training, step := 1, stepAt := d.time.loc, cfg := d.portReg p, hello := none, aligned := false, fec := 0, tagFail := 0,
             rekeys := 0, secSt := 0, keySel := false, rxSel := false, txSeq := 0, rxNext := 0, nak := false, corrNow := 0, corrRun := 0,
             uncorrAt := [] }

/-- CASCADE_TRAINING_START (R253): a Refused port whose configuration has changed trains again too (R254). -/
def Dev.cascadeTrainingStart (d : Dev) (p : Nat) : Dev :=
  let c := d.port p
  if p < d.nHosts ∧ d.prim = .primed ∧ !d.sup.held.contains (2 + p / 4) ∧ bit (d.portReg p).toNat 31 ∧
      ((c.st = .down ∧ d.time.loc ≥ c.stepAt) ∨ (c.st = .refused ∧ c.cfg ≠ d.portReg p)) then d.trainFrom1 p
  else d

/-- The local chain ends in this device's own pool owner root (R325). -/
def Dev.chainOk (d : Dev) : Bool := d.led.chain != [] && d.cfg.active.poolRoot == some (Config.chainRootHash d.led.chain)

/-- The Hello that a port sends (R253, R260): 512 credits for each class of REQ and RSP, 128 of SNP and 64 of MNT. -/
def Dev.helloOf (d : Dev) (p : Nat) : Hello :=
  { dev := d.devId, root := d.isRoot, port := p, role := bits (d.portCfg p).toNat 30 29, credits := [64, 64, 64, 64, 16, 16, 8, 8] }

/-- Send Hello, in a plain flit. -/
def Dev.sendHello (d : Dev) (p : Nat) : Dev :=
  let h := d.helloOf p
  (d.emit (.hello p h)).putFlit p 0x41 (d.maint 0 (helloSlots h))

/-- PAIR_ALIGNMENT_ACQUIRED (R252): steps 1 and 2 end; plain flits start at sequence number 0 (R257), with a Hello. -/
def Dev.pairAlignmentAcquired (d : Dev) (p : Nat) : Dev :=
  let c := d.port p
  if !(decide (p < d.nHosts) && c.live) then d
  else
    let d := d.setPort p fun c => { c with aligned := true }
    if c.st = .training ∧ c.step ≤ 2 then
      (d.setPort p fun c => { c with step := 3, stepAt := d.time.loc, txSeq := 0, rxNext := 0, sent := [] }).sendHello p
    else d

/-- PAIR_ALIGNMENT_LOST (R252). -/
def Dev.pairAlignmentLost (d : Dev) (p : Nat) : Dev :=
  if p < d.nHosts ∧ (d.port p).aligned then d.setPort p fun c => { c with aligned := false, lostAt := d.time.loc } else d

/-- The link goes down, from Up or from training. -/
def Dev.linkEnds (d : Dev) (p : Nat) : Dev :=
  if (d.port p).st = .up then d.linkDown p else d.linkFail p 10000

/-- ALIGNMENT_LOSS_TIMEOUT (R266): lost for 1 µs. -/
def Dev.alignmentLossTimeout (d : Dev) (p : Nat) : Dev :=
  let c := d.port p
  if p < d.nHosts ∧ (c.st = .up ∨ c.st = .keying) ∧ !c.aligned ∧ d.time.loc ≥ c.lostAt + 1 then d.linkEnds p else d

/-- LOSS_OF_SIGNAL (R266). -/
def Dev.lossOfSignal (d : Dev) (p : Nat) : Dev :=
  let c := d.port p
  if p < d.nHosts ∧ c.st ≠ .down ∧ c.st ≠ .sleep then
    if c.st = .waking then d.linkDown p else d.linkEnds p
  else d

/-- ADAPTATION_RETRAIN (R256). -/
def Dev.adaptationRetrain (d : Dev) (p : Nat) : Dev :=
  let c := d.port p
  let recent := c.uncorrAt.filter fun t => decide (d.time.loc < t + 1024)
  if d.portUp p ∧ (16 ≤ c.corrRun ∨ 4 ≤ recent.length) then (d.linkDown p).raise 163 (portSlice p) else d

/-- CASCADE_TRAINING_STEP_TIMEOUT (R253): the limits of steps 1 and 2 serve for both together, since no command reports the end of
step 1 (log entry 62). -/
def Dev.cascadeTrainingStepTimeout (d : Dev) (p : Nat) : Dev :=
  let c := d.port p
  let limit := if c.st = .keying then 50000 else if c.step = 3 then 1000 else 25000
  if p < d.nHosts ∧ (c.st = .training ∨ c.st = .keying) ∧ d.time.loc ≥ c.stepAt + limit then
    let d := if c.st = .keying ∧ c.secSt = 1 ∧ !d.chainOk then d.raise 176 (portSlice p) else d
    d.linkFail p 10000
  else d

/-- The neighbour check (R254): ROLE 0 UP, 1 DOWN, 2 PEER. -/
def Dev.neighbourOk (d : Dev) (p : Nat) (h : Hello) : Bool :=
  let v := (d.portCfg p).toNat
  let role := bits v 30 29
  (bit v 21 || h.dev == bits v 11 0) && h.dev != d.devId &&
    ((role == 0 && h.role == 1) || (role == 1 && h.role == 0) || (role == 2 && h.role == 2))

/-- HELLO (R254). -/
def Dev.hello (d : Dev) (p : Nat) (h : Hello) : Dev :=
  let c := d.port p
  if !(decide (p < d.nHosts) && c.live) then d
  else
    let d := d.setPort p fun c => { c with hello := some h, neighbour := h.dev }
    if c.st = .refused then (if c.hello = some h then d else d.trainFrom1 p)
    else if c.st = .training ∧ c.step = 3 then
      if d.neighbourOk p h then
        d.setPort p fun c => { c with st := .keying, step := 4, stepAt := d.time.loc, secSt := 1, credits := h.credits.map (8 * ·) }
      else (d.setPort p fun c => { c with st := .refused }).raise 158 (portSlice p)
    else d

/-- SECURED_TRANSPORT (R158): fragments arrive in order; offset 0 starts a message. -/
def Dev.securedTransport (d : Dev) (p ofs total : Nat) (frag : List Byte) : Dev :=
  let c := d.port p
  if !(decide (p < d.nHosts) && c.live) then d
  else if ofs = 0 then d.setPort p fun c => { c with frag := frag.take total, fragTotal := total }
  else if ofs = c.frag.length ∧ total = c.fragTotal then d.setPort p fun c => { c with frag := (c.frag ++ frag).take total }
  else d

/-- The upstream device of a link (R158): the one whose port is DOWN, or of two peers the lower device ID (log entry 62). -/
def Dev.upstream (d : Dev) (p : Nat) : Bool :=
  let role := bits (d.portCfg p).toNat 30 29
  role == 1 || (role == 2 && decide (d.devId < (d.port p).neighbour))

/-- Two keys and a salt from the random number generator. -/
def Dev.linkKeys (d : Dev) : LinkKeys × Dev :=
  ({ down := Config.freeKey d.free, up := Config.freeKey (d.free + 1), salt := Config.freeWord (d.free + 2) }, { d with free := d.free + 3 })

/-- The session on a link is finished and mutually authenticated (R158). The device that is the requester of its session has no row for
what it sends and gets; its own key message shows that the session is open (DESIGN CHOICE, log 81). -/
def Dev.linkSession (d : Dev) (p : Nat) : Bool :=
  d.upstream p || d.sec.sessions.any fun x => x.sess.tr == Transport.link p && x.finished && x.bothAuth

/-- The keys of a key message, transmit first: the upstream device draws and sends them, the downstream one has them from the message
(R158). -/
def Dev.keysFor (d : Dev) (p : Nat) (keys : Option LinkKeys) : Option ((BitVec 256 × BitVec 256 × BitVec 32) × Dev) :=
  if d.upstream p then
    let (k, d) := d.linkKeys
    some ((k.down, k.up, k.salt), d.emit (.linkKeys p k))
  else keys.map fun k => ((k.up, k.down, k.salt), d)

/-- LINK_KEY_MESSAGE (R158): the upstream device sends it, and both ends install the keys and the salt. The session waits for the
management cores (R30). -/
def Dev.linkKeyMessage (d : Dev) (p : Nat) (keys : Option LinkKeys) : Dev :=
  let c := d.port p
  if p < d.nHosts ∧ c.st = .keying ∧ c.secSt = 1 ∧ d.chainOk ∧ d.linkSession p ∧ !d.coresGone then
    match d.keysFor p keys with
    | none => d
    | some (k, d) => d.setPort p fun c =>
        { c with kTx := k.1, kRx := k.2.1, kRxOld := 0#256, salt := k.2.2, secSt := 2, txSeq := 0, rxNext := 0, sent := [], keyAt := d.time.loc,
                 keySel := false, rxSel := false, nak := false, tagFailSeq := [] }
  else d

/-- CASCADE_LINK_UP (R253, R255): WIDTH 3 is x16, RATE 2 is 112 Gbit/s. -/
def Dev.cascadeLinkUp (d : Dev) (p rate width lanes : Nat) : Dev :=
  let c := d.port p
  let v := (d.portCfg p).toNat
  if p < d.nHosts ∧ c.st = .keying ∧ c.secSt = 2 ∧ 1 ≤ rate ∧ rate ≤ bits v 23 22 ∧ 1 ≤ width ∧ width ≤ bits v 25 24 ∧
      lanes * 2 ^ (width + 1) < 16 then
    let low := rate < 2 || width < 3
    let d := d.setPort p fun c =>
      { c with st := .up, step := 5, rate := rate, width := width, lanes := lanes, upAt := d.time.loc, degraded := c.degraded || low }
    let d := d.raise 150 (portSlice p)
    let d := if low then d.raise 152 (portSlice p) else d
    d.flushPort p
  else d

/-! ### Flits -/

/-- Send one NAK with the last ACK until the expected flit arrives (R265). -/
def Dev.nakOnce (d : Dev) (p : Nat) : Dev :=
  let c := d.port p
  if c.nak then d
  else (d.setPort p fun c => { c with nak := true }).emit (.linkCtl p true ((c.rxNext + 4095) % 4096) (List.replicate 8 0))

/-- A tag failure (R160): the flit is replayed once; a second on one sequence number, or 4 in a stroke, ends the link. -/
def Dev.tagFailure (d : Dev) (p seq : Nat) : Dev :=
  let c := d.port p
  let d := d.setPort p fun c => { c with tagFail := satInc 65535 c.tagFail, tagFailNow := c.tagFailNow + 1, tagFailSeq := c.tagFailSeq ++ [seq] }
  if seq ∈ c.tagFailSeq ∨ 4 ≤ c.tagFailNow + 1 then (d.linkEnds p).raise 104 (portSlice p) else d.nakOnce p

/-- A flit over `n` uncorrectable codewords that no earlier flit met (R252, R256). -/
def Dev.uncorrectable (d : Dev) (p n : Nat) : Dev :=
  (forAll d (List.range n) fun d _ =>
    (d.setPort p fun c =>
      { c with uncorr := satInc 255 c.uncorr,
               uncorrAt := (c.uncorrAt.filter fun t => decide (d.time.loc < t + 1024)) ++ [d.time.loc] }).raise 154 (portSlice p)).nakOnce p

/-- The credits that received messages return, in slots, in the Hello order (R260): a message's buffer is free once its flit is accepted
(DESIGN CHOICE, log 81). -/
def creditsOf (ms : List SlotHead) : List Nat :=
  (ms.filter fun m => m.op != 0x00 && m.op != 0xFF && sizeOk m.op m.size).foldl
    (fun acc m => acc.modify (creditIdx m.op m.cls) (· + m.size + 1)) (List.replicate 8 0)

/-- Accept a flit: its mark counts once keys are installed (R158, R258); a malformed message is discarded with EV159 (R259). -/
def Dev.acceptFlit (d : Dev) (p : Nat) (f : Flit) (seq : Nat) (newKey : Bool) : Dev :=
  let d := d.setPort p fun c =>
    let c := { c with rxNext := seq + 1, nak := false, tagFailSeq := c.tagFailSeq.filter (· != f.seq) }
    let c := if newKey then { c with rxSel := f.keySel, oldRxKey := false, kRxOld := 0#256 } else c
    if c.keyed then { c with mark := f.mark, markNew := true } else c
  let ms := (d.port p).msgsIn f
  let d := d.emit (.linkCtl p false (seq % 4096) (creditsOf ms))
  forAll d (ms.filter fun m => !sizeOk m.op m.size) fun d _ => d.raise 159 (portSlice p)

/-- FLIT_RECEIVE (R252, R259, R265). The messages of an accepted flit are commands of their own. -/
def Dev.flitReceive (d : Dev) (p : Nat) (f : Flit) : Dev :=
  if !(decide (p < d.nHosts) && (d.port p).live) then d
  else
    let d := d.setPort p fun c => { c with fec := (c.fec + f.corrected) % 2 ^ 64, corrNow := c.corrNow + f.corrected }
    let c := d.port p
    if !f.correctable then d.uncorrectable p f.uncorrectable
    else if !c.aligned then d.nakOnce p
    else if f.plain && c.keyed then d.tagFailure p f.seq
    else if !f.plain && !c.keyed then d.nakOnce p
    else if !c.tagOk f then (if f.plain then d.nakOnce p else d.tagFailure p f.seq)
    else
      let (seq, newKey) := c.expected f
      if f.seq % 4096 = seq % 4096 then d.acceptFlit p f seq newKey else d.nakOnce p

/-- Send again every flit kept (R266); a flit that has been sent 4 times ends the link. -/
def Dev.replay (d : Dev) (p : Nat) : Dev :=
  let c := d.port p
  if c.sent.any fun s => decide (4 ≤ s.tries) then d.linkEnds p
  else
    let d := d.setPort p fun c =>
      { c with sent := c.sent.map fun s => { s with tries := s.tries + 1, since := d.time.loc },
               replays := min 65535 (c.replays + c.sent.length) }
    forAll d c.sent fun d s => (d.emit (.resend p s.seq s.bytes)).raise 153 (portSlice p)

/-- Flits up to and including the acknowledged one leave the replay buffer. -/
def CPort.acked (c : CPort) (ack now : Nat) : CPort :=
  match c.sent.findIdx? fun s => s.seq % 4096 == ack with
  | some i => { c with sent := (c.sent.drop (i + 1)).map fun s => { s with since := now } }
  | none => c

/-- LINK_CONTROL (R265, R266). -/
def Dev.linkControl (d : Dev) (p : Nat) (nak : Bool) (ack : Nat) (credits : List Nat) : Dev :=
  let c := d.port p
  if !(decide (p < d.nHosts) && (c.live || c.st == .waking)) then d
  else
    let d := d.setPort p fun c =>
      { c.acked (ack % 4096) d.time.loc with credits := (List.range 8).map fun i => c.credits.getD i 0 + credits.getD i 0 }
    let d := if nak then d.replay p else d
    if d.portUp p then d.flushPort p else d

/-- REPLAY_TIMEOUT (R266): 2 µs without progress. -/
def Dev.replayTimeout (d : Dev) (p : Nat) : Dev :=
  let c := d.port p
  if p < d.nHosts ∧ c.live then
    match c.sent with
    | s :: _ => if d.time.loc ≥ s.since + 2 then d.replay p else d
    | [] => d
  else d

/-- A link's keys are due to change (R159): the key life is over, or half the sequence numbers are used. -/
def Dev.rekeyDue (d : Dev) (p : Nat) : Bool :=
  let c := d.port p
  decide (d.time.loc ≥ c.keyAt + d.fld 0x340 12 0 * 2 ^ 20) || decide (2 ^ 31 ≤ c.txSeq) || decide (2 ^ 31 ≤ c.rxNext)

/-- LINK_REKEY (R159): new keys are sent within the session, by the upstream device when they are due; each sender changes at the next
boundary, and the receiver holds both keys from now on. -/
def Dev.linkRekey (d : Dev) (p : Nat) (keys : Option LinkKeys) : Dev :=
  if d.portUp p ∧ (d.port p).secSt = 2 ∧ !d.coresGone ∧ (!d.upstream p || d.rekeyDue p) then
    match d.keysFor p keys with
    | none => d
    | some (k, d) => d.setPort p fun c => { c with kTxNew := k.1, kRx := k.2.1, kRxOld := c.kRx, secSt := 3, newKey := true, oldRxKey := true }
  else d

/-- The boundary of a stroke at a port: the change of transmit key (R159), and the counts of R160 and R256. -/
def Dev.portBoundary (d : Dev) (p : Nat) : Dev :=
  let thresh := d.fld (cpBase p + 0x1C) 15 0
  d.setPort p fun c =>
    let c := { c with corrRun := if c.corrNow > thresh then c.corrRun + 1 else 0, corrNow := 0, tagFailNow := 0 }
    if c.newKey then
      { c with newKey := false, kTx := c.kTxNew, kTxNew := 0#256, keySel := !c.keySel, txSeq := 0, rekeys := satInc 8191 c.rekeys, keyAt := d.time.loc, secSt := 2 }
    else c

/-! ### Routes -/

/-- A message kept for a device, and not for a neighbour alone. -/
def keptFor (n : Nat) (x : Nat × Msg) : Bool := x.2.dest == n && !([0x43, 0x45, 0x46, 0x48] : List Nat).contains x.1

/-- Take the messages to a device from a port's queue. -/
def Dev.takeKept (d : Dev) (p n : Nat) : List (Nat × Msg) × Dev :=
  ((d.port p).kept.filter (keptFor n), d.setPort p fun c => { c with kept := c.kept.filter fun x => !keptFor n x })

/-- One route switches to ALT (R271, R272). -/
def Dev.switchRoute (d : Dev) (n a : Nat) : Dev :=
  let (ms, d) := d.takeKept (d.routePrimary n) n
  (d.setRoute n fun r =>
    { r with usingAlt := true, byNotice := d.portUp (d.routePrimary n), switchDue := false, returnDue := false,
             holdUntil := some (d.time.loc + d.foQuiet), held := ms ++ r.held }).sendNotice a n false

/-- ROUTE_FAILOVER at a boundary (R271, R272). -/
def Dev.routeBoundary (d : Dev) : Dev :=
  let due := d.members.filter fun n => (d.route n).switchDue
  let go := due.filter fun n => (d.routeAlt n).any d.portUp
  let d := forAll d due fun d n => d.setRoute n fun r => { r with switchDue := false }
  let d := forAll d go fun d n => match d.routeAlt n with | some a => d.switchRoute n a | none => d
  if go.isEmpty then d else d.raise 155 (tileSlice 1)

/-- FO_QUIET_EXPIRY (R271 to R274): the hold ends; a route due to return goes back to PRIMARY. -/
def Dev.foQuietExpiry (d : Dev) (n : Nat) : Dev :=
  let r := d.route n
  match r.holdUntil with
  | none => d
  | some t =>
    if d.time.loc < t then d
    else
      let d := d.setRoute n fun r => { r with holdUntil := none, held := [], returnDue := false,
                                               usingAlt := r.usingAlt && !r.returnDue, byNotice := r.byNotice && !r.returnDue }
      let d := if r.returnDue then
          (match d.routeAlt n with | some a => d.sendNotice a n true | none => d).raise 155 (tileSlice 1)
        else d
      let (first, rest) := r.held.partition fun x => x.2.resent
      forAll d (first ++ rest) fun d x => d.send x.1 x.2

/-- ROUTE_NOTICE_SWITCH (R272). -/
def Dev.routeNoticeSwitch (d : Dev) (p n : Nat) : Dev :=
  if d.portUp p ∧ d.routeValid n ∧ d.routePrimary n = p ∧ !(d.route n).usingAlt then
    if (d.routeAlt n).any d.portUp then d.setRoute n fun r => { r with switchDue := true } else d.raise 156 (portSlice p)
  else d

/-- A switched route starts to return: new messages are held for FO_QUIET strokes. -/
def Dev.startReturn (d : Dev) (n : Nat) : Dev :=
  d.setRoute n fun r => { r with holdUntil := some (d.time.loc + d.foQuiet), returnDue := true }

/-- ROUTE_NOTICE_RESTORE (R272). -/
def Dev.routeNoticeRestore (d : Dev) (p n : Nat) : Dev :=
  if d.portUp p ∧ d.routeValid n ∧ d.routePrimary n = p ∧ (d.route n).usingAlt ∧ (d.route n).byNotice then d.startReturn n else d

/-- FAILBACK (R274). -/
def Dev.failbackPort (d : Dev) (p : Nat) : Dev :=
  if d.portUp p ∧ d.time.loc ≥ (d.port p).upAt + d.failback * 64 then
    forAll d (d.members.filter fun n => d.routePrimary n == p && (d.route n).usingAlt && !(d.route n).byNotice && !(d.route n).returnDue)
      Dev.startReturn
  else d

/-! ### Sleep -/

/-- The port that gives this device its stroke (R269): the primary STROKE port when Up, else the alternate. -/
def Dev.strokePort (d : Dev) : Option Nat :=
  let at_ (k : Nat) := d.ports.find? fun p => bits (d.portCfg p).toNat 27 26 == k
  match at_ 1 with
  | some p => if d.portUp p then some p else if (at_ 2).any d.portUp then at_ 2 else some p
  | none => at_ 2

/-- The arrival offset measured for a stroke on a port (R276). -/
def CPort.arrivalOf (c : CPort) (stroke : Nat) : Option Int := (c.arr.find? fun x => x.1 == stroke % 65536).map Prod.snd

/-- The Stroke Frame a port sends (R278). -/
def Dev.frameFor (d : Dev) (p : Nat) (planned : Bool) : FrameMsg :=
  { stroke := BitVec.ofNat 64 d.pool, ver := d.poolNow.1, digest := d.poolNow.2, arrOfs := (d.port p).arrivalOf (d.pool + 65535), hops := d.cas.hops,
    role := d.role, holdover := d.time.holdover, planned := planned, plain := !(d.port p).keyed }

/-- Send a Stroke Frame now, in a flit. -/
def Dev.putFrame (d : Dev) (p : Nat) (planned : Bool) : Dev :=
  let f := d.frameFor p planned
  (d.emit (.frame p f)).putFlit p 0x40 (d.maint (d.port p).neighbour (frameSlots f))

/-- A port's Stroke Frame of the stroke (R278): plain while the link is Keying. -/
def Dev.sendFrame (d : Dev) (p : Nat) : Dev :=
  let f := d.frameFor p false
  if (d.port p).st = .keying then d.putFrame p false
  else if (d.port p).draining then d
  else (d.emit (.frame p f)).toNeighbour p 0x40 0 0 (frameSlots f)

/-- Answer a Sleep Request (R285). A refusal names the port slice. -/
def Dev.sleepAnswer (d : Dev) (p : Nat) (ok : Bool) : Dev :=
  let sl := if ok then 0 else portSlice p
  let d := (d.emit (.sleepReply p ok sl)).toNeighbour p 0x46 (b2n (!ok)) sl []
  if ok then d.setPort p fun c => { c with draining := true, sleepAsked := false } else d

/-- SLEEP_REQUEST (R285): of two requests at once the lower device's stands. -/
def Dev.sleepRequest (d : Dev) (p src : Nat) : Dev :=
  let c := d.port p
  if !d.portUp p ∨ c.draining then d
  else if c.sleepAsked ∧ d.devId < src then d
  else d.sleepAnswer p (c.sleepOrdered && c.kept.isEmpty)

/-- SLEEP_REPLY (R285, R338, R341). -/
def Dev.sleepReply (d : Dev) (p : Nat) (accept : Bool) (slice : Nat) : Dev :=
  let c := d.port p
  if d.portUp p ∧ c.sleepAsked then
    let d := d.setPort p fun c => { c with sleepAsked := false, draining := accept }
    if accept then d else d.refuseEntry (portSlice p) 3 c.neighbour slice
  else d

/-- SLEEP_DRAIN_COMPLETE (R285): both replay buffers are empty; the stroke-source side sends a last Stroke Frame with PLANNED set.
A message kept meanwhile, or an order withdrawn, wakes the link again (R286). -/
def Dev.sleepDrainComplete (d : Dev) (p : Nat) : Dev :=
  let c := d.port p
  if d.portUp p ∧ c.draining ∧ c.sent.isEmpty then
    let d := if d.strokePort = some p then d else d.putFrame p true
    let d := d.setPort p fun c => { c with st := .sleep, draining := false }
    if c.kept.isEmpty ∧ c.sleepOrdered then d else d.wakeLink p
  else d

/-- WAKE_PATTERN_DETECTED (R286, R342): the port answers with its own pattern and the device wakes. -/
def Dev.wakePatternDetected (d : Dev) (p : Nat) : Dev :=
  if p < d.nHosts ∧ (d.port p).st = .sleep then (d.wakeLink p).wake 3 p else d

/-- LINK_RESUMED (R287). -/
def Dev.linkResumed (d : Dev) (p : Nat) : Dev :=
  let c := d.port p
  if p < d.nHosts ∧ c.st = .waking then
    let d := d.setPort p fun c => { c with st := .up, aligned := true, sleepOrdered := false }
    ((d.emit (.linkCtl p false ((c.rxNext + 4095) % 4096) (List.replicate 8 0))).raise 162 (portSlice p)).flushPort p
  else d

/-- RESUMPTION_TIMEOUT (R287): 50 µs. -/
def Dev.resumptionTimeout (d : Dev) (p : Nat) : Dev :=
  let c := d.port p
  if p < d.nHosts ∧ c.st = .waking ∧ d.time.loc ≥ c.stepAt + 50 then d.linkDown p else d

/-! ### Commands -/

/-- LINK_KEY_MESSAGE (R158). -/
def execLinkKeyMessage (msg : LinkKeysIn) (s : State) : Host.Outcome State Fault Refusal :=
  s.done (s.dev.linkKeyMessage msg.port msg.keys)

/-- LINK_REKEY (R159). -/
def execLinkRekey (msg : LinkKeysIn) (s : State) : Host.Outcome State Fault Refusal := s.done (s.dev.linkRekey msg.port msg.keys)

/-- CASCADE_TRAINING_START (R253). -/
def execCascadeTrainingStart (p : Nat) (s : State) : Host.Outcome State Fault Refusal := s.done (s.dev.cascadeTrainingStart p)

/-- CASCADE_TRAINING_STEP_TIMEOUT (R253). -/
def execCascadeTrainingStepTimeout (p : Nat) (s : State) : Host.Outcome State Fault Refusal :=
  s.done (s.dev.cascadeTrainingStepTimeout p)

/-- CASCADE_LINK_UP (R253). -/
def execCascadeLinkUp (p : Nat) (rate : Nat) (width : Nat) (lanes : Nat) (s : State) : Host.Outcome State Fault Refusal :=
  s.done (s.dev.cascadeLinkUp p rate width lanes)

/-- PAIR_ALIGNMENT_ACQUIRED (R252). -/
def execPairAlignmentAcquired (p : Nat) (s : State) : Host.Outcome State Fault Refusal := s.done (s.dev.pairAlignmentAcquired p)

/-- PAIR_ALIGNMENT_LOST (R252). -/
def execPairAlignmentLost (p : Nat) (s : State) : Host.Outcome State Fault Refusal := s.done (s.dev.pairAlignmentLost p)

/-- ALIGNMENT_LOSS_TIMEOUT (R266). -/
def execAlignmentLossTimeout (p : Nat) (s : State) : Host.Outcome State Fault Refusal := s.done (s.dev.alignmentLossTimeout p)

/-- ADAPTATION_RETRAIN (R256). -/
def execAdaptationRetrain (p : Nat) (s : State) : Host.Outcome State Fault Refusal := s.done (s.dev.adaptationRetrain p)

/-- LOSS_OF_SIGNAL (R266). -/
def execLossOfSignal (p : Nat) (s : State) : Host.Outcome State Fault Refusal := s.done (s.dev.lossOfSignal p)

/-- FLIT_RECEIVE (R265). -/
def execFlitReceive (p : Nat) (f : Flit) (s : State) : Host.Outcome State Fault Refusal := s.done (s.dev.flitReceive p f)

/-- LINK_CONTROL (R266). -/
def execLinkControl (p : Nat) (nak : Bool) (ack : Nat) (credits : List Nat) (s : State) : Host.Outcome State Fault Refusal :=
  s.done (s.dev.linkControl p nak ack credits)

/-- REPLAY_TIMEOUT (R266). -/
def execReplayTimeout (p : Nat) (s : State) : Host.Outcome State Fault Refusal := s.done (s.dev.replayTimeout p)

/-- HELLO (R254). -/
def execHello (p : Nat) (hl : Hello) (s : State) : Host.Outcome State Fault Refusal := s.done (s.dev.hello p hl)

/-- SECURED_TRANSPORT (R158). -/
def execSecuredTransport (p : Nat) (ofs : Nat) (total : Nat) (frag : List Byte) (s : State) : Host.Outcome State Fault Refusal :=
  s.done (s.dev.securedTransport p ofs total frag)

/-- FO_QUIET_EXPIRY (R271). -/
def execFoQuietExpiry (dest : Nat) (s : State) : Host.Outcome State Fault Refusal := s.done (s.dev.foQuietExpiry dest)

/-- ROUTE_NOTICE_SWITCH (R272). -/
def execRouteNoticeSwitch (p : Nat) (dest : Nat) (s : State) : Host.Outcome State Fault Refusal :=
  s.done (s.dev.routeNoticeSwitch p dest)

/-- ROUTE_NOTICE_RESTORE (R272). -/
def execRouteNoticeRestore (p : Nat) (dest : Nat) (s : State) : Host.Outcome State Fault Refusal :=
  s.done (s.dev.routeNoticeRestore p dest)

/-- FAILBACK (R274). -/
def execFailback (p : Nat) (s : State) : Host.Outcome State Fault Refusal := s.done (s.dev.failbackPort p)

/-- SLEEP_REQUEST (R285). -/
def execSleepRequest (p : Nat) (src : Nat) (s : State) : Host.Outcome State Fault Refusal := s.done (s.dev.sleepRequest p src)

/-- SLEEP_REPLY (R285). -/
def execSleepReply (p : Nat) (accept : Bool) (slice : Nat) (s : State) : Host.Outcome State Fault Refusal :=
  s.done (s.dev.sleepReply p accept slice)

/-- SLEEP_DRAIN_COMPLETE (R285). -/
def execSleepDrainComplete (p : Nat) (s : State) : Host.Outcome State Fault Refusal := s.done (s.dev.sleepDrainComplete p)

/-- WAKE_PATTERN_DETECTED (R286). -/
def execWakePatternDetected (p : Nat) (s : State) : Host.Outcome State Fault Refusal := s.done (s.dev.wakePatternDetected p)

/-- LINK_RESUMED (R287). -/
def execLinkResumed (p : Nat) (s : State) : Host.Outcome State Fault Refusal := s.done (s.dev.linkResumed p)

/-- RESUMPTION_TIMEOUT (R287). -/
def execResumptionTimeout (p : Nat) (s : State) : Host.Outcome State Fault Refusal := s.done (s.dev.resumptionTimeout p)

end Sys2Proof.Machine
end

