-- ==== Sys2Proof/Machine/Remote.lean ====
section
/-! DEFINITION. Terdy messages between devices: passing and accepting them (R263, R268, R273), forwarded requests and their
answers (R23, R180 to R182, R264, R282), and the remote tier's page messages (R280 to R284). -/

namespace Sys2Proof.Machine

open Sys2Proof

/-! ### Accepting a message -/

/-- A message for another device passes on by the arrival port's copy of the routes (R268). -/
def Dev.passOn (d : Dev) (p op : Nat) (m : Msg) : Dev :=
  if !(d.route m.dest).holdUntil.isSome && !d.reachable m.dest then
    (d.setRoute m.dest fun r => { r with unreach := true }).raise 156 (portSlice p)
  else d.send op m

/-- A message arrives on a port. For another device it passes on; here it is remembered, and a resent one that was accepted
already is discarded with EV160 (R268, R273). -/
def Dev.receive (d : Dev) (p op : Nat) (m : Msg) (f : Dev → Dev) : Dev :=
  if !d.portUp p then d
  else if m.dest ≠ d.devId then d.passOn p op m
  else
    let seen := d.cas.seen.filter fun x => decide (d.time.loc < x.1 + d.resendWin)
    if m.resent && seen.any fun x => x.2 == (m.src, m.tag, op, m.addr) then d.raise 160 (portSlice p)
    else f { d with cas := { d.cas with seen := seen ++ [(d.time.loc, m.src, m.tag, op, m.addr)] } }

/-- The answer to a message: to its source, with its tag, origin, group and address. -/
def Dev.answerMsg (d : Dev) (m : Msg) (op mval : Nat) : Dev :=
  d.send op { msg0 with dest := m.src, src := d.devId, origin := m.origin, group := m.group, tag := m.tag, addr := m.addr, mval := mval }

/-! ### The owner's side of a forwarded request -/

/-- The page of a message lies in a hosting range of its source (R280, R282). -/
def Dev.granted (d : Dev) (m : Msg) : Bool := (d.hosting (m.addr / 4096)).any fun g => g.peer == m.src

/-- The requester that a forwarded request stands for (R181). -/
def msgRq (m : Msg) (p : Nat) : Rq := .remote p m.src m.origin m.group

/-- A forwarded request outside its grant (R282): a read is poisoned, a write discarded with Cmp, and EV159. -/
def Dev.outsideGrant (d : Dev) (p : Nat) (m : Msg) (k : ReqKind) : Dev :=
  (d.respond (msgRq m p) m.tag (m.addr / 64) (k.failRsp m.group) 0#512 true).raise 159 (portSlice p)

/-- `CAP` percent (R386). -/
def Dev.cap (d : Dev) : Nat := d.fld 0xA04 15 8

/-- Slot payload of a cascade link in MB/s: 197.6 GB/s at x16 and 112 Gbit/s, scaling with width and rate. -/
def CPort.payload (c : CPort) : Nat := if c.width = 0 then 0 else 197600 * c.rate * 2 ^ (c.width - 1) / (2 * 4)

/-- Lines that a payload of `mb` MB/s may carry in a stroke under enforcement. -/
def Dev.capLines (d : Dev) (mb : Nat) : Nat := mb * d.cap / (100 * 64)

/-- A request passes a cascade port, or waits there while enforcement leaves no room in its direction (R386). -/
def Dev.cascadeAdmit (d : Dev) (p : Nat) (q : Req) : Dev :=
  let x := d.port p
  let used := if q.kind.isWrite then x.capIn else x.capOut
  if d.therm.enforced ∧ (x.portQ ≠ [] ∨ d.capLines x.payload ≤ used) then d.setPort p fun x => { x with portQ := x.portQ ++ [q] }
  else
    (d.setPort p fun x => if q.kind.isWrite then { x with capIn := x.capIn + 1 } else { x with capOut := x.capOut + 1 }).request q

/-- A forwarded request at its owner (R181). A clean evict travels on RSP and waits on nothing (R261). -/
def Dev.remoteRequest (d : Dev) (p : Nat) (m : Msg) (k : ReqKind) : Dev :=
  let q : Req := { rq := msgRq m p, tag := m.tag, line := m.addr / 64, kind := k }
  if !d.granted m then d.outsideGrant p m k else if k = .cleanEvict then d.request q else d.cascadeAdmit p q

/-- Writes of RSP in the 64 further entries of a home slice (R264). -/
def Hs.extras (h : Hs) : Nat := (h.waiting.filter Req.extra).length

/-- A write that arrives on RSP (R264): a write-back is admitted; an ordered one whose line is held, or that finds no entry, gets
Write Retry. -/
def Dev.remoteWrite (d : Dev) (p : Nat) (m : Msg) (k : ReqKind) : Dev :=
  let q : Req := { rq := msgRq m p, tag := m.tag, line := m.addr / 64, kind := k, extra := true }
  let n := d.home (lnPage q.line)
  if !d.granted m then d.outsideGrant p m k
  else if d.isWriteBack q then d.request q
  else if (d.hsl n).held q.line ∨ 64 ≤ (d.hsl n).extras then d.respond1 q.rq q.tag q.line .writeRetry 0#512 false
  else d.request q

/-- The kind of a MemRd by its MetaValue. -/
def msgReadKind (m : Msg) : ReqKind := if m.mval = 0 then .uncachedRead else if m.mval = 1 then .sharedRead else .ownRead

def msgMetaV (m : Msg) : MetaV := if m.mval = 0 then .i else if m.mval = 1 then .s else .a

/-- The write a message carries, whole or under its mask. -/
def msgWriteKind (m : Msg) (full : Bool) : ReqKind := .write (if full then BitVec.allOnes 64 else m.mask) m.data full (msgMetaV m) m.hint

def Dev.terdyMemRd (d : Dev) (p : Nat) (m : Msg) : Dev := d.receive p 0x01 m fun d => d.remoteRequest p m (msgReadKind m)
def Dev.terdyMemRdData (d : Dev) (p : Nat) (m : Msg) : Dev := d.receive p 0x02 m fun d => d.remoteRequest p m .anyRead
def Dev.terdyMemInv (d : Dev) (p : Nat) (m : Msg) : Dev := d.receive p 0x03 m fun d => d.remoteRequest p m (.ownNoData false)
def Dev.terdyMemInvNT (d : Dev) (p : Nat) (m : Msg) : Dev := d.receive p 0x04 m fun d => d.remoteRequest p m (.ownNoData true)
def Dev.terdyMemWr (d : Dev) (p : Nat) (m : Msg) : Dev := d.receive p 0x05 m fun d => d.remoteWrite p m (msgWriteKind m true)
def Dev.terdyMemWrPtl (d : Dev) (p : Nat) (m : Msg) : Dev := d.receive p 0x06 m fun d => d.remoteWrite p m (msgWriteKind m false)
def Dev.terdyMemClnEvct (d : Dev) (p : Nat) (m : Msg) : Dev := d.receive p 0x07 m fun d => d.remoteRequest p m .cleanEvict
def Dev.terdyMemWrRetried (d : Dev) (p : Nat) (m : Msg) : Dev := d.receive p 0x08 m fun d => d.remoteRequest p m (msgWriteKind m true)
def Dev.terdyMemWrPtlRetried (d : Dev) (p : Nat) (m : Msg) : Dev := d.receive p 0x09 m fun d => d.remoteRequest p m (msgWriteKind m false)

/-! ### The importer's side -/

/-- The importer's page of an owner's page (R281). -/
def Dev.importerPage (d : Dev) (owner page : Nat) : Option Nat :=
  (d.grants.find? fun g => !g.owner && g.peer == owner && decide (g.ob ≤ page / 65536) && decide (page / 65536 < g.ob + g.len)).map fun g =>
    g.toImporter page

/-- The importer's line of an owner's address. -/
def Dev.importerLine (d : Dev) (m : Msg) : Option Nat := (d.importerPage m.src (m.addr / 4096)).map fun g => g * 64 + m.addr / 64 % 64

def Dev.setFwd (d : Dev) (tag : Nat) (f : Fwd → Fwd) : Dev :=
  { d with cas := { d.cas with fwd := d.cas.fwd.map fun x => if x.tag = tag then f x else x } }

/-- A forwarded request is over (R273). -/
def Dev.endFwd (d : Dev) (tag : Nat) : Dev :=
  { d with cas := { d.cas with fwd := d.cas.fwd.filter fun x => x.tag != tag } }.restTag tag

/-- The forwarded request that a response belongs to; a response with none is discarded (R273). -/
def Dev.fwdOf (d : Dev) (m : Msg) : Option Fwd := d.cas.fwd.find? fun f => f.tag == m.tag && f.dest == m.src

/-- WRITE_RETRY (R264): the write goes again on REQ. -/
def Dev.writeRetry (d : Dev) (p : Nat) (m : Msg) : Dev :=
  d.receive p 0x25 m fun d =>
    match d.fwdOf m with
    | none => d
    | some f =>
      match f.kind with
      | .write _ _ full _ _ =>
        (d.setFwd f.tag fun x => { x with retried := true }).send (if full then 0x08 else 0x09) (d.fwdMsg f.rq f.tag f.line f.kind)
      | _ => d

/-- Both responses that a request awaits, as the bits of `Fwd.got`. -/
def Fwd.wants (f : Fwd) (g : Nat) : Nat := ((f.kind.failRsp g).map fun r => if r = .memData then 1 else 2).sum

/-- A response of either kind has arrived: the request ends when all of its responses are in. -/
def Dev.fwdGot (d : Dev) (f : Fwd) (b : Nat) : Dev :=
  let got := if f.got % (2 * b) ≥ b then f.got else f.got + b
  if got = f.wants (d.groupOf f.page) then d.endFwd f.tag else d.setFwd f.tag fun x => { x with got := got }

/-- TERDY_MEMDATA (R23). -/
def Dev.terdyMemData (d : Dev) (p : Nat) (m : Msg) : Dev :=
  d.receive p 0x20 m fun d =>
    match d.fwdOf m with
    | none => d
    | some f => if f.read then (d.respond1 f.rq f.rtag f.line .memData m.data m.poison).fwdGot f 1 else d

/-- A grant reached a page that a Pull is reading (R283). -/
def Dev.noteGrant (d : Dev) (page : Nat) : Dev :=
  forAll d (List.range d.nPumps) fun d q =>
    match (d.pump q).job with
    | some j => if j.ty = 2 ∧ j.pages.any fun x => x.1 == page then d.setPump q fun x => { x with job := some { j with grantSeen := true } } else d
    | none => d

/-- TERDY_CMP (R23). -/
def Dev.terdyCmp (d : Dev) (p : Nat) (m : Msg) : Dev :=
  d.receive p 0x21 m fun d =>
    match d.fwdOf m with
    | none => d
    | some f =>
      let d := if m.mval = 0 then d else d.noteGrant f.page
      (d.respond1 f.rq f.rtag f.line (if m.mval = 1 then .cmpS else if m.mval = 2 then .cmpE else .cmp) 0#512 false).fwdGot f 2

/-- The local member that an ORIGIN names: a head or the guest. -/
def memberOf (origin : Nat) : Option Rq := if origin < 16 then some (.head origin) else if origin = 16 then some .guest else none

/-- TERDY_BICONFLICT (R180): the home answers. -/
def Dev.terdyBIConflict (d : Dev) (p : Nat) (m : Msg) : Dev :=
  d.receive p 0x23 m fun d => if d.granted m then d.answerMsg m 0x24 0 else d.raise 159 (portSlice p)

/-- TERDY_BICONFLICTACK (R180). -/
def Dev.terdyBIConflictAck (d : Dev) (p : Nat) (m : Msg) : Dev :=
  d.receive p 0x24 m fun d =>
    match memberOf m.origin, d.importerLine m with
    | some rq, some l => d.respond1 rq m.tag l .conflictAck 0#512 false
    | _, _ => d

/-- A BISnp from an owner goes to the member it names under the importer's own address (R182, R281). -/
def Dev.remoteSnoop (d : Dev) (m : Msg) (k : Snp) : Dev :=
  match d.importerLine m with
  | none => d
  | some l => if m.origin ≤ 16 then d.snoop d.devId m.group m.origin l k else d

def Dev.terdyBISnpInv (d : Dev) (p : Nat) (m : Msg) : Dev := d.receive p 0x30 m fun d => d.remoteSnoop m .inv
def Dev.terdyBISnpData (d : Dev) (p : Nat) (m : Msg) : Dev := d.receive p 0x31 m fun d => d.remoteSnoop m .data
def Dev.terdyBISnpCur (d : Dev) (p : Nat) (m : Msg) : Dev := d.receive p 0x32 m fun d => d.remoteSnoop m .cur

/-- REMOTE_TIMEOUT (R282): the responses still missing are given here, a read's with poison. -/
def Dev.remoteTimeout (d : Dev) (tag : Nat) : Dev :=
  match d.cas.fwd.find? fun f => f.tag == tag && decide (d.time.loc ≥ f.since + d.remTo) with
  | none => d
  | some f =>
    let d := d.endFwd tag
    let rs := (f.kind.failRsp (d.groupOf f.page)).filter fun r => !(if r = .memData then f.got % 2 == 1 else f.got / 2 == 1)
    (if f.got = 0 then d.remoteFail f.rq f.rtag f.line f.kind else d.respond f.rq f.rtag f.line rs 0#512 true).raise 156
      (portSlice (d.portToward f.dest))

/-! ### Pages: the owner (R280, R282 to R284) -/

/-- The lines of a page as its owner sends them (R282): zeros when Unbacked, every line marked for POISON 2 or an erased domain. -/
def Dev.ownedPage (d : Dev) (page : Nat) : List (Line × Bool) × Dev :=
  let e := d.entry page
  if e.poison = 2 ∨ d.erasedPage e then (List.replicate 64 (0#512, true), d)
  else if e.st = .unbacked then (d.pageView page zeroPage, d)
  else match d.storedPage e with
    | .ok r => (d.pageView page r.1, d)
    | .error x => (List.replicate 64 (0#512, true), d.decodeError (16 * d.homeTile page) page x)

/-- A fenced page goes to its importer: 32 Page Data, then Page Ack with status 0. -/
def Dev.sendOwned (d : Dev) (f : FetchIn) : Dev :=
  let (ls, d) := d.ownedPage f.page
  (d.sendPage f.src f.tag (f.page * 4096) ls).send 0x29
    { msg0 with dest := f.src, src := d.devId, tag := f.tag, addr := f.page * 4096 }

/-- Go on with the fences of fetched pages, and send those whose fence has ended (R283). -/
def Dev.fetchRun (d : Dev) : Dev :=
  let d := forAll d d.cas.fetchIn fun d f => d.fencePage f.page
  let (ready, wait) := d.cas.fetchIn.partition fun f => d.fenceDone f.page
  forAll { d with cas := { d.cas with fetchIn := wait } } ready Dev.sendOwned

/-- A page message outside its grant: Page Ack with status 2, and EV159. -/
def Dev.noGrant (d : Dev) (p : Nat) (m : Msg) : Dev := (d.answerMsg m 0x29 2).raise 159 (portSlice p)

/-- PAGE_FETCH (R283). -/
def Dev.pageFetch (d : Dev) (p : Nat) (m : Msg) : Dev :=
  d.receive p 0x10 m fun d =>
    if d.granted m then
      let d := d.wake 2 (16 + p)
      { d with cas := { d.cas with fetchIn := d.cas.fetchIn ++ [({ src := m.src, tag := m.tag, page := m.addr / 4096 } : FetchIn)] } }.fetchRun
    else d.noGrant p m

/-- A page that was still arriving is given up: its frame is free again (R284). -/
def Dev.dropIncoming (d : Dev) (src page : Nat) : Dev :=
  let gone := d.cas.pagesIn.filter fun x => x.src == src && x.page == page
  forAll { d with cas := { d.cas with pagesIn := d.cas.pagesIn.filter fun x => !gone.contains x } } gone fun d x => d.freeFrame x.frame

/-- PAGE_PLACE (R282): a T1 frame under the Promote limit, or status 1. -/
def Dev.pagePlace (d : Dev) (p : Nat) (m : Msg) : Dev :=
  d.receive p 0x11 m fun d =>
    let page := m.addr / 4096
    if !d.granted m then d.noGrant p m
    else
      let d := (d.wake 2 (16 + p)).dropIncoming m.src page
      if d.keyless page then d.answerMsg m 0x29 1
      else match d.allocFrame (d.homeTile page) .promote 1 0#16 with
      | none => d.answerMsg m 0x29 1
      | some (f, d) =>
        let x : PageIn := { src := m.src, tag := m.tag, page := page, frame := f, kdom := (d.attrs page).elim 0 Region.kdom, got := 0, poison := [] }
        { d with cas := { d.cas with pagesIn := d.cas.pagesIn ++ [x] } }

/-- A page has arrived whole: it replaces any earlier content, with its poison marks (R241, R282). -/
def Dev.placePageIn (d : Dev) (x : PageIn) : Dev :=
  let e := d.entry x.page
  let d := (d.dropPage x.page).foundPage x.page
  let d := (d.releaseStorage e).dropCand x.page
  d.setEntry x.page (d.firstHeat (d.homeTile x.page)
    { st := .stable, tier := 0, kdom := x.kdom, loc := locT1 x.frame, poison := b2n (x.poison != []) })

/-- One granule of a page at its owner; the last of the 32 ends it with Page Ack. -/
def Dev.granuleIn (d : Dev) (m : Msg) (x : PageIn) : Dev :=
  let i := m.addr / 128 % 32
  let d := d.putGran x.kdom (frameGran x.frame i) m.data m.data2 m.mval
  let y := { x with got := x.got + 1, poison := if m.mval = 0 then x.poison else x.poison ++ [(i, m.mval)] }
  if y.got < 32 then { d with cas := { d.cas with pagesIn := d.cas.pagesIn.map fun z => if z = x then y else z } }
  else ({ d with cas := { d.cas with pagesIn := d.cas.pagesIn.filter (· != x) } }.placePageIn y).send 0x29
    { msg0 with dest := x.src, src := d.devId, tag := x.tag, addr := x.page * 4096 }

/-- PAGE_FREE (R284): the page is released as R117 releases it, then acknowledged. -/
def Dev.pageFree (d : Dev) (p : Nat) (m : Msg) : Dev :=
  d.receive p 0x12 m fun d =>
    if d.granted m then ((((d.wake 2 (16 + p)).dropIncoming m.src (m.addr / 4096)).fencePage (m.addr / 4096)).unback (m.addr / 4096)).answerMsg m 0x29 0 else d.noGrant p m

/-! ### Pages: the importer -/

/-- The pump whose job waits for page messages with a tag. -/
def Dev.pumpOfTag (d : Dev) (tag : Nat) : Option (Nat × Job) :=
  (List.range d.nPumps).findSome? fun q => (d.pump q).job.bind fun j =>
    if j.remote = 1 ∧ j.tag = tag ∧ (j.ty = 2 ∨ j.ty = 5) then some (q, j) else none

def Dev.setJob (d : Dev) (q : Nat) (j : Job) : Dev := d.setPump q fun x => { x with job := some j }

/-- Drop the one page of a Push or Pull (R106, R284): its commit is refused. -/
def Dev.dropRemote (d : Dev) (q : Nat) (j : Job) : Dev :=
  d.jobReady q { j with remote := 0, dirty := j.dirty ++ j.pages.map Prod.fst }

/-- One granule of a Pull, into the job's frame. -/
def Dev.granulePulled (d : Dev) (m : Msg) (q : Nat) (j : Job) : Dev :=
  (d.putGran ((j.dest.head?).elim 0 JobDest.kdom) (frameGran (j.frames.headD 0) (m.addr / 128 % 32)) m.data m.data2 m.mval).setJob q
    { j with granules := j.granules + 1, poisoned := j.poisoned || m.mval != 0 }

/-- PAGE_DATA (R282): at the owner, of a Push; at the importer, of a Pull. -/
def Dev.pageData (d : Dev) (p : Nat) (m : Msg) : Dev :=
  d.receive p 0x28 m fun d =>
    match d.cas.pagesIn.find? fun x => x.src == m.src && x.tag == m.tag && x.page == m.addr / 4096 with
    | some x => d.granuleIn m x
    | none =>
      match d.pumpOfTag m.tag with
      | some (q, j) => if j.ty = 2 then d.granulePulled m q j else d
      | none => d

/-- A Page Ack for a Push or Pull (R282): a Push is stored, a Pull is complete; another status drops the page. -/
def Dev.jobAck (d : Dev) (m : Msg) (q : Nat) (j : Job) : Dev :=
  if m.mval ≠ 0 then
    let d := if m.mval = 1 then d.raise 161 (pumpSlice q) else d
    d.dropRemote q j
  else if j.ty = 5 then d.jobReady q { j with remote := 2 }
  else if j.granules = 32 then
    (d.setJob q { j with remote := 0, dest := j.dest.map fun x => { x with poisoned := j.poisoned } }).pumpRun q
  else d

/-- PAGE_ACK (R282, R284). -/
def Dev.pageAck (d : Dev) (p : Nat) (m : Msg) : Dev :=
  d.receive p 0x29 m fun d =>
    if d.cas.frees.any fun f => f.tag == m.tag && f.dest == m.src then
      { d with cas := { d.cas with frees := d.cas.frees.filter fun f => f.tag != m.tag } }.restTag m.tag
    else match d.pumpOfTag m.tag with
      | some (q, j) => d.jobAck m q j
      | none => d

/-- PAGE_ACK_TIMEOUT (R284). -/
def Dev.pageAckTimeout (d : Dev) (q : Nat) : Dev :=
  match (d.pump q).job with
  | none => d
  | some j =>
    if q < d.nPumps ∧ j.remote = 1 ∧ d.time.loc ≥ j.remSince + d.remTo then
      let d : Dev := match j.ty, j.dest with
        | 5, x :: _ => d.sendPageFree (bits x.loc.toNat 45 34) (bits x.loc.toNat 33 0 * 4096)
        | _, _ => d
      d.dropRemote q j
    else d

/-- PAGE_FREE_TIMEOUT (R284): sent once more, then abandoned with EV156. -/
def Dev.pageFreeTimeout (d : Dev) (tag : Nat) : Dev :=
  match d.cas.frees.find? fun f => f.tag == tag && decide (d.time.loc ≥ f.since + d.remTo) with
  | none => d
  | some f =>
    if f.again then
      ({ d with cas := { d.cas with frees := d.cas.frees.filter fun x => x.tag != tag } }.restTag tag).raise 156 (portSlice (d.portToward f.dest))
    else
      let d : Dev := { d with cas := { d.cas with frees := d.cas.frees.map fun (x : FreeOut) =>
          if x.tag = tag then { x with again := true, since := d.time.loc } else x } }
      d.send 0x12
        { msg0 with dest := f.dest, src := d.devId, tag := f.tag, addr := f.addr }

/-- TERDY_BIRSP (R182): a remote sharer answers a snoop. -/
def Dev.terdyBIRsp (d : Dev) (p : Nat) (m : Msg) : Dev :=
  d.receive p 0x22 m fun d =>
    (d.snoopResponse m.src m.group m.origin (m.addr / 64)
      (if m.mval = 0 then .i else if m.mval = 1 then .s else if m.mval = 2 then .e else .blk)).fetchRun

/-! ### Commands -/

/-- TERDY_MEMRD (R181). -/
def execTerdyMemRd (p : Nat) (m : Msg) (s : State) : Host.Outcome State Fault Refusal := s.done (s.dev.terdyMemRd p m)

/-- TERDY_MEMRDDATA (R181). -/
def execTerdyMemRdData (p : Nat) (m : Msg) (s : State) : Host.Outcome State Fault Refusal := s.done (s.dev.terdyMemRdData p m)

/-- TERDY_MEMINV (R181). -/
def execTerdyMemInv (p : Nat) (m : Msg) (s : State) : Host.Outcome State Fault Refusal := s.done (s.dev.terdyMemInv p m)

/-- TERDY_MEMINVNT (R181). -/
def execTerdyMemInvNT (p : Nat) (m : Msg) (s : State) : Host.Outcome State Fault Refusal := s.done (s.dev.terdyMemInvNT p m)

/-- TERDY_MEMWR (R264). -/
def execTerdyMemWr (p : Nat) (m : Msg) (s : State) : Host.Outcome State Fault Refusal := s.done (s.dev.terdyMemWr p m)

/-- TERDY_MEMWRPTL (R264). -/
def execTerdyMemWrPtl (p : Nat) (m : Msg) (s : State) : Host.Outcome State Fault Refusal := s.done (s.dev.terdyMemWrPtl p m)

/-- TERDY_MEMCLNEVCT (R264). -/
def execTerdyMemClnEvct (p : Nat) (m : Msg) (s : State) : Host.Outcome State Fault Refusal := s.done (s.dev.terdyMemClnEvct p m)

/-- TERDY_MEMWR_RETRIED (R264). -/
def execTerdyMemWrRetried (p : Nat) (m : Msg) (s : State) : Host.Outcome State Fault Refusal :=
  s.done (s.dev.terdyMemWrRetried p m)

/-- TERDY_MEMWRPTL_RETRIED (R264). -/
def execTerdyMemWrPtlRetried (p : Nat) (m : Msg) (s : State) : Host.Outcome State Fault Refusal :=
  s.done (s.dev.terdyMemWrPtlRetried p m)

/-- WRITE_RETRY (R264). -/
def execWriteRetry (p : Nat) (m : Msg) (s : State) : Host.Outcome State Fault Refusal := s.done (s.dev.writeRetry p m)

/-- TERDY_MEMDATA (R23). -/
def execTerdyMemData (p : Nat) (m : Msg) (s : State) : Host.Outcome State Fault Refusal := s.done (s.dev.terdyMemData p m)

/-- TERDY_CMP (R23). -/
def execTerdyCmp (p : Nat) (m : Msg) (s : State) : Host.Outcome State Fault Refusal := s.done (s.dev.terdyCmp p m)

/-- TERDY_BIRSP (R182). -/
def execTerdyBIRsp (p : Nat) (m : Msg) (s : State) : Host.Outcome State Fault Refusal := s.done (s.dev.terdyBIRsp p m)

/-- TERDY_BICONFLICT (R180). -/
def execTerdyBIConflict (p : Nat) (m : Msg) (s : State) : Host.Outcome State Fault Refusal := s.done (s.dev.terdyBIConflict p m)

/-- TERDY_BICONFLICTACK (R180). -/
def execTerdyBIConflictAck (p : Nat) (m : Msg) (s : State) : Host.Outcome State Fault Refusal :=
  s.done (s.dev.terdyBIConflictAck p m)

/-- TERDY_BISNPINV (R182). -/
def execTerdyBISnpInv (p : Nat) (m : Msg) (s : State) : Host.Outcome State Fault Refusal := s.done (s.dev.terdyBISnpInv p m)

/-- TERDY_BISNPDATA (R182). -/
def execTerdyBISnpData (p : Nat) (m : Msg) (s : State) : Host.Outcome State Fault Refusal := s.done (s.dev.terdyBISnpData p m)

/-- TERDY_BISNPCUR (R182). -/
def execTerdyBISnpCur (p : Nat) (m : Msg) (s : State) : Host.Outcome State Fault Refusal := s.done (s.dev.terdyBISnpCur p m)

/-- PAGE_FETCH (R283). -/
def execPageFetch (p : Nat) (m : Msg) (s : State) : Host.Outcome State Fault Refusal := s.done (s.dev.pageFetch p m)

/-- PAGE_PLACE (R282). -/
def execPagePlace (p : Nat) (m : Msg) (s : State) : Host.Outcome State Fault Refusal := s.done (s.dev.pagePlace p m)

/-- PAGE_DATA (R282). -/
def execPageData (p : Nat) (m : Msg) (s : State) : Host.Outcome State Fault Refusal := s.done (s.dev.pageData p m)

/-- PAGE_ACK (R284). -/
def execPageAck (p : Nat) (m : Msg) (s : State) : Host.Outcome State Fault Refusal := s.done (s.dev.pageAck p m)

/-- PAGE_FREE (R284). -/
def execPageFree (p : Nat) (m : Msg) (s : State) : Host.Outcome State Fault Refusal := s.done (s.dev.pageFree p m)

/-- REMOTE_TIMEOUT (R282). -/
def execRemoteTimeout (tag : Nat) (s : State) : Host.Outcome State Fault Refusal := s.done (s.dev.remoteTimeout tag)

/-- PAGE_ACK_TIMEOUT (R284). -/
def execPageAckTimeout (pump : Nat) (s : State) : Host.Outcome State Fault Refusal := s.done (s.dev.pageAckTimeout pump)

/-- PAGE_FREE_TIMEOUT (R284). -/
def execPageFreeTimeout (tag : Nat) (s : State) : Host.Outcome State Fault Refusal := s.done (s.dev.pageFreeTimeout tag)

end Sys2Proof.Machine
end

