-- ==== Sys2Proof/Machine/Domain.lean ====
section
/-! DEFINITION. Coherent domains across the pool: Domain Down and Domain Up, their acknowledgements, and Rejoin Domain (R187 to
R194, R270). -/

namespace Sys2Proof.Machine

open Sys2Proof

/-- DOMAIN_DOWN (R189, R270). -/
def Dev.domainDown (d : Dev) (p : Nat) (b : Bcast) : Dev :=
  match d.hear p 1 b with
  | none => d
  | some d => d.detectDown b.dev b.group 7 17 (portSlice p)

/-- DOMAIN_UP (R194): the domain is Up here at the next boundary. -/
def Dev.domainUp (d : Dev) (p : Nat) (b : Bcast) : Dev :=
  match d.hear p 2 b with
  | none => d
  | some d =>
    let key := b.dev * 256 + b.group
    { d with remDown := Tbl.put d.remDown key 3, cas := { d.cas with ups := d.cas.ups ++ [(key, b)] } }

/-- BROADCAST_ACK (R270): an acknowledgement of another epoch is discarded. Kinds 2 to 4 are awaited. -/
def Dev.broadcastAck (d : Dev) (p : Nat) (a : BcastAck) : Dev :=
  if !d.portUp p || a.epoch != d.cas.epoch then d
  else
    match a.kind with
    | 2 =>
      forAll d ((d.doms.filter fun x => x.2.st == .rejoining && x.2.bseq == a.bseq).map Prod.fst) fun d g =>
        d.setDom g fun x => { x with acks := if x.acks.contains a.member then x.acks else a.member :: x.acks }
    | 3 => if d.coresGone then d else d.takeVote a
    | 4 => if d.coresGone then d else d.takeAck a
    | _ => d

/-! ### Rejoin Domain (R192 to R194) -/

def DomSt.num : DomSt → Nat
  | .none => 0 | .up => 1 | .down => 2 | .rejoining => 3

/-- Output of Rejoin Domain. -/
def Dev.rejoinOut (d : Dev) (g : Nat) : List Byte :=
  let x := d.dom g
  leBytes 2 x.members.toNat ++ leBytes 1 (b2n x.guest) ++ leBytes 1 x.st.num

/-- The heads that the active configuration binds to a group. -/
def Dev.groupHeads (d : Dev) (g : Nat) : BitVec 16 :=
  (d.cfg.active.regions.filter fun r => r.group == g).foldl (fun acc r => acc ||| r.heads) 0#16

/-- What R193 asks of a Rejoin Domain. -/
def Dev.rejoinOk (d : Dev) (g : Nat) (mask : BitVec 16) (guest : Bool) : Bool :=
  let x := d.dom g
  g != 0 && x.st != .none && d.cfg.active.regions.any (fun r => r.group == g) && (mask &&& ~~~(d.groupHeads g)) == 0#16 &&
    ((List.range 16).all fun h => !mask.getLsbD h || d.attached h) &&
    (!guest || (d.gst.coherent && d.gst.st == 2 && !d.gst.lateFit)) &&
    (x.st != .up || ((x.members &&& ~~~mask) == 0#16 && (!x.guest || guest)))

/-- REJOIN_DOMAIN (R193, R194): it ends at a boundary. -/
def Dev.rejoinDomain (d : Dev) (src : Src) (q : List Byte) : Dev :=
  d.gated src { manager := true } fun d =>
    d.vend src q (q.length == 8) (fieldAt q 1 1 < 2 && fieldAt q 4 4 == 0) fun d =>
      let g := fieldAt q 0 1
      let mask := BitVec.ofNat 16 (fieldAt q 2 2)
      let guest := bit (fieldAt q 1 1) 0
      if !d.rejoinOk g mask guest then d.reply src .invalidInput
      else if (d.dom g).want.isSome || (d.dom g).st == .rejoining then d.reply src .busy
      else d.asBg src fun d => (d.setDom g fun x => { x with want := some (mask, guest) }).startBg src (.rejoin g)

/-- The Rejoin Domain in progress on a group completes. -/
def Dev.rejoinEnd (d : Dev) (g : Nat) (r : Ret) (ext : Nat) (out : List Byte) : Dev :=
  match d.cfg.bg.find? fun b => b.kind == .rejoin g && b.result.isNone with
  | some b => d.finishBg b r ext out
  | none => d

/-- The first pool member, by device ID, that has not acknowledged a Domain Up. -/
def Dev.lateMember (d : Dev) (g : Nat) : Option Nat := d.members.find? fun m => !(d.dom g).acks.contains m

/-- REJOIN_TIMEOUT (R194): 1,024 strokes. -/
def Dev.rejoinTimeout (d : Dev) (g : Nat) : Dev :=
  let x := d.dom g
  if x.st = .rejoining ∧ !x.ackAll ∧ d.time.loc ≥ x.since + 1024 then
    match d.lateMember g with
    | some m => (d.rejoinBack g).rejoinEnd g .retryRequired 0x0105 (sliceOut (portSlice (d.portToward m)))
    | none => d
  else d

/-- DOMAIN_REJOINING at a boundary (R193, R194): what the domain was when the boundary fell decides, unless an abort has won at it. -/
def Dev.rejoinStep (d s0 : Dev) (g : Nat) : Dev :=
  let x := s0.dom g
  if x.detected.isSome ∨ (d.dom g).detected.isSome ∨ (d.dom g).st ≠ x.st ∨ (d.dom g).want ≠ x.want then d
  else match x.st, x.want with
    | .up, some (m, gu) =>
      let d := d.setDom g fun y => { y with members := m, guest := gu, want := none }
      d.rejoinEnd g .success 0 (d.rejoinOut g)
    | .down, some (m, gu) =>
      let d := d.setDom g fun y => { y with st := .rejoining, members := m, guest := gu, want := none, acks := [], since := d.time.loc, ackAll := d.upPorts.isEmpty }
      if d.upPorts.isEmpty then d
      else
        let d := d.broadcast 2 { bcast0 with dev := d.devId, group := g, stroke := BitVec.ofNat 64 d.pool }
        d.setDom g fun y => { y with bseq := d.cas.bseq }
    | .rejoining, _ =>
      if x.ackAll ∨ (s0.lateMember g).isNone then
        let d := (d.setDom g fun y => { y with st := .up, acks := [], ackAll := false }).raiseI 112 { detail := [g] }
        d.rejoinEnd g .success 0 (d.rejoinOut g)
      else d
    | _, _ => d

/-- A domain goes down at the boundary; one that was Rejoining ends its command with Retry Required (R188, R194). -/
def Dev.downStep (d s0 : Dev) (g : Nat) : Dev :=
  let x := s0.dom g
  match x.detected with
  | none => d
  | some (cause, _, _) =>
    let d := d.handleDown g
    if x.st = .rejoining then
      (if cause = 7 then d.rejoinBack g else d).rejoinEnd g .retryRequired 0x0105 (sliceOut x.detSlice)
    else if x.want.isSome then
      (d.setDom g fun y => { y with want := none }).rejoinEnd g .retryRequired 0x0105 (sliceOut x.detSlice)
    else d

/-- Domains at a boundary (R188, R194), decided on what was detected before it. -/
def Dev.domBoundary (d s0 : Dev) : Dev :=
  let gs := s0.doms.map Prod.fst
  let d := forAll d gs fun d g => d.downStep s0 g
  let d := forAll d (s0.remDown.filter fun x => x.2 == 1 || 16 ≤ x.2) fun d x => d.handleRemoteDown x.1 x.2
  let d := forAll d gs fun d g => d.rejoinStep s0 g
  let d := forAll d s0.cas.ups fun d x =>
    if Tbl.look d.remDown x.1 = some 3 then ({ d with remDown := Tbl.del d.remDown x.1 }).ack 2 x.2 0 0 d.poolNow.1 else d
  { d with cas := { d.cas with ups := d.cas.ups.drop s0.cas.ups.length } }

/-! ### Commands -/

/-- DOMAIN_DOWN (R189). -/
def execDomainDown (p : Nat) (b : Bcast) (s : State) : Host.Outcome State Fault Refusal := s.done (s.dev.domainDown p b)

/-- DOMAIN_UP (R194). -/
def execDomainUp (p : Nat) (b : Bcast) (s : State) : Host.Outcome State Fault Refusal := s.done (s.dev.domainUp p b)

/-- BROADCAST_ACK (R270). -/
def execBroadcastAck (p : Nat) (a : BcastAck) (s : State) : Host.Outcome State Fault Refusal := s.done (s.dev.broadcastAck p a)

/-- REJOIN_DOMAIN (R193). -/
def execRejoinDomain (src : Src) (payload : List Byte) (s : State) : Host.Outcome State Fault Refusal :=
  s.mail src (.rejoinDomain src payload) (s.dev.rejoinDomain src payload)

/-- REJOIN_TIMEOUT (R194). -/
def execRejoinTimeout (g : Nat) (s : State) : Host.Outcome State Fault Refusal := s.done (s.dev.rejoinTimeout g)

end Sys2Proof.Machine
end

