-- ==== Sys2Proof/Machine/HostReq.lean ====
section
/-! DEFINITION. The host ports and the home slices' own events: link training and port resets (R27, R28, R58 to R60), IDE (R83, R84,
R161), decoders and views (R62 to R64), M2S requests (R21, R24, R176 to R180), reads and inline promotions that end (R21, R26, R239),
the cistern (R25, R183), admission and its timeouts (R169 to R173, R191). -/

namespace Sys2Proof.Machine

open Sys2Proof

/-! ### The caps of R386 -/

def rateGt (r : Nat) : Nat := if r = 5 then 64 else if r = 4 then 32 else if r = 3 then 16 else if r = 2 then 8 else 0

/-- Payload bandwidth of a host link in MB/s: 118 GB/s at 64 GT/s x16, scaling with rate and width. -/
def Head.payload (h : Head) : Nat := if h.width = 0 then 0 else 118000 * rateGt h.rate * 2 ^ (h.width - 1) / (64 * 16)

/-- A request passes a head's port, or waits there while enforcement leaves no room in its direction. -/
def Dev.portAdmit (d : Dev) (h : Nat) (q : Req) : Dev :=
  let x := d.head h
  let used := if q.kind.isWrite then x.capIn else x.capOut
  if d.therm.enforced ∧ (x.portQ ≠ [] ∨ d.capLines x.payload ≤ used) then d.setHead h fun x => { x with portQ := x.portQ ++ [q] }
  else
    (d.setHead h fun x => if q.kind.isWrite then { x with capIn := x.capIn + 1 } else { x with capOut := x.capOut + 1 }).request q

/-- A new stroke's allowance at a head: the requests that waited go first. -/
def Dev.capBoundary (d : Dev) : Dev :=
  let d := forAll d (d.heads.map Prod.fst) fun d h =>
    let q := (d.head h).portQ
    forAll (d.setHead h fun x => { x with capIn := 0, capOut := 0, portQ := [] }) q fun d r => d.portAdmit h r
  forAll d (d.cas.ports.map Prod.fst) fun d p =>
    let q := (d.port p).portQ
    forAll (d.setPort p fun x => { x with capIn := 0, capOut := 0, portQ := [] }) q fun d r => d.cascadeAdmit p r

/-! ### Links of the heads -/

/-- A write whose data was received completes to memory, answered to nobody (R27). -/
def Dev.completeWrite (d : Dev) (q : Req) : Dev :=
  let q := { q with rq := Rq.push 0 d.devId }
  match q.kind with
  | .write m x full _ h =>
    let e := d.entry (lnPage q.line)
    if e.remote then d.forward q.rq q.tag q.line q.kind
    else if e.st = .promoting then d.writePromoting q m x full
    else d.serveWrite q m x full (if h.kind = 3 then { h with kind := 0 } else h)
  | _ => d

/-- The writes of a requester that a home slice holds, admitted or not (R27). -/
def Hs.writesOf (s : Hs) (r : Rq) : List Req :=
  ((s.holds.filter fun x => !x.responded).filterMap Hold.req ++ s.waiting ++ s.noCredit).filter fun q => q.rq == r && q.kind.isWrite

/-- A head's port slice is reset (R27): its reads are discarded, and its writes, received whole, complete to memory. None is answered. -/
def Dev.portReset (d : Dev) (h : Nat) : Dev :=
  let mine (r : Rq) : Bool := r == Rq.head h
  let keep (q : Req) : Bool := !mine q.rq
  let ws := (List.range d.nHs).flatMap (fun n => (d.hsl n).writesOf (Rq.head h)) ++ (d.head h).portQ.filter fun q => q.kind.isWrite
  let d := { d with
    reads := d.reads.filter fun r => !mine r.rq
    promos := d.promos.map fun x => if mine x.req.rq then { x with req := { x.req with rq := Rq.push 0 d.devId } } else x }
  let d := forAll d (List.range d.nHs) fun d n => d.setHs n fun s =>
    { s with waiting := s.waiting.filter keep, noCredit := s.noCredit.filter keep, bounced := s.bounced.filter keep
             holds := s.holds.filter fun x => x.req.elim true keep }
  let d := { d with cas := { d.cas with fwd := d.cas.fwd.map fun (f : Fwd) => if mine f.rq then { f with rq := Rq.push 0 d.devId } else f } }
  let d := { d with
    sec := { d.sec with sessions := d.sec.sessions.filter (fun x => x.sess.tr != Transport.doe h)
                        negotiated := d.sec.negotiated.filter (fun t => t != Transport.doe h)
                        keyq := d.sec.keyq.filter (fun k => k.sess.tr != Transport.doe h) } }
  let d := d.mapBg fun b => if b.src = Src.head h then { b with mute := true } else b
  let d := d.endHeadRest h
  let d := d.setHead h fun x =>
    { x with up := false, rate := 0, width := 0, cxl := false, ide := 0, ideIo := 0, decoders := [], ltrEn := false, snoopNs := 0, noSnoopNs := 0,
             portQ := [], devload := 0 }
  forAll d ws Dev.completeWrite

/-- PERST_N_ASSERTION (R27, R28, R60, R390). -/
def Dev.perstAssertion (d : Dev) (h : Nat) : Dev :=
  if h < d.nHosts ∧ !d.therm.latched ∧ !(d.head h).perst then
    ((d.setHead h fun x => { x with perst := true }).portReset h).memberDead h 1
  else d

/-- PERST_N_DEASSERTION (R60, R342). -/
def Dev.perstDeassertion (d : Dev) (h : Nat) : Dev :=
  if h < d.nHosts ∧ !d.therm.latched ∧ (d.head h).perst then
    (d.setHead h fun x => { x with perst := false, retrains := 0 }).wake 4 h
  else d

/-- `PT_HP_LINK_CTL` of a head. -/
def Dev.linkCtl (d : Dev) (h hi lo : Nat) : Nat := d.fld (hpBase h + 4) hi lo

/-- A head that attaches is a member of the Up domains whose regions are bound to it (R163). -/
def Dev.joinDomains (d : Dev) (h : Nat) : Dev :=
  forAll d ((List.range 256).filter fun g => g != 0 && (d.dom g).st == .up &&
      d.cfg.active.regions.any fun r => r.group == g && r.heads.getLsbD h) fun d g =>
    d.setDom g fun x => { x with members := x.members ||| BitVec.ofNat 16 (2 ^ h) }

/-- Function 0 of every head (R56, R68). A serial number that cannot be corrected reads 0 (R317). -/
def Dev.fnConfig (d : Dev) : FnConfig :=
  { classCode := 0x050210, vendor := 0x1E5C, device := if bits d.caps0.toNat 31 24 = 2 then 0x5121 else 0x5120, serial := d.serial,
    memCapable := true, ioCapable := true, cacheCapable := false, hdmCount := 8, hwInitMode := false, payloadSize := 16,
    caps := [.dvsecCxlDevice, .dvsecFlexBus, .dvsecRegisterLocator, .hdmDecoder, .ras, .link, .ide, .biDecoder, .deviceStatus,
      .primaryMailbox, .memoryDeviceStatus, .doeCma, .doeTableAccess, .ltr, .aer, .laneMargining, .dataLinkFeature, .physicalLayer64] }

/-- HOST_LINK_UP (R58, R59): RATE 1 to 5, at most MAX_RATE, which 0 holds down; WIDTH 1 to 5. -/
def Dev.hostLinkUp (d : Dev) (h rate width : Nat) : Dev :=
  let x := d.head h
  if h < d.nHosts ∧ !x.perst ∧ !d.therm.latched ∧ !d.resetHeld ∧ !x.held ∧ !d.sup.held.contains (2 + h / 4) ∧ 1 ≤ rate ∧ rate ≤ d.linkCtl h 31 28 ∧ rate ≤ 5 ∧ 1 ≤ width ∧ width ≤ 5 then
    let low := decide (rate < d.linkCtl h 27 24) || decide (width < d.linkCtl h 23 20)
    let d := d.setHead h fun x =>
      { x with up := true, rate := rate, width := width, cxl := decide (2 ≤ rate), retrains := if x.up then satInc 65535 x.retrains else x.retrains,
               degraded := x.degraded || low }
    -- its host reads the function once the link is up (R56; the model's own output, log 83)
    let d := (d.joinDomains h).emit (.function h d.fnConfig)
    if low then d.raiseI 64 { slice := headSlice h, heads := [h] } else d
  else d

/-- HOST_LINK_DOWN (R59, R187): DL_Active is left without `PERST_N`. -/
def Dev.hostLinkDown (d : Dev) (h : Nat) : Dev :=
  if h < d.nHosts ∧ (d.head h).up then ((d.raiseI 65 { slice := headSlice h, heads := [h] }).portReset h).memberDead h 1 else d

/-- A decoder that the heads support (R63). -/
def decoderOk (x : Decoder) : Bool :=
  [1, 2, 4, 8, 16].contains x.ways && [256, 512, 1024, 2048, 4096, 8192, 16384].contains x.gran && x.size % 2 ^ 28 == 0 &&
    x.size != 0 && x.base % 2 ^ 28 == 0

/-- A range of a head's DPA holds lines of a shared region. -/
def Dev.coversShared (d : Dev) (h lo len : Nat) : Bool :=
  let a := d.headDpaBase h + lo
  d.cfg.active.regions.any fun r => r.group != 0 && decide (r.base * 2 ^ 28 < a + len) && decide (a < (r.base + r.size) * 2 ^ 28)

/-- HDM_DECODER_COMMIT (R63). -/
def Dev.hdmDecoderCommit (d : Dev) (h i : Nat) (x : Decoder) : Dev :=
  if h < d.nHosts ∧ i < 8 ∧ (d.head h).up then
    let ok := d.prim == .primed && decoderOk x && (x.bi || !d.coversShared h x.dpaBase (x.size / x.ways))
    let d := if ok then d.setHead h fun y => { y with decoders := Tbl.put y.decoders i x } else d
    d.emit (.decoder h i ok)
  else d

/-- LTR_CONFIG_WRITE (R81): the device's own LTR message states no requirement; a smallest tolerance that falls wakes the device (R342). -/
def Dev.ltrConfigWrite (d : Dev) (h : Nat) (en : Bool) (snoop noSnoop : Nat) : Dev :=
  if d.attached h then
    let was := d.minTol
    let d := d.setHead h fun x => { x with ltrEn := en, snoopNs := snoop, noSnoopNs := noSnoop }
    let d := if en then d.emit (.ltr h) else d
    if d.minTol < was then d.wake 8 h else d
  else d

/-- IDE_KEY_PROGRAM (R83): only within a finished session over the head's DOE, for its CXL.io or its CXL.cachemem stream. -/
def Dev.ideKeyProgram (d : Dev) (h : Nat) (inSession io : Bool) : Dev :=
  if (d.head h).up && inSession && d.sec.sessions.any (fun x => x.sess.tr == Transport.doe h && x.finished) then
    d.setHead h fun x => if io then { x with ideIo := 1 } else { x with ide := 1 }
  else d

/-- IDE_INTEGRITY_FAILURE (R84). -/
def Dev.ideIntegrityFailure (d : Dev) (h : Nat) (io : Bool) : Dev :=
  if (d.head h).up ∧ (if io then (d.head h).ideIo else (d.head h).ide) = 1 then
    ((d.setHead h fun x => if io then { x with ideIo := 2 } else { x with ide := 2 }).raiseI 66
      { slice := headSlice h, heads := [h] }).memberDead h 2
  else d

/-- TABLE_ACCESS (R56): one DSMAS range, of the static region or DC region 0, and its DSLBIS entries. -/
def Dev.tableAccess (d : Dev) (h : Nat) : Dev :=
  if (d.head h).up then
    let blocks := match d.staticOf h with
      | some n => (d.regionNum n).elim 0 Region.size
      | none => d.cfg.capacity
    d.emit (.cdat h (if d.prim = .primed then blocks * 2 ^ 28 else 0) 190 70 (d.head h).payload)
  else d

/-! ### M2S requests -/

/-- A head whose link carries CXL.mem: 8 GT/s or more (R58). -/
def Dev.portLive (d : Dev) (h : Nat) : Bool := d.attached h && (d.head h).cxl

/-- REQ_IDE is set and the CXL.cachemem stream is not Secure (R161). -/
def Dev.needsIde (d : Dev) (h : Nat) : Bool := d.fld (hpBase h + 0x30) 0 0 == 1 && (d.head h).ide != 1

/-- A head's port serves CXL.mem: no stream of it is Insecure (R84), and REQ_IDE has its stream Secure (R161). -/
def Dev.portServes (d : Dev) (h : Nat) : Bool := d.portLive h && (d.head h).ide != 2 && (d.head h).ideIo != 2 && !d.needsIde h

/-- What a port answers itself (R64, R85). -/
def ReqKind.portRsp : ReqKind → Rsp
  | .write .. | .cleanEvict => .cmp
  | .ownNoData _ => .cmpE
  | _ => .memData

def Dev.portAnswer (d : Dev) (h tag line : Nat) (k : ReqKind) : Dev := d.respond1 (.head h) tag line k.portRsp 0#512 true

/-- A request outside the head's view, with the event it raises (R64, R161). -/
def Dev.outOfView (d : Dev) (h tag line : Nat) (k : ReqKind) (ev : Nat) : Dev :=
  ((d.setHead h fun x => { x with oov := satInc (2 ^ 32 - 1) x.oov }).raiseI ev { slice := headSlice h, heads := [h] }).portAnswer h tag line k

/-- A host's request at its port, by host physical address (R21, R63, R64, R84, R161). An address that no decoder covers is out of the
view too (DEDUCED, log 78). -/
def Dev.m2s (d : Dev) (h tag hpa : Nat) (k : ReqKind) : Dev :=
  if !d.portLive h then d
  else if d.prim ≠ .primed then d.portAnswer h tag (hpa / 64) k
  else if d.needsIde h then d.outOfView h tag (hpa / 64) k 105
  else if !d.portServes h then d
  else match d.hostAddr h hpa with
    | none => d.outOfView h tag (hpa / 64) k 67
    | some a => d.portAdmit h { rq := .head h, tag := tag, line := a / 64, kind := k }

def Dev.m2sMemRd (d : Dev) (h tag dpa : Nat) (mv : MetaV) : Dev := d.m2s h tag dpa (readKind mv)
def Dev.m2sMemRdData (d : Dev) (h tag dpa : Nat) : Dev := d.m2s h tag dpa .anyRead
def Dev.m2sMemInv (d : Dev) (h tag dpa : Nat) (_ : MetaV) : Dev := d.m2s h tag dpa (.ownNoData false)
def Dev.m2sMemInvNT (d : Dev) (h tag dpa : Nat) (_ : MetaV) : Dev := d.m2s h tag dpa (.ownNoData true)
def Dev.m2sMemWr (d : Dev) (h tag dpa : Nat) (mv : MetaV) (x : Line) : Dev :=
  d.m2s h tag dpa (.write (BitVec.allOnes 64) x true mv { kind := 0, tile := 0 })
def Dev.m2sMemWrPtl (d : Dev) (h tag dpa : Nat) (mv : MetaV) (mask : BitVec 64) (x : Line) : Dev :=
  d.m2s h tag dpa (.write mask x false mv { kind := 0, tile := 0 })
def Dev.m2sMemClnEvct (d : Dev) (h tag dpa : Nat) : Dev := d.m2s h tag dpa .cleanEvict

/-- M2S_BIRSP (R178). -/
def Dev.m2sBIRsp (d : Dev) (h hpa : Nat) (r : SnpRsp) : Dev :=
  match d.hdm h hpa with
  | some dpa => if d.portServes h ∧ d.prim = .primed then d.memberRsp h ((d.headDpaBase h + dpa) / 64) r else d
  | none => d

/-- M2S_BICONFLICT (R180). -/
def Dev.m2sBIConflict (d : Dev) (h hpa : Nat) : Dev :=
  match d.hdm h hpa with
  | some dpa => if d.portServes h ∧ d.prim = .primed then d.memberConflict h ((d.headDpaBase h + dpa) / 64) (.head h) else d
  | none => d

/-! ### Reads and promotions that end -/

/-- The page of a read turns out unreadable (R132, R237): it is lost. -/
def Dev.readBroken (d : Dev) (r : ReadIn) (n : Nat) (e : DecErr) : Dev :=
  ((d.decodeError n (lnPage r.line) e).losePage (lnPage r.line)).poisonRead r.rq r.tag r.line r.rsp

/-- Fill the cistern with lines of a page, by index from `i` (R22, R132). -/
def Dev.fillFrom (d : Dev) (page i : Nat) (ls : List (Line × Bool)) : Dev :=
  forAll d (ls.zipIdx) fun d x => if x.1.2 then d else d.fillLine (page * 64 + i + x.2) x.1.1 false

/-- READ_COMPLETION (R21, R22, R132, R237): a read of a T2 or T3 page ends once its home slice holds a decoder for it (R133). -/
def Dev.readCompletion (d : Dev) (id : Nat) : Dev :=
  match d.reads.find? fun r => r.id == id with
  | none => d
  | some r =>
    let page := lnPage r.line
    let e := d.entry page
    if !d.mayDecode page e.tier id then d
    else
    let dec := (d.homeDec (d.homeTile page) id).getD (16 * d.homeTile page)
    let d := { d with reads := d.reads.filter fun x => x.id != id }
    if r.failed then d.poisonRead r.rq r.tag r.line r.rsp
    else match d.lookup r.line with
    | .data l => d.respond r.rq r.tag r.line r.rsp l false
    | .zero => d.respond r.rq r.tag r.line r.rsp 0#512 false
    | .poison => d.poisonRead r.rq r.tag r.line r.rsp
    | .miss =>
      if e.remote then d.forward r.rq r.tag r.line .uncachedRead
      else match d.storedPage e with
      | .error x => d.readBroken r dec x
      | .ok s =>
        let x := s.1.getD (lnIdx r.line) (0#512, true)
        if x.2 then d.poisonRead r.rq r.tag r.line r.rsp
        else
          let i := if e.tier = 0 then lnIdx r.line / 2 * 2 else 0
          let d := d.fillFrom page i (if e.tier = 0 then (s.1.drop i).take 2 else s.1)
          d.respond r.rq r.tag r.line r.rsp x.1 false

/-- The write that a promotion waited for, applied to the page in T1 and answered; a push to the guest follows (R185). One whose domain
went down was answered then, and is not applied (R188). -/
def Dev.promoWrite (d : Dev) (x : Promo) : Dev :=
  match x.req.kind with
  | .write m v full _ h =>
    let q := x.req
    if x.dropped then d else ((d.writeT1 q.line m v full h).respond q.rq q.tag q.line [.cmp] 0#512 false).pushGuest q h
  | _ => d

/-- A promotion whose source cannot be read (R239): the page is lost and rewritten poisoned in its new frame. -/
def Dev.promoLost (d : Dev) (x : Promo) : Dev :=
  let d := d.setEntry x.page { x.old with heat := (d.entry x.page).heat, stamp := (d.entry x.page).stamp }
  let d := d.losePage x.page
  let kd := (d.attrs x.page).elim x.old.kdom Region.kdom
  let d := d.setEntry x.page (d.firstHeat (d.homeTile x.page) { st := .stable, kdom := kd, loc := locT1 x.frame, poison := 1 })
  (forAll d (List.range 32) fun d i => d.putGran kd (frameGran x.frame i) 0#512 0#512 3).promoWrite x

/-- An inline promotion whose source page names a domain erased meanwhile (R156): the page becomes Unbacked, and the write follows R91. -/
def Dev.promoErased (d : Dev) (x : Promo) : Dev :=
  let d := d.setEntry x.page { x.old with heat := (d.entry x.page).heat, stamp := (d.entry x.page).stamp }
  let d := (d.freeFrame x.frame).unback x.page
  match x.req.kind with
  | .write m v full _ h => if x.dropped then d else d.serveWrite x.req m v full h
  | _ => d

/-- INLINE_PROMOTION_END (R26, R239): a source in T2 or T3 needs a decoder (R133). -/
def Dev.inlinePromotionEnd (d : Dev) (page : Nat) : Dev :=
  match d.promos.find? fun x => x.page == page with
  | none => d
  | some x =>
    if !d.mayDecode page x.old.tier x.id then d
    else
    let dec := (d.homeDec (d.homeTile page) x.id).getD (16 * d.homeTile page)
    let d := { d with promos := d.promos.filter fun y => y.page != page }
    if d.erasedPage x.old then d.promoErased x
    else if x.failed then d.promoLost x
    else match d.storedPage x.old with
    | .error e => (d.decodeError dec page e).promoLost x
    | .ok s =>
      let e := d.entry page
      let kd := (d.attrs page).elim e.kdom Region.kdom
      let ls := d.pageView page s.1
      let d := d.setEntry page { e with st := .stable, owner := 0, tier := 0, raw := false, book := 0, kdom := kd, loc := locT1 x.frame }
      ((d.releaseStorage x.old).placePage page ls).promoWrite x

/-! ### The cistern -/

/-- CISTERN_EVICTION (R25). -/
def Dev.cisternEviction (d : Dev) (g : Nat) (readUe : Bool) : Dev :=
  let v := d.gran g
  if v.v0 || v.v1 then d.evictGran g readUe else d

/-- KEEP_EXPIRY (R183). -/
def Dev.keepExpiry (d : Dev) (g : Nat) : Dev :=
  match (d.gran g).keep with
  | some t => if t ≤ d.time.loc then d.setGran g { d.gran g with keep := none } else d
  | none => d

/-! ### Admission and its timeouts -/

/-- ARBITER_ADMISSION (R169, R191): one admission cycle of a home slice. -/
def Dev.arbiterAdmission (d : Dev) (n : Nat) (ecc : DirEcc) : Dev :=
  if n < d.nHs ∧ d.prim = .primed ∧ !d.asleep then
    let (d, go) := d.dirCheck n ecc
    if go then d.arbitrate n else d
  else d

/-- TRANSACTION_ACKNOWLEDGED (R172): the line is released; a fetched page's fence goes on. -/
def Dev.transactionAcknowledged (d : Dev) (line : Nat) : Dev := (d.releaseHold (d.home (lnPage line)) line).fetchRun

/-- The member that a cause of going down names: a head or the guest of this device, 17 another device, 31 the directory. -/
def Dev.downSource (d : Dev) (dev who : Nat) : Nat := if dev ≠ d.devId then 17 else if who ≤ 16 then who else 31

/-- SNOOP_TIMEOUT (R173). -/
def Dev.snoopTimeout (d : Dev) (line : Nat) : Dev :=
  let n := d.home (lnPage line)
  match (d.hsl n).holds.find? fun x => x.line == line && d.domState x.dev x.group == 0 && x.snps.any fun s => decide (d.snpTo ≤ s.age) with
  | none => d
  | some x =>
    let who := ((x.snps.find? fun s => decide (d.snpTo ≤ s.age)).map SnpOut.who).getD 31
    (d.raise 110 (hsSlice n)).detectDown x.dev x.group 3 (d.downSource x.dev who) (hsSlice n)

/-- HOLD_TIMEOUT (R173). -/
def Dev.holdTimeout (d : Dev) (line : Nat) : Dev :=
  let n := d.home (lnPage line)
  match (d.hsl n).holds.find? fun x => x.line == line && d.domState x.dev x.group == 0 && decide (d.snpTo ≤ x.age) with
  | none => d
  | some x =>
    (d.raise 110 (hsSlice n)).detectDown x.dev x.group 4 (d.downSource x.dev ((x.req.map fun q => q.rq.ptr).getD 31)) (hsSlice n)

/-- One more stroke of waiting for every hold and snoop at a boundary, and those that have timed out (R173). -/
def Dev.ageHolds (d : Dev) : Dev :=
  let d := forAll d (List.range d.nHs) fun d n =>
    d.setHs n fun h => { h with holds := h.holds.map fun x =>
      { x with age := x.age + 1, snps := x.snps.map fun y => { y with age := y.age + 1 } } }
  forAll d (List.range d.nHs) fun d n => forAll d ((d.hsl n).holds.map Hold.line) fun d l => (d.snoopTimeout l).holdTimeout l

/-! ### Commands -/

/-- PERST_N_ASSERTION (R27). -/
def execPerstAssertion (h : Nat) (s : State) : Host.Outcome State Fault Refusal := s.done (s.dev.perstAssertion h)

/-- PERST_N_DEASSERTION (R60). -/
def execPerstDeassertion (h : Nat) (s : State) : Host.Outcome State Fault Refusal := s.done (s.dev.perstDeassertion h)

/-- HOST_LINK_UP (R59). -/
def execHostLinkUp (h : Nat) (rate : Nat) (width : Nat) (s : State) : Host.Outcome State Fault Refusal :=
  s.done (s.dev.hostLinkUp h rate width)

/-- HOST_LINK_DOWN (R59). -/
def execHostLinkDown (h : Nat) (s : State) : Host.Outcome State Fault Refusal := s.done (s.dev.hostLinkDown h)

/-- HDM_DECODER_COMMIT (R63). -/
def execHdmDecoderCommit (h : Nat) (i : Nat) (dec : Decoder) (s : State) : Host.Outcome State Fault Refusal :=
  s.done (s.dev.hdmDecoderCommit h i dec)

/-- LTR_CONFIG_WRITE (R81). -/
def execLtrConfigWrite (h : Nat) (en : Bool) (snoopNs : Nat) (noSnoopNs : Nat) (s : State) : Host.Outcome State Fault Refusal :=
  s.done (s.dev.ltrConfigWrite h en snoopNs noSnoopNs)

/-- IDE_KEY_PROGRAM (R83). -/
def execIdeKeyProgram (h : Nat) (prog : IdeProgram) (s : State) : Host.Outcome State Fault Refusal :=
  s.done (s.dev.ideKeyProgram h prog.inSession prog.io)

/-- IDE_INTEGRITY_FAILURE (R84). -/
def execIdeIntegrityFailure (stream : IdeStream) (s : State) : Host.Outcome State Fault Refusal :=
  s.done (s.dev.ideIntegrityFailure stream.head stream.io)

/-- M2S_MEMRD (R21). -/
def execM2sMemRd (h : Nat) (tag : Nat) (dpa : Nat) (mv : MetaV) (s : State) : Host.Outcome State Fault Refusal :=
  s.done (s.dev.m2sMemRd h tag dpa mv)

/-- M2S_MEMRDDATA (R176). -/
def execM2sMemRdData (h : Nat) (tag : Nat) (dpa : Nat) (s : State) : Host.Outcome State Fault Refusal :=
  s.done (s.dev.m2sMemRdData h tag dpa)

/-- M2S_MEMINV (R176). -/
def execM2sMemInv (h : Nat) (tag : Nat) (dpa : Nat) (mv : MetaV) (s : State) : Host.Outcome State Fault Refusal :=
  s.done (s.dev.m2sMemInv h tag dpa mv)

/-- M2S_MEMINVNT (R176). -/
def execM2sMemInvNT (h : Nat) (tag : Nat) (dpa : Nat) (mv : MetaV) (s : State) : Host.Outcome State Fault Refusal :=
  s.done (s.dev.m2sMemInvNT h tag dpa mv)

/-- M2S_MEMWR (R24). -/
def execM2sMemWr (h : Nat) (tag : Nat) (dpa : Nat) (mv : MetaV) (data : Line) (s : State) : Host.Outcome State Fault Refusal :=
  s.done (s.dev.m2sMemWr h tag dpa mv data)

/-- M2S_MEMWRPTL (R24). -/
def execM2sMemWrPtl (h : Nat) (tag : Nat) (dpa : Nat) (mv : MetaV) (mask : BitVec 64) (data : Line) (s : State) :
    Host.Outcome State Fault Refusal :=
  s.done (s.dev.m2sMemWrPtl h tag dpa mv mask data)

/-- M2S_MEMCLNEVCT (R176). -/
def execM2sMemClnEvct (h : Nat) (tag : Nat) (dpa : Nat) (s : State) : Host.Outcome State Fault Refusal :=
  s.done (s.dev.m2sMemClnEvct h tag dpa)

/-- M2S_BIRSP (R178). -/
def execM2sBIRsp (h : Nat) (dpa : Nat) (rsp : SnpRsp) (s : State) : Host.Outcome State Fault Refusal :=
  s.done (s.dev.m2sBIRsp h dpa rsp)

/-- M2S_BICONFLICT (R180). -/
def execM2sBIConflict (h : Nat) (dpa : Nat) (s : State) : Host.Outcome State Fault Refusal := s.done (s.dev.m2sBIConflict h dpa)

/-- READ_COMPLETION (R21). -/
def execReadCompletion (id : Nat) (s : State) : Host.Outcome State Fault Refusal := s.done (s.dev.readCompletion id)

/-- INLINE_PROMOTION_END (R26). -/
def execInlinePromotionEnd (page : Nat) (s : State) : Host.Outcome State Fault Refusal := s.done (s.dev.inlinePromotionEnd page)

/-- CISTERN_EVICTION (R25). -/
def execCisternEviction (gran : Nat) (readUe : Bool) (s : State) : Host.Outcome State Fault Refusal :=
  s.done (s.dev.cisternEviction gran readUe)

/-- KEEP_EXPIRY (R183). -/
def execKeepExpiry (gran : Nat) (s : State) : Host.Outcome State Fault Refusal := s.done (s.dev.keepExpiry gran)

/-- ARBITER_ADMISSION (R169). -/
def execArbiterAdmission (hs : Nat) (ecc : DirEcc) (s : State) : Host.Outcome State Fault Refusal :=
  s.done (s.dev.arbiterAdmission hs ecc)

/-- TRANSACTION_ACKNOWLEDGED (R172). -/
def execTransactionAcknowledged (line : Nat) (s : State) : Host.Outcome State Fault Refusal :=
  s.done (s.dev.transactionAcknowledged line)

/-- SNOOP_TIMEOUT (R173). -/
def execSnoopTimeout (line : Nat) (s : State) : Host.Outcome State Fault Refusal := s.done (s.dev.snoopTimeout line)

/-- HOLD_TIMEOUT (R173). -/
def execHoldTimeout (line : Nat) (s : State) : Host.Outcome State Fault Refusal := s.done (s.dev.holdTimeout line)

/-- TABLE_ACCESS (R56). -/
def execTableAccess (h : Nat) (s : State) : Host.Outcome State Fault Refusal := s.done (s.dev.tableAccess h)

end Sys2Proof.Machine
end

