-- ==== Sys2Proof/Machine/Flags.lean ====
section
/-! DEFINITION. What each management register reads as (R3, R4, R9 to R12 and the register tables of every chapter): its RWT and RW
fields with the read-only fields that show the state. -/

namespace Sys2Proof.Machine

open Sys2Proof

/-! ### Packing fields -/

/-- A word from its fields, each (high bit, low bit, value). -/
def pack : List (Nat × Nat × Nat) → Nat
  | [] => 0
  | (hi, lo, v) :: t => v % 2 ^ (hi + 1 - lo) * 2 ^ lo + pack t

/-- A field that holds at its highest value. -/
def sat (w v : Nat) : Nat := min v (2 ^ w - 1)

/-- Which element of a table of registers an offset names. -/
def tblIdx (o base stride count : Nat) : Option Nat :=
  if base ≤ o ∧ (o - base) % stride = 0 ∧ (o - base) / stride < count then some ((o - base) / stride) else none

/-- A mask of the numbers below `n` that satisfy a condition. -/
def maskOf (n : Nat) (p : Nat → Bool) : Nat := ((List.range n).map fun i => b2n (p i) * 2 ^ i).sum

/-! ### Control tile: fixed addresses -/

def Dev.poolPend (d : Dev) : Bool := d.pendingSlot.isSome

def Dev.strokeStat (d : Dev) : Nat :=
  let t := d.time
  pack [(31, 31, b2n t.overrun), (30, 30, b2n t.realigned), (29, 28, d.role), (27, 27, b2n t.holdover), (26, 26, b2n t.planned),
    (25, 25, b2n (d.role != 2 || t.aligned)), (24, 22, if d.role = 2 ∧ !t.holdover then 3 else d.clk.refSrc), (15, 0, twos 16 t.phaseErr)]

def Dev.cfgStat (d : Dev) : Nat :=
  let t := d.cfg.txn
  let own := if t.st = .idle then 31 else match t.owner with | some o => srcNum o | none => 31
  pack [(31, 30, d.cfg.slot), (29, 27, t.st.num), (26, 22, own), (21, 21, b2n d.cfg.restartPend), (20, 20, b2n d.poolPend),
    (12, 8, d.cfg.lastReason)]

def Dev.secStat (d : Dev) : Nat :=
  pack [(31, 30, d.lifecycle), (29, 28, (d.currentOwner.map Prod.fst).getD 0), (27, 24, d.revoked.toNat), (23, 20, d.sec.scope.toNat),
    (19, 19, b2n d.sec.dbgEver), (18, 18, b2n (d.led.chain != []))]

def Dev.pwrStat (d : Dev) : Nat :=
  let p := d.pwr
  pack [(31, 29, p.st), (28, 26, p.target), (25, 25, b2n p.entering), (24, 24, b2n p.waking), (23, 20, p.src), (19, 14, p.idx)]

def Dev.clkStat (d : Dev) : Nat :=
  pack [(31, 30, d.clk.refSrc), (29, 29, b2n (d.mon (clockKey .refclk)).goodNow), (28, 28, b2n (d.mon (clockKey .xo)).goodNow),
    (27, 27, b2n (d.clk.straps.oscWait == 7)), (26, 26, b2n d.clk.trimFrozen), (21, 11, d.clk.onRc.toNat),
    (10, 0, maskOf 11 fun t => (d.mon (if t = 0 then clockKey .core else clockKey (.fabric t))).latched)]

/-- The frequency in kHz of the clock that a `CLKOUT` setting selects; 0 for a stopped clock or a selection that names none. -/
def Dev.clkoutKhz (d : Dev) (v : Nat) : Nat :=
  let tile := bits v 29 26
  let idx := bits v 20 16
  let op := [2000000, 1600000, 1200000, 800000].getD d.clk.opNow 0
  match bits v 25 23 with
  | 0 => 100000
  | 1 => 200000
  | 2 => 500000
  | 3 => if 1 ≤ tile ∧ tile ≤ 9 then (if d.clk.onRc.getLsbD tile then 500000 else op) else 0
  | 4 =>
    if 2 ≤ tile ∧ tile ≤ 5 then
      if idx < 4 then ([0, 2500000, 8000000, 16000000, 32000000, 64000000].getD (d.head ((tile - 2) * 4 + idx)).rate 0)
      else ([0, 56000000, 112000000].getD (d.port ((tile - 2) * 4 + idx % 4)).rate 0)
    else 0
  | 5 => if 6 ≤ tile ∧ tile ≤ 9 ∧ idx < 8 ∧ (d.chan ((tile - 6) * 8 + idx)).up then rateMts (d.chan ((tile - 6) * 8 + idx)).rate * 500 else 0
  | 6 => if d.clk.onRc.getLsbD 0 then 200000 else 500000
  | _ => 0

/-- CLKOUT_ERR (R361): the setting in force drives a divided clock above 200 MHz. -/
def Dev.clkoutErr (d : Dev) : Bool :=
  let v := d.clk.clkout.toNat
  bit v 31 && decide (d.clkoutKhz v > 200000 * max 1 (bits v 15 0))

def Dev.supStat (d : Dev) : Nat :=
  pack [(31, 31, b2n d.sup.brace), (30, 28, d.sup.rail), (27, 24, d.sup.tile), (23, 16, d.sup.warn.toNat), (15, 0, sat 16 d.sup.dips)]

def Dev.thermStat (d : Dev) : Nat :=
  let t := d.therm
  pack [(31, 31, b2n t.throttle), (30, 30, b2n t.enforced), (29, 29, b2n (t.sens.any fun e => e.2.rate)), (28, 28, b2n t.latched),
    (27, 24, t.tile), (23, 21, t.kind), (20, 16, t.ch), (15, 8, t.lost)]

def Dev.sensorStat (d : Dev) : Nat :=
  let hot (t : Nat) : Bool := d.tilePresent t && (d.sens t).seen && decide ((d.sens t).used ≥ Int.ofNat (d.fld 0xA00 31 24) * 64)
  pack [(26, 16, maskOf 11 hot), (10, 0, maskOf 11 fun t => d.tilePresent t && (d.sens t).failed)]

def Dev.evStat (d : Dev) : Nat :=
  pack [(31, 31, b2n d.faultN), (30, 30, b2n d.alertN), (15, 8, if d.anyN then d.ev.firstN else 0), (7, 0, d.ev.dropped)]

def Dev.ledgerStat (d : Dev) : Nat :=
  pack [(31, 20, d.led.next), (19, 19, b2n d.led.wrapped), (18, 8, d.led.repairs.length), (7, 7, b2n d.ledgerHeld), (6, 0, d.ev.queue.length)]

/-- 32-bit registers of the control tile at an address of their own; RWT bits are added by `regVal`. -/
def Dev.ctFixed (d : Dev) (o : Nat) : Option Nat :=
  let p := d.pwr
  match o with
  | 0x100 => some d.caps0.toNat
  | 0x104 => some d.caps1.toNat
  | 0x210 => some d.strokeStat
  | 0x218 => some d.time.overrunLog.toNat
  | 0x320 => some (pack [(30, 30, b2n d.overLimit), (18, 0, committedOf d.cfg.active.regions d.grants)])
  | 0x324 => some ((if d.prim = .primed then d.limitFrames d.grants / 65536 else 0) % 2 ^ 19)
  | 0x3C0 => some d.cfgStat
  | 0x3C4 => some (d.cfgVersion % 2 ^ 32)
  | 0x3D0 => some d.poolNow.1.toNat
  | 0x440 => some d.secStat
  | 0x444 => some (d.floorNow % 2 ^ 32)
  | 0x44C => some (if d.sec.scope &&& 7#4 = 0#4 then 0 else d.sec.expiry % 2 ^ 32)
  | 0x450 => some (pack [(31, 24, d.cores.mismatch), (23, 16, d.cores.wdog), (15, 8, d.cores.fetchUe), (0, 0, b2n d.cores.halted)])
  | 0x500 => some d.pwrStat
  | 0x50C => some (pack [(31, 16, sat 16 p.exit3), (15, 0, sat 16 p.exit2)])
  | 0x510 => some (pack [(31, 16, sat 16 p.exit1), (15, 0, sat 16 p.exit4)])
  | 0x514 => some (pack [(31, 28, p.lastCause), (27, 16, p.lastSlice), (15, 13, p.lastHeld), (11, 0, p.lastPartner)])
  | 0x518 => some (pack [(31, 16, p.entries), (15, 0, p.interrupted)])
  | 0x600 => some d.clkStat
  | 0x608 => some (pack [(31, 28, d.clk.failTile), (27, 25, d.clk.failDom), (24, 20, d.clk.failIdx), (15, 0, sat 16 d.clk.forced)])
  | 0x60C => some (pack [(31, 0, (d.clk.clkoutPend.getD d.clk.clkout).toNat), (30, 30, b2n d.clkoutErr)])
  | 0x614 => some (pack [(31, 30, if d.clk.booted then d.clk.opNow else 0), (29, 29, b2n d.clk.moving), (28, 28, b2n d.clk.opFault),
      (27, 27, b2n (d.clk.deferred || d.raiseHeld)), (26, 24, d.clk.faultRail)])
  | 0x664 => some d.supStat
  | 0xA0C => some d.thermStat
  | 0xA10 => some d.sensorStat
  | 0xB020 => some d.evStat
  | 0xB024 => some d.ledgerStat
  | _ => none

/-! ### Control tile: tables -/

/-- `CT_DOM_STAT_g` (R189, R194). -/
def Dev.domStat (d : Dev) (g : Nat) : Nat :=
  let x := d.dom g
  pack [(31, 30, x.st.num), (29, 26, x.cause), (25, 21, x.source), (20, 20, b2n x.guest), (15, 0, x.members.toNat)]

/-- `CT_EV_ROUTE_n` (R398): the routing of an N event reads as fixed. -/
def Dev.evRoute (d : Dev) (n : Nat) : Nat :=
  pack [(31, 30, (evClass n).getD 0), (3, 0, if evClass n = some 0 then 15 else (d.cfgReg (0xB100 + n * 4)).toNat)]

/-- `CT_CNT_CFG_n` (R406, R409, R410): a reprogram that waits for its boundary already shows. -/
def Dev.cntCfg (d : Dev) (n : Nat) : Nat :=
  let c := d.cnt n
  pack [(31, 0, (c.want.getD c.cfg).toNat), (28, 28, b2n c.ovf), (7, 7, b2n (d.cntBad n))]

/-- `CT_RAIL_V_r` (R363): the lowest sample of the rail over its tiles. -/
def Dev.railV (d : Dev) (r : Nat) : Nat :=
  let now := (d.sup.now.filter fun e => e.1 / 16 == r).map Prod.snd
  pack [(31, 16, sat 16 (Tbl.get 0xFFFF d.sup.low r)), (15, 0, sat 16 (now.foldl min (now.headD 0)))]

/-- `CT_SLOT_STAT_n`. -/
def Dev.slotStat (d : Dev) (n : Nat) : Nat :=
  let s := Tbl.get {} d.cfg.slots n
  pack [(31, 29, if n < 2 then d.slotState n else 0), (28, 28, b2n s.valid), (27, 23, s.reason)]

/-- Word `w` of an owner key hash, low-order byte first; zero when the entry is not valid. -/
def Dev.ownerWord (d : Dev) (n w : Nat) : Nat :=
  match d.otp.owners[n]? with
  | some (true, h) => fieldAt (digestBytes h) (4 * w) 4
  | _ => 0

/-- `CT_PWR_REFUSE_n`. -/
def Dev.refuserReg (d : Dev) (n : Nat) : Nat :=
  match d.pwr.refusers[n]? with
  | some r => pack [(31, 31, 1), (30, 28, r.cause), (27, 16, r.slice), (15, 8, r.refused), (7, 0, r.aborted)]
  | none => 0

/-- `CT_TEMP_t`. -/
def Dev.tempReg (d : Dev) (t : Nat) : Nat :=
  if d.tilePresent t then pack [(31, 16, twos 16 (d.sens t).raw), (15, 0, twos 16 (d.sens t).used)] else 0

/-- `CT_BW_CFG_s`: K as last written. -/
def Dev.bwCfg (d : Dev) (n : Nat) : Nat :=
  if d.bwPresent n then pack [(31, 27, (d.bw n).want.getD (d.bw n).k), (15, 8, sat 8 (d.bw n).missed)] else 0

/-- The perturbation registers of slot `p`: word 0 CTL, 1 MAG, 2 START, 3 DUR. They read zero while the unit is locked (R416). -/
def Dev.pertReg (d : Dev) (p w : Nat) : Nat :=
  let x := d.pert p
  if !d.pertOpen then 0
  else match w with
  | 0 => pack [(30, 30, b2n x.stop), (29, 28, x.st), (27, 24, x.kind), (23, 23, b2n x.unit), (19, 8, x.target)]
  | 1 => x.mag % 1024
  | 2 => x.start % 2 ^ 32
  | _ => x.dur % 2 ^ 24

/-- A route entry's read-only bits (R268, R271, R272). -/
def Dev.routeRo (d : Dev) (n : Nat) : Nat :=
  let r := d.route n
  pack [(29, 29, b2n r.usingAlt), (28, 28, b2n r.unreach), (27, 27, b2n r.byNotice)]

/-- The first of a list of tables that has the offset, with the register's value. -/
def firstOf : List (Option Nat) → Option Nat
  | [] => none
  | some v :: _ => some v
  | none :: t => firstOf t

def Dev.ctTables (d : Dev) (o : Nat) : Option Nat :=
  firstOf
    [ (tblIdx o 0x1008 8 255).map fun i => d.domStat (i + 1),
      (tblIdx o 0x100C 8 255).map fun i => (d.dom (i + 1)).stroke % 2 ^ 32,
      (tblIdx o 0x3F0 8 3).map fun n => (Tbl.get {} d.cfg.slots n : SlotChk).ver % 2 ^ 32,
      (tblIdx o 0x3F4 8 3).map fun n => d.slotStat n,
      (tblIdx o 0x460 4 32).map fun i => d.ownerWord (i / 8) (i % 8),
      (tblIdx o 0x520 4 16).map fun n => d.refuserReg n,
      (tblIdx o 0x618 4 4).map fun n => d.opVolt n % 65536,
      (tblIdx o 0x630 4 11).map fun t => sat 16 (Tbl.get 0 d.clk.gateRefused t),
      (tblIdx o 0x680 4 8).map fun r => d.railV r,
      (tblIdx o 0x804 16 32).map fun n => if n < d.nBays then d.bayStat n else 0,
      (tblIdx o 0x808 16 32).map fun n => if n < d.nBays then d.bayMeas n else 0,
      (tblIdx o 0x80C 16 32).map fun n => if n < d.nBays then d.bayHist n else 0,
      (tblIdx o 0xA20 4 11).map fun t => d.tempReg t,
      (tblIdx o 0x4000 4 4096).map fun n => d.routeRo n,
      (tblIdx o 0xB000 4 8).map fun w => (d.ev.pend.extractLsb' (32 * w) 32).toNat,
      (tblIdx o 0xB100 4 256).map fun n => d.evRoute n,
      (tblIdx o 0xE000 4 1024).map fun n => d.cntCfg n,
      (tblIdx o 0xF000 4 64).map fun n => d.bwCfg n,
      (tblIdx o 0x10000 4 32).map fun i => d.pertReg (i / 4) (i % 4) ]

/-- Pages in T4 under a grant, on the importer; backed pages of its range, on the owner (R280). -/
def Dev.t4Used (d : Dev) (n : Nat) : Nat :=
  let g := grantOf d.cfgReg n
  if !g.valid then 0
  else if g.owner then
    (d.wmap.filter fun x => x.2.st != .unbacked && decide (g.ob ≤ x.1 / 65536) && decide (x.1 / 65536 < g.ob + g.len)).length
  else (d.wmap.filter fun x => x.2.remote && decide (g.ib ≤ x.1 / 65536) && decide (x.1 / 65536 < g.ib + g.len)).length

/-- One result register of a bandwidth source (R414). -/
def Bw.res (b : Bw) (i : Nat) : Nat × Bool × Nat × Bool :=
  match i with | 0 => b.r00 | 1 => b.r01 | 2 => b.r10 | _ => b.r11

def bwWord (r : Nat × Bool × Nat × Bool) : Nat := pack [(63, 48, r.1), (47, 47, b2n r.2.1), (46, 0, r.2.2.1)]

/-- 64-bit registers of the control tile. -/
def Dev.ctWide (d : Dev) (o : Nat) : Option Nat :=
  firstOf
    [ if o = 0x200 then some (d.time.loc % 2 ^ 64) else none,
      if o = 0x208 then some (d.pool % 2 ^ 64) else none,
      if o = 0x220 then some (twos 64 d.time.ofs) else none,
      if o = 0x3C8 then some d.cfg.active.digest.toNat else none,
      if o = 0x3D8 then some d.poolNow.2.toNat else none,
      (tblIdx o 0x560 8 5).map fun n => d.pwr.res.getD n 0 % 2 ^ 64,
      (tblIdx o 0x8400 8 64).map fun n => d.t4Used n,
      (tblIdx o 0xC000 8 1024).map fun n => d.cntRead n,
      (tblIdx o 0xF800 8 256).map fun i => if d.bwPresent (i / 4) then bwWord ((d.bw (i / 4)).res (i % 4)) else 0 ]

/-! ### Hub tile -/

def Dev.guestStat (d : Dev) : Nat :=
  let g := d.gst
  pack [(31, 29, if d.hasGuest then g.st + 1 else 0), (28, 28, b2n (d.hasGuest && g.coherent && !g.lateFit)),
    (27, 25, d.guestModsUp.length), (24, 22, g.cause), (15, 0, sat 16 g.violations)]

def Dev.modStat (d : Dev) (m : Nat) : Nat :=
  if d.modPresent m then
    let x := d.modu m
    pack [(31, 29, x.st), (28, 26, x.rate), (25, 25, b2n x.repaired), (15, 8, sat 8 x.retrains), (7, 0, sat 8 x.retries)]
  else 0

def Dev.htReg (d : Dev) (o : Nat) : Option Nat :=
  firstOf
    [ if o = 0x100 then some d.guestStat else none,
      if o = 0x104 then some 0 else none,
      if o = 0x108 then some (sat 16 d.gst.oov) else none,
      (tblIdx o 0x200 4 53).map fun m => d.modStat m ]

/-! ### Port tiles -/

def Dev.headReg (d : Dev) (h o : Nat) : Option Nat :=
  let x := d.head h
  match o with
  | 0x00 => some (pack [(31, 28, if x.up then x.rate else 0), (27, 24, if x.up then x.width else 0), (23, 23, b2n x.cxl),
      (22, 22, b2n (x.ide == 1)), (21, 21, b2n x.degraded), (20, 20, b2n (d.attached h)), (15, 0, sat 16 x.retrains)])
  | 0x10 => some (pack [(2, 2, b2n d.therm.throttle), (1, 0, x.devload)])
  | 0x20 => some (pack [(31, 31, b2n x.restReq), (30, 30, b2n x.ltrEn), (23, 0, sat 24 x.tolerance)])
  | _ => none

/-- STATE of `PT_CP_LINK_STAT`: the link states table's codes. -/
def LinkSt.num : LinkSt → Nat
  | .down => 0 | .training => 1 | .keying => 2 | .up => 3 | .sleep => 4 | .waking => 5 | .refused => 6

/-- Credits held of one virtual channel, both classes, in units of 8 slots (R260). -/
def CPort.creditField (c : CPort) (vc : Nat) : Nat := sat 8 ((c.credits.getD (2 * vc) 0 + c.credits.getD (2 * vc + 1) 0) / 8)

def Dev.cportReg (d : Dev) (p o : Nat) : Option Nat :=
  let x := d.port p
  match o with
  | 0x00 => some (pack [(31, 29, x.st.num), (28, 27, x.rate), (26, 25, x.width), (24, 23, x.lanes), (22, 22, b2n x.degraded),
      (21, 21, b2n x.skew), (11, 0, x.neighbour)])
  | 0x08 => some (pack [(31, 16, sat 16 x.delay), (15, 0, twos 16 (max (-32766) (min 32766 (x.arr.getLast?.elim 0 Prod.snd))))])
  | 0x0C => some (pack [(31, 16, sat 16 x.replays), (15, 8, sat 8 x.uncorr), (7, 0, sat 8 x.downs)])
  | 0x18 => some (pack [(31, 24, x.creditField 0), (23, 16, x.creditField 1), (15, 8, x.creditField 2), (7, 0, x.creditField 3)])
  | 0x80 => some (pack [(31, 30, x.secSt), (29, 29, b2n x.keySel), (28, 16, sat 13 x.rekeys), (15, 0, sat 16 x.tagFail)])
  | _ => none

/-! ### Memory tiles -/

/-- Pages homed on a tile that satisfy a condition. -/
def Dev.homedCount (d : Dev) (k : Nat) (f : MapEntry → Bool) : Nat :=
  (d.wmap.filter fun x => d.homeTile x.1 == k && f x.2).length

def Dev.kdStat (d : Dev) (k n : Nat) : Nat :=
  pack [(31, 30, (d.kdSt n).num), (29, 0, sat 30 (d.homedCount k fun e => e.local && e.kdom == n))]

def BookSt.num : BookSt → Nat
  | .empty => 0 | .live => 1 | .retiring => 2

def Dev.bookStat (d : Dev) (n : Nat) : Nat :=
  let b := d.book n
  pack [(31, 30, b.st.num), (29, 29, b2n b.pending.isSome), (28, 28, b2n (n == 0))]

def Dev.bookId (d : Dev) (n : Nat) : Nat :=
  if n = 0 then 1 else if (d.book n).st = .empty then 0 else ((d.book n).book.map fun b => b.id.toNat).getD 0

/-- Pages and Metadata frames of a rank that is being evacuated (`MT_EVAC_LEFT`). -/
def Dev.evacLeft (d : Dev) (e : Evac) : Nat :=
  let q := d.rankRef e.ch e.r
  let inRank (f : Nat) : Bool := decide (q.base ≤ f) && decide (f < q.base + q.cap)
  (d.wmap.filter fun x => x.2.frames.any inRank).length + d.kindCount q [5]

def Dev.mtReg (d : Dev) (k o : Nat) : Option Nat :=
  let t := d.tile k
  let ev := t.evacs.head?
  firstOf
    [ if o = 0x8008 then some (pack [(31, 30, d.level k), (29, 0, sat 30 (d.free_ k))]) else none,
      if o = 0x800C then some (pack [(31, 31, b2n (decide (d.sumpSize k > 0) && t.sumpFree == 0)), (29, 0, sat 30 t.sumpFree)]) else none,
      if o = 0x8010 then some (pack [(31, 31, b2n t.stale), (30, 30, b2n t.parity), (15, 0, t.passEpoch)]) else none,
      (tblIdx o 0x9100 16 16).map fun n => d.bookId n,
      (tblIdx o 0x9104 16 16).map fun n => d.bookStat n,
      if o = 0xA000 then
        let st (f : KdSt → Bool) : Nat := ((List.range 4096).filter fun n => f (d.kdSt n)).length
        some (pack [(28, 16, st fun x => x == .live), (12, 0, st fun x => x == .retiring || x == .erased)])
      else none,
      (tblIdx o 0x10000 4 4096).map fun n => d.kdStat k n,
      if o = 0xC004 then
        some (pack [(31, 31, b2n ev.isSome), (30, 30, b2n t.blocked), (29, 25, (ev.map Evac.ch).getD 0),
          (24, 24, (ev.map Evac.r).getD 0 / 4), (23, 22, (ev.map Evac.r).getD 0 % 4)])
      else none,
      if o = 0xC008 then some (sat 32 ((ev.map d.evacLeft).getD 0)) else none ]

/-- `MT_BOOK_REFS_n`. -/
def Dev.mtWide (d : Dev) (k o : Nat) : Option Nat :=
  (tblIdx o 0x9108 16 16).map fun n => d.homedCount k fun e => e.st != .unbacked && (e.tier == 1 || e.tier == 2) && e.book == n

/-! ### Channel slices -/

def RankSt.num : RankSt → Nat
  | .off => 0 | .training => 1 | .active => 2 | .retraining => 3 | .failing => 4 | .retired => 5 | .empty => 6

def Dev.chanStat (d : Dev) (c : Nat) : Nat :=
  let x := d.chan c
  let up := rankList.any fun r => rankUp (x.rank r).st
  pack [(31, 31, b2n x.urgent), (30, 30, b2n x.drain), (29, 29, b2n x.selfRef), (27, 24, if up then x.rate else 15),
    (23, 16, x.rq.length), (15, 8, x.wq.length), (7, 0, x.urgentCnt)]

def rankStat (x : Rank) : Nat :=
  pack [(31, 29, x.st.num), (28, 27, if x.refreshed then (if x.m = 4 then 3 else x.m) else 0), (26, 26, b2n x.hot),
    (15, 8, sat 8 x.retrains), (7, 0, sat 8 x.centre)]

/-- ADDR, INFO and STROKE words of an error address table entry (R227). -/
def eatWord (x : Chan) (i w : Nat) : Nat :=
  match x.eat.find? fun e => e.slot == i with
  | none => 0
  | some e =>
    match w with
    | 0 => e.gran % 2 ^ 32
    | 1 => pack [(31, 31, 1), (30, 30, b2n e.wb), (29, 29, b2n e.hard), (28, 28, b2n e.remap), (27, 23, e.dev), (22, 21, e.rep), (15, 0, e.corr)]
    | _ => e.stroke % 2 ^ 32

/-- One device entry of the delay table in use. -/
def Dev.delayDevice (d : Dev) (ch r i : Nat) : List Byte :=
  let x := d.rank ch r
  let c : DevCal := x.devs.getD i {}
  let o := 32 + 336 * r + 16 + 16 * i
  let rec? : Option DelayRec := if x.loaded then d.delayRec ch (d.chan ch).rate else none
  (List.range 16).map fun b =>
    if b = 2 then BitVec.ofNat 8 (twos 8 c.rd)
    else if b = 10 then BitVec.ofNat 8 (twos 8 c.wr)
    else if b = 14 then BitVec.ofNat 8 c.osc
    else if b = 15 then BitVec.ofNat 8 (c.osc / 256)
    else match rec? with | some y => y.bytes.getD (o + b) 0#8 | none => Config.delayByte ch (o + b) x.trainedAt

/-- One rank block of the delay table in use; zero for a rank without a setting. -/
def Dev.delayRank (d : Dev) (ch r : Nat) : List Byte :=
  let x := d.rank ch r
  if (d.rankDimm ch r).isNone || x.devs == [] then List.replicate 336 0#8
  else
    leBytes 2 1 ++ leBytes 2 (twos 16 x.temp) ++ leBytes 4 x.trainedAt ++ leBytes 8 0 ++
      (List.range 20).flatMap fun i => if i < x.devs.length then d.delayDevice ch r i else List.replicate 16 0#8

/-- The delay table in use (R211): zero before bring-up; its CRC is computed over the rank blocks. -/
def Dev.delayTable (d : Dev) (ch : Nat) : List Byte :=
  let c := d.chan ch
  if !c.up then List.replicate 2720 0#8
  else
    let one (m : Option Dimm) : Nat := b2n m.isSome
    let first := match c.dimm0 with | some m => some m | none => c.dimm1
    let pop := one c.dimm0 + 2 * one c.dimm1 + 4 * (first.elim 0 fun m => rankBits m.ranks) + 16 * (first.elim 0 fun m => chipBits m.stack)
    let ser (m : Option Dimm) : Nat := m.elim 0 fun m => m.serial.toNat
    let blocks := (List.range 8).flatMap fun r => d.delayRank ch r
    let rec? := if c.table then d.delayRec ch c.rate else none
    let ca := (List.range 8).map fun b =>
      match rec? with | some y => y.bytes.getD (16 + b) 0#8 | none => Config.delayByte ch (16 + b) 0
    [0x44#8, 0x54#8, 1#8, BitVec.ofNat 8 ch] ++ leBytes 2 (rateMts c.rate) ++ leBytes 1 pop ++ leBytes 1 0 ++ leBytes 4 (ser c.dimm0) ++
      leBytes 4 (ser c.dimm1) ++ ca ++ leBytes 4 (crc32c blocks).toNat ++ leBytes 4 0 ++ blocks

def Dev.dimmTemp (d : Dev) (ch slot : Nat) : Nat :=
  let t := (d.chan ch).modTemp slot
  pack [(31, 31, b2n ((d.slotDimm ch slot).isSome && t.read)), (30, 30, b2n t.unread), (29, 29, b2n (d.pprWindow ch slot)),
    (15, 0, twos 16 ((d.moduleTemp ch slot).getD 0))]

def Dev.chanReg (d : Dev) (c o : Nat) : Option Nat :=
  let x := d.chan c
  firstOf
    [ if o = 0x04 then some (d.chanStat c) else none,
      (tblIdx o 0x20 8 8).map fun r => rankStat (x.rank r),
      (tblIdx o 0x24 8 8).map fun r => sat 24 (x.rank r).debt,
      if o = 0x104 then some (x.scrubPos % 2 ^ 32) else none,
      if o = 0x108 then some (pack [(31, 16, sat 16 x.passes), (15, 8, x.rewrite.length), (7, 0, sat 8 x.ueFound)]) else none,
      if o = 0x10C then some (pack [(31, 16, sat 16 x.eatLost), (15, 0, sat 16 x.ue)]) else none,
      (tblIdx o 0x120 4 8).map fun r =>
        let y := x.rank r
        pack [(31, 31, b2n y.mark.isSome), (30, 26, y.mark.getD 0), (15, 0, sat 16 y.ueWin.length)],
      if o = 0x140 then some (pack [(31, 28, x.repair.length), (27, 20, sat 8 x.pprDone), (19, 12, sat 8 x.pprFailed)]) else none,
      (tblIdx o 0x180 4 2).map fun n => d.dimmTemp c n,
      (tblIdx o 0x200 4 64).bind fun i => if i % 4 < 3 then some (eatWord x (i / 4) (i % 4)) else none,
      (tblIdx o 0x1004 4 27).map fun i => Tbl.get 0 x.timing (i + 1) % 2 ^ 24,
      (tblIdx o 0x2000 4 680).map fun n => fieldAt (d.delayTable c) (4 * n) 4,
      (tblIdx o 0x3000 4 160).map fun n =>
        let y := Tbl.get (0, 0) (x.rank (n / 20)).ce (n % 20)
        pack [(31, 24, sat 8 y.2), (23, 0, sat 24 y.1)] ]

/-! ### Home, encoder, decoder and pump slices -/

def Dev.hsReg (d : Dev) (n o : Nat) : Option Nat :=
  let h := d.hsl n
  match o with
  | 0x0 => some (pack [(28, 20, h.holds.length), (19, 0, h.dir.length)])
  | 0x4 => some (pack [(31, 26, h.rr), (25, 17, sat 9 (d.slicePlaces n))])
  | 0x8 => some (pack [(31, 16, sat 16 h.ce), (15, 0, sat 16 h.ue)])
  | 0xC => some (sat 16 h.hintDrop)
  | _ => none

/-- The job that an encoder works for: its pump's, where it encodes, or the one that was cut so that an Evacuate job could run. -/
def Dev.encJob (d : Dev) (n : Nat) : Option Job :=
  ((d.pump n).job.filter fun j => jobEncodes j.ty).orElse fun _ => (d.pump n).parked.filter fun j => jobEncodes j.ty

/-- Where an encoder stands in its job (R140): stream bytes of the pages before the current one, the current page's encoding, the words of
it that are there, and the pages of a segment included so far. -/
structure EncView where
  kind : Nat
  book : Nat
  page : Nat := 0
  rst : Nat := 0
  out : Nat := 0
  part : PartEnc := {}
  text : List Nat := []
  incl : Nat := 0

/-- The encoding of the part of a page that is in the source buffer, over the history before it. -/
def encodeSoFar (c : Codes) (limit : Nat) (hist : List Nat) (bs : List Byte) : PartEnc :=
  encodePart c (limit * 8) (decide (bs.length ≥ 4096)) 2048 (pageWords bs) { hist := hist }

/-- The encoder of a job that writes a segment. -/
def Dev.encSegment (d : Dev) (n : Nat) (j : Job) : EncView :=
  let src := (d.enc n).src
  let inp := j.segInput
  let text (y : JobStep × Nat) : List Byte := (src.drop (y.2 * 4096)).take 4096
  let full := inp.takeWhile fun x => x.elim true fun y => decide ((y.2 + 1) * 4096 ≤ src.length)
  let none_ : EncView := { kind := 2, book := j.book, page := full.length, rst := j.rst }
  match d.slotBook j.book with
  | none => none_
  | some k =>
    let s := SegSt.pages k (rstPages j.rst) (d.fld (mtBase (n / 8) + 0x9000) 31 31 == 1) {} 0 (full.map fun x => x.map text)
    let v := { none_ with out := s.out.length, incl := s.incl }
    match (inp[full.length]?).bind id with
    | none => v
    | some y =>
      let hist := if full.length % rstPages j.rst = 0 then [] else s.hist
      if s.closed then v
      else { v with part := encodeSoFar k.codes (min 3584 (61312 - s.out.length)) hist (text y), text := pageWords (text y) }

/-- The encoder of a job that writes T2 blocks: the page of the last bytes read. -/
def Dev.encBlocks (d : Dev) (n : Nat) (j : Job) : EncView :=
  let src := (d.enc n).src
  let i := (src.length - 1) / 4096
  match j.steps[i]? with
  | none => { kind := 1, book := 0 }
  | some x =>
    let bs := src.drop (i * 4096)
    match d.slotBook x.book with
    | none => { kind := 1, book := x.book }
    | some k => if x.hist then { kind := 1, book := x.book }
        else { kind := 1, book := x.book, part := encodeSoFar k.codes 3572 [] bs, text := pageWords bs }

def Dev.encView (d : Dev) (n : Nat) (j : Job) : EncView := if j.segment then d.encSegment n j else d.encBlocks n j

/-- Words of the current page consumed, those of the open token with them. -/
def EncView.consumed (v : EncView) : Nat := v.part.words + v.part.last.elim 0 Cand.words

/-- OPEN of the context: 1 zero run, 2 match, 3 stride-delta. -/
def Cand.openKind (a : Cand) : Nat := if a.rank = 0 then 1 else if a.rank = 6 then 2 else 3

/-- The 128-byte output granule that the encoder fills (R140): a segment's stream begins on a granule, a block's behind its 8 header
bytes in the granule that the header buffer holds. -/
def EncView.outbuf (v : EncView) (n : Nat) : Nat := if v.kind = 2 then n % 128 else if n < 120 then 0 else (n + 8) % 128

/-- Word `w` of an encoder's context (R140; log 74 for what the table leaves open). -/
def Dev.encCtx (d : Dev) (n w : Nat) : Nat :=
  match d.encJob n with
  | none => 0
  | some j =>
    let v := d.encView n j
    let p := v.part
    let out := v.out + p.used / 8
    let a := p.last
    let rest := v.text.drop p.words
    match w with
    | 0 => pack [(31, 28, v.kind), (27, 24, v.book), (23, 20, min 15 v.page), (19, 17, v.rst), (15, 0, out)]
    | 1 => pack [(31, 16, min 32768 (p.hist.length + a.elim 0 Cand.words)), (15, 4, v.consumed)]
    | 2 => pack [(31, 29, p.used % 8), (28, 22, bitsNat (p.toks.reverse.flatten.drop (p.used / 8 * 8)) * 2 ^ (7 - p.used % 8)),
                 (21, 20, a.elim 0 Cand.openKind), (19, 8, a.elim 0 Cand.words)]
    | 3 => pack [(31, 16, a.elim 0 fun c => if c.openKind = 2 then Config.matchSearch p.hist rest else 0),
                 (15, 14, a.elim 0 fun c => if c.openKind = 3 then c.rank - 2 else 0)]
    | 4 => pack [(31, 16, a.elim 0 fun c => if c.openKind = 3 then rest.headD 0 + 65536 - p.hist.getD (2 ^ (c.rank - 2) - 1) 0 else 0),
                 (15, 0, v.incl)]
    | 5 => (crc32c (wordsPage (v.text.take v.consumed))).toNat
    | _ => pack [(6, 0, v.outbuf out)]

def Dev.encReg (d : Dev) (n o : Nat) : Option Nat :=
  let e := d.enc n
  let vf := if e.vfailEpoch = d.epoch then min 15 e.vfail else 0
  let st := if e.failed then 4 else match d.encJob n with | none => 0 | some _ => if (d.pump n).st = 2 then 2 else if (d.pump n).st = 1 then 1 else 0
  if o = 0 then some (pack [(31, 29, st), (19, 16, vf), (15, 0, d.encCtx n 0)])
  else (tblIdx o 0x10 4 7).map fun w => d.encCtx n w

/-- The pump of a tile whose job holds decoder `n` (R133). -/
def Dev.decPump (d : Dev) (n : Nat) : Option Nat :=
  (List.range 8).find? fun i => match (d.pump (n / 16 * 8 + i)).job with | some j => j.decoder == some n | none => false

/-- The home slice that a decoder works for (R133), by its local index. -/
def Dev.decHome (d : Dev) (n : Nat) : Option Nat :=
  let k := n / 16
  ((d.reads.map fun r => (r.id, d.home (lnPage r.line))) ++ d.promos.map fun x => (x.id, d.home x.page)).findSome? fun x =>
    if (d.homeDecs k).contains x.1 && d.homeDec k x.1 == some n then some (x.2 % 16) else none

def Dev.decReg (d : Dev) (n o : Nat) : Option Nat :=
  let x := d.dec n
  match o with
  | 0x0 => some (pack [(31, 30, if (d.decPump n).isSome then 2 else if (d.decHome n).isSome then 1 else 0),
                       (29, 26, ((d.decPump n).orElse fun _ => d.decHome n).getD 0), (25, 23, x.lastErr)])
  | 0x8 => some (x.errPage % 2 ^ 32)
  | 0xC => some (x.errPage / 2 ^ 32 % 4)
  | _ => none

def Dev.pumpReg (d : Dev) (p o : Nat) : Option Nat :=
  let x := d.pump p
  let page := match x.job with | some j => (j.pages.head?.map Prod.fst).getD 0 | none => 0
  match o with
  | 0x0 => some (pack [(30, 30, b2n x.abort)])
  | 0x4 => some (pack [(31, 29, x.st), (28, 25, match x.job with | some j => j.ty | none => 0), (24, 22, x.result), (21, 19, x.halt), (4, 0, x.pages)])
  | 0x8 => some (page % 2 ^ 32)
  | 0xC => some (page / 2 ^ 32 % 4)
  | _ => none

/-! ### Reading a register (R4, R9 to R12) -/

/-- The 32-bit register at an address: its value without RWT bits. -/
def Dev.narrow (d : Dev) (a : Nat) : Option Nat :=
  let t := addrTile a
  let o := addrOff a
  let i := addrIdx a
  if t = 0 then (if a < 0x100000 then firstOf [d.ctFixed o, d.ctTables o] else none)
  else if t = 1 then (if a % 0x1000000 < 0x100000 then d.htReg o else none)
  else if t ≤ 5 then
    match addrWin a with
    | 1 => if i < 4 then d.headReg ((t - 2) * 4 + i) o else none
    | 2 => if i < 4 then d.cportReg ((t - 2) * 4 + i) o else none
    | _ => none
  else if t ≤ 9 then
    match addrWin a with
    | 0 => d.mtReg (t - 6) o
    | 1 => if i < 8 then d.chanReg ((t - 6) * 8 + i) o else none
    | 2 => d.hsReg ((t - 6) * 16 + i) o
    | 3 => if i < 8 then d.encReg ((t - 6) * 8 + i) o else none
    | 4 => d.decReg ((t - 6) * 16 + i) o
    | 5 => if i < 8 then d.pumpReg ((t - 6) * 8 + i) o else none
    | _ => none
  else none

/-- The 64-bit register at an address. -/
def Dev.wide (d : Dev) (a : Nat) : Option Nat :=
  let t := addrTile a
  let o := addrOff a
  if t = 0 then (if a < 0x100000 then d.ctWide o else none)
  else if 2 ≤ t ∧ t ≤ 5 ∧ addrWin a = 2 ∧ addrIdx a < 4 ∧ o = 0x10 then some ((d.port ((t - 2) * 4 + addrIdx a)).fec % 2 ^ 64)
  else if 6 ≤ t ∧ t ≤ 9 ∧ addrWin a = 0 then d.mtWide (t - 6) o
  else none

/-- The unit at an address is fitted (R4): its tile, its slice in windows above 0, and its part of window 0. -/
def Dev.addrPresent (d : Dev) (a : Nat) : Bool := d.unitPresent (addrTile a) (addrWin a) (addrIdx a) && !d.absentAddr a

/-- The RWT bits of a register that this device has: the bits of absent heads in `CT_MGR_HEADS` read zero. -/
def Dev.rwtOf (d : Dev) (a : Nat) : BitVec 32 := if a = 0x300 then BitVec.ofNat 32 (2 ^ d.nHosts - 1) else rwtMask a

/-- The width of the register mapped at an address, and its value; none where none is mapped or its unit is absent (R4, R10). -/
def Dev.regVal (d : Dev) (a : Nat) : Option (Nat × Nat) :=
  if !d.addrPresent a then none
  else
    match d.wide a with
    | some v => some (8, v)
    | none =>
      let rwt := (d.cfgReg a &&& d.rwtOf a).toNat
      match d.narrow a with
      | some v => some (4, v ||| rwt)
      | none => if (findReg a).isSome then some (4, rwt) else none

/-! ### The ledger's bytes (R401 to R404) -/

/-- A block of bytes with its CRC-32C. -/
def withCrc (bs : List Byte) : List Byte := bs ++ leBytes 4 (crc32c bs).toNat

def stateBytes (seq : Nat) (b : LedState) : List Byte :=
  withCrc (leBytes 4 seq ++ leBytes 4 b.floor ++ leBytes 1 b.slotA ++ leBytes 1 b.slotB ++ leBytes 1 b.decision ++ leBytes 1 0 ++
    leBytes 4 b.decVer.toNat ++ leBytes 8 b.decDigest.toNat ++ leBytes 8 b.decStroke ++ leBytes 2 b.chainLen ++ leBytes 26 0)

def JRec.bytes (r : JRec) : List Byte :=
  let e : EvRec := { handle := 0, kind := .vendor, ev := r.ev, cause := r.cause, ts := 0, stroke := r.stroke, slice := r.slice,
                     rep := r.rep, dropped := 0, detail := r.detail }
  withCrc (leBytes 4 r.seq ++ leBytes 8 r.stroke ++ leBytes 8 r.loc ++ leBytes 2 r.ev ++ leBytes 1 (recClass r.ev) ++ leBytes 1 r.cause ++
    leBytes 2 r.slice ++ leBytes 2 r.rep ++ sub (detailBytes e) 0 32)

def Repair.bytes (r : Repair) : List Byte :=
  withCrc (leBytes 4 r.serial.toNat ++ leBytes 1 r.ch ++ leBytes 1 r.slot ++ leBytes 1 r.rank ++ leBytes 1 r.chip ++ leBytes 1 r.dev ++
    leBytes 1 r.bgrp ++ leBytes 1 r.bank ++ leBytes 1 (if r.withheld then 2 else 1) ++ leBytes 4 r.row ++ leBytes 8 r.stroke ++ leBytes 4 0)

/-- An entry of the repair table; its serial number is all ones when it is not in use (R403). -/
def Ledger.repairBytes (l : Ledger) (i : Nat) : List Byte :=
  match l.repairs[i]? with | some r => r.bytes | none => List.replicate 4 0xFF#8 ++ List.replicate 28 0#8

/-- Block `i` of 64 bytes of the ledger. The current copy of the state block lies in the place that the parity of its SEQ names. -/
def Ledger.block64 (l : Ledger) (i : Nat) : List Byte :=
  let blank := List.replicate 64 0#8
  if i = 0 then withCrc ([0x5A#8, 0x4C#8, 0x44#8, 0x47#8] ++ leBytes 2 1 ++ List.replicate 54 0#8)
  else if i ≤ 2 then
    if l.seq % 2 = i - 1 then (if l.floorBad then blank else stateBytes l.seq l.block)
    else match l.prev with | some b => stateBytes (l.seq - 1) b | none => blank
  else if 16 ≤ i ∧ i < 32 then match Tbl.look l.pinned (i - 16) with | some r => r.bytes | none => blank
  else if 64 ≤ i ∧ i < 128 then sub l.chain ((i - 64) * 64) 64
  else if 128 ≤ i ∧ i < 1024 then l.repairBytes (2 * (i - 128)) ++ l.repairBytes (2 * (i - 128) + 1)
  else if 1024 ≤ i ∧ i < 4096 then match l.journal[i - 1024]? with | some r => if r = absentRec then blank else r.bytes | none => blank
  else blank

/-- A word of the ledger, by its offset. -/
def Ledger.word (l : Ledger) (off n : Nat) : Nat := fieldAt (l.block64 (off / 64)) (off % 64) n

/-- The ledger's window (R404). -/
def inLedger (a : Nat) : Bool := decide (0x00800000 ≤ a) && decide (a < 0x00840000)

/-- The guest's window (R442). -/
def inGuest (a : Nat) : Bool := addrTile a == 10

/-- An access of width `w` at `a` ends in the management access error (R11): it is misaligned, or not of the width of the register it
falls on. An aligned access of 8 bytes where no register is mapped at `a` but a 32-bit register is mapped at `a + 4` falls on that
register and ends so too, as does one of 4 bytes on the upper half of a 64-bit register: a DESIGN CHOICE (log entry 70), since R10
can be read as letting the first read zero. -/
def Dev.accessError (d : Dev) (a w : Nat) : Bool :=
  if !(w == 4 || w == 8) || a % w != 0 then true
  else if inLedger a || inGuest a then false
  else
    match d.regVal a with
    | some (n, _) => n != w
    | none =>
      if w = 8 then (d.regVal (a + 4)).isSome
      else match d.regVal (a - a % 8) with | some (8, _) => true | _ => false

end Sys2Proof.Machine
end

