-- ==== Sys2Proof/Machine/Cci.lean ====
section
/-! DEFINITION. Mailbox, CCI, MCTP and FM API commands that no other chapter owns (R56, R57, R64 to R66, R71 to R76, R80, R85, R116, R117,
R249, R250, R459, R465): identity, management accesses, dynamic capacity, poison, reclaim and retirement commands. -/

namespace Sys2Proof.Machine

open Sys2Proof

/-! ### Management accesses (R10, R11, R71, R404, R416, R442) -/

/-- An address of the perturbation unit. -/
def inPert (a : Nat) : Bool := decide (0x10000 ≤ a) && decide (a < 0x10080)

/-- What a read does besides: `CT_RAIL_V_r` starts its minimum again, a bandwidth result counts as read (R363, R414). -/
def Dev.readEffect (d : Dev) (a : Nat) : Dev :=
  match tblIdx a 0x680 4 8, tblIdx a 0xF800 8 256 with
  | some r, _ => d.setSup fun s => { s with low := Tbl.del s.low r }
  | _, some i =>
    let seen (x : Nat × Bool × Nat × Bool) : Nat × Bool × Nat × Bool := (x.1, x.2.1, x.2.2.1, true)
    d.setBw (i / 4) fun b =>
      match i % 4 with
      | 0 => { b with r00 := seen b.r00 }
      | 1 => { b with r01 := seen b.r01 }
      | 2 => { b with r10 := seen b.r10 }
      | _ => { b with r11 := seen b.r11 }
  | none, none => d

/-- MANAGEMENT_READ (R71). -/
def Dev.managementRead (d : Dev) (src : Src) (p : List Byte) : Dev :=
  d.gated src { manager := true, latched := true } fun d =>
  d.vend src p (p.length == 8) (zeros (sub p 5 3)) fun d =>
    let a := fieldAt p 0 4
    let w := fieldAt p 4 1
    if d.accessError a w then d.reply src .invalidInput 0x0101
    else if inGuest a && d.hasGuest then d.guestAccess src false (a % 0x1000000) w 0
    else if inLedger a then d.reply src .success 0 (leBytes 8 (d.led.written.word (a - 0x00800000) w))
    else (d.readEffect a).reply src .success 0 (leBytes 8 ((d.regVal a).elim 0 Prod.snd))

/-- A slot's registers take a write: the RW fields, then GO and STOP (R417). Answers what turned GO away. -/
def Dev.pertWrite (d : Dev) (p w v : Nat) : Dev × Option Ret :=
  match w with
  | 0 =>
    let d := d.setPert p fun x => { x with kind := bits v 27 24, unit := bit v 23, target := bits v 19 8 }
    let (d, r) := if bit v 31 then
        match d.pertGo p with
        | .ok e => (e, none)
        | .error (r, late) => (if late then d.raise 51 (tileSlice 0) else d, some r)
      else (d, none)
    (if bit v 30 then d.pertStop p else d, r)
  | 1 => (d.setPert p fun x => { x with mag := v % 1024 }, none)
  | 2 => (d.setPert p fun x => { x with start := v }, none)
  | _ => (d.setPert p fun x => { x with dur := v % 2 ^ 24 }, none)

/-- The W1C, W1S and RW fields of a 32-bit register that is written with `v`: they act at once (R71). -/
def Dev.ctSide (d : Dev) (o v : Nat) : Dev × Option Ret :=
  let b := BitVec.ofNat 32 v
  if o = 0x210 then
    ({ d with time := { d.time with overrun := d.time.overrun && !bit v 31, realigned := d.time.realigned && !bit v 30 } }, none)
  else if o = 0x60C then (d.setClk fun c => { c with clkoutPend := some (b &&& 0xBF9FFFFF#32) }, none)
  else if o = 0x614 then (d.setClk fun c => { c with opFault := c.opFault && !bit v 28 }, none)
  else match tblIdx o 0x630 4 11, tblIdx o 0xB000 4 8, tblIdx o 0xE000 4 1024, tblIdx o 0xF000 4 64, tblIdx o 0x10000 4 32 with
  | some t, _, _, _, _ => (if bit v 0 then d.setClk fun c => { c with gateRefused := Tbl.del c.gateRefused t } else d, none)
  | _, some w, _, _, _ => (d.clearPend w b, none)
  | _, _, some n, _, _ => (d.cntWrite n b, none)
  | _, _, _, some n, _ => (if d.bwPresent n then d.bwWrite n b else d, none)
  | _, _, _, _, some i => d.pertWrite (i / 4) (i % 4) v
  | _, _, _, _, _ => (d, none)

def Dev.sideWrite (d : Dev) (a v : Nat) : Dev × Option Ret :=
  let t := addrTile a
  let o := addrOff a
  let i := addrIdx a
  if t = 0 then (if a < 0x100000 then d.ctSide o v else (d, none))
  else if t = 1 then
    (if o = 0x104 ∧ bit v 31 ∧ d.hasGuest then d.guestAgain
     else if o = 0x108 ∧ bit v 0 then d.setGst fun g => { g with oov := 0 } else d, none)
  else if t ≤ 5 then
    let n := (t - 2) * 4 + i
    (if addrWin a = 1 ∧ o = 0 ∧ bit v 21 then d.setHead n fun h => { h with degraded := false }
     else if addrWin a = 2 ∧ o = 0 ∧ bit v 22 then d.setPort n fun c => { c with degraded := false }
     else if addrWin a = 2 ∧ o = 0x80 ∧ bit v 0 then d.setPort n fun c => { c with tagFail := 0 } else d, none)
  else
    (if addrWin a = 1 ∧ o = 0x10C ∧ bit v 16 then d.setChan ((t - 6) * 8 + i) fun c => { c with eatLost := 0 }
     else if addrWin a = 2 ∧ o = 0xC ∧ bit v 0 then d.setHs ((t - 6) * 16 + i) fun h => { h with hintDrop := 0 }
     else if addrWin a = 5 ∧ o = 0 then
       let n := (t - 6) * 8 + i
       let d := if bit v 30 then d.setPump n fun x => { x with abort := true } else d
       if bit v 29 then d.discardHalted n else d
     else d, none)

/-- Every RWT field that the value changes is within its stated range (R71). -/
def Dev.changedInRange (d : Dev) (a : Nat) (v : BitVec 32) : Bool :=
  match findReg a with
  | none => true
  | some (r, _) => r.fields.all fun f =>
      let x := bits v.toNat f.hi f.lo
      x == bits (d.cfgReg a).toNat f.hi f.lo || (decide (f.mn ≤ x) && decide (x ≤ f.mx))

/-- The value changes an RWT field of the register (R71). -/
def Dev.changesRwt (d : Dev) (a : Nat) (v : BitVec 32) : Bool := ((v ^^^ d.cfgReg a) &&& d.rwtOf a) != 0#32

/-- A write that changes an RWT field: into the overlay of the owner's transaction, or why not (R71, R310). -/
def Dev.overlayWrite (d : Dev) (src : Src) (a : Nat) (v : BitVec 32) : Except (Ret × Nat) Dev :=
  let t := d.cfg.txn
  if t.st = .idle then .error (.invalidInput, 0x0102)
  else if t.owner != some src then .error (.invalidInput, 0x0103)
  else if t.st != .opened && t.st != .ready then .error (.invalidInput, 0x0102)
  else if closedReg a || !d.changedInRange a v then .error (.invalidInput, 0)
  else
    let d := if t.st = .ready then d.reopen else d
    .ok (d.setTxn fun t => { t with overlay := Tbl.put t.overlay a (d.rwtOf a, v &&& d.rwtOf a) })

/-- A write of one mapped 32-bit register (R71). -/
def Dev.regWrite (d : Dev) (src : Src) (a : Nat) (v : BitVec 32) : Dev :=
  if inPert a && !d.pertOpen then d.reply src .unsupported 0x0109
  else
    let go (d : Dev) : Dev :=
      match d.sideWrite a v.toNat with
      | (d, none) => d.reply src .success
      | (d, some r) => d.reply src r
    if d.changesRwt a v then
      match d.overlayWrite src a v with
      | .error (r, e) => d.reply src r e
      | .ok d => go d
    else go d

/-- MANAGEMENT_WRITE (R71): a write where no register is mapped, of an absent unit, of a 64-bit counter or of the ledger is ignored. -/
def Dev.managementWrite (d : Dev) (src : Src) (p : List Byte) : Dev :=
  d.gated src { manager := true } fun d =>
    let a := fieldAt p 0 4
    let w := fieldAt p 4 1
    d.vend src p (p.length == 16) (zeros (sub p 5 3) && (w != 4 || zeros (sub p 12 4))) fun d =>
      if d.accessError a w then d.reply src .invalidInput 0x0101
      else if inGuest a && d.hasGuest then d.guestAccess src true (a % 0x1000000) w (fieldAt p 8 w)
      else match d.regVal a with
        | some (4, _) => d.regWrite src a (BitVec.ofNat 32 (fieldAt p 8 4))
        | _ => d.reply src .success

/-- SCHEDULE_REGISTER_WRITE (R73): an entry of the operating-point class for `CT_OP_CFG`, else of the last class. -/
def Dev.scheduleRegisterWrite (d : Dev) (src : Src) (p : List Byte) : Dev :=
  d.gated src { manager := true } fun d =>
  d.vend src p (p.length == 16) true fun d =>
    let a := fieldAt p 0 4
    let v := BitVec.ofNat 32 (fieldAt p 4 4)
    if d.accessError a 4 then d.reply src .invalidInput 0x0101
    else if (d.regVal a).isSome && (closedReg a || !valueOk a v) then d.reply src .invalidInput
    else
      let n := d.wanted (fieldAt p 8 8)
      match d.queueAct n (if a = 0x610 then 2 else 4) (.regWrite src a v) with
      | .ok d => d.reply src .success 0 (leBytes 8 n)
      | .error r => (d.raise 51).reply src r

/-- A scheduled write at its stroke (R73): one that would break a joined check is not applied, with EV051 (R460). -/
def Dev.scheduledWrite (d : Dev) (a : Nat) (v : BitVec 32) : Dev :=
  if inPert a && !d.pertOpen then d
  else if inGuest a then (if d.hasGuest then d.emit (.side 5 (a % 0x1000000) v.toNat) else d)
  else if (d.regVal a).isNone || inLedger a then d
  else
    let o := (d.rwtOf a, v &&& d.rwtOf a)
    let after (x : Nat) : BitVec 32 := if x = a then mergeBits (d.cfgReg a) o else d.cfgReg x
    if d.changesRwt a v && decide ((d.joinedBad after).length > (d.joinedBad d.cfgReg).length) then d.raise 51
    else
      let d := (d.sideWrite a v.toNat).1
      if d.rwtOf a = 0#32 then d else d.overlayReg a o

/-! ### Identity, firmware and time (R85, R459, R465) -/

/-- UNSUPPORTED_COMMAND (R57). -/
def Dev.unsupportedCommand (d : Dev) (src : Src) (_opcode : Nat) : Dev := d.gated src {} fun d => d.reply src .unsupported

/-- A command whose output CXL 3.1 lays out: the body, from the numbers that it states. -/
def Dev.cxl (d : Dev) (src : Src) (form : Nat) (args : List Nat) : Dev := d.reply src .success 0 (Config.cxlBytes form args)

/-- An upper-case hexadecimal digit. -/
def hexByte (v : Nat) : Byte := if v < 10 then BitVec.ofNat 8 (48 + v) else BitVec.ofNat 8 (55 + v)

/-- The image of a slot has a well-formed header and passes BODY_HASH. -/
def Dev.bodyOk (d : Dev) (n : Nat) : Bool :=
  match d.headerAt (slotBase n) with
  | none => false
  | some h => Config.sha256 (d.nvmBytes (slotBase n + 512) (h.length - 512)) == be256 (d.nvmBytes (slotBase n + 32) 32)

/-- FW_VERSION in a firmware part: that of its Firmware descriptor record (type 2). -/
def fwScan (bs : List Byte) : Nat → Nat → Nat
  | 0, _ => 0
  | n + 1, off =>
    let ty := fieldAt bs off 2
    if ty = 2 then fieldAt bs (off + 8) 4
    else if ty = 0xFFFF ∨ bs.length ≤ off then 0
    else fwScan bs n (off + 8 + (fieldAt bs (off + 4) 4 + 7) / 8 * 8)

/-- FW_VERSION of the image that a slot holds. -/
def Dev.slotFw (d : Dev) (n : Nat) : Nat :=
  match d.headerAt (slotBase n) with
  | none => 0
  | some h => fwScan (d.nvmBytes (slotBase n + 512) h.fwLen) (h.fwLen / 8) 0

/-- The FW revision of a slot (R465). -/
def Dev.fwRevision (d : Dev) (n : Nat) : List Byte :=
  if d.bodyOk n then
    let v := d.slotFw n
    [0x48#8, 0x5A#8, 0x2D#8] ++ ((List.range 8).map fun i => hexByte (v / 16 ^ (7 - i) % 16)) ++ List.replicate 5 0#8
  else List.replicate 16 0#8

/-- GET_FW_INFO (R465): three slots, the active one, none staged. -/
def Dev.getFwInfo (d : Dev) (src : Src) : Dev :=
  d.gated src { unprimed := true } fun d =>
    d.reply src .success 0 (leBytes 1 3 ++ leBytes 1 (if d.prim = .primed then d.cfg.primedSlot + 1 else 0) ++ leBytes 14 0 ++
      d.fwRevision 0 ++ d.fwRevision 1 ++ d.fwRevision 2 ++ List.replicate 16 0#8)

/-- GET_TIMESTAMP (R459). -/
def Dev.getTimestamp (d : Dev) (src : Src) : Dev := d.gated src {} fun d => d.reply src .success 0 (leBytes 8 d.stamp)

/-- SET_TIMESTAMP (R459). -/
def Dev.setTimestamp (d : Dev) (src : Src) (ts : BitVec 64) : Dev :=
  d.gated src { unprimed := true } fun d =>
    { d with time := { d.time with tsOfs := Int.ofNat ts.toNat - Int.ofNat (d.time.loc * 1000) } }.reply src .success

/-- GET_HARLUOD_IDENTITY (R459): 27 bytes. -/
def Dev.getHarluodIdentity (d : Dev) (src : Src) (p : List Byte) : Dev :=
  d.gated src { unprimed := true, latched := true, quiet := true } fun d =>
  d.vend src p p.isEmpty true fun d =>
    let up := d.prim == .primed
    d.reply src .success 0 (
      leBytes 4 d.caps0.toNat ++ leBytes 4 d.caps1.toNat ++ leBytes 8 d.serial.toNat ++ leBytes 1 (if up then d.cfg.primedSlot else 0xFF) ++
      leBytes 4 d.cfgVersion ++ leBytes 4 d.cfg.active.secVersion ++ leBytes 1 d.role ++
      leBytes 1 (match src with | .head h => h | .mctp => 0xFF))

/-- A static head's volatile capacity in 256 MiB units (R62, R85). -/
def Dev.staticCap (d : Dev) (src : Src) : Nat :=
  match src with
  | .head h => if d.prim = .primed then ((d.staticOf h).bind d.regionNum).elim 0 Region.size else 0
  | .mctp => 0

/-- IDENTIFY_MEMORY_DEVICE (R56, R62, R85). -/
def Dev.identifyMemoryDevice (d : Dev) (src : Src) : Dev :=
  d.gated src { unprimed := true } fun d => d.cxl src 10 [d.staticCap src]

/-- GET_SUPPORTED_LOGS (R85). -/
def Dev.getSupportedLogs (d : Dev) (src : Src) : Dev := d.gated src { unprimed := true } fun d => d.cxl src 11 []

/-- GET_LOG (R85): a portion that ends past the log completes with Invalid Input (R57; PRESUMED, log 83). -/
def Dev.getLog (d : Dev) (src : Src) (offset length : Nat) : Dev :=
  d.gated src { unprimed := true } fun d =>
    if (Config.cxlBytes 12 []).length < offset + length then d.reply src .invalidInput
    else d.reply src .success 0 (sub (Config.cxlBytes 12 []) offset length)

/-- GET_HEALTH_INFO (R56): temperature in °C and the counts of corrected and uncorrectable granules. -/
def Dev.getHealthInfo (d : Dev) (src : Src) : Dev :=
  d.gated src {} fun d =>
    d.cxl src 13 [b2n d.anyN, twos 16 (d.hottest.1 / 64), (d.chans.map fun c => c.2.ue).sum]

/-- GET_MULTI_HEADED_INFO (R56), over the FM API. -/
def Dev.getMultiHeadedInfo (d : Dev) (src : Src) : Dev := d.gated src { mctp := true } fun d => d.cxl src 14 [d.nHosts]

/-! ### Poison (R56, R66, R250, R330) -/

/-- The exposed address that a sender's DPA names: a head's within its view, any exposed address over MCTP. -/
def Dev.srcAddr (d : Dev) (src : Src) (dpa : Nat) : Option Nat :=
  match src with
  | .head h => d.exposed h dpa
  | .mctp => if d.homed (dpa / 4096) then some dpa else none

/-- The address of an exposed address for a sender, where it may see it (R66). -/
def Dev.seenAddr (d : Dev) (src : Src) (a : Nat) : Option Nat :=
  match src with
  | .head h => if d.inView h (a / 2 ^ 28) then some (d.headDpa h a) else if d.mgrHead h then some a else none
  | .mctp => some a

/-- Lost lines and poisoned pages, as exposed address and length in lines. -/
def Dev.poisonRanges (d : Dev) : List (Nat × Nat) :=
  (d.tiles.flatMap fun t => t.2.lost.map fun l => (l * 64, 1)) ++
    ((d.wmap.filter fun x => x.2.poison == 1 || x.2.poison == 2).map fun x => (x.1 * 4096, 64))

/-- GET_POISON_LIST (R250): the ranges that meet the `count` lines from `start` on. -/
def Dev.getPoisonList (d : Dev) (src : Src) (start count : Nat) : Dev :=
  d.gated src {} fun d =>
    let xs := d.poisonRanges.filterMap fun x => (d.seenAddr src x.1).map fun a => (a, x.2)
    let xs := xs.filter fun x => rangesMeet x.1 (x.2 * 64) start (count * 64)
    d.reply src .success 0 (leBytes 10 0 ++ leBytes 2 xs.length ++ leBytes 20 0 ++
      xs.flatMap fun x => leBytes 8 x.1 ++ leBytes 4 x.2 ++ leBytes 4 0)

/-- CLEAR_POISON_LIST (R56): the line takes the given data. -/
def Dev.clearPoisonList (d : Dev) (src : Src) (dpa : Nat) (data : Line) : Dev :=
  d.gated src {} fun d =>
    match d.srcAddr src dpa with
    | none => d.reply src .invalidPhysicalAddress
    | some a =>
      if dpa % 64 != 0 then d.reply src .invalidPhysicalAddress
      else
        let q : Req := { rq := .push 0 0, tag := 0, line := a / 64,
                         kind := .write (BitVec.allOnes 64) data true .i { kind := 0, tile := 0 } }
        (d.serveWrite q (BitVec.allOnes 64) data true { kind := 0, tile := 0 }).reply src .success

/-- INJECT_POISON (R56, R330): only while scope bit 1 is open. The line reads as poison until it is written. -/
def Dev.injectPoison (d : Dev) (src : Src) (dpa : Nat) : Dev :=
  d.gated src {} fun d =>
    if !d.sec.scope.getLsbD 1 then d.reply src .unsupported 0x0109
    else match d.srcAddr src dpa with
      | none => d.reply src .invalidPhysicalAddress
      | some a => if dpa % 64 != 0 then d.reply src .invalidPhysicalAddress else (d.loseLine (a / 64)).reply src .success

/-! ### Dynamic capacity (R62, R64, R65, R75) -/

/-- The blocks of 256 MiB that an extent covers. -/
def extBlocks (e : Extent) : List Nat := (List.range (e.length / 2 ^ 28)).map (e.dpa / 2 ^ 28 + ·)

/-- An extent consists of whole blocks. -/
def extWhole (e : Extent) : Bool := e.dpa % 2 ^ 28 == 0 && e.length % 2 ^ 28 == 0 && e.length != 0

/-- Every block of an extent lies in a region that binds the head (R65). -/
def Dev.extBound (d : Dev) (h : Nat) (e : Extent) : Bool :=
  extWhole e && (extBlocks e).all fun b => match d.regionOf (b * 65536) with | some r => r.heads.getLsbD h | none => false

/-- The tag that every block of an extent asks for (R65). -/
def Dev.extTag (d : Dev) (e : Extent) : Bool := (extBlocks e).all fun b => e.tag == BitVec.ofNat 128 (d.groupOf (b * 65536))

/-- What both FM API commands check: a dynamic head that is present, and extents within its regions. -/
def Dev.dcOk (d : Dev) (h : Nat) (es : List Extent) : Bool :=
  decide (h < d.nHosts) && (d.staticOf h).isNone && es.all (d.extBound h)

/-- A list of extents whose payload exceeds what an MCTP message carries (R76): a header of 32 bytes and 40 bytes each (PRESUMED, log 82). -/
def tooManyExtents (es : List Extent) : Bool := decide (4096 < 32 + 40 * es.length)

/-- INITIATE_DYNAMIC_CAPACITY_ADD (R65): the extents are offered to the head's host. -/
def Dev.initiateDcAdd (d : Dev) (src : Src) (h : Nat) (es : List Extent) : Dev :=
  d.gated src { mctp := true } fun d =>
    if tooManyExtents es || !d.dcOk h es || !es.all d.extTag then d.reply src .invalidInput
    else ((d.setHead h fun x => { x with adds := x.adds ++ es }).emits (es.map fun e => .dcd h true e)).reply src .success

/-- INITIATE_DYNAMIC_CAPACITY_RELEASE (R65): the host is asked; the extent stays in the view until it releases it. -/
def Dev.initiateDcRelease (d : Dev) (src : Src) (h : Nat) (es : List Extent) : Dev :=
  d.gated src { mctp := true } fun d =>
    if tooManyExtents es || !d.dcOk h es then d.reply src .invalidInput
    else
      let bs := (es.flatMap extBlocks).filter fun b => d.inView h b
      ((d.setHead h fun x => { x with releases := (x.releases ++ bs).eraseDups }).emits (es.map fun e => .dcd h false e)).reply src .success

/-- ADD_DYNAMIC_CAPACITY_RESPONSE (R64): the accepted blocks of the offered extents enter the view, and the offer ends. With no
block the oldest offer is refused. -/
def Dev.addDcResponse (d : Dev) (h : Nat) (bs : List Nat) : Dev :=
  d.gated (.head h) {} fun d =>
    let x := d.head h
    if !bs.all fun b => x.adds.any fun e => (extBlocks e).contains b then d.reply (.head h) .invalidInput
    else
      let rest := if bs.isEmpty then x.adds.drop 1 else x.adds.filter fun e => !((extBlocks e).any bs.contains)
      (d.setHead h fun x => { x with adds := rest, blocks := (x.blocks ++ bs).eraseDups }).reply (.head h) .success

/-- RELEASE_DYNAMIC_CAPACITY (R65): the blocks that the host releases leave the view. -/
def Dev.releaseDc (d : Dev) (h : Nat) (bs : List Nat) : Dev :=
  d.gated (.head h) {} fun d =>
    if !bs.all fun b => (d.head h).blocks.contains b then d.reply (.head h) .invalidInput
    else
      (d.setHead h fun x => { x with blocks := x.blocks.filter (!bs.contains ·), releases := x.releases.filter (!bs.contains ·) }).reply
        (.head h) .success

/-! ### FM API (R75, R80) -/

/-- IDENTIFY: vendor and device ID (R56). -/
def Dev.identify (d : Dev) (src : Src) : Dev :=
  d.gated src { mctp := true } fun d =>
    d.cxl src 20 [0x1E5C, if bits d.caps0.toNat 31 24 = 2 then 0x5121 else 0x5120, d.serial.toNat]

/-- A command about one head completes with Invalid Input where the head is absent (R7). -/
def Dev.aboutHead (d : Dev) (src : Src) (h : Nat) (f : Dev → Dev) : Dev :=
  d.gated src { mctp := true } fun d => if h < d.nHosts then f d else d.reply src .invalidInput

/-- GET_HEAD_INFO: link rate and width. -/
def Dev.getHeadInfo (d : Dev) (src : Src) (h : Nat) : Dev :=
  d.aboutHead src h fun d => d.cxl src 21 [h, (d.head h).rate, (d.head h).width, b2n (d.attached h)]

/-- GET_DCD_INFO: heads, one DC region, and its 256 MiB block. -/
def Dev.getDcdInfo (d : Dev) (src : Src) : Dev := d.gated src { mctp := true } fun d => d.cxl src 22 [d.nHosts, 1, d.cfg.capacity, 2 ^ 28]

/-- DC region 0 of a head: its length in 256 MiB units, zero for a static head (R62). -/
def Dev.dcLength (d : Dev) (h : Nat) : Nat := if (d.staticOf h).isSome then 0 else d.cfg.capacity

/-- GET_HOST_DC_REGION_CONFIGURATION (R62). -/
def Dev.getHostDcRegionConfig (d : Dev) (src : Src) (h : Nat) : Dev :=
  d.aboutHead src h fun d => d.cxl src 23 [h, d.dcLength h, 2 ^ 28]

/-- SET_DC_REGION_CONFIGURATION: DC region 0 and its block size are fixed by R62, so nothing changes. -/
def Dev.setDcRegionConfig (d : Dev) (src : Src) (h : Nat) : Dev := d.aboutHead src h fun d => d.reply src .success

/-- GET_DC_REGION_EXTENT_LISTS. -/
def Dev.getDcRegionExtentLists (d : Dev) (src : Src) (h : Nat) : Dev :=
  d.aboutHead src h fun d => d.cxl src 24 (h :: (d.head h).blocks)

/-- GET_SLD_QOS_CONTROL (R80): the values in force. Where the heads' registers differ, those of H0 are reported (DESIGN CHOICE, log 86). -/
def Dev.getSldQosControl (d : Dev) (src : Src) : Dev :=
  d.gated src { mctp := true } fun d =>
    let v := (d.cfgReg (hpBase 0 + 0x10)).toNat
    d.cxl src 25 [bits v 15 8, bits v 23 16, bits v 31 24, bits v 7 4]

/-- SET_SLD_QOS_CONTROL (R80): written at the next boundary. A HYST above 15, which the register cannot hold, is refused with Invalid Input
(DESIGN CHOICE, log 86). -/
def Dev.setSldQosControl (d : Dev) (src : Src) (op mo se hy : Nat) : Dev :=
  d.gated src { mctp := true } fun d =>
    if devloadBad op mo se hy || decide (15 < hy) then d.reply src .invalidInput
    else if d.cfg.txn.st != .idle && d.cfg.txn.owner != some src then d.busy104 src
    else { d with cfg := { d.cfg with qos := some (op, mo, se, hy) } }.reply src .success

/-- GET_SLD_QOS_STATUS: the load of each head. -/
def Dev.getSldQosStatus (d : Dev) (src : Src) : Dev :=
  d.gated src { mctp := true } fun d => d.cxl src 26 ((List.range d.nHosts).map fun h => (d.head h).loadPct)

/-! ### MCTP control and I3C (R75) -/

/-- An MCTP control message wakes the device, and has no answer while the cores are away (R30, R342). -/
def Dev.mctpControl (d : Dev) (f : Dev → Dev) : Dev := if d.coresGone then d.wake 5 0 else f (d.wake 5 0)

/-- SET_ENDPOINT_ID: an EID that MCTP reserves is refused with completion code 2. -/
def Dev.setEndpointId (d : Dev) (eid : Nat) : Dev :=
  d.mctpControl fun d =>
    if eid = 0 ∨ 255 ≤ eid then d.emit (.mctpCtl [2])
    else { d with mctp := { d.mctp with eid := eid } }.emit (.mctpCtl [0, 0, eid, 0])

/-- GET_ENDPOINT_ID. -/
def Dev.getEndpointId (d : Dev) : Dev := d.mctpControl fun d => d.emit (.mctpCtl [0, d.mctp.eid, 0, 0])

/-- GET_MESSAGE_TYPE_SUPPORT: the accepted types. -/
def Dev.getMessageTypeSupport (d : Dev) : Dev := d.mctpControl fun d => d.emit (.mctpCtl [0, 5, 0, 5, 6, 7, 8])

/-- MCTP_GET_VERSION. -/
def Dev.mctpGetVersion (d : Dev) : Dev := d.mctpControl fun d => d.emit (.mctpCtl [0, 1, 0xF1, 0xF3, 0xF1, 0x00])

/-- DYNAMIC_ADDRESS (R75): assigned by ENTDAA or SETDASA, or reset. -/
def Dev.dynamicAddress (d : Dev) (a : Option Nat) : Dev := { d with mctp := { d.mctp with addr := a } }

/-! ### Device reset and aborts (R72, R74) -/

/-- DEVICE_RESET (R72): Success, then the reset at the second boundary. In the priming-only mode of R85 a head, which cannot hold manager
rights then, still gets 0x0108 (DESIGN CHOICE, log 88). -/
def Dev.deviceReset (d : Dev) (src : Src) (p : List Byte) : Dev :=
  d.gated src { manager := true, unprimed := true } fun d =>
  d.vend src p p.isEmpty true fun d => { d with resetDue := some (d.resetDue.getD (d.time.loc + 2)) }.reply src .success

/-- REQUEST_ABORT_BACKGROUND_OPERATION (R74): examined at the next boundary; with no command running it is already complete. -/
def Dev.requestAbort (d : Dev) (src : Src) : Dev :=
  d.gated src {} fun d =>
    match d.cfg.bg.find? fun b => b.src == src && (match b.kind with | .bayOff _ => false | _ => true) with
    | some b => d.askAbort b src
    | none => d.reply src .success 0x0106

/-! ### Reclaim (R116, R117) -/

/-- Level of the pending reclaim request of a head (`Get Reclaim Request`): 1 Low, 2 Critical, 3 sumps exhausted. -/
def Dev.reclaimLevel (d : Dev) (h : Nat) : Nat :=
  let worst := ((tileList d).map d.level).foldl max 0
  if (d.head h).reclaimNum = 0 ∨ worst < 2 then 0
  else if worst = 2 then 1
  else if (tileList d).all fun k => (d.tile k).sumpFree == 0 then 3 else 2

/-- GET_RECLAIM_REQUEST (R116). -/
def Dev.getReclaimRequest (d : Dev) (src : Src) (p : List Byte) : Dev :=
  d.gated src {} fun d =>
  d.vend src p p.isEmpty true fun d =>
    let want := ((tileList d).map fun k => if d.level k ≥ 1 then (d.tile k).high - d.free_ k else 0).sum
    let (n, lv, pages) := match src with
      | .head h =>
        ((d.head h).reclaimNum, d.reclaimLevel h, (d.wmap.filter fun x => x.2.st != .unbacked && d.inView h (x.1 / 65536)).length)
      | .mctp => (0, 0, 0)
    d.reply src .success 0 (leBytes 4 n ++ leBytes 1 lv ++ leBytes 3 0 ++ leBytes 8 want ++ leBytes 8 pages)

/-- The end of the pages from `p` on, below `hi`, of which no home slice has more than 128; `t` counts those of each before `p`. -/
def Dev.spanEnd (d : Dev) (hi : Nat) : Nat → Nat → Tbl Nat → Nat
  | 0, p, _ => p
  | n + 1, p, t =>
    if hi ≤ p then hi
    else
      let c := (Tbl.look t (d.home p)).getD 0
      if 128 ≤ c then p else d.spanEnd hi n (p + 1) (Tbl.put t (d.home p) (c + 1))

/-- Release the pages from `lo` on, below `hi`, that one boundary covers: 128 at each home slice (R117). A page with cached lines is
back-invalidated first, and the release stops before it. Answers the next page and the pages that had storage. -/
def Dev.releaseSpan (d : Dev) (lo hi : Nat) : Dev × Nat × Nat :=
  let top := if hi ≤ lo + 128 then max lo hi else d.spanEnd hi (128 * d.nHs) lo []
  let inside (p : Nat) : Bool := decide (lo ≤ p) && decide (p < top)
  let cached (d : Dev) : List Nat :=
    (d.hs.flatMap fun h => (h.2.dir.map fun e => lnPage e.line) ++ h.2.holds.map fun x => lnPage x.line).filter inside
  let d := forAll d (cached d).eraseDups fun d p => d.fencePage p
  let next := (cached d).foldl min top
  let pages := (d.wmap.filter fun x => decide (lo ≤ x.1) && decide (x.1 < next)).map Prod.fst
  let freed := (pages.filter fun p => (d.entry p).st != .unbacked).length
  let d := forAll d pages fun d p =>
    let e := d.entry p
    let d := if e.remote then d.sendPageFree e.t4Dev (e.t4Page * 4096) else d
    d.unback p
  (d, next, freed)

/-- RELEASE_RANGE (R117). -/
def Dev.releaseRange (d : Dev) (src : Src) (p : List Byte) : Dev :=
  d.gated src {} fun d =>
  d.vend src p (p.length == 24) (zeros (sub p 16 8)) fun d =>
    let a := fieldAt p 0 8
    let n := fieldAt p 8 8
    match src with
    | .mctp => d.reply src .invalidInput
    | .head h =>
      let lo := d.headDpaBase h + a
      if a % 4096 ≠ 0 ∨ n % 4096 ≠ 0 ∨ n = 0 ∨
          !((List.range ((lo + n - 1) / 2 ^ 28 + 1 - lo / 2 ^ 28)).all fun i => d.inView h (lo / 2 ^ 28 + i)) then
        d.reply src .invalidInput
      else d.asBg src fun d => d.startBg src (.release (lo / 4096) ((lo + n) / 4096) (lo / 4096) 0)

/-- RELEASE_RANGE_COMPLETE (R117): the sender's release has reached the end of its range. -/
def Dev.releaseRangeComplete (d : Dev) (src : Src) : Dev :=
  match d.cfg.bg.find? fun b => b.src == src && b.result.isNone &&
      (match b.kind with | .release _ hi next _ => decide (hi ≤ next) | _ => false) with
  | none => d
  | some b => match b.kind with
    | .release _ _ _ freed => d.finishBg b .success 0 (leBytes 8 freed)
    | _ => d

/-! ### Retiring a rank (R249) -/

/-- The rank that an input of 8 bytes names, where it is present. -/
def Dev.rankIn (d : Dev) (p : List Byte) : Option (Nat × Nat) :=
  let c := fieldAt p 0 1
  let r := fieldAt p 1 1 * 4 + fieldAt p 2 1
  if c < d.nChans ∧ fieldAt p 1 1 < 2 ∧ fieldAt p 2 1 < 4 ∧ (d.rankDimm c r).isSome then some (c, r) else none

/-- RETIRE_RANK (R249). -/
def Dev.retireRank (d : Dev) (src : Src) (p : List Byte) : Dev :=
  d.gated src { manager := true } fun d =>
  d.vend src p (p.length == 8) (zeros (sub p 3 5)) fun d =>
    match d.rankIn p with
    | none => d.reply src .invalidInput
    | some (c, r) =>
      if !rankUp (d.rank c r).st ||
          decide (d.kindCount (d.rankRef c r) [1, 2, 3, 4, 5] > d.spareFree (c / 8) + ((tileList d).map d.free_).sum) then
        d.reply src .invalidInput
      else d.asBg src fun d => (d.retireNow c r 6 true).startBg src (.retire c r)

/-- Frames Withheld of a rank: its probe row, what is listed so, and every unlisted frame of a rank that is not up. -/
def Dev.withheld (d : Dev) (q : RankRef) : Nat :=
  if d.refUp q then 4 + d.kindCount q [7] else q.cap - ((d.listed q).filter fun e => e.2.kind != 7).length

/-- GET_RANK_STATUS (R249): 32 bytes. -/
def Dev.getRankStatus (d : Dev) (src : Src) (p : List Byte) : Dev :=
  d.gated src { manager := true } fun d =>
  d.vend src p (p.length == 8) (zeros (sub p 3 5)) fun d =>
    match d.rankIn p with
    | none => d.reply src .invalidInput
    | some (c, r) =>
      let x := d.rank c r
      let q := d.rankRef c r
      d.reply src .success 0 (
        leBytes 1 x.st.num ++ leBytes 1 (if x.refreshed then x.m else 0) ++ leBytes 1 (x.mark.getD 0xFF) ++
        leBytes 1 (b2n (d.isSpare c r) + 2 * b2n (x.byCommand && x.st == .retired) + 4 * b2n x.pendRetire) ++
        leBytes 4 (min 0xFFFFFFFF (x.ce.map fun e => e.2.1).sum) ++ leBytes 2 (sat 16 x.ueWin.length) ++
        leBytes 2 (sat 16 (x.ce.map fun e => e.2.2).sum) ++ leBytes 4 (d.kindCount q [1, 2, 3, 4, 5]) ++ leBytes 4 (d.withheld q) ++
        leBytes 4 (if x.st = .retired then d.evacLeft { ch := c, r := r } else 0) ++ leBytes 8 0)

/-! ### Commands -/

/-- UNSUPPORTED_COMMAND (R57). -/
def execUnsupportedCommand (src : Src) (opcode : Nat) (s : State) : Host.Outcome State Fault Refusal :=
  s.mail src (.unsupportedCommand src opcode) (s.dev.unsupportedCommand src opcode)

/-- GET_FW_INFO (R465). -/
def execGetFwInfo (src : Src) (s : State) : Host.Outcome State Fault Refusal := s.mail src (.getFwInfo src) (s.dev.getFwInfo src)

/-- GET_TIMESTAMP (R459). -/
def execGetTimestamp (src : Src) (s : State) : Host.Outcome State Fault Refusal := s.mail src (.getTimestamp src) (s.dev.getTimestamp src)

/-- SET_TIMESTAMP (R459). -/
def execSetTimestamp (src : Src) (ts : BitVec 64) (s : State) : Host.Outcome State Fault Refusal :=
  s.mail src (.setTimestamp src ts) (s.dev.setTimestamp src ts)

/-- GET_HEALTH_INFO (R56). -/
def execGetHealthInfo (src : Src) (s : State) : Host.Outcome State Fault Refusal := s.mail src (.getHealthInfo src) (s.dev.getHealthInfo src)

/-- GET_POISON_LIST (R250). -/
def execGetPoisonList (src : Src) (start : Nat) (count : Nat) (s : State) : Host.Outcome State Fault Refusal :=
  s.mail src (.getPoisonList src start count) (s.dev.getPoisonList src start count)

/-- CLEAR_POISON_LIST (R56). -/
def execClearPoisonList (src : Src) (dpa : Nat) (data : Line) (s : State) : Host.Outcome State Fault Refusal :=
  s.mail src (.clearPoisonList src dpa data) (s.dev.clearPoisonList src dpa data)

/-- INJECT_POISON (R330). -/
def execInjectPoison (src : Src) (dpa : Nat) (s : State) : Host.Outcome State Fault Refusal := s.mail src (.injectPoison src dpa) (s.dev.injectPoison src dpa)

/-- IDENTIFY_MEMORY_DEVICE (R85). -/
def execIdentifyMemoryDevice (src : Src) (s : State) : Host.Outcome State Fault Refusal := s.mail src (.identifyMemoryDevice src) (s.dev.identifyMemoryDevice src)

/-- GET_SUPPORTED_LOGS (R85). -/
def execGetSupportedLogs (src : Src) (s : State) : Host.Outcome State Fault Refusal := s.mail src (.getSupportedLogs src) (s.dev.getSupportedLogs src)

/-- GET_LOG (R85). -/
def execGetLog (src : Src) (offset : Nat) (length : Nat) (s : State) : Host.Outcome State Fault Refusal :=
  s.mail src (.getLog src offset length) (s.dev.getLog src offset length)

/-- GET_MULTI_HEADED_INFO (R56). -/
def execGetMultiHeadedInfo (src : Src) (s : State) : Host.Outcome State Fault Refusal := s.mail src (.getMultiHeadedInfo src) (s.dev.getMultiHeadedInfo src)

/-- ADD_DYNAMIC_CAPACITY_RESPONSE (R64). -/
def execAddDcResponse (h : Nat) (blocks : List Nat) (s : State) : Host.Outcome State Fault Refusal :=
  s.done (s.dev.addDcResponse h blocks)

/-- RELEASE_DYNAMIC_CAPACITY (R65). -/
def execReleaseDc (h : Nat) (blocks : List Nat) (s : State) : Host.Outcome State Fault Refusal :=
  s.done (s.dev.releaseDc h blocks)

/-- REQUEST_ABORT_BACKGROUND_OPERATION (R74). -/
def execRequestAbort (src : Src) (s : State) : Host.Outcome State Fault Refusal := s.mail src (.requestAbort src) (s.dev.requestAbort src)

/-- GET_HARLUOD_IDENTITY (R459). -/
def execGetHarluodIdentity (src : Src) (payload : List Byte) (s : State) : Host.Outcome State Fault Refusal :=
  s.mail src (.getHarluodIdentity src payload) (s.dev.getHarluodIdentity src payload)

/-- MANAGEMENT_READ (R71). -/
def execManagementRead (src : Src) (payload : List Byte) (s : State) : Host.Outcome State Fault Refusal :=
  s.mail src (.managementRead src payload) (s.dev.managementRead src payload)

/-- MANAGEMENT_WRITE (R71). -/
def execManagementWrite (src : Src) (payload : List Byte) (s : State) : Host.Outcome State Fault Refusal :=
  s.mail src (.managementWrite src payload) (s.dev.managementWrite src payload)

/-- DEVICE_RESET (R72). -/
def execDeviceReset (src : Src) (payload : List Byte) (s : State) : Host.Outcome State Fault Refusal :=
  s.mail src (.deviceReset src payload) (s.dev.deviceReset src payload)

/-- GET_RECLAIM_REQUEST (R116). -/
def execGetReclaimRequest (src : Src) (payload : List Byte) (s : State) : Host.Outcome State Fault Refusal :=
  s.mail src (.getReclaimRequest src payload) (s.dev.getReclaimRequest src payload)

/-- RELEASE_RANGE (R117). -/
def execReleaseRange (src : Src) (payload : List Byte) (s : State) : Host.Outcome State Fault Refusal :=
  s.mail src (.releaseRange src payload) (s.dev.releaseRange src payload)

/-- RELEASE_RANGE_COMPLETE (R117). -/
def execReleaseRangeComplete (src : Src) (s : State) : Host.Outcome State Fault Refusal := s.mail src (.releaseRangeComplete src) (s.dev.releaseRangeComplete src)

/-- RETIRE_RANK (R249). -/
def execRetireRank (src : Src) (payload : List Byte) (s : State) : Host.Outcome State Fault Refusal :=
  s.mail src (.retireRank src payload) (s.dev.retireRank src payload)

/-- GET_RANK_STATUS (R249). -/
def execGetRankStatus (src : Src) (payload : List Byte) (s : State) : Host.Outcome State Fault Refusal :=
  s.mail src (.getRankStatus src payload) (s.dev.getRankStatus src payload)

/-- SCHEDULE_REGISTER_WRITE (R73). -/
def execScheduleRegisterWrite (src : Src) (payload : List Byte) (s : State) : Host.Outcome State Fault Refusal :=
  s.mail src (.scheduleRegisterWrite src payload) (s.dev.scheduleRegisterWrite src payload)

/-- SET_ENDPOINT_ID (R75). -/
def execSetEndpointId (eid : Nat) (s : State) : Host.Outcome State Fault Refusal := s.mail .mctp (.setEndpointId eid) (s.dev.setEndpointId eid)

/-- GET_ENDPOINT_ID (R75). -/
def execGetEndpointId (s : State) : Host.Outcome State Fault Refusal := s.mail .mctp .getEndpointId s.dev.getEndpointId

/-- GET_MESSAGE_TYPE_SUPPORT (R75). -/
def execGetMessageTypeSupport (s : State) : Host.Outcome State Fault Refusal := s.mail .mctp .getMessageTypeSupport s.dev.getMessageTypeSupport

/-- MCTP_GET_VERSION (R75). -/
def execMctpGetVersion (s : State) : Host.Outcome State Fault Refusal := s.mail .mctp .mctpGetVersion s.dev.mctpGetVersion

/-- IDENTIFY (R75). -/
def execIdentify (src : Src) (s : State) : Host.Outcome State Fault Refusal := s.mail src (.identify src) (s.dev.identify src)

/-- GET_HEAD_INFO (R75). -/
def execGetHeadInfo (src : Src) (h : Nat) (s : State) : Host.Outcome State Fault Refusal := s.mail src (.getHeadInfo src h) (s.dev.getHeadInfo src h)

/-- GET_DCD_INFO (R75). -/
def execGetDcdInfo (src : Src) (s : State) : Host.Outcome State Fault Refusal := s.mail src (.getDcdInfo src) (s.dev.getDcdInfo src)

/-- GET_HOST_DC_REGION_CONFIGURATION (R75). -/
def execGetHostDcRegionConfig (src : Src) (h : Nat) (s : State) : Host.Outcome State Fault Refusal :=
  s.mail src (.getHostDcRegionConfig src h) (s.dev.getHostDcRegionConfig src h)

/-- SET_DC_REGION_CONFIGURATION (R75). -/
def execSetDcRegionConfig (src : Src) (h : Nat) (s : State) : Host.Outcome State Fault Refusal :=
  s.mail src (.setDcRegionConfig src h) (s.dev.setDcRegionConfig src h)

/-- GET_DC_REGION_EXTENT_LISTS (R75). -/
def execGetDcRegionExtentLists (src : Src) (h : Nat) (s : State) : Host.Outcome State Fault Refusal :=
  s.mail src (.getDcRegionExtentLists src h) (s.dev.getDcRegionExtentLists src h)

/-- INITIATE_DYNAMIC_CAPACITY_ADD (R65). -/
def execInitiateDcAdd (src : Src) (h : Nat) (exts : List Extent) (s : State) : Host.Outcome State Fault Refusal :=
  s.mail src (.initiateDcAdd src h exts) (s.dev.initiateDcAdd src h exts)

/-- INITIATE_DYNAMIC_CAPACITY_RELEASE (R65). -/
def execInitiateDcRelease (src : Src) (h : Nat) (exts : List Extent) (s : State) : Host.Outcome State Fault Refusal :=
  s.mail src (.initiateDcRelease src h exts) (s.dev.initiateDcRelease src h exts)

/-- GET_SLD_QOS_CONTROL (R80). -/
def execGetSldQosControl (src : Src) (s : State) : Host.Outcome State Fault Refusal := s.mail src (.getSldQosControl src) (s.dev.getSldQosControl src)

/-- SET_SLD_QOS_CONTROL (R80). -/
def execSetSldQosControl (src : Src) (optimal : Nat) (moderate : Nat) (severe : Nat) (hyst : Nat) (s : State) :
    Host.Outcome State Fault Refusal :=
  s.mail src (.setSldQosControl src optimal moderate severe hyst) (s.dev.setSldQosControl src optimal moderate severe hyst)

/-- GET_SLD_QOS_STATUS (R80). -/
def execGetSldQosStatus (src : Src) (s : State) : Host.Outcome State Fault Refusal := s.mail src (.getSldQosStatus src) (s.dev.getSldQosStatus src)

/-- DYNAMIC_ADDRESS (R75). -/
def execDynamicAddress (addr : Option Nat) (s : State) : Host.Outcome State Fault Refusal := s.done (s.dev.dynamicAddress addr)

end Sys2Proof.Machine
end

