-- ==== Sys2Proof/Machine/Reset.lean ====
section
/-! DEFINITION. Cold reset and `RESET_N` (R13, R29, R72, R366, R396, R408, R448), the end of priming (R115, R150, R297, R299), PLL
failures (R352), the patrol of the on-package arrays (R393, R401) and Chroten modules that go down (R419, R425). -/

namespace Sys2Proof.Machine

open Sys2Proof

/-! ### Resets -/

/-- A slot that is Pending for a transaction that a reset ends is Discarded; one with a Pool tag waits for reconciliation (R314). -/
def Dev.discardPending (d : Dev) : Dev :=
  forAll d [0, 1] fun d n => if d.slotState n = 2 ∧ !(d.pendingSlot.any fun x => x.1 == n) then d.setSlotState n 3 else d

/-- Clocks and operating points after `RESET_N` (R361, R450): OP3 at the boot voltage. The monitors belong to the always-on part; a domain
that R356 keeps on its failover source is freed. -/
def ClkSt.afterReset (c : ClkSt) : ClkSt :=
  { c with mons := c.mons.map fun x => (x.1, { x.2 with latched := false })
           opNow := 3, opTo := 3, moving := false, raising := false, lowered := false, opFault := false, faultRail := 0,
           deferred := false, booted := false, pllLocked := [], clkout := 1#32, clkoutPend := none }

/-- What the security engine keeps: scan, the count of failed unlocks and their lockout, and DBG_EVER until priming (R330, R331). -/
def SecSt.afterReset (c : SecSt) : SecSt :=
  { scope := c.scope &&& 8#4, scan := c.scan, fails := c.fails, lockUntil := c.lockUntil, dbgEver := c.dbgEver }

/-- The four AVSBus rails go to the boot voltage. -/
def Dev.bootRails (d : Dev) : Dev := (((d.setRail 0 750).setRail 1 750).setRail 2 750).setRail 3 750

/-- A `RESET_N` reset (R13): every tile except the always-on part of the control tile. Event pending bits, the ledger, the OTP, the
stroke count, the time stamp, sticky counts and the bays' fault history stay (R29, R396, R408); key tables and DRAM contents do not. -/
def Dev.warmReset (d : Dev) : Dev :=
  let d := d.closeScopes.discardPending.bayCut.resetTiles.bootRails
  { d with
    acts := [], cfg := { slots := d.cfg.slots }, prim := .unprimed, resetDue := none, nvmWait := 0
    time := { d.time with holdover := false, planned := false, aligned := true, missed := 0, slew := 0, markBad := false, src := none }
    sec := d.sec.afterReset
    cores := { mismatch := d.cores.mismatch, wdog := d.cores.wdog, fetchUe := d.cores.fetchUe }
    pwr := { entries := d.pwr.entries, interrupted := d.pwr.interrupted }
    clk := d.clk.afterReset
    therm := { lost := d.therm.lost }
    ev := { d.ev with logs := [], routes := [] }
    cnts := [], bws := [], perts := [], decayEp := 0, decayPos := 0, oweD := false, missD := 0 }

/-- A `RESET_N` reset that the device itself performs: it primes again, unless the pin is held. -/
def Dev.resetAndPrime (d : Dev) : Dev := if d.resetHeld then d.warmReset else d.warmReset.primeBegin

/-- COLD_RESET (R13): the OTP, the NVM and the ledger stay; the straps are sampled (R448) and the device primes. Every tile with a rail of
its own is held in reset until that rail has been good for 8 strokes (R453). -/
def Dev.coldReset (d : Dev) (st : Straps) : Dev :=
  let n : Dev := { otp := d.otp, led := d.led.written, nvm := d.nvm, out := d.out, free := d.free, clk := { straps := st } }
  let n := n.setSup fun s => { s with held := n.fabricTiles }
  (if n.hasGuest then n.emit (.gtRst true) else n).primeBegin

/-- RESET_N (R13): the pin is asserted, which holds the device in reset until its deassertion, or a reset that the device was
ordered to perform takes effect. While latched off only the reset of Thermal Resume has effect (R390). -/
def Dev.resetN (d : Dev) (pin : Bool) : Dev :=
  if d.resetHeld || (d.therm.latched && (pin || d.resetDue.isNone)) then d
  else if pin then { d.warmReset with resetHeld := true }
  else d.resetAndPrime

/-- RESET_N_DEASSERTION (R448): NVM_MODE and TEST_MODE are sampled and priming begins. -/
def Dev.resetNDeassertion (d : Dev) (st : Straps) : Dev :=
  if !d.resetHeld then d
  else
    let d := { d with resetHeld := false }.setClk fun c =>
      { c with straps := { c.straps with nvmMode := st.nvmMode, testMode := st.testMode } }
    if d.therm.latched then d else d.primeBegin

/-! ### The end of priming (R297, R299) -/

/-- Steps 5 to 7 are over: no bay ramps, no rank is being brought up, and no memory or hub tile is held in reset. -/
def Dev.primeReady (d : Dev) : Bool :=
  (match d.prim with | .priming _ => true | _ => false) && !d.therm.latched && !d.resetHeld &&
    d.sup.held.all (fun t => decide (2 ≤ t) && decide (t ≤ 5)) &&
    d.bays.all (fun b => b.2.st != .queued && b.2.st != .ramping && b.2.st != .limiting) && d.chans.all fun c => c.2.bringUp.isEmpty

/-- Step 6: usable frames, the exposed capacity and its Metadata runs (R113, R466, R467); EV140 on a tile with one populated rank. -/
def Dev.primeFrames (d : Dev) : Dev :=
  let d := forAll d (tileList d) Dev.recompute
  let cap := capacityOf d.cfg.active.regions d.grants
  let d := { d with cfg := { d.cfg with capacity := cap } }
  let d := forAll d (tileList d) fun d k => match d.reserveTile k cap with
    | some (ms, d) => { d with metaRuns := d.metaRuns ++ ms }
    | none => d
  forAll d ((tileList d).filter fun k => d.metaRuns.any fun m => m.tile == k && m.mirror.isNone) fun d k => d.raise 140 (mtSlice k)

/-- The committed exposure exceeds the limit (R115). -/
def Dev.exposureOver (d : Dev) : Bool :=
  d.fld 0x320 31 31 == 0 && decide (d.limitFrames d.grants < committedOf d.cfg.active.regions d.grants * 65536)

/-- OVER_LIMIT and EV088 when the exposure comes to exceed the limit; the flag ends when the limit returns. -/
def Dev.checkLimit (d : Dev) : Dev :=
  if d.exposureOver then (if d.overLimit then d else { d with overLimit := true }.raise 88 (tileSlice 0))
  else { d with overLimit := false }

/-- A fresh pair for key domain 0 (R150). -/
def Dev.freshDomain0 (d : Dev) : Dev :=
  if d.hasEnc then
    { (d.setKd 0 fun k => { k with st := .live, k1 := Config.freeKey d.free, k2 := Config.freeKey (d.free + 1) }) with free := d.free + 2 }
  else d

/-- The broadcast epoch drawn at priming, other than zero (R270). -/
def Dev.freshEpoch (d : Dev) : Dev :=
  let w := Config.freeWord d.free
  { d with cas := { d.cas with epoch := if w = 0#32 then 1#32 else w, bseq := 0 }, free := d.free + 1 }

/-- PRIMED (R297): step 8. A Commit in the unprimed state completes with the pool stroke (R299). -/
def Dev.primed (d : Dev) : Dev :=
  match d.prim with
  | .priming live =>
    if !d.primeReady then d
    else
      let d := { d with prim := .primed }.primeFrames.checkLimit
      let d := (d.syncDoms.freshDomain0.freshEpoch).setSec fun c => { c with dbgEver := false, activeAt := d.time.loc }
      let d := { d with time := { d.time with aligned := d.role != 2 }, pwr := { d.pwr with res := [0, 0, 0, 0, 0] } }.exitTimes
      let d := d.raise 40 (tileSlice 0)
      let d := forAll d (List.range d.nHosts) Dev.capacityRecord
      let d := if live then
          (let d := d.setSlotState d.cfg.slot 1
           { d with cfg := { d.cfg with txn := { num := d.cfg.txn.num } } }.commitDone d.pool)
        else d
      if d.pendingSlot.isSome then d.startPull else d
  | _ => d

/-! ### Clocks and supplies -/

/-- PLL_FAILURE (R352): a link goes down, or a channel's ranks go Off until the next priming. The window of the relock is not judged. -/
def Dev.pllFailure (d : Dev) (c : ClockId) : Dev :=
  let fresh (d : Dev) : Dev := if d.clockThere c then d.setMon (clockKey c) fun _ => { skip := true } else d
  match c with
  | .serdesHost h => fresh (d.hostLinkDown h)
  | .serdesCascade p => fresh (d.lossOfSignal p)
  | .ddr ch =>
    if ch < d.nChans ∧ !(d.chan ch).pllFailed then
      fresh (((d.slotOff ch 0).slotOff ch 1).setChan ch fun x => { x with pllFailed := true, up := false, bringUp := [] })
    else d
  | _ => d

/-- A monitor window closes (R354). A SerDes or DDR PHY PLL that it declares failed has no failover (R352). -/
def Dev.monitorWindow (d : Dev) (c : ClockId) (deviation : Nat) : Dev :=
  let e := d.clockMonitorWindow c deviation
  if (e.mon (clockKey c)).failed && !(d.mon (clockKey c)).failed then e.pllFailure c else e

/-- The brace state ends without a dip record (R366). -/
def Dev.braceOver (d : Dev) : Dev :=
  if !d.sup.brace then d
  else
    let d := (d.setSup fun s => { s with brace := false, goodRun := 0 }).drainLedger
    d.resumeRaise

/-- A tile is held in reset. -/
def Dev.holdTile (d : Dev) (t : Nat) : Dev :=
  d.setSup fun s => { s with held := (s.held.filter (· != t)) ++ [t], rstRun := Tbl.del s.rstRun t }

/-- The four heads, or cascade ports, of a port tile. -/
def tilePorts (t : Nat) : List Nat := (List.range 4).map ((t - 2) * 4 + ·)

/-- A port tile is reset: its hosts see a port reset, its cascade links go down (R27, R28, R366). -/
def Dev.resetPortTile (d : Dev) (t : Nat) : Dev :=
  let d := forAll d (tilePorts t) fun d h => (d.portReset h).memberDead h 1
  forAll d (tilePorts t) fun d p => if (d.port p).st = .down then d else d.linkEnds p

/-- The links of a port tile go down (R366). -/
def Dev.tileLinksDown (d : Dev) (t : Nat) : Dev :=
  let d := forAll d (tilePorts t) Dev.hostLinkDown
  forAll d (tilePorts t) fun d p => if (d.port p).st = .down then d else d.linkEnds p

/-- The stroke count starts again where VDD_CT fell below its reset level; what was stamped by it is forgotten. -/
def Dev.loseStrokes (d : Dev) : Dev :=
  { d with time := { tsOfs := d.time.tsOfs, tsNow := d.time.tsOfs.toNat }, clk := { d.clk with mons := [] }, therm := { d.therm with sens := [] }
           gst := { d.gst with rstAt := 0 } }

/-- RESET_CROSSING (R366): EV002 and the reset that the table states; the tile is held in reset. `ctHeld`: VDD_CT stayed above its
reset level, which it does unless it is the rail that crossed or fell with VDD_IO. -/
def Dev.resetCrossing (d : Dev) (r t : Nat) (ctHeld : Bool) : Dev :=
  if !d.monitorOn r t then d
  else
    let d := (d.braceOver.setSup fun s => { s with latch := some (r, t) })
    let note (d : Dev) : Dev := d.raiseI 2 { slice := tileSlice t, detail := [r, t], must := true }
    if r = 2 then (note (d.resetPortTile t)).holdTile t
    else if r = 6 then (note (d.tileLinksDown t)).holdTile t
    else if d.therm.latched then (note d).holdTile t
    else
      let d := d.warmReset
      let kept := r != 0 && (ctHeld || r != 7)
      let d := note (if kept then d else d.loseStrokes)
      let d := d.holdTile t
      if d.resetHeld then d else d.primeBegin

/-- TILE_RESET_RELEASE (R366). -/
def Dev.tileResetRelease (d : Dev) (t : Nat) : Dev :=
  if d.sup.held.contains t && decide (8 ≤ Tbl.get 0 d.sup.rstRun t) then
    d.setSup fun s => { s with held := s.held.filter (· != t), rstRun := Tbl.del s.rstRun t }
  else d

/-! ### SRAM patrol (R393) -/

/-- A clean granule is fetched from storage again. -/
def Dev.refetchGran (d : Dev) (g : Nat) : Dev :=
  let v := d.gran g
  let e := d.entry (g / 32)
  if v.d0 || v.d1 then d
  else if !e.local then d.setGran g {}
  else match d.storedPage e with
    | .ok (ls, _) =>
      let a := ls.getD (2 * (g % 32)) (0#512, false)
      let b := ls.getD (2 * (g % 32) + 1) (0#512, false)
      d.setGran g { v with l0 := if v.v0 then a.1 else v.l0, p0 := if v.v0 then a.2 else v.p0,
                           l1 := if v.v1 then b.1 else v.l1, p1 := if v.v1 then b.2 else v.p1 }
    | .error _ => d.setGran g {}

/-- A dirty line of the cistern is lost: it reads as poison until it is written (R238). -/
def Dev.dropDirty (d : Dev) (line : Nat) : Dev :=
  let v := d.gran (lnGran line)
  let dirty := if lnHalf line = 0 then v.v0 && v.d0 else v.v1 && v.d1
  if !dirty then d
  else
    (d.setGran (lnGran line)
      (if lnHalf line = 0 then { v with v0 := false, d0 := false, p0 := false, l0 := 0#512 }
       else { v with v1 := false, d1 := false, p1 := false, l1 := 0#512 })).loseLine line

/-- An engine buffer word is lost: the pump's job ends as a CRC-32C failure (R132). -/
def Dev.engineLost (d : Dev) (p : Nat) : Dev :=
  match (d.pump p).job with
  | none => d
  | some j =>
    let page := (j.pages.head?).elim 0 Prod.fst
    let d := match j.decoder with | some n => d.decodeError n page 1 | none => d.raise 94 (pumpSlice p)
    if (d.pump p).st = 5 then d else d.haltPump p 2 page 0

/-- The device performs a `RESET_N` reset because of what an event says. -/
def Dev.resetFor (d : Dev) (ev slice : Nat) : Dev :=
  let d := d.raise ev slice
  if d.resetHeld || d.therm.latched then d else d.resetAndPrime

/-- SRAM_PATROL (R393, R401): one word of a tile's arrays. -/
def Dev.sramPatrol (d : Dev) (t : Nat) (f : SramFind) : Dev :=
  if !d.tilePresent t then d
  else match f with
    | .nothing => d
    | .single => d.raise 253 (tileSlice t)
    | .cleanCistern g => if 6 + d.homeTile (g / 32) = t then d.refetchGran g else d
    | .dirtyCistern l => if 6 + d.homeTile (lnPage l) = t then d.dropDirty l else d
    | .cleanMap _ => d
    | .dirtyMap page =>
      if 6 + d.homeTile page = t ∧ d.homed page then (d.poisonPage page 2).raisePage 87 page else d
    | .engine p => if 6 + p / 8 = t then d.engineLost p else d
    | .other => d.resetFor 6 (tileSlice t)
    | x => if t = 0 then d.ledgerFind x else d

/-! ### Chroten modules (R419, R425) -/

/-- CHROTEN_MODULE_DOWN (R419, R425): a tile that is cut off resets the device. -/
def Dev.chrotenModuleDown (d : Dev) (m : Nat) (cannotRepair : Bool) : Dev :=
  let st := (d.modu m).st
  if d.modPresent m && (st == 1 || st == 2 || st == 3 || (st == 0 && cannotRepair)) then
    let d := d.moduleDown m cannotRepair
    if d.cutOff m then d.resetFor 7 (tileSlice (modTile m)) else d
  else d

/-! ### Commands -/

/-- COLD_RESET (R13). -/
def execColdReset (straps : Straps) (s : State) : Host.Outcome State Fault Refusal := s.done (s.dev.coldReset straps)

/-- RESET_N (R13). -/
def execResetN (pin : Bool) (s : State) : Host.Outcome State Fault Refusal := s.done (s.dev.resetN pin)

/-- PRIMED (R297). -/
def execPrimed (s : State) : Host.Outcome State Fault Refusal := s.done s.dev.primed

/-- PLL_FAILURE (R352). -/
def execPllFailure (clk : ClockId) (s : State) : Host.Outcome State Fault Refusal := s.done (s.dev.pllFailure clk)

/-- RESET_CROSSING (R366). -/
def execResetCrossing (rail : Nat) (tile : Nat) (ctHeld : Bool) (s : State) : Host.Outcome State Fault Refusal :=
  s.done (s.dev.resetCrossing rail tile ctHeld)

/-- TILE_RESET_RELEASE (R366). -/
def execTileResetRelease (tile : Nat) (s : State) : Host.Outcome State Fault Refusal := s.done (s.dev.tileResetRelease tile)

/-- SRAM_PATROL (R393). -/
def execSramPatrol (tile : Nat) (found : SramFind) (s : State) : Host.Outcome State Fault Refusal :=
  s.done (s.dev.sramPatrol tile found)

/-- CHROTEN_MODULE_DOWN (R419). -/
def execChrotenModuleDown (m : Nat) (cannotRepair : Bool) (s : State) : Host.Outcome State Fault Refusal :=
  s.done (s.dev.chrotenModuleDown m cannotRepair)

/-- CLOCK_MONITOR_WINDOW (R354). -/
def execClockMonitorWindow (clk : ClockId) (deviation : Nat) (s : State) : Host.Outcome State Fault Refusal :=
  s.done (s.dev.monitorWindow clk deviation)

/-- RESET_N_DEASSERTION (R448). -/
def execResetNDeassertion (straps : Straps) (s : State) : Host.Outcome State Fault Refusal :=
  s.done (s.dev.resetNDeassertion straps)

end Sys2Proof.Machine
end

