-- ==== Sys2Proof/Machine/Stroke.lean ====
section
/-! DEFINITION. The stroke boundary: the order of R47, the boundary actions of R458, alignment in a pool (R52 to R54, R269, R276 to
R279), and the activation queue's entries taking effect (R48, R50, R51). -/

namespace Sys2Proof.Machine

open Sys2Proof

def Dev.setTime (d : Dev) (f : TimeSt → TimeSt) : Dev := { d with time := f d.time }

/-! ### Alignment (R52 to R54, R276 to R279) -/

/-- PAIR_WORD (R276): with BND set, the arrival offset of the stroke that the next MARK names, in 1/16 ns: the moment its first bit came,
less BND_OFS. -/
def Dev.pairWord (d : Dev) (p : Nat) (w : BitVec 40) (start : Int) (mark : Nat) : Dev :=
  if decide (p < d.nHosts) && (d.port p).live && pairBnd w then
    d.setPort p fun c => { c with arr := ((mark % 65536, start - Int.ofNat (pairOfs w)) :: c.arr).take 4 }
  else d

/-- STROKE_FRAME (R278): a plain frame on a keyed link is not taken. HOPS follows the stroke source's frame. -/
def Dev.strokeFrame (d : Dev) (p : Nat) (f : FrameMsg) : Dev :=
  let c := d.port p
  if p < d.nHosts ∧ (c.st = .keying ∨ c.st = .up) ∧ !(f.plain && c.keyed) then
    let d := d.setPort p fun c => { c with frame := some f, frameAt := d.time.loc }
    if d.role = 2 ∧ d.strokePort = some p ∧ !f.plain then { d with cas := { d.cas with hops := f.hops + 1 } } else d
  else d

/-- The last frame of a port that counts for alignment and configuration: one that is not plain. -/
def CPort.goodFrame (c : CPort) : Option FrameMsg := c.frame.bind fun f => if f.plain then none else some f

/-- A mark came in the stroke just ended on a keyed link (R258), be the link down since or not. -/
def Dev.markCame (s0 : Dev) (p : Nat) : Bool := (s0.port p).markNew

/-- The pool offset is to be rewritten (R53): marks have disagreed, and the stroke source's next good frame has come since. -/
def Dev.rewriteDue (d : Dev) : Bool :=
  d.role == 2 && d.time.markBad && (d.strokePort.elim false fun p =>
    let c := d.port p
    c.goodFrame.isSome && decide (d.time.badAt ≤ c.frameAt) && decide (c.frameAt < d.time.loc))

/-- The high bits come from the stroke source's frame (R53); EV050. -/
def Dev.rewriteOfs (d : Dev) : Dev :=
  match d.strokePort.bind fun p => (d.port p).goodFrame.map fun f => Int.ofNat f.stroke.toNat - Int.ofNat (d.port p).frameAt with
  | some ofs => (d.setTime fun t => { t with ofs := ofs, markBad := false, realigned := true }).raise 50 (tileSlice 0)
  | none => d

/-- The pool count moves at this boundary: a follower's offset is rewritten, or a lone device or root drops one that it had (R40). -/
def Dev.poolMoves (d : Dev) : Bool := d.rewriteDue || (d.prim == .primed && d.role != 2 && d.time.ofs != 0)

/-- The pool offset at a boundary. -/
def Dev.poolMove (d : Dev) : Dev :=
  if d.rewriteDue then d.rewriteOfs
  else if d.prim == .primed && d.role != 2 then d.setTime fun t => { t with ofs := 0 }
  else d

/-- The check of the mark received (R47 step 2, R53, R54, R269), on the state at the end of the stroke: the mark names that stroke. -/
def Dev.markBoundary (d s0 : Dev) : Dev :=
  let clear (d : Dev) : Dev := forAll d d.ports fun d p => d.setPort p fun c => { c with markNew := false }
  if s0.role ≠ 2 then clear (d.setTime fun t => { t with missed := 0, markBad := false, src := none, aligned := true, holdover := false,
                                                           planned := false })
  else
    let sp := s0.strokePort
    clear (d.setTime fun t =>
      if t.src.isSome ∧ sp ≠ t.src then { t with src := sp, missed := max 2 t.missed }
      else match sp with
        | some p =>
          if s0.markCame p then 
            let bad := decide ((s0.port p).mark % 65536 ≠ (d.pool - 1) % 65536)
            { t with src := sp, missed := 0, markBad := bad, badAt := if bad && !t.markBad then d.time.loc else t.badAt }
          else { t with src := sp, missed := t.missed + 1 }
        | none => { t with missed := t.missed + 1 })

/-- HOLDOVER_ENTRY (R54): 2 strokes without a valid mark. A link put to sleep makes it planned, without an event. -/
def Dev.holdoverEntry (d : Dev) : Dev :=
  if d.role = 2 ∧ !d.time.holdover ∧ 2 ≤ d.time.missed then
    let plan := match d.strokePort with
      | some p => (d.port p).st == .sleep || (d.port p).st == .waking || ((d.port p).frame.elim false FrameMsg.planned)
      | none => false
    let d := d.setTime fun t => { t with holdover := true, planned := plan, aligned := false }
    if plan then d else d.raise 49 (tileSlice 0)
  else d

/-- A phase step (R52): the one stroke that brings the error to within ±5 ns is between 0.5 µs and 1.5 µs long. -/
def stepSlew (half : Int) : Int := -((half + 1000) % 2000 - 1000)

/-- What a measured error of `e2` thirty-seconds of a nanosecond does (R52, R54). -/
def Dev.correctPhase (d : Dev) (e2 : Int) : Dev :=
  let half := e2 / 16
  let d := d.setTime fun t => { t with phaseErr := half }
  let slew := Int.ofNat (d.fld 0x214 7 0)
  if e2.natAbs ≤ 160 then
    d.setTime fun t =>
      if t.holdover ∧ t.missed = 0 ∧ !t.markBad then { t with aligned := true, slew := 0, holdover := false, planned := false }
      else { t with aligned := true, slew := 0 }
  else if e2.natAbs > d.fld 0x214 15 8 * 320 then
    (d.setTime fun t => { t with aligned := false, slew := stepSlew half, realigned := true }).raise 50 (tileSlice 0)
  else d.setTime fun t => { t with aligned := false, slew := if 0 < e2 then -slew else slew }

/-- PHASE_CORRECTION (R277): at S + 2, from the offset of S measured here and the one that the upstream device reports for S. -/
def Dev.phaseCorrection (d : Dev) : Dev :=
  match d.strokePort with
  | none => d
  | some p =>
    let c := d.port p
    match c.goodFrame with
    | none => d
    | some f =>
      match f.arrOfs, c.arrivalOf (f.stroke.toNat + 65535) with
      | some b, some a =>
        if d.role = 2 ∧ d.portUp p ∧ d.time.loc = c.frameAt + 1 ∧ d.time.corrAt ≠ d.time.loc then
          ((d.setPort p fun c => { c with delay := ((a + b) / 2).toNat }).setTime fun t => { t with corrAt := d.time.loc }).correctPhase (b - a)
        else d
      | _, _ => d

/-- A port's comparison of configurations (R279): the first of two frames that differ, or agree, is only counted. -/
def Dev.skewPort (d s0 : Dev) (p : Nat) : Dev :=
  let c := s0.port p
  match c.goodFrame with
  | none => d
  | some f =>
    if !(s0.portUp p && c.frameAt == s0.time.loc) then d
    else if (f.ver, f.digest) = s0.poolNow then
      d.setPort p fun c => { c with diff := 0, agree := min 2 (c.agree + 1), skew := c.skew && decide (c.agree + 1 < 2) }
    else
      let d := d.setPort p fun c => { c with agree := 0, diff := min 2 (c.diff + 1) }
      if c.diff + 1 < 2 ∨ c.skew then d
      else
        let d := (d.setPort p fun c => { c with skew := true }).raise 157 (portSlice p)
        if f.ver.toNat > s0.poolNow.1.toNat then d.startPull else d

/-- A root emits the stroke mark of the stroke that begins on its Up ports (R47 step 2). -/
def Dev.sendMarks (d : Dev) : Dev :=
  if d.role = 1 then forAll d (d.ports.filter d.portUp) fun d p => d.emit (.mark p (d.pool % 65536)) else d

/-- Step 2 of a boundary (R47, R52 to R54). -/
def Dev.alignBoundary (d s0 : Dev) : Dev := ((((d.poolMove).markBoundary s0).holdoverEntry).phaseCorrection).sendMarks

/-- Stroke Frames leave every Keying or Up port after step 4 (R278). -/
def Dev.sendFrames (d : Dev) : Dev :=
  forAll d (d.ports.filter fun p => (d.port p).st == .keying || (d.port p).st == .up) Dev.sendFrame

/-! ### The activation queue (R48, R50, R51) -/

/-- One entry goes before another: by stroke, then by class. -/
def ActEntry.first (a b : ActEntry) : Bool := decide (a.stroke < b.stroke) || (a.stroke == b.stroke && decide (a.cls < b.cls))

/-- Insert an entry behind those that do not come after it. -/
def insertAct (a : ActEntry) : List ActEntry → List ActEntry
  | [] => [a]
  | b :: t => if a.first b then a :: b :: t else b :: insertAct a t

/-- Perturbations that expire, in the place of class 3 before any start named for the same stroke (R48). -/
def Dev.pertEnds (d : Dev) : List ActEntry :=
  ((List.range 8).filter fun p => (d.pert p).st == 2 && decide ((d.pert p).endAt ≤ d.pool)).map fun p =>
    { stroke := (d.pert p).endAt, cls := 3, kind := .pertEnd p }

/-- Entries due, and perturbations that expire, in the order in which they take effect. -/
def Dev.dueActs (d : Dev) : List ActEntry :=
  (d.pertEnds ++ d.acts.filter fun a => decide (a.stroke ≤ d.pool)).foldl (fun l a => insertAct a l) []

/-- An operating-point change that an activation makes starts with it, or after the sequence that is running (R50, R359), and once the
cores are there (R30). -/
def Dev.opChange (d : Dev) : Dev :=
  let t := d.fld 0x610 31 30
  if d.clk.moving || d.coresGone || (d.sup.brace && d.opRaises t) then { d with acts := d.acts ++ [{ stroke := d.pool, cls := 2, kind := .opPoint t }] } else d.startOp t

/-- Run an action, and the operating-point change that it brings. -/
def Dev.withOp (d : Dev) (f : Dev → Dev) : Dev :=
  let e := f d
  if e.fld 0x610 31 30 = d.fld 0x610 31 30 then e else e.opChange

/-- One entry takes effect. -/
def Dev.runAct (d : Dev) (a : ActEntry) : Dev :=
  match a.kind with
  | .config => (d.withOp Dev.activateTxn).exitTimes
  | .toSlot => (d.withOp Dev.activateTo).exitTimes
  | .opPoint t => d.startOp t
  | .regWrite _ x v => d.withOp fun d => d.scheduledWrite x v
  | .pert p => d.pertBegin p a.stroke
  | .pertEnd p => d.perturbationExpiry p

/-- An entry that falls due: one of the operating-point class waits while a sequence runs (R50), while the cores are away (R30), and, if it
raises a voltage, until the first boundary after the brace state (R364). -/
def Dev.takeAct (d s0 : Dev) (a : ActEntry) : Dev :=
  if a.cls = 2 ∧ (s0.clk.moving || d.clk.moving || d.coresGone || ((s0.sup.brace || d.sup.brace) && d.actRaises a)) then d
  else if (match a.kind with | .pertEnd _ => true | _ => false) then d.runAct a
  else if d.acts.contains a then ({ d with acts := d.acts.erase a }).runAct a
  else d

/-- Step 4: every entry due takes effect; the floats follow `MT_FLOAT_CFG` (R113), and the floor a `FLOOR_HOLD` of 0 (R328). -/
def Dev.runActs (d s0 : Dev) : Dev :=
  let due := d.dueActs
  let d := forAll d due fun d a => d.takeAct s0 a
  if due.isEmpty then d
  else if d.prim ≠ .primed then d.floorRise
  else (forAll d (tileList d) Dev.recompute).floorRise

/-- ACTIVATION (R48): the first entry due takes effect. -/
def Dev.activation (d : Dev) : Dev :=
  match d.dueActs.filter fun a => !(a.cls == 2 && (d.clk.moving || d.coresGone || (d.sup.brace && d.actRaises a))) with
  | a :: _ => d.takeAct d a
  | [] => d

/-- POOL_OFFSET_REWRITE (R51, R53, R415) performs what the boundary has not: the windows close, and entries skipped take effect. -/
def Dev.poolOffsetRewrite (d : Dev) : Dev := if d.rewriteDue then (d.rewriteOfs.bwCloseAll).runActs d else d

/-! ### Boundary actions of R458 -/

/-- Overruns of the stroke just ended (R46): the work runs on past the boundary by the excess. -/
def Dev.overruns (d : Dev) (xs : List (Nat × Nat × Nat)) : Dev :=
  forAll d xs fun d x =>
    if 1 ≤ x.1 ∧ x.1 ≤ 6 ∧ d.slicePresent x.2.1 then
      let now := d.time.loc * 1000
      (d.setTime fun t => { t with running := (t.running.filter fun y => decide (now < y.2.2) && (y.1, y.2.1) != (x.1, x.2.1)) ++
        [(x.1, x.2.1, now + x.2.2)] }).overrun1 x.1 x.2.1 x.2.2
    else d

/-- An abort of a background command loses (R74, R464). -/
def Bg.abortLoses (b : Bg) : Bool :=
  b.result.isSome || (match b.kind with | .commit _ | .revert _ _ | .poolCommit => b.queued | .bayOff _ => true | _ => false)

/-- A background command rolls back (R464) and completes with Aborted. -/
def Dev.rollBackBg (d : Dev) (b : Bg) : Dev :=
  match b.kind with
  | .stage _ _ | .validate | .commit _ => ((d.rollBackTxn b).touchTxn).finishBg b .aborted
  | .poolCommit => (d.rootAbort 3 d.devId).finishBg b .aborted
  | .release _ _ _ freed => d.finishBg b .aborted 0 (leBytes 8 freed)
  | .retire c r => ((d.retireBack c r).abortEvacs c r).finishBg b .aborted 0 (d.rank c r).retireOut
  | .rejoin g => (if (d.dom g).st = .rejoining then d.rejoinBack g else d.setDom g fun x => { x with want := none }).finishBg b .aborted
  | .rest =>
    let d := d.finishBg b .aborted
    (match b.src with | .head h => d.endHeadRest h | .mctp => d)
  | .revert _ _ => ({ d with cfg := { d.cfg with root := {} } }).finishBg b .aborted
  | .bayOff _ => d

/-- ABORT_EXAMINATION (R74): each abort that waits wins or loses. -/
def Dev.abortBoundary (d : Dev) : Dev :=
  if d.coresGone then d
  else
    let late := d.cfg.lateAborts
    let d := forAll { d with cfg := { d.cfg with lateAborts := [] } } late fun d s => d.reply s .success 0x0106
    forAll d (d.cfg.bg.filter fun b => !b.aborts.isEmpty) fun d b =>
      let c : Bg := { b with aborts := [] }
      let d := d.mapBg fun x => if x = b then c else x
      if b.abortLoses then forAll d b.aborts fun d s => d.reply s .success 0x0106
      else forAll (d.rollBackBg c) b.aborts fun d s => d.reply s .success

/-- The level that a load index gives (R77, R78). -/
def loadLevel (op mo se hy old l : Nat) : Nat :=
  let thr (i : Nat) : Nat := if i = 3 then se else if i = 2 then mo else op
  let up := if l ≥ se then 3 else if l ≥ mo then 2 else if l ≥ op then 1 else 0
  let stay := (([3, 2, 1] : List Nat).find? fun i => decide (i ≤ old) && decide (l + hy ≥ thr i)).getD 0
  max up stay

/-- The load index L of a head (R77, R202): the highest of its ingress queue's occupancy, which the boundary is told, of every home slice's
that held a request of it, and of every channel's that served one, in percent. -/
def Dev.loadIndex (d : Dev) (h ingress : Nat) : Nat :=
  let hs := (d.hs.filter fun x => x.2.servedQ.contains h).map fun x => x.2.peakQ * 100 / 256
  let cs := (d.chans.filter fun x => x.2.servedQ.contains h).map fun x => x.2.peakQ * 100 / 64
  (hs ++ cs).foldl max ingress

/-- A new stroke's occupancies are counted from nothing. -/
def Dev.loadReset (d : Dev) : Dev :=
  let d := forAll d (d.hs.map Prod.fst) fun d n => d.setHs n fun h => { h with peakQ := 0, servedQ := [] }
  forAll d (d.chans.map Prod.fst) fun d c => d.setChan c fun x => { x with peakQ := 0, servedQ := [] }

/-- DevLoad of every head, under the thresholds in force at the end of the stroke; throttling holds Severe Overload (R385). -/
def Dev.loadBoundary (d s0 : Dev) (xs : List (Nat × Nat)) : Dev :=
  forAll d.loadReset (List.range d.nHosts) fun d h =>
    let l := s0.loadIndex h ((xs.find? fun x => x.1 == h).elim 0 Prod.snd)
    let v := (s0.cfgReg (hpBase h + 0x10)).toNat
    let lv := loadLevel (bits v 15 8) (bits v 23 16) (bits v 31 24) (bits v 7 4) (d.head h).devload l
    d.setHead h fun x => { x with loadPct := l, devload := if d.therm.throttle then 3 else if x.up then lv else 0 }

/-- PORT_TRAINING_START: a head that MAX_RATE 0 holds down trains from the boundary after MAX_RATE is above 0 (R60). -/
def Dev.heldBoundary (d : Dev) : Dev :=
  forAll d (List.range d.nHosts) fun d h =>
    d.setHead h fun x => { x with held := !x.up && !x.perst && d.linkCtl h 31 28 == 0 }

/-- Attached heads that view a region with RECLAIM set (R116). -/
def Dev.reclaimHeads (d : Dev) : List Nat :=
  d.attachedHeads.filter fun h => d.cfg.active.regions.any fun r => r.reclaim && d.viewsRegion h r

/-- A reclaim request to each of those heads (R116). -/
def Dev.reclaimRequest (d : Dev) (k : Nat) : Dev :=
  forAll (d.raise 92 (mtSlice k)) d.reclaimHeads fun d h =>
    let d := d.setHead h fun x => { x with reclaimNum := x.reclaimNum + 1 }
    d.record [h] .warning .vendor 256 0 (mtSlice k) [(d.head h).reclaimNum, 1]

/-- FLOAT_EVENT (R113): a tile first reaches a float, and each event is armed again above it. -/
def Dev.floatBoundary (d s0 : Dev) (k : Nat) : Dev :=
  let lv := s0.level k
  let t := s0.tile k
  let d := if lv ≥ 1 ∧ t.armHigh then d.raise 80 (mtSlice k) else d
  let d := if lv ≥ 2 ∧ t.armLow then (d.raise 81 (mtSlice k)) |> fun d => if s0.overcommit then d.reclaimRequest k else d else d
  let d := if lv ≥ 3 ∧ t.armCrit then d.raise 82 (mtSlice k) else d
  d.setTile k fun t => { t with armHigh := decide (lv < 1), armLow := decide (lv < 2), armCrit := decide (lv < 3) }

/-- Regions leave the dry state when every tile is above Low (R116). -/
def Dev.dryBoundary (d s0 : Dev) : Dev :=
  if !s0.dry.isEmpty && (tileList s0).all fun k => decide (s0.level k < 2) then
    forAll { d with dry := [] } s0.dry fun d n => d.raiseI 85 { slice := tileSlice 0, heads := d.regionHeads n }
  else d

/-- Entries below `hi` that the exposed capacity no longer covers are removed once their pages have been released (R466). -/
def Dev.cutEntries (d : Dev) (hi : Nat) : Dev :=
  { d with wmap := d.wmap.filter fun x => !(decide (d.cfg.capacity * 65536 ≤ x.1) && decide (x.1 < hi) && x.2.st == .unbacked) }

/-- Pages released at one boundary (R117, R301): those of the first release that is not over. -/
def Dev.releaseBoundary (d : Dev) : Dev :=
  let open_ (b : Bg) : Bool := match b.kind with | .release _ hi next _ => decide (next < hi) && b.result.isNone && !b.abandoned | _ => false
  match d.cfg.bg.find? open_ with
  | some b =>
    (match b.kind with
     | .release lo hi next freed =>
       let (d, n, f) := d.releaseSpan next hi
       d.mapBg fun x => if x = b then { x with kind := .release lo hi n (freed + f) } else x
     | _ => d)
  | none =>
    match d.cfg.releasing with
    | [] => d
    | (lo, hi) :: rest =>
      let (d, n, _) := d.releaseSpan lo hi
      let d := if n ≥ hi then d.cutEntries hi else d
      { d with cfg := { d.cfg with releasing := if n ≥ hi then rest else (n, hi) :: rest } }

/-- Ranks at a boundary: triggers of R244, which wait for the cores, and Empty ranks that enter self-refresh (R218). -/
def Dev.rankBoundary (d s0 : Dev) : Dev :=
  forAll d (List.range d.nChans) fun d c =>
    forAll d rankList fun d r =>
      let d := if (s0.rank c r).trigger ≠ 0 ∧ !s0.coresGone then d.rankTrigger c r else d
      if (s0.rank c r).st = .empty then d.parkRank c r else d

/-- The thresholds of Set SLD QoS Control are written for every head and join the overlay (R80). -/
def Dev.qosBoundary (d s0 : Dev) : Dev :=
  match s0.cfg.qos with
  | none => d
  | some (op, mo, se, hy) =>
    let o := (0xFFFFFFF0#32, BitVec.ofNat 32 (se * 2 ^ 24 + mo * 2 ^ 16 + op * 2 ^ 8 + hy * 2 ^ 4))
    let d := forAll d (List.range d.nHosts) fun d h => d.overlayReg (hpBase h + 0x10) o
    { d with cfg := { d.cfg with qos := if d.cfg.qos = s0.cfg.qos then none else d.cfg.qos } }

/-- Route registers take effect (R398). -/
def Dev.eventRoutes (d s0 : Dev) : Dev :=
  let r := (s0.cfg.regs.filter fun x => decide (0xB100 ≤ x.1) && decide (x.1 < 0xB500)).map fun x => ((x.1 - 0xB100) / 4, x.2.toNat % 16)
  { d with ev := { d.ev with routes := r } }

/-- A write to the NVM that cannot proceed waits (R289). -/
def Dev.nvmBoundary (d : Dev) : Dev :=
  match d.txnBg fun k => match k with | .stage _ _ => true | .validate => d.cfg.txn.pool | .commit _ => d.cfg.txn.st == .writing | _ => false with
  | some _ => if d.nvmWritable then d else { d with nvmWait := d.nvmWait + 1 }
  | none => d

/-- The conditions that raise their N event's bit again (R397). -/
def Dev.reassertN (d : Dev) : Dev :=
  let d := if d.therm.latched then d.reassert 4 else d
  if d.bays.any fun b => b.2.st == .latched && b.2.cause == 5 then d.reassert 3 else d

/-- What the primed device does with its memory at step 1. -/
def Dev.memoryBoundary (d s0 : Dev) : Dev :=
  if s0.prim ≠ .primed ∨ s0.therm.latched then d
  else
    let d := (forAll d (tileList d) fun d k => (d.recompute k).floatBoundary s0 k).checkLimit
    let d := (d.dryBoundary s0).releaseBoundary
    let d := forAll d (List.range d.nPumps) Dev.haltDisposal
    d.rankBoundary s0

/-- What the supplies, clocks, bays and sensors decide at step 1. -/
def Dev.plantBoundary (d : Dev) (x : Samples) : Dev :=
  ((((((d.clockBoundary).clkoutBoundary).railBoundary x.rails).opBoundary).bayBoundary x.bays x.vin).thermalBoundary).reassertN

/-- The windows of the root's decisions that end at this boundary (R311, R313); a Commit not acknowledged in time orders the pool Revert at
once. -/
def Dev.waitsBoundary (d s0 : Dev) : Dev :=
  let d := d.voteWindowExpiry.commitWaitExpiry
  if s0.cfg.root.phase = 3 ∧ d.cfg.root.phase = 4 then d.rootRevert else d

/-- What links, routes and the pool decide at step 1: the upstream device changes a link's keys when they are due (R159). -/
def Dev.linkBoundary (d s0 : Dev) : Dev :=
  let d := forAll d d.ports Dev.portBoundary
  let d := forAll d (s0.ports.filter fun p => s0.portUp p && s0.upstream p && s0.rekeyDue p) fun d p => d.linkRekey p none
  let d := forAll d d.ports fun d p => d.skewPort s0 p
  (((d.routeBoundary).poolBoundary s0).waitsBoundary s0).fetchRun

/-- The ranks, tiles and granules for which a condition of file 08, 09 or 07 has come due (R183, R227, R245 to R247). -/
def Dev.memoryDues (d s0 : Dev) : Dev :=
  let d := forAll d (s0.chans.map Prod.fst) fun d c =>
    forAll d ((s0.chan c).ranks.map Prod.fst) fun d r => (d.ueWindowExpiry c r).rankEmpty c r
  let d := forAll d ((tileList s0).filter fun k => !(s0.tile k).evacs.isEmpty) fun d k => (d.evacuationRetry k).evacuationWalk k
  let d := forAll d ((s0.cist.filter fun x => x.2.keep.isSome).map Prod.fst) Dev.keepExpiry
  let d := if s0.prim = .primed then forAll d (tileList s0) Dev.sweepStale else d
  let d := forAll d ((s0.books.filter fun x => x.2.st == .retiring).map Prod.fst) Dev.bookSlotRetireEnd
  forAll d ((s0.kdoms.filter fun x => x.2.st == .retiring || x.2.st == .erased).map Prod.fst) Dev.domainKeyEmpty

/-- The time limits of the cascade ports, of the routes and of what other devices have been asked (R253 to R274, R282 to R286). -/
def Dev.cascadeDues (d s0 : Dev) : Dev :=
  let d := forAll d s0.ports fun d p =>
    ((((((d.cascadeTrainingStepTimeout p).alignmentLossTimeout p).adaptationRetrain p).replayTimeout p).resumptionTimeout p).failbackPort
      p).cascadeTrainingStart p
  let d := forAll d ((s0.cas.routes.filter fun x => x.2.holdUntil.isSome).map Prod.fst) Dev.foQuietExpiry
  let d := forAll d (s0.cas.fwd.map Fwd.tag) Dev.remoteTimeout
  let d := forAll d ((List.range s0.nPumps).filter fun q => (s0.pump q).job.isSome) Dev.pageAckTimeout
  forAll d (s0.cas.frees.map FreeOut.tag) Dev.pageFreeTimeout

/-- The time limits of commands, transactions and pool decisions (R117, R289, R309, R313, R314, R324). -/
def Dev.commandDues (d s0 : Dev) : Dev :=
  let d := d.transactionTimeout.floorRise.nvmWriteTimeout.votedTimeout.pullRetry.pullGiveUp.unlockLockoutExpiry
  forAll d (s0.cfg.bg.map Bg.src) Dev.releaseRangeComplete

/-- The time limits of power, supplies, bays and the guest (R338 to R347, R365, R371 to R374, R427, R441, R442). -/
def Dev.plantDues (d s0 : Dev) : Dev :=
  let d := d.hsWaitExpiry.sleepReplyTimeout.quiesceTimeout.entryRetry.reentryIdleExpiry.activationWake
  let d := forAll d.braceEnd s0.sup.held Dev.tileResetRelease
  let d := d.guestResetRelease.attachTimeout.guestModuleLoss.resumedTimeout.guestAccessTimeout
  let d := forAll d (s0.bays.map Prod.fst) fun d n =>
    ((((d.faultTimerExpiry n).retryTimerExpiry n).rampLimitExpiry n).retriesClear n).powerDownGateDelay n
  if s0.bays.any fun x => x.2.st == .queued then d.rampBoundary else d

/-- The boundary actions of R458, each decided on the state `s0` at the end of the stroke or on state of its own. -/
def Dev.stepOne (d s0 : Dev) (x : Samples) : Dev :=
  let d := (d.abortBoundary).overruns x.overruns
  let d := (d.memoryBoundary s0).plantBoundary x
  let d := ((d.memoryDues s0).commandDues s0).plantDues s0
  let d := ((((d.keyBoundary s0).debugScopeExpiry).scopeBoundary s0).domBoundary s0).linkBoundary s0
  let d := d.cascadeDues s0
  let d := forAll d (s0.doms.map Prod.fst) Dev.rejoinTimeout
  let d := ((d.restBoundary).guestBoundary s0).pertBoundary s0
  let d := ((d.qosBoundary s0).eventRoutes s0).nvmBoundary
  (((d.ageHolds).heldBoundary).loadBoundary s0 x.ingress).capBoundary

/-- Steps 5 and 6: refresh credit for the stroke just ended, settings that wait, then budgets and jobs. -/
def Dev.stepsFiveSix (d : Dev) (held : List (Nat × Nat)) : Dev :=
  let d := forAll d (List.range d.nChans) Dev.refreshCredit
  let d := forAll d (List.range d.nChans) fun d c => forAll d rankList fun d r => d.installSetting c r
  d.pumpsStep6 held

/-- Magnitude J of the stroke jitter in force, in half ns (R418). -/
def Dev.jitterMax (d : Dev) : Int := Int.ofNat (2 * d.pertMag 4 (tileSlice 0))

/-- An integer kept within ±m. -/
def clampTo (m v : Int) : Int := max (-m) (min m v)

/-- The offset that jitter puts on the boundary now reached: from the length that the stroke is reported to have, within ±J (R418). -/
def Dev.jitNow (d : Dev) (halfNs : Nat) : Int := clampTo d.jitterMax (d.time.jit + (Int.ofNat halfNs - 2000))

/-- The length of the stroke just ended in half ns: 100 reference cycles (R35), moved by the alignment logic's slew or step (R52), by at
most 20 ns where the reference changed (R36), and by what jitter does to its ends (R418). -/
def Dev.strokeLen (d : Dev) (halfNs : Nat) : Nat :=
  let ref := if d.time.refMoved then clampTo 40 (Int.ofNat halfNs - 2000) else 0
  (2000 + d.time.slew + ref + (d.jitNow halfNs - d.time.jit)).toNat

/-- The counts take the value of the new stroke (R38), and records take its time (R459). -/
def Dev.tick (d : Dev) (halfNs : Nat) : Dev :=
  let t := { d.time with loc := d.time.loc + 1, slew := 0, lastHalfNs := d.strokeLen halfNs, jit := d.jitNow halfNs, refMoved := false }
  let d := { d with time := t, ev := { d.ev with now := [] } }
  d.setTime fun t => { t with tsNow := d.stamp }

/-- A reset that the device has been ordered to perform is due (R72). -/
def Dev.resetIsDue (d : Dev) : Bool := !d.resetHeld && d.resetDue.any fun t => decide (t ≤ d.time.loc)

/-- STROKE_BOUNDARY (R47). -/
def Dev.strokeBoundary (s0 : Dev) (x : Samples) : Dev :=
  let d := s0.tick x.halfNs
  if d.resetIsDue then d.resetAndPrime.plantBoundary x
  else
    let d := d.stepOne s0 x
    let moves := d.poolMoves
    let d := d.alignBoundary s0
    let d := (d.cntBoundary s0 x.signals).bwBoundary s0 x.bytes moves
    ((d.runActs s0).sendFrames).stepsFiveSix x.heldBack

/-! ### Commands -/

/-- STROKE_BOUNDARY (R47). -/
def execStrokeBoundary (smp : Samples) (s : State) : Host.Outcome State Fault Refusal := s.done (s.dev.strokeBoundary smp)

/-- ACTIVATION (R48). -/
def execActivation (s : State) : Host.Outcome State Fault Refusal := s.done s.dev.activation

/-- STROKE_FRAME (R278). -/
def execStrokeFrame (p : Nat) (f : FrameMsg) (s : State) : Host.Outcome State Fault Refusal := s.done (s.dev.strokeFrame p f)

/-- PHASE_CORRECTION (R277). -/
def execPhaseCorrection (s : State) : Host.Outcome State Fault Refusal := s.done s.dev.phaseCorrection

/-- POOL_OFFSET_REWRITE (R53). -/
def execPoolOffsetRewrite (s : State) : Host.Outcome State Fault Refusal := s.done s.dev.poolOffsetRewrite

/-- HOLDOVER_ENTRY (R54). -/
def execHoldoverEntry (s : State) : Host.Outcome State Fault Refusal := s.done s.dev.holdoverEntry

/-- PAIR_WORD (R276). -/
def execPairWord (p : Nat) (word : BitVec 40) (start : Int) (mark : Nat) (s : State) : Host.Outcome State Fault Refusal :=
  s.done (s.dev.pairWord p word start mark)

end Sys2Proof.Machine
end

