-- ==== Sys2Proof/Machine/Dispatch.lean ====
section
/-! DEFINITION. One arm for each command: its meaning, or its rejection by name. -/

namespace Sys2Proof.Machine

open Sys2Proof

def exec (i : Instr) (s : State) : Host.Outcome State Fault Refusal :=
  match i with
  | .coldReset straps => Sys2Proof.Machine.execColdReset straps s
  | .resetN pin => Sys2Proof.Machine.execResetN pin s
  | .primed => Sys2Proof.Machine.execPrimed s
  | .perstAssertion h => Sys2Proof.Machine.execPerstAssertion h s
  | .perstDeassertion h => Sys2Proof.Machine.execPerstDeassertion h s
  | .controlComplexReset security => Sys2Proof.Machine.execControlComplexReset security s
  | .coresResume => Sys2Proof.Machine.execCoresResume s
  | .lockstepMismatch => Sys2Proof.Machine.execLockstepMismatch s
  | .coreWatchdogExpiry => Sys2Proof.Machine.execCoreWatchdogExpiry s
  | .uncorrectableFetch => Sys2Proof.Machine.execUncorrectableFetch s
  | .strokeBoundary smp => Sys2Proof.Machine.execStrokeBoundary smp s
  | .activation => Sys2Proof.Machine.execActivation s
  | .strokeFrame p f => Sys2Proof.Machine.execStrokeFrame p f s
  | .phaseCorrection => Sys2Proof.Machine.execPhaseCorrection s
  | .poolOffsetRewrite => Sys2Proof.Machine.execPoolOffsetRewrite s
  | .holdoverEntry => Sys2Proof.Machine.execHoldoverEntry s
  | .hostLinkUp h rate width => Sys2Proof.Machine.execHostLinkUp h rate width s
  | .hostLinkDown h => Sys2Proof.Machine.execHostLinkDown h s
  | .hdmDecoderCommit h idx dec => Sys2Proof.Machine.execHdmDecoderCommit h idx dec s
  | .ltrConfigWrite h en snoopNs noSnoopNs => Sys2Proof.Machine.execLtrConfigWrite h en snoopNs noSnoopNs s
  | .ideKeyProgram h prog => Sys2Proof.Machine.execIdeKeyProgram h prog s
  | .ideIntegrityFailure stream => Sys2Proof.Machine.execIdeIntegrityFailure stream s
  | .m2sMemRd h tag dpa mv => Sys2Proof.Machine.execM2sMemRd h tag dpa mv s
  | .m2sMemRdData h tag dpa => Sys2Proof.Machine.execM2sMemRdData h tag dpa s
  | .m2sMemInv h tag dpa mv => Sys2Proof.Machine.execM2sMemInv h tag dpa mv s
  | .m2sMemInvNT h tag dpa mv => Sys2Proof.Machine.execM2sMemInvNT h tag dpa mv s
  | .m2sMemWr h tag dpa mv data => Sys2Proof.Machine.execM2sMemWr h tag dpa mv data s
  | .m2sMemWrPtl h tag dpa mv mask data => Sys2Proof.Machine.execM2sMemWrPtl h tag dpa mv mask data s
  | .m2sMemClnEvct h tag dpa => Sys2Proof.Machine.execM2sMemClnEvct h tag dpa s
  | .m2sBIRsp h dpa rsp => Sys2Proof.Machine.execM2sBIRsp h dpa rsp s
  | .m2sBIConflict h dpa => Sys2Proof.Machine.execM2sBIConflict h dpa s
  | .readCompletion id => Sys2Proof.Machine.execReadCompletion id s
  | .inlinePromotionEnd page => Sys2Proof.Machine.execInlinePromotionEnd page s
  | .cisternEviction gran readUe => Sys2Proof.Machine.execCisternEviction gran readUe s
  | .keepExpiry gran => Sys2Proof.Machine.execKeepExpiry gran s
  | .unsupportedCommand src opcode => Sys2Proof.Machine.execUnsupportedCommand src opcode s
  | .getFwInfo src => Sys2Proof.Machine.execGetFwInfo src s
  | .getTimestamp src => Sys2Proof.Machine.execGetTimestamp src s
  | .setTimestamp src ts => Sys2Proof.Machine.execSetTimestamp src ts s
  | .getEventRecords src log => Sys2Proof.Machine.execGetEventRecords src log s
  | .clearEventRecords src log all handles => Sys2Proof.Machine.execClearEventRecords src log all handles s
  | .setEventInterruptPolicy src policy => Sys2Proof.Machine.execSetEventInterruptPolicy src policy s
  | .getHealthInfo src => Sys2Proof.Machine.execGetHealthInfo src s
  | .getPoisonList src start count => Sys2Proof.Machine.execGetPoisonList src start count s
  | .clearPoisonList src dpa data => Sys2Proof.Machine.execClearPoisonList src dpa data s
  | .injectPoison src dpa => Sys2Proof.Machine.execInjectPoison src dpa s
  | .identifyMemoryDevice src => Sys2Proof.Machine.execIdentifyMemoryDevice src s
  | .getSupportedLogs src => Sys2Proof.Machine.execGetSupportedLogs src s
  | .getLog src offset length => Sys2Proof.Machine.execGetLog src offset length s
  | .getMultiHeadedInfo src => Sys2Proof.Machine.execGetMultiHeadedInfo src s
  | .addDcResponse h blocks => Sys2Proof.Machine.execAddDcResponse h blocks s
  | .releaseDc h blocks => Sys2Proof.Machine.execReleaseDc h blocks s
  | .requestAbort src => Sys2Proof.Machine.execRequestAbort src s
  | .getHarluodIdentity src payload => Sys2Proof.Machine.execGetHarluodIdentity src payload s
  | .managementRead src payload => Sys2Proof.Machine.execManagementRead src payload s
  | .managementWrite src payload => Sys2Proof.Machine.execManagementWrite src payload s
  | .deviceReset src payload => Sys2Proof.Machine.execDeviceReset src payload s
  | .thermalResume src payload => Sys2Proof.Machine.execThermalResume src payload s
  | .beginTxn src payload => Sys2Proof.Machine.execBeginTxn src payload s
  | .stage src payload => Sys2Proof.Machine.execStage src payload s
  | .stageComplete nvmOk => Sys2Proof.Machine.execStageComplete nvmOk s
  | .validate src payload => Sys2Proof.Machine.execValidate src payload s
  | .validateComplete readBackOk => Sys2Proof.Machine.execValidateComplete readBackOk s
  | .commit src payload => Sys2Proof.Machine.execCommit src payload s
  | .commitSlotWritten readBackOk => Sys2Proof.Machine.execCommitSlotWritten readBackOk s
  | .rollback src payload => Sys2Proof.Machine.execRollback src payload s
  | .revert src payload => Sys2Proof.Machine.execRevert src payload s
  | .poolCommit src payload => Sys2Proof.Machine.execPoolCommit src payload s
  | .nvmWriteTimeout => Sys2Proof.Machine.execNvmWriteTimeout s
  | .requestRest src payload => Sys2Proof.Machine.execRequestRest src payload s
  | .cancelRest src payload => Sys2Proof.Machine.execCancelRest src payload s
  | .getPowerStatus src payload => Sys2Proof.Machine.execGetPowerStatus src payload s
  | .getReclaimRequest src payload => Sys2Proof.Machine.execGetReclaimRequest src payload s
  | .releaseRange src payload => Sys2Proof.Machine.execReleaseRange src payload s
  | .releaseRangeComplete src => Sys2Proof.Machine.execReleaseRangeComplete src s
  | .retireRank src payload => Sys2Proof.Machine.execRetireRank src payload s
  | .getRankStatus src payload => Sys2Proof.Machine.execGetRankStatus src payload s
  | .bayPowerStatus src payload => Sys2Proof.Machine.execBayPowerStatus src payload s
  | .bayPowerOn src payload => Sys2Proof.Machine.execBayPowerOn src payload s
  | .bayPowerOff src payload => Sys2Proof.Machine.execBayPowerOff src payload s
  | .bayPowerClear src payload => Sys2Proof.Machine.execBayPowerClear src payload s
  | .rejoinDomain src payload => Sys2Proof.Machine.execRejoinDomain src payload s
  | .getChallenge input => Sys2Proof.Machine.execGetChallenge input s
  | .unlock src payload => Sys2Proof.Machine.execUnlock src payload s
  | .relock input => Sys2Proof.Machine.execRelock input s
  | .unlockLockoutExpiry => Sys2Proof.Machine.execUnlockLockoutExpiry s
  | .scheduleRegisterWrite src payload => Sys2Proof.Machine.execScheduleRegisterWrite src payload s
  | .readCounters src payload => Sys2Proof.Machine.execReadCounters src payload s
  | .setEndpointId eid => Sys2Proof.Machine.execSetEndpointId eid s
  | .getEndpointId => Sys2Proof.Machine.execGetEndpointId s
  | .getMessageTypeSupport => Sys2Proof.Machine.execGetMessageTypeSupport s
  | .mctpGetVersion => Sys2Proof.Machine.execMctpGetVersion s
  | .identify src => Sys2Proof.Machine.execIdentify src s
  | .getHeadInfo src h => Sys2Proof.Machine.execGetHeadInfo src h s
  | .getDcdInfo src => Sys2Proof.Machine.execGetDcdInfo src s
  | .getHostDcRegionConfig src h => Sys2Proof.Machine.execGetHostDcRegionConfig src h s
  | .setDcRegionConfig src h => Sys2Proof.Machine.execSetDcRegionConfig src h s
  | .getDcRegionExtentLists src h => Sys2Proof.Machine.execGetDcRegionExtentLists src h s
  | .initiateDcAdd src h exts => Sys2Proof.Machine.execInitiateDcAdd src h exts s
  | .initiateDcRelease src h exts => Sys2Proof.Machine.execInitiateDcRelease src h exts s
  | .getSldQosControl src => Sys2Proof.Machine.execGetSldQosControl src s
  | .setSldQosControl src optimal moderate severe hyst => Sys2Proof.Machine.execSetSldQosControl src optimal moderate severe hyst s
  | .getSldQosStatus src => Sys2Proof.Machine.execGetSldQosStatus src s
  | .sweepStep tile => Sys2Proof.Machine.execSweepStep tile s
  | .sweepStale tile => Sys2Proof.Machine.execSweepStale tile s
  | .heatDecayPass resident => Sys2Proof.Machine.execHeatDecayPass resident s
  | .pumpJobStart pump => Sys2Proof.Machine.execPumpJobStart pump s
  | .decoderAvailable tile dec => Sys2Proof.Machine.execDecoderAvailable tile dec s
  | .fenceComplete pump => Sys2Proof.Machine.execFenceComplete pump s
  | .fenceAbandon pump => Sys2Proof.Machine.execFenceAbandon pump s
  | .commitPhase pump => Sys2Proof.Machine.execCommitPhase pump s
  | .pumpAbort src pump => Sys2Proof.Machine.execPumpAbort src pump s
  | .pumpResume src pump => Sys2Proof.Machine.execPumpResume src pump s
  | .bookSlotRetireEnd slot => Sys2Proof.Machine.execBookSlotRetireEnd slot s
  | .setKey sess req => Sys2Proof.Machine.execSetKey sess req s
  | .retireDomain sess req => Sys2Proof.Machine.execRetireDomain sess req s
  | .eraseDomain sess req => Sys2Proof.Machine.execEraseDomain sess req s
  | .eraseInvalidationDone dom => Sys2Proof.Machine.execEraseInvalidationDone dom s
  | .getDomainStatus sess req => Sys2Proof.Machine.execGetDomainStatus sess req s
  | .domainKeyEmpty dom => Sys2Proof.Machine.execDomainKeyEmpty dom s
  | .linkKeyMessage msg => Sys2Proof.Machine.execLinkKeyMessage msg s
  | .linkRekey msg => Sys2Proof.Machine.execLinkRekey msg s
  | .arbiterAdmission hs ecc => Sys2Proof.Machine.execArbiterAdmission hs ecc s
  | .transactionAcknowledged line => Sys2Proof.Machine.execTransactionAcknowledged line s
  | .snoopTimeout line => Sys2Proof.Machine.execSnoopTimeout line s
  | .holdTimeout line => Sys2Proof.Machine.execHoldTimeout line s
  | .rejoinTimeout g => Sys2Proof.Machine.execRejoinTimeout g s
  | .channelRequest ch wr gran origin => Sys2Proof.Machine.execChannelRequest ch wr gran origin s
  | .dramReadReturn ch gran reader errs => Sys2Proof.Machine.execDramReadReturn ch gran reader errs s
  | .refabIssue ch r => Sys2Proof.Machine.execRefabIssue ch r s
  | .mr4Poll ch codes => Sys2Proof.Machine.execMr4Poll ch codes s
  | .calibrationBurst ch r probes => Sys2Proof.Machine.execCalibrationBurst ch r probes s
  | .retrainingWindow ch r ns => Sys2Proof.Machine.execRetrainingWindow ch r ns s
  | .retrainingEnd ch r found setting => Sys2Proof.Machine.execRetrainingEnd ch r found setting s
  | .retrainingTimeout ch r setting => Sys2Proof.Machine.execRetrainingTimeout ch r setting s
  | .caParityAlert ch slot => Sys2Proof.Machine.execCaParityAlert ch slot s
  | .bringUpComplete ch results => Sys2Proof.Machine.execBringUpComplete ch results s
  | .scrubRead ch run => Sys2Proof.Machine.execScrubRead ch run s
  | .softPpr ch pass => Sys2Proof.Machine.execSoftPpr ch pass s
  | .ueWindowExpiry ch r => Sys2Proof.Machine.execUeWindowExpiry ch r s
  | .evacuationWalk tile => Sys2Proof.Machine.execEvacuationWalk tile s
  | .evacuationRetry tile => Sys2Proof.Machine.execEvacuationRetry tile s
  | .rankEmpty ch r => Sys2Proof.Machine.execRankEmpty ch r s
  | .cascadeTrainingStart p => Sys2Proof.Machine.execCascadeTrainingStart p s
  | .cascadeTrainingStepTimeout p => Sys2Proof.Machine.execCascadeTrainingStepTimeout p s
  | .cascadeLinkUp p rate width lanes => Sys2Proof.Machine.execCascadeLinkUp p rate width lanes s
  | .pairAlignmentAcquired p => Sys2Proof.Machine.execPairAlignmentAcquired p s
  | .pairAlignmentLost p => Sys2Proof.Machine.execPairAlignmentLost p s
  | .alignmentLossTimeout p => Sys2Proof.Machine.execAlignmentLossTimeout p s
  | .adaptationRetrain p => Sys2Proof.Machine.execAdaptationRetrain p s
  | .lossOfSignal p => Sys2Proof.Machine.execLossOfSignal p s
  | .flitReceive p f => Sys2Proof.Machine.execFlitReceive p f s
  | .linkControl p nak ack credits => Sys2Proof.Machine.execLinkControl p nak ack credits s
  | .replayTimeout p => Sys2Proof.Machine.execReplayTimeout p s
  | .hello p hl => Sys2Proof.Machine.execHello p hl s
  | .securedTransport p ofs total frag => Sys2Proof.Machine.execSecuredTransport p ofs total frag s
  | .terdyMemRd p m => Sys2Proof.Machine.execTerdyMemRd p m s
  | .terdyMemRdData p m => Sys2Proof.Machine.execTerdyMemRdData p m s
  | .terdyMemInv p m => Sys2Proof.Machine.execTerdyMemInv p m s
  | .terdyMemInvNT p m => Sys2Proof.Machine.execTerdyMemInvNT p m s
  | .terdyMemWr p m => Sys2Proof.Machine.execTerdyMemWr p m s
  | .terdyMemWrPtl p m => Sys2Proof.Machine.execTerdyMemWrPtl p m s
  | .terdyMemClnEvct p m => Sys2Proof.Machine.execTerdyMemClnEvct p m s
  | .terdyMemWrRetried p m => Sys2Proof.Machine.execTerdyMemWrRetried p m s
  | .terdyMemWrPtlRetried p m => Sys2Proof.Machine.execTerdyMemWrPtlRetried p m s
  | .writeRetry p m => Sys2Proof.Machine.execWriteRetry p m s
  | .terdyMemData p m => Sys2Proof.Machine.execTerdyMemData p m s
  | .terdyCmp p m => Sys2Proof.Machine.execTerdyCmp p m s
  | .terdyBIRsp p m => Sys2Proof.Machine.execTerdyBIRsp p m s
  | .terdyBIConflict p m => Sys2Proof.Machine.execTerdyBIConflict p m s
  | .terdyBIConflictAck p m => Sys2Proof.Machine.execTerdyBIConflictAck p m s
  | .terdyBISnpInv p m => Sys2Proof.Machine.execTerdyBISnpInv p m s
  | .terdyBISnpData p m => Sys2Proof.Machine.execTerdyBISnpData p m s
  | .terdyBISnpCur p m => Sys2Proof.Machine.execTerdyBISnpCur p m s
  | .pageFetch p m => Sys2Proof.Machine.execPageFetch p m s
  | .pagePlace p m => Sys2Proof.Machine.execPagePlace p m s
  | .pageData p m => Sys2Proof.Machine.execPageData p m s
  | .pageAck p m => Sys2Proof.Machine.execPageAck p m s
  | .pageFree p m => Sys2Proof.Machine.execPageFree p m s
  | .remoteTimeout tag => Sys2Proof.Machine.execRemoteTimeout tag s
  | .pageAckTimeout pump => Sys2Proof.Machine.execPageAckTimeout pump s
  | .pageFreeTimeout tag => Sys2Proof.Machine.execPageFreeTimeout tag s
  | .foQuietExpiry dest => Sys2Proof.Machine.execFoQuietExpiry dest s
  | .routeNoticeSwitch p dest => Sys2Proof.Machine.execRouteNoticeSwitch p dest s
  | .routeNoticeRestore p dest => Sys2Proof.Machine.execRouteNoticeRestore p dest s
  | .failback p => Sys2Proof.Machine.execFailback p s
  | .domainDown p b => Sys2Proof.Machine.execDomainDown p b s
  | .domainUp p b => Sys2Proof.Machine.execDomainUp p b s
  | .broadcastAck p a => Sys2Proof.Machine.execBroadcastAck p a s
  | .poolPrepare p b => Sys2Proof.Machine.execPoolPrepare p b s
  | .poolCommitBroadcast p b => Sys2Proof.Machine.execPoolCommitBroadcast p b s
  | .poolAbort p b => Sys2Proof.Machine.execPoolAbort p b s
  | .poolRevert p b => Sys2Proof.Machine.execPoolRevert p b s
  | .voteWindowExpiry => Sys2Proof.Machine.execVoteWindowExpiry s
  | .commitWaitExpiry => Sys2Proof.Machine.execCommitWaitExpiry s
  | .configurationPull p q => Sys2Proof.Machine.execConfigurationPull p q s
  | .configurationPullReply p q => Sys2Proof.Machine.execConfigurationPullReply p q s
  | .votedTimeout => Sys2Proof.Machine.execVotedTimeout s
  | .pullRetry => Sys2Proof.Machine.execPullRetry s
  | .pullGiveUp => Sys2Proof.Machine.execPullGiveUp s
  | .slotVerificationComplete => Sys2Proof.Machine.execSlotVerificationComplete s
  | .transactionTimeout => Sys2Proof.Machine.execTransactionTimeout s
  | .sleepRequest p src => Sys2Proof.Machine.execSleepRequest p src s
  | .sleepReply p accept slice => Sys2Proof.Machine.execSleepReply p accept slice s
  | .sleepDrainComplete p => Sys2Proof.Machine.execSleepDrainComplete p s
  | .wakePatternDetected p => Sys2Proof.Machine.execWakePatternDetected p s
  | .linkResumed p => Sys2Proof.Machine.execLinkResumed p s
  | .resumptionTimeout p => Sys2Proof.Machine.execResumptionTimeout p s
  | .claimOwnership sess req => Sys2Proof.Machine.execClaimOwnership sess req s
  | .transferOwnership sess req => Sys2Proof.Machine.execTransferOwnership sess req s
  | .revokeVendorKey sess req => Sys2Proof.Machine.execRevokeVendorKey sess req s
  | .decommission sess req => Sys2Proof.Machine.execDecommission sess req s
  | .setCertificate sess slot chain => Sys2Proof.Machine.execSetCertificate sess slot chain s
  | .getCertificate sess slot offset length => Sys2Proof.Machine.execGetCertificate sess slot offset length s
  | .challenge sess slot nonce => Sys2Proof.Machine.execChallenge sess slot nonce s
  | .negotiateAlgorithms sess supported => Sys2Proof.Machine.execNegotiateAlgorithms sess supported s
  | .keyExchange sess => Sys2Proof.Machine.execKeyExchange sess s
  | .keyUpdate sess => Sys2Proof.Machine.execKeyUpdate sess s
  | .heartbeat sess => Sys2Proof.Machine.execHeartbeat sess s
  | .endSession sess => Sys2Proof.Machine.execEndSession sess s
  | .getMeasurements sess index => Sys2Proof.Machine.execGetMeasurements sess index s
  | .floorRise => Sys2Proof.Machine.execFloorRise s
  | .debugScopeExpiry => Sys2Proof.Machine.execDebugScopeExpiry s
  | .entryStep facts => Sys2Proof.Machine.execEntryStep facts s
  | .hsWaitExpiry => Sys2Proof.Machine.execHsWaitExpiry s
  | .sleepReplyTimeout => Sys2Proof.Machine.execSleepReplyTimeout s
  | .entryRetry => Sys2Proof.Machine.execEntryRetry s
  | .wakeSource code idx => Sys2Proof.Machine.execWakeSource code idx s
  | .wakeStep => Sys2Proof.Machine.execWakeStep s
  | .reentryIdleExpiry => Sys2Proof.Machine.execReentryIdleExpiry s
  | .activationWake => Sys2Proof.Machine.execActivationWake s
  | .clockMonitorWindow clk deviation => Sys2Proof.Machine.execClockMonitorWindow clk deviation s
  | .sourceSwitchStopTimeout clk cycles => Sys2Proof.Machine.execSourceSwitchStopTimeout clk cycles s
  | .rcTrim steps => Sys2Proof.Machine.execRcTrim steps s
  | .pllFailure clk => Sys2Proof.Machine.execPllFailure clk s
  | .pllLocked tile => Sys2Proof.Machine.execPllLocked tile s
  | .railPoll avs mv => Sys2Proof.Machine.execRailPoll avs mv s
  | .opSequenceFault avs reason => Sys2Proof.Machine.execOpSequenceFault avs reason s
  | .clkoutConfiguration src value => Sys2Proof.Machine.execClkoutConfiguration src value s
  | .gateRefusalTimeout slice => Sys2Proof.Machine.execGateRefusalTimeout slice s
  | .warningCrossing rail tile => Sys2Proof.Machine.execWarningCrossing rail tile s
  | .braceEnd => Sys2Proof.Machine.execBraceEnd s
  | .resetCrossing rail tile ctHeld => Sys2Proof.Machine.execResetCrossing rail tile ctHeld s
  | .tileResetRelease tile => Sys2Proof.Machine.execTileResetRelease tile s
  | .railOvervoltage rail tile mv => Sys2Proof.Machine.execRailOvervoltage rail tile mv s
  | .bayInsertion n pos dimm => Sys2Proof.Machine.execBayInsertion n pos dimm s
  | .bayRemoval n pos => Sys2Proof.Machine.execBayRemoval n pos s
  | .bayRampStart n => Sys2Proof.Machine.execBayRampStart n s
  | .bayGood n => Sys2Proof.Machine.execBayGood n s
  | .rampLimitExpiry n => Sys2Proof.Machine.execRampLimitExpiry n s
  | .gateNotGood n => Sys2Proof.Machine.execGateNotGood n s
  | .currentLimit n => Sys2Proof.Machine.execCurrentLimit n s
  | .currentLimitCleared n => Sys2Proof.Machine.execCurrentLimitCleared n s
  | .faultTimerExpiry n => Sys2Proof.Machine.execFaultTimerExpiry n s
  | .fastTrip n => Sys2Proof.Machine.execFastTrip n s
  | .retryTimerExpiry n => Sys2Proof.Machine.execRetryTimerExpiry n s
  | .retriesClear n => Sys2Proof.Machine.execRetriesClear n s
  | .shortedTransistor n => Sys2Proof.Machine.execShortedTransistor n s
  | .powerDownGateDelay n => Sys2Proof.Machine.execPowerDownGateDelay n s
  | .bayOutputLow n => Sys2Proof.Machine.execBayOutputLow n s
  | .tileSensorSample tile raw => Sys2Proof.Machine.execTileSensorSample tile raw s
  | .dimmTemperatureRead ch readings => Sys2Proof.Machine.execDimmTemperatureRead ch readings s
  | .enforcementStart => Sys2Proof.Machine.execEnforcementStart s
  | .eventPendingClear src w mask => Sys2Proof.Machine.execEventPendingClear src w mask s
  | .faultNRelease => Sys2Proof.Machine.execFaultNRelease s
  | .sramPatrol tile found => Sys2Proof.Machine.execSramPatrol tile found s
  | .counterReprogram src n value => Sys2Proof.Machine.execCounterReprogram src n value s
  | .counterOvfClear src n => Sys2Proof.Machine.execCounterOvfClear src n s
  | .counterWrap n inc => Sys2Proof.Machine.execCounterWrap n inc s
  | .bandwidthWindowConfig src n value => Sys2Proof.Machine.execBandwidthWindowConfig src n value s
  | .bandwidthWindowClose n => Sys2Proof.Machine.execBandwidthWindowClose n s
  | .perturbationGo src p => Sys2Proof.Machine.execPerturbationGo src p s
  | .perturbationStop src p => Sys2Proof.Machine.execPerturbationStop src p s
  | .perturbationExpiry p => Sys2Proof.Machine.execPerturbationExpiry p s
  | .chrotenModuleUp m rate repaired => Sys2Proof.Machine.execChrotenModuleUp m rate repaired s
  | .chrotenModuleDown m cannotRepair => Sys2Proof.Machine.execChrotenModuleDown m cannotRepair s
  | .chrotenFlitReceive m crcOk opcode size => Sys2Proof.Machine.execChrotenFlitReceive m crcOk opcode size s
  | .creditReturn m slots => Sys2Proof.Machine.execCreditReturn m slots s
  | .guestMemRd tag addr mv => Sys2Proof.Machine.execGuestMemRd tag addr mv s
  | .guestMemRdData tag addr => Sys2Proof.Machine.execGuestMemRdData tag addr s
  | .guestMemInv tag addr mv => Sys2Proof.Machine.execGuestMemInv tag addr mv s
  | .guestMemInvNT tag addr mv => Sys2Proof.Machine.execGuestMemInvNT tag addr mv s
  | .guestMemWr tag addr mv hint data => Sys2Proof.Machine.execGuestMemWr tag addr mv hint data s
  | .guestMemWrPtl tag addr mv hint mask data => Sys2Proof.Machine.execGuestMemWrPtl tag addr mv hint mask data s
  | .guestMemClnEvct tag addr => Sys2Proof.Machine.execGuestMemClnEvct tag addr s
  | .guestBIRsp addr rsp => Sys2Proof.Machine.execGuestBIRsp addr rsp s
  | .guestBIConflict addr => Sys2Proof.Machine.execGuestBIConflict addr s
  | .pushReply addr accept => Sys2Proof.Machine.execPushReply addr accept s
  | .guestResetRelease => Sys2Proof.Machine.execGuestResetRelease s
  | .attach idReg caps credits => Sys2Proof.Machine.execAttach idReg caps credits s
  | .attachTimeout => Sys2Proof.Machine.execAttachTimeout s
  | .detach => Sys2Proof.Machine.execDetach s
  | .guestModuleLoss => Sys2Proof.Machine.execGuestModuleLoss s
  | .reattach src => Sys2Proof.Machine.execReattach src s
  | .ready => Sys2Proof.Machine.execReady s
  | .refuse => Sys2Proof.Machine.execRefuse s
  | .quiesceTimeout => Sys2Proof.Machine.execQuiesceTimeout s
  | .guestWake => Sys2Proof.Machine.execGuestWake s
  | .resumed => Sys2Proof.Machine.execResumed s
  | .resumedTimeout => Sys2Proof.Machine.execResumedTimeout s
  | .guestAccessTimeout => Sys2Proof.Machine.execGuestAccessTimeout s
  | .guestRegisterAccessPacket => Sys2Proof.Machine.execGuestRegisterAccessPacket s
  | .resetNDeassertion straps => Sys2Proof.Machine.execResetNDeassertion straps s
  | .pairWord p word start mark => Sys2Proof.Machine.execPairWord p word start mark s
  | .dynamicAddress addr => Sys2Proof.Machine.execDynamicAddress addr s
  | .spdmGetVersion sess => Sys2Proof.Machine.execSpdmGetVersion sess s
  | .getCapabilities sess => Sys2Proof.Machine.execGetCapabilities sess s
  | .getDigests sess => Sys2Proof.Machine.execGetDigests sess s
  | .finish sess verifies => Sys2Proof.Machine.execFinish sess verifies s
  | .getEncapsulatedRequest sess => Sys2Proof.Machine.execGetEncapsulatedRequest sess s
  | .deliverEncapsulatedResponse sess rootHash verifies => Sys2Proof.Machine.execDeliverEncapsulatedResponse sess rootHash verifies s
  | .tableAccess h => Sys2Proof.Machine.execTableAccess h s
  | .guestAccessCompletion value => Sys2Proof.Machine.execGuestAccessCompletion value s
  | .writeBurst ch gran ok => Sys2Proof.Machine.execWriteBurst ch gran ok s
  | .autoIdleExpiry ch r bank => Sys2Proof.Machine.execAutoIdleExpiry ch r bank s

end Sys2Proof.Machine
end

