-- ==== Sys2Proof/Machine/Step.lean ====
section
/-! DEFINITION. One step: the command at the front of the queue, or nothing when none waits. -/

namespace Sys2Proof.Machine

open Sys2Proof

/-- The machine with no command pending (log entry 1): the first command that paused while the management cores were away runs once
they are back (R30, log entry 80); with none the block idles. -/
def idle (s : State) : Host.Outcome State Fault Refusal :=
  match s.dev.cores.paused with
  | [] => .next s
  | c :: rest =>
    if s.dev.coresGone then .next s
    else exec c { s with dev := { s.dev with cores := { s.dev.cores with paused := rest } } }

/-- Run the command at the front of the queue with the queue's rest; with none pending, see `idle`. -/
def step (s : State) : Host.Outcome State Fault Refusal :=
  match s.pending with
  | [] => idle s
  | c :: rest => exec c { s with pending := rest }

/-- Put the command that a word spells at the front of the queue. No row of the table gives a word (log entry 2). -/
def State.withFetchWord (s : State) (nbits w : Nat) : State :=
  match decodeTableWord nbits w with
  | none => s
  | some c => { s with pending := c :: s.pending }

end Sys2Proof.Machine
end

