-- ==== Sys2Proof/Safety.lean ====
section
/-! DEFINITION. The terms that statements about the block are made in: what it means that a command completes, that an event was raised
and a message sent, what raising an event leaves alone, and the invariants of the memories and of the OTP. -/

namespace Sys2Proof.Machine

open Sys2Proof

/-! ### Completion -/

/-- Command `c` completes at `s`: it answers a next state that has the same waiting commands and whose device satisfies `P`. -/
def Does (c : Instr) (s : State) (P : Dev → Prop) : Prop := ∃ t, exec c s = .next t ∧ t.pending = s.pending ∧ P t.dev

/-- Command `c` completes at `s` and leaves exactly the device `e`: every field that `e` shares with the device before is unchanged. -/
def Leaves (c : Instr) (s : State) (e : Dev) : Prop := exec c s = .next { s with dev := e }

/-- The device without what raising an event may change (R396 to R402, R406) and without what it has sent: the pending bits, logs and
ledger, the counters, the records that wait for the cores, and the count of lost journal records. -/
def Dev.bare (d : Dev) : Dev :=
  { d with ev := {}, cnts := [], led := {}, out := [], cores := { d.cores with queue := [], lostRecs := 0 },
           therm := { d.therm with lost := 0 } }

/-- Apart from events and messages the device is `e`: every other field of the two is the same. -/
def Dev.Agrees (d e : Dev) : Prop := d.bare = e.bare

/-- The pending bit of event `n` is set (R396). -/
def Dev.Pending (d : Dev) (n : Nat) : Prop := d.ev.pend.getLsbD n = true

/-- Command `c` completes at `s`, raises event `n`, and apart from events and messages leaves the device `e`. -/
def Raises (c : Instr) (s : State) (n : Nat) (e : Dev) : Prop := Does c s fun t => t.Pending n ∧ t.Agrees e

/-- From `d` to `e` the block has sent `o`, and nothing that it had sent before is gone. -/
def Dev.Sent (d e : Dev) (o : Out) : Prop := ∃ a b, e.out = d.out ++ a ++ o :: b

/-! ### Gates of a mailbox or CCI command (R30, R57, R66, R85, R342, R390) -/

/-- The device once the command's arrival has woken it, where it wakes it (R342). -/
def Dev.heard (d : Dev) (src : Src) (g : Gate) : Dev := if g.quiet then d else d.wakeFor src

/-- The sender exists and no gate turns its command away. -/
def Dev.Accepts (d : Dev) (src : Src) (g : Gate) : Prop := d.srcOk src = true ∧ (d.heard src g).gateStop src g = none

/-- The sender, and the gates, of each command that comes by mailbox or CCI: the vendor commands that need manager rights (R66), those
that are accepted in priming-only mode (R85) and while latched off (R390), the FM API's (R57), and those that wake nothing (R342). Begin
needs manager rights once the device is primed (R85). -/
def gateOf (d : Dev) : Instr → Option (Src × Gate)
  | .unsupportedCommand src _ => some (src, {})
  | .getFwInfo src => some (src, { unprimed := true })
  | .getTimestamp src => some (src, {})
  | .setTimestamp src _ => some (src, { unprimed := true })
  | .getEventRecords src _ => some (src, { unprimed := true })
  | .clearEventRecords src _ _ _ => some (src, { unprimed := true })
  | .setEventInterruptPolicy src _ => some (src, {})
  | .getHealthInfo src => some (src, {})
  | .getPoisonList src _ _ => some (src, {})
  | .clearPoisonList src _ _ => some (src, {})
  | .injectPoison src _ => some (src, {})
  | .identifyMemoryDevice src => some (src, { unprimed := true })
  | .getSupportedLogs src => some (src, { unprimed := true })
  | .getLog src _ _ => some (src, { unprimed := true })
  | .getMultiHeadedInfo src => some (src, { mctp := true })
  | .addDcResponse h _ => some (.head h, {})
  | .releaseDc h _ => some (.head h, {})
  | .requestAbort src => some (src, {})
  | .getHarluodIdentity src _ => some (src, { unprimed := true, latched := true, quiet := true })
  | .managementRead src _ => some (src, { manager := true, latched := true })
  | .managementWrite src _ => some (src, { manager := true })
  | .deviceReset src _ => some (src, { manager := true, unprimed := true })
  | .thermalResume src _ => some (src, { manager := true, latched := true })
  | .beginTxn src _ => some (src, { manager := d.prim == .primed, unprimed := true })
  | .stage src _ => some (src, { unprimed := true })
  | .validate src _ => some (src, { unprimed := true })
  | .commit src _ => some (src, { unprimed := true })
  | .rollback src _ => some (src, { unprimed := true })
  | .revert src _ => some (src, { manager := true })
  | .poolCommit src _ => some (src, { manager := true })
  | .requestRest src _ => some (src, { quiet := true })
  | .cancelRest src _ => some (src, { quiet := true })
  | .getPowerStatus src _ => some (src, { quiet := true })
  | .getReclaimRequest src _ => some (src, {})
  | .releaseRange src _ => some (src, {})
  | .retireRank src _ => some (src, { manager := true })
  | .getRankStatus src _ => some (src, { manager := true })
  | .bayPowerStatus src _ => some (src, { manager := true })
  | .bayPowerOn src _ => some (src, { manager := true })
  | .bayPowerOff src _ => some (src, { manager := true })
  | .bayPowerClear src _ => some (src, { manager := true })
  | .rejoinDomain src _ => some (src, { manager := true })
  | .getChallenge input => some (input.src, { mctp := true })
  | .unlock src _ => some (src, { mctp := true })
  | .relock input => some (input.src, { mctp := true })
  | .scheduleRegisterWrite src _ => some (src, { manager := true })
  | .readCounters src _ => some (src, { manager := true })
  | .identify src => some (src, { mctp := true })
  | .getHeadInfo src _ => some (src, { mctp := true })
  | .getDcdInfo src => some (src, { mctp := true })
  | .getHostDcRegionConfig src _ => some (src, { mctp := true })
  | .setDcRegionConfig src _ => some (src, { mctp := true })
  | .getDcRegionExtentLists src _ => some (src, { mctp := true })
  | .initiateDcAdd src _ _ => some (src, { mctp := true })
  | .initiateDcRelease src _ _ => some (src, { mctp := true })
  | .getSldQosControl src => some (src, { mctp := true })
  | .setSldQosControl src _ _ _ _ => some (src, { mctp := true })
  | .getSldQosStatus src => some (src, { mctp := true })
  | _ => none

/-- Command `c` from `src` passes its gates at `s`, and `d` is the device that it then acts on. -/
def Accepted (c : Instr) (s : State) (src : Src) (d : Dev) : Prop :=
  ∃ g, gateOf s.dev c = some (src, g) ∧ s.dev.Accepts src g ∧ d = s.dev.heard src g

/-- Wherever command `c` from `src` passes its gates, it completes and leaves exactly what `e` makes of the device that it acts on. -/
def Effect (c : Instr) (src : Src) (e : Dev → Dev) : Prop := ∀ s d, Accepted c s src d → Leaves c s (e d)

/-- An SPDM request on `s` reaches the responder, which answers (R318, R326): its transport is up, the cores run, and the device is not
decommissioned. -/
def Dev.SpdmHeard (d : Dev) (s : Sess) : Prop := d.transportUp s.tr = true ∧ d.coresGone = false ∧ d.lifecycle ≠ 3

/-- The session `s` is open and its handshake is finished (R326). -/
def Dev.InSession (d : Dev) (s : Sess) : Prop := ∃ x, d.session s = some x ∧ x.finished = true

/-! ### Terdy messages (R263, R268, R273) -/

/-- The port, the opcode and the message of each command that is a Terdy message. -/
def terdyOf : Instr → Option (Nat × Nat × Msg)
  | .terdyMemRd p m => some (p, 0x01, m)
  | .terdyMemRdData p m => some (p, 0x02, m)
  | .terdyMemInv p m => some (p, 0x03, m)
  | .terdyMemInvNT p m => some (p, 0x04, m)
  | .terdyMemWr p m => some (p, 0x05, m)
  | .terdyMemWrPtl p m => some (p, 0x06, m)
  | .terdyMemClnEvct p m => some (p, 0x07, m)
  | .terdyMemWrRetried p m => some (p, 0x08, m)
  | .terdyMemWrPtlRetried p m => some (p, 0x09, m)
  | .pageFetch p m => some (p, 0x10, m)
  | .pagePlace p m => some (p, 0x11, m)
  | .pageFree p m => some (p, 0x12, m)
  | .terdyMemData p m => some (p, 0x20, m)
  | .terdyCmp p m => some (p, 0x21, m)
  | .terdyBIRsp p m => some (p, 0x22, m)
  | .terdyBIConflict p m => some (p, 0x23, m)
  | .terdyBIConflictAck p m => some (p, 0x24, m)
  | .writeRetry p m => some (p, 0x25, m)
  | .pageData p m => some (p, 0x28, m)
  | .pageAck p m => some (p, 0x29, m)
  | .terdyBISnpInv p m => some (p, 0x30, m)
  | .terdyBISnpData p m => some (p, 0x31, m)
  | .terdyBISnpCur p m => some (p, 0x32, m)
  | _ => none

/-- The messages that the device still remembers having accepted (R273). -/
def Dev.remembered (d : Dev) : List (Nat × Nat × Nat × Nat × Nat) := d.cas.seen.filter fun x => decide (d.time.loc < x.1 + d.resendWin)

/-- The message was sent again after a failure, and was accepted before it (R273). -/
def Dev.Twice (d : Dev) (op : Nat) (m : Msg) : Prop := m.resent = true ∧ ∃ x ∈ d.remembered, x.2 = (m.src, m.tag, op, m.addr)

/-- Command `c` is a message for this device on a port that is Up, not one accepted before, and `e` is the device that remembers it. -/
def Took (c : Instr) (s : State) (m : Msg) (e : Dev) : Prop :=
  ∃ p op, terdyOf c = some (p, op, m) ∧ s.dev.portUp p = true ∧ m.dest = s.dev.devId ∧ ¬ s.dev.Twice op m ∧
    e = { s.dev with cas := { s.dev.cas with seen := s.dev.remembered ++ [(s.dev.time.loc, m.src, m.tag, op, m.addr)] } }

/-! ### Which commands may change stored data -/

/-- The commands that can change the DRAM, the cistern, the well map or the marks of poisoned granules: requests and what ends them, pumps,
evacuation and scrubbing, resets and priming, key messages that wake the engine, and what activates a configuration. -/
def storesOf : Instr → Bool
  | .coldReset _ | .resetN _ | .perstAssertion _ | .strokeBoundary _ | .activation | .poolOffsetRewrite | .hostLinkDown _ |
    .m2sMemRd _ _ _ _ | .m2sMemRdData _ _ _ | .m2sMemInv _ _ _ _ | .m2sMemInvNT _ _ _ _ | .m2sMemWr _ _ _ _ _ | .m2sMemWrPtl _ _ _ _ _ _ |
    .m2sMemClnEvct _ _ _ | .m2sBIRsp _ _ _ | .readCompletion _ | .inlinePromotionEnd _ | .cisternEviction _ _ | .keepExpiry _ |
    .clearPoisonList _ _ _ | .injectPoison _ _ | .managementWrite _ _ | .sweepStep _ | .heatDecayPass _ | .pumpJobStart _ |
    .decoderAvailable _ _ | .fenceComplete _ | .fenceAbandon _ | .commitPhase _ | .pumpResume _ _ | .setKey _ _ | .retireDomain _ _ |
    .eraseDomain _ _ | .eraseInvalidationDone _ | .getDomainStatus _ _ | .arbiterAdmission _ _ | .transactionAcknowledged _ |
    .dramReadReturn _ _ _ _ | .scrubRead _ _ | .evacuationWalk _ | .evacuationRetry _ | .terdyMemRd _ _ | .terdyMemRdData _ _ |
    .terdyMemInv _ _ | .terdyMemInvNT _ _ | .terdyMemWr _ _ | .terdyMemWrPtl _ _ | .terdyMemClnEvct _ _ | .terdyMemWrRetried _ _ |
    .terdyMemWrPtlRetried _ _ | .terdyBIRsp _ _ | .pageFetch _ _ | .pageData _ _ | .pageAck _ _ | .pageFree _ _ | .remoteTimeout _ |
    .entryStep _ | .pllFailure _ | .resetCrossing _ _ _ | .bayGood _ | .sramPatrol _ _ | .chrotenModuleDown _ _ | .guestMemRd _ _ _ |
    .guestMemRdData _ _ | .guestMemInv _ _ _ | .guestMemInvNT _ _ _ | .guestMemWr _ _ _ _ _ | .guestMemWrPtl _ _ _ _ _ _ |
    .guestMemClnEvct _ _ | .guestBIRsp _ _ | .writeBurst _ _ _ | .clockMonitorWindow _ _ | .pushReply _ _ => true
  | _ => false

/-! ### Invariants -/

/-- Both byte memories are in canonical form: addresses strictly rising, no entry that reads as an unlisted byte does. -/
def OkMem (dram nvm : List Host.Cell) : Prop := Memory.wf dramBlank dram = true ∧ Memory.wf nvmBlank nvm = true

/-- `p` can have come from `o` by burning OTP fields that may be burnt (R316, R318, R320, R321): LIFECYCLE moves only to Decommissioned,
revocations and owner hashes are only added, and everything else is as manufacturing left it. -/
structure OtpKept (o p : Otp) : Prop where
  life : p.lifecycle = o.lifecycle ∨ p.lifecycle = 3
  revoke : o.revoke &&& p.revoke = o.revoke
  owners : o.owners <+: p.owners
  caps0 : p.caps0 = o.caps0
  caps1 : p.caps1 = o.caps1
  serial : p.serial = o.serial
  vendorHash : p.vendorHash = o.vendorHash
  factoryHash : p.factoryHash = o.factoryHash
  certs : p.certs = o.certs
  opVolt : p.opVolt = o.opVolt

end Sys2Proof.Machine
end

