-- ==== Sys2Proof/Certificates/Slice0/Obligations.lean ====
section
/-! DEFINITION. The statements for the provers: what each command of the block does, and what holds of all of them. Each docstring names the
rules that its statement formalises. -/

open Sys2Proof Sys2Proof.Machine

/-- The step of a block: the command at the front of the queue is run on the state with the queue's rest. With an empty queue the first
command that paused while the management cores were away runs once they are back, and with none the block idles (log entries 1 and 80). -/
def Obligations.StepRunsTheFrontCommand : Prop :=
  (∀ (c : Instr) (cs : List Instr) (s : State), s.pending = c :: cs → step s = exec c { s with pending := cs }) ∧
  (∀ (c : Instr) (s : State), step { s with pending := c :: s.pending } = exec c s) ∧
  ∀ s : State, s.pending = [] →
    (s.dev.cores.paused = [] → step s = .next s) ∧ (s.dev.coresGone = true → step s = .next s) ∧
    ∀ c cs, s.dev.cores.paused = c :: cs → s.dev.coresGone = false →
      step s = exec c { s with dev := { s.dev with cores := { s.dev.cores with paused := cs } } }

/-- Every step answers a next state, whatever the commands and the state, and it takes one command off the front of the queue and adds none:
no command faults and none is refused by the model. -/
def Obligations.EveryStepAnswersAndTakesOneCommand : Prop :=
  ∀ s : State, ∃ t, step s = .next t ∧ t.pending = s.pending.tail

/-- R29, R298, R330, R396, R408, R459: the state after cold reset: no command waits, the stroke count and the offset of the timestamp are 0,
the device is unprimed, no event is pending, no debug scope is open, every counter reads 0, nothing is queued, and both memories, with
nothing listed, are in canonical form. -/
def Obligations.StateAfterColdReset : Prop :=
  let d := State.reset.dev
  State.reset.pending = [] ∧ d.time.loc = 0 ∧ d.time.tsOfs = 0 ∧ d.stamp = 0 ∧ d.prim = .unprimed ∧ d.ev.pend = 0 ∧ d.sec.scope = 0#4 ∧
    (∀ n, (d.cnt n).count = 0) ∧ d.acts = [] ∧ d.wmap = [] ∧ d.cfg.txn.st = .idle ∧ d.pwr.st = 0 ∧ d.dram = [] ∧ d.nvm = [] ∧
    OkMem d.dram d.nvm

/-- R165 and R1: the home slice of an exposed page is the exclusive or of its six-bit fields, cut to five bits on a device of 32 home slices,
and memory tile MT(n div 16) holds home slice HSn; the manual's worked example. -/
def Obligations.HomeSliceOfAPage : Prop :=
  (∀ (d : Dev) (p h : Nat), p < 2 ^ 34 →
    h = p % 64 ^^^ p / 2 ^ 6 % 64 ^^^ p / 2 ^ 12 % 64 ^^^ p / 2 ^ 18 % 64 ^^^ p / 2 ^ 24 % 64 ^^^ p / 2 ^ 30 →
    (d.nHs = 64 → d.home p = h) ∧ (d.nHs = 32 → d.home p = h % 32) ∧ d.homeTile p = d.home p / 16) ∧
  ∀ d : Dev, d.home (0x12345000 / 4096) = 26 ∧ d.homeTile (0x12345000 / 4096) = 1

/-- R443: a register access packet that the guest sends to the device is discarded and counted in VIOLATIONS, and nothing else changes. -/
def Obligations.GuestRegisterPacketsAreDiscarded : Prop :=
  ∀ s : State, s.dev.hasGuest = true → Leaves .guestRegisterAccessPacket s
    { s.dev with gst := { s.dev.gst with violations := if s.dev.gst.violations < 65535 then s.dev.gst.violations + 1 else 65535 } }

/-- R72: Device Reset completes with Success and orders a reset for the second boundary after its completion; the boundary at which it is due
resets the device as `RESET_N` does and primes it again, and the boundary before it does not reset. -/
def Obligations.DeviceResetAtTheSecondBoundary : Prop :=
  (∀ (src : Src) (s : State) (d : Dev), Accepted (.deviceReset src []) s src d → d.resetDue = none → Leaves (.deviceReset src []) s
    ({ d with resetDue := some (d.time.loc + 2) }.reply src .success)) ∧
  (∀ (s : State) (t : Nat) (x : Samples), s.dev.resetDue = some t → s.dev.resetHeld = false →
    (t = s.dev.time.loc + 1 → Leaves (.strokeBoundary x) s ((s.dev.tick x.halfNs).resetAndPrime.plantBoundary x)) ∧
    (s.dev.time.loc + 1 < t → ∀ e : Dev, e = (s.dev.tick x.halfNs).stepOne s.dev x → Leaves (.strokeBoundary x) s
      ((((((e.alignBoundary s.dev).cntBoundary s.dev x.signals).bwBoundary s.dev x.bytes e.poolMoves).runActs s.dev).sendFrames).stepsFiveSix
        x.heldBack))) ∧
  (∀ s : State, s.dev.resetHeld = false → s.dev.therm.latched = false → Leaves (.resetN false) s s.dev.resetAndPrime)

/-- R88: the word of a well map entry holds every field of it: an entry whose fields fit is what its word decodes to, the reserved bits of the
word are 0, and a word whose STATE is used and whose reserved bits are 0 is the word of what it decodes to. -/
def Obligations.MapEntryAndItsWordAgree : Prop :=
  (∀ e : MapEntry, e.fits = true → MapEntry.decode e.encode = some e) ∧
  (∀ e : MapEntry, e.encode.extractLsb' 48 24 = 0#24) ∧
  ∀ (w : BitVec 128) (e : MapEntry), MapEntry.decode w = some e → w.extractLsb' 48 24 = 0#24 → e.encode = w ∧ e.fits = true

/-- R29, R38, R366, R459: the stroke count rises by exactly one at every boundary and changes at nothing else but a cold reset and a reset
crossing in which VDD_CT fell below its reset level, which clear it; the offset of the device timestamp changes only by Set Timestamp and
cold reset. It is stated of every command, whatever the state, and of a step without a command. -/
def Obligations.OnlyBoundariesCountStrokes : Prop :=
  (∀ (c : Instr) (s t : State), OkMem s.dev.dram s.dev.nvm → exec c s = .next t →
    ((∀ x, c = .strokeBoundary x → t.dev.time.loc = s.dev.time.loc + 1) ∧
     ((∀ x, c ≠ .strokeBoundary x) → (∀ x, c ≠ .coldReset x) → (∀ r x ct, c ≠ .resetCrossing r x ct) →
        t.dev.time.loc = s.dev.time.loc) ∧
     (∀ r x ct, c = .resetCrossing r x ct → t.dev.time.loc = s.dev.time.loc ∨ t.dev.time.loc = 0) ∧
     (∀ x, c = .coldReset x → t.dev.time.loc = 0 ∧ t.dev.time.tsOfs = 0) ∧
     ((∀ src v, c ≠ .setTimestamp src v) → (∀ x, c ≠ .coldReset x) → t.dev.time.tsOfs = s.dev.time.tsOfs))) ∧
  ∀ s t : State, s.pending = [] → s.dev.cores.paused = [] → step s = .next t → t.dev.time = s.dev.time

/-- The invariant of the byte memories: a step from a state whose DRAM and NVM are in canonical form leads to one whose DRAM and NVM are. -/
def Obligations.MemoryStaysCanonical : Prop :=
  ∀ s t : State, OkMem s.dev.dram s.dev.nvm → step s = .next t → OkMem t.dev.dram t.dev.nvm

/-- R3, R316, R318, R320, R321, R332: the OTP changes only by the four security messages that burn it, which change no field but as that field
may be burnt; every other command leaves it as it is. -/
def Obligations.OtpIsOnlyBurntBySecurityMessages : Prop :=
  ∀ (c : Instr) (s t : State), OkMem s.dev.dram s.dev.nvm → exec c s = .next t →
    OtpKept s.dev.otp t.dev.otp ∧
    ((∀ x r, c ≠ .claimOwnership x r) → (∀ x r, c ≠ .transferOwnership x r) → (∀ x r, c ≠ .revokeVendorKey x r) →
      (∀ x r, c ≠ .decommission x r) → t.dev.otp = s.dev.otp)

/-- R289, R304, R306: the NVM changes only where a Stage, a Validate or a Commit ends its write; every other command leaves every byte of it
as it is. -/
def Obligations.NvmIsOnlyWrittenByTheTransaction : Prop :=
  ∀ (c : Instr) (s t : State), OkMem s.dev.dram s.dev.nvm → exec c s = .next t →
    (∀ b, c ≠ .stageComplete b) → (∀ b, c ≠ .validateComplete b) → (∀ b, c ≠ .commitSlotWritten b) →
    ∀ a, Memory.read nvmBlank t.dev.nvm a = Memory.read nvmBlank s.dev.nvm a

/-- R20, R21, R237: the frame of stored data. Every command but the 73 that `storesOf` names leaves the DRAM, the cistern, the well map and
the marks of poisoned granules as they are: every line of every page reads as it did, and every byte of DRAM too. -/
def Obligations.OnlyNamedCommandsTouchStoredData : Prop :=
  ∀ (c : Instr) (s t : State), storesOf c = false → exec c s = .next t →
    (∀ a, Memory.read dramBlank t.dev.dram a = Memory.read dramBlank s.dev.dram a) ∧ t.dev.dram = s.dev.dram ∧
    t.dev.cist = s.dev.cist ∧ t.dev.wmap = s.dev.wmap ∧ t.dev.poison = s.dev.poison ∧
    ∀ page, t.dev.entry page = s.dev.entry page

/-- R30, R57, R66, R85 and R390: what turns a command of a mailbox or of the CCI away, in this order, and that nothing else changes; while the
management cores are away a command over MCTP waits and is not turned away (log entry 80). R461 and R76: the input of a vendor command has
exactly the stated length. -/
def Obligations.GatesTurnCommandsAway : Prop :=
  (∀ (c : Instr) (s : State) (src : Src) (g : Gate), gateOf s.dev c = some (src, g) → s.dev.srcOk src = true →
    let d := s.dev.heard src g
    (d.coresGone = true → src ≠ .mctp → Leaves c s (d.reply src .busy)) ∧
    (d.coresGone = true → src = .mctp → ∀ e : Dev, e = s.dev.wake 5 0 →
      Leaves c s { e with cores := { e.cores with paused := e.cores.paused ++ [c] } }) ∧
    (d.coresGone = false → d.therm.latched = true → g.latched = false → Leaves c s (d.reply src .busy)) ∧
    (d.coresGone = false → (d.therm.latched = true → g.latched = true) → g.mctp = true → src ≠ .mctp →
      Leaves c s (d.reply src .unsupported)) ∧
    (d.coresGone = false → (d.therm.latched = true → g.latched = true) → (g.mctp = true → src = .mctp) → d.prim ≠ .primed →
      g.unprimed = false → Leaves c s (d.reply src .unsupported 0x0107)) ∧
    (d.coresGone = false → (d.therm.latched = true → g.latched = true) → (g.mctp = true → src = .mctp) →
      (d.prim ≠ .primed → g.unprimed = true) → g.manager = true → d.mgr src = false →
      Leaves c s (d.reply src .invalidInput 0x0108))) ∧
  (∀ (s : State) (src : Src) (p : List Byte) (c : Instr) (n : Nat),
    (c, n) ∈ [(.managementRead src p, 8), (.managementWrite src p, 16), (.deviceReset src p, 0), (.getHarluodIdentity src p, 0),
      (.getReclaimRequest src p, 0), (.releaseRange src p, 24), (.retireRank src p, 8), (.getRankStatus src p, 8),
      (.scheduleRegisterWrite src p, 16), (.thermalResume src p, 0), (.requestRest src p, 8), (.cancelRest src p, 0),
      (.getPowerStatus src p, 0), (.poolCommit src p, 0), (.rejoinDomain src p, 8), (.unlock src p, 137), (.getChallenge ⟨src, p⟩, 1),
      (.relock ⟨src, p⟩, 1), (.bayPowerStatus src p, 8), (.bayPowerOn src p, 8), (.bayPowerOff src p, 8), (.bayPowerClear src p, 8),
      (.revert src p, 9)] →
    p.length ≠ n → p.length ≤ 4096 → ∀ d, Accepted c s src d → Leaves c s (d.reply src .invalidPayloadLength))

/-- R459, R465, R85 and R57: the commands that identify the device and read or set its time. R56, R62, R75 and R85: the commands whose output
CXL 3.1 lays out answer Success with that output, made from the numbers that the manual states (log entry 62), and change nothing. -/
def Obligations.IdentityTimeAndCxlOutputs : Prop :=
  (∀ src : Src,
    (∀ op, Effect (.unsupportedCommand src op) src fun d => d.reply src .unsupported) ∧
    Effect (.getTimestamp src) src (fun d => d.reply src .success 0 (leBytes 8 d.stamp)) ∧
    (∀ ts s d, Accepted (.setTimestamp src ts) s src d → ∃ e : Dev, Leaves (.setTimestamp src ts) s (e.reply src .success) ∧
      e.stamp = ts.toNat ∧ e = { d with time := { d.time with tsOfs := e.time.tsOfs } }) ∧
    Effect (.getHarluodIdentity src []) src (fun d => d.reply src .success 0 (
      leBytes 4 d.caps0.toNat ++ leBytes 4 d.caps1.toNat ++ leBytes 8 d.serial.toNat ++
      leBytes 1 (if d.prim = .primed then d.cfg.primedSlot else 0xFF) ++ leBytes 4 d.cfgVersion ++ leBytes 4 d.cfg.active.secVersion ++
      leBytes 1 d.role ++ leBytes 1 (match src with | .head h => h | .mctp => 0xFF))) ∧
    Effect (.getFwInfo src) src (fun d => d.reply src .success 0 (
      [3#8, BitVec.ofNat 8 (if d.prim = .primed then d.cfg.primedSlot + 1 else 0)] ++ List.replicate 14 0#8 ++
      d.fwRevision 0 ++ d.fwRevision 1 ++ d.fwRevision 2 ++ List.replicate 16 0#8))) ∧
  (∀ src : Src,
    Effect (.identifyMemoryDevice src) src (fun d => d.reply src .success 0 (Config.cxlBytes 10 [d.staticCap src])) ∧
    Effect (.getSupportedLogs src) src (fun d => d.reply src .success 0 (Config.cxlBytes 11 [])) ∧
    (∀ o n, Effect (.getLog src o n) src fun d =>
      if o + n ≤ (Config.cxlBytes 12 []).length then d.reply src .success 0 (sub (Config.cxlBytes 12 []) o n)
      else d.reply src .invalidInput) ∧
    Effect (.getHealthInfo src) src (fun d => d.reply src .success 0
      (Config.cxlBytes 13 [b2n d.anyN, twos 16 (d.hottest.1 / 64), (d.chans.map fun c => c.2.ue).sum])) ∧
    Effect (.getMultiHeadedInfo src) src (fun d => d.reply src .success 0 (Config.cxlBytes 14 [d.nHosts])) ∧
    Effect (.identify src) src (fun d => d.reply src .success 0
      (Config.cxlBytes 20 [0x1E5C, if bits d.caps0.toNat 31 24 = 2 then 0x5121 else 0x5120, d.serial.toNat])) ∧
    Effect (.getDcdInfo src) src (fun d => d.reply src .success 0 (Config.cxlBytes 22 [d.nHosts, 1, d.cfg.capacity, 2 ^ 28])) ∧
    Effect (.getSldQosStatus src) src (fun d => d.reply src .success 0
      (Config.cxlBytes 26 ((List.range d.nHosts).map fun h => (d.head h).loadPct))))

/-- R7 and R75: the FM API commands about one head, and Invalid Input where the head is absent. R80: the SLD QoS thresholds are read as in
force, checked when they are set, and kept for the next boundary. R75: the MCTP control commands and the dynamic address of the I3C
target. -/
def Obligations.FmApiSldQosAndMctpControl : Prop :=
  (∀ (src : Src) (h : Nat) (s : State) (d : Dev) (c : Instr),
    c ∈ [.getHeadInfo src h, .getHostDcRegionConfig src h, .setDcRegionConfig src h, .getDcRegionExtentLists src h] →
    Accepted c s src d →
    (d.nHosts ≤ h → Leaves c s (d.reply src .invalidInput)) ∧
    (h < d.nHosts →
      (c = .getHeadInfo src h →
        Leaves c s (d.reply src .success 0 (Config.cxlBytes 21 [h, (d.head h).rate, (d.head h).width, b2n (d.attached h)]))) ∧
      (c = .getHostDcRegionConfig src h → Leaves c s (d.reply src .success 0
        (Config.cxlBytes 23 [h, if (d.staticOf h).isSome then 0 else d.cfg.capacity, 2 ^ 28]))) ∧
      (c = .setDcRegionConfig src h → Leaves c s (d.reply src .success)) ∧
      (c = .getDcRegionExtentLists src h → Leaves c s (d.reply src .success 0 (Config.cxlBytes 24 (h :: (d.head h).blocks)))))) ∧
  (∀ src : Src,
    Effect (.getSldQosControl src) src (fun d => d.reply src .success 0 (Config.cxlBytes 25
      [d.fld 0x02100010 15 8, d.fld 0x02100010 23 16, d.fld 0x02100010 31 24, d.fld 0x02100010 7 4])) ∧
    ∀ op mo se hy s d, Accepted (.setSldQosControl src op mo se hy) s src d →
      (devloadBad op mo se hy = true ∨ 15 < hy → Leaves (.setSldQosControl src op mo se hy) s (d.reply src .invalidInput)) ∧
      (devloadBad op mo se hy = false → hy ≤ 15 → d.cfg.txn.st ≠ .idle → d.cfg.txn.owner ≠ some src →
        Leaves (.setSldQosControl src op mo se hy) s (d.reply src .busy 0x0104 d.busyOut)) ∧
      (devloadBad op mo se hy = false → hy ≤ 15 → d.cfg.txn.st = .idle ∨ d.cfg.txn.owner = some src →
        Leaves (.setSldQosControl src op mo se hy) s
          ({ d with cfg := { d.cfg with qos := some (op, mo, se, hy) } }.reply src .success))) ∧
  (∀ s : State,
    (∀ a, Leaves (.dynamicAddress a) s { s.dev with mctp := { s.dev.mctp with addr := a } }) ∧
    (s.dev.coresGone = false →
      let d := s.dev.wake 5 0
      (∀ eid, 0 < eid → eid < 255 →
        Leaves (.setEndpointId eid) s ({ d with mctp := { d.mctp with eid := eid } }.emit (.mctpCtl [0, 0, eid, 0]))) ∧
      (∀ eid, eid = 0 ∨ 255 ≤ eid → Leaves (.setEndpointId eid) s (d.emit (.mctpCtl [2]))) ∧
      Leaves .getEndpointId s (d.emit (.mctpCtl [0, d.mctp.eid, 0, 0])) ∧
      Leaves .getMessageTypeSupport s (d.emit (.mctpCtl [0, 5, 0, 5, 6, 7, 8])) ∧
      Leaves .mctpGetVersion s (d.emit (.mctpCtl [0, 1, 0xF1, 0xF3, 0xF1, 0x00]))))

/-- R64 and R65: extents are offered and asked back over the FM API; a host accepts blocks only of what was offered, and releases only blocks
of its view. R56, R250 and R330: the poison commands. -/
def Obligations.DynamicCapacityAndPoison : Prop :=
  ((∀ (src : Src) (h : Nat) (es : List Extent) (s : State) (d : Dev), Accepted (.initiateDcAdd src h es) s src d →
    ((tooManyExtents es = true ∨ d.dcOk h es = false ∨ es.all d.extTag = false) → Leaves (.initiateDcAdd src h es) s (d.reply src .invalidInput)) ∧
    (tooManyExtents es = false → d.dcOk h es = true → es.all d.extTag = true → Leaves (.initiateDcAdd src h es) s
      (((d.setHead h fun x => { x with adds := x.adds ++ es }).emits (es.map fun e => .dcd h true e)).reply src .success))) ∧
  (∀ (src : Src) (h : Nat) (es : List Extent) (s : State) (d : Dev), Accepted (.initiateDcRelease src h es) s src d →
    (tooManyExtents es = true ∨ d.dcOk h es = false → Leaves (.initiateDcRelease src h es) s (d.reply src .invalidInput)) ∧
    (tooManyExtents es = false → d.dcOk h es = true →
      ∃ e : Dev, Leaves (.initiateDcRelease src h es) s ((e.emits (es.map fun x => .dcd h false x)).reply src .success) ∧
        (e.head h).blocks = (d.head h).blocks ∧ (∀ b, b ∈ (e.head h).releases ↔
          b ∈ (d.head h).releases ∨ (b ∈ es.flatMap extBlocks ∧ d.inView h b = true)) ∧ e = { d with heads := e.heads })) ∧
  (∀ (h : Nat) (bs : List Nat) (s : State) (d : Dev), Accepted (.addDcResponse h bs) s (.head h) d →
    ((∃ b ∈ bs, ∀ e ∈ (d.head h).adds, b ∉ extBlocks e) → Leaves (.addDcResponse h bs) s (d.reply (.head h) .invalidInput)) ∧
    ((∀ b ∈ bs, ∃ e ∈ (d.head h).adds, b ∈ extBlocks e) → ∃ e : Dev, Leaves (.addDcResponse h bs) s (e.reply (.head h) .success) ∧
      (∀ b, b ∈ (e.head h).blocks ↔ b ∈ (d.head h).blocks ∨ b ∈ bs) ∧ e = { d with heads := e.heads })) ∧
  (∀ (h : Nat) (bs : List Nat) (s : State) (d : Dev), Accepted (.releaseDc h bs) s (.head h) d →
    ((∃ b ∈ bs, b ∉ (d.head h).blocks) → Leaves (.releaseDc h bs) s (d.reply (.head h) .invalidInput)) ∧
    ((∀ b ∈ bs, b ∈ (d.head h).blocks) → ∃ e : Dev, Leaves (.releaseDc h bs) s (e.reply (.head h) .success) ∧
      (∀ b, b ∈ (e.head h).blocks ↔ b ∈ (d.head h).blocks ∧ b ∉ bs) ∧ e = { d with heads := e.heads }))) ∧
  (∀ src : Src,
    (∀ start n, Effect (.getPoisonList src start n) src fun d =>
      let xs := (d.poisonRanges.filterMap fun x => (d.seenAddr src x.1).map fun a => (a, x.2)).filter fun x =>
        rangesMeet x.1 (x.2 * 64) start (n * 64)
      d.reply src .success 0 (List.replicate 10 0#8 ++ leBytes 2 xs.length ++ List.replicate 20 0#8 ++
        xs.flatMap fun x => leBytes 8 x.1 ++ leBytes 4 x.2 ++ List.replicate 4 0#8)) ∧
    (∀ dpa s d, Accepted (.injectPoison src dpa) s src d → d.sec.scope.getLsbD 1 = false →
      Leaves (.injectPoison src dpa) s (d.reply src .unsupported 0x0109)) ∧
    (∀ dpa a s d, Accepted (.injectPoison src dpa) s src d → d.sec.scope.getLsbD 1 = true → dpa % 64 = 0 → d.srcAddr src dpa = some a →
      Leaves (.injectPoison src dpa) s ((d.loseLine (a / 64)).reply src .success)) ∧
    (∀ dpa data s d, Accepted (.clearPoisonList src dpa data) s src d → d.srcAddr src dpa = none ∨ dpa % 64 ≠ 0 →
      Leaves (.clearPoisonList src dpa data) s (d.reply src .invalidPhysicalAddress)) ∧
    (∀ dpa a data s d, Accepted (.clearPoisonList src dpa data) s src d → d.srcAddr src dpa = some a → dpa % 64 = 0 →
      ∃ q : Req, q.line = a / 64 ∧ Leaves (.clearPoisonList src dpa data) s
        ((d.serveWrite q (BitVec.allOnes 64) data true { kind := 0, tile := 0 }).reply src .success)))

/-- R10, R11, R71, R404 and R442: a Management Read answers the value of the register, of a word of the ledger, or zeros; it is refused for a
bad address or width, and a read of the guest window goes to the guest. R71 and R310: a Management Write that changes a configuration
field goes into the overlay of the sender's open transaction, is refused without one, and changes no configuration field in force. -/
def Obligations.ManagementReadsAndWrites : Prop :=
  (∀ (src : Src) (p : List Byte) (s : State) (d : Dev), Accepted (.managementRead src p) s src d → p.length = 8 →
    zeros (sub p 5 3) = true →
    let a := fieldAt p 0 4
    let w := fieldAt p 4 1
    (d.accessError a w = true → Leaves (.managementRead src p) s (d.reply src .invalidInput 0x0101)) ∧
    (d.accessError a w = false → inGuest a = true → d.hasGuest = true →
      Leaves (.managementRead src p) s (d.guestAccess src false (a % 0x1000000) w 0)) ∧
    (d.accessError a w = false → (inGuest a = true → d.hasGuest = false) → inLedger a = true →
      Leaves (.managementRead src p) s (d.reply src .success 0 (leBytes 8 (d.led.written.word (a - 0x00800000) w)))) ∧
    (d.accessError a w = false → (inGuest a = true → d.hasGuest = false) → inLedger a = false → d.regVal a = none →
      ∃ e : Dev, Leaves (.managementRead src p) s (e.reply src .success 0 (List.replicate 8 0#8)) ∧ e = { d with sup := e.sup, bws := e.bws }) ∧
    (∀ n v, d.accessError a w = false → (inGuest a = true → d.hasGuest = false) → inLedger a = false → d.regVal a = some (n, v) →
      ∃ e : Dev, Leaves (.managementRead src p) s (e.reply src .success 0 (leBytes 8 v)) ∧ e = { d with sup := e.sup, bws := e.bws })) ∧
  (∀ (src : Src) (p : List Byte) (s : State) (d : Dev), Accepted (.managementWrite src p) s src d → p.length = 16 →
    zeros (sub p 5 3) = true → fieldAt p 4 1 = 4 → zeros (sub p 12 4) = true →
    let a := fieldAt p 0 4
    let v := BitVec.ofNat 32 (fieldAt p 8 4)
    (d.accessError a 4 = true → Leaves (.managementWrite src p) s (d.reply src .invalidInput 0x0101)) ∧
    (d.accessError a 4 = false → (inGuest a = true → d.hasGuest = false) → d.regVal a = none → Leaves (.managementWrite src p) s (d.reply src .success)) ∧
    (d.accessError a 4 = false → (inGuest a = true → d.hasGuest = false) → (∃ x, d.regVal a = some (4, x)) → inPert a = false →
      d.changesRwt a v = true →
      (d.cfg.txn.st = .idle → Leaves (.managementWrite src p) s (d.reply src .invalidInput 0x0102)) ∧
      (d.cfg.txn.st ≠ .idle → d.cfg.txn.owner ≠ some src → Leaves (.managementWrite src p) s (d.reply src .invalidInput 0x0103)) ∧
      (d.cfg.txn.st = .opened → d.cfg.txn.owner = some src → closedReg a = true ∨ d.changedInRange a v = false →
        Leaves (.managementWrite src p) s (d.reply src .invalidInput)) ∧
      (d.cfg.txn.st = .opened → d.cfg.txn.owner = some src → closedReg a = false → d.changedInRange a v = true →
        ∃ r, Leaves (.managementWrite src p) s
          (((d.setTxn fun t => { t with overlay := Tbl.put t.overlay a (d.rwtOf a, v &&& d.rwtOf a) }).sideWrite a v.toNat).1.reply src r))))

/-- R71 to R74: the device reset ordered for the second boundary, the register write queued for a stroke, and the abort of a background
command. -/
def Obligations.ResetScheduleAndAbort : Prop :=
  ∀ src : Src,
    Effect (.deviceReset src []) src (fun d => { d with resetDue := some (d.resetDue.getD (d.time.loc + 2)) }.reply src .success) ∧
    (∀ s d, Accepted (.requestAbort src) s src d → (∀ b ∈ d.cfg.bg, b.src ≠ src) →
      Leaves (.requestAbort src) s (d.reply src .success 0x0106)) ∧
    (∀ s d b, Accepted (.requestAbort src) s src d → d.cfg.bg = [b] → b.src = src → (∀ n, b.kind ≠ .bayOff n) →
      Leaves (.requestAbort src) s (d.askAbort b src)) ∧
    (∀ p s d, Accepted (.scheduleRegisterWrite src p) s src d → p.length = 16 → d.accessError (fieldAt p 0 4) 4 = true →
      Leaves (.scheduleRegisterWrite src p) s (d.reply src .invalidInput 0x0101)) ∧
    (∀ p s d e, Accepted (.scheduleRegisterWrite src p) s src d → p.length = 16 → d.accessError (fieldAt p 0 4) 4 = false →
      closedReg (fieldAt p 0 4) = false → valueOk (fieldAt p 0 4) (BitVec.ofNat 32 (fieldAt p 4 4)) = true →
      d.queueAct (d.wanted (fieldAt p 8 8)) (if fieldAt p 0 4 = 0x610 then 2 else 4)
        (.regWrite src (fieldAt p 0 4) (BitVec.ofNat 32 (fieldAt p 4 4))) = .ok e →
      Leaves (.scheduleRegisterWrite src p) s (e.reply src .success 0 (leBytes 8 (d.wanted (fieldAt p 8 8)))))

/-- R116, R117 and R249: reclaim requests, ranges that a host releases, and ranks that are retired by command. -/
def Obligations.ReclaimAndRetireCommands : Prop :=
  (∀ (src : Src) (s : State) (d : Dev), Accepted (.getReclaimRequest src []) s src d →
    ∃ n lv want pages, Leaves (.getReclaimRequest src []) s
      (d.reply src .success 0 (leBytes 4 n ++ leBytes 1 lv ++ leBytes 3 0 ++ leBytes 8 want ++ leBytes 8 pages)) ∧
      (∀ h, src = .head h → n = (d.head h).reclaimNum ∧ lv = d.reclaimLevel h ∧
        pages = (d.wmap.filter fun x => x.2.st != .unbacked && d.inView h (x.1 / 65536)).length)) ∧
  (∀ (h : Nat) (p : List Byte) (s : State) (d : Dev), Accepted (.releaseRange (.head h) p) s (.head h) d → p.length = 24 →
    zeros (sub p 16 8) = true →
    let lo := d.headDpaBase h + fieldAt p 0 8
    let n := fieldAt p 8 8
    (fieldAt p 0 8 % 4096 ≠ 0 ∨ n % 4096 ≠ 0 ∨ n = 0 → Leaves (.releaseRange (.head h) p) s (d.reply (.head h) .invalidInput)) ∧
    (fieldAt p 0 8 % 4096 = 0 → n % 4096 = 0 → 0 < n → (∀ b, lo / 2 ^ 28 ≤ b → b ≤ (lo + n - 1) / 2 ^ 28 → d.inView h b = true) →
      d.bgRuns (.head h) = false → Leaves (.releaseRange (.head h) p) s
        (d.startBg (.head h) (.release (lo / 4096) ((lo + n) / 4096) (lo / 4096) 0)))) ∧
  (∀ (src : Src) (s : State) (b : Bg) (lo hi nx fr : Nat), s.dev.cfg.bg = [b] → b.src = src → b.result = none →
    b.kind = .release lo hi nx fr →
    (hi ≤ nx → Leaves (.releaseRangeComplete src) s (s.dev.finishBg b .success 0 (leBytes 8 fr))) ∧
    (nx < hi → Leaves (.releaseRangeComplete src) s s.dev)) ∧
  (∀ (src : Src) (p : List Byte) (s : State) (d : Dev) (c r : Nat), Accepted (.retireRank src p) s src d → p.length = 8 →
    zeros (sub p 3 5) = true → d.rankIn p = some (c, r) → rankUp (d.rank c r).st = true → d.bgRuns src = false →
    d.kindCount (d.rankRef c r) [1, 2, 3, 4, 5] ≤ d.spareFree (c / 8) + ((tileList d).map d.free_).sum →
    Leaves (.retireRank src p) s ((d.retireNow c r 6 true).startBg src (.retire c r))) ∧
  (∀ (src : Src) (p : List Byte) (s : State) (d : Dev) (c r : Nat), Accepted (.getRankStatus src p) s src d → p.length = 8 →
    zeros (sub p 3 5) = true → d.rankIn p = some (c, r) →
    ∃ out, Leaves (.getRankStatus src p) s (d.reply src .success 0 (leBytes 1 (d.rank c r).st.num ++ out)) ∧ out.length = 31)

/-- R369, R370, R371, R375 and R376: a module is seated or pulled, and a queued bay ramps. A bay that was off and is switched on by the
configuration waits in the queue; no bay ramps during a brace or while the device is latched off. -/
def Obligations.BaysSeatedPulledAndRamped : Prop :=
  ∀ (s : State) (n : Nat), n < s.dev.nBays →
    let b := s.dev.bay n
    (∀ m, b.st = .empty ∨ b.st = .off → b.pres0 = false → s.dev.fld 0x700 15 15 = 0 → (∀ l, s.dev.prim ≠ .priming l) →
      Leaves (.bayInsertion n 0 m) s (s.dev.setBay n fun b => { b with pres0 := true, dimm0 := some m, st := .off })) ∧
    (∀ m, b.st = .empty ∨ b.st = .off → b.pres1 = false → s.dev.fld 0x700 15 15 = 1 → Does (.bayInsertion n 1 m) s fun e =>
      (e.bay n).st = .queued ∧ (e.bay n).pres1 = true ∧ (e.bay n).dimm1 = some m ∧ (e.bay n).order = s.dev.time.loc) ∧
    (∀ m, b.st = .latched ∨ b.st = .retry → b.pres0 = false → Does (.bayInsertion n 0 m) s fun e =>
      e.Pending 205 ∧ e.Agrees (s.dev.setBay n fun b => { b with pres0 := true, dimm0 := some m, reinsert := true })) ∧
    (b.st = .off ∨ b.st = .queued → b.pres0 = true → b.pres1 = false →
      ∃ x : Bay, Leaves (.bayRemoval n 0) s (s.dev.setBay n fun _ => x) ∧ x.st = .empty ∧ x.pres0 = false ∧ x.dimm0 = none) ∧
    (b.st = .good ∨ b.st = .ramping ∨ b.st = .limiting → b.pres1 = true → b.causeAt ≠ s.dev.time.loc + 1 →
      Does (.bayRemoval n 1) s fun e => ∃ x : Bay, e.Agrees ((s.dev.bayRanksOff n).setBay n fun _ => x) ∧ e.Pending 204 ∧
        x.st = (if b.pres0 then .off else .empty) ∧ x.cause = 6 ∧ x.pulls = satInc 255 b.pulls ∧ x.pres1 = false) ∧
    (s.dev.nextRamp = some n → ((List.range s.dev.nBays).filter fun k => (s.dev.bay k).st == .ramping).length < s.dev.fld 0x700 31 28 →
      s.dev.sup.brace = false → s.dev.therm.latched = false → s.dev.prim ≠ .unprimed → b.order < s.dev.time.loc →
      Leaves (.bayRampStart n) s (s.dev.setBay n fun b => { b with st := .ramping, fromGood := false, rampAt := s.dev.time.loc })) ∧
    (s.dev.sup.brace = true ∨ s.dev.therm.latched = true ∨ s.dev.time.loc ≤ b.order → Leaves (.bayRampStart n) s s.dev) ∧
    (b.st = .ramping → Does (.bayGood n) s fun e => e.Pending 200 ∧ ((e.bay n).st = .good ∨ (e.bay n).st = .down))

/-- R373 and R374: a current limit starts the fault timer, its end or a fast trip switches the bay off and counts a retry, and the retry timer
leads to a fresh debounce; a bay out of retries latches. R372 and R377: a ramp that takes too long, a gate that is not good and a shorted
transistor latch the bay: its ranks are off, the cause is recorded, the count of damaged bays rises and the event is raised. -/
def Obligations.BayFaultsRetriesAndLatches : Prop :=
  (∀ (s : State) (n : Nat), n < s.dev.nBays →
    let b := s.dev.bay n
    let now := s.dev.time.loc
    (b.st = .ramping ∨ b.st = .good → Leaves (.currentLimit n) s (s.dev.setBay n fun b =>
      { b with st := .limiting, fromGood := b.st == .good, limAt := now, timerOn := true,
               timerEnd := now + s.dev.bayCtl n 24 19 * 1000 })) ∧
    (b.st = .limiting → now < b.timerEnd → b.fromGood = true →
      Leaves (.currentLimitCleared n) s (s.dev.setBay n fun b => { b with st := .good, goodAt := now, timerOn := false, timerEnd := 0 })) ∧
    (b.st = .limiting → now < b.timerEnd → b.fromGood = false →
      Leaves (.currentLimitCleared n) s (s.dev.setBay n fun b =>
        { b with st := .ramping, rampAt := b.rampAt + (now - b.limAt), timerOn := false, timerEnd := 0 })) ∧
    (∀ c, (c = .faultTimerExpiry n ∧ b.st = .limiting ∧ b.timerEnd ≤ now) ∨
          (c = .fastTrip n ∧ (b.st = .ramping ∨ b.st = .good ∨ b.st = .limiting)) →
      Does c s fun e => ∃ x : Bay, e.Agrees ((s.dev.bayRanksOff n).setBay n fun _ => x) ∧ e.Pending 201 ∧
        x.retries = satInc 16 b.retries ∧
        (c = .faultTimerExpiry n → x.limitCnt = satInc 255 b.limitCnt ∧ x.trip = b.trip) ∧
        (c = .fastTrip n → x.trip = satInc 255 b.trip ∧ x.limitCnt = b.limitCnt) ∧
        (s.dev.bayCtl n 11 8 < x.retries ∨ s.dev.bayCtl n 18 12 = 0 → x.st = .latched ∧ e.Pending 202) ∧
        (x.retries ≤ s.dev.bayCtl n 11 8 → s.dev.bayCtl n 18 12 ≠ 0 →
          x.st = .retry ∧ x.timerEnd = now + s.dev.bayCtl n 18 12 * 100000)) ∧
    (b.st = .retry → b.timerEnd ≤ now → b.vacant = false → ∃ x : Bay, Leaves (.retryTimerExpiry n) s (s.dev.setBay n fun _ => x) ∧
      x.st = .off ∧ x.debounce = some (now + s.dev.fld 0x700 27 20 * 10000) ∧ x.retries = b.retries) ∧
    (b.st = .retry → b.timerEnd ≤ now → b.vacant = true → ∃ x : Bay, Leaves (.retryTimerExpiry n) s (s.dev.setBay n fun _ => x) ∧
      x.st = .empty ∧ x.retries = 0) ∧
    (b.st = .good → b.goodAt + 2 ^ 20 ≤ now → Leaves (.retriesClear n) s (s.dev.setBay n fun b => { b with retries := 0 })) ∧
    (b.st = .good → now < b.goodAt + 2 ^ 20 → Leaves (.retriesClear n) s s.dev)) ∧
  (∀ (s : State) (n : Nat), n < s.dev.nBays → (s.dev.bay n).causeAt ≠ s.dev.time.loc + 1 →
    ∀ c ev cause, (c = .rampLimitExpiry n ∧ (s.dev.bay n).st = .ramping ∧ (s.dev.bay n).rampAt + s.dev.rampLimit n ≤ s.dev.time.loc ∧
          ev = 203 ∧ cause = 4) ∨
        (c = .gateNotGood n ∧ (s.dev.bay n).st = .good ∧ ev = 203 ∧ cause = 4) ∨
        (c = .shortedTransistor n ∧ ((s.dev.bay n).st = .off ∨ (s.dev.bay n).st = .queued ∨ (s.dev.bay n).st = .retry) ∧
          ev = 3 ∧ cause = 5) →
      Does c s fun e => ∃ x : Bay, e.Agrees ((s.dev.bayRanksOff n).setBay n fun _ => x) ∧ e.Pending ev ∧ x.st = .latched ∧
        x.cause = cause ∧ x.damaged = satInc 255 (s.dev.bay n).damaged)

/-- R376 and R379: powering down, and the four Bay Power commands; a bay that is absent gives Invalid Input (R7). -/
def Obligations.BayPowerCommands : Prop :=
  (∀ (s : State) (n : Nat), n < s.dev.nBays → (s.dev.bay n).st = .down →
    ((s.dev.bay n).downAt + 5000 ≤ s.dev.time.loc → Leaves (.powerDownGateDelay n) s (s.dev.setBay n fun b => { b with gateLow := true })) ∧
    (s.dev.time.loc < (s.dev.bay n).downAt + 5000 → Leaves (.powerDownGateDelay n) s s.dev) ∧
    ((s.dev.bay n).gateLow = true → Does (.bayOutputLow n) s fun e => e.Pending 206 ∧
      (e.bay n).st = (if (s.dev.bay n).vacant then .empty else .off) ∧ (e.bay n).gateLow = false)) ∧
  (∀ (src : Src) (p : List Byte) (n : Nat) (s : State) (d : Dev) (c : Instr),
    c ∈ [.bayPowerStatus src p, .bayPowerOn src p, .bayPowerOff src p, .bayPowerClear src p] → Accepted c s src d →
    p.length = 8 → zeros (sub p 2 6) = true → n = fieldAt p 0 1 →
    (d.nBays ≤ n → Leaves c s (d.reply src .invalidInput)) ∧
    (n < d.nBays →
      (c = .bayPowerStatus src p → Leaves c s (d.reply src .success 0 (d.bayOut n))) ∧
      (c = .bayPowerOn src p → (d.bay n).st = .off → Leaves c s ((d.queueBay n).reply src .success 0 ((d.queueBay n).bayOut n))) ∧
      (c = .bayPowerOn src p → (d.bay n).st = .latched ∨ (d.bay n).st = .retry ∨ (d.bay n).st = .empty →
        Leaves c s (d.reply src .invalidInput)) ∧
      (c = .bayPowerOff src p → d.bayClear n = false → Leaves c s (d.reply src .invalidInput)) ∧
      (c = .bayPowerOff src p → d.bayClear n = true → (d.bay n).st = .good → d.bgRuns src = false → Leaves c s
        ((d.powerDown n).startBg src (.bayOff n))) ∧
      (c = .bayPowerClear src p → (d.bay n).st = .latched → ∃ x : Bay, x.st = .off ∧ x.retries = 0 ∧ x.reinsert = false ∧
        Leaves c s ((d.setBay n fun _ => x).reply src .success 0 ((d.setBay n fun _ => x).bayOut n))) ∧
      (c = .bayPowerClear src p → (d.bay n).st ≠ .latched → Leaves c s (d.reply src .invalidInput))))

/-- R46, R380, R381, R386 and R390: temperature samples are taken, enforcement starts when throttling has lasted THROTTLE_DELAY strokes, and
Thermal Resume is refused unless the device is latched off and its hottest tile is below 90 °C. -/
def Obligations.ThermalCommands : Prop :=
  (∀ (s : State) (t : Nat) (raw : Int), s.dev.tilePresent t = true → s.dev.pool % 16 = t →
    (s.dev.stillRuns 4 (tileSlice t) = false → Leaves (.tileSensorSample t raw) s (s.dev.setSens t fun x => { x with fresh := some raw })) ∧
    (s.dev.stillRuns 4 (tileSlice t) = true → Leaves (.tileSensorSample t raw) s (s.dev.skipDue 4 (tileSlice t)))) ∧
  (∀ (s : State) (t : Nat) (raw : Int), s.dev.tilePresent t = false ∨ s.dev.pool % 16 ≠ t → Leaves (.tileSensorSample t raw) s s.dev) ∧
  (∀ (s : State) (ch : Nat) (rs : List (List (Option Int))), ch < s.dev.nChans → s.dev.pool % 16 = 8 →
    Does (.dimmTemperatureRead ch rs) s fun e => ∀ i < 2, (s.dev.slotDimm ch i).isSome = true →
      (e.chan ch).modTemp i = ((s.dev.chan ch).modTemp i).take s.dev.time.loc (rs.getD i [])) ∧
  (∀ s : State, s.dev.therm.throttle = true → s.dev.therm.enforced = false → s.dev.therm.startAt + s.dev.fld 0xA00 15 0 ≤ s.dev.time.loc →
    Does .enforcementStart s fun e => e.Pending 212 ∧ e.Agrees { s.dev with therm := { s.dev.therm with enforced := true } }) ∧
  (∀ s : State, s.dev.therm.throttle = false ∨ s.dev.time.loc < s.dev.therm.startAt + s.dev.fld 0xA00 15 0 →
    Leaves .enforcementStart s s.dev) ∧
  (∀ src : Src, Effect (.thermalResume src []) src fun d =>
    if d.therm.latched = false then d.reply src .invalidInput
    else if 90 * 64 ≤ d.hottest.1 then d.reply src .retryRequired 0x0105 (leBytes 2 (256 * d.hottest.2))
    else { d with resetDue := some (d.time.loc + 2) }.reply src .success 0
      (leBytes 2 (twos 16 d.hottest.1) ++ [BitVec.ofNat 8 d.hottest.2, 0#8]))

/-- R396, R397 and R399: a write of ones clears pending bits and nothing else of them, the fault pin is released 1 µs after the last N bit
cleared, and the records of a sender's own logs are read and cleared. -/
def Obligations.EventBitsPinsAndLogs : Prop :=
  (∀ (src : Src) (w : Nat) (mask : BitVec 32) (s : State), s.dev.regOk src = true → w < 8 →
    ∃ e : Dev, Leaves (.eventPendingClear src w mask) s e ∧ e = { s.dev with ev := e.ev } ∧
      (∀ i, e.ev.pend.getLsbD i = (s.dev.ev.pend.getLsbD i && !(i / 32 == w && mask.getLsbD (i % 32)))) ∧
      e.ev.logs = s.dev.ev.logs ∧ e.ev.faultPin = s.dev.ev.faultPin ∧
      (s.dev.anyN = true → e.anyN = false → e.ev.faultClear = s.dev.time.loc)) ∧
  (∀ s : State, (s.dev.ev.faultPin = true ∧ s.dev.anyN = false ∧ s.dev.ev.faultClear + 1 ≤ s.dev.time.loc →
      Leaves .faultNRelease s { s.dev with ev := { s.dev.ev with faultPin := false } }) ∧
    (s.dev.anyN = true ∨ s.dev.time.loc < s.dev.ev.faultClear + 1 → Leaves .faultNRelease s s.dev)) ∧
  (∀ (src : Src) (n : Nat) (l : LogId), logOf n = some l →
    Effect (.getEventRecords src n) src (fun d =>
      let g := d.log (logKey (srcDest src) l)
      let rs := g.recs.take (if src = .mctp then 31 else g.recs.length)
      d.reply src .success 0 (leBytes 1 (b2n g.overflow + if rs.length < g.recs.length then 2 else 0) ++ [0#8] ++ leBytes 2 g.count ++
        leBytes 8 g.firstTs ++ leBytes 8 g.lastTs ++ leBytes 2 rs.length ++ List.replicate 10 0#8 ++ (rs.map (EvRec.bytes l)).flatten)) ∧
    (∀ hs s d, Accepted (.clearEventRecords src n false hs) s src d →
      (∃ h ∈ hs, ∀ r ∈ (d.log (logKey (srcDest src) l)).recs, r.handle ≠ h) →
      Leaves (.clearEventRecords src n false hs) s (d.reply src .invalidHandle)) ∧
    (∀ hs s d, Accepted (.clearEventRecords src n true hs) s src d → ∃ e : Dev,
      Leaves (.clearEventRecords src n true hs) s (e.reply src .success) ∧ (e.log (logKey (srcDest src) l)).recs = [] ∧
      e = { d with ev := { d.ev with logs := e.ev.logs } })) ∧
  (∀ (h : Nat) (v : BitVec 32), Effect (.setEventInterruptPolicy (.head h) v) (.head h) fun d =>
    (d.setHead h fun x => { x with policy := v }).reply (.head h) .success)

/-- R405, R409, R410 and R412: counters are reprogrammed, their overflow is cleared, they wrap at 2^48 with EV240, and Read Counters answers
the counters that it names, each with the pool stroke count at its start and end. -/
def Obligations.CountersProgrammedReadAndWrapped : Prop :=
  (∀ (src : Src) (n : Nat) (v : BitVec 32) (s : State), s.dev.regOk src = true → n < 1024 →
    (v.getLsbD 28 = false → Leaves (.counterReprogram src n v) s (s.dev.setCnt n fun c => { c with want := some (cntValue n v) })) ∧
    Leaves (.counterOvfClear src n) s (s.dev.setCnt n fun c => { c with ovf := false })) ∧
  (∀ (n inc : Nat) (s : State), n < 1024 → (s.dev.cnt n).mode ≠ 0 → s.dev.cntBad n = false →
    s.dev.cntRuns n = true → ((s.dev.cnt n).mode = 1 → (s.dev.cntSource n).1 ≠ 0) → 2 ^ 48 ≤ (s.dev.cnt n).count + inc →
    Does (.counterWrap n inc) s fun e => e.Pending 240 ∧ (e.cnt n).count = ((s.dev.cnt n).count + inc) % 2 ^ 48 ∧ (e.cnt n).ovf = true) ∧
  (∀ (src : Src) (p : List Byte) (s : State) (d : Dev), Accepted (.readCounters src p) s src d → 1 ≤ fieldAt p 0 2 → fieldAt p 0 2 ≤ 256 →
    p.length = 8 + 2 * fieldAt p 0 2 → zeros (sub p 2 6) = true →
    let ns := (List.range (fieldAt p 0 2)).map fun i => fieldAt p (8 + 2 * i) 2
    ((∃ n ∈ ns, 1023 < n) → Leaves (.readCounters src p) s (d.reply src .invalidInput)) ∧
    ((∀ n ∈ ns, n ≤ 1023) → Leaves (.readCounters src p) s
      (d.reply src .success 0 (leBytes 8 d.pool ++ leBytes 8 d.pool ++ (ns.map fun n => leBytes 8 (d.cntRead n)).flatten))))

/-- R46 and R414 to R418: bandwidth windows are configured and closed, and perturbation slots are armed, stopped and expire. -/
def Obligations.BandwidthAndPerturbation : Prop :=
  (∀ (src : Src) (n : Nat) (v : BitVec 32) (s : State), s.dev.regOk src = true → n < 64 →
    Leaves (.bandwidthWindowConfig src n v) s (s.dev.setBw n fun b =>
      { b with want := some (min 20 (bits v.toNat 31 27)), missed := if v.getLsbD 8 then 0 else b.missed })) ∧
  (∀ (n : Nat) (s : State), s.dev.bwPresent n = true → s.dev.pool % 2 ^ (s.dev.bw n).k = 0 →
    (s.dev.bw n).doneAt ≠ s.dev.time.loc + 1 → s.dev.stillRuns 5 (bwSlice n) = false → Does (.bandwidthWindowClose n) s fun e => ∃ b : Bw, e.Agrees (s.dev.setBw n fun _ => b) ∧
      b.seq = ((s.dev.bw n).seq + 1) % 65536 ∧ b.acc0 = 0 ∧ b.acc1 = 0 ∧ b.missed = min 255 ((s.dev.bw n).missed + (s.dev.bw n).unread) ∧
      ((s.dev.bw n).toggle = false → b.r00 = (b.seq, (s.dev.bw n).partialWin, (s.dev.bw n).acc0 % 2 ^ 47, false) ∧
        b.r01 = (s.dev.bw n).r01) ∧
      (0 < (s.dev.bw n).unread → e.Pending 243)) ∧
  (∀ (n : Nat) (s : State), s.dev.bwPresent n = false ∨ s.dev.pool % 2 ^ (s.dev.bw n).k ≠ 0 → Leaves (.bandwidthWindowClose n) s s.dev) ∧
  (∀ (src : Src) (p : Nat) (s : State), s.dev.regOk src = true → s.dev.sec.scope.getLsbD 0 = true → p < 8 →
    (∀ e, pertTakes (s.dev.pert p).kind (s.dev.pert p).target = true → s.dev.slicePresent (s.dev.pert p).target = true →
      pertMagOk (s.dev.pert p).kind (s.dev.pert p).mag = true → (s.dev.pert p).dur ≠ 0 → (s.dev.pert p).st = 0 →
      s.dev.queueAct (s.dev.pertStart p) 3 (.pert p) = .ok e →
      Leaves (.perturbationGo src p) s ((e.setPert p fun x => { x with st := 1 }).reply src .success)) ∧
    ((s.dev.pert p).st ≠ 0 → Leaves (.perturbationGo src p) s (s.dev.reply src .invalidInput) ∧
      Leaves (.perturbationStop src p) s (s.dev.setPert p fun x => { x with stop := true }))) ∧
  (∀ (src : Src) (p : Nat) (s : State), s.dev.coresGone = false → s.dev.sec.scope.getLsbD 0 = false →
    Leaves (.perturbationGo src p) s s.dev ∧ Leaves (.perturbationStop src p) s s.dev) ∧
  (∀ (p : Nat) (s : State), p < 8 → (s.dev.pert p).st = 2 → (s.dev.pert p).endAt ≤ s.dev.pool →
    Does (.perturbationExpiry p) s fun e => e.Pending 242 ∧ (e.pert p).st = 0 ∧ (∀ a ∈ e.acts, a.kind ≠ .pert p) ∧
      e.Agrees { s.dev.setPert p fun x => { x with st := 0, stop := false } with acts := e.acts })

/-- R303, R304 and R308: a transaction is begun by one owner at a time, image bytes are staged behind it, and it is rolled back. A command of
another sender, or without a transaction, changes nothing. R289 and R304: a Stage ends once its bytes are in the staging area, every byte
of the NVM outside the staged range reads as before, and while the NVM may not be written the Stage waits. -/
def Obligations.TransactionBegunStagedRolledBack : Prop :=
  (∀ (src : Src) (p : List Byte) (s : State) (d : Dev),
    (Accepted (.beginTxn src p) s src d → p.length = 8 → fieldAt p 0 1 < 2 → zeros (sub p 1 3) = true →
      (d.cfg.txn.st ≠ .idle ∨ d.cfg.toSlot.isSome = true ∨ d.cfg.root.phase ≠ 0 →
        Leaves (.beginTxn src p) s (d.reply src .busy 0x0104 d.busyOut)) ∧
      (d.cfg.txn.st = .idle → d.cfg.toSlot = none → d.cfg.root.phase = 0 → fieldAt p 4 4 ≠ 0 → fieldAt p 4 4 ≠ d.cfgVersion →
        Leaves (.beginTxn src p) s (d.reply src .invalidInput)) ∧
      (d.cfg.txn.st = .idle → d.cfg.toSlot = none → d.cfg.root.phase = 0 → fieldAt p 4 4 = 0 ∨ fieldAt p 4 4 = d.cfgVersion →
        let n := (d.cfg.txn.num + 1) % 2 ^ 32
        Leaves (.beginTxn src p) s
          ({ d with cfg := { d.cfg with txn := { st := .opened, owner := some src, num := n, pool := fieldAt p 0 1 == 1,
                                                 lastCmd := d.time.loc } } }.reply src .success 0 (leBytes 4 n)))) ∧
    (∀ c, c ∈ [.stage src p, .validate src p, .commit src p] → Accepted c s src d →
      (d.cfg.txn.st = .idle → Leaves c s (d.reply src .invalidInput 0x0102)) ∧
      (d.cfg.txn.st ≠ .idle → d.cfg.txn.owner ≠ some src → Leaves c s (d.reply src .invalidInput 0x0103))) ∧
    (Accepted (.stage src p) s src d → 8 ≤ p.length → p.length ≤ 65536 → (src = .mctp → p.length ≤ 4096) → zeros (sub p 4 4) = true → d.cfg.txn.owner = some src →
      d.cfg.txn.st = .opened → d.bgRuns src = false →
      (d.stageOk (fieldAt p 0 4) (p.length - 8) = false → Does (.stage src p) s fun e => d.Sent e (.cci src .invalidInput 0 []) ∧
        e.cfg.bg = d.cfg.bg ∧ e.nvm = d.nvm) ∧
      (d.stageOk (fieldAt p 0 4) (p.length - 8) = true → Does (.stage src p) s fun e =>
        d.Sent e (.cci src .backgroundStarted 0 []) ∧ e.cfg.bg = d.cfg.bg ++ [{ src := src, kind := .stage (fieldAt p 0 4) (p.drop 8) }] ∧
        e.cfg.txn.stageIssued = true ∧ e.cfg.txn.st = .opened ∧ e.nvmWait = 0 ∧ e.nvm = d.nvm)) ∧
    (Accepted (.rollback src []) s src d → d.cfg.txn.owner = some src ∨ d.mgr src = true →
      (d.cfg.txn.st = .opened ∨ d.cfg.txn.st = .ready → Does (.rollback src []) s fun e => d.Sent e (.cci src .success 0 []) ∧
        e.cfg.txn = { num := d.cfg.txn.num }) ∧
      (d.cfg.txn.st = .queued → Leaves (.rollback src []) s (d.reply src .success 0x0106)) ∧
      (d.cfg.txn.st = .voted → Leaves (.rollback src []) s (d.reply src .busy)))) ∧
  (∀ (s : State) (b : Bg) (bs : List Bg) (off : Nat) (data : List Byte), s.dev.cfg.bg = b :: bs → b.result = none → b.abandoned = false →
    b.kind = .stage off data → s.dev.coresGone = false → b.mute = false →
    (∀ ok, ok = false ∨ s.dev.nvmWritable = false → Leaves (.stageComplete ok) s s.dev) ∧
    (s.dev.nvmWritable = true → s.dev.cfg.txn.staged ≠ [] → Does (.stageComplete true) s fun e =>
      (∀ i (h : i < data.length), Memory.read nvmBlank e.nvm (stageBase + off + i) = data[i]) ∧
      (∀ a, a < stageBase + off ∨ stageBase + off + data.length ≤ a → Memory.read nvmBlank e.nvm a = Memory.read nvmBlank s.dev.nvm a) ∧
      e.cfg.txn.staged = s.dev.cfg.txn.staged ++ [(off, data.length)] ∧ b ∉ e.cfg.bg ∧
      s.dev.Sent e (.cci b.src .success 0 []) ∧ e.dram = s.dev.dram) ∧
    (s.dev.nvmWritable = true → s.dev.cfg.txn.staged = [] → Does (.stageComplete true) s fun e =>
      (∀ i (h : i < data.length), Memory.read nvmBlank e.nvm (stageBase + off + i) = data[i]) ∧
      (∀ a, a < stageBase + off ∨ stageBase + off + data.length ≤ a → Memory.read nvmBlank e.nvm a =
        if stageBase ≤ a ∧ a < stageBase + areaSize then nvmBlank else Memory.read nvmBlank s.dev.nvm a) ∧
      e.cfg.txn.staged = [(off, data.length)]))

/-- R305: Validate runs in the background and ends with the transaction Ready, or Open where a check fails; the reason is recorded. -/
def Obligations.ValidateEndsReadyOrOpen : Prop :=
  (∀ (src : Src) (s : State) (d : Dev), Accepted (.validate src []) s src d → d.cfg.txn.owner = some src →
    d.cfg.txn.st = .opened → d.bgRuns src = false → Does (.validate src []) s fun e =>
      d.Sent e (.cci src .backgroundStarted 0 []) ∧ e.cfg.bg = d.cfg.bg ++ [{ src := src, kind := .validate }] ∧ e.cfg.txn.st = .opened) ∧
  (∀ (s : State) (b : Bg) (bs : List Bg) (ok : Bool), s.dev.cfg.bg = b :: bs → b.result = none → b.abandoned = false →
    b.kind = .validate → s.dev.coresGone = false → b.mute = false →
    (s.dev.cfg.txn.stageIssued = false → s.dev.checkOverlay = none → Does (.validateComplete ok) s fun e =>
      e.cfg.txn.st = .ready ∧ e.cfg.txn.image = none ∧ b ∉ e.cfg.bg ∧ e.cfg.txn.overlay = s.dev.cfg.txn.overlay ∧
      s.dev.Sent e (.cci b.src .success 0 (List.replicate 16 0#8))) ∧
    (∀ f, s.dev.cfg.txn.stageIssued = false → s.dev.checkOverlay = some f → Does (.validateComplete ok) s fun e =>
      e.cfg.txn.st = .opened ∧ e.cfg.lastReason = f.reason ∧ s.dev.Sent e (.cci b.src .invalidInput 0 (validateOut (some f) 0))) ∧
    (s.dev.cfg.txn.stageIssued = true → s.dev.cfg.txn.staged = [] → Does (.validateComplete ok) s fun e =>
      e.cfg.txn.st = .opened ∧ e.cfg.lastReason = 16))

/-- R306 and R309: Commit without an image queues its activation at once, with an image it writes the target slot, which must read back; and a
transaction that is left alone for 30 s ends. R302 and R313: Revert names the previous image and queues its activation; under POOL only
the root orders it. -/
def Obligations.CommitAndRevertQueueActivations : Prop :=
  ((∀ (src : Src) (p : List Byte) (s : State) (d : Dev), Accepted (.commit src p) s src d → p.length = 8 → d.cfg.txn.owner = some src →
    (d.cfg.txn.st = .opened ∨ d.cfg.txn.pool = true → d.cfg.txn.st ≠ .idle → Does (.commit src p) s fun e =>
      d.Sent e (.cci src .invalidInput 0 []) ∧ e.acts = d.acts ∧ e.cfg.bg = d.cfg.bg) ∧
    (d.cfg.txn.st = .ready → d.cfg.txn.pool = false → d.bgRuns src = false → d.cfg.txn.image.isSome = true →
      Does (.commit src p) s fun e => d.Sent e (.cci src .backgroundStarted 0 []) ∧ e.cfg.txn.st = .writing ∧
        e.cfg.txn.target = some d.targetSlot ∧ e.cfg.txn.wantStroke = fieldAt p 0 8) ∧
    (d.cfg.txn.st = .ready → d.cfg.txn.pool = false → d.cfg.bg = [] → d.cfg.txn.image = none → d.acts.length < 16 →
      fieldAt p 0 8 = 0 → Does (.commit src p) s fun e => d.Sent e (.cci src .backgroundStarted 0 []) ∧ e.cfg.txn.st = .queued ∧
        e.acts = d.acts ++ [{ stroke := d.pool + 2, cls := 1, kind := .config }])) ∧
  (∀ (s : State) (b : Bg) (bs : List Bg) (n : Nat) (i : Image), s.dev.cfg.bg = b :: bs → b.result = none → b.abandoned = false →
    b.kind = .commit 0 → s.dev.cfg.txn.target = some n →
    s.dev.cfg.txn.image = some i → s.dev.cfg.txn.st = .writing → b.queued = false →
    (∀ ok, s.dev.nvmWritable = false → Leaves (.commitSlotWritten ok) s s.dev) ∧
    (s.dev.nvmWritable = true → b.mute = false → s.dev.coresGone = false → Does (.commitSlotWritten false) s fun e =>
      e.cfg.txn.st = .ready ∧ e.cfg.txn.target = none ∧ e.slotState n = (if n < 2 then 3 else 0) ∧
      s.dev.Sent e (.cci b.src .invalidInput 0 [])) ∧
    (s.dev.nvmWritable = true → s.dev.prim = .primed → s.dev.acts.length < 16 → s.dev.cfg.txn.wantStroke = 0 →
      ((s.dev.writeSlot n).readBack n true).2 = true → Does (.commitSlotWritten true) s fun e => e.cfg.txn.st = .queued ∧
        e.acts = s.dev.acts ++ [{ stroke := s.dev.pool + 2, cls := 1, kind := .config }])) ∧
  (∀ s : State, s.dev.cfg.txn.st = .opened ∨ s.dev.cfg.txn.st = .ready →
    (s.dev.cfg.txn.lastCmd + 30000000 ≤ s.dev.time.loc → Does .transactionTimeout s fun e =>
      e.cfg.txn = { num := s.dev.cfg.txn.num } ∧ e.Pending 45) ∧
    (s.dev.time.loc < s.dev.cfg.txn.lastCmd + 30000000 → s.dev.ownerGone = false → Leaves .transactionTimeout s s.dev)) ∧
  (∀ (s : State) (b : Bg) (bs : List Bg), s.dev.cfg.bg = b :: bs → b.result = none → b.abandoned = false → b.queued = false →
    (∃ off data, b.kind = .stage off data) ∨ (b.kind = .validate ∧ s.dev.cfg.txn.pool = true) ∨
      (b.kind = .commit 0 ∧ s.dev.cfg.txn.st = .writing) →
    (s.dev.nvmWait < 10000000 → Leaves .nvmWriteTimeout s s.dev) ∧
    (10000000 ≤ s.dev.nvmWait → b.mute = false → s.dev.coresGone = false → Does .nvmWriteTimeout s fun e =>
      s.dev.Sent e (.cci b.src .retryRequired 0x0105 (leBytes 2 0)) ∧ b ∉ e.cfg.bg))) ∧
  (∀ (src : Src) (p : List Byte) (s : State) (d : Dev), Accepted (.revert src p) s src d → p.length = 9 → fieldAt p 8 1 < 2 →
    (d.cfg.txn.st ≠ .idle ∨ d.decisionOpen = true → Leaves (.revert src p) s (d.reply src .busy 0x0104 d.busyOut)) ∧
    (d.cfg.txn.st = .idle → d.decisionOpen = false → fieldAt p 8 1 = 1 → d.isRoot = false →
      Leaves (.revert src p) s (d.reply src .invalidInput)) ∧
    (d.cfg.txn.st = .idle → d.decisionOpen = false → fieldAt p 8 1 = 0 → d.bgRuns src = false →
      ((d.findPrev false).2 = none → Leaves (.revert src p) s ((d.findPrev false).1.reply src .invalidInput)) ∧
      (∀ n i e, (d.findPrev false).2 = some (n, i) →
        (d.findPrev false).1.queueAct ((d.findPrev false).1.wanted (fieldAt p 0 8)) 1 .toSlot = .ok e →
        Leaves (.revert src p) s ({ e with cfg := { e.cfg with toSlot := some (n, i, true) } }.startBg src
          (.revert ((d.findPrev false).1.wanted (fieldAt p 0 8)) i.version) true))))

/-- R311: Pool Commit is ordered by the root on a Ready pool transaction, a member votes by what it has validated, and a vote that is missing
at the end of the window aborts the decision. R31, R312 and R313: a member that voted queues the activation it is told and acknowledges
it, a Pool Abort ends its transaction, a Pool Revert queues the previous image, and a Commit that a member has not acknowledged within
COMMIT_WAIT makes the root order a Revert. -/
def Obligations.PoolDecisions : Prop :=
  ((∀ (src : Src) (s : State) (d : Dev), Accepted (.poolCommit src []) s src d →
    (d.isRoot = false ∨ d.cfg.txn.st ≠ .ready ∨ d.cfg.txn.pool = false ∨ d.txnTag = none →
      Leaves (.poolCommit src []) s (d.reply src .invalidInput 0x0102)) ∧
    (∀ v g, d.isRoot = true → d.cfg.txn.st = .ready → d.cfg.txn.pool = true → d.txnTag = some (v, g) → d.cfg.root.phase = 0 →
      d.bgRuns src = false → Leaves (.poolCommit src []) s
        ((d.setRoot fun _ => { phase := 1, src := some src, ver := v, digest := g }).startBg src .poolCommit))) ∧
  (∀ (p : Nat) (b : Bcast) (s : State) (d : Dev), s.dev.hear p 3 b = some d → d.coresGone = false →
    (d.cfg.txn.st = .ready → d.cfg.txn.pool = true → d.txnTag = some (b.ver, b.digest) → Does (.poolPrepare p b) s fun e =>
      e.cfg.txn.st = .voted ∧ e.cfg.member.votedAt = d.time.loc ∧ e.cfg.member.rootId = some b.src ∧
      d.Sent e (.bcastAck b.src { kind := 3, member := d.devId, epoch := b.epoch, bseq := b.bseq, status := 0, slice := 0,
                                  ver := d.poolNow.1 })) ∧
    (d.cfg.txn.st ≠ .ready ∨ d.cfg.txn.pool = false → Does (.poolPrepare p b) s fun e => e.cfg.txn = d.cfg.txn ∧
      d.Sent e (.bcastAck b.src { kind := 3, member := d.devId, epoch := b.epoch, bseq := b.bseq, status := 1, slice := 0,
                                  ver := d.poolNow.1 }))) ∧
  (∀ (p : Nat) (b : Bcast) (s : State) (c : Instr), c ∈ [.poolPrepare p b, .poolCommitBroadcast p b, .poolAbort p b, .poolRevert p b] →
    s.dev.portUp p = false → Leaves c s s.dev) ∧
  (∀ (s : State) (m : Nat), s.dev.cfg.root.phase = 2 → s.dev.members.find? (fun m => !s.dev.cfg.root.yes.contains m) = some m →
    (s.dev.coresGone = true → Leaves .voteWindowExpiry s s.dev) ∧
    (s.dev.pool < s.dev.cfg.root.startP + s.dev.voteWin → Leaves .voteWindowExpiry s s.dev) ∧
    (s.dev.coresGone = false → s.dev.cfg.root.startP + s.dev.voteWin ≤ s.dev.pool → s.dev.cfg.txn.st = .voted → Does .voteWindowExpiry s fun e =>
      e.cfg.root.phase = 0 ∧ e.cfg.txn.st = .ready ∧ e.led.decision = 2 ∧ e.led.decVer = s.dev.cfg.root.ver))) ∧
  ((∀ (p : Nat) (b : Bcast) (s : State) (d : Dev), s.dev.hear p 4 b = some d → d.coresGone = false → d.cfg.member.lastAck = none →
    (d.cfg.txn.st = .voted → d.txnTag = some (b.ver, b.digest) → d.pool + 2 ≤ b.act.toNat → d.acts.length < 16 →
      Does (.poolCommitBroadcast p b) s fun e => e.cfg.txn.st = .queued ∧
        e.acts = d.acts ++ [{ stroke := b.act.toNat, cls := 1, kind := .config }] ∧
        e.cfg.member.lastAck = some (b.ver, b.act.toNat, 0) ∧
        d.Sent e (.bcastAck b.src { kind := 4, member := d.devId, epoch := b.epoch, bseq := b.bseq, status := 0, slice := 0,
                                    ver := d.poolNow.1 })) ∧
    (d.cfg.txn.st = .voted → d.txnTag = some (b.ver, b.digest) → b.act.toNat < d.pool + 2 → d.acts.length < 16 →
      Does (.poolCommitBroadcast p b) s fun e => e.acts = d.acts ++ [{ stroke := d.pool + 2, cls := 1, kind := .config }] ∧
        e.Pending 47 ∧ e.cfg.member.lastAck = some (b.ver, b.act.toNat, 1)) ∧
    (d.cfg.txn.st ≠ .voted → d.poolNow ≠ (b.ver, b.digest) → Does (.poolCommitBroadcast p b) s fun e => e.acts = d.acts ∧
      d.Sent e (.bcastAck b.src { kind := 4, member := d.devId, epoch := b.epoch, bseq := b.bseq, status := 2, slice := 0,
                                  ver := d.poolNow.1 }))) ∧
  (∀ (p : Nat) (b : Bcast) (s : State) (d : Dev), s.dev.hear p 5 b = some d → d.coresGone = false →
    d.cfg.txn.st = .voted ∨ d.cfg.txn.st = .ready → d.cfg.txn.pool = true → d.txnTag = some (b.ver, b.digest) →
    Does (.poolAbort p b) s fun e => e.cfg.txn = { num := d.cfg.txn.num }) ∧
  (∀ (p : Nat) (b : Bcast) (s : State) (d : Dev), s.dev.hear p 6 b = some d → d.coresGone = false →
    d.poolNow ≠ (b.ver, b.digest) → d.poolNow ≠ (b.targetVer, b.targetDigest) → Does (.poolRevert p b) s fun e => e.Pending 46 ∧
      e.acts = d.acts ∧ d.Sent e (.bcastAck b.src
        { kind := 6, member := d.devId, epoch := b.epoch, bseq := b.bseq, status := 2, slice := 0, ver := d.poolNow.1 })) ∧
  (∀ (p : Nat) (b : Bcast) (s : State) (d : Dev), s.dev.hear p 6 b = some d → d.coresGone = false →
    d.poolNow ≠ (b.ver, b.digest) → d.poolNow = (b.targetVer, b.targetDigest) → d.pendingSlot = none →
    Does (.poolRevert p b) s fun e => e.acts = d.acts ∧ d.Sent e (.bcastAck b.src
      { kind := 6, member := d.devId, epoch := b.epoch, bseq := b.bseq, status := 0, slice := 0, ver := d.poolNow.1 })) ∧
  (∀ (p : Nat) (b : Bcast) (s : State) (d e f : Dev) (n : Nat) (i : Image), s.dev.hear p 6 b = some d → d.coresGone = false →
    e = (d.setMember fun m => { m with rootId := some b.src }) → e.poolNow = (b.ver, b.digest) → e.findPrev true = (f, some (n, i)) →
    f.pool + 2 ≤ b.act.toNat → f.acts.length < 16 → Does (.poolRevert p b) s fun g => g.cfg.toSlot = some (n, i, true) ∧
      g.acts = f.acts ++ [{ stroke := b.act.toNat, cls := 1, kind := .toSlot }] ∧ f.Sent g (.bcastAck b.src
        { kind := 6, member := f.devId, epoch := b.epoch, bseq := b.bseq, status := 0, slice := 0, ver := f.poolNow.1 })) ∧
  (∀ (s : State) (m : Nat), s.dev.cfg.root.phase = 3 → s.dev.members.find? (fun m => !s.dev.cfg.root.acks.contains m) = some m →
    (s.dev.coresGone = true → Leaves .commitWaitExpiry s s.dev) ∧
    (s.dev.coresGone = false → s.dev.cfg.root.actS + s.dev.commitWait ≤ s.dev.pool →
      s.dev.cfg.root.startP + s.dev.commitWait ≤ s.dev.pool → Leaves .commitWaitExpiry s (s.dev.setRoot fun r => { r with phase := 4, named := m })) ∧
    (s.dev.pool < s.dev.cfg.root.actS + s.dev.commitWait → Leaves .commitWaitExpiry s s.dev)))

/-- R314 and R315: a member that has lost touch pulls the root's configuration, again and again until COMMIT_WAIT ends; the root answers with
its decision, and reverts where the member says that it cannot follow it within COMMIT_WAIT. -/
def Obligations.ConfigurationPulled : Prop :=
  (∀ (p : Nat) (q : PullMsg) (s : State), s.dev.portUp p = true → s.dev.isRoot = true → s.dev.prim = .primed →
    s.dev.coresGone = false → ∀ a : PullMsg,
    a = { src := s.dev.devId, kind := 2, outcome := s.dev.led.decision, ver := s.dev.led.decVer, digest := s.dev.led.decDigest,
          pendVer := 0#32, pendDigest := 0#64, act := BitVec.ofNat 64 s.dev.led.decStroke, rootVer := s.dev.poolNow.1,
          rootDigest := s.dev.poolNow.2 } →
    (q.kind ≠ 3 → Leaves (.configurationPull p q) s (s.dev.pullMsgTo q.src a)) ∧
    (q.kind = 3 → s.dev.led.decision = 1 → s.dev.pool ≤ s.dev.led.decStroke + s.dev.commitWait → s.dev.cfg.root.phase < 4 →
      Does (.configurationPull p q) s fun e => e.cfg.root.phase = 4 ∧ e.cfg.root.named = q.src ∧ s.dev.Sent e (.pull q.src a))) ∧
  (∀ (p : Nat) (q : PullMsg) (s : State), s.dev.portUp p = false ∨ s.dev.isRoot = false ∨ s.dev.prim ≠ .primed →
    Leaves (.configurationPull p q) s s.dev) ∧
  (∀ (p : Nat) (q : PullMsg) (s : State), s.dev.portUp p = true → s.dev.cfg.member.pulling = true → s.dev.coresGone = false →
    q.kind = 2 → s.dev.poolNow = (q.rootVer, q.rootDigest) → s.dev.pendingSlot = none →
    Does (.configurationPullReply p q) s fun e => e = s.dev.setMember fun m => { m with pulling := false }) ∧
  (∀ s : State, s.dev.cfg.txn.st = .voted → s.dev.isRoot = false → s.dev.cfg.member.pulling = false → s.dev.coresGone = false →
    s.dev.cfg.member.votedAt + s.dev.voteWin + s.dev.commitWait ≤ s.dev.time.loc → Does .votedTimeout s fun e =>
      e.cfg.member.pulling = true ∧ e.cfg.member.pullStart = s.dev.time.loc ∧
      ∃ dst q, s.dev.Sent e (.pull dst q) ∧ q.kind = 1 ∧ q.src = s.dev.devId ∧ q.ver = s.dev.poolNow.1) ∧
  (∀ s : State, s.dev.cfg.member.pulling = true →
    (s.dev.coresGone = false → s.dev.cfg.member.pullLast + s.dev.pullTo ≤ s.dev.time.loc →
      s.dev.time.loc < s.dev.cfg.member.pullStart + s.dev.commitWait → Does .pullRetry s fun e =>
        e.cfg.member.pullLast = s.dev.time.loc ∧ e.cfg.member.pulling = true ∧ ∃ dst q, s.dev.Sent e (.pull dst q) ∧ q.kind = 1) ∧
    (s.dev.cfg.member.pullStart + s.dev.commitWait ≤ s.dev.time.loc → Leaves .pullRetry s s.dev ∧ Does .pullGiveUp s fun e =>
      e.cfg.member.pulling = false ∧ e.Pending 46) ∧
    (s.dev.time.loc < s.dev.cfg.member.pullStart + s.dev.commitWait → Leaves .pullGiveUp s s.dev)) ∧
  (∀ s : State, s.dev.cfg.member.verify ≠ none → s.dev.cfg.toSlot = none → ∀ n t, s.dev.pendingSlot = some (n, t) →
    (s.dev.checkSlot n).2.fail = none → (s.dev.checkSlot n).1.acts.length < 16 → (s.dev.checkSlot n).1.cfg.txn.target ≠ some n →
    Does .slotVerificationComplete s fun e => e.cfg.toSlot = some (n, (s.dev.checkSlot n).2.img, false) ∧
      e.acts = (s.dev.checkSlot n).1.acts ++ [{ stroke := (s.dev.checkSlot n).1.pool + 2, cls := 1, kind := .toSlot }])

/-- R81, R82, R66: a head requests rest with its tolerance and cancels it, and the management port can do neither; a request that leaves some
attached head awake answers at once with code 3, and one that makes every attached head rest starts the entry or answers that no state
fits. R336: the device chooses the deepest enabled state whose exit time the smallest tolerance of its attached heads allows, and DS0
while any attached head does not rest. -/
def Obligations.RestRequestsAndTheStateChosen : Prop :=
  ((∀ (h : Nat) (p : List Byte) (s : State) (d : Dev), Accepted (.requestRest (.head h) p) s (.head h) d → p.length = 8 →
    zeros (sub p 4 4) = true → ∀ e : Dev, e = (d.setHead h fun x => { x with restReq := true, restTol := fieldAt p 0 4 }) →
    (d.bgRuns (.head h) = true → Leaves (.requestRest (.head h) p) s (d.reply (.head h) .busy)) ∧
    (d.bgRuns (.head h) = false → d.allResting = true ∨ e.allResting = false →
      Leaves (.requestRest (.head h) p) s (e.reply (.head h) .success 0 (restOut d.pwr.st 3 0 0 0))) ∧
    (d.bgRuns (.head h) = false → d.allResting = false → e.allResting = true → e.choose = 0 →
      Leaves (.requestRest (.head h) p) s (e.reply (.head h) .success 0 (restOut 0 0 0 0 0))) ∧
    (d.bgRuns (.head h) = false → d.allResting = false → e.allResting = true → e.choose ≠ 0 →
      Leaves (.requestRest (.head h) p) s (e.startBg (.head h) .rest))) ∧
  (∀ (h : Nat) (s : State) (d : Dev), Accepted (.cancelRest (.head h) []) s (.head h) d →
    ((d.head h).restReq = false → Leaves (.cancelRest (.head h) []) s (d.reply (.head h) .success)) ∧
    ((d.head h).restReq = true → d.attached h = true → Leaves (.cancelRest (.head h) []) s
      (((d.setHead h fun x => { x with restReq := false, restTol := 0 }).wake 8 h).reply (.head h) .success)) ∧
    ((d.head h).restReq = true → d.attached h = false → Leaves (.cancelRest (.head h) []) s
      ((d.setHead h fun x => { x with restReq := false, restTol := 0 }).reply (.head h) .success))) ∧
  (Effect (.cancelRest .mctp []) .mctp fun d => d.reply .mctp .invalidInput) ∧
  (∀ (p : List Byte) (s : State) (d : Dev), Accepted (.requestRest .mctp p) s .mctp d → p.length = 8 → zeros (sub p 4 4) = true →
    Leaves (.requestRest .mctp p) s (d.reply .mctp .invalidInput)) ∧
  (∀ (src : Src) (s : State) (d : Dev), Accepted (.getPowerStatus src []) s src d → ∃ out, out.length = 32 ∧
    Leaves (.getPowerStatus src []) s (d.reply src .success 0 out) ∧ fieldAt out 0 1 = d.pwr.st % 256 ∧ fieldAt out 1 1 = d.pwr.target % 256 ∧
    (d.mgr src = false → fieldAt out 8 8 = 0))) ∧
  (∀ d : Dev, (d.allResting = false ∨ d.prim ≠ .primed → d.choose = 0) ∧ d.choose ≤ 4 ∧
    (d.choose ≠ 0 → d.fld 0x504 (d.choose - 1) (d.choose - 1) = 1 ∧ d.pwr.exit d.choose * 1000 ≤ d.minTol) ∧
    (∀ n, d.choose < n → n ≤ 4 → d.allResting = true → d.prim = .primed →
      ¬ (d.fld 0x504 (n - 1) (n - 1) = 1 ∧ d.pwr.exit n * 1000 ≤ d.minTol)))

/-- R338 to R341 and R441: an entry step begins, waits for its condition and ends, the last step of a state reaches it with EV180, the waits
of the home slices, of the cascade ports and of the guest end in the refusal of their cause, which starts a re-wake to the state held and
names the slice; a retry starts the entry again. -/
def Obligations.EntryStepsWaitAndAreRefused : Prop :=
  (∀ (f : EntryFacts) (s : State), s.dev.pwr.entering = false ∨ s.dev.pwr.mark = s.dev.time.loc + 1 → Leaves (.entryStep f) s s.dev) ∧
  (∀ (f : EntryFacts) (s : State), s.dev.pwr.entering = true → s.dev.pwr.mark ≠ s.dev.time.loc + 1 → s.dev.pwr.stepBusy = true →
    s.dev.stepOver (s.dev.pwr.done + 1) = false → Leaves (.entryStep f) s
      (s.dev.setPwr fun p => { p with mark := s.dev.time.loc + 1 })) ∧
  (∀ (f : EntryFacts) (s : State), s.dev.pwr.entering = true → s.dev.pwr.mark ≠ s.dev.time.loc + 1 → s.dev.pwr.stepBusy = false →
    s.dev.pwr.done = 2 → s.dev.pwr.st = 1 → 2 ≤ s.dev.pwr.target →
    ((∀ n < s.dev.nHs, s.dev.hsIdle n = true) → Leaves (.entryStep f) s (s.dev.setPwr fun p => { p with
      mark := s.dev.time.loc + 1, done := 3, stepBusy := false, stepAt := s.dev.time.loc })) ∧
    ((∃ n < s.dev.nHs, s.dev.hsIdle n = false) → Leaves (.entryStep f) s (s.dev.setPwr fun p => { p with
      mark := s.dev.time.loc + 1, stepBusy := true, stepAt := s.dev.time.loc }))) ∧
  (∀ (f : EntryFacts) (s : State) (n : Nat), s.dev.pwr.entering = true → s.dev.pwr.mark ≠ s.dev.time.loc + 1 →
    s.dev.pwr.stepBusy = true → s.dev.stepOver (s.dev.pwr.done + 1) = true → s.dev.pwr.target = n → s.dev.pwr.st + 1 = n →
    s.dev.pwr.done + 1 = groupEnd n → n ≠ 3 → Does (.entryStep f) s fun e => e.pwr.st = n ∧ e.pwr.done = groupEnd n ∧
      e.pwr.entering = false ∧ e.pwr.changed = s.dev.pool ∧ e.Pending 180) ∧
  (∀ (s : State) (n : Nat), s.dev.pwr.entering = true → s.dev.pwr.stepBusy = true → s.dev.pwr.done = 2 →
    (List.range s.dev.nHs).find? (fun n => !s.dev.hsIdle n) = some n →
    (s.dev.time.loc < s.dev.pwr.stepAt + s.dev.fld 0x504 7 4 → Leaves .hsWaitExpiry s s.dev) ∧
    (s.dev.pwr.stepAt + s.dev.fld 0x504 7 4 ≤ s.dev.time.loc → Does .hsWaitExpiry s fun e => e.Pending 181 ∧ e.pwr.entering = false ∧
      e.pwr.waking = true ∧ e.pwr.wakeTo = s.dev.pwr.st ∧ e.pwr.lastCause = 1 ∧ e.pwr.lastSlice = hsSlice n ∧
      e.pwr.retryAt = some (s.dev.time.loc + s.dev.fld 0x504 31 16))) ∧
  (∀ (s : State) (q : Nat), s.dev.pwr.entering = true → s.dev.pwr.stepBusy = true → s.dev.pwr.done = 7 →
    s.dev.ports.find? (fun q => (s.dev.port q).sleepAsked && (s.dev.port q).st == .up && !(s.dev.port q).draining) = some q →
    (s.dev.time.loc < s.dev.pwr.stepAt + 4 → Leaves .sleepReplyTimeout s s.dev) ∧
    (s.dev.pwr.stepAt + 4 ≤ s.dev.time.loc → Does .sleepReplyTimeout s fun e => e.Pending 181 ∧ e.pwr.entering = false ∧
      e.pwr.waking = true ∧ e.pwr.lastCause = 3 ∧ e.pwr.lastSlice = portSlice q ∧ (e.port q).sleepAsked = false)) ∧
  (∀ s : State, (s.dev.pwr.entering = false → s.dev.pwr.waking = false → s.dev.pwr.st < s.dev.pwr.target →
      (∃ t, s.dev.pwr.retryAt = some t ∧ t ≤ s.dev.time.loc) →
      Leaves .entryRetry s (s.dev.setPwr fun p => { p with retryAt := none, entering := true })) ∧
    (s.dev.pwr.entering = true ∨ s.dev.pwr.waking = true ∨ s.dev.pwr.retryAt = none → Leaves .entryRetry s s.dev)) ∧
  (∀ s : State, s.dev.gst.quiesce = 1 →
    Leaves .ready s { s.dev with gst := { s.dev.gst with quiesce := 2 } } ∧
    (s.dev.pwr.entering = true → Does .refuse s fun e => e.Pending 181 ∧ e.pwr.waking = true ∧ e.pwr.lastCause = 4 ∧
      e.pwr.lastSlice = 0xA00 ∧ e.gst.quiesce = 0) ∧
    (s.dev.time.loc < s.dev.pwr.stepAt + 10 → Leaves .quiesceTimeout s s.dev) ∧
    (s.dev.pwr.stepAt + 10 ≤ s.dev.time.loc → s.dev.pwr.entering = true → Does .quiesceTimeout s fun e =>
      e.Pending 226 ∧ e.Pending 181 ∧ e.gst.quiesce = 0 ∧ e.pwr.lastCause = 4)) ∧
  (∀ s : State, s.dev.gst.quiesce ≠ 1 → ∀ c ∈ [Instr.ready, .refuse, .quiesceTimeout], Leaves c s s.dev)

/-- R342 to R347: a wake source starts a wake to DS0 with EV183 and is recorded by its code and index, interrupts an entry with EV182, and
does nothing to an awake device; a wake ends at the boundary after the last step was undone, where the count of IDLE_MIN begins (log entry
90). -/
def Obligations.WakeSourcesStartTheWake : Prop :=
  (∀ (s : State) (code idx : Nat), 1 ≤ code → code ≤ 9 →
    (s.dev.pwr.waking = false → s.dev.pwr.entering = false → s.dev.pwr.st = 0 → Leaves (.wakeSource code idx) s s.dev) ∧
    (s.dev.pwr.waking = false → s.dev.pwr.entering = false → s.dev.pwr.st ≠ 0 → Raises (.wakeSource code idx) s 183
      (s.dev.setPwr fun p => { p with waking := true, wakeTo := 0, woken := 0, src := code, idx := idx, retryAt := none })) ∧
    (s.dev.pwr.waking = false → s.dev.pwr.entering = true → Does (.wakeSource code idx) s fun e => e.Pending 182 ∧ e.Pending 183 ∧
      e.Agrees (s.dev.setPwr fun p => { p with
        entering := false, waking := true, wakeTo := 0, cut := true, done := p.done + b2n p.stepBusy, stepBusy := false, woken := 0,
        interrupted := satInc 65535 p.interrupted, src := code, idx := idx, retryAt := none })) ∧
    (s.dev.pwr.waking = true → s.dev.pwr.wakeTo ≠ 0 → Raises (.wakeSource code idx) s 183
      (s.dev.setPwr fun p => { p with wakeTo := 0, src := code, idx := idx }))) ∧
  (∀ s : State, s.dev.gst.st = 2 → ∀ t, exec (.wakeSource 2 32) s = .next t → Leaves .guestWake s t.dev) ∧
  (∀ s : State, s.dev.gst.st ≠ 2 → Leaves .guestWake s s.dev) ∧
  (∀ s : State, s.dev.pwr.waking = false ∨ s.dev.pwr.mark = s.dev.time.loc + 1 → Leaves .wakeStep s s.dev) ∧
  (∀ s : State, s.dev.pwr.waking = true → s.dev.pwr.mark ≠ s.dev.time.loc + 1 → s.dev.pwr.done ≤ groupEnd s.dev.pwr.wakeTo →
    s.dev.pwr.refused = false → Does .wakeStep s fun e => e.pwr.waking = false ∧ e.pwr.st = s.dev.pwr.wakeTo ∧
      (s.dev.pwr.wakeTo ≠ s.dev.pwr.st → e.pwr.changed = s.dev.pool) ∧ e.pwr.afterWake = (s.dev.pwr.wakeTo == 0) ∧
      (s.dev.pwr.wakeTo = 0 → e.pwr.idleSince = s.dev.time.loc)) ∧
  (∀ s : State, (s.dev.pwr.afterWake = true → s.dev.pwr.idleSince + s.dev.fld 0x504 15 8 ≤ s.dev.time.loc →
      Leaves .reentryIdleExpiry s (s.dev.setPwr fun p => { p with afterWake := false })) ∧
    (s.dev.time.loc < s.dev.pwr.idleSince + s.dev.fld 0x504 15 8 → Leaves .reentryIdleExpiry s s.dev)) ∧
  (∀ s : State, (0 < s.dev.pwr.st → s.dev.pwr.waking = false →
      ∀ a, s.dev.acts.find? (fun a => decide (a.stroke ≤ s.dev.pool + s.dev.pwr.exit s.dev.pwr.st + 2)) = some a →
      Does .activationWake s fun e => e.Pending 183 ∧ e.pwr.waking = true ∧ e.pwr.wakeTo = 0 ∧ e.pwr.src = 7 ∧ e.pwr.idx = a.cls) ∧
    (s.dev.pwr.st = 0 → s.dev.pwr.entering = false → Leaves .activationWake s s.dev))

/-- R351 to R365: clock windows are judged against the limit, a clock fails at its second bad window, the RC trims, PLLs, AVSBus rails and
CLKOUT are kept as commanded, and supply warnings start and end the brace state. -/
def Obligations.ClocksRailsAndSupplies : Prop :=
  (∀ (c : ClockId) (dev : Nat) (s : State), s.dev.monitored c = true →
    ((s.dev.mon (clockKey c)).skip = true → Leaves (.clockMonitorWindow c dev) s (s.dev.setMon (clockKey c) fun m => { m with skip := false })) ∧
    ((s.dev.mon (clockKey c)).skip = false → dev ≤ s.dev.fld 0x604 23 16 → Does (.clockMonitorWindow c dev) s fun e =>
      (e.mon (clockKey c)).bad = 0 ∧ (e.mon (clockKey c)).goodNow = true) ∧
    ((s.dev.mon (clockKey c)).skip = false → s.dev.fld 0x604 23 16 < dev → (s.dev.mon (clockKey c)).bad = 0 →
      (s.dev.mon (clockKey c)).failed = false → Leaves (.clockMonitorWindow c dev) s
        (s.dev.setMon (clockKey c) fun m => { m with bad := 1, good := 0, goodNow := false })) ∧
    (∀ t, c = .fabric t → (s.dev.mon (clockKey c)).skip = false → s.dev.fld 0x604 23 16 < dev → (s.dev.mon (clockKey c)).bad = 1 →
      (s.dev.mon (clockKey c)).failed = false → Does (.clockMonitorWindow c dev) s fun e => e.Pending 1 ∧ e.clk.failTile = t ∧
        e.clk.failDom = 3 ∧ (e.mon (clockKey c)).failed = true ∧ e.clk.onRc = (s.dev.clk.onRc ||| (1#11 <<< t)))) ∧
  (∀ (c : ClockId) (n : Nat) (s : State), (s.dev.clockThere c = true → Raises (.sourceSwitchStopTimeout c n) s 192
      (s.dev.setClk fun k => { k with forced := min n 65535 })) ∧
    (s.dev.clockThere c = false → Leaves (.sourceSwitchStopTimeout c n) s s.dev)) ∧
  (∀ (s : State) (t : Nat) (i : Int), s.dev.pool % 1024 = 0 → s.dev.clk.trimAt ≠ s.dev.time.loc + 1 → s.dev.clk.refSrc < 2 → t = 0 ∨ s.dev.tilePresent (t - 1) = true →
    -126 ≤ Tbl.get 0 s.dev.clk.trims t + max (-1) (min 1 i) → Tbl.get 0 s.dev.clk.trims t + max (-1) (min 1 i) ≤ 126 →
    Does (.rcTrim [(t, i)]) s fun e => Tbl.get 0 e.clk.trims t = Tbl.get 0 s.dev.clk.trims t + max (-1) (min 1 i) ∧ e.ev = s.dev.ev) ∧
  (∀ (s : State) (t : Nat), s.dev.clk.moving = true → s.dev.fabricTiles.contains t = true → s.dev.clk.pllLocked.contains t = false →
    Leaves (.pllLocked t) s (s.dev.setClk fun c => { c with pllLocked := t :: c.pllLocked })) ∧
  (∀ (s : State) (i mv tgt : Nat), i < 4 → s.dev.clk.settled.contains i = false → tgt = s.dev.clk.railTgt.getD i 0 →
    (mv ≤ tgt + 5 → tgt ≤ mv + 5 → Leaves (.railPoll i mv) s
      (s.dev.setClk fun c => { c with railMv := c.railMv.set i mv, settled := i :: c.settled })) ∧
    (mv > tgt + 5 ∨ tgt > mv + 5 → Leaves (.railPoll i mv) s (s.dev.setClk fun c => { c with railMv := c.railMv.set i mv }))) ∧
  (∀ (s : State) (i : Nat), s.dev.clk.moving = true →
    (s.dev.coresGone = true → ∀ why, Leaves (.opSequenceFault i why) s s.dev) ∧
    (i < 4 → s.dev.coresGone = false → Does (.opSequenceFault i .avsbus) s fun e => e.Pending 195 ∧ e.clk.moving = false ∧ e.clk.opFault = true ∧ e.clk.faultRail = i ∧
      e.clk.opNow = max s.dev.clk.opNow s.dev.clk.opTo) ∧
    (s.dev.time.loc < s.dev.clk.opStart + 20 → Leaves (.opSequenceFault i .pll) s s.dev) ∧
    (s.dev.time.loc < s.dev.clk.slewAt + s.dev.slewTime + 64 ∨ s.dev.clk.deferred = true →
      Leaves (.opSequenceFault i .rail) s s.dev)) ∧
  (∀ (src : Src) (v : BitVec 32) (s : State), s.dev.regOk src = true → Leaves (.clkoutConfiguration src v) s
    (s.dev.setClk fun c => { c with clkoutPend := some (v &&& 0xBF9FFFFF#32) })) ∧
  (∀ (s : State) (sl : Nat), s.dev.slicePresent sl = true → s.dev.pwr.entering = false → Raises (.gateRefusalTimeout sl) s 193
    (s.dev.setClk fun c => { c with gateRefused := Tbl.upd 0 c.gateRefused (sl / 256) (satInc 65535) })) ∧
  (∀ (s : State) (r t : Nat), s.dev.monitorOn r t = true → Does (.warningCrossing r t) s fun e => e.Pending 190 ∧ e.sup.brace = true ∧
    e.sup.rail = r ∧ e.sup.tile = t ∧ e.sup.since = (if s.dev.sup.brace then s.dev.sup.since else s.dev.time.loc)) ∧
  (∀ s : State, (s.dev.sup.brace = true → 8 ≤ s.dev.sup.goodRun → Does .braceEnd s fun e => e.Pending 191 ∧ e.sup.brace = false ∧
      e.sup.dips = satInc 65535 s.dev.sup.dips) ∧
    (s.dev.sup.brace = false ∨ s.dev.sup.goodRun < 8 → Leaves .braceEnd s s.dev)) ∧
  (∀ (s : State) (r t mv : Nat), s.dev.monitorOn r t = true →
    ((s.dev.railLevels r).1 + 50 < mv → Raises (.railOvervoltage r t mv) s 198 s.dev) ∧
    (mv ≤ (s.dev.railLevels r).1 + 50 → Leaves (.railOvervoltage r t mv) s s.dev))

/-- R30, R318, R322, R323, R326, R327: the SPDM responder is silent while its transport is down, keeps a message that comes while the cores
are away (log entry 80), answers an error once decommissioned, negotiates first, opens at most the sessions its transport has, and answers
digests, certificates, challenges and measurements with their signature. -/
def Obligations.SpdmResponderAnswers : Prop :=
  (∀ (x : Sess) (ok : Bool) (i a b : Nat) (n : List Byte) (r : BitVec 256) (s : State), ∀ c ∈ [Instr.spdmGetVersion x, .getCapabilities x,
      .negotiateAlgorithms x ok, .getDigests x, .getCertificate x i a b, .challenge x i n, .keyExchange x, .getMeasurements x i, .finish x ok,
      .keyUpdate x, .heartbeat x, .endSession x, .getEncapsulatedRequest x, .deliverEncapsulatedResponse x r ok, .setCertificate x i n],
    (s.dev.coresGone = true → ∀ d, d = s.dev.wake 5 0 → Leaves c s { d with cores := { d.cores with paused := d.cores.paused ++ [c] } }) ∧
    (s.dev.transportUp x.tr = false → s.dev.coresGone = false → Leaves c s s.dev) ∧
    (s.dev.transportUp x.tr = true → s.dev.coresGone = false → s.dev.lifecycle = 3 → Leaves c s (s.dev.emit (.spdm x 4 [])))) ∧
  (∀ (x : Sess) (s : State), s.dev.SpdmHeard x →
    Leaves (.spdmGetVersion x) s ((s.dev.setSec fun c => { c with negotiated := c.negotiated.filter (· != x.tr) }).emit
      (.spdm x 0 [0x10#8, 0x11#8, 0x12#8])) ∧
    Leaves (.getCapabilities x) s (s.dev.emit (.spdm x 0 (leBytes 4 0x000873D6))) ∧
    (Does (.negotiateAlgorithms x true) s fun e => x.tr ∈ e.sec.negotiated ∧ e = ({ s.dev with sec := e.sec }).emit (.spdm x 0 [])) ∧
    Leaves (.negotiateAlgorithms x false) s (s.dev.emit (.spdm x 3 [])) ∧
    (s.dev.sec.negotiated.contains x.tr = false → ∀ (i a b : Nat) (n : List Byte),
      ∀ c ∈ [Instr.getDigests x, .getCertificate x i a b, .challenge x i n, .keyExchange x, .getMeasurements x i],
        Leaves c s (s.dev.emit (.spdm x 1 [])))) ∧
  (∀ (x : Sess) (s : State), s.dev.SpdmHeard x → s.dev.sec.negotiated.contains x.tr = true →
    (s.dev.certChain 1 = [] → s.dev.certChain 0 ≠ [] → Leaves (.getDigests x) s
      (s.dev.emit (.spdm x 0 ([1#8] ++ digestBytes (Config.sha256 (s.dev.certChain 0)))))) ∧
    (∀ i a b, (s.dev.certChain i).length ≤ a → Leaves (.getCertificate x i a b) s (s.dev.emit (.spdm x 2 []))) ∧
    (∀ i a b, a < (s.dev.certChain i).length → ∀ n, n = min b ((s.dev.certChain i).length - a) →
      Leaves (.getCertificate x i a b) s (s.dev.emit (.spdm x 0
        (leBytes 2 i ++ leBytes 2 n ++ leBytes 2 ((s.dev.certChain i).length - a - n) ++ sub (s.dev.certChain i) a n)))) ∧
    (∀ i nonce, s.dev.certChain i ≠ [] → ∀ body,
      body = leBytes 1 i ++ digestBytes (Config.sha256 (s.dev.certChain i)) ++ digestBytes (Config.freeKey s.dev.free) →
      Leaves (.challenge x i nonce) s (({ s.dev with free := s.dev.free + 1 }).emit (.spdm x 0
        (body ++ Config.aliasSign (Config.sha256 s.dev.aliasCert) (nonce ++ body))))) ∧
    (∀ i, 8 < i → i ≠ 255 → Leaves (.getMeasurements x i) s (s.dev.emit (.spdm x 2 []))) ∧
    (∀ i, 0 < i → i ≤ 8 → ∀ body, body = s.dev.measBlock i ++ digestBytes (Config.freeKey s.dev.free) →
      Leaves (.getMeasurements x i) s (({ s.dev with free := s.dev.free + 1 }).emit (.spdm x 0
        (body ++ Config.aliasSign (Config.sha256 s.dev.aliasCert) body)))) ∧
    (x.id ≠ 0 → s.dev.session x = none → (s.dev.sec.sessions.filter fun y => y.sess.tr == x.tr).length < sessionLimit x.tr →
      Does (.keyExchange x) s fun e => e.session x = some { sess := x } ∧ ∃ o, s.dev.Sent e (.spdm x 0 o)) ∧
    (x.id ≠ 0 → s.dev.session x = none → sessionLimit x.tr ≤ (s.dev.sec.sessions.filter fun y => y.sess.tr == x.tr).length →
      Leaves (.keyExchange x) s (s.dev.emit (.spdm x 5 [])))) ∧
  (∀ (x : Sess) (s : State), s.dev.SpdmHeard x → ∀ y, s.dev.session x = some y → y.finished = false →
    Leaves (.getEncapsulatedRequest x) s (s.dev.emit (.spdm x 0 [])) ∧
    Leaves (.finish x true) s ((s.dev.setSession x fun z => { z with finished := true }).emit (.spdm x 0 [])) ∧
    Leaves (.finish x false) s ((s.dev.dropSession x).emit (.spdm x 6 [])) ∧
    (∀ p r, x.tr = .link p → s.dev.cfg.active.poolRoot ≠ some r ∨ s.dev.led.chain = [] → Does (.deliverEncapsulatedResponse x r true) s fun e =>
      e.Pending 176 ∧ e.session x = none) ∧
    (∀ p r, x.tr = .link p → s.dev.cfg.active.poolRoot = some r → s.dev.led.chain ≠ [] → Leaves (.deliverEncapsulatedResponse x r true) s
      ((s.dev.setSession x fun z => { z with bothAuth := true }).emit (.spdm x 0 []))) ∧
    (∀ r, x.tr = .mctp → Leaves (.deliverEncapsulatedResponse x r true) s
      ((s.dev.setSession x fun z => { z with bothAuth := true, kmRoot := s.dev.cfg.primed.kmRoot == some r }).emit (.spdm x 0 [])))) ∧
  (∀ (x : Sess) (s : State), s.dev.SpdmHeard x → x.tr ≠ .mctp →
    (s.dev.InSession x → Leaves (.keyUpdate x) s (s.dev.emit (.spdm x 0 [])) ∧ Leaves (.heartbeat x) s (s.dev.emit (.spdm x 0 [])) ∧
      Leaves (.endSession x) s ((s.dev.dropSession x).emit (.spdm x 0 []))) ∧
    (¬ s.dev.InSession x → ∀ c ∈ [Instr.keyUpdate x, .heartbeat x, .endSession x], Leaves c s (s.dev.emit (.spdm x 1 []))))

/-- R149 to R156 and R162: a key message outside a finished, mutually authenticated session of the key manager is refused; a Set Key, Retire
Domain or Erase Domain takes the domain's state on, an erased key is gone, and a domain that no page names becomes Empty. -/
def Obligations.KeyMessagesAndDomains : Prop :=
  (∀ (x : Sess) (r : List Byte) (h : Nat) (s : State), s.dev.SpdmHeard x → x.tr = .doe h →
    (¬ ∃ y, s.dev.session x = some y ∧ y.finished = true ∧ y.bothAuth = true ∧ y.kmRoot = true) →
    ∀ c ∈ [Instr.setKey x r, .retireDomain x r, .eraseDomain x r, .getDomainStatus x r], Leaves c s (s.dev.emit (.spdm x 1 []))) ∧
  (∀ (x : Sess) (r : List Byte) (h n : Nat) (s : State) (y : Session), s.dev.SpdmHeard x → x.tr = .doe h → s.dev.session x = some y →
    y.finished = true → y.bothAuth = true → y.kmRoot = true → s.dev.sec.keyq = [] → s.dev.keyBusy = false → n = fieldAt r 2 2 →
    (s.dev.hasEnc = false → ∀ c ∈ [(Instr.setKey x r, 1), (.retireDomain x r, 2), (.eraseDomain x r, 3), (.getDomainStatus x r, 4)],
      Leaves c.1 s (s.dev.keyReply x c.2 4 n)) ∧
    (s.dev.keyRefused 1 r = none → fieldAt r 1 1 = 0 → Leaves (.setKey x r) s (s.dev.setKd n fun k => { k with
      pend := 1, pk1 := BitVec.ofNat 256 (fieldAt r 8 32), pk2 := BitVec.ofNat 256 (fieldAt r 40 32), sess := some x })) ∧
    (s.dev.keyRefused 1 r = none → fieldAt r 1 1 = 1 → Leaves (.setKey x r) s
      (({ s.dev with free := s.dev.free + 2 }).setKd n fun k => { k with
        pend := 1, pk1 := Config.freeKey s.dev.free, pk2 := Config.freeKey (s.dev.free + 1), sess := some x })) ∧
    (s.dev.keyRefused 2 r = none → Leaves (.retireDomain x r) s (s.dev.setKd n fun k => { k with pend := 2, sess := some x })) ∧
    (s.dev.keyRefused 3 r = none → Leaves (.eraseDomain x r) s
      ((s.dev.setKd n fun k => { k with erasing := true, sess := some x }).dropDomain n)) ∧
    (s.dev.keyRefused 4 r = none → Leaves (.getDomainStatus x r) s (s.dev.emit (.spdm x 0 (leBytes 1 132 ++ leBytes 1 0 ++ leBytes 2 n ++
      leBytes 1 (s.dev.kdSt n).num ++ leBytes 3 0 ++ leBytes 8 (s.dev.kdomRefs n)))))) ∧
  (∀ (s : State) (n : Nat), (s.dev.kd n).erasing = true → s.dev.sec.keyq = [] → Does (.eraseInvalidationDone n) s fun e =>
    (e.kd n).st = .erased ∧ (e.kd n).k1 = 0#256 ∧ (e.kd n).k2 = 0#256 ∧ (e.kd n).erasing = false) ∧
  (∀ (s : State) (n : Nat), n ≠ 0 → (s.dev.kd n).st = .retiring ∨ (s.dev.kd n).st = .erased → (s.dev.kd n).erasing = false →
    (s.dev.kdomRefs n = 0 → Raises (.domainKeyEmpty n) s 102 (s.dev.setKd n fun k => { k with st := .empty, k1 := 0#256, k2 := 0#256 })) ∧
    (s.dev.kdomRefs n ≠ 0 → Leaves (.domainKeyEmpty n) s s.dev))

/-- R318 to R321, R324, R328: ownership messages burn what they claim only with their signatures and in their lifecycle state, the refusals
listed leave the device as it is, and the rollback floor rises to the active image's version. -/
def Obligations.OwnershipCertificatesAndFloor : Prop :=
  (∀ (x : Sess) (r : List Byte) (h : Nat) (s : State), s.dev.SpdmHeard x → s.dev.InSession x → x.tr = .doe h →
    ∀ c ∈ [(Instr.claimOwnership x r, 0xA0), (.transferOwnership x r, 0xA1), (.decommission x r, 0xA3)],
      Leaves c.1 s (s.dev.emit (.spdm x 0 (leBytes 1 c.2 ++ leBytes 1 4)))) ∧
  (∀ (x : Sess) (r key : List Byte) (s : State) (d : Dev), s.dev.SpdmHeard x → s.dev.InSession x → x.tr = .mctp → d = s.dev.wake 5 0 →
    key = sub r 8 64 →
    (r.length ≠ 136 → Leaves (.claimOwnership x r) s (d.emit (.spdm x 0 (leBytes 1 0xA0 ++ leBytes 1 2)))) ∧
    (r.length = 136 → d.lifecycle ≠ 1 → Leaves (.claimOwnership x r) s (d.emit (.spdm x 0 (leBytes 1 0xA0 ++ leBytes 1 1)))) ∧
    (r.length = 136 → d.lifecycle = 1 → d.prim ≠ .primed → d.nextOwner = 0 → d.nvmWritable = true →
      Config.ecdsaVerify key (sub r 72 64) (Config.sha256 (leBytes 8 d.serial.toNat ++ key)) = true →
      Does (.claimOwnership x r) s fun e => e.Pending 170 ∧ e.otp = { d.otp with owners := [(true, Config.sha256 key)] } ∧
        d.Sent e (.spdm x 0 (leBytes 1 0xA0 ++ leBytes 1 0))) ∧
    (r.length = 200 → d.lifecycle ≠ 2 → Leaves (.transferOwnership x r) s (d.emit (.spdm x 0 (leBytes 1 0xA1 ++ leBytes 1 1)))) ∧
    (∀ i h dig, r.length = 200 → d.lifecycle = 2 → d.currentOwner = some (i, h) → d.nextOwner < 4 → d.nvmWritable = true →
      dig = Config.sha256 (leBytes 8 d.serial.toNat ++ key ++ leBytes 1 i) → Config.ecdsaVerify key (sub r 72 64) dig = true →
      (hashVerify h (sub r 136 64) dig = true → Does (.transferOwnership x r) s fun e => e.Pending 170 ∧
        e.otp.owners = d.otp.owners ++ List.replicate (d.nextOwner - d.otp.owners.length) (false, 0#256) ++ [(true, Config.sha256 key)]) ∧
      (hashVerify h (sub r 136 64) dig = false →
        Leaves (.transferOwnership x r) s (d.emit (.spdm x 0 (leBytes 1 0xA1 ++ leBytes 1 2))))) ∧
    (∀ k j, k = fieldAt r 1 1 → j = fieldAt r 2 1 → r.length = 136 → k < j → j < 4 → d.nvmWritable = true → d.vendorKeyOk j key = true →
      Config.ecdsaVerify key (sub r 72 64) (Config.sha256 (leBytes 1 0x22 ++ leBytes 1 k)) = true → Does (.revokeVendorKey x r) s fun e =>
        e.Pending 171 ∧ e.otp = { d.otp with revoke := d.otp.revoke ||| (1#4 <<< k) }) ∧
    (r.length = 136 → fieldAt r 2 1 ≤ fieldAt r 1 1 ∨ 4 ≤ fieldAt r 2 1 →
      Leaves (.revokeVendorKey x r) s (d.emit (.spdm x 0 (leBytes 1 0xA2 ++ leBytes 1 3)))) ∧
    (∀ i h, r.length = 136 → d.lifecycle = 2 → d.currentOwner = some (i, h) → d.nvmWritable = true →
      hashVerify h (sub r 72 64) (Config.sha256 (leBytes 8 d.serial.toNat ++ leBytes 1 0x23)) = true → Leaves (.decommission x r) s
        (({ d with otp := { d.otp with lifecycle := 3, uds := BitVec.allOnes 256 } }).emit (.spdm x 0 (leBytes 1 0xA3 ++ leBytes 1 0))))) ∧
  (∀ (x : Sess) (slot : Nat) (ch : List Byte) (s : State), s.dev.SpdmHeard x →
    (x.tr ≠ .mctp ∨ slot ≠ 1 ∨ 4096 < ch.length ∨ ch = [] → Leaves (.setCertificate x slot ch) s (s.dev.emit (.spdm x 2 []))) ∧
    (x.tr = .mctp → slot = 1 → ch.length ≤ 4096 → ch ≠ [] → s.dev.InSession x → Config.chainVerify ch = true →
      Config.chainLeafKey ch = Config.deviceKey s.dev.otp.uds → s.dev.cfg.active.poolRoot = some (Config.chainRootHash ch) →
      Leaves (.setCertificate x slot ch) s ((s.dev.writeLed fun l => { l with chain := ch }).emit (.spdm x 0 [])))) ∧
  (∀ (s : State) (v : Nat), v = s.dev.cfg.active.secVersion → s.dev.prim = .primed →
    (s.dev.floorNow < v → s.dev.sec.activeAt + s.dev.fld 0x448 15 0 * 2 ^ 20 ≤ s.dev.time.loc → Does .floorRise s fun e => e.Pending 172 ∧
      e.led.floor = v ∧ e.Agrees s.dev) ∧
    (v ≤ s.dev.floorNow → Leaves .floorRise s s.dev))

/-- R330 and R331: a challenge is used once; a bad Unlock counts towards the lockout and raises EV174, a good one opens its scopes at the next
boundary for its duration; Relock and the expiry close scopes 0 to 2 with EV175. -/
def Obligations.DebugUnlockAndRelock : Prop :=
  (∀ p, p.length = 1 → Effect (.getChallenge ⟨.mctp, p⟩) .mctp fun d =>
    (({ d with free := d.free + 1 }).setSec fun c => { c with nonce := some (Config.freeKey d.free) }).reply .mctp .success 0
      (digestBytes (Config.freeKey d.free) ++ leBytes 8 d.serial.toNat ++ leBytes 1 d.sec.scope.toNat)) ∧
  (∀ (p : List Byte) (s : State) (d : Dev), Accepted (.unlock .mctp p) s .mctp d → p.length = 137 → zeros (sub p 2 2) = true →
    (∀ u, d.sec.lockUntil = some u → d.time.loc < u → Leaves (.unlock .mctp p) s (d.reply .mctp .busy)) ∧
    (d.sec.lockUntil = none →
      (16 ≤ fieldAt p 1 1 ∨ d.unlockOk p = false → Does (.unlock .mctp p) s fun e => e.Pending 174 ∧ e.sec = { d.sec with
        nonce := none, fails := d.sec.fails + 1, lockUntil := if d.sec.fails = 7 then some (d.time.loc + 2 ^ 20) else none } ∧
        d.Sent e (.cci .mctp .invalidInput 0 [])) ∧
      (fieldAt p 1 1 < 16 → d.unlockOk p = true → fieldAt p 4 4 = 0 ∨ 4096 < fieldAt p 4 4 → Leaves (.unlock .mctp p) s
        ((d.setSec fun c => { c with nonce := none }).reply .mctp .invalidInput)) ∧
      (fieldAt p 1 1 < 16 → d.unlockOk p = true → 1 ≤ fieldAt p 4 4 → fieldAt p 4 4 ≤ 4096 → Leaves (.unlock .mctp p) s
        ((d.setSec fun c => { c with
            nonce := none, fails := 0, dbgEver := true
            scopePend := some (BitVec.ofNat 4 (fieldAt p 1 1), fieldAt p 4 4 * 2 ^ 20) }).reply
          .mctp .success 0 (leBytes 1 d.sec.scope.toNat))))) ∧
  (∀ (s : State) (u : Nat), s.dev.sec.lockUntil = some u →
    (u ≤ s.dev.time.loc → Leaves .unlockLockoutExpiry s (s.dev.setSec fun c => { c with lockUntil := none, fails := 0 })) ∧
    (s.dev.time.loc < u → Leaves .unlockLockoutExpiry s s.dev)) ∧
  (∀ (p : List Byte) (s : State) (d : Dev), p.length = 1 → Accepted (.relock ⟨.mctp, p⟩) s .mctp d → Does (.relock ⟨.mctp, p⟩) s fun e => e.sec.scope &&& 7#4 = 0#4 ∧
    e.sec.scope &&& 8#4 = d.sec.scope &&& 8#4 ∧ (d.sec.scope &&& 7#4 ≠ 0#4 → e.Pending 175) ∧ d.Sent e (.cci .mctp .success 0 [])) ∧
  (∀ s : State, s.dev.sec.scope &&& 7#4 ≠ 0#4 →
    (s.dev.sec.expiry ≤ s.dev.pool → Raises .debugScopeExpiry s 175 (s.dev.setSec fun c => { c with scope := c.scope &&& 8#4, expiry := 0 })) ∧
    (s.dev.pool < s.dev.sec.expiry → Leaves .debugScopeExpiry s s.dev))

/-- R30 to R34 and R333: a reset of the control complex ends the sessions and puts the cores away, its cause is counted and raises its event,
a third one within 10 s halts them, and halted cores stay so; the cores come back only with firmware that still verifies. -/
def Obligations.ManagementCoresResetAndReturn : Prop :=
  (∀ (s : State) (b : Bool), s.dev.cores.halted = true → ∀ c ∈ [Instr.controlComplexReset b, .lockstepMismatch, .coreWatchdogExpiry,
    .uncorrectableFetch, .coresResume], Leaves c s s.dev) ∧
  (∀ (s : State) (b : Bool), s.dev.cores.halted = false → s.dev.sec.scope.getLsbD 2 = false →
    ∀ c ∈ [Instr.controlComplexReset b, .lockstepMismatch, .coreWatchdogExpiry, .uncorrectableFetch], Does c s fun e =>
      e.cores.away = true ∧ e.sec.sessions = [] ∧ e.sec.keyq = [] ∧ e.sec.nonce = none ∧ e.sec.scope &&& 7#4 = 0#4 ∧ e.dram = s.dev.dram ∧
      (e.cores.halted = true ↔ 2 ≤ (s.dev.cores.resets.filter fun t => decide (s.dev.time.loc < t + 10000000)).length)) ∧
  (∀ s : State, s.dev.cores.halted = false →
    (Does .lockstepMismatch s fun e => e.Pending 8 ∧ e.cores.mismatch = satInc 255 s.dev.cores.mismatch) ∧
    (Does .uncorrectableFetch s fun e => e.Pending 10 ∧ e.cores.fetchUe = satInc 255 s.dev.cores.fetchUe) ∧
    (s.dev.sec.scope.getLsbD 2 = true → Leaves .coreWatchdogExpiry s s.dev) ∧
    (s.dev.sec.scope.getLsbD 2 = false → Does .coreWatchdogExpiry s fun e => e.Pending 9 ∧ e.cores.wdog = satInc 255 s.dev.cores.wdog)) ∧
  (∀ s : State, s.dev.cores.halted = false → s.dev.cores.away = true →
    (s.dev.prim = .primed → s.dev.firmwareOk s.dev.cfg.primedSlot = false → Does .coresResume s fun e => e.Pending 11 ∧
      e.cores.halted = true ∧ e.cores.away = true) ∧
    (s.dev.prim ≠ .primed → Does .coresResume s fun e => e.cores.away = false ∧ e.cores.queue = [])) ∧
  (∀ s : State, s.dev.cores.away = false → Leaves .coresResume s s.dev)

/-- R419 to R422: a module comes up at its rate and a second training counts as a retrain with EV220; a flit with a bad CRC is counted and
answered with a retry, a malformed message is discarded with EV007, or with EV225 where it is the guest's; credits that return are added. -/
def Obligations.ChrotenModulesFlitsAndCredits : Prop :=
  (∀ (s : State) (m rate : Nat) (rep : Bool), s.dev.modPresent m = true → (s.dev.modu m).st = 0 ∨ (s.dev.modu m).st = 1 → 1 ≤ rate →
    rate ≤ 6 → s.dev.gst.kept = [] →
    ((s.dev.modu m).trained = false → Leaves (.chrotenModuleUp m rate rep) s (s.dev.setMod m fun y => { y with
      st := 2, rate := rate, repaired := rep, trained := true })) ∧
    ((s.dev.modu m).trained = true → Raises (.chrotenModuleUp m rate rep) s 220 (s.dev.setMod m fun y => { y with
      st := 2, rate := rate, repaired := rep, retrains := satInc 255 y.retrains }))) ∧
  (∀ (s : State) (m rate : Nat) (rep : Bool), s.dev.modPresent m = false ∨ (s.dev.modu m).st = 4 ∨ rate = 0 ∨ 6 < rate →
    Leaves (.chrotenModuleUp m rate rep) s s.dev) ∧
  (∀ (s : State) (m op size : Nat), s.dev.modPresent m = true → (s.dev.modu m).st = 2 →
    (Does (.chrotenFlitReceive m false op size) s fun e => e.Pending 222 ∧ (e.modu m).retries = satInc 255 (s.dev.modu m).retries ∧
      s.dev.Sent e (.chroten m 1)) ∧
    (chrotenSlots op ≠ 0 → size + 1 = chrotenSlots op → Leaves (.chrotenFlitReceive m true op size) s s.dev) ∧
    (chrotenSlots op = 0 ∨ size + 1 ≠ chrotenSlots op → modTile m ≠ 10 → Raises (.chrotenFlitReceive m true op size) s 7 s.dev) ∧
    (chrotenSlots op = 0 ∨ size + 1 ≠ chrotenSlots op → modTile m = 10 → Raises (.chrotenFlitReceive m true op size) s 225
      (s.dev.setGst fun g => { g with violations := satInc 65535 g.violations })) ∧
    (s.dev.gst.kept = [] → ∀ slots, Does (.creditReturn m slots) s fun e => e = (s.dev.setMod m fun x => { x with
        credits := (e.modu m).credits }) ∧ (e.modu m).credits.length = (s.dev.modu m).credits.length ∧
      ∀ i < (s.dev.modu m).credits.length, (e.modu m).credits.getD i 0 = (s.dev.modu m).credits.getD i 0 + slots.getD i 0)) ∧
  (∀ (s : State) (m op size : Nat) (ok : Bool) (l : List Nat), (s.dev.modu m).st ≠ 2 →
    Leaves (.chrotenFlitReceive m ok op size) s s.dev ∧ Leaves (.creditReturn m l) s s.dev)

/-- R427, R428, R436, R437, R441: the guest is released 1 ms after its reset began, attaches with a valid Attach, fails when it does not, when
it detaches, when it loses its modules or does not resume; a failed guest goes back into reset on a reattach. R442 and R443: register
accesses of the guest complete in the order in which they were sent, or are refused 2 µs after they were sent with EV226; a register
access packet of the guest is discarded and counted. -/
def Obligations.GuestLifeAndRegisterAccesses : Prop :=
  ((∀ s : State, s.dev.gst.st = 0 →
    (s.dev.hasGuest = true → s.dev.gst.rstAt + 1000 ≤ s.dev.time.loc → Leaves .guestResetRelease s ((s.dev.setGst fun g => { g with
      st := 1, relAt := s.dev.time.loc, noneUp := s.dev.time.loc }).emit (.gtRst false))) ∧
    (s.dev.hasGuest = false ∨ s.dev.time.loc < s.dev.gst.rstAt + 1000 → Leaves .guestResetRelease s s.dev)) ∧
  (∀ (s : State) (i c : BitVec 32) (cr : List Nat), s.dev.gst.st = 1 → s.dev.gst.failPend = none →
    (s.dev.attachOk c cr = true → s.dev.prim ≠ .waiting → Does (.attach i c cr) s fun e => e.Pending 223 ∧ e.gst.st = 2 ∧ e.gst.idReg = i ∧
      e.gst.caps = c ∧ e.gst.coherent = c.getLsbD 31 ∧ (∀ m ∈ guestMods, (e.modu m).credits = cr) ∧ s.dev.Sent e (.side 3 0 s.dev.pool)) ∧
    (s.dev.attachOk c cr = false → Does (.attach i c cr) s fun e => e.Pending 226 ∧ e.gst.st = 1 ∧ e.gst.failPend = some 5) ∧
    (s.dev.gst.relAt + 50000 ≤ s.dev.time.loc → Does .attachTimeout s fun e => e.Pending 226 ∧ e.gst.failPend = some 5) ∧
    (s.dev.time.loc < s.dev.gst.relAt + 50000 → Leaves .attachTimeout s s.dev)) ∧
  (∀ (s : State) (i c : BitVec 32) (cr : List Nat), s.dev.gst.st ≠ 1 → Leaves (.attach i c cr) s s.dev ∧ Leaves .attachTimeout s s.dev) ∧
  (∀ s : State, s.dev.gst.st = 2 → s.dev.gst.failPend = none →
    (Does .detach s fun e => e.gst.failPend = some 2 ∧ e.gst.st = 2) ∧
    (s.dev.anyGuestMod = false → s.dev.gst.noneUp + 64 ≤ s.dev.time.loc → Does .guestModuleLoss s fun e => e.gst.failPend = some 1) ∧
    (s.dev.anyGuestMod = true ∨ s.dev.time.loc < s.dev.gst.noneUp + 64 → Leaves .guestModuleLoss s s.dev) ∧
    (∀ t, s.dev.gst.resumeWait = some t → t + 10 ≤ s.dev.time.loc → Does .resumedTimeout s fun e => e.Pending 226 ∧
      e.gst.failPend = some 4 ∧ e.gst.resumeWait = none)) ∧
  (∀ s : State, s.dev.gst.st ≠ 2 → Leaves .detach s s.dev ∧ Leaves .guestModuleLoss s s.dev) ∧
  (∀ (src : Src) (s : State), s.dev.regOk src = true → s.dev.hasGuest = true →
    (s.dev.gst.st = 3 → Leaves (.reattach src) s ((s.dev.setGst fun g => { g with
      st := 0, rstAt := s.dev.time.loc, failPend := none, kept := [], resumeWait := none }).emit (.gtRst true))) ∧
    (s.dev.gst.st ≠ 3 → Leaves (.reattach src) s s.dev)) ∧
  (∀ s : State, s.dev.gst.resumeWait ≠ none → s.dev.gst.kept = [] →
    (s.dev.guestModsUp ≠ [] → Leaves .resumed s (s.dev.setGst fun g => { g with resumeWait := none })) ∧
    (s.dev.guestModsUp = [] → Leaves .resumed s s.dev))) ∧
  ((∀ (s : State) (a : GAccess) (v : BitVec 64), s.dev.gst.access = [a] → a.abandoned = false →
    Leaves (.guestAccessCompletion v) s ((s.dev.setGst fun g => { g with access := [] }).reply a.src .success 0
      (if a.write then [] else leBytes 8 (v.toNat % 2 ^ (8 * a.size)))) ∧
    (a.at_ + 2 ≤ s.dev.time.loc → Does .guestAccessTimeout s fun e => e.Pending 226 ∧ e.gst.access = [] ∧
      s.dev.Sent e (.cci a.src .invalidInput 0x0101 [])) ∧
    (s.dev.time.loc < a.at_ + 2 → Leaves .guestAccessTimeout s s.dev)) ∧
  (∀ (s : State) (a b : GAccess) (t : List GAccess) (v : BitVec 64), s.dev.gst.access = a :: b :: t → a.abandoned = false →
    Does (.guestAccessCompletion v) s fun e => e.gst.access = { b with at_ := s.dev.time.loc } :: t ∧
      s.dev.Sent e (.side (if b.write then 5 else 4) b.off b.val)) ∧
  (∀ s : State, (s.dev.hasGuest = true → Leaves .guestRegisterAccessPacket s (s.dev.setGst fun g => { g with
      violations := satInc 65535 g.violations })) ∧
    (s.dev.hasGuest = false → Leaves .guestRegisterAccessPacket s s.dev)))

/-- R424, R426, R429, R430, R434: an attached guest's coherent request of a member's line, and its uncached request inside a view, are handed
to the home of the line; one outside both views raises EV067, is counted and stores nothing, a coherent one of a line that is not its
domains' fails the guest. -/
def Obligations.GuestRequestsAreServedOrRefused : Prop :=
  (∀ (s : State) (tag addr : Nat) (mv : MetaV) (h : Hint) (mask : BitVec 64) (x : Line),
    ∀ c ∈ [(Instr.guestMemRd tag addr mv, readKind mv, mv != .i), (.guestMemRdData tag addr, .anyRead, true),
      (.guestMemInv tag addr mv, .ownNoData false, true), (.guestMemInvNT tag addr mv, .ownNoData true, true),
      (.guestMemWr tag addr mv h x, .write (BitVec.allOnes 64) x true mv h, false), (.guestMemWrPtl tag addr mv h mask x, .write mask x false mv h, false),
      (.guestMemClnEvct tag addr, .cleanEvict, true)],
    (s.dev.gst.st ≠ 2 ∨ s.dev.gst.failPend ≠ none → Leaves c.1 s s.dev) ∧
    (s.dev.gst.st = 2 → s.dev.gst.failPend = none →
      (c.2.2 = true → s.dev.guestMember (addr / 64) = true → Leaves c.1 s
        (s.dev.request { rq := .guest, tag := tag, line := addr / 64, kind := c.2.1 })) ∧
      (c.2.2 = true → s.dev.guestMember (addr / 64) = false → Does c.1 s fun e => e.Pending 225 ∧ e.gst.failPend = some 3 ∧
        e.gst.violations = satInc 65535 s.dev.gst.violations) ∧
      (c.2.2 = false → s.dev.guestViews (addr / 64) = true → Leaves c.1 s
        (s.dev.request { rq := .guest, tag := tag, line := addr / 64, kind := c.2.1, extra := c.2.1.isWrite })) ∧
      (c.2.2 = false → s.dev.guestViews (addr / 64) = false → Does c.1 s fun e => e.Pending 67 ∧ e.gst.failPend = none ∧
        e.gst.oov = satInc 65535 s.dev.gst.oov ∧ e.dram = s.dev.dram))) ∧
  (∀ (s : State) (addr : Nat) (r : SnpRsp), s.dev.gst.st = 2 → s.dev.gst.failPend = none →
    (s.dev.remoteHome (addr / 64) = none → Leaves (.guestBIRsp addr r) s
      (s.dev.snoopResponse s.dev.devId (s.dev.groupOf (lnPage (addr / 64))) 16 (addr / 64) r)) ∧
    (s.dev.guestMember (addr / 64) = true → s.dev.remoteHome (addr / 64) = none → Leaves (.guestBIConflict addr) s
      (s.dev.respond1 .guest 0 (addr / 64) .conflictAck 0#512 false)) ∧
    (s.dev.guestMember (addr / 64) = false → Does (.guestBIConflict addr) s fun e => e.Pending 225 ∧ e.gst.failPend = some 3)) ∧
  (∀ (s : State) (addr n : Nat) (x : Hold), n = s.dev.home (lnPage (addr / 64)) →
    (s.dev.hsl n).holds.find? (fun x => x.line == addr / 64 && x.push) = some x →
    Leaves (.pushReply addr false) s (s.dev.setHs n fun h => { h with holds := h.holds.filter fun y => y.line != addr / 64 }) ∧
    ((s.dev.hsl n).setFull (addr / 64) = false → Leaves (.pushReply addr true) s (s.dev.setHs n fun h =>
      { h.grant (addr / 64) x.dev x.group .s [16] with holds := (h.grant (addr / 64) x.dev x.group .s [16]).holds.filter fun y => y.line != addr / 64 })) ∧
    ((s.dev.hsl n).setFull (addr / 64) = true → Leaves (.pushReply addr true) s
      ((s.dev.setHs n fun h => h.setHold (addr / 64) fun y => { y with push := false, accept := true }).settle n 64)))

/-- R27, R28, R58 to R60, R187: PERST_N and the loss of a link reset the head's port and bring down the domains of which it is a member; a
link comes up within its limits, its host reads the function (log entry 83), and a link below them is recorded with EV064. R56, R63, R81,
R83, R84: a head's decoder commits only where it is supported, its LTR values are kept and wake the device where the smallest tolerance
falls, its IDE stream is Secure once keyed in a session and Insecure after an integrity failure, and its tables name the capacity that it
sees. -/
def Obligations.HostLinksDecodersAndIde : Prop :=
  ((∀ (s : State) (h : Nat), h < s.dev.nHosts → s.dev.therm.latched = false → (s.dev.head h).portQ = [] →
      (∀ n < s.dev.nHs, (s.dev.hsl n).writesOf (.head h) = []) →
    ((s.dev.head h).perst = false → Does (.perstAssertion h) s fun e => (e.head h).perst = true ∧ (e.head h).up = false ∧
      (e.head h).rate = 0 ∧ (e.head h).decoders = [] ∧ (e.head h).ide = 0 ∧ (e.head h).restReq = false ∧
      (e.head h).blocks = (s.dev.head h).blocks ∧ (∀ r ∈ e.reads, r.rq ≠ .head h) ∧
      (∀ x ∈ e.sec.sessions, x.sess.tr ≠ .doe h) ∧ e.dram = s.dev.dram ∧
      (∀ g, 0 < g → g < 256 → (s.dev.dom g).members.getLsbD h = true → (s.dev.dom g).st = .up → (s.dev.dom g).detected = none →
        (e.dom g).detected = some (1, h, s.dev.pool))) ∧
    ((s.dev.head h).perst = false → (s.dev.head h).up = true → Does (.hostLinkDown h) s fun e => e.Pending 65 ∧ (e.head h).up = false ∧
      (e.head h).decoders = [] ∧ (e.head h).perst = false ∧ ∀ r ∈ e.reads, r.rq ≠ .head h) ∧
    ((s.dev.head h).perst = true → Leaves (.perstDeassertion h) s
      ((s.dev.setHead h fun x => { x with perst := false, retrains := 0 }).wake 4 h)) ∧
    ((s.dev.head h).perst = true → Leaves (.perstAssertion h) s s.dev) ∧
    ((s.dev.head h).perst = false → Leaves (.perstDeassertion h) s s.dev) ∧ ((s.dev.head h).up = false → Leaves (.hostLinkDown h) s s.dev)) ∧
  (∀ (s : State) (h rate width : Nat), h < s.dev.nHosts → (s.dev.head h).perst = false → s.dev.therm.latched = false →
    s.dev.resetHeld = false → (s.dev.head h).held = false → s.dev.sup.held.contains (2 + h / 4) = false → 1 ≤ rate → rate ≤ 5 →
    rate ≤ s.dev.linkCtl h 31 28 → 1 ≤ width → width ≤ 5 → ∀ low : Bool,
    low = (decide (rate < s.dev.linkCtl h 27 24) || decide (width < s.dev.linkCtl h 23 20)) → ∀ f e : Dev,
    f = (s.dev.setHead h fun x => { x with
      up := true, rate := rate, width := width, cxl := decide (2 ≤ rate)
      retrains := if x.up then satInc 65535 x.retrains else x.retrains, degraded := x.degraded || low }).joinDomains h →
    e = f.emit (.function h f.fnConfig) →
    (low = false → Leaves (.hostLinkUp h rate width) s e) ∧ (low = true → Raises (.hostLinkUp h rate width) s 64 e)) ∧
  (∀ (s : State) (h rate width : Nat), (s.dev.head h).perst = true ∨ s.dev.therm.latched = true ∨ rate = 0 ∨
    s.dev.linkCtl h 31 28 < rate → Leaves (.hostLinkUp h rate width) s s.dev)) ∧
  ((∀ (s : State) (h i : Nat) (x : Decoder), h < s.dev.nHosts → i < 8 → (s.dev.head h).up = true →
    (s.dev.prim = .primed → decoderOk x = true → x.bi = true ∨ s.dev.coversShared h x.dpaBase (x.size / x.ways) = false →
      Leaves (.hdmDecoderCommit h i x) s ((s.dev.setHead h fun y => { y with decoders := Tbl.put y.decoders i x }).emit (.decoder h i true))) ∧
    (s.dev.prim ≠ .primed ∨ decoderOk x = false ∨ (x.bi = false ∧ s.dev.coversShared h x.dpaBase (x.size / x.ways) = true) →
      Leaves (.hdmDecoderCommit h i x) s (s.dev.emit (.decoder h i false)))) ∧
  (∀ (s : State) (h a b : Nat) (en : Bool) (f e : Dev), f = (s.dev.setHead h fun x => { x with ltrEn := en, snoopNs := a, noSnoopNs := b }) →
    e = (if en then f.emit (.ltr h) else f) →
    (s.dev.attached h = true → s.dev.minTol ≤ e.minTol → Leaves (.ltrConfigWrite h en a b) s e) ∧
    (s.dev.attached h = true → e.minTol < s.dev.minTol → Leaves (.ltrConfigWrite h en a b) s (e.wake 8 h)) ∧
    (s.dev.attached h = false → Leaves (.ltrConfigWrite h en a b) s s.dev)) ∧
  (∀ (s : State) (h : Nat), (s.dev.head h).up = true →
    (s.dev.sec.sessions.any (fun x => x.sess.tr == Transport.doe h && x.finished) = true →
      Leaves (.ideKeyProgram h ⟨true, false⟩) s (s.dev.setHead h fun x => { x with ide := 1 }) ∧
      Leaves (.ideKeyProgram h ⟨true, true⟩) s (s.dev.setHead h fun x => { x with ideIo := 1 })) ∧
    (∀ io, Leaves (.ideKeyProgram h ⟨false, io⟩) s s.dev) ∧
    (∀ io, (if io then (s.dev.head h).ideIo else (s.dev.head h).ide) = 1 → Does (.ideIntegrityFailure ⟨h, io⟩) s fun e => e.Pending 66 ∧
      (if io then (e.head h).ideIo else (e.head h).ide) = 2 ∧ (e.head h).up = true ∧
      ∀ g, 0 < g → g < 256 → (s.dev.dom g).members.getLsbD h = true → (s.dev.dom g).st = .up → (s.dev.dom g).detected = none →
        (e.dom g).detected = some (2, h, s.dev.pool)) ∧
    (∀ io, (if io then (s.dev.head h).ideIo else (s.dev.head h).ide) ≠ 1 → Leaves (.ideIntegrityFailure ⟨h, io⟩) s s.dev) ∧
    (s.dev.prim ≠ .primed → Leaves (.tableAccess h) s (s.dev.emit (.cdat h 0 190 70 (s.dev.head h).payload))) ∧
    (s.dev.prim = .primed → s.dev.staticOf h = none →
      Leaves (.tableAccess h) s (s.dev.emit (.cdat h (s.dev.cfg.capacity * 2 ^ 28) 190 70 (s.dev.head h).payload)))))

/-- R21, R24, R58, R63, R64, R84, R85, R161, R176, R178, R180, R386: a host's request is discarded by a port that does not serve, answered by
the port before priming, raises the view's event and stores nothing outside the head's decoders (DEDUCED, log entry 78) and view, and
otherwise goes to the home of the line that its address names, within the caps of an enforced throttle; BIRsp and BIConflict go to the
home too. -/
def Obligations.HostRequestsAreAnsweredOrSentHome : Prop :=
  (∀ (s : State) (h tag hpa : Nat) (mv : MetaV) (mask : BitVec 64) (x : Line),
    ∀ c ∈ [(Instr.m2sMemRd h tag hpa mv, readKind mv), (.m2sMemRdData h tag hpa, .anyRead), (.m2sMemInv h tag hpa mv, .ownNoData false),
      (.m2sMemInvNT h tag hpa mv, .ownNoData true),
      (.m2sMemWr h tag hpa mv x, .write (BitVec.allOnes 64) x true mv { kind := 0, tile := 0 }),
      (.m2sMemWrPtl h tag hpa mv mask x, .write mask x false mv { kind := 0, tile := 0 }), (.m2sMemClnEvct h tag hpa, .cleanEvict)],
    (s.dev.portLive h = false → Leaves c.1 s s.dev) ∧
    (s.dev.portLive h = true →
      (s.dev.prim ≠ .primed → Leaves c.1 s (s.dev.portAnswer h tag (hpa / 64) c.2)) ∧
      (s.dev.prim = .primed → s.dev.needsIde h = false → s.dev.portServes h = false → Leaves c.1 s s.dev) ∧
      (s.dev.prim = .primed → s.dev.needsIde h = true → Does c.1 s fun e => e.Pending 105 ∧
        (e.head h).oov = satInc (2 ^ 32 - 1) (s.dev.head h).oov ∧ e.dram = s.dev.dram ∧ e.wmap = s.dev.wmap) ∧
      (s.dev.prim = .primed → s.dev.portServes h = true →
        (s.dev.hostAddr h hpa = none → Does c.1 s fun e => e.Pending 67 ∧ (e.head h).oov = satInc (2 ^ 32 - 1) (s.dev.head h).oov ∧
          e.dram = s.dev.dram ∧ e.wmap = s.dev.wmap) ∧
        (∀ a, s.dev.hostAddr h hpa = some a → ∀ q : Req, q = { rq := .head h, tag := tag, line := a / 64, kind := c.2 } →
          (s.dev.therm.enforced = false → Leaves c.1 s ((s.dev.setHead h fun x =>
            if c.2.isWrite then { x with capIn := x.capIn + 1 } else { x with capOut := x.capOut + 1 }).request q)) ∧
          (s.dev.therm.enforced = true → (s.dev.head h).portQ ≠ [] → Leaves c.1 s
            (s.dev.setHead h fun x => { x with portQ := x.portQ ++ [q] })))))) ∧
  (∀ (s : State) (h hpa dpa : Nat) (r : SnpRsp) (line : Nat), s.dev.hdm h hpa = some dpa → line = (s.dev.headDpaBase h + dpa) / 64 →
    (s.dev.portServes h = true → s.dev.prim = .primed → s.dev.remoteHome line = none →
      Leaves (.m2sBIRsp h hpa r) s (s.dev.snoopResponse s.dev.devId (s.dev.groupOf (lnPage line)) h line r) ∧
      Leaves (.m2sBIConflict h hpa) s (s.dev.respond1 (.head h) 0 line .conflictAck 0#512 false)) ∧
    (s.dev.portServes h = false ∨ s.dev.prim ≠ .primed →
      Leaves (.m2sBIRsp h hpa r) s s.dev ∧ Leaves (.m2sBIConflict h hpa) s s.dev)) ∧
  (∀ (s : State) (h hpa : Nat) (r : SnpRsp), s.dev.hdm h hpa = none → Leaves (.m2sBIRsp h hpa r) s s.dev ∧ Leaves (.m2sBIConflict h hpa) s s.dev)

/-- R21, R22, R25, R26, R132, R133, R156, R183, R237, R239: a read of a T2 or T3 page waits for a decoder of its tile; one that ends takes its
line from the cistern, from the zeros of an unbacked page, or from the stored page, and answers poison where it is lost; an inline
promotion that ends puts its page in T1; evictions write a dirty granule back and free it, and a kept granule's time ends. -/
def Obligations.ReadsPromotionsAndEvictionsEnd : Prop :=
  (∀ (s : State) (id : Nat), s.dev.reads.find? (fun r => r.id == id) = none → Leaves (.readCompletion id) s s.dev) ∧
  (∀ (s : State) (id : Nat) (r : ReadIn), s.dev.reads.find? (fun r => r.id == id) = some r →
    s.dev.mayDecode (lnPage r.line) (s.dev.entry (lnPage r.line)).tier id = false → Leaves (.readCompletion id) s s.dev) ∧
  (∀ (s : State) (id : Nat) (r : ReadIn) (d : Dev), s.dev.reads.find? (fun r => r.id == id) = some r →
    s.dev.mayDecode (lnPage r.line) (s.dev.entry (lnPage r.line)).tier id = true →
    d = { s.dev with reads := s.dev.reads.filter fun x => x.id != id } →
    (r.failed = true → Leaves (.readCompletion id) s (d.poisonRead r.rq r.tag r.line r.rsp)) ∧
    (r.failed = false →
      (∀ l, d.lookup r.line = .data l → Leaves (.readCompletion id) s (d.respond r.rq r.tag r.line r.rsp l false)) ∧
      (d.lookup r.line = .zero → Leaves (.readCompletion id) s (d.respond r.rq r.tag r.line r.rsp 0#512 false)) ∧
      (d.lookup r.line = .poison → Leaves (.readCompletion id) s (d.poisonRead r.rq r.tag r.line r.rsp)) ∧
      (∀ x, d.lookup r.line = .miss → (d.entry (lnPage r.line)).remote = false → d.storedPage (d.entry (lnPage r.line)) = .error x →
        Leaves (.readCompletion id) s (d.readBroken r ((s.dev.homeDec (s.dev.homeTile (lnPage r.line)) id).getD (16 * s.dev.homeTile (lnPage r.line))) x)) ∧
      (∀ ls k, d.lookup r.line = .miss → (d.entry (lnPage r.line)).remote = false → (d.entry (lnPage r.line)).tier ≠ 0 →
        d.storedPage (d.entry (lnPage r.line)) = .ok (ls, k) → (ls.getD (lnIdx r.line) (0#512, true)).2 = false →
        Leaves (.readCompletion id) s ((d.fillFrom (lnPage r.line) 0 ls).respond r.rq r.tag r.line r.rsp
          (ls.getD (lnIdx r.line) (0#512, true)).1 false)))) ∧
  (∀ (s : State) (page : Nat), s.dev.promos.find? (fun x => x.page == page) = none → Leaves (.inlinePromotionEnd page) s s.dev) ∧
  (∀ (s : State) (page : Nat) (x : Promo) (d : Dev) (ls : List (Line × Bool)) (k : Nat),
    s.dev.promos.find? (fun x => x.page == page) = some x → d = { s.dev with promos := s.dev.promos.filter fun y => y.page != page } →
    (s.dev.mayDecode page x.old.tier x.id = false → Leaves (.inlinePromotionEnd page) s s.dev) ∧
    (s.dev.mayDecode page x.old.tier x.id = true → d.erasedPage x.old = true → Leaves (.inlinePromotionEnd page) s (d.promoErased x)) ∧
    (s.dev.mayDecode page x.old.tier x.id = true → d.erasedPage x.old = false → x.failed = true →
      Leaves (.inlinePromotionEnd page) s (d.promoLost x)) ∧
    (s.dev.mayDecode page x.old.tier x.id = true → d.erasedPage x.old = false → x.failed = false → d.storedPage x.old = .ok (ls, k) → Leaves (.inlinePromotionEnd page) s
      ((((d.setEntry page { d.entry page with
          st := .stable, owner := 0, tier := 0, raw := false, book := 0, loc := locT1 x.frame
          kdom := (d.attrs page).elim (d.entry page).kdom Region.kdom }).releaseStorage x.old).placePage
        page (d.pageView page ls)).promoWrite x))) ∧
  (∀ (s : State) (g : Nat) (ue : Bool), ((s.dev.gran g).v0 || (s.dev.gran g).v1) = true →
    ((s.dev.gran g).d0 = false → (s.dev.gran g).d1 = false → Leaves (.cisternEviction g ue) s (s.dev.setGran g {})) ∧
    (((s.dev.gran g).d0 || (s.dev.gran g).d1) = true → s.dev.evictable g = true →
      Leaves (.cisternEviction g ue) s ((s.dev.writeBack g ue).setGran g {})) ∧
    (((s.dev.gran g).d0 || (s.dev.gran g).d1) = true → s.dev.evictable g = false → Leaves (.cisternEviction g ue) s s.dev)) ∧
  (∀ (s : State) (g t : Nat), (s.dev.gran g).keep = some t →
    (t ≤ s.dev.time.loc → Leaves (.keepExpiry g) s (s.dev.setGran g { s.dev.gran g with keep := none })) ∧
    (s.dev.time.loc < t → Leaves (.keepExpiry g) s s.dev))

/-- R169 to R173 and R191: the arbiter admits only while the device is primed and awake, write-backs before the request that the order picks,
a corrupted directory entry is handled before it; an acknowledged line is released, and an overdue snoop or hold brings the line's domain
down with EV110. -/
def Obligations.AdmissionAndItsTimeouts : Prop :=
  (∀ (s : State) (n : Nat) (x : DirEcc), s.dev.nHs ≤ n ∨ s.dev.prim ≠ .primed ∨ s.dev.asleep = true →
    Leaves (.arbiterAdmission n x) s s.dev) ∧
  (∀ (s : State) (n : Nat) (q : Req), n < s.dev.nHs → s.dev.prim = .primed → s.dev.asleep = false → s.dev.pickOrdered n = some q →
    ((s.dev.linesRead n).any (fun l => ((s.dev.hsl n).ent l).isSome) = true →
      Leaves (.arbiterAdmission n .corrupt) s (s.dev.corruptDir n) ∧
      ∀ w, dirBad w = true → Leaves (.arbiterAdmission n (.word w)) s (s.dev.corruptDir n)) ∧
    ((s.dev.hsl n).noCredit = [] → s.dev.pickWriteBack n = none → ∀ d : Dev,
      d = (s.dev.setHs n fun h => h.unwait q) →
      ((d.admitReq q).2 = true → Leaves (.arbiterAdmission n .good) s ((d.admitReq q).1.useCredits n 256)) ∧
      ((d.admitReq q).2 = false → Leaves (.arbiterAdmission n .good) s ((d.admitReq q).1.setHs n fun h => { h with
        waiting := (s.dev.hsl n).waiting, bounced := h.bounced ++ [q] })))) ∧
  (∀ (s : State) (n : Nat) (x : DirEcc), n < s.dev.nHs → s.dev.prim = .primed → s.dev.asleep = false → s.dev.pickOrdered n = none →
    ((s.dev.hsl n).noCredit = [] → s.dev.pickWriteBack n = none → Leaves (.arbiterAdmission n x) s s.dev)) ∧
  (∀ (s : State) (line : Nat), s.dev.cas.fetchIn = [] →
    (s.dev.promos.any (fun x => x.req.line == line && !x.dropped) = true → Leaves (.transactionAcknowledged line) s s.dev) ∧
    (s.dev.promos.any (fun x => x.req.line == line && !x.dropped) = false → (s.dev.hsl (s.dev.home (lnPage line))).noCredit = [] →
      Leaves (.transactionAcknowledged line) s (s.dev.setHs (s.dev.home (lnPage line)) fun h => { h with
        holds := h.holds.filter fun x => !(x.line == line && x.responded && !x.push && !x.accept) }))) ∧
  (∀ (s : State) (line n : Nat), n = s.dev.home (lnPage line) →
    ((s.dev.hsl n).holds.find? (fun x => x.line == line && s.dev.domState x.dev x.group == 0 && x.snps.any fun y => decide (s.dev.snpTo ≤ y.age)) = none →
      Leaves (.snoopTimeout line) s s.dev) ∧
    (∀ x, (s.dev.hsl n).holds.find? (fun x => x.line == line && s.dev.domState x.dev x.group == 0 && x.snps.any fun y => decide (s.dev.snpTo ≤ y.age)) = some x →
      Does (.snoopTimeout line) s fun e => e.Pending 110 ∧ e.hs = s.dev.hs ∧
        (x.dev = s.dev.devId → (s.dev.dom x.group).st = .up → (s.dev.dom x.group).detected = none →
          ∃ who, (e.dom x.group).detected = some (3, who, s.dev.pool))) ∧
    ((s.dev.hsl n).holds.find? (fun x => x.line == line && s.dev.domState x.dev x.group == 0 && decide (s.dev.snpTo ≤ x.age)) = none → Leaves (.holdTimeout line) s s.dev) ∧
    (∀ x, (s.dev.hsl n).holds.find? (fun x => x.line == line && s.dev.domState x.dev x.group == 0 && decide (s.dev.snpTo ≤ x.age)) = some x →
      Does (.holdTimeout line) s fun e => e.Pending 110 ∧ e.hs = s.dev.hs ∧
        (x.dev = s.dev.devId → (s.dev.dom x.group).st = .up → (s.dev.dom x.group).detected = none →
          ∃ who, (e.dom x.group).detected = some (4, who, s.dev.pool))))

/-- R252 to R257 and R266: a cascade port trains step by step: it starts only when primed and enabled, its Hello is checked against its
configuration, it comes Up within its limits with EV150, and a step that takes too long or a lost signal takes it Down. -/
def Obligations.CascadeLinksTrain : Prop :=
  (∀ (s : State) (p : Nat), p < s.dev.nHosts → s.dev.prim = .primed → s.dev.sup.held.contains (2 + p / 4) = false →
    (bit (s.dev.portReg p).toNat 31 = true → (s.dev.port p).st = .down → (s.dev.port p).stepAt ≤ s.dev.time.loc →
      Leaves (.cascadeTrainingStart p) s (s.dev.trainFrom1 p)) ∧
    (bit (s.dev.portReg p).toNat 31 = false ∨ ((s.dev.port p).st = .down ∧ s.dev.time.loc < (s.dev.port p).stepAt) →
      Leaves (.cascadeTrainingStart p) s s.dev)) ∧
  (∀ (s : State) (p : Nat), p < s.dev.nHosts → (s.dev.port p).live = true →
    ((s.dev.port p).st = .training → (s.dev.port p).step ≤ 2 → Leaves (.pairAlignmentAcquired p) s ((s.dev.setPort p fun c => { c with
      aligned := true, step := 3, stepAt := s.dev.time.loc, txSeq := 0, rxNext := 0, sent := [] }).sendHello p)) ∧
    ((s.dev.port p).st = .up → Leaves (.pairAlignmentAcquired p) s (s.dev.setPort p fun c => { c with aligned := true })) ∧
    ((s.dev.port p).aligned = true → Leaves (.pairAlignmentLost p) s
      (s.dev.setPort p fun c => { c with aligned := false, lostAt := s.dev.time.loc })) ∧
    (∀ h : Hello, (s.dev.port p).st = .training → (s.dev.port p).step = 3 →
      (s.dev.neighbourOk p h = true → Leaves (.hello p h) s (s.dev.setPort p fun c => { c with
        hello := some h, neighbour := h.dev, st := .keying, step := 4, stepAt := s.dev.time.loc, secSt := 1, credits := h.credits.map (8 * ·) })) ∧
      (s.dev.neighbourOk p h = false → Raises (.hello p h) s 158 (s.dev.setPort p fun c => { c with
        hello := some h, neighbour := h.dev, st := .refused })))) ∧
  (∀ (s : State) (p rate width lanes : Nat), p < s.dev.nHosts → (s.dev.port p).st = .keying → (s.dev.port p).secSt = 2 → 1 ≤ rate →
    rate ≤ bits (s.dev.portCfg p).toNat 23 22 → 1 ≤ width → width ≤ bits (s.dev.portCfg p).toNat 25 24 → lanes * 2 ^ (width + 1) < 16 →
    (s.dev.port p).kept = [] →
    Does (.cascadeLinkUp p rate width lanes) s fun e => e.Pending 150 ∧ (rate < 2 ∨ width < 3 → e.Pending 152) ∧ e.Agrees
      (s.dev.setPort p fun c => { c with
        st := .up, step := 5, rate := rate, width := width, lanes := lanes, upAt := s.dev.time.loc
        degraded := c.degraded || (decide (rate < 2) || decide (width < 3)) })) ∧
  (∀ (s : State) (p limit : Nat), p < s.dev.nHosts → (s.dev.port p).st = .training →
    limit = (if (s.dev.port p).step = 3 then 1000 else 25000) →
    (s.dev.time.loc < (s.dev.port p).stepAt + limit → Leaves (.cascadeTrainingStepTimeout p) s s.dev) ∧
    ((s.dev.port p).stepAt + limit ≤ s.dev.time.loc → Does (.cascadeTrainingStepTimeout p) s fun e => (e.port p).st = .down ∧
      (e.port p).stepAt = s.dev.time.loc + 10000 ∧ e.ev = s.dev.ev ∧ ∀ x ∈ e.sec.sessions, x.sess.tr ≠ .link p)) ∧
  (∀ (s : State) (p : Nat), p < s.dev.nHosts → (s.dev.port p).st = .up →
    ((s.dev.port p).aligned = false → (s.dev.port p).lostAt + 1 ≤ s.dev.time.loc → Does (.alignmentLossTimeout p) s fun e => e.Pending 151 ∧
      (e.port p).st = .down ∧ (e.port p).downs = satInc 255 (s.dev.port p).downs) ∧
    ((s.dev.port p).aligned = true ∨ s.dev.time.loc < (s.dev.port p).lostAt + 1 → Leaves (.alignmentLossTimeout p) s s.dev) ∧
    (Does (.lossOfSignal p) s fun e => e.Pending 151 ∧ (e.port p).st = .down ∧ (e.port p).downs = satInc 255 (s.dev.port p).downs ∧
      (e.port p).kept = (s.dev.port p).unacked ++ (s.dev.port p).kept.filter (fun x => x.1 != 0x40) ∧ ∀ x ∈ e.sec.sessions, x.sess.tr ≠ .link p) ∧
    (s.dev.portUp p = true → 16 ≤ (s.dev.port p).corrRun → Does (.adaptationRetrain p) s fun e => e.Pending 151 ∧ e.Pending 163 ∧
      (e.port p).st = .down) ∧
    ((s.dev.port p).corrRun < 16 → (s.dev.port p).uncorrAt = [] → Leaves (.adaptationRetrain p) s s.dev))

/-- R158 to R160, R252, R257 to R259, R265, R266: a flit is accepted only in sequence, with its tag, and aligned; what is not is answered once
with a NAK, a NAK or 2 µs without progress replays what is kept, and link keys are installed and changed as their messages say. -/
def Obligations.FlitsReplayAndLinkKeys : Prop :=
  (∀ (s : State) (p : Nat) (f : Flit) (n : Nat), p < s.dev.nHosts → (s.dev.port p).live = true → f.corrected = 0 →
    (s.dev.port p).fec < 2 ^ 64 →
    (f.correctable = false → f.uncorrectable = 1 → Does (.flitReceive p f) s fun e => e.Pending 154 ∧ (e.port p).uncorr = satInc 255 (s.dev.port p).uncorr ∧
      (e.port p).nak = true ∧ (e.port p).rxNext = (s.dev.port p).rxNext) ∧
    (f.correctable = false → f.uncorrectable = 0 → Does (.flitReceive p f) s fun e => (e.port p).uncorr = (s.dev.port p).uncorr ∧
      (e.port p).nak = true ∧ (e.port p).rxNext = (s.dev.port p).rxNext) ∧
    (f.correctable = true → (s.dev.port p).aligned = true → f.plain = true → (s.dev.port p).secSt < 2 → (s.dev.port p).tagOk f = true →
      n = (s.dev.port p).rxNext →
      (f.seq % 4096 ≠ n % 4096 → (s.dev.port p).nak = false → Leaves (.flitReceive p f) s
        ((s.dev.setPort p fun c => { c with nak := true }).emit (.linkCtl p true ((n + 4095) % 4096) (List.replicate 8 0)))) ∧
      (f.seq % 4096 ≠ n % 4096 → (s.dev.port p).nak = true → Leaves (.flitReceive p f) s (s.dev.setPort p fun c => c)) ∧
      (f.seq % 4096 = n % 4096 → (∀ m ∈ (s.dev.port p).msgsIn f, sizeOk m.op m.size = true) → Leaves (.flitReceive p f) s
        ((s.dev.setPort p fun c => { c with rxNext := n + 1, nak := false, tagFailSeq := c.tagFailSeq.filter (· != f.seq) }).emit
          (.linkCtl p false (n % 4096) (creditsOf ((s.dev.port p).msgsIn f))))) ∧
      (f.seq % 4096 = n % 4096 → (∃ m ∈ (s.dev.port p).msgsIn f, sizeOk m.op m.size = false) → Does (.flitReceive p f) s fun e => e.Pending 159 ∧
        (e.port p).rxNext = n + 1)) ∧
    (f.correctable = true → (s.dev.port p).aligned = true → f.plain = false → 2 ≤ (s.dev.port p).secSt → (s.dev.port p).oldRxKey = false →
      (s.dev.port p).tagOk f = true → f.seq % 4096 = (s.dev.port p).rxNext % 4096 → Does (.flitReceive p f) s fun e =>
        (e.port p).rxNext = (s.dev.port p).rxNext + 1 ∧ (e.port p).mark = f.mark ∧ (e.port p).markNew = true) ∧
    (f.correctable = true → (s.dev.port p).aligned = true → f.plain = true → 2 ≤ (s.dev.port p).secSt →
      f.seq ∉ (s.dev.port p).tagFailSeq → (s.dev.port p).tagFailNow < 3 → Does (.flitReceive p f) s fun e =>
        (e.port p).tagFail = satInc 65535 (s.dev.port p).tagFail ∧ (e.port p).tagFailSeq = (s.dev.port p).tagFailSeq ++ [f.seq] ∧ (e.port p).nak = true ∧
        (e.port p).st = (s.dev.port p).st)) ∧
  (∀ (s : State) (p : Nat) (x : SentFlit) (xs : List SentFlit), p < s.dev.nHosts → (s.dev.port p).live = true → (s.dev.port p).sent = x :: xs →
    (s.dev.time.loc < x.since + 2 → Leaves (.replayTimeout p) s s.dev) ∧
    (x.since + 2 ≤ s.dev.time.loc → (∀ y ∈ x :: xs, y.tries < 4) → Does (.replayTimeout p) s fun e => e.Pending 153 ∧
      (e.port p).sent = (x :: xs).map (fun y => { y with tries := y.tries + 1, since := s.dev.time.loc }) ∧
      (e.port p).replays = min 65535 ((s.dev.port p).replays + (xs.length + 1)) ∧ s.dev.Sent e (.resend p x.seq x.bytes)) ∧
    (x.since + 2 ≤ s.dev.time.loc → (∃ y ∈ x :: xs, 4 ≤ y.tries) → (s.dev.port p).st = .up → Does (.replayTimeout p) s fun e =>
      e.Pending 151 ∧ (e.port p).st = .down)) ∧
  (∀ (s : State) (p ack : Nat) (cr : List Nat), p < s.dev.nHosts → (s.dev.port p).live = true → (s.dev.port p).kept = [] →
    Leaves (.linkControl p false ack cr) s (s.dev.setPort p fun c => { c.acked (ack % 4096) s.dev.time.loc with
      credits := (List.range 8).map fun i => c.credits.getD i 0 + cr.getD i 0 })) ∧
  (∀ (s : State) (p : Nat), p < s.dev.nHosts →
    ((s.dev.port p).st = .keying → (s.dev.port p).secSt = 1 → s.dev.chainOk = true → s.dev.coresGone = false →
      (∀ o k, s.dev.upstream p = true →
        k = { down := Config.freeKey s.dev.free, up := Config.freeKey (s.dev.free + 1), salt := Config.freeWord (s.dev.free + 2) } → Does (.linkKeyMessage ⟨p, o⟩) s fun e => (e.port p).kTx = k.down ∧ (e.port p).kRx = k.up ∧
        (e.port p).salt = k.salt ∧ (e.port p).secSt = 2 ∧ (e.port p).txSeq = 0 ∧ (e.port p).rxNext = 0 ∧ e.out = s.dev.out ++ [.linkKeys p k]) ∧
      (∀ k, s.dev.upstream p = false → s.dev.linkSession p = true → Does (.linkKeyMessage ⟨p, some k⟩) s fun e => (e.port p).kTx = k.up ∧
        (e.port p).kRx = k.down ∧ (e.port p).salt = k.salt ∧ (e.port p).secSt = 2 ∧ (e.port p).txSeq = 0 ∧ (e.port p).rxNext = 0 ∧
        e.out = s.dev.out)) ∧
    (∀ o, s.dev.chainOk = false ∨ s.dev.linkSession p = false ∨ s.dev.coresGone = true → Leaves (.linkKeyMessage ⟨p, o⟩) s s.dev) ∧
    (s.dev.portUp p = true → (s.dev.port p).secSt = 2 → s.dev.coresGone = false →
      (∀ o, s.dev.upstream p = true → s.dev.rekeyDue p = true → Does (.linkRekey ⟨p, o⟩) s fun e =>
        (e.port p).kTxNew = Config.freeKey s.dev.free ∧ (e.port p).kRx = Config.freeKey (s.dev.free + 1) ∧ (e.port p).kTx = (s.dev.port p).kTx ∧
        (e.port p).kRxOld = (s.dev.port p).kRx ∧ (e.port p).secSt = 3 ∧ (e.port p).newKey = true ∧ (e.port p).keySel = (s.dev.port p).keySel) ∧
      (∀ o, s.dev.upstream p = true → s.dev.rekeyDue p = false → Leaves (.linkRekey ⟨p, o⟩) s s.dev) ∧
      (∀ k, s.dev.upstream p = false → Leaves (.linkRekey ⟨p, some k⟩) s (s.dev.setPort p fun c => { c with
        kTxNew := k.up, kRx := k.down, kRxOld := c.kRx, secSt := 3, newKey := true, oldRxKey := true })))) ∧
  (∀ (s : State) (p total : Nat) (fr : List Byte), p < s.dev.nHosts → (s.dev.port p).live = true →
    Leaves (.securedTransport p 0 total fr) s (s.dev.setPort p fun c => { c with frag := fr.take total, fragTotal := total }) ∧
    (total = (s.dev.port p).fragTotal → Leaves (.securedTransport p (s.dev.port p).frag.length total fr) s
      (if (s.dev.port p).frag = [] then s.dev.setPort p fun c => { c with frag := fr.take total, fragTotal := total }
       else s.dev.setPort p fun c => { c with frag := (c.frag ++ fr).take total })))

/-- R268, R271 to R274, R285 to R287: a notice switches a route to its ALT or raises EV156, a route returns after its hold, and a link goes to
sleep when both ends agree and have drained, wakes at a pattern, and resumes or goes down. -/
def Obligations.RoutesSwitchAndLinksSleep : Prop :=
  (∀ (s : State) (p n : Nat), s.dev.portUp p = true → s.dev.routeValid n = true → s.dev.routePrimary n = p →
    ((s.dev.route n).usingAlt = false → (s.dev.routeAlt n).any s.dev.portUp = true → Leaves (.routeNoticeSwitch p n) s
      (s.dev.setRoute n fun r => { r with switchDue := true })) ∧
    ((s.dev.route n).usingAlt = false → (s.dev.routeAlt n).any s.dev.portUp = false → Raises (.routeNoticeSwitch p n) s 156 s.dev) ∧
    ((s.dev.route n).usingAlt = true → (s.dev.route n).byNotice = true → Leaves (.routeNoticeRestore p n) s
      (s.dev.setRoute n fun r => { r with holdUntil := some (s.dev.time.loc + s.dev.foQuiet), returnDue := true })) ∧
    ((s.dev.route n).usingAlt = false ∨ (s.dev.route n).byNotice = false → Leaves (.routeNoticeRestore p n) s s.dev)) ∧
  (∀ (s : State) (n t : Nat), (s.dev.route n).holdUntil = some t →
    (s.dev.time.loc < t → Leaves (.foQuietExpiry n) s s.dev) ∧
    (t ≤ s.dev.time.loc → (s.dev.route n).held = [] → (s.dev.route n).returnDue = true → Does (.foQuietExpiry n) s fun e => e.Pending 155 ∧
      e.route n = { s.dev.route n with holdUntil := none, returnDue := false, usingAlt := false, byNotice := false } ∧
      ∀ a, s.dev.routeAlt n = some a → s.dev.Sent e (.notice a n true)) ∧
    (t ≤ s.dev.time.loc → (s.dev.route n).held = [] → (s.dev.route n).returnDue = false → Leaves (.foQuietExpiry n) s
      (s.dev.setRoute n fun r => { r with holdUntil := none }))) ∧
  (∀ (s : State) (p : Nat), s.dev.portUp p = true →
    (s.dev.time.loc < (s.dev.port p).upAt + s.dev.failback * 64 → Leaves (.failback p) s s.dev) ∧
    ((s.dev.port p).upAt + s.dev.failback * 64 ≤ s.dev.time.loc → Does (.failback p) s fun e => ∀ n ∈ s.dev.members,
      s.dev.routePrimary n = p → (s.dev.route n).usingAlt = true → (s.dev.route n).byNotice = false → (s.dev.route n).returnDue = false →
      (e.route n).returnDue = true ∧ (e.route n).holdUntil = some (s.dev.time.loc + s.dev.foQuiet))) ∧
  (∀ (s : State) (p src : Nat), s.dev.portUp p = true → (s.dev.port p).draining = false → (s.dev.port p).sleepAsked = false →
    ((s.dev.port p).sleepOrdered = true → (s.dev.port p).kept = [] → Does (.sleepRequest p src) s fun e =>
      (e.port p).draining = true ∧ (e.port p).st = .up ∧ s.dev.Sent e (.sleepReply p true 0)) ∧
    ((s.dev.port p).sleepOrdered = false ∨ (s.dev.port p).kept ≠ [] → Does (.sleepRequest p src) s fun e =>
      (e.port p).draining = false ∧ (e.port p).st = .up ∧ s.dev.Sent e (.sleepReply p false (portSlice p)))) ∧
  (∀ (s : State) (p sl : Nat), s.dev.portUp p = true → (s.dev.port p).sleepAsked = true →
    Leaves (.sleepReply p true sl) s (s.dev.setPort p fun c => { c with sleepAsked := false, draining := true }) ∧
    (s.dev.pwr.entering = true → Does (.sleepReply p false sl) s fun e => e.Pending 181 ∧ e.pwr.lastCause = 3 ∧
      e.pwr.lastPartner = (s.dev.port p).neighbour ∧ e.pwr.partnerSlice = sl ∧ e.pwr.waking = true) ∧
    (s.dev.devId < sl → Leaves (.sleepRequest p sl) s s.dev)) ∧
  (∀ (s : State) (p : Nat), s.dev.portUp p = true →
    ((s.dev.port p).draining = true → (s.dev.port p).sent = [] → (s.dev.port p).kept = [] → (s.dev.port p).sleepOrdered = true →
      Does (.sleepDrainComplete p) s fun e => (e.port p).st = .sleep ∧ (s.dev.strokePort ≠ some p →
        s.dev.Sent e (.frame p (s.dev.frameFor p true)))) ∧
    ((s.dev.port p).sent ≠ [] → Leaves (.sleepDrainComplete p) s s.dev)) ∧
  (∀ (s : State) (p : Nat), p < s.dev.nHosts → (s.dev.port p).st = .sleep → Leaves (.wakePatternDetected p) s
    (((s.dev.setPort p fun c => { c with st := .waking, stepAt := s.dev.time.loc }).emit (.wakePattern p)).wake 3 p)) ∧
  (∀ (s : State) (p : Nat), p < s.dev.nHosts → (s.dev.port p).st = .waking →
    ((s.dev.port p).kept = [] → Does (.linkResumed p) s fun e => e.Pending 162 ∧
      e.Agrees (s.dev.setPort p fun c => { c with st := .up, aligned := true, sleepOrdered := false }) ∧
      s.dev.Sent e (.linkCtl p false (((s.dev.port p).rxNext + 4095) % 4096) (List.replicate 8 0))) ∧
    ((s.dev.port p).stepAt + 50 ≤ s.dev.time.loc → Does (.resumptionTimeout p) s fun e => e.Pending 151 ∧ (e.port p).st = .down) ∧
    (s.dev.time.loc < (s.dev.port p).stepAt + 50 → Leaves (.resumptionTimeout p) s s.dev))

/-- R263, R268, R273: a Terdy message on a port that is not Up is lost, one for another device passes on unchanged or, where that device
cannot be reached, is dropped with EV156, and one that was sent again and accepted before is discarded with EV160. R180, R182, R281:
snoops of an owner go to the member that they name under the importer's own address, conflicts are answered by the home, and a response of
a remote sharer is taken as a local one's. -/
def Obligations.TerdyMessagesAndSnoops : Prop :=
  (∀ (c : Instr) (s : State) (p op : Nat) (m : Msg), terdyOf c = some (p, op, m) →
    (s.dev.portUp p = false → Leaves c s s.dev) ∧
    (s.dev.portUp p = true → m.dest ≠ s.dev.devId →
      ((s.dev.route m.dest).holdUntil ≠ none ∨ s.dev.reachable m.dest = true → Leaves c s (s.dev.send op m)) ∧
      ((s.dev.route m.dest).holdUntil = none → s.dev.reachable m.dest = false → Raises c s 156
        (s.dev.setRoute m.dest fun r => { r with unreach := true }))) ∧
    (s.dev.portUp p = true → m.dest = s.dev.devId → s.dev.Twice op m → Raises c s 160 s.dev)) ∧
  ((∀ (p : Nat) (m : Msg) (s : State) (d : Dev),
    ∀ c ∈ [(Instr.terdyBISnpInv p m, Snp.inv), (.terdyBISnpData p m, .data), (.terdyBISnpCur p m, .cur)], Took c.1 s m d →
    (d.importerLine m = none ∨ 16 < m.origin → Leaves c.1 s d) ∧
    (∀ l, d.importerLine m = some l → m.origin ≤ 16 → Leaves c.1 s (d.snoop d.devId m.group m.origin l c.2))) ∧
  (∀ (p : Nat) (m : Msg) (s : State) (d : Dev),
    (Took (.terdyBIRsp p m) s m d → Leaves (.terdyBIRsp p m) s ((d.snoopResponse m.src m.group m.origin (m.addr / 64)
      (if m.mval = 0 then .i else if m.mval = 1 then .s else if m.mval = 2 then .e else .blk)).fetchRun)) ∧
    (Took (.terdyBIConflict p m) s m d → d.granted m = true → Leaves (.terdyBIConflict p m) s (d.send 0x24 { msg0 with
      dest := m.src, src := d.devId, origin := m.origin, group := m.group, tag := m.tag, addr := m.addr, mval := 0 })) ∧
    (Took (.terdyBIConflict p m) s m d → d.granted m = false → Raises (.terdyBIConflict p m) s 159 d) ∧
    (∀ l, Took (.terdyBIConflictAck p m) s m d → m.origin < 16 → d.importerLine m = some l → Leaves (.terdyBIConflictAck p m) s
      (d.respond1 (.head m.origin) m.tag l .conflictAck 0#512 false))))

/-- R23, R180 to R182, R264, R281, R282: a forwarded request inside its grant goes to the home slice as the owner's own, one outside it is
answered with a failure and EV159; a write that finds its line held is answered Write Retry and comes again on REQ; responses go to the
requester that forwarded, and a response to nothing is discarded. -/
def Obligations.ForwardedRequestsAndResponses : Prop :=
  (∀ (p : Nat) (m : Msg) (s : State) (d : Dev),
    ∀ c ∈ [(Instr.terdyMemRd p m, msgReadKind m), (.terdyMemRdData p m, .anyRead), (.terdyMemInv p m, .ownNoData false),
      (.terdyMemInvNT p m, .ownNoData true), (.terdyMemWr p m, msgWriteKind m true), (.terdyMemWrPtl p m, msgWriteKind m false),
      (.terdyMemClnEvct p m, .cleanEvict), (.terdyMemWrRetried p m, msgWriteKind m true), (.terdyMemWrPtlRetried p m, msgWriteKind m false)],
    Took c.1 s m d → d.granted m = false → Leaves c.1 s
      ((d.respond (msgRq m p) m.tag (m.addr / 64) (c.2.failRsp m.group) 0#512 true).raise 159 (portSlice p))) ∧
  (∀ (p : Nat) (m : Msg) (s : State) (d : Dev),
    ∀ c ∈ [(Instr.terdyMemRd p m, msgReadKind m), (.terdyMemRdData p m, .anyRead), (.terdyMemInv p m, .ownNoData false),
      (.terdyMemInvNT p m, .ownNoData true), (.terdyMemWrRetried p m, msgWriteKind m true),
      (.terdyMemWrPtlRetried p m, msgWriteKind m false)],
    Took c.1 s m d → d.granted m = true → d.therm.enforced = false → Leaves c.1 s ((d.setPort p fun x =>
      if c.2.isWrite then { x with capIn := x.capIn + 1 } else { x with capOut := x.capOut + 1 }).request
        { rq := msgRq m p, tag := m.tag, line := m.addr / 64, kind := c.2 })) ∧
  (∀ (p : Nat) (m : Msg) (s : State) (d : Dev), Took (.terdyMemClnEvct p m) s m d → d.granted m = true → Leaves (.terdyMemClnEvct p m) s
    (d.request { rq := msgRq m p, tag := m.tag, line := m.addr / 64, kind := .cleanEvict })) ∧
  (∀ (p : Nat) (m : Msg) (s : State) (d : Dev) (q : Req) (n : Nat),
    ∀ c ∈ [(Instr.terdyMemWr p m, true), (.terdyMemWrPtl p m, false)], Took c.1 s m d → d.granted m = true →
    q = { rq := msgRq m p, tag := m.tag, line := m.addr / 64, kind := msgWriteKind m c.2, extra := true } → n = d.home (lnPage q.line) →
    (d.isWriteBack q = true → Leaves c.1 s (d.request q)) ∧
    (d.isWriteBack q = false → (d.hsl n).held q.line = true ∨ 64 ≤ (d.hsl n).extras →
      Leaves c.1 s (d.respond1 q.rq q.tag q.line .writeRetry 0#512 false)) ∧
    (d.isWriteBack q = false → (d.hsl n).held q.line = false → (d.hsl n).extras < 64 → Leaves c.1 s (d.request q))) ∧
  (∀ (p : Nat) (m : Msg) (s : State) (d : Dev), ∀ c ∈ [Instr.writeRetry p m, .terdyMemData p m, .terdyCmp p m], Took c s m d →
    d.fwdOf m = none → Leaves c s d) ∧
  (∀ (p : Nat) (m : Msg) (s : State) (d : Dev) (f : Fwd), d.fwdOf m = some f →
    (∀ k x full mv h, Took (.writeRetry p m) s m d → f.kind = .write k x full mv h → Leaves (.writeRetry p m) s
      ((d.setFwd f.tag fun x => { x with retried := true }).send (if full then 0x08 else 0x09) (d.fwdMsg f.rq f.tag f.line f.kind))) ∧
    (Took (.terdyMemData p m) s m d → f.read = true → Leaves (.terdyMemData p m) s
      ((d.respond1 f.rq f.rtag f.line .memData m.data m.poison).fwdGot f 1)) ∧
    (Took (.terdyCmp p m) s m d → m.mval = 0 → Leaves (.terdyCmp p m) s
      ((d.respond1 f.rq f.rtag f.line .cmp 0#512 false).fwdGot f 2))) ∧
  (∀ (s : State) (tag : Nat), s.dev.cas.fwd.find? (fun f => f.tag == tag && decide (s.dev.time.loc ≥ f.since + s.dev.remTo)) = none →
    Leaves (.remoteTimeout tag) s s.dev) ∧
  (∀ (s : State) (tag : Nat) (f : Fwd),
    s.dev.cas.fwd.find? (fun f => f.tag == tag && decide (s.dev.time.loc ≥ f.since + s.dev.remTo)) = some f → f.got = 0 →
    ∀ d : Dev, d = s.dev.endFwd tag → Leaves (.remoteTimeout tag) s
      ((d.remoteFail f.rq f.rtag f.line f.kind).raise 156 (portSlice (d.portToward f.dest))))

/-- R280 to R284: page messages outside their grant are answered with status 2 and EV159; a fetched page is fenced and sent, a placed one
takes a frame or is answered with status 1, its granules are stored and the last is acknowledged, a freed one is released;
acknowledgements end what waited for them, and their timeouts give up with EV156. -/
def Obligations.PageMessagesBetweenDevices : Prop :=
  (∀ (p : Nat) (m : Msg) (s : State) (d : Dev), ∀ c ∈ [Instr.pageFetch p m, .pagePlace p m, .pageFree p m], Took c s m d →
    d.granted m = false → Leaves c s ((d.answerMsg m 0x29 2).raise 159 (portSlice p))) ∧
  (∀ (p page : Nat) (m : Msg) (s : State) (d e : Dev), page = m.addr / 4096 → d.granted m = true → e = d.wake 2 (16 + p) →
    (Took (.pageFetch p m) s m d → Leaves (.pageFetch p m) s (({ e with cas := { e.cas with
      fetchIn := e.cas.fetchIn ++ [({ src := m.src, tag := m.tag, page := page } : FetchIn)] } }).fetchRun)) ∧
    (Took (.pageFree p m) s m d → Leaves (.pageFree p m) s ((((e.dropIncoming m.src page).fencePage page).unback page).answerMsg m 0x29 0)) ∧
    (∀ i, i = e.dropIncoming m.src page → Took (.pagePlace p m) s m d →
      i.keyless page = true ∨ i.allocFrame (i.homeTile page) .promote 1 0#16 = none → Leaves (.pagePlace p m) s (i.answerMsg m 0x29 1)) ∧
    (∀ i f g, i = e.dropIncoming m.src page → Took (.pagePlace p m) s m d → i.keyless page = false →
      i.allocFrame (i.homeTile page) .promote 1 0#16 = some (f, g) →
      Leaves (.pagePlace p m) s { g with cas := { g.cas with
        pagesIn := g.cas.pagesIn ++ [({ src := m.src, tag := m.tag, page := page, frame := f, kdom := (g.attrs page).elim 0 Region.kdom, got := 0, poison := [] } : PageIn)] } })) ∧
  (∀ (p : Nat) (m : Msg) (s : State) (d : Dev) (x : PageIn), Took (.pageData p m) s m d →
    d.cas.pagesIn.find? (fun x => x.src == m.src && x.tag == m.tag && x.page == m.addr / 4096) = some x → x.got < 31 →
    Leaves (.pageData p m) s ({ d.putGran x.kdom (frameGran x.frame (m.addr / 128 % 32)) m.data m.data2 m.mval with
      cas := { d.cas with pagesIn := d.cas.pagesIn.map fun z => if z = x then { x with
        got := x.got + 1, poison := if m.mval = 0 then x.poison else x.poison ++ [(m.addr / 128 % 32, m.mval)] } else z } })) ∧
  (∀ (p : Nat) (m : Msg) (s : State) (d : Dev), Took (.pageAck p m) s m d →
    (d.cas.frees.any (fun f => f.tag == m.tag && f.dest == m.src) = true → Leaves (.pageAck p m) s
      (({ d with cas := { d.cas with frees := d.cas.frees.filter fun f => f.tag != m.tag } }).restTag m.tag)) ∧
    (d.cas.frees = [] → d.pumpOfTag m.tag = none → Leaves (.pageAck p m) s d)) ∧
  (∀ (s : State) (q : Nat) (j : Job), (s.dev.pump q).job = some j →
    (j.remote ≠ 1 ∨ s.dev.time.loc < j.remSince + s.dev.remTo → Leaves (.pageAckTimeout q) s s.dev) ∧
    (q < s.dev.nPumps → j.remote = 1 → j.remSince + s.dev.remTo ≤ s.dev.time.loc → j.ty ≠ 5 → Leaves (.pageAckTimeout q) s
      (s.dev.jobReady q { j with remote := 0, dirty := j.dirty ++ j.pages.map Prod.fst }))) ∧
  (∀ (s : State) (tag : Nat), (∀ f ∈ s.dev.cas.frees, f.tag = tag → s.dev.time.loc < f.since + s.dev.remTo) →
    Leaves (.pageFreeTimeout tag) s s.dev) ∧
  (∀ (s : State) (f : FreeOut), s.dev.cas.frees = [f] → f.since + s.dev.remTo ≤ s.dev.time.loc →
    (f.again = true → Does (.pageFreeTimeout f.tag) s fun e => e.Pending 156 ∧ e.cas.frees = []) ∧
    (f.again = false → Leaves (.pageFreeTimeout f.tag) s
      (({ s.dev with cas := { s.dev.cas with frees := [{ f with again := true, since := s.dev.time.loc }] } }).send 0x12
        { msg0 with dest := f.dest, src := s.dev.devId, tag := f.tag, addr := f.addr })))

/-- R200 to R203, R222, R225, R226, R229, R237, R238: requests queue at their channel in order, with the hint of their origin, and wait for a
credit where the queue is full; a read of a granule that waits to be written is served from the write queue, a write waits for an older
read of its granule, a returned granule is corrected, poisoned or uncorrectable as the code says, and rows close as their hint says. -/
def Obligations.DramRequestsAndReturns : Prop :=
  (∀ (s : State) (ch gran g : Nat) (who : ChOrigin) (x : ChReq), ch < s.dev.nChans → (s.dev.chan ch).selfRef = false → g = granOf gran →
      x = { gran := g, hint := s.dev.hintOf g who, order := (s.dev.chan ch).order } →
    (s.dev.chServes (chGran ch g) true = true → (s.dev.chan ch).wq.length < 64 → (s.dev.chan ch).wwait = [] →
      Does (.channelRequest ch true gran who) s fun e => (e.chan ch).wq = (s.dev.chan ch).wq ++ [x] ∧ (e.chan ch).rq = (s.dev.chan ch).rq ∧ (e.chan ch).order = (s.dev.chan ch).order + 1 ∧ e = s.dev.setChan ch fun _ => e.chan ch) ∧
    (s.dev.chServes (chGran ch g) true = true → 64 ≤ (s.dev.chan ch).wq.length → Does (.channelRequest ch true gran who) s fun e =>
      (e.chan ch).wq = (s.dev.chan ch).wq ∧ (e.chan ch).wwait = (s.dev.chan ch).wwait ++ [x] ∧ e = s.dev.setChan ch fun _ => e.chan ch) ∧
    (s.dev.chServes (chGran ch g) false = true → (s.dev.chan ch).rq.length < 64 → (s.dev.chan ch).rwait = [] →
      (s.dev.chan ch).wq.any (fun x => x.gran == g) = false →
      Does (.channelRequest ch false gran who) s fun e => (e.chan ch).rq = (s.dev.chan ch).rq ++ [x] ∧
        (e.chan ch).wq = (s.dev.chan ch).wq ∧ e = s.dev.setChan ch fun _ => e.chan ch) ∧
    (s.dev.chServes (chGran ch g) false = true → (s.dev.chan ch).rq.length < 64 → (s.dev.chan ch).rwait = [] →
      (s.dev.chan ch).wq.any (fun x => x.gran == g) = true → Does (.channelRequest ch false gran who) s fun e => (e.chan ch).rq = (s.dev.chan ch).rq ∧ (e.chan ch).wq = (s.dev.chan ch).wq) ∧
    (∀ w, s.dev.chServes (chGran ch g) w = false → Leaves (.channelRequest ch w gran who) s s.dev)) ∧
  (∀ (s : State) (ch gran pg : Nat) (who : Reader) (errs : List (Nat × Byte)) (d : Dev), ch < s.dev.nChans → pg = chGran ch (granOf gran) →
    (s.dev.place (pg / 32)).isSome = true → d = s.dev.accessDone ch false (granOf gran) →
    (d.readGran pg (errNats errs) = .clean → Leaves (.dramReadReturn ch gran who errs) s d) ∧
    (∀ x, d.readGran pg (errNats errs) = .poisoned x → Leaves (.dramReadReturn ch gran who errs) s d) ∧
    (∀ n, d.readGran pg (errNats errs) = .corrected (some n) → Leaves (.dramReadReturn ch gran who errs) s
      ((d.correction pg n).rewriteLater pg (who == .scrub))) ∧
    (d.readGran pg (errNats errs) = .uncorrectable → Leaves (.dramReadReturn ch gran who errs) s (d.readUe pg who))) ∧
  (∀ (s : State) (ch gran g : Nat) (ok : Bool), ch < s.dev.nChans → g = granOf gran →
    (∀ d, d = s.dev.accessDone ch true g → (s.dev.chan ch).wq.any (fun x => x.gran == g) = true → (s.dev.chan ch).readFirst g = false →
      Leaves (.writeBurst ch gran true) s
        ((d.emit (.burst ch g (burstBeats (eccCodeword ((d.storedBytes (chGran ch g)).map BitVec.toNat) (Tbl.get 0 d.poison (chGran ch g)))))).setChan ch
          fun c => { c with eat := c.eat.map fun e => if e.gran = g then { e with wb := true } else e })) ∧
    ((s.dev.chan ch).readFirst g = true → Leaves (.writeBurst ch gran ok) s s.dev) ∧
    (∀ p, (s.dev.chan ch).wq.any (fun x => x.gran == g) = true → (s.dev.chan ch).readFirst g = false → (s.dev.accessDone ch true g).destPump (chGran ch g / 32) = some p →
      Leaves (.writeBurst ch gran false) s ((s.dev.accessDone ch true g).haltPump p 3 0 (chGran ch g))) ∧
    ((s.dev.chan ch).wq.any (fun x => x.gran == g) = false → (s.dev.chan ch).newer.contains g = false →
      Leaves (.writeBurst ch gran ok) s s.dev)) ∧
  (∀ (s : State) (ch r bank : Nat), Leaves (.autoIdleExpiry ch r bank) s (s.dev.setChan ch fun c => { c with
    rows := c.rows.filter fun x => !(x.r == r && x.bank == bank && (x.hint == 0 || x.hint == 3)) }))

/-- R205 to R217: a refresh pays its debt and closes the rank's rows, MR4 reads set the rate at the next boundary, one rank in turn is
calibrated, retraining runs in windows and its setting waits for the boundary, a second parity alert is a command error, and ranks that
train come up Active or Empty. -/
def Obligations.DramRefreshTrainingAndAlerts : Prop :=
  (∀ (s : State) (ch r : Nat), ch < s.dev.nChans → r < 8 → (s.dev.chan ch).selfRef = false → (s.dev.rank ch r).refreshed = true →
    (65536 ≤ (s.dev.rank ch r).debt → Does (.refabIssue ch r) s fun e => (e.rank ch r).debt = (s.dev.rank ch r).debt - 65536 ∧
      (∀ x ∈ (e.chan ch).rows, x.r ≠ r) ∧ s.dev.Sent e (.dram ch r 1) ∧ e.dram = s.dev.dram) ∧
    ((s.dev.rank ch r).debt < 65536 → Leaves (.refabIssue ch r) s s.dev)) ∧
  (∀ (s : State) (ch : Nat) (l : List (Nat × Nat)), s.dev.pollDue ch = true → s.dev.stillRuns 2 (chanSlice ch) = true →
    Leaves (.mr4Poll ch l) s ((s.dev.setChan ch fun c => { c with pollAt := s.dev.time.loc + 1, oweP := false }).skipDue 2 (chanSlice ch))) ∧
  (∀ (s : State) (ch r code m : Nat), r < 8 → s.dev.pollDue ch = true → s.dev.stillRuns 2 (chanSlice ch) = false → (s.dev.rank ch r).refreshed = true → m = s.dev.mr4Floor ch code →
    Does (.mr4Poll ch [(r, code)]) s fun e => (e.rank ch r).mNew = some m ∧ (e.rank ch r).m = (s.dev.rank ch r).m ∧
      (m ≠ (s.dev.rank ch r).m ∨ m = 4 → e.Pending 121)) ∧
  (∀ (s : State) (ch : Nat) (l : List (Nat × Nat)) (r : Nat) (ps : List Probe),
    (s.dev.pollDue ch = false → Leaves (.mr4Poll ch l) s s.dev) ∧ (s.dev.burstDue ch r = false → Leaves (.calibrationBurst ch r ps) s s.dev)) ∧
  (∀ (s : State) (ch r : Nat) (ps : List Probe), s.dev.burstDue ch r = true → s.dev.stillRuns 3 (chanSlice ch) = false →
    s.dev.fld (chBase ch + 0x10) 3 3 = 0 → Does (.calibrationBurst ch r ps) s fun e => (e.chan ch).nextRank = (r + 1) % 8 ∧
      (e.chan ch).burstAt = s.dev.time.loc + 1 ∧ (e.rank ch r).bursts = (s.dev.rank ch r).bursts + 1 ∧
      (e.rank ch r).devs = (s.dev.rank ch r).devs ∧ e.ev = s.dev.ev) ∧
  (∀ (s : State) (ch r ns : Nat) (f : Bool) (x : Setting), ch < s.dev.nChans → (s.dev.rank ch r).st = .retraining →
    ((s.dev.chan ch).urgent = false → ns ≤ s.dev.fld (chBase ch + 0x10) 15 8 * 10 → (s.dev.rank ch r).winAt ≠ s.dev.time.loc + 1 →
      Leaves (.retrainingWindow ch r ns) s ((s.dev.setRank ch r fun x => { x with winAt := s.dev.time.loc + 1 }).emit (.dram ch r 4))) ∧
    ((s.dev.chan ch).urgent = true ∨ (s.dev.rank ch r).winAt = s.dev.time.loc + 1 ∨ s.dev.fld (chBase ch + 0x10) 15 8 * 10 < ns → Leaves (.retrainingWindow ch r ns) s s.dev) ∧
    ((s.dev.rank ch r).install = none →
      Leaves (.retrainingEnd ch r f x) s (s.dev.setRank ch r fun y => { y with install := some (x, f) }) ∧
      ((s.dev.rank ch r).retrainAt + 1024 ≤ s.dev.time.loc →
        Leaves (.retrainingTimeout ch r x) s (s.dev.setRank ch r fun y => { y with install := some (x, false) }))) ∧
    (s.dev.time.loc < (s.dev.rank ch r).retrainAt + 1024 → Leaves (.retrainingTimeout ch r x) s s.dev)) ∧
  (∀ (s : State) (ch : Nat), ch < s.dev.nChans → ((s.dev.chan ch).dimm 0).isSome = true →
    ((s.dev.chan ch).alert0 = none → Leaves (.caParityAlert ch 0) s
      ((s.dev.setChan ch fun c => { c with alert0 := some s.dev.time.loc }).emit (.dram ch 0 7))) ∧
    (∀ t, (s.dev.chan ch).alert0 = some t → s.dev.time.loc ≤ t + 1024 → Does (.caParityAlert ch 0) s fun e => e.Pending 128 ∧
      (e.chan ch).alert0 = some s.dev.time.loc ∧ ∀ r < 4, rankUp (s.dev.rank ch r).st = true → (s.dev.rank ch r).trigger = 0 →
        (e.rank ch r).trigger = 2)) ∧
  (∀ (s : State) (ch : Nat) (b : BringUp), ch < s.dev.nChans → (s.dev.chan ch).table = false → (s.dev.chan ch).bringUp.contains b.r = true →
    (s.dev.rank ch b.r).st = .training →
    (b.found = false → Does (.bringUpComplete ch [b]) s fun e => e.Pending 127 ∧ (e.rank ch b.r).st = .empty ∧ (e.chan ch).up = true ∧
      b.r ∉ (e.chan ch).bringUp) ∧
    (b.found = true → Does (.bringUpComplete ch [b]) s fun e => (e.rank ch b.r).st = .active ∧ (e.chan ch).up = true ∧
      (e.rank ch b.r).m = s.dev.mr4Floor ch b.mr4)) ∧
  (∀ (s : State) (ch : Nat), Leaves (.bringUpComplete ch []) s s.dev)

/-- R228, R232 to R236, R243 to R249: the scrubber walks once per stroke, soft repair takes the row that may be repaired and reports its
outcome, uncorrectable granules leave their window, retired ranks are walked, and one that is empty is reported with EV138. -/
def Obligations.DramScrubRepairAndRetirement : Prop :=
  (∀ (s : State) (ch n : Nat) (errs : List (Nat × List (Nat × Byte))),
    ((s.dev.chan ch).selfRef = true ∨ (s.dev.chan ch).scrubAt = s.dev.time.loc + 1 → Leaves (.scrubRead ch ⟨n, errs⟩) s s.dev) ∧
    (ch < s.dev.nChans → (s.dev.chan ch).selfRef = false → (s.dev.chan ch).scrubAt ≠ s.dev.time.loc + 1 →
      s.dev.fld (chBase ch + 0x100) 31 28 = 0 ∨ n = 0 → (s.dev.chan ch).rewrite = [] →
      Leaves (.scrubRead ch ⟨n, errs⟩) s (s.dev.setChan ch fun c => { c with scrubAt := s.dev.time.loc + 1 })) ∧
    (∀ d g p, ch < s.dev.nChans → (s.dev.chan ch).selfRef = false → (s.dev.chan ch).scrubAt ≠ s.dev.time.loc + 1 →
      min n (s.dev.fld (chBase ch + 0x100) 31 28) = 1 → (s.dev.chan ch).rewrite = [] →
      d = (s.dev.setChan ch fun c => { c with scrubAt := s.dev.time.loc + 1 }) → d.nextScrub ch (d.chan ch).scrubPos = some (g, false) →
      d.place (chGran ch g / 32) = some p → (d.rank ch p.r).scrub = 2 → d.readGran (chGran ch g) [] = .clean →
      (∀ x ∈ errs, x.1 ≠ g) → Leaves (.scrubRead ch ⟨n, errs⟩) s (d.setChan ch fun c => { c with scrubPos := granOf (g + 1) }))) ∧
  (∀ (s : State) (ch : Nat) (b : Bool), s.dev.pprRow ch = none → Leaves (.softPpr ch b) s s.dev) ∧
  (∀ (s : State) (ch : Nat) (x : RepairRow) (p : Place) (a : DramAddr) (m : Dimm), ch < s.dev.nChans → s.dev.pprRow ch = some x →
    s.dev.granPlace x.gran = some (p, a) → (s.dev.chan ch).dimm (x.r / 4) = some m →
    ((s.dev.chan ch).pprUsed.contains (x.r, x.dev, a.bg) = false → Does (.softPpr ch true) s fun e => e.Pending 134 ∧
      (e.chan ch).pprDone = satInc 255 (s.dev.chan ch).pprDone ∧ (e.chan ch).repair = (s.dev.chan ch).repair.erase x ∧
      (x.r, x.dev, a.bg) ∈ (e.chan ch).pprUsed ∧ s.dev.Sent e (.dram ch x.r 6)) ∧
    (Does (.softPpr ch false) s fun e => e.Pending 135 ∧ (e.chan ch).pprFailed = satInc 255 (s.dev.chan ch).pprFailed ∧
      (e.chan ch).repair = (s.dev.chan ch).repair.erase x ∧ (e.rank ch x.r).debt = (s.dev.rank ch x.r).debt % 65536)) ∧
  (∀ (s : State) (ch r : Nat), ch < s.dev.nChans → r < 8 → Leaves (.ueWindowExpiry ch r) s
    (s.dev.setRank ch r fun x => { x with ueWin := x.ueWin.filter fun w => decide (s.dev.time.loc < w.2 + 2 ^ 20) })) ∧
  (∀ (s : State) (k : Nat), ((s.dev.tile k).evacs = [] ∨ s.dev.nTiles ≤ k → Leaves (.evacuationWalk k) s s.dev) ∧
    (∀ e, k < s.dev.nTiles → (s.dev.tile k).evacs = [e] → Leaves (.evacuationWalk k) s (s.dev.walkRank k e.ch e.r)) ∧
    (k < s.dev.nTiles → (s.dev.tile k).blocked = true → s.dev.pool % 1024 = 0 → Leaves (.evacuationRetry k) s
      ((s.dev.setTile k fun t => { t with stuck := [] }).evacuationWalk k)) ∧
    ((s.dev.tile k).blocked = false ∨ s.dev.pool % 1024 ≠ 0 → Leaves (.evacuationRetry k) s s.dev)) ∧
  (∀ (s : State) (ch r : Nat), ch < s.dev.nChans → (s.dev.rank ch r).st = .retired →
    (s.dev.rankHolds ch r = true → Leaves (.rankEmpty ch r) s s.dev) ∧
    (s.dev.rankHolds ch r = false → Does (.rankEmpty ch r) s fun e => e.Pending 138 ∧ (e.rank ch r).st = .empty ∧
      (e.rank ch r).m = 0 ∧ { ch := ch, r := r } ∉ (e.tile (ch / 8)).evacs ∧
      ∀ b, s.dev.retireBg ch r = some b → b.abandoned = false → b.mute = false → s.dev.coresGone = false →
        s.dev.Sent e (.cci b.src .success 0 (s.dev.rank ch r).retireOut)))

/-- R94 to R96, R101, R105, R106, R108, R109, R111, R112, R133, R145: a pump takes a job only while it is free, a job commits at a boundary
after it is ready and its pages go to their destinations, or return to their sources where they were dirtied; fences end or are abandoned
with EV091, aborts and resumes are for managers, the sweep runs once per stroke, and a book slot without references retires with EV096. -/
def Obligations.PumpsFencesSweepAndBooks : Prop :=
  (∀ (s : State) (p : Nat), (s.dev.pumpFree p = false ∨ s.dev.pickJob p = none → Leaves (.pumpJobStart p) s s.dev) ∧
    (∀ q d, s.dev.pumpFree p = true → s.dev.pickJob p = some q →
      d = (s.dev.setTile (p / 8) fun t => { t with queue := t.queue.erase q }).startJob p q → (d.pump p).job.isSome = true →
      Leaves (.pumpJobStart p) s (d.pumpRun p))) ∧
  (∀ (s : State) (k n : Nat), (((List.range 8).map (8 * k + ·)).find? (fun p => (s.dev.pump p).job.elim false Job.waitDec) = none →
      Leaves (.decoderAvailable k n) s s.dev) ∧
    (∀ p, ((List.range 8).map (8 * k + ·)).find? (fun p => (s.dev.pump p).job.elim false Job.waitDec) = some p → k < s.dev.nTiles → n < 16 →
      (s.dev.pumpDecs k).contains (16 * k + n) = false → (s.dev.freeDec k).isSome = true → Leaves (.decoderAvailable k n) s
        ((s.dev.setPump p fun x => { x with job := x.job.map fun j => { j with decoder := some (16 * k + n), waitDec := false } }).pumpRun p)) ∧
    (∀ p, ((List.range 8).map (8 * k + ·)).find? (fun p => (s.dev.pump p).job.elim false Job.waitDec) = some p →
      (s.dev.pumpDecs k).contains (16 * k + n) = true → Leaves (.decoderAvailable k n) s s.dev)) ∧
  (∀ (s : State) (p : Nat) (j : Job) (slow : List Nat), (s.dev.pump p).job = some j →
      slow = ((j.pages.map Prod.fst).filter fun g => !s.dev.fenceDone g && decide (j.waited g ≥ s.dev.fld (pumpBase p) 23 16)) →
    (j.fencing = false → Leaves (.fenceComplete p) s s.dev ∧ Leaves (.fenceAbandon p) s s.dev) ∧
    (j.fencing = true → (s.dev.pump p).st = 3 → ∀ d : Dev, d = j.pages.foldl (fun d x => d.fencePage x.1) s.dev →
      ((∀ x ∈ j.pages, d.fenceDone x.1 = true) → Leaves (.fenceComplete p) s
        ((d.setPump p fun x => { x with st := 1, job := some { j with fencing := false } }).pumpRun p)) ∧
      ((∃ x ∈ j.pages, d.fenceDone x.1 = false) → Leaves (.fenceComplete p) s d)) ∧
    (j.fencing = true → slow ≠ [] → slow.length = j.pages.length → (s.dev.pump p).parked = none → Does (.fenceAbandon p) s fun e =>
      e.Pending 91 ∧ (e.pump p).job = none ∧ (e.pump p).result = 5) ∧
    (j.fencing = true → slow ≠ [] → slow.length ≠ j.pages.length → Does (.fenceAbandon p) s fun e => e.Pending 91 ∧ (e.pump p).result = 5 ∧
      ∃ i, (e.pump p).job = some i ∧ i.pages = j.pages.filter fun x => !slow.contains x.1) ∧
    (slow = [] → Leaves (.fenceAbandon p) s s.dev)) ∧
  (∀ (s : State) (p t : Nat) (j : Job), (s.dev.pump p).job = some j → (s.dev.pump p).finished = some t →
    ((s.dev.pump p).abort = true ∨ s.dev.time.loc ≤ t ∨ (s.dev.pump p).st = 5 ∨ (s.dev.pump p).st = 6 → Leaves (.commitPhase p) s s.dev) ∧
    (t < s.dev.time.loc → (s.dev.pump p).abort = false → (s.dev.pump p).st ≠ 5 → (s.dev.pump p).st ≠ 6 → (s.dev.pump p).parked = none → j.metaRun = none → j.ownsRun = false → j.ty ≠ 1 → j.ty ≠ 2 →
      ∀ x, j.dest = [x] → x.how = 0 → (s.dev.entry x.page).st = .moving → (s.dev.entry x.page).owner = p % 8 →
      (j.dirty.contains x.page = false → Does (.commitPhase p) s fun e => e.entry x.page = commitEntry (s.dev.entry x.page) x ∧
        (e.pump p).job = none ∧ (e.pump p).result = 1 ∧ (e.pump p).pages = 1) ∧
      (j.dirty.contains x.page = true → j.ty ≠ 7 → Does (.commitPhase p) s fun e =>
        e.entry x.page = { s.dev.entry x.page with st := .stable, owner := 0 } ∧ (e.pump p).result = 4 ∧ (e.pump p).pages = 0))) ∧
  (∀ (src : Src) (s : State) (p : Nat), p < s.dev.nPumps → s.dev.regOk src = true →
    Leaves (.pumpAbort src p) s (s.dev.setPump p fun x => { x with abort := true }) ∧
    ((s.dev.pump p).st = 5 → Leaves (.pumpResume src p) s (s.dev.rollBack p 6)) ∧
    ((s.dev.pump p).st ≠ 5 → Leaves (.pumpResume src p) s s.dev)) ∧
  (∀ (src : Src) (s : State) (p : Nat), s.dev.regOk src = false → Leaves (.pumpAbort src p) s s.dev ∧ Leaves (.pumpResume src p) s s.dev) ∧
  (∀ (s : State) (g : Nat), s.dev.homed g = true →
    (s.dev.decayDue = false → s.dev.decayEp ≠ s.dev.epoch + 1 → Leaves (.heatDecayPass [g]) s s.dev) ∧
    (∀ d : Dev, s.dev.decayDue = true → d = { s.dev with decayEp := s.dev.epoch + 1, oweD := false } → Leaves (.heatDecayPass [g]) s
      { d.setEntry g (d.warm (d.homeTile g) (d.entry g)) with decayPos := g + 1 }) ∧
    (s.dev.decayDue = false → s.dev.decayEp = s.dev.epoch + 1 → s.dev.decayPos ≤ g → Leaves (.heatDecayPass [g]) s
      { s.dev.setEntry g (s.dev.warm (s.dev.homeTile g) (s.dev.entry g)) with decayPos := g + 1 }) ∧
    (s.dev.decayDue = false → g < s.dev.decayPos → Leaves (.heatDecayPass [g]) s s.dev)) ∧
  (∀ (s : State) (k : Nat), (s.dev.sweepPump k = none ∨ (s.dev.tile k).sweptAt = s.dev.time.loc + 1 → Leaves (.sweepStep k) s s.dev) ∧
    (∀ p, s.dev.sweepPump k = some p → k < s.dev.nTiles → (s.dev.tile k).sweptAt ≠ s.dev.time.loc + 1 → s.dev.pumpOff p = false →
      s.dev.pwr.done = 0 → 0 < s.dev.cfg.capacity → Leaves (.sweepStep k) s
        (forAll (s.dev.setTile k fun t => { t with sweptAt := s.dev.time.loc + 1 })
          (List.range (s.dev.fld (mtBase k + 0x8010) 28 24 * 16)) fun d _ => d.sweepOne k)) ∧
    (∀ g, s.dev.nextHomed k 256 (s.dev.tile k).sweepPos = some g →
      s.dev.sweepOne k = (s.dev.sweepVisit k g).setTile k fun t => { t with sweepPos := g + 1 }) ∧
    (s.dev.epoch < (s.dev.tile k).passEpoch + 2 ^ 15 → Leaves (.sweepStale k) s s.dev) ∧
    (k < s.dev.nTiles → (s.dev.tile k).passEpoch + 2 ^ 15 ≤ s.dev.epoch → Does (.sweepStale k) s fun e => e.Pending 89 ∧
      (e.tile k).stale = true ∧ (e.tile k).passEpoch = s.dev.epoch ∧ (e.tile k).parity = !(s.dev.tile k).parity)) ∧
  (∀ (s : State) (n : Nat), n < 16 → (s.dev.book n).st = .retiring →
    (s.dev.bookRefs n ≠ 0 → Leaves (.bookSlotRetireEnd n) s s.dev) ∧
    (∀ b, s.dev.bookRefs n = 0 → (s.dev.book n).pending = some b → Raises (.bookSlotRetireEnd n) s 96
      (s.dev.setBook n fun _ => { st := .live, book := some b, pending := none })) ∧
    (s.dev.bookRefs n = 0 → (s.dev.book n).pending = none → Raises (.bookSlotRetireEnd n) s 96 (s.dev.setBook n fun _ => {})))

/-- R189, R192 to R194, R270: a broadcast is taken once, in order, and passed on; a domain of another device goes down or comes up as it says,
its acknowledgements are collected, Rejoin Domain starts only with what it needs, and a Rejoining domain that is not acknowledged in time
goes back to Down with Retry Required. -/
def Obligations.DomainsDownUpAndRejoined : Prop :=
  (∀ (s : State) (p : Nat) (b : Bcast) (d : Dev),
    (s.dev.portUp p = false → Leaves (.domainDown p b) s s.dev ∧ Leaves (.domainUp p b) s s.dev) ∧
    (s.dev.hear p 1 b = some d → Leaves (.domainDown p b) s (d.detectDown b.dev b.group 7 17 (portSlice p))) ∧
    (s.dev.hear p 1 b = some d → b.dev ≠ d.devId → Tbl.look d.remDown (b.dev * 256 + b.group) = none → Leaves (.domainDown p b) s { d with
      remDown := Tbl.put d.remDown (b.dev * 256 + b.group) 1, remAt := Tbl.put d.remAt (b.dev * 256 + b.group) d.pool }) ∧
    (s.dev.hear p 2 b = some d → Leaves (.domainUp p b) s { d with
      remDown := Tbl.put d.remDown (b.dev * 256 + b.group) 3, cas := { d.cas with ups := d.cas.ups ++ [(b.dev * 256 + b.group, b)] } })) ∧
  (∀ (s : State) (p : Nat) (a : BcastAck), (s.dev.portUp p = false ∨ a.epoch ≠ s.dev.cas.epoch → Leaves (.broadcastAck p a) s s.dev) ∧
    (∀ g x, s.dev.portUp p = true → a.epoch = s.dev.cas.epoch → a.kind = 2 → s.dev.doms = [(g, x)] → x.st = .rejoining → x.bseq = a.bseq →
      Does (.broadcastAck p a) s fun e => a.member ∈ (e.dom g).acks ∧ ∀ m ∈ x.acks, m ∈ (e.dom g).acks)) ∧
  (∀ (src : Src) (q : List Byte) (s : State) (d : Dev) (g : Nat) (mask : BitVec 16) (gu : Bool), Accepted (.rejoinDomain src q) s src d →
    q.length = 8 → fieldAt q 1 1 < 2 → fieldAt q 4 4 = 0 → g = fieldAt q 0 1 → mask = BitVec.ofNat 16 (fieldAt q 2 2) →
    gu = bit (fieldAt q 1 1) 0 →
    (d.rejoinOk g mask gu = false → Leaves (.rejoinDomain src q) s (d.reply src .invalidInput)) ∧
    (d.rejoinOk g mask gu = true → (d.dom g).st = .rejoining → Leaves (.rejoinDomain src q) s (d.reply src .busy)) ∧
    (d.rejoinOk g mask gu = true → (d.dom g).st ≠ .rejoining → (d.dom g).want = none → d.bgRuns src = false →
      Leaves (.rejoinDomain src q) s ((d.setDom g fun x => { x with want := some (mask, gu) }).startBg src (.rejoin g)))) ∧
  (∀ (s : State) (g : Nat),
    ((s.dev.dom g).st ≠ .rejoining ∨ s.dev.time.loc < (s.dev.dom g).since + 1024 → Leaves (.rejoinTimeout g) s s.dev) ∧
    (∀ m, (s.dev.dom g).st = .rejoining → (s.dev.dom g).ackAll = false → (s.dev.dom g).since + 1024 ≤ s.dev.time.loc →
      s.dev.lateMember g = some m → Does (.rejoinTimeout g) s fun e => (e.dom g).st = .down ∧ (e.dom g).want = none ∧
        ∀ b, s.dev.cfg.bg = [b] → b.kind = .rejoin g → b.result = none → b.abandoned = false → b.mute = false → s.dev.coresGone = false →
          e.cfg.bg = [] ∧ ∃ o, s.dev.Sent e (.cci b.src .retryRequired 0x0105 o)))

/-- R13, R297, R352, R366, R390, R393, R419, R425, R448: a reset keeps the OTP, the stroke count and what must last, cold reset keeps only the
OTP, the NVM and the ledger; a crossing resets what its table says with EV002, a tile is released after 8 good strokes, and SRAM faults
and lost modules are recorded. -/
def Obligations.ResetsCrossingsAndFaults : Prop :=
  (∀ s : State, s.dev.resetHeld = false → s.dev.therm.latched = false → Does (.resetN true) s fun e => e.resetHeld = true ∧
    e.prim = .unprimed ∧ e.acts = [] ∧ e.otp = s.dev.otp ∧ e.time.loc = s.dev.time.loc ∧ e.time.ofs = s.dev.time.ofs ∧ e.wmap = [] ∧
    e.reads = [] ∧ e.kdoms = [] ∧ e.sec.sessions = [] ∧ e.sec.dbgEver = s.dev.sec.dbgEver ∧ e.cfg.txn = {} ∧
    e.cores.mismatch = s.dev.cores.mismatch ∧ ∀ n, s.dev.Pending n → e.Pending n) ∧
  (∀ (s : State) (b : Bool), s.dev.resetHeld = true ∨ (s.dev.therm.latched = true ∧ s.dev.resetDue = none) → Leaves (.resetN b) s s.dev) ∧
  (∀ (s : State) (st : Straps), (s.dev.resetHeld = false → Leaves (.resetNDeassertion st) s s.dev) ∧
    (s.dev.resetHeld = true → s.dev.therm.latched = false → ∀ d : Dev,
      d = { s.dev with resetHeld := false, clk := { s.dev.clk with straps := { s.dev.clk.straps with
        nvmMode := st.nvmMode, testMode := st.testMode } } } →
      Leaves (.resetNDeassertion st) s d.primeBegin) ∧
    (s.dev.resetHeld = true → s.dev.therm.latched = true → Does (.resetNDeassertion st) s fun e => e.resetHeld = false ∧
      e.clk.straps = { s.dev.clk.straps with nvmMode := st.nvmMode, testMode := st.testMode } ∧ e.prim = s.dev.prim)) ∧
  (∀ (s : State) (st : Straps) (m n : Dev),
    m = { otp := s.dev.otp, led := s.dev.led.written, nvm := s.dev.nvm, out := s.dev.out, free := s.dev.free, clk := { straps := st } } →
    n = (m.setSup fun x => { x with held := m.fabricTiles }) →
    (n.hasGuest = true → Leaves (.coldReset st) s (n.emit (.gtRst true)).primeBegin) ∧
    (n.hasGuest = false → Leaves (.coldReset st) s n.primeBegin)) ∧
  (∀ d : Dev, (d.hasGuest = true → d.primeBegin = { d with prim := .waiting }) ∧ (d.hasGuest = false → d.primeBegin = d.primeStart)) ∧
  (∀ s : State, (s.dev.primeReady = false ∨ (∀ l, s.dev.prim ≠ .priming l) → Leaves .primed s s.dev) ∧
    (s.dev.prim = .priming false → s.dev.primeReady = true → Does .primed s fun e => e.prim = .primed ∧ e.Pending 40 ∧
      e.cfg.capacity = capacityOf s.dev.cfg.active.regions s.dev.grants ∧ e.sec.activeAt = s.dev.time.loc ∧ e.cas.epoch ≠ 0#32)) ∧
  (∀ (s : State) (h c t : Nat), (∀ e, exec (.hostLinkDown h) s = .next e → Leaves (.pllFailure (.serdesHost h)) s
      (if e.dev.clockThere (.serdesHost h) then e.dev.setMon (clockKey (.serdesHost h)) fun _ => { skip := true } else e.dev)) ∧
    (c < s.dev.nChans → (s.dev.chan c).pllFailed = false → Does (.pllFailure (.ddr c)) s fun e => (e.chan c).pllFailed = true ∧
      (e.chan c).up = false ∧ (e.chan c).bringUp = []) ∧
    Leaves (.pllFailure .core) s s.dev ∧
    (s.dev.sup.held.contains t = true → 8 ≤ Tbl.get 0 s.dev.sup.rstRun t → Leaves (.tileResetRelease t) s (s.dev.setSup fun x => { x with
      held := x.held.filter (· != t), rstRun := Tbl.del x.rstRun t })) ∧
    (Tbl.get 0 s.dev.sup.rstRun t < 8 → Leaves (.tileResetRelease t) s s.dev)) ∧
  (∀ (s : State) (r t : Nat) (ct : Bool), (s.dev.monitorOn r t = false → Leaves (.resetCrossing r t ct) s s.dev) ∧
    (s.dev.monitorOn 6 t = true → (∀ h ∈ tilePorts t, (s.dev.head h).up = false ∧ (s.dev.port h).st = .down) → Does (.resetCrossing 6 t ct) s fun e => e.Pending 2 ∧ t ∈ e.sup.held ∧ e.sup.latch = some (6, t) ∧
      e.sup.brace = false ∧ e.prim = s.dev.prim)) ∧
  (∀ (s : State) (t : Nat), s.dev.tilePresent t = true → Leaves (.sramPatrol t .nothing) s s.dev ∧ Raises (.sramPatrol t .single) s 253 s.dev ∧
    (∀ g, 6 + s.dev.homeTile (g / 32) = t → Leaves (.sramPatrol t (.cleanCistern g)) s (s.dev.refetchGran g)) ∧
    (∀ l, 6 + s.dev.homeTile (lnPage l) = t → Leaves (.sramPatrol t (.dirtyCistern l)) s (s.dev.dropDirty l)) ∧
    (s.dev.therm.latched = true → Raises (.sramPatrol t .other) s 6 s.dev)) ∧
  (∀ (s : State) (m : Nat) (b : Bool), (s.dev.modPresent m = false ∨ (s.dev.modu m).st = 4 → Leaves (.chrotenModuleDown m b) s s.dev) ∧
    (s.dev.modPresent m = true → (s.dev.modu m).st = 2 → modTile m ≠ 10 → (s.dev.moduleDown m false).cutOff m = false →
      (s.dev.modu m).leaves = [] → (tileMods 10).any (fun j => (s.dev.modu j).st != 4) = true →
      Leaves (.chrotenModuleDown m false) s (s.dev.setMod m fun y => { y with
        st := 1, rate := 0, repaired := false, leaves := [s.dev.time.loc] })))

/-- R38, R47 to R54, R276 to R278: a boundary counts the stroke; a Stroke Frame and a pair word are taken on a live port, the measured error
makes the device aligned, slew, or step with EV050, two missing marks start holdover with EV049, an activation takes the first entry due. -/
def Obligations.StrokesAlignmentAndActivations : Prop :=
  (∀ (s : State) (x : Samples) (d : Dev), d = s.dev.tick x.halfNs → d.time.loc = s.dev.time.loc + 1 ∧ d.ev.pend = s.dev.ev.pend ∧
    (d.resetIsDue = true → Leaves (.strokeBoundary x) s (d.resetAndPrime.plantBoundary x)) ∧
    (d.resetIsDue = false → ∀ e : Dev, e = d.stepOne s.dev x → Leaves (.strokeBoundary x) s
      ((((((e.alignBoundary s.dev).cntBoundary s.dev x.signals).bwBoundary s.dev x.bytes e.poolMoves).runActs s.dev).sendFrames).stepsFiveSix
        x.heldBack))) ∧
  (∀ (s : State) (p : Nat) (f : FrameMsg), p < s.dev.nHosts → (s.dev.port p).st = .up →
    (f.plain = true → (s.dev.port p).keyed = true → Leaves (.strokeFrame p f) s s.dev) ∧
    (f.plain = false → s.dev.role ≠ 2 → Leaves (.strokeFrame p f) s
      (s.dev.setPort p fun c => { c with frame := some f, frameAt := s.dev.time.loc })) ∧
    (∀ w start mark, (pairBnd w = false → Leaves (.pairWord p w start mark) s s.dev) ∧ (pairBnd w = true → Leaves (.pairWord p w start mark) s
      (s.dev.setPort p fun c => { c with arr := ((mark % 65536, start - Int.ofNat (pairOfs w)) :: c.arr).take 4 })))) ∧
  (∀ (s : State) (p : Nat) (f : FrameMsg) (a b : Int) (d : Dev), s.dev.strokePort = some p → (s.dev.port p).goodFrame = some f →
    f.arrOfs = some b → (s.dev.port p).arrivalOf (f.stroke.toNat + 65535) = some a → s.dev.role = 2 → s.dev.portUp p = true →
    s.dev.time.loc = (s.dev.port p).frameAt + 1 → s.dev.time.corrAt ≠ s.dev.time.loc →
    d = ((s.dev.setPort p fun c => { c with delay := ((a + b) / 2).toNat }).setTime fun t => { t with corrAt := s.dev.time.loc }) →
    ((b - a).natAbs ≤ 160 → Does .phaseCorrection s fun e => e.time.aligned = true ∧ e.time.phaseErr = (b - a) / 16 ∧ e.time.slew = 0 ∧
      (e.port p).delay = ((a + b) / 2).toNat ∧ e.ev = s.dev.ev) ∧
    (160 < (b - a).natAbs → (b - a).natAbs ≤ s.dev.fld 0x214 15 8 * 320 → Leaves .phaseCorrection s (d.setTime fun t => { t with
      phaseErr := (b - a) / 16, aligned := false
      slew := if 0 < b - a then -Int.ofNat (s.dev.fld 0x214 7 0) else Int.ofNat (s.dev.fld 0x214 7 0) })) ∧
    (160 < (b - a).natAbs → s.dev.fld 0x214 15 8 * 320 < (b - a).natAbs → Raises .phaseCorrection s 50 (d.setTime fun t => { t with
      phaseErr := (b - a) / 16, aligned := false, slew := stepSlew ((b - a) / 16), realigned := true }))) ∧
  (∀ s : State, (s.dev.strokePort = none → Leaves .phaseCorrection s s.dev ∧ Leaves .poolOffsetRewrite s s.dev) ∧
    (s.dev.time.missed < 2 ∨ s.dev.role ≠ 2 ∨ s.dev.time.holdover = true → Leaves .holdoverEntry s s.dev) ∧
    (s.dev.role = 2 → s.dev.time.holdover = false → 2 ≤ s.dev.time.missed → s.dev.strokePort = none → Raises .holdoverEntry s 49
      (s.dev.setTime fun t => { t with holdover := true, planned := false, aligned := false })) ∧
    (s.dev.dueActs = [] → Leaves .activation s s.dev) ∧
    (∀ a, s.dev.dueActs = [a] → s.dev.clk.moving = false → s.dev.coresGone = false → s.dev.sup.brace = false → a ∈ s.dev.acts →
        (∀ n, a.kind ≠ .pertEnd n) →
      Leaves .activation s (({ s.dev with acts := s.dev.acts.erase a }).runAct a))) ∧
  (∀ (s : State) (p : Nat) (f : FrameMsg), s.dev.strokePort = some p → (s.dev.port p).goodFrame = some f → s.dev.role = 2 →
    (s.dev.rewriteDue = false → Leaves .poolOffsetRewrite s s.dev) ∧
    (s.dev.rewriteDue = true → s.dev.acts = [] → (∀ q, (s.dev.pert q).st ≠ 2) → Does .poolOffsetRewrite s fun e => e.Pending 50 ∧ e.time.markBad = false ∧
      e.time.ofs = Int.ofNat f.stroke.toNat - Int.ofNat (s.dev.port p).frameAt ∧ e.time.realigned = true))
end

