-- ==== Sys2Proof/Laws/State.lean ====
section
/-! SUPPORT. What each small operation on the state leaves: reading a table that was written, the record of one unit after it was
changed, and the fields that a change of one field leaves alone. -/

namespace Sys2Proof.Machine

open Sys2Proof

/-! ### Sparse tables -/

@[simp] theorem Tbl.get_nil {α : Type} (dflt : α) (k : Nat) : Tbl.get dflt [] k = dflt := rfl

theorem Tbl.get_put {α : Type} (dflt : α) (t : Tbl α) (k : Nat) (v : α) (j : Nat) :
    Tbl.get dflt (Tbl.put t k v) j = if j = k then v else Tbl.get dflt t j := by
  induction t with
  | nil => rfl
  | cons x t ih =>
    obtain ⟨i, w⟩ := x
    simp only [Tbl.put]
    split
    · subst_vars; simp only [Tbl.get]; split <;> simp_all
    · split
      · simp only [Tbl.get]
      · simp only [Tbl.get, ih]
        split
        · have : j ≠ k := by omega
          simp [this]
        · rfl

theorem Tbl.get_del {α : Type} (dflt : α) (t : Tbl α) (k j : Nat) :
    Tbl.get dflt (Tbl.del t k) j = if j = k then dflt else Tbl.get dflt t j := by
  induction t with
  | nil => simp [Tbl.del, Tbl.get]
  | cons x t ih =>
    obtain ⟨i, w⟩ := x
    simp only [Tbl.del] at ih
    simp only [Tbl.del, List.filter_cons]
    split
    · simp only [Tbl.get, ih]; split <;> simp_all
    · simp only [Tbl.get, ih]; split <;> simp_all

theorem Tbl.get_set {α : Type} [DecidableEq α] (dflt : α) (t : Tbl α) (k : Nat) (v : α) (j : Nat) :
    Tbl.get dflt (Tbl.set dflt t k v) j = if j = k then v else Tbl.get dflt t j := by
  unfold Tbl.set
  split
  · rw [Tbl.get_del]; split <;> simp_all
  · exact Tbl.get_put dflt t k v j

theorem Tbl.get_upd {α : Type} [DecidableEq α] (dflt : α) (t : Tbl α) (k : Nat) (f : α → α) (j : Nat) :
    Tbl.get dflt (Tbl.upd dflt t k f) j = if j = k then f (Tbl.get dflt t k) else Tbl.get dflt t j :=
  Tbl.get_set dflt t k _ j

/-! ### The record of one unit after a change -/

@[simp] theorem Dev.head_setHead (d : Dev) (n : Nat) (f) (j : Nat) :
    (d.setHead n f).head j = if j = n then f (d.head n) else d.head j := Tbl.get_upd _ _ n f j
@[simp] theorem Dev.tile_setTile (d : Dev) (n : Nat) (f) (j : Nat) :
    (d.setTile n f).tile j = if j = n then f (d.tile n) else d.tile j := Tbl.get_upd _ _ n f j
@[simp] theorem Dev.pump_setPump (d : Dev) (n : Nat) (f) (j : Nat) :
    (d.setPump n f).pump j = if j = n then f (d.pump n) else d.pump j := Tbl.get_upd _ _ n f j
@[simp] theorem Dev.enc_setEnc (d : Dev) (n : Nat) (f) (j : Nat) :
    (d.setEnc n f).enc j = if j = n then f (d.enc n) else d.enc j := Tbl.get_upd _ _ n f j
@[simp] theorem Dev.dec_setDec (d : Dev) (n : Nat) (f) (j : Nat) :
    (d.setDec n f).dec j = if j = n then f (d.dec n) else d.dec j := Tbl.get_upd _ _ n f j
@[simp] theorem Dev.hsl_setHs (d : Dev) (n : Nat) (f) (j : Nat) :
    (d.setHs n f).hsl j = if j = n then f (d.hsl n) else d.hsl j := Tbl.get_upd _ _ n f j
@[simp] theorem Dev.dom_setDom (d : Dev) (n : Nat) (f) (j : Nat) :
    (d.setDom n f).dom j = if j = n then f (d.dom n) else d.dom j := Tbl.get_upd _ _ n f j
@[simp] theorem Dev.chan_setChan (d : Dev) (n : Nat) (f) (j : Nat) :
    (d.setChan n f).chan j = if j = n then f (d.chan n) else d.chan j := Tbl.get_upd _ _ n f j
@[simp] theorem Dev.port_setPort (d : Dev) (n : Nat) (f) (j : Nat) :
    (d.setPort n f).port j = if j = n then f (d.port n) else d.port j := Tbl.get_upd _ _ n f j
@[simp] theorem Dev.route_setRoute (d : Dev) (n : Nat) (f) (j : Nat) :
    (d.setRoute n f).route j = if j = n then f (d.route n) else d.route j := Tbl.get_upd _ _ n f j
@[simp] theorem Dev.bay_setBay (d : Dev) (n : Nat) (f) (j : Nat) :
    (d.setBay n f).bay j = if j = n then f (d.bay n) else d.bay j := Tbl.get_upd _ _ n f j
@[simp] theorem Dev.sens_setSens (d : Dev) (n : Nat) (f) (j : Nat) :
    (d.setSens n f).sens j = if j = n then f (d.sens n) else d.sens j := Tbl.get_upd _ _ n f j
@[simp] theorem Dev.bw_setBw (d : Dev) (n : Nat) (f) (j : Nat) :
    (d.setBw n f).bw j = if j = n then f (d.bw n) else d.bw j := Tbl.get_upd _ _ n f j
@[simp] theorem Dev.pert_setPert (d : Dev) (n : Nat) (f) (j : Nat) :
    (d.setPert n f).pert j = if j = n then f (d.pert n) else d.pert j := Tbl.get_upd _ _ n f j
@[simp] theorem Dev.modu_setMod (d : Dev) (n : Nat) (f) (j : Nat) :
    (d.setMod n f).modu j = if j = n then f (d.modu n) else d.modu j := Tbl.get_upd _ _ n f j
@[simp] theorem Dev.kd_setKd (d : Dev) (n : Nat) (f) (j : Nat) :
    (d.setKd n f).kd j = if j = n then f (d.kd n) else d.kd j := Tbl.get_upd _ _ n f j
@[simp] theorem Dev.book_setBook (d : Dev) (n : Nat) (f) (j : Nat) :
    (d.setBook n f).book j = if j = n then f (d.book n) else d.book j := by
  unfold Dev.book Dev.setBook
  by_cases h : j = n
  · subst h; simpa using Tbl.get_upd _ _ j f j
  · simp only [h, if_false, Tbl.upd, Tbl.set]
    split
    · rw [Tbl.get_del]; simp [h]
    · rw [Tbl.get_put]; simp [h]
@[simp] theorem Dev.cnt_setCnt (d : Dev) (n : Nat) (f) (j : Nat) :
    (d.setCnt n f).cnt j = if j = n then f (d.cnt n) else d.cnt j := by
  unfold Dev.cnt Dev.setCnt
  by_cases h : j = n
  · subst h; simpa using Tbl.get_upd _ _ j f j
  · simp only [h, if_false, Tbl.upd, Tbl.set]
    split
    · rw [Tbl.get_del]; simp [h]
    · rw [Tbl.get_put]; simp [h]
@[simp] theorem Dev.rank_setRank (d : Dev) (c r : Nat) (f) (j k : Nat) :
    (d.setRank c r f).rank j k = if j = c ∧ k = r then f (d.rank c r) else d.rank j k := by
  unfold Dev.rank Dev.setRank
  rw [Dev.chan_setChan]
  by_cases h : j = c
  · subst h
    simp only [if_true, Chan.rank, Chan.setRank, Tbl.get_upd, true_and]
  · simp [h]
@[simp] theorem Dev.entry_setEntry (d : Dev) (p : Nat) (e : MapEntry) (j : Nat) :
    (d.setEntry p e).entry j = if j = p then e else d.entry j := Tbl.get_set _ _ p e j
@[simp] theorem Dev.log_setLog (d : Dev) (k : Nat) (f) (j : Nat) :
    (d.setLog k f).log j = if j = k then f (d.log k) else d.log j := Tbl.get_upd _ _ k f j

/-! ### The fields that a change of one field leaves alone -/

@[simp] theorem Dev.setHead_fields (d : Dev) (n) (f) :
    (d.setHead n f).time = d.time ∧ (d.setHead n f).acts = d.acts ∧ (d.setHead n f).cfg = d.cfg ∧ (d.setHead n f).prim = d.prim ∧
    (d.setHead n f).resetHeld = d.resetHeld ∧ (d.setHead n f).resetDue = d.resetDue ∧ (d.setHead n f).otp = d.otp ∧
    (d.setHead n f).nvm = d.nvm ∧ (d.setHead n f).nvmWait = d.nvmWait ∧ (d.setHead n f).led = d.led ∧ (d.setHead n f).wmap = d.wmap ∧
    (d.setHead n f).frames = d.frames ∧ (d.setHead n f).metaRuns = d.metaRuns ∧ (d.setHead n f).dram = d.dram ∧
    (d.setHead n f).poison = d.poison ∧ (d.setHead n f).cist = d.cist ∧ (d.setHead n f).tiles = d.tiles ∧
    (d.setHead n f).pumps = d.pumps ∧ (d.setHead n f).encs = d.encs ∧ (d.setHead n f).decs = d.decs ∧ (d.setHead n f).books = d.books ∧
    (d.setHead n f).kdoms = d.kdoms ∧ (d.setHead n f).hs = d.hs ∧ (d.setHead n f).reads = d.reads ∧ (d.setHead n f).promos = d.promos ∧
    (d.setHead n f).decayEp = d.decayEp ∧ (d.setHead n f).decayPos = d.decayPos ∧ (d.setHead n f).oweD = d.oweD ∧
    (d.setHead n f).missD = d.missD ∧ (d.setHead n f).nextRead = d.nextRead ∧ (d.setHead n f).doms = d.doms ∧
    (d.setHead n f).remDown = d.remDown ∧ (d.setHead n f).remAt = d.remAt ∧ (d.setHead n f).dry = d.dry ∧
    (d.setHead n f).overLimit = d.overLimit ∧ (d.setHead n f).chans = d.chans ∧ (d.setHead n f).cas = d.cas ∧
    (d.setHead n f).sec = d.sec ∧ (d.setHead n f).cores = d.cores ∧ (d.setHead n f).pwr = d.pwr ∧ (d.setHead n f).clk = d.clk ∧
    (d.setHead n f).sup = d.sup ∧ (d.setHead n f).bays = d.bays ∧ (d.setHead n f).therm = d.therm ∧ (d.setHead n f).ev = d.ev ∧
    (d.setHead n f).cnts = d.cnts ∧ (d.setHead n f).bws = d.bws ∧ (d.setHead n f).perts = d.perts ∧ (d.setHead n f).mods = d.mods ∧
    (d.setHead n f).gst = d.gst ∧ (d.setHead n f).mctp = d.mctp ∧ (d.setHead n f).out = d.out ∧ (d.setHead n f).free = d.free := by
  refine ⟨rfl, rfl, rfl, rfl, rfl, rfl, rfl, rfl, rfl, rfl, rfl, rfl, rfl, rfl, rfl, rfl, rfl, rfl, rfl, rfl, rfl, rfl, rfl, rfl, rfl, rfl, rfl, rfl, rfl, rfl, rfl, rfl, rfl, rfl, rfl, rfl, rfl, rfl, rfl, rfl, rfl, rfl, rfl, rfl, rfl, rfl, rfl, rfl, rfl, rfl, rfl, rfl, rfl⟩
@[simp] theorem Dev.setTile_fields (d : Dev) (n) (f) :
    (d.setTile n f).time = d.time ∧ (d.setTile n f).acts = d.acts ∧ (d.setTile n f).cfg = d.cfg ∧ (d.setTile n f).prim = d.prim ∧
    (d.setTile n f).resetHeld = d.resetHeld ∧ (d.setTile n f).resetDue = d.resetDue ∧ (d.setTile n f).otp = d.otp ∧
    (d.setTile n f).nvm = d.nvm ∧ (d.setTile n f).nvmWait = d.nvmWait ∧ (d.setTile n f).led = d.led ∧ (d.setTile n f).heads = d.heads ∧
    (d.setTile n f).wmap = d.wmap ∧ (d.setTile n f).frames = d.frames ∧ (d.setTile n f).metaRuns = d.metaRuns ∧
    (d.setTile n f).dram = d.dram ∧ (d.setTile n f).poison = d.poison ∧ (d.setTile n f).cist = d.cist ∧
    (d.setTile n f).pumps = d.pumps ∧ (d.setTile n f).encs = d.encs ∧ (d.setTile n f).decs = d.decs ∧ (d.setTile n f).books = d.books ∧
    (d.setTile n f).kdoms = d.kdoms ∧ (d.setTile n f).hs = d.hs ∧ (d.setTile n f).reads = d.reads ∧ (d.setTile n f).promos = d.promos ∧
    (d.setTile n f).decayEp = d.decayEp ∧ (d.setTile n f).decayPos = d.decayPos ∧ (d.setTile n f).oweD = d.oweD ∧
    (d.setTile n f).missD = d.missD ∧ (d.setTile n f).nextRead = d.nextRead ∧ (d.setTile n f).doms = d.doms ∧
    (d.setTile n f).remDown = d.remDown ∧ (d.setTile n f).remAt = d.remAt ∧ (d.setTile n f).dry = d.dry ∧
    (d.setTile n f).overLimit = d.overLimit ∧ (d.setTile n f).chans = d.chans ∧ (d.setTile n f).cas = d.cas ∧
    (d.setTile n f).sec = d.sec ∧ (d.setTile n f).cores = d.cores ∧ (d.setTile n f).pwr = d.pwr ∧ (d.setTile n f).clk = d.clk ∧
    (d.setTile n f).sup = d.sup ∧ (d.setTile n f).bays = d.bays ∧ (d.setTile n f).therm = d.therm ∧ (d.setTile n f).ev = d.ev ∧
    (d.setTile n f).cnts = d.cnts ∧ (d.setTile n f).bws = d.bws ∧ (d.setTile n f).perts = d.perts ∧ (d.setTile n f).mods = d.mods ∧
    (d.setTile n f).gst = d.gst ∧ (d.setTile n f).mctp = d.mctp ∧ (d.setTile n f).out = d.out ∧ (d.setTile n f).free = d.free := by
  refine ⟨rfl, rfl, rfl, rfl, rfl, rfl, rfl, rfl, rfl, rfl, rfl, rfl, rfl, rfl, rfl, rfl, rfl, rfl, rfl, rfl, rfl, rfl, rfl, rfl, rfl, rfl, rfl, rfl, rfl, rfl, rfl, rfl, rfl, rfl, rfl, rfl, rfl, rfl, rfl, rfl, rfl, rfl, rfl, rfl, rfl, rfl, rfl, rfl, rfl, rfl, rfl, rfl, rfl⟩
@[simp] theorem Dev.setPump_fields (d : Dev) (n) (f) :
    (d.setPump n f).time = d.time ∧ (d.setPump n f).acts = d.acts ∧ (d.setPump n f).cfg = d.cfg ∧ (d.setPump n f).prim = d.prim ∧
    (d.setPump n f).resetHeld = d.resetHeld ∧ (d.setPump n f).resetDue = d.resetDue ∧ (d.setPump n f).otp = d.otp ∧
    (d.setPump n f).nvm = d.nvm ∧ (d.setPump n f).nvmWait = d.nvmWait ∧ (d.setPump n f).led = d.led ∧ (d.setPump n f).heads = d.heads ∧
    (d.setPump n f).wmap = d.wmap ∧ (d.setPump n f).frames = d.frames ∧ (d.setPump n f).metaRuns = d.metaRuns ∧
    (d.setPump n f).dram = d.dram ∧ (d.setPump n f).poison = d.poison ∧ (d.setPump n f).cist = d.cist ∧
    (d.setPump n f).tiles = d.tiles ∧ (d.setPump n f).encs = d.encs ∧ (d.setPump n f).decs = d.decs ∧ (d.setPump n f).books = d.books ∧
    (d.setPump n f).kdoms = d.kdoms ∧ (d.setPump n f).hs = d.hs ∧ (d.setPump n f).reads = d.reads ∧ (d.setPump n f).promos = d.promos ∧
    (d.setPump n f).decayEp = d.decayEp ∧ (d.setPump n f).decayPos = d.decayPos ∧ (d.setPump n f).oweD = d.oweD ∧
    (d.setPump n f).missD = d.missD ∧ (d.setPump n f).nextRead = d.nextRead ∧ (d.setPump n f).doms = d.doms ∧
    (d.setPump n f).remDown = d.remDown ∧ (d.setPump n f).remAt = d.remAt ∧ (d.setPump n f).dry = d.dry ∧
    (d.setPump n f).overLimit = d.overLimit ∧ (d.setPump n f).chans = d.chans ∧ (d.setPump n f).cas = d.cas ∧
    (d.setPump n f).sec = d.sec ∧ (d.setPump n f).cores = d.cores ∧ (d.setPump n f).pwr = d.pwr ∧ (d.setPump n f).clk = d.clk ∧
    (d.setPump n f).sup = d.sup ∧ (d.setPump n f).bays = d.bays ∧ (d.setPump n f).therm = d.therm ∧ (d.setPump n f).ev = d.ev ∧
    (d.setPump n f).cnts = d.cnts ∧ (d.setPump n f).bws = d.bws ∧ (d.setPump n f).perts = d.perts ∧ (d.setPump n f).mods = d.mods ∧
    (d.setPump n f).gst = d.gst ∧ (d.setPump n f).mctp = d.mctp ∧ (d.setPump n f).out = d.out ∧ (d.setPump n f).free = d.free := by
  refine ⟨rfl, rfl, rfl, rfl, rfl, rfl, rfl, rfl, rfl, rfl, rfl, rfl, rfl, rfl, rfl, rfl, rfl, rfl, rfl, rfl, rfl, rfl, rfl, rfl, rfl, rfl, rfl, rfl, rfl, rfl, rfl, rfl, rfl, rfl, rfl, rfl, rfl, rfl, rfl, rfl, rfl, rfl, rfl, rfl, rfl, rfl, rfl, rfl, rfl, rfl, rfl, rfl, rfl⟩
@[simp] theorem Dev.setEnc_fields (d : Dev) (n) (f) :
    (d.setEnc n f).time = d.time ∧ (d.setEnc n f).acts = d.acts ∧ (d.setEnc n f).cfg = d.cfg ∧ (d.setEnc n f).prim = d.prim ∧
    (d.setEnc n f).resetHeld = d.resetHeld ∧ (d.setEnc n f).resetDue = d.resetDue ∧ (d.setEnc n f).otp = d.otp ∧
    (d.setEnc n f).nvm = d.nvm ∧ (d.setEnc n f).nvmWait = d.nvmWait ∧ (d.setEnc n f).led = d.led ∧ (d.setEnc n f).heads = d.heads ∧
    (d.setEnc n f).wmap = d.wmap ∧ (d.setEnc n f).frames = d.frames ∧ (d.setEnc n f).metaRuns = d.metaRuns ∧
    (d.setEnc n f).dram = d.dram ∧ (d.setEnc n f).poison = d.poison ∧ (d.setEnc n f).cist = d.cist ∧ (d.setEnc n f).tiles = d.tiles ∧
    (d.setEnc n f).pumps = d.pumps ∧ (d.setEnc n f).decs = d.decs ∧ (d.setEnc n f).books = d.books ∧ (d.setEnc n f).kdoms = d.kdoms ∧
    (d.setEnc n f).hs = d.hs ∧ (d.setEnc n f).reads = d.reads ∧ (d.setEnc n f).promos = d.promos ∧ (d.setEnc n f).decayEp = d.decayEp ∧
    (d.setEnc n f).decayPos = d.decayPos ∧ (d.setEnc n f).oweD = d.oweD ∧ (d.setEnc n f).missD = d.missD ∧
    (d.setEnc n f).nextRead = d.nextRead ∧ (d.setEnc n f).doms = d.doms ∧ (d.setEnc n f).remDown = d.remDown ∧
    (d.setEnc n f).remAt = d.remAt ∧ (d.setEnc n f).dry = d.dry ∧ (d.setEnc n f).overLimit = d.overLimit ∧
    (d.setEnc n f).chans = d.chans ∧ (d.setEnc n f).cas = d.cas ∧ (d.setEnc n f).sec = d.sec ∧ (d.setEnc n f).cores = d.cores ∧
    (d.setEnc n f).pwr = d.pwr ∧ (d.setEnc n f).clk = d.clk ∧ (d.setEnc n f).sup = d.sup ∧ (d.setEnc n f).bays = d.bays ∧
    (d.setEnc n f).therm = d.therm ∧ (d.setEnc n f).ev = d.ev ∧ (d.setEnc n f).cnts = d.cnts ∧ (d.setEnc n f).bws = d.bws ∧
    (d.setEnc n f).perts = d.perts ∧ (d.setEnc n f).mods = d.mods ∧ (d.setEnc n f).gst = d.gst ∧ (d.setEnc n f).mctp = d.mctp ∧
    (d.setEnc n f).out = d.out ∧ (d.setEnc n f).free = d.free := by
  refine ⟨rfl, rfl, rfl, rfl, rfl, rfl, rfl, rfl, rfl, rfl, rfl, rfl, rfl, rfl, rfl, rfl, rfl, rfl, rfl, rfl, rfl, rfl, rfl, rfl, rfl, rfl, rfl, rfl, rfl, rfl, rfl, rfl, rfl, rfl, rfl, rfl, rfl, rfl, rfl, rfl, rfl, rfl, rfl, rfl, rfl, rfl, rfl, rfl, rfl, rfl, rfl, rfl, rfl⟩
@[simp] theorem Dev.setDec_fields (d : Dev) (n) (f) :
    (d.setDec n f).time = d.time ∧ (d.setDec n f).acts = d.acts ∧ (d.setDec n f).cfg = d.cfg ∧ (d.setDec n f).prim = d.prim ∧
    (d.setDec n f).resetHeld = d.resetHeld ∧ (d.setDec n f).resetDue = d.resetDue ∧ (d.setDec n f).otp = d.otp ∧
    (d.setDec n f).nvm = d.nvm ∧ (d.setDec n f).nvmWait = d.nvmWait ∧ (d.setDec n f).led = d.led ∧ (d.setDec n f).heads = d.heads ∧
    (d.setDec n f).wmap = d.wmap ∧ (d.setDec n f).frames = d.frames ∧ (d.setDec n f).metaRuns = d.metaRuns ∧
    (d.setDec n f).dram = d.dram ∧ (d.setDec n f).poison = d.poison ∧ (d.setDec n f).cist = d.cist ∧ (d.setDec n f).tiles = d.tiles ∧
    (d.setDec n f).pumps = d.pumps ∧ (d.setDec n f).encs = d.encs ∧ (d.setDec n f).books = d.books ∧ (d.setDec n f).kdoms = d.kdoms ∧
    (d.setDec n f).hs = d.hs ∧ (d.setDec n f).reads = d.reads ∧ (d.setDec n f).promos = d.promos ∧ (d.setDec n f).decayEp = d.decayEp ∧
    (d.setDec n f).decayPos = d.decayPos ∧ (d.setDec n f).oweD = d.oweD ∧ (d.setDec n f).missD = d.missD ∧
    (d.setDec n f).nextRead = d.nextRead ∧ (d.setDec n f).doms = d.doms ∧ (d.setDec n f).remDown = d.remDown ∧
    (d.setDec n f).remAt = d.remAt ∧ (d.setDec n f).dry = d.dry ∧ (d.setDec n f).overLimit = d.overLimit ∧
    (d.setDec n f).chans = d.chans ∧ (d.setDec n f).cas = d.cas ∧ (d.setDec n f).sec = d.sec ∧ (d.setDec n f).cores = d.cores ∧
    (d.setDec n f).pwr = d.pwr ∧ (d.setDec n f).clk = d.clk ∧ (d.setDec n f).sup = d.sup ∧ (d.setDec n f).bays = d.bays ∧
    (d.setDec n f).therm = d.therm ∧ (d.setDec n f).ev = d.ev ∧ (d.setDec n f).cnts = d.cnts ∧ (d.setDec n f).bws = d.bws ∧
    (d.setDec n f).perts = d.perts ∧ (d.setDec n f).mods = d.mods ∧ (d.setDec n f).gst = d.gst ∧ (d.setDec n f).mctp = d.mctp ∧
    (d.setDec n f).out = d.out ∧ (d.setDec n f).free = d.free := by
  refine ⟨rfl, rfl, rfl, rfl, rfl, rfl, rfl, rfl, rfl, rfl, rfl, rfl, rfl, rfl, rfl, rfl, rfl, rfl, rfl, rfl, rfl, rfl, rfl, rfl, rfl, rfl, rfl, rfl, rfl, rfl, rfl, rfl, rfl, rfl, rfl, rfl, rfl, rfl, rfl, rfl, rfl, rfl, rfl, rfl, rfl, rfl, rfl, rfl, rfl, rfl, rfl, rfl, rfl⟩
@[simp] theorem Dev.setHs_fields (d : Dev) (n) (f) :
    (d.setHs n f).time = d.time ∧ (d.setHs n f).acts = d.acts ∧ (d.setHs n f).cfg = d.cfg ∧ (d.setHs n f).prim = d.prim ∧
    (d.setHs n f).resetHeld = d.resetHeld ∧ (d.setHs n f).resetDue = d.resetDue ∧ (d.setHs n f).otp = d.otp ∧
    (d.setHs n f).nvm = d.nvm ∧ (d.setHs n f).nvmWait = d.nvmWait ∧ (d.setHs n f).led = d.led ∧ (d.setHs n f).heads = d.heads ∧
    (d.setHs n f).wmap = d.wmap ∧ (d.setHs n f).frames = d.frames ∧ (d.setHs n f).metaRuns = d.metaRuns ∧ (d.setHs n f).dram = d.dram ∧
    (d.setHs n f).poison = d.poison ∧ (d.setHs n f).cist = d.cist ∧ (d.setHs n f).tiles = d.tiles ∧ (d.setHs n f).pumps = d.pumps ∧
    (d.setHs n f).encs = d.encs ∧ (d.setHs n f).decs = d.decs ∧ (d.setHs n f).books = d.books ∧ (d.setHs n f).kdoms = d.kdoms ∧
    (d.setHs n f).reads = d.reads ∧ (d.setHs n f).promos = d.promos ∧ (d.setHs n f).decayEp = d.decayEp ∧
    (d.setHs n f).decayPos = d.decayPos ∧ (d.setHs n f).oweD = d.oweD ∧ (d.setHs n f).missD = d.missD ∧
    (d.setHs n f).nextRead = d.nextRead ∧ (d.setHs n f).doms = d.doms ∧ (d.setHs n f).remDown = d.remDown ∧
    (d.setHs n f).remAt = d.remAt ∧ (d.setHs n f).dry = d.dry ∧ (d.setHs n f).overLimit = d.overLimit ∧ (d.setHs n f).chans = d.chans ∧
    (d.setHs n f).cas = d.cas ∧ (d.setHs n f).sec = d.sec ∧ (d.setHs n f).cores = d.cores ∧ (d.setHs n f).pwr = d.pwr ∧
    (d.setHs n f).clk = d.clk ∧ (d.setHs n f).sup = d.sup ∧ (d.setHs n f).bays = d.bays ∧ (d.setHs n f).therm = d.therm ∧
    (d.setHs n f).ev = d.ev ∧ (d.setHs n f).cnts = d.cnts ∧ (d.setHs n f).bws = d.bws ∧ (d.setHs n f).perts = d.perts ∧
    (d.setHs n f).mods = d.mods ∧ (d.setHs n f).gst = d.gst ∧ (d.setHs n f).mctp = d.mctp ∧ (d.setHs n f).out = d.out ∧
    (d.setHs n f).free = d.free := by
  refine ⟨rfl, rfl, rfl, rfl, rfl, rfl, rfl, rfl, rfl, rfl, rfl, rfl, rfl, rfl, rfl, rfl, rfl, rfl, rfl, rfl, rfl, rfl, rfl, rfl, rfl, rfl, rfl, rfl, rfl, rfl, rfl, rfl, rfl, rfl, rfl, rfl, rfl, rfl, rfl, rfl, rfl, rfl, rfl, rfl, rfl, rfl, rfl, rfl, rfl, rfl, rfl, rfl, rfl⟩
@[simp] theorem Dev.setDom_fields (d : Dev) (n) (f) :
    (d.setDom n f).time = d.time ∧ (d.setDom n f).acts = d.acts ∧ (d.setDom n f).cfg = d.cfg ∧ (d.setDom n f).prim = d.prim ∧
    (d.setDom n f).resetHeld = d.resetHeld ∧ (d.setDom n f).resetDue = d.resetDue ∧ (d.setDom n f).otp = d.otp ∧
    (d.setDom n f).nvm = d.nvm ∧ (d.setDom n f).nvmWait = d.nvmWait ∧ (d.setDom n f).led = d.led ∧ (d.setDom n f).heads = d.heads ∧
    (d.setDom n f).wmap = d.wmap ∧ (d.setDom n f).frames = d.frames ∧ (d.setDom n f).metaRuns = d.metaRuns ∧
    (d.setDom n f).dram = d.dram ∧ (d.setDom n f).poison = d.poison ∧ (d.setDom n f).cist = d.cist ∧ (d.setDom n f).tiles = d.tiles ∧
    (d.setDom n f).pumps = d.pumps ∧ (d.setDom n f).encs = d.encs ∧ (d.setDom n f).decs = d.decs ∧ (d.setDom n f).books = d.books ∧
    (d.setDom n f).kdoms = d.kdoms ∧ (d.setDom n f).hs = d.hs ∧ (d.setDom n f).reads = d.reads ∧ (d.setDom n f).promos = d.promos ∧
    (d.setDom n f).decayEp = d.decayEp ∧ (d.setDom n f).decayPos = d.decayPos ∧ (d.setDom n f).oweD = d.oweD ∧
    (d.setDom n f).missD = d.missD ∧ (d.setDom n f).nextRead = d.nextRead ∧ (d.setDom n f).remDown = d.remDown ∧
    (d.setDom n f).remAt = d.remAt ∧ (d.setDom n f).dry = d.dry ∧ (d.setDom n f).overLimit = d.overLimit ∧
    (d.setDom n f).chans = d.chans ∧ (d.setDom n f).cas = d.cas ∧ (d.setDom n f).sec = d.sec ∧ (d.setDom n f).cores = d.cores ∧
    (d.setDom n f).pwr = d.pwr ∧ (d.setDom n f).clk = d.clk ∧ (d.setDom n f).sup = d.sup ∧ (d.setDom n f).bays = d.bays ∧
    (d.setDom n f).therm = d.therm ∧ (d.setDom n f).ev = d.ev ∧ (d.setDom n f).cnts = d.cnts ∧ (d.setDom n f).bws = d.bws ∧
    (d.setDom n f).perts = d.perts ∧ (d.setDom n f).mods = d.mods ∧ (d.setDom n f).gst = d.gst ∧ (d.setDom n f).mctp = d.mctp ∧
    (d.setDom n f).out = d.out ∧ (d.setDom n f).free = d.free := by
  refine ⟨rfl, rfl, rfl, rfl, rfl, rfl, rfl, rfl, rfl, rfl, rfl, rfl, rfl, rfl, rfl, rfl, rfl, rfl, rfl, rfl, rfl, rfl, rfl, rfl, rfl, rfl, rfl, rfl, rfl, rfl, rfl, rfl, rfl, rfl, rfl, rfl, rfl, rfl, rfl, rfl, rfl, rfl, rfl, rfl, rfl, rfl, rfl, rfl, rfl, rfl, rfl, rfl, rfl⟩
@[simp] theorem Dev.setChan_fields (d : Dev) (n) (f) :
    (d.setChan n f).time = d.time ∧ (d.setChan n f).acts = d.acts ∧ (d.setChan n f).cfg = d.cfg ∧ (d.setChan n f).prim = d.prim ∧
    (d.setChan n f).resetHeld = d.resetHeld ∧ (d.setChan n f).resetDue = d.resetDue ∧ (d.setChan n f).otp = d.otp ∧
    (d.setChan n f).nvm = d.nvm ∧ (d.setChan n f).nvmWait = d.nvmWait ∧ (d.setChan n f).led = d.led ∧ (d.setChan n f).heads = d.heads ∧
    (d.setChan n f).wmap = d.wmap ∧ (d.setChan n f).frames = d.frames ∧ (d.setChan n f).metaRuns = d.metaRuns ∧
    (d.setChan n f).dram = d.dram ∧ (d.setChan n f).poison = d.poison ∧ (d.setChan n f).cist = d.cist ∧
    (d.setChan n f).tiles = d.tiles ∧ (d.setChan n f).pumps = d.pumps ∧ (d.setChan n f).encs = d.encs ∧ (d.setChan n f).decs = d.decs ∧
    (d.setChan n f).books = d.books ∧ (d.setChan n f).kdoms = d.kdoms ∧ (d.setChan n f).hs = d.hs ∧ (d.setChan n f).reads = d.reads ∧
    (d.setChan n f).promos = d.promos ∧ (d.setChan n f).decayEp = d.decayEp ∧ (d.setChan n f).decayPos = d.decayPos ∧
    (d.setChan n f).oweD = d.oweD ∧ (d.setChan n f).missD = d.missD ∧ (d.setChan n f).nextRead = d.nextRead ∧
    (d.setChan n f).doms = d.doms ∧ (d.setChan n f).remDown = d.remDown ∧ (d.setChan n f).remAt = d.remAt ∧
    (d.setChan n f).dry = d.dry ∧ (d.setChan n f).overLimit = d.overLimit ∧ (d.setChan n f).cas = d.cas ∧ (d.setChan n f).sec = d.sec ∧
    (d.setChan n f).cores = d.cores ∧ (d.setChan n f).pwr = d.pwr ∧ (d.setChan n f).clk = d.clk ∧ (d.setChan n f).sup = d.sup ∧
    (d.setChan n f).bays = d.bays ∧ (d.setChan n f).therm = d.therm ∧ (d.setChan n f).ev = d.ev ∧ (d.setChan n f).cnts = d.cnts ∧
    (d.setChan n f).bws = d.bws ∧ (d.setChan n f).perts = d.perts ∧ (d.setChan n f).mods = d.mods ∧ (d.setChan n f).gst = d.gst ∧
    (d.setChan n f).mctp = d.mctp ∧ (d.setChan n f).out = d.out ∧ (d.setChan n f).free = d.free := by
  refine ⟨rfl, rfl, rfl, rfl, rfl, rfl, rfl, rfl, rfl, rfl, rfl, rfl, rfl, rfl, rfl, rfl, rfl, rfl, rfl, rfl, rfl, rfl, rfl, rfl, rfl, rfl, rfl, rfl, rfl, rfl, rfl, rfl, rfl, rfl, rfl, rfl, rfl, rfl, rfl, rfl, rfl, rfl, rfl, rfl, rfl, rfl, rfl, rfl, rfl, rfl, rfl, rfl, rfl⟩
@[simp] theorem Dev.setRank_fields (d : Dev) (n r) (f) :
    (d.setRank n r f).time = d.time ∧ (d.setRank n r f).acts = d.acts ∧ (d.setRank n r f).cfg = d.cfg ∧
    (d.setRank n r f).prim = d.prim ∧ (d.setRank n r f).resetHeld = d.resetHeld ∧ (d.setRank n r f).resetDue = d.resetDue ∧
    (d.setRank n r f).otp = d.otp ∧ (d.setRank n r f).nvm = d.nvm ∧ (d.setRank n r f).nvmWait = d.nvmWait ∧
    (d.setRank n r f).led = d.led ∧ (d.setRank n r f).heads = d.heads ∧ (d.setRank n r f).wmap = d.wmap ∧
    (d.setRank n r f).frames = d.frames ∧ (d.setRank n r f).metaRuns = d.metaRuns ∧ (d.setRank n r f).dram = d.dram ∧
    (d.setRank n r f).poison = d.poison ∧ (d.setRank n r f).cist = d.cist ∧ (d.setRank n r f).tiles = d.tiles ∧
    (d.setRank n r f).pumps = d.pumps ∧ (d.setRank n r f).encs = d.encs ∧ (d.setRank n r f).decs = d.decs ∧
    (d.setRank n r f).books = d.books ∧ (d.setRank n r f).kdoms = d.kdoms ∧ (d.setRank n r f).hs = d.hs ∧
    (d.setRank n r f).reads = d.reads ∧ (d.setRank n r f).promos = d.promos ∧ (d.setRank n r f).decayEp = d.decayEp ∧
    (d.setRank n r f).decayPos = d.decayPos ∧ (d.setRank n r f).oweD = d.oweD ∧ (d.setRank n r f).missD = d.missD ∧
    (d.setRank n r f).nextRead = d.nextRead ∧ (d.setRank n r f).doms = d.doms ∧ (d.setRank n r f).remDown = d.remDown ∧
    (d.setRank n r f).remAt = d.remAt ∧ (d.setRank n r f).dry = d.dry ∧ (d.setRank n r f).overLimit = d.overLimit ∧
    (d.setRank n r f).cas = d.cas ∧ (d.setRank n r f).sec = d.sec ∧ (d.setRank n r f).cores = d.cores ∧ (d.setRank n r f).pwr = d.pwr ∧
    (d.setRank n r f).clk = d.clk ∧ (d.setRank n r f).sup = d.sup ∧ (d.setRank n r f).bays = d.bays ∧
    (d.setRank n r f).therm = d.therm ∧ (d.setRank n r f).ev = d.ev ∧ (d.setRank n r f).cnts = d.cnts ∧ (d.setRank n r f).bws = d.bws ∧
    (d.setRank n r f).perts = d.perts ∧ (d.setRank n r f).mods = d.mods ∧ (d.setRank n r f).gst = d.gst ∧
    (d.setRank n r f).mctp = d.mctp ∧ (d.setRank n r f).out = d.out ∧ (d.setRank n r f).free = d.free := by
  refine ⟨rfl, rfl, rfl, rfl, rfl, rfl, rfl, rfl, rfl, rfl, rfl, rfl, rfl, rfl, rfl, rfl, rfl, rfl, rfl, rfl, rfl, rfl, rfl, rfl, rfl, rfl, rfl, rfl, rfl, rfl, rfl, rfl, rfl, rfl, rfl, rfl, rfl, rfl, rfl, rfl, rfl, rfl, rfl, rfl, rfl, rfl, rfl, rfl, rfl, rfl, rfl, rfl, rfl⟩
@[simp] theorem Dev.setPort_fields (d : Dev) (n) (f) :
    (d.setPort n f).time = d.time ∧ (d.setPort n f).acts = d.acts ∧ (d.setPort n f).cfg = d.cfg ∧ (d.setPort n f).prim = d.prim ∧
    (d.setPort n f).resetHeld = d.resetHeld ∧ (d.setPort n f).resetDue = d.resetDue ∧ (d.setPort n f).otp = d.otp ∧
    (d.setPort n f).nvm = d.nvm ∧ (d.setPort n f).nvmWait = d.nvmWait ∧ (d.setPort n f).led = d.led ∧ (d.setPort n f).heads = d.heads ∧
    (d.setPort n f).wmap = d.wmap ∧ (d.setPort n f).frames = d.frames ∧ (d.setPort n f).metaRuns = d.metaRuns ∧
    (d.setPort n f).dram = d.dram ∧ (d.setPort n f).poison = d.poison ∧ (d.setPort n f).cist = d.cist ∧
    (d.setPort n f).tiles = d.tiles ∧ (d.setPort n f).pumps = d.pumps ∧ (d.setPort n f).encs = d.encs ∧ (d.setPort n f).decs = d.decs ∧
    (d.setPort n f).books = d.books ∧ (d.setPort n f).kdoms = d.kdoms ∧ (d.setPort n f).hs = d.hs ∧ (d.setPort n f).reads = d.reads ∧
    (d.setPort n f).promos = d.promos ∧ (d.setPort n f).decayEp = d.decayEp ∧ (d.setPort n f).decayPos = d.decayPos ∧
    (d.setPort n f).oweD = d.oweD ∧ (d.setPort n f).missD = d.missD ∧ (d.setPort n f).nextRead = d.nextRead ∧
    (d.setPort n f).doms = d.doms ∧ (d.setPort n f).remDown = d.remDown ∧ (d.setPort n f).remAt = d.remAt ∧
    (d.setPort n f).dry = d.dry ∧ (d.setPort n f).overLimit = d.overLimit ∧ (d.setPort n f).chans = d.chans ∧
    (d.setPort n f).sec = d.sec ∧ (d.setPort n f).cores = d.cores ∧ (d.setPort n f).pwr = d.pwr ∧ (d.setPort n f).clk = d.clk ∧
    (d.setPort n f).sup = d.sup ∧ (d.setPort n f).bays = d.bays ∧ (d.setPort n f).therm = d.therm ∧ (d.setPort n f).ev = d.ev ∧
    (d.setPort n f).cnts = d.cnts ∧ (d.setPort n f).bws = d.bws ∧ (d.setPort n f).perts = d.perts ∧ (d.setPort n f).mods = d.mods ∧
    (d.setPort n f).gst = d.gst ∧ (d.setPort n f).mctp = d.mctp ∧ (d.setPort n f).out = d.out ∧ (d.setPort n f).free = d.free := by
  refine ⟨rfl, rfl, rfl, rfl, rfl, rfl, rfl, rfl, rfl, rfl, rfl, rfl, rfl, rfl, rfl, rfl, rfl, rfl, rfl, rfl, rfl, rfl, rfl, rfl, rfl, rfl, rfl, rfl, rfl, rfl, rfl, rfl, rfl, rfl, rfl, rfl, rfl, rfl, rfl, rfl, rfl, rfl, rfl, rfl, rfl, rfl, rfl, rfl, rfl, rfl, rfl, rfl, rfl⟩
@[simp] theorem Dev.setRoute_fields (d : Dev) (n) (f) :
    (d.setRoute n f).time = d.time ∧ (d.setRoute n f).acts = d.acts ∧ (d.setRoute n f).cfg = d.cfg ∧ (d.setRoute n f).prim = d.prim ∧
    (d.setRoute n f).resetHeld = d.resetHeld ∧ (d.setRoute n f).resetDue = d.resetDue ∧ (d.setRoute n f).otp = d.otp ∧
    (d.setRoute n f).nvm = d.nvm ∧ (d.setRoute n f).nvmWait = d.nvmWait ∧ (d.setRoute n f).led = d.led ∧
    (d.setRoute n f).heads = d.heads ∧ (d.setRoute n f).wmap = d.wmap ∧ (d.setRoute n f).frames = d.frames ∧
    (d.setRoute n f).metaRuns = d.metaRuns ∧ (d.setRoute n f).dram = d.dram ∧ (d.setRoute n f).poison = d.poison ∧
    (d.setRoute n f).cist = d.cist ∧ (d.setRoute n f).tiles = d.tiles ∧ (d.setRoute n f).pumps = d.pumps ∧
    (d.setRoute n f).encs = d.encs ∧ (d.setRoute n f).decs = d.decs ∧ (d.setRoute n f).books = d.books ∧
    (d.setRoute n f).kdoms = d.kdoms ∧ (d.setRoute n f).hs = d.hs ∧ (d.setRoute n f).reads = d.reads ∧
    (d.setRoute n f).promos = d.promos ∧ (d.setRoute n f).decayEp = d.decayEp ∧ (d.setRoute n f).decayPos = d.decayPos ∧
    (d.setRoute n f).oweD = d.oweD ∧ (d.setRoute n f).missD = d.missD ∧ (d.setRoute n f).nextRead = d.nextRead ∧
    (d.setRoute n f).doms = d.doms ∧ (d.setRoute n f).remDown = d.remDown ∧ (d.setRoute n f).remAt = d.remAt ∧
    (d.setRoute n f).dry = d.dry ∧ (d.setRoute n f).overLimit = d.overLimit ∧ (d.setRoute n f).chans = d.chans ∧
    (d.setRoute n f).sec = d.sec ∧ (d.setRoute n f).cores = d.cores ∧ (d.setRoute n f).pwr = d.pwr ∧ (d.setRoute n f).clk = d.clk ∧
    (d.setRoute n f).sup = d.sup ∧ (d.setRoute n f).bays = d.bays ∧ (d.setRoute n f).therm = d.therm ∧ (d.setRoute n f).ev = d.ev ∧
    (d.setRoute n f).cnts = d.cnts ∧ (d.setRoute n f).bws = d.bws ∧ (d.setRoute n f).perts = d.perts ∧ (d.setRoute n f).mods = d.mods ∧
    (d.setRoute n f).gst = d.gst ∧ (d.setRoute n f).mctp = d.mctp ∧ (d.setRoute n f).out = d.out ∧ (d.setRoute n f).free = d.free := by
  refine ⟨rfl, rfl, rfl, rfl, rfl, rfl, rfl, rfl, rfl, rfl, rfl, rfl, rfl, rfl, rfl, rfl, rfl, rfl, rfl, rfl, rfl, rfl, rfl, rfl, rfl, rfl, rfl, rfl, rfl, rfl, rfl, rfl, rfl, rfl, rfl, rfl, rfl, rfl, rfl, rfl, rfl, rfl, rfl, rfl, rfl, rfl, rfl, rfl, rfl, rfl, rfl, rfl, rfl⟩
@[simp] theorem Dev.setBay_fields (d : Dev) (n) (f) :
    (d.setBay n f).time = d.time ∧ (d.setBay n f).acts = d.acts ∧ (d.setBay n f).cfg = d.cfg ∧ (d.setBay n f).prim = d.prim ∧
    (d.setBay n f).resetHeld = d.resetHeld ∧ (d.setBay n f).resetDue = d.resetDue ∧ (d.setBay n f).otp = d.otp ∧
    (d.setBay n f).nvm = d.nvm ∧ (d.setBay n f).nvmWait = d.nvmWait ∧ (d.setBay n f).led = d.led ∧ (d.setBay n f).heads = d.heads ∧
    (d.setBay n f).wmap = d.wmap ∧ (d.setBay n f).frames = d.frames ∧ (d.setBay n f).metaRuns = d.metaRuns ∧
    (d.setBay n f).dram = d.dram ∧ (d.setBay n f).poison = d.poison ∧ (d.setBay n f).cist = d.cist ∧ (d.setBay n f).tiles = d.tiles ∧
    (d.setBay n f).pumps = d.pumps ∧ (d.setBay n f).encs = d.encs ∧ (d.setBay n f).decs = d.decs ∧ (d.setBay n f).books = d.books ∧
    (d.setBay n f).kdoms = d.kdoms ∧ (d.setBay n f).hs = d.hs ∧ (d.setBay n f).reads = d.reads ∧ (d.setBay n f).promos = d.promos ∧
    (d.setBay n f).decayEp = d.decayEp ∧ (d.setBay n f).decayPos = d.decayPos ∧ (d.setBay n f).oweD = d.oweD ∧
    (d.setBay n f).missD = d.missD ∧ (d.setBay n f).nextRead = d.nextRead ∧ (d.setBay n f).doms = d.doms ∧
    (d.setBay n f).remDown = d.remDown ∧ (d.setBay n f).remAt = d.remAt ∧ (d.setBay n f).dry = d.dry ∧
    (d.setBay n f).overLimit = d.overLimit ∧ (d.setBay n f).chans = d.chans ∧ (d.setBay n f).cas = d.cas ∧ (d.setBay n f).sec = d.sec ∧
    (d.setBay n f).cores = d.cores ∧ (d.setBay n f).pwr = d.pwr ∧ (d.setBay n f).clk = d.clk ∧ (d.setBay n f).sup = d.sup ∧
    (d.setBay n f).therm = d.therm ∧ (d.setBay n f).ev = d.ev ∧ (d.setBay n f).cnts = d.cnts ∧ (d.setBay n f).bws = d.bws ∧
    (d.setBay n f).perts = d.perts ∧ (d.setBay n f).mods = d.mods ∧ (d.setBay n f).gst = d.gst ∧ (d.setBay n f).mctp = d.mctp ∧
    (d.setBay n f).out = d.out ∧ (d.setBay n f).free = d.free := by
  refine ⟨rfl, rfl, rfl, rfl, rfl, rfl, rfl, rfl, rfl, rfl, rfl, rfl, rfl, rfl, rfl, rfl, rfl, rfl, rfl, rfl, rfl, rfl, rfl, rfl, rfl, rfl, rfl, rfl, rfl, rfl, rfl, rfl, rfl, rfl, rfl, rfl, rfl, rfl, rfl, rfl, rfl, rfl, rfl, rfl, rfl, rfl, rfl, rfl, rfl, rfl, rfl, rfl, rfl⟩
@[simp] theorem Dev.setSens_fields (d : Dev) (n) (f) :
    (d.setSens n f).time = d.time ∧ (d.setSens n f).acts = d.acts ∧ (d.setSens n f).cfg = d.cfg ∧ (d.setSens n f).prim = d.prim ∧
    (d.setSens n f).resetHeld = d.resetHeld ∧ (d.setSens n f).resetDue = d.resetDue ∧ (d.setSens n f).otp = d.otp ∧
    (d.setSens n f).nvm = d.nvm ∧ (d.setSens n f).nvmWait = d.nvmWait ∧ (d.setSens n f).led = d.led ∧ (d.setSens n f).heads = d.heads ∧
    (d.setSens n f).wmap = d.wmap ∧ (d.setSens n f).frames = d.frames ∧ (d.setSens n f).metaRuns = d.metaRuns ∧
    (d.setSens n f).dram = d.dram ∧ (d.setSens n f).poison = d.poison ∧ (d.setSens n f).cist = d.cist ∧
    (d.setSens n f).tiles = d.tiles ∧ (d.setSens n f).pumps = d.pumps ∧ (d.setSens n f).encs = d.encs ∧ (d.setSens n f).decs = d.decs ∧
    (d.setSens n f).books = d.books ∧ (d.setSens n f).kdoms = d.kdoms ∧ (d.setSens n f).hs = d.hs ∧ (d.setSens n f).reads = d.reads ∧
    (d.setSens n f).promos = d.promos ∧ (d.setSens n f).decayEp = d.decayEp ∧ (d.setSens n f).decayPos = d.decayPos ∧
    (d.setSens n f).oweD = d.oweD ∧ (d.setSens n f).missD = d.missD ∧ (d.setSens n f).nextRead = d.nextRead ∧
    (d.setSens n f).doms = d.doms ∧ (d.setSens n f).remDown = d.remDown ∧ (d.setSens n f).remAt = d.remAt ∧
    (d.setSens n f).dry = d.dry ∧ (d.setSens n f).overLimit = d.overLimit ∧ (d.setSens n f).chans = d.chans ∧
    (d.setSens n f).cas = d.cas ∧ (d.setSens n f).sec = d.sec ∧ (d.setSens n f).cores = d.cores ∧ (d.setSens n f).pwr = d.pwr ∧
    (d.setSens n f).clk = d.clk ∧ (d.setSens n f).sup = d.sup ∧ (d.setSens n f).bays = d.bays ∧ (d.setSens n f).ev = d.ev ∧
    (d.setSens n f).cnts = d.cnts ∧ (d.setSens n f).bws = d.bws ∧ (d.setSens n f).perts = d.perts ∧ (d.setSens n f).mods = d.mods ∧
    (d.setSens n f).gst = d.gst ∧ (d.setSens n f).mctp = d.mctp ∧ (d.setSens n f).out = d.out ∧ (d.setSens n f).free = d.free := by
  refine ⟨rfl, rfl, rfl, rfl, rfl, rfl, rfl, rfl, rfl, rfl, rfl, rfl, rfl, rfl, rfl, rfl, rfl, rfl, rfl, rfl, rfl, rfl, rfl, rfl, rfl, rfl, rfl, rfl, rfl, rfl, rfl, rfl, rfl, rfl, rfl, rfl, rfl, rfl, rfl, rfl, rfl, rfl, rfl, rfl, rfl, rfl, rfl, rfl, rfl, rfl, rfl, rfl, rfl⟩
@[simp] theorem Dev.setBw_fields (d : Dev) (n) (f) :
    (d.setBw n f).time = d.time ∧ (d.setBw n f).acts = d.acts ∧ (d.setBw n f).cfg = d.cfg ∧ (d.setBw n f).prim = d.prim ∧
    (d.setBw n f).resetHeld = d.resetHeld ∧ (d.setBw n f).resetDue = d.resetDue ∧ (d.setBw n f).otp = d.otp ∧
    (d.setBw n f).nvm = d.nvm ∧ (d.setBw n f).nvmWait = d.nvmWait ∧ (d.setBw n f).led = d.led ∧ (d.setBw n f).heads = d.heads ∧
    (d.setBw n f).wmap = d.wmap ∧ (d.setBw n f).frames = d.frames ∧ (d.setBw n f).metaRuns = d.metaRuns ∧ (d.setBw n f).dram = d.dram ∧
    (d.setBw n f).poison = d.poison ∧ (d.setBw n f).cist = d.cist ∧ (d.setBw n f).tiles = d.tiles ∧ (d.setBw n f).pumps = d.pumps ∧
    (d.setBw n f).encs = d.encs ∧ (d.setBw n f).decs = d.decs ∧ (d.setBw n f).books = d.books ∧ (d.setBw n f).kdoms = d.kdoms ∧
    (d.setBw n f).hs = d.hs ∧ (d.setBw n f).reads = d.reads ∧ (d.setBw n f).promos = d.promos ∧ (d.setBw n f).decayEp = d.decayEp ∧
    (d.setBw n f).decayPos = d.decayPos ∧ (d.setBw n f).oweD = d.oweD ∧ (d.setBw n f).missD = d.missD ∧
    (d.setBw n f).nextRead = d.nextRead ∧ (d.setBw n f).doms = d.doms ∧ (d.setBw n f).remDown = d.remDown ∧
    (d.setBw n f).remAt = d.remAt ∧ (d.setBw n f).dry = d.dry ∧ (d.setBw n f).overLimit = d.overLimit ∧ (d.setBw n f).chans = d.chans ∧
    (d.setBw n f).cas = d.cas ∧ (d.setBw n f).sec = d.sec ∧ (d.setBw n f).cores = d.cores ∧ (d.setBw n f).pwr = d.pwr ∧
    (d.setBw n f).clk = d.clk ∧ (d.setBw n f).sup = d.sup ∧ (d.setBw n f).bays = d.bays ∧ (d.setBw n f).therm = d.therm ∧
    (d.setBw n f).ev = d.ev ∧ (d.setBw n f).cnts = d.cnts ∧ (d.setBw n f).perts = d.perts ∧ (d.setBw n f).mods = d.mods ∧
    (d.setBw n f).gst = d.gst ∧ (d.setBw n f).mctp = d.mctp ∧ (d.setBw n f).out = d.out ∧ (d.setBw n f).free = d.free := by
  refine ⟨rfl, rfl, rfl, rfl, rfl, rfl, rfl, rfl, rfl, rfl, rfl, rfl, rfl, rfl, rfl, rfl, rfl, rfl, rfl, rfl, rfl, rfl, rfl, rfl, rfl, rfl, rfl, rfl, rfl, rfl, rfl, rfl, rfl, rfl, rfl, rfl, rfl, rfl, rfl, rfl, rfl, rfl, rfl, rfl, rfl, rfl, rfl, rfl, rfl, rfl, rfl, rfl, rfl⟩
@[simp] theorem Dev.setPert_fields (d : Dev) (n) (f) :
    (d.setPert n f).time = d.time ∧ (d.setPert n f).acts = d.acts ∧ (d.setPert n f).cfg = d.cfg ∧ (d.setPert n f).prim = d.prim ∧
    (d.setPert n f).resetHeld = d.resetHeld ∧ (d.setPert n f).resetDue = d.resetDue ∧ (d.setPert n f).otp = d.otp ∧
    (d.setPert n f).nvm = d.nvm ∧ (d.setPert n f).nvmWait = d.nvmWait ∧ (d.setPert n f).led = d.led ∧ (d.setPert n f).heads = d.heads ∧
    (d.setPert n f).wmap = d.wmap ∧ (d.setPert n f).frames = d.frames ∧ (d.setPert n f).metaRuns = d.metaRuns ∧
    (d.setPert n f).dram = d.dram ∧ (d.setPert n f).poison = d.poison ∧ (d.setPert n f).cist = d.cist ∧
    (d.setPert n f).tiles = d.tiles ∧ (d.setPert n f).pumps = d.pumps ∧ (d.setPert n f).encs = d.encs ∧ (d.setPert n f).decs = d.decs ∧
    (d.setPert n f).books = d.books ∧ (d.setPert n f).kdoms = d.kdoms ∧ (d.setPert n f).hs = d.hs ∧ (d.setPert n f).reads = d.reads ∧
    (d.setPert n f).promos = d.promos ∧ (d.setPert n f).decayEp = d.decayEp ∧ (d.setPert n f).decayPos = d.decayPos ∧
    (d.setPert n f).oweD = d.oweD ∧ (d.setPert n f).missD = d.missD ∧ (d.setPert n f).nextRead = d.nextRead ∧
    (d.setPert n f).doms = d.doms ∧ (d.setPert n f).remDown = d.remDown ∧ (d.setPert n f).remAt = d.remAt ∧
    (d.setPert n f).dry = d.dry ∧ (d.setPert n f).overLimit = d.overLimit ∧ (d.setPert n f).chans = d.chans ∧
    (d.setPert n f).cas = d.cas ∧ (d.setPert n f).sec = d.sec ∧ (d.setPert n f).cores = d.cores ∧ (d.setPert n f).pwr = d.pwr ∧
    (d.setPert n f).clk = d.clk ∧ (d.setPert n f).sup = d.sup ∧ (d.setPert n f).bays = d.bays ∧ (d.setPert n f).therm = d.therm ∧
    (d.setPert n f).ev = d.ev ∧ (d.setPert n f).cnts = d.cnts ∧ (d.setPert n f).bws = d.bws ∧ (d.setPert n f).mods = d.mods ∧
    (d.setPert n f).gst = d.gst ∧ (d.setPert n f).mctp = d.mctp ∧ (d.setPert n f).out = d.out ∧ (d.setPert n f).free = d.free := by
  refine ⟨rfl, rfl, rfl, rfl, rfl, rfl, rfl, rfl, rfl, rfl, rfl, rfl, rfl, rfl, rfl, rfl, rfl, rfl, rfl, rfl, rfl, rfl, rfl, rfl, rfl, rfl, rfl, rfl, rfl, rfl, rfl, rfl, rfl, rfl, rfl, rfl, rfl, rfl, rfl, rfl, rfl, rfl, rfl, rfl, rfl, rfl, rfl, rfl, rfl, rfl, rfl, rfl, rfl⟩
@[simp] theorem Dev.setMod_fields (d : Dev) (n) (f) :
    (d.setMod n f).time = d.time ∧ (d.setMod n f).acts = d.acts ∧ (d.setMod n f).cfg = d.cfg ∧ (d.setMod n f).prim = d.prim ∧
    (d.setMod n f).resetHeld = d.resetHeld ∧ (d.setMod n f).resetDue = d.resetDue ∧ (d.setMod n f).otp = d.otp ∧
    (d.setMod n f).nvm = d.nvm ∧ (d.setMod n f).nvmWait = d.nvmWait ∧ (d.setMod n f).led = d.led ∧ (d.setMod n f).heads = d.heads ∧
    (d.setMod n f).wmap = d.wmap ∧ (d.setMod n f).frames = d.frames ∧ (d.setMod n f).metaRuns = d.metaRuns ∧
    (d.setMod n f).dram = d.dram ∧ (d.setMod n f).poison = d.poison ∧ (d.setMod n f).cist = d.cist ∧ (d.setMod n f).tiles = d.tiles ∧
    (d.setMod n f).pumps = d.pumps ∧ (d.setMod n f).encs = d.encs ∧ (d.setMod n f).decs = d.decs ∧ (d.setMod n f).books = d.books ∧
    (d.setMod n f).kdoms = d.kdoms ∧ (d.setMod n f).hs = d.hs ∧ (d.setMod n f).reads = d.reads ∧ (d.setMod n f).promos = d.promos ∧
    (d.setMod n f).decayEp = d.decayEp ∧ (d.setMod n f).decayPos = d.decayPos ∧ (d.setMod n f).oweD = d.oweD ∧
    (d.setMod n f).missD = d.missD ∧ (d.setMod n f).nextRead = d.nextRead ∧ (d.setMod n f).doms = d.doms ∧
    (d.setMod n f).remDown = d.remDown ∧ (d.setMod n f).remAt = d.remAt ∧ (d.setMod n f).dry = d.dry ∧
    (d.setMod n f).overLimit = d.overLimit ∧ (d.setMod n f).chans = d.chans ∧ (d.setMod n f).cas = d.cas ∧ (d.setMod n f).sec = d.sec ∧
    (d.setMod n f).cores = d.cores ∧ (d.setMod n f).pwr = d.pwr ∧ (d.setMod n f).clk = d.clk ∧ (d.setMod n f).sup = d.sup ∧
    (d.setMod n f).bays = d.bays ∧ (d.setMod n f).therm = d.therm ∧ (d.setMod n f).ev = d.ev ∧ (d.setMod n f).cnts = d.cnts ∧
    (d.setMod n f).bws = d.bws ∧ (d.setMod n f).perts = d.perts ∧ (d.setMod n f).gst = d.gst ∧ (d.setMod n f).mctp = d.mctp ∧
    (d.setMod n f).out = d.out ∧ (d.setMod n f).free = d.free := by
  refine ⟨rfl, rfl, rfl, rfl, rfl, rfl, rfl, rfl, rfl, rfl, rfl, rfl, rfl, rfl, rfl, rfl, rfl, rfl, rfl, rfl, rfl, rfl, rfl, rfl, rfl, rfl, rfl, rfl, rfl, rfl, rfl, rfl, rfl, rfl, rfl, rfl, rfl, rfl, rfl, rfl, rfl, rfl, rfl, rfl, rfl, rfl, rfl, rfl, rfl, rfl, rfl, rfl, rfl⟩
@[simp] theorem Dev.setKd_fields (d : Dev) (n) (f) :
    (d.setKd n f).time = d.time ∧ (d.setKd n f).acts = d.acts ∧ (d.setKd n f).cfg = d.cfg ∧ (d.setKd n f).prim = d.prim ∧
    (d.setKd n f).resetHeld = d.resetHeld ∧ (d.setKd n f).resetDue = d.resetDue ∧ (d.setKd n f).otp = d.otp ∧
    (d.setKd n f).nvm = d.nvm ∧ (d.setKd n f).nvmWait = d.nvmWait ∧ (d.setKd n f).led = d.led ∧ (d.setKd n f).heads = d.heads ∧
    (d.setKd n f).wmap = d.wmap ∧ (d.setKd n f).frames = d.frames ∧ (d.setKd n f).metaRuns = d.metaRuns ∧ (d.setKd n f).dram = d.dram ∧
    (d.setKd n f).poison = d.poison ∧ (d.setKd n f).cist = d.cist ∧ (d.setKd n f).tiles = d.tiles ∧ (d.setKd n f).pumps = d.pumps ∧
    (d.setKd n f).encs = d.encs ∧ (d.setKd n f).decs = d.decs ∧ (d.setKd n f).books = d.books ∧ (d.setKd n f).hs = d.hs ∧
    (d.setKd n f).reads = d.reads ∧ (d.setKd n f).promos = d.promos ∧ (d.setKd n f).decayEp = d.decayEp ∧
    (d.setKd n f).decayPos = d.decayPos ∧ (d.setKd n f).oweD = d.oweD ∧ (d.setKd n f).missD = d.missD ∧
    (d.setKd n f).nextRead = d.nextRead ∧ (d.setKd n f).doms = d.doms ∧ (d.setKd n f).remDown = d.remDown ∧
    (d.setKd n f).remAt = d.remAt ∧ (d.setKd n f).dry = d.dry ∧ (d.setKd n f).overLimit = d.overLimit ∧ (d.setKd n f).chans = d.chans ∧
    (d.setKd n f).cas = d.cas ∧ (d.setKd n f).sec = d.sec ∧ (d.setKd n f).cores = d.cores ∧ (d.setKd n f).pwr = d.pwr ∧
    (d.setKd n f).clk = d.clk ∧ (d.setKd n f).sup = d.sup ∧ (d.setKd n f).bays = d.bays ∧ (d.setKd n f).therm = d.therm ∧
    (d.setKd n f).ev = d.ev ∧ (d.setKd n f).cnts = d.cnts ∧ (d.setKd n f).bws = d.bws ∧ (d.setKd n f).perts = d.perts ∧
    (d.setKd n f).mods = d.mods ∧ (d.setKd n f).gst = d.gst ∧ (d.setKd n f).mctp = d.mctp ∧ (d.setKd n f).out = d.out ∧
    (d.setKd n f).free = d.free := by
  refine ⟨rfl, rfl, rfl, rfl, rfl, rfl, rfl, rfl, rfl, rfl, rfl, rfl, rfl, rfl, rfl, rfl, rfl, rfl, rfl, rfl, rfl, rfl, rfl, rfl, rfl, rfl, rfl, rfl, rfl, rfl, rfl, rfl, rfl, rfl, rfl, rfl, rfl, rfl, rfl, rfl, rfl, rfl, rfl, rfl, rfl, rfl, rfl, rfl, rfl, rfl, rfl, rfl, rfl⟩
@[simp] theorem Dev.setBook_fields (d : Dev) (n) (f) :
    (d.setBook n f).time = d.time ∧ (d.setBook n f).acts = d.acts ∧ (d.setBook n f).cfg = d.cfg ∧ (d.setBook n f).prim = d.prim ∧
    (d.setBook n f).resetHeld = d.resetHeld ∧ (d.setBook n f).resetDue = d.resetDue ∧ (d.setBook n f).otp = d.otp ∧
    (d.setBook n f).nvm = d.nvm ∧ (d.setBook n f).nvmWait = d.nvmWait ∧ (d.setBook n f).led = d.led ∧ (d.setBook n f).heads = d.heads ∧
    (d.setBook n f).wmap = d.wmap ∧ (d.setBook n f).frames = d.frames ∧ (d.setBook n f).metaRuns = d.metaRuns ∧
    (d.setBook n f).dram = d.dram ∧ (d.setBook n f).poison = d.poison ∧ (d.setBook n f).cist = d.cist ∧
    (d.setBook n f).tiles = d.tiles ∧ (d.setBook n f).pumps = d.pumps ∧ (d.setBook n f).encs = d.encs ∧ (d.setBook n f).decs = d.decs ∧
    (d.setBook n f).kdoms = d.kdoms ∧ (d.setBook n f).hs = d.hs ∧ (d.setBook n f).reads = d.reads ∧ (d.setBook n f).promos = d.promos ∧
    (d.setBook n f).decayEp = d.decayEp ∧ (d.setBook n f).decayPos = d.decayPos ∧ (d.setBook n f).oweD = d.oweD ∧
    (d.setBook n f).missD = d.missD ∧ (d.setBook n f).nextRead = d.nextRead ∧ (d.setBook n f).doms = d.doms ∧
    (d.setBook n f).remDown = d.remDown ∧ (d.setBook n f).remAt = d.remAt ∧ (d.setBook n f).dry = d.dry ∧
    (d.setBook n f).overLimit = d.overLimit ∧ (d.setBook n f).chans = d.chans ∧ (d.setBook n f).cas = d.cas ∧
    (d.setBook n f).sec = d.sec ∧ (d.setBook n f).cores = d.cores ∧ (d.setBook n f).pwr = d.pwr ∧ (d.setBook n f).clk = d.clk ∧
    (d.setBook n f).sup = d.sup ∧ (d.setBook n f).bays = d.bays ∧ (d.setBook n f).therm = d.therm ∧ (d.setBook n f).ev = d.ev ∧
    (d.setBook n f).cnts = d.cnts ∧ (d.setBook n f).bws = d.bws ∧ (d.setBook n f).perts = d.perts ∧ (d.setBook n f).mods = d.mods ∧
    (d.setBook n f).gst = d.gst ∧ (d.setBook n f).mctp = d.mctp ∧ (d.setBook n f).out = d.out ∧ (d.setBook n f).free = d.free := by
  refine ⟨rfl, rfl, rfl, rfl, rfl, rfl, rfl, rfl, rfl, rfl, rfl, rfl, rfl, rfl, rfl, rfl, rfl, rfl, rfl, rfl, rfl, rfl, rfl, rfl, rfl, rfl, rfl, rfl, rfl, rfl, rfl, rfl, rfl, rfl, rfl, rfl, rfl, rfl, rfl, rfl, rfl, rfl, rfl, rfl, rfl, rfl, rfl, rfl, rfl, rfl, rfl, rfl, rfl⟩
@[simp] theorem Dev.setCnt_fields (d : Dev) (n) (f) :
    (d.setCnt n f).time = d.time ∧ (d.setCnt n f).acts = d.acts ∧ (d.setCnt n f).cfg = d.cfg ∧ (d.setCnt n f).prim = d.prim ∧
    (d.setCnt n f).resetHeld = d.resetHeld ∧ (d.setCnt n f).resetDue = d.resetDue ∧ (d.setCnt n f).otp = d.otp ∧
    (d.setCnt n f).nvm = d.nvm ∧ (d.setCnt n f).nvmWait = d.nvmWait ∧ (d.setCnt n f).led = d.led ∧ (d.setCnt n f).heads = d.heads ∧
    (d.setCnt n f).wmap = d.wmap ∧ (d.setCnt n f).frames = d.frames ∧ (d.setCnt n f).metaRuns = d.metaRuns ∧
    (d.setCnt n f).dram = d.dram ∧ (d.setCnt n f).poison = d.poison ∧ (d.setCnt n f).cist = d.cist ∧ (d.setCnt n f).tiles = d.tiles ∧
    (d.setCnt n f).pumps = d.pumps ∧ (d.setCnt n f).encs = d.encs ∧ (d.setCnt n f).decs = d.decs ∧ (d.setCnt n f).books = d.books ∧
    (d.setCnt n f).kdoms = d.kdoms ∧ (d.setCnt n f).hs = d.hs ∧ (d.setCnt n f).reads = d.reads ∧ (d.setCnt n f).promos = d.promos ∧
    (d.setCnt n f).decayEp = d.decayEp ∧ (d.setCnt n f).decayPos = d.decayPos ∧ (d.setCnt n f).oweD = d.oweD ∧
    (d.setCnt n f).missD = d.missD ∧ (d.setCnt n f).nextRead = d.nextRead ∧ (d.setCnt n f).doms = d.doms ∧
    (d.setCnt n f).remDown = d.remDown ∧ (d.setCnt n f).remAt = d.remAt ∧ (d.setCnt n f).dry = d.dry ∧
    (d.setCnt n f).overLimit = d.overLimit ∧ (d.setCnt n f).chans = d.chans ∧ (d.setCnt n f).cas = d.cas ∧ (d.setCnt n f).sec = d.sec ∧
    (d.setCnt n f).cores = d.cores ∧ (d.setCnt n f).pwr = d.pwr ∧ (d.setCnt n f).clk = d.clk ∧ (d.setCnt n f).sup = d.sup ∧
    (d.setCnt n f).bays = d.bays ∧ (d.setCnt n f).therm = d.therm ∧ (d.setCnt n f).ev = d.ev ∧ (d.setCnt n f).bws = d.bws ∧
    (d.setCnt n f).perts = d.perts ∧ (d.setCnt n f).mods = d.mods ∧ (d.setCnt n f).gst = d.gst ∧ (d.setCnt n f).mctp = d.mctp ∧
    (d.setCnt n f).out = d.out ∧ (d.setCnt n f).free = d.free := by
  refine ⟨rfl, rfl, rfl, rfl, rfl, rfl, rfl, rfl, rfl, rfl, rfl, rfl, rfl, rfl, rfl, rfl, rfl, rfl, rfl, rfl, rfl, rfl, rfl, rfl, rfl, rfl, rfl, rfl, rfl, rfl, rfl, rfl, rfl, rfl, rfl, rfl, rfl, rfl, rfl, rfl, rfl, rfl, rfl, rfl, rfl, rfl, rfl, rfl, rfl, rfl, rfl, rfl, rfl⟩
@[simp] theorem Dev.setEntry_fields (d : Dev) (n) (e) :
    (d.setEntry n e).time = d.time ∧ (d.setEntry n e).acts = d.acts ∧ (d.setEntry n e).cfg = d.cfg ∧ (d.setEntry n e).prim = d.prim ∧
    (d.setEntry n e).resetHeld = d.resetHeld ∧ (d.setEntry n e).resetDue = d.resetDue ∧ (d.setEntry n e).otp = d.otp ∧
    (d.setEntry n e).nvm = d.nvm ∧ (d.setEntry n e).nvmWait = d.nvmWait ∧ (d.setEntry n e).led = d.led ∧
    (d.setEntry n e).heads = d.heads ∧ (d.setEntry n e).frames = d.frames ∧ (d.setEntry n e).metaRuns = d.metaRuns ∧
    (d.setEntry n e).dram = d.dram ∧ (d.setEntry n e).poison = d.poison ∧ (d.setEntry n e).cist = d.cist ∧
    (d.setEntry n e).tiles = d.tiles ∧ (d.setEntry n e).pumps = d.pumps ∧ (d.setEntry n e).encs = d.encs ∧
    (d.setEntry n e).decs = d.decs ∧ (d.setEntry n e).books = d.books ∧ (d.setEntry n e).kdoms = d.kdoms ∧ (d.setEntry n e).hs = d.hs ∧
    (d.setEntry n e).reads = d.reads ∧ (d.setEntry n e).promos = d.promos ∧ (d.setEntry n e).decayEp = d.decayEp ∧
    (d.setEntry n e).decayPos = d.decayPos ∧ (d.setEntry n e).oweD = d.oweD ∧ (d.setEntry n e).missD = d.missD ∧
    (d.setEntry n e).nextRead = d.nextRead ∧ (d.setEntry n e).doms = d.doms ∧ (d.setEntry n e).remDown = d.remDown ∧
    (d.setEntry n e).remAt = d.remAt ∧ (d.setEntry n e).dry = d.dry ∧ (d.setEntry n e).overLimit = d.overLimit ∧
    (d.setEntry n e).chans = d.chans ∧ (d.setEntry n e).cas = d.cas ∧ (d.setEntry n e).sec = d.sec ∧ (d.setEntry n e).cores = d.cores ∧
    (d.setEntry n e).pwr = d.pwr ∧ (d.setEntry n e).clk = d.clk ∧ (d.setEntry n e).sup = d.sup ∧ (d.setEntry n e).bays = d.bays ∧
    (d.setEntry n e).therm = d.therm ∧ (d.setEntry n e).ev = d.ev ∧ (d.setEntry n e).cnts = d.cnts ∧ (d.setEntry n e).bws = d.bws ∧
    (d.setEntry n e).perts = d.perts ∧ (d.setEntry n e).mods = d.mods ∧ (d.setEntry n e).gst = d.gst ∧ (d.setEntry n e).mctp = d.mctp ∧
    (d.setEntry n e).out = d.out ∧ (d.setEntry n e).free = d.free := by
  refine ⟨rfl, rfl, rfl, rfl, rfl, rfl, rfl, rfl, rfl, rfl, rfl, rfl, rfl, rfl, rfl, rfl, rfl, rfl, rfl, rfl, rfl, rfl, rfl, rfl, rfl, rfl, rfl, rfl, rfl, rfl, rfl, rfl, rfl, rfl, rfl, rfl, rfl, rfl, rfl, rfl, rfl, rfl, rfl, rfl, rfl, rfl, rfl, rfl, rfl, rfl, rfl, rfl, rfl⟩
@[simp] theorem Dev.setLog_fields (d : Dev) (n) (f) :
    (d.setLog n f).time = d.time ∧ (d.setLog n f).acts = d.acts ∧ (d.setLog n f).cfg = d.cfg ∧ (d.setLog n f).prim = d.prim ∧
    (d.setLog n f).resetHeld = d.resetHeld ∧ (d.setLog n f).resetDue = d.resetDue ∧ (d.setLog n f).otp = d.otp ∧
    (d.setLog n f).nvm = d.nvm ∧ (d.setLog n f).nvmWait = d.nvmWait ∧ (d.setLog n f).led = d.led ∧ (d.setLog n f).heads = d.heads ∧
    (d.setLog n f).wmap = d.wmap ∧ (d.setLog n f).frames = d.frames ∧ (d.setLog n f).metaRuns = d.metaRuns ∧
    (d.setLog n f).dram = d.dram ∧ (d.setLog n f).poison = d.poison ∧ (d.setLog n f).cist = d.cist ∧ (d.setLog n f).tiles = d.tiles ∧
    (d.setLog n f).pumps = d.pumps ∧ (d.setLog n f).encs = d.encs ∧ (d.setLog n f).decs = d.decs ∧ (d.setLog n f).books = d.books ∧
    (d.setLog n f).kdoms = d.kdoms ∧ (d.setLog n f).hs = d.hs ∧ (d.setLog n f).reads = d.reads ∧ (d.setLog n f).promos = d.promos ∧
    (d.setLog n f).decayEp = d.decayEp ∧ (d.setLog n f).decayPos = d.decayPos ∧ (d.setLog n f).oweD = d.oweD ∧
    (d.setLog n f).missD = d.missD ∧ (d.setLog n f).nextRead = d.nextRead ∧ (d.setLog n f).doms = d.doms ∧
    (d.setLog n f).remDown = d.remDown ∧ (d.setLog n f).remAt = d.remAt ∧ (d.setLog n f).dry = d.dry ∧
    (d.setLog n f).overLimit = d.overLimit ∧ (d.setLog n f).chans = d.chans ∧ (d.setLog n f).cas = d.cas ∧ (d.setLog n f).sec = d.sec ∧
    (d.setLog n f).cores = d.cores ∧ (d.setLog n f).pwr = d.pwr ∧ (d.setLog n f).clk = d.clk ∧ (d.setLog n f).sup = d.sup ∧
    (d.setLog n f).bays = d.bays ∧ (d.setLog n f).therm = d.therm ∧ (d.setLog n f).cnts = d.cnts ∧ (d.setLog n f).bws = d.bws ∧
    (d.setLog n f).perts = d.perts ∧ (d.setLog n f).mods = d.mods ∧ (d.setLog n f).gst = d.gst ∧ (d.setLog n f).mctp = d.mctp ∧
    (d.setLog n f).out = d.out ∧ (d.setLog n f).free = d.free := by
  refine ⟨rfl, rfl, rfl, rfl, rfl, rfl, rfl, rfl, rfl, rfl, rfl, rfl, rfl, rfl, rfl, rfl, rfl, rfl, rfl, rfl, rfl, rfl, rfl, rfl, rfl, rfl, rfl, rfl, rfl, rfl, rfl, rfl, rfl, rfl, rfl, rfl, rfl, rfl, rfl, rfl, rfl, rfl, rfl, rfl, rfl, rfl, rfl, rfl, rfl, rfl, rfl, rfl, rfl⟩
@[simp] theorem Dev.emit_fields (d : Dev) (o) :
    (d.emit o).time = d.time ∧ (d.emit o).acts = d.acts ∧ (d.emit o).cfg = d.cfg ∧ (d.emit o).prim = d.prim ∧
    (d.emit o).resetHeld = d.resetHeld ∧ (d.emit o).resetDue = d.resetDue ∧ (d.emit o).otp = d.otp ∧ (d.emit o).nvm = d.nvm ∧
    (d.emit o).nvmWait = d.nvmWait ∧ (d.emit o).led = d.led ∧ (d.emit o).heads = d.heads ∧ (d.emit o).wmap = d.wmap ∧
    (d.emit o).frames = d.frames ∧ (d.emit o).metaRuns = d.metaRuns ∧ (d.emit o).dram = d.dram ∧ (d.emit o).poison = d.poison ∧
    (d.emit o).cist = d.cist ∧ (d.emit o).tiles = d.tiles ∧ (d.emit o).pumps = d.pumps ∧ (d.emit o).encs = d.encs ∧
    (d.emit o).decs = d.decs ∧ (d.emit o).books = d.books ∧ (d.emit o).kdoms = d.kdoms ∧ (d.emit o).hs = d.hs ∧
    (d.emit o).reads = d.reads ∧ (d.emit o).promos = d.promos ∧ (d.emit o).decayEp = d.decayEp ∧ (d.emit o).decayPos = d.decayPos ∧
    (d.emit o).oweD = d.oweD ∧ (d.emit o).missD = d.missD ∧ (d.emit o).nextRead = d.nextRead ∧ (d.emit o).doms = d.doms ∧
    (d.emit o).remDown = d.remDown ∧ (d.emit o).remAt = d.remAt ∧ (d.emit o).dry = d.dry ∧ (d.emit o).overLimit = d.overLimit ∧
    (d.emit o).chans = d.chans ∧ (d.emit o).cas = d.cas ∧ (d.emit o).sec = d.sec ∧ (d.emit o).cores = d.cores ∧ (d.emit o).pwr = d.pwr ∧
    (d.emit o).clk = d.clk ∧ (d.emit o).sup = d.sup ∧ (d.emit o).bays = d.bays ∧ (d.emit o).therm = d.therm ∧ (d.emit o).ev = d.ev ∧
    (d.emit o).cnts = d.cnts ∧ (d.emit o).bws = d.bws ∧ (d.emit o).perts = d.perts ∧ (d.emit o).mods = d.mods ∧ (d.emit o).gst = d.gst ∧
    (d.emit o).mctp = d.mctp ∧ (d.emit o).free = d.free := by
  refine ⟨rfl, rfl, rfl, rfl, rfl, rfl, rfl, rfl, rfl, rfl, rfl, rfl, rfl, rfl, rfl, rfl, rfl, rfl, rfl, rfl, rfl, rfl, rfl, rfl, rfl, rfl, rfl, rfl, rfl, rfl, rfl, rfl, rfl, rfl, rfl, rfl, rfl, rfl, rfl, rfl, rfl, rfl, rfl, rfl, rfl, rfl, rfl, rfl, rfl, rfl, rfl, rfl, rfl⟩
@[simp] theorem Dev.reply_fields (d : Dev) (a) (b) (c) (e) :
    (d.reply a b c e).time = d.time ∧ (d.reply a b c e).acts = d.acts ∧ (d.reply a b c e).cfg = d.cfg ∧
    (d.reply a b c e).prim = d.prim ∧ (d.reply a b c e).resetHeld = d.resetHeld ∧ (d.reply a b c e).resetDue = d.resetDue ∧
    (d.reply a b c e).otp = d.otp ∧ (d.reply a b c e).nvm = d.nvm ∧ (d.reply a b c e).nvmWait = d.nvmWait ∧
    (d.reply a b c e).led = d.led ∧ (d.reply a b c e).heads = d.heads ∧ (d.reply a b c e).wmap = d.wmap ∧
    (d.reply a b c e).frames = d.frames ∧ (d.reply a b c e).metaRuns = d.metaRuns ∧ (d.reply a b c e).dram = d.dram ∧
    (d.reply a b c e).poison = d.poison ∧ (d.reply a b c e).cist = d.cist ∧ (d.reply a b c e).tiles = d.tiles ∧
    (d.reply a b c e).pumps = d.pumps ∧ (d.reply a b c e).encs = d.encs ∧ (d.reply a b c e).decs = d.decs ∧
    (d.reply a b c e).books = d.books ∧ (d.reply a b c e).kdoms = d.kdoms ∧ (d.reply a b c e).hs = d.hs ∧
    (d.reply a b c e).reads = d.reads ∧ (d.reply a b c e).promos = d.promos ∧ (d.reply a b c e).decayEp = d.decayEp ∧
    (d.reply a b c e).decayPos = d.decayPos ∧ (d.reply a b c e).oweD = d.oweD ∧ (d.reply a b c e).missD = d.missD ∧
    (d.reply a b c e).nextRead = d.nextRead ∧ (d.reply a b c e).doms = d.doms ∧ (d.reply a b c e).remDown = d.remDown ∧
    (d.reply a b c e).remAt = d.remAt ∧ (d.reply a b c e).dry = d.dry ∧ (d.reply a b c e).overLimit = d.overLimit ∧
    (d.reply a b c e).chans = d.chans ∧ (d.reply a b c e).cas = d.cas ∧ (d.reply a b c e).sec = d.sec ∧
    (d.reply a b c e).cores = d.cores ∧ (d.reply a b c e).pwr = d.pwr ∧ (d.reply a b c e).clk = d.clk ∧ (d.reply a b c e).sup = d.sup ∧
    (d.reply a b c e).bays = d.bays ∧ (d.reply a b c e).therm = d.therm ∧ (d.reply a b c e).ev = d.ev ∧
    (d.reply a b c e).cnts = d.cnts ∧ (d.reply a b c e).bws = d.bws ∧ (d.reply a b c e).perts = d.perts ∧
    (d.reply a b c e).mods = d.mods ∧ (d.reply a b c e).gst = d.gst ∧ (d.reply a b c e).mctp = d.mctp ∧ (d.reply a b c e).free = d.free := by
  unfold Dev.reply
  split <;> exact ⟨rfl, rfl, rfl, rfl, rfl, rfl, rfl, rfl, rfl, rfl, rfl, rfl, rfl, rfl, rfl, rfl, rfl, rfl, rfl, rfl, rfl, rfl, rfl, rfl, rfl, rfl, rfl, rfl, rfl, rfl, rfl, rfl, rfl, rfl, rfl, rfl, rfl, rfl, rfl, rfl, rfl, rfl, rfl, rfl, rfl, rfl, rfl, rfl, rfl, rfl, rfl, rfl, rfl⟩
@[simp] theorem Dev.setPwr_fields (d : Dev) (f) :
    (d.setPwr f).time = d.time ∧ (d.setPwr f).acts = d.acts ∧ (d.setPwr f).cfg = d.cfg ∧ (d.setPwr f).prim = d.prim ∧
    (d.setPwr f).resetHeld = d.resetHeld ∧ (d.setPwr f).resetDue = d.resetDue ∧ (d.setPwr f).otp = d.otp ∧ (d.setPwr f).nvm = d.nvm ∧
    (d.setPwr f).nvmWait = d.nvmWait ∧ (d.setPwr f).led = d.led ∧ (d.setPwr f).heads = d.heads ∧ (d.setPwr f).wmap = d.wmap ∧
    (d.setPwr f).frames = d.frames ∧ (d.setPwr f).metaRuns = d.metaRuns ∧ (d.setPwr f).dram = d.dram ∧ (d.setPwr f).poison = d.poison ∧
    (d.setPwr f).cist = d.cist ∧ (d.setPwr f).tiles = d.tiles ∧ (d.setPwr f).pumps = d.pumps ∧ (d.setPwr f).encs = d.encs ∧
    (d.setPwr f).decs = d.decs ∧ (d.setPwr f).books = d.books ∧ (d.setPwr f).kdoms = d.kdoms ∧ (d.setPwr f).hs = d.hs ∧
    (d.setPwr f).reads = d.reads ∧ (d.setPwr f).promos = d.promos ∧ (d.setPwr f).decayEp = d.decayEp ∧
    (d.setPwr f).decayPos = d.decayPos ∧ (d.setPwr f).oweD = d.oweD ∧ (d.setPwr f).missD = d.missD ∧
    (d.setPwr f).nextRead = d.nextRead ∧ (d.setPwr f).doms = d.doms ∧ (d.setPwr f).remDown = d.remDown ∧ (d.setPwr f).remAt = d.remAt ∧
    (d.setPwr f).dry = d.dry ∧ (d.setPwr f).overLimit = d.overLimit ∧ (d.setPwr f).chans = d.chans ∧ (d.setPwr f).cas = d.cas ∧
    (d.setPwr f).sec = d.sec ∧ (d.setPwr f).cores = d.cores ∧ (d.setPwr f).clk = d.clk ∧ (d.setPwr f).sup = d.sup ∧
    (d.setPwr f).bays = d.bays ∧ (d.setPwr f).therm = d.therm ∧ (d.setPwr f).ev = d.ev ∧ (d.setPwr f).cnts = d.cnts ∧
    (d.setPwr f).bws = d.bws ∧ (d.setPwr f).perts = d.perts ∧ (d.setPwr f).mods = d.mods ∧ (d.setPwr f).gst = d.gst ∧
    (d.setPwr f).mctp = d.mctp ∧ (d.setPwr f).out = d.out ∧ (d.setPwr f).free = d.free := by
  refine ⟨rfl, rfl, rfl, rfl, rfl, rfl, rfl, rfl, rfl, rfl, rfl, rfl, rfl, rfl, rfl, rfl, rfl, rfl, rfl, rfl, rfl, rfl, rfl, rfl, rfl, rfl, rfl, rfl, rfl, rfl, rfl, rfl, rfl, rfl, rfl, rfl, rfl, rfl, rfl, rfl, rfl, rfl, rfl, rfl, rfl, rfl, rfl, rfl, rfl, rfl, rfl, rfl, rfl⟩
@[simp] theorem Dev.writeLed_fields (d : Dev) (f) :
    (d.writeLed f).time = d.time ∧ (d.writeLed f).acts = d.acts ∧ (d.writeLed f).cfg = d.cfg ∧ (d.writeLed f).prim = d.prim ∧
    (d.writeLed f).resetHeld = d.resetHeld ∧ (d.writeLed f).resetDue = d.resetDue ∧ (d.writeLed f).otp = d.otp ∧
    (d.writeLed f).nvm = d.nvm ∧ (d.writeLed f).nvmWait = d.nvmWait ∧ (d.writeLed f).heads = d.heads ∧ (d.writeLed f).wmap = d.wmap ∧
    (d.writeLed f).frames = d.frames ∧ (d.writeLed f).metaRuns = d.metaRuns ∧ (d.writeLed f).dram = d.dram ∧
    (d.writeLed f).poison = d.poison ∧ (d.writeLed f).cist = d.cist ∧ (d.writeLed f).tiles = d.tiles ∧ (d.writeLed f).pumps = d.pumps ∧
    (d.writeLed f).encs = d.encs ∧ (d.writeLed f).decs = d.decs ∧ (d.writeLed f).books = d.books ∧ (d.writeLed f).kdoms = d.kdoms ∧
    (d.writeLed f).hs = d.hs ∧ (d.writeLed f).reads = d.reads ∧ (d.writeLed f).promos = d.promos ∧ (d.writeLed f).decayEp = d.decayEp ∧
    (d.writeLed f).decayPos = d.decayPos ∧ (d.writeLed f).oweD = d.oweD ∧ (d.writeLed f).missD = d.missD ∧
    (d.writeLed f).nextRead = d.nextRead ∧ (d.writeLed f).doms = d.doms ∧ (d.writeLed f).remDown = d.remDown ∧
    (d.writeLed f).remAt = d.remAt ∧ (d.writeLed f).dry = d.dry ∧ (d.writeLed f).overLimit = d.overLimit ∧
    (d.writeLed f).chans = d.chans ∧ (d.writeLed f).cas = d.cas ∧ (d.writeLed f).sec = d.sec ∧ (d.writeLed f).cores = d.cores ∧
    (d.writeLed f).pwr = d.pwr ∧ (d.writeLed f).clk = d.clk ∧ (d.writeLed f).sup = d.sup ∧ (d.writeLed f).bays = d.bays ∧
    (d.writeLed f).therm = d.therm ∧ (d.writeLed f).ev = d.ev ∧ (d.writeLed f).cnts = d.cnts ∧ (d.writeLed f).bws = d.bws ∧
    (d.writeLed f).perts = d.perts ∧ (d.writeLed f).mods = d.mods ∧ (d.writeLed f).gst = d.gst ∧ (d.writeLed f).mctp = d.mctp ∧
    (d.writeLed f).out = d.out ∧ (d.writeLed f).free = d.free := by
  refine ⟨rfl, rfl, rfl, rfl, rfl, rfl, rfl, rfl, rfl, rfl, rfl, rfl, rfl, rfl, rfl, rfl, rfl, rfl, rfl, rfl, rfl, rfl, rfl, rfl, rfl, rfl, rfl, rfl, rfl, rfl, rfl, rfl, rfl, rfl, rfl, rfl, rfl, rfl, rfl, rfl, rfl, rfl, rfl, rfl, rfl, rfl, rfl, rfl, rfl, rfl, rfl, rfl, rfl⟩

end Sys2Proof.Machine
end

