-- ==== Sys2Proof/Laws/Raise.lean ====
section
/-! SUPPORT. What raising an event can do (R394 to R402): it sets the pending bit, clears none, and touches nothing outside the event
state, the counters, the ledger, the records that wait for the cores, the count of lost journal records and the messages sent. -/

namespace Sys2Proof.Machine

open Sys2Proof

/-- What the event machinery keeps from `d` to `e`: every field that it does not own, every pending bit that was set,
and every message sent. -/
structure Dev.Raised (d e : Dev) : Prop where
  bare : e.bare = d.bare
  pend : ∀ m, d.ev.pend.getLsbD m = true → e.ev.pend.getLsbD m = true
  out : d.out <+: e.out

theorem Dev.Raised.refl (d : Dev) : d.Raised d := ⟨rfl, fun _ h => h, List.prefix_rfl⟩

theorem Dev.Raised.trans {a b c : Dev} (h : a.Raised b) (g : b.Raised c) : a.Raised c :=
  ⟨g.bare.trans h.bare, fun m hm => g.pend m (h.pend m hm), h.out.trans g.out⟩

theorem Dev.Raised.foldl {α : Type} {f : Dev → α → Dev} (hf : ∀ (d : Dev) x, d.Raised (f d x)) (xs : List α) (d : Dev) :
    d.Raised (xs.foldl f d) := by
  induction xs generalizing d with
  | nil => exact .refl d
  | cons x xs ih => exact (hf d x).trans (ih _)

theorem Dev.Raised.foldl_fst {α β : Type} {f : Dev × β → α → Dev × β} (hf : ∀ (p : Dev × β) x, p.1.Raised (f p x).1) (xs : List α) (p : Dev × β) :
    p.1.Raised (xs.foldl f p).1 := by
  induction xs generalizing p with
  | nil => exact .refl _
  | cons x xs ih => exact (hf p x).trans (ih _)

/-- Raising events neither halts the management cores nor brings them back. -/
theorem Dev.Raised.coresGone {d e : Dev} (h : d.Raised e) : e.coresGone = d.coresGone := by
  have h1 : e.cores.away = d.cores.away := congrArg (fun x => x.cores.away) h.bare
  have h2 : e.cores.halted = d.cores.halted := congrArg (fun x => x.cores.halted) h.bare
  unfold Dev.coresGone
  rw [h1, h2]

theorem Dev.emit_raised (d : Dev) (o : Out) : d.Raised (d.emit o) :=
  ⟨rfl, fun _ h => h, by unfold Dev.emit; dsimp only; rw [List.append_assoc]; exact List.prefix_append _ _⟩

theorem Dev.setCnt_raised (d : Dev) (n : Nat) (f) : d.Raised (d.setCnt n f) := ⟨rfl, fun _ h => h, List.prefix_rfl⟩

theorem Dev.logPost_raised (d : Dev) (n : Nat) (l : LogId) (r : EvRec) : d.Raised (d.logPost n l r).1 := by
  unfold Dev.logPost
  extract_lets k g
  split
  · exact ⟨rfl, fun _ h => h, List.prefix_rfl⟩
  · split
    · dsimp only
      have h : d.Raised (d.setLog k fun g => g.add r) := ⟨rfl, fun _ h => h, List.prefix_rfl⟩
      split
      · exact h.trans (Dev.emit_raised _ _)
      · split
        · exact h.trans (Dev.emit_raised _ _)
        · exact h
    · exact ⟨rfl, fun _ h => h, List.prefix_rfl⟩

theorem Dev.post_raised (d : Dev) (n : Nat) (l : LogId) (r : EvRec) : d.Raised (d.post n l r).1 := by
  unfold Dev.post
  split
  · split
    · exact ⟨rfl, fun _ h => h, List.prefix_rfl⟩
    · split <;> exact ⟨rfl, fun _ h => h, List.prefix_rfl⟩
  · have hp : ∀ (e : Dev) (r : EvRec), d.Raised e → d.Raised (if (e.logPost n l r).2 then ((e.logPost n l r).1, [255]) else ((e.logPost n l r).1, [])).1 := by
      intro e r h
      split <;> exact h.trans (e.logPost_raised n l r)
    by_cases ht : d.takesNew n l r = true
    · simp only [ht, if_true]
      exact hp _ _ ⟨rfl, fun _ h => h, List.prefix_rfl⟩
    · simp only [ht]
      exact hp _ _ (.refl d)

theorem Dev.postAll_raised (d : Dev) (ns : List Nat) (l : LogId) (r : EvRec) : d.Raised (d.postAll ns l r).1 := by
  unfold Dev.postAll
  refine Dev.Raised.foldl_fst (fun p x => ?_) ns (d, [])
  exact p.1.post_raised x l r

theorem Dev.journal_raised (d : Dev) (r : JRec) : d.Raised (d.journal r).1 := by
  unfold Dev.journal
  split
  · extract_lets note
    split
    · exact ⟨rfl, fun _ h => h, List.prefix_rfl⟩
    · split <;> exact ⟨rfl, fun _ h => h, List.prefix_rfl⟩
  · exact ⟨rfl, fun _ h => h, List.prefix_rfl⟩

theorem Dev.journalAgain_raised (d : Dev) (n : Nat) : d.Raised (d.journalAgain n) := ⟨rfl, fun _ h => h, List.prefix_rfl⟩

theorem Dev.countEv_raised (d : Dev) (n : Nat) : d.Raised (d.countEv n).1 := by
  refine Dev.Raised.foldl_fst (fun p x => ?_) _ (d, [])
  dsimp only
  split
  · exact Dev.setCnt_raised _ _ _
  · exact .refl _

theorem Dev.setPend_raised (d : Dev) (n : Nat) : d.Raised (d.setPend n) :=
  ⟨rfl, fun m h => by simp [Dev.setPend, h], List.prefix_rfl⟩

theorem Dev.setPend_pending (d : Dev) (n : Nat) (h : n < 256) : (d.setPend n).Pending n := by
  simp [Dev.setPend, Dev.Pending, h]

theorem evClass_lt {n : Nat} (h : evClass n ≠ none) : n < 256 := by
  have h1 : ∀ m ∈ evN, m < 256 := by decide
  have h2 : ∀ m ∈ evA, m < 256 := by decide
  have h3 : ∀ m ∈ evI, m < 256 := by decide
  have h4 : ∀ m ∈ evC, m < 256 := by decide
  unfold evClass at h
  by_contra hn
  rw [if_neg fun hm => hn (h1 n hm), if_neg fun hm => hn (h2 n hm), if_neg fun hm => hn (h3 n hm), if_neg fun hm => hn (h4 n hm)] at h
  exact h rfl

/-- One raise: the pending bit is set where the event number is in use. -/
theorem Dev.raise1_raised (d : Dev) (n : Nat) (i : EvInfo) : d.Raised (d.raise1 n i).1 := by
  unfold Dev.raise1
  split
  · exact .refl d
  · extract_lets first
    have h1 : d.Raised ((d.setPend n).countEv n).1 := (d.setPend_raised n).trans ((d.setPend n).countEv_raised n)
    split
    rename_i d1 c h
    rw [h] at h1
    extract_lets e2 d2 r rt heads dests
    have h2 : d.Raised d2 := ⟨h1.bare, h1.pend, h1.out⟩
    clear_value d2
    have h3 := h2.trans (d2.postAll_raised dests (evLog n) r)
    split
    rename_i d3 x h4
    rw [h4] at h3
    split
    · exact h3.trans (d3.journalAgain_raised n)
    · split
      · split
        rename_i d4 y h5
        have h6 : d3.Raised (d4, y).1 := h5 ▸ d3.journal_raised _
        exact h3.trans h6
      · exact h3

theorem Dev.raise1_pending (d : Dev) (n : Nat) (i : EvInfo) (h : evClass n ≠ none) : (d.raise1 n i).1.Pending n := by
  unfold Dev.raise1
  rw [if_neg h]
  extract_lets first
  have h1 : ((d.setPend n).countEv n).1.Pending n :=
    ((d.setPend n).countEv_raised n).pend n (d.setPend_pending n (evClass_lt h))
  split
  rename_i d1 c h
  rw [h] at h1
  extract_lets e2 d2 r rt heads dests
  have h2 : d2.Pending n := h1
  clear_value d2
  have h3 : (d2.postAll dests (evLog n) r).1.Pending n := (d2.postAll_raised dests (evLog n) r).pend n h2
  split
  rename_i d3 x h4
  rw [h4] at h3
  split
  · exact (d3.journalAgain_raised n).pend n h3
  · split
    · split
      rename_i d4 y h5
      have h6 : d3.Raised (d4, y).1 := h5 ▸ d3.journal_raised _
      exact h6.pend n h3
    · exact h3

/-- Raising an event, with what it causes in turn. -/
theorem Dev.raiseI_raised (d : Dev) (n : Nat) (i : EvInfo) : d.Raised (d.raiseI n i) := by
  unfold Dev.raiseI
  have h := d.raise1_raised n i
  split
  rename_i e more h1
  rw [h1] at h
  exact h.trans (Dev.Raised.foldl (fun d m => d.raise1_raised m.1 m.2) more e)

theorem Dev.raiseI_eq (d : Dev) (n : Nat) (i : EvInfo) :
    d.raiseI n i = (d.raise1 n i).2.foldl (fun d m => (d.raise1 m.1 m.2).1) (d.raise1 n i).1 := by
  unfold Dev.raiseI
  split
  rename_i h
  rw [h]

theorem Dev.raiseI_pending (d : Dev) (n : Nat) (i : EvInfo) (h : evClass n ≠ none) : (d.raiseI n i).Pending n := by
  have h2 := d.raise1_pending n i h
  have h3 := Dev.Raised.foldl (f := fun d (m : Nat × EvInfo) => (d.raise1 m.1 m.2).1) (fun d m => d.raise1_raised m.1 m.2)
    (d.raise1 n i).2 (d.raise1 n i).1
  rw [← Dev.raiseI_eq] at h3
  exact h3.pend n h2

theorem Dev.raise_raised (d : Dev) (n : Nat) (a b) : d.Raised (d.raise n a b) := d.raiseI_raised n _
theorem Dev.raise_pending (d : Dev) (n : Nat) (a b) (h : evClass n ≠ none) : (d.raise n a b).Pending n := d.raiseI_pending n _ h

theorem Dev.record_raised (d : Dev) (ds : List Nat) (l : LogId) (k : RecKind) (ev c sl : Nat) (dt : List Nat) :
    d.Raised (d.record ds l k ev c sl dt) := by
  unfold Dev.record
  extract_lets r
  have h := d.postAll_raised ds l r
  split
  rename_i e x h1
  rw [h1] at h
  exact h.trans (Dev.Raised.foldl (fun d m => d.raise1_raised m {}) x e)

theorem Dev.journalNote_raised (d : Dev) (c sl : Nat) (dt : List Nat) : d.Raised (d.journalNote c sl dt) := by
  unfold Dev.journalNote
  split
  rename_i e x h1
  have h : d.Raised (e, x).1 := h1 ▸ d.journal_raised _
  exact h.trans (Dev.Raised.foldl (fun d m => d.raise1_raised m {}) x e)

theorem Dev.reassert_raised (d : Dev) (n : Nat) : d.Raised (d.reassert n) := d.setPend_raised n

@[simp] theorem Dev.raiseI_bare (d : Dev) (n : Nat) (i) : (d.raiseI n i).bare = d.bare := (d.raiseI_raised n i).bare
@[simp] theorem Dev.raise_bare (d : Dev) (n : Nat) (a b) : (d.raise n a b).bare = d.bare := (d.raise_raised n a b).bare
@[simp] theorem Dev.reply_bare (d : Dev) (a b c e) : (d.reply a b c e).bare = d.bare := by unfold Dev.reply; split <;> rfl
@[simp] theorem Dev.emit_bare (d : Dev) (o) : (d.emit o).bare = d.bare := rfl

/-- The fields that two devices share when they agree apart from events and messages. -/
theorem Dev.fields_of_bare {e d : Dev} (h : e.bare = d.bare) :
    e.time = d.time ∧ e.acts = d.acts ∧ e.cfg = d.cfg ∧ e.prim = d.prim ∧ e.resetHeld = d.resetHeld ∧
    e.resetDue = d.resetDue ∧ e.otp = d.otp ∧ e.nvm = d.nvm ∧ e.nvmWait = d.nvmWait ∧ e.heads = d.heads ∧
    e.wmap = d.wmap ∧ e.frames = d.frames ∧ e.metaRuns = d.metaRuns ∧ e.dram = d.dram ∧ e.poison = d.poison ∧
    e.cist = d.cist ∧ e.tiles = d.tiles ∧ e.pumps = d.pumps ∧ e.encs = d.encs ∧ e.decs = d.decs ∧ e.books = d.books ∧
    e.kdoms = d.kdoms ∧ e.hs = d.hs ∧ e.reads = d.reads ∧ e.promos = d.promos ∧ e.decayEp = d.decayEp ∧ e.decayPos = d.decayPos ∧ e.oweD = d.oweD ∧ e.missD = d.missD ∧ e.nextRead = d.nextRead ∧
    e.doms = d.doms ∧ e.remDown = d.remDown ∧ e.remAt = d.remAt ∧ e.dry = d.dry ∧ e.overLimit = d.overLimit ∧ e.chans = d.chans ∧
    e.cas = d.cas ∧ e.sec = d.sec ∧ e.pwr = d.pwr ∧ e.clk = d.clk ∧ e.sup = d.sup ∧ e.bays = d.bays ∧ e.bws = d.bws ∧
    e.perts = d.perts ∧ e.mods = d.mods ∧ e.gst = d.gst ∧ e.mctp = d.mctp ∧ e.free = d.free := by
  refine ⟨(congrArg Dev.time h :), (congrArg Dev.acts h :), (congrArg Dev.cfg h :), (congrArg Dev.prim h :), (congrArg Dev.resetHeld h :), (congrArg Dev.resetDue h :), (congrArg Dev.otp h :), (congrArg Dev.nvm h :), (congrArg Dev.nvmWait h :), (congrArg Dev.heads h :), (congrArg Dev.wmap h :), (congrArg Dev.frames h :), (congrArg Dev.metaRuns h :), (congrArg Dev.dram h :), (congrArg Dev.poison h :), (congrArg Dev.cist h :), (congrArg Dev.tiles h :), (congrArg Dev.pumps h :), (congrArg Dev.encs h :), (congrArg Dev.decs h :), (congrArg Dev.books h :), (congrArg Dev.kdoms h :), (congrArg Dev.hs h :), (congrArg Dev.reads h :), (congrArg Dev.promos h :), (congrArg Dev.decayEp h :), (congrArg Dev.decayPos h :), (congrArg Dev.oweD h :), (congrArg Dev.missD h :), (congrArg Dev.nextRead h :), (congrArg Dev.doms h :), (congrArg Dev.remDown h :), (congrArg Dev.remAt h :), (congrArg Dev.dry h :), (congrArg Dev.overLimit h :), (congrArg Dev.chans h :), (congrArg Dev.cas h :), (congrArg Dev.sec h :), (congrArg Dev.pwr h :), (congrArg Dev.clk h :), (congrArg Dev.sup h :), (congrArg Dev.bays h :), (congrArg Dev.bws h :), (congrArg Dev.perts h :), (congrArg Dev.mods h :), (congrArg Dev.gst h :), (congrArg Dev.mctp h :), (congrArg Dev.free h :)⟩

@[simp] theorem Dev.raiseI_fields (d : Dev) (n) (i) :
    (d.raiseI n i).time = d.time ∧ (d.raiseI n i).acts = d.acts ∧ (d.raiseI n i).cfg = d.cfg ∧ (d.raiseI n i).prim = d.prim ∧
    (d.raiseI n i).resetHeld = d.resetHeld ∧ (d.raiseI n i).resetDue = d.resetDue ∧ (d.raiseI n i).otp = d.otp ∧
    (d.raiseI n i).nvm = d.nvm ∧ (d.raiseI n i).nvmWait = d.nvmWait ∧ (d.raiseI n i).heads = d.heads ∧ (d.raiseI n i).wmap = d.wmap ∧
    (d.raiseI n i).frames = d.frames ∧ (d.raiseI n i).metaRuns = d.metaRuns ∧ (d.raiseI n i).dram = d.dram ∧
    (d.raiseI n i).poison = d.poison ∧ (d.raiseI n i).cist = d.cist ∧ (d.raiseI n i).tiles = d.tiles ∧
    (d.raiseI n i).pumps = d.pumps ∧ (d.raiseI n i).encs = d.encs ∧ (d.raiseI n i).decs = d.decs ∧ (d.raiseI n i).books = d.books ∧
    (d.raiseI n i).kdoms = d.kdoms ∧ (d.raiseI n i).hs = d.hs ∧ (d.raiseI n i).reads = d.reads ∧ (d.raiseI n i).promos = d.promos ∧ (d.raiseI n i).decayEp = d.decayEp ∧ (d.raiseI n i).decayPos = d.decayPos ∧ (d.raiseI n i).oweD = d.oweD ∧ (d.raiseI n i).missD = d.missD ∧
    (d.raiseI n i).nextRead = d.nextRead ∧ (d.raiseI n i).doms = d.doms ∧ (d.raiseI n i).remDown = d.remDown ∧ (d.raiseI n i).remAt = d.remAt ∧
    (d.raiseI n i).dry = d.dry ∧ (d.raiseI n i).overLimit = d.overLimit ∧ (d.raiseI n i).chans = d.chans ∧
    (d.raiseI n i).cas = d.cas ∧ (d.raiseI n i).sec = d.sec ∧ (d.raiseI n i).pwr = d.pwr ∧ (d.raiseI n i).clk = d.clk ∧
    (d.raiseI n i).sup = d.sup ∧ (d.raiseI n i).bays = d.bays ∧ (d.raiseI n i).bws = d.bws ∧ (d.raiseI n i).perts = d.perts ∧
    (d.raiseI n i).mods = d.mods ∧ (d.raiseI n i).gst = d.gst ∧ (d.raiseI n i).mctp = d.mctp ∧ (d.raiseI n i).free = d.free :=
  Dev.fields_of_bare (d.raiseI_bare n i)
@[simp] theorem Dev.raise_fields (d : Dev) (n) (a) (b) :
    (d.raise n a b).time = d.time ∧ (d.raise n a b).acts = d.acts ∧ (d.raise n a b).cfg = d.cfg ∧ (d.raise n a b).prim = d.prim ∧
    (d.raise n a b).resetHeld = d.resetHeld ∧ (d.raise n a b).resetDue = d.resetDue ∧ (d.raise n a b).otp = d.otp ∧
    (d.raise n a b).nvm = d.nvm ∧ (d.raise n a b).nvmWait = d.nvmWait ∧ (d.raise n a b).heads = d.heads ∧
    (d.raise n a b).wmap = d.wmap ∧ (d.raise n a b).frames = d.frames ∧ (d.raise n a b).metaRuns = d.metaRuns ∧
    (d.raise n a b).dram = d.dram ∧ (d.raise n a b).poison = d.poison ∧ (d.raise n a b).cist = d.cist ∧
    (d.raise n a b).tiles = d.tiles ∧ (d.raise n a b).pumps = d.pumps ∧ (d.raise n a b).encs = d.encs ∧
    (d.raise n a b).decs = d.decs ∧ (d.raise n a b).books = d.books ∧ (d.raise n a b).kdoms = d.kdoms ∧ (d.raise n a b).hs = d.hs ∧
    (d.raise n a b).reads = d.reads ∧ (d.raise n a b).promos = d.promos ∧ (d.raise n a b).decayEp = d.decayEp ∧ (d.raise n a b).decayPos = d.decayPos ∧ (d.raise n a b).oweD = d.oweD ∧ (d.raise n a b).missD = d.missD ∧ (d.raise n a b).nextRead = d.nextRead ∧
    (d.raise n a b).doms = d.doms ∧ (d.raise n a b).remDown = d.remDown ∧ (d.raise n a b).remAt = d.remAt ∧ (d.raise n a b).dry = d.dry ∧
    (d.raise n a b).overLimit = d.overLimit ∧ (d.raise n a b).chans = d.chans ∧ (d.raise n a b).cas = d.cas ∧
    (d.raise n a b).sec = d.sec ∧ (d.raise n a b).pwr = d.pwr ∧ (d.raise n a b).clk = d.clk ∧ (d.raise n a b).sup = d.sup ∧
    (d.raise n a b).bays = d.bays ∧ (d.raise n a b).bws = d.bws ∧ (d.raise n a b).perts = d.perts ∧ (d.raise n a b).mods = d.mods ∧
    (d.raise n a b).gst = d.gst ∧ (d.raise n a b).mctp = d.mctp ∧ (d.raise n a b).free = d.free :=
  Dev.fields_of_bare (d.raise_bare n a b)

end Sys2Proof.Machine
end

