-- ==== Sys2Proof/Laws/Gates.lean ====
section
/-! SUPPORT. What the gates of a mailbox or CCI command do (R30, R57, R76, R85, R390, R461): a command that is accepted acts on the device
as its arrival left it, one that is not gets its completion and nothing else. -/

namespace Sys2Proof.Machine

open Sys2Proof

theorem Dev.gated_of_accepts {d : Dev} {src : Src} {g : Gate} (h : d.Accepts src g) (f : Dev → Dev) :
    d.gated src g f = f (d.heard src g) := by
  obtain ⟨h1, h2⟩ := h
  unfold Dev.gated
  simp only [h1, Bool.not_true, Bool.false_eq_true, if_false]
  unfold Dev.heard at h2 ⊢
  rw [h2]

theorem Dev.gated_of_stop {d : Dev} {src : Src} {g : Gate} {r : Ret} {e : Nat} (h1 : d.srcOk src = true)
    (h : (d.heard src g).gateStop src g = some (r, e)) (f : Dev → Dev) : d.gated src g f = (d.heard src g).reply src r e := by
  unfold Dev.gated
  simp only [h1, Bool.not_true, Bool.false_eq_true, if_false]
  unfold Dev.heard at h ⊢
  rw [h]

/-- The wake that a command's arrival starts leaves the management cores as they are (R342). -/
theorem Dev.heard_coresGone (d : Dev) (src : Src) (g : Gate) : (d.heard src g).coresGone = d.coresGone := by
  have hw : ∀ (e : Dev) (k i : Nat), (e.wake k i).coresGone = e.coresGone := by
    intro e k i
    unfold Dev.wake
    extract_lets p
    have hr : ∀ (f : PwrSt → PwrSt) (n : Nat), ((e.setPwr f).raise n).coresGone = e.coresGone := fun f n =>
      (Dev.raise_raised (e.setPwr f) n _ _).coresGone
    split
    · split
      · rfl
      · exact hr _ _
    · split
      · exact (Dev.raise_raised _ _ _ _).coresGone.trans (hr _ _)
      · split
        · rfl
        · exact hr _ _
  unfold Dev.heard
  split
  · rfl
  · cases src with
    | head h => unfold Dev.wakeFor; dsimp only; split
                · exact hw _ _ _
                · rfl
    | mctp => exact hw _ _ _

/-- A command that passes its gates does not pause: the cores are there (R30). -/
theorem State.mail_of_accepts {s : State} {src : Src} {g : Gate} (h : s.dev.Accepts src g) (i : Instr) (d : Dev) : s.mail src i d = s.done d := by
  have h1 : s.dev.coresGone = false := by
    by_contra hc
    have h2 := h.2
    unfold Dev.gateStop at h2
    rw [Dev.heard_coresGone, (Bool.not_eq_false _).mp hc] at h2
    simp at h2
  unfold State.mail
  rw [if_neg (by simp [h1])]

/-- What a command behind gates leaves where it is accepted, where it would pause while the cores are away. -/
theorem Accepted.leaves_mail {c : Instr} {src : Src} {g : Gate} {f : Dev → Dev} {s : State} (h1 : gateOf s.dev c = some (src, g))
    (h2 : exec c s = s.mail src c (s.dev.gated src g f)) {d : Dev} (h : Accepted c s src d) {e : Dev} (h3 : f d = e) : Leaves c s e := by
  obtain ⟨g', h4, h5, rfl⟩ := h
  rw [h1] at h4
  cases h4
  unfold Leaves
  rw [h2, State.mail_of_accepts h5, Dev.gated_of_accepts h5, h3]
  rfl

theorem Effect.of_mailed {c : Instr} {src : Src} {g : Gate} {f : Dev → Dev} (h1 : ∀ d, gateOf d c = some (src, g))
    (h2 : ∀ s, exec c s = s.mail src c (s.dev.gated src g f)) : Effect c src f := fun s _ h => h.leaves_mail (h1 s.dev) (h2 s) rfl

/-- What a command behind gates leaves where it is accepted. -/
theorem Accepted.leaves {c : Instr} {src : Src} {g : Gate} {f : Dev → Dev} {s : State} (h1 : gateOf s.dev c = some (src, g))
    (h2 : exec c s = s.done (s.dev.gated src g f)) {d : Dev} (h : Accepted c s src d) {e : Dev} (h3 : f d = e) : Leaves c s e := by
  obtain ⟨g', h4, h5, rfl⟩ := h
  rw [h1] at h4
  cases h4
  unfold Leaves
  rw [h2, Dev.gated_of_accepts h5, h3]
  rfl

theorem Effect.of_gated {c : Instr} {src : Src} {g : Gate} {f : Dev → Dev} (h1 : ∀ d, gateOf d c = some (src, g))
    (h2 : ∀ s, exec c s = s.done (s.dev.gated src g f)) : Effect c src f := fun s _ h => h.leaves (h1 s.dev) (h2 s) rfl

theorem Dev.vend_of_ok {d : Dev} {src : Src} {p : List Byte} {a b : Bool} {f : Dev → Dev} (hp : p.length ≤ 4096) (ha : a = true)
    (hb : b = true) : d.vend src p a b f = f d := by
  subst ha hb
  unfold Dev.vend
  rw [if_neg (by simp; intro; omega)]
  simp
  intro; omega

theorem Dev.vend_of_short {d : Dev} {src : Src} {p : List Byte} {a b : Bool} {f : Dev → Dev} (hp : p.length ≤ 4096) (ha : a = false) :
    d.vend src p a b f = d.reply src .invalidPayloadLength := by
  subst ha
  unfold Dev.vend
  rw [if_neg (by simp; intro; omega)]
  simp

/-- A command completes with the device that its meaning gives. -/
theorem Does.of_done {c : Instr} {s : State} {d : Dev} {P : Dev → Prop} (h : exec c s = s.done d) (hp : P d) : Does c s P :=
  ⟨{ s with dev := d }, h, rfl, hp⟩

end Sys2Proof.Machine
end

