-- ==== Sys2Proof/Laws/Memory.lean ====
section
/-! SUPPORT. What the sparse tables and the byte memories keep: the canonical form under every memory operation, and
the combinators by which an operation on the device keeps it. -/

namespace Sys2Proof.Machine

open Sys2Proof

theorem Memory.wf_iff (b : Byte) (m : List Host.Cell) :
    Memory.wf b m = true ↔ m.Pairwise (fun x y => x.1 < y.1) ∧ ∀ c ∈ m, c.2 ≠ b := by
  induction m with
  | nil => simp [Memory.wf]
  | cons c t ih =>
    obtain ⟨a, v⟩ := c
    cases t with
    | nil => simp [Memory.wf]
    | cons c2 t2 =>
      obtain ⟨a2, v2⟩ := c2
      simp only [Memory.wf, Bool.and_eq_true, bne_iff_ne, ne_eq, decide_eq_true_eq, ih, List.pairwise_cons, List.mem_cons, forall_eq_or_imp]
      constructor
      · rintro ⟨⟨h1, h2⟩, ⟨h3, h4⟩, h5, h6⟩
        exact ⟨⟨⟨h2, fun c hc => Nat.lt_trans h2 (h3 c hc)⟩, h3, h4⟩, h1, h5, h6⟩
      · rintro ⟨⟨⟨h2, _⟩, h3, h4⟩, h1, h5, h6⟩
        exact ⟨⟨h1, h2⟩, ⟨h3, h4⟩, h5, h6⟩

theorem Tbl.mem_put {α : Type} (t : Tbl α) (k : Nat) (v : α) (c : Nat × α) (h : c ∈ Tbl.put t k v) : c = (k, v) ∨ c ∈ t := by
  induction t with
  | nil => simpa [Tbl.put] using h
  | cons x t ih =>
    obtain ⟨j, w⟩ := x
    simp only [Tbl.put] at h
    split at h
    · simp only [List.mem_cons] at h ⊢; tauto
    · split at h
      · simpa using h
      · simp only [List.mem_cons] at h ⊢
        rcases h with h | h
        · exact Or.inr (Or.inl h)
        · rcases ih h with h | h
          · exact Or.inl h
          · exact Or.inr (Or.inr h)

theorem Tbl.sorted_put {α : Type} (t : Tbl α) (k : Nat) (v : α) (h : t.Pairwise (fun x y => x.1 < y.1)) :
    (Tbl.put t k v).Pairwise (fun x y => x.1 < y.1) := by
  induction t with
  | nil => simp [Tbl.put]
  | cons x t ih =>
    obtain ⟨j, w⟩ := x
    rw [List.pairwise_cons] at h
    simp only [Tbl.put]
    split
    · subst_vars; exact List.pairwise_cons.2 ⟨h.1, h.2⟩
    · split
      · rename_i hlt
        refine List.pairwise_cons.2 ⟨?_, List.pairwise_cons.2 h⟩
        intro y hy
        rcases List.mem_cons.1 hy with rfl | hy
        · exact hlt
        · exact Nat.lt_trans hlt (h.1 y hy)
      · refine List.pairwise_cons.2 ⟨?_, ih h.2⟩
        intro y hy
        rcases Tbl.mem_put t k v y hy with rfl | hy
        · show j < k; omega
        · exact h.1 y hy

theorem Tbl.del_sublist {α : Type} (t : Tbl α) (k : Nat) : (Tbl.del t k).Sublist t := List.filter_sublist

theorem Memory.wf_write (b : Byte) (m : List Host.Cell) (a : Nat) (v : Byte) (h : Memory.wf b m = true) : Memory.wf b (Memory.write b m a v) = true := by
  rw [Memory.wf_iff] at h ⊢
  unfold Memory.write Tbl.set
  split
  · exact ⟨h.1.sublist (Tbl.del_sublist m a), fun c hc => h.2 c ((Tbl.del_sublist m a).subset hc)⟩
  · refine ⟨Tbl.sorted_put m a v h.1, fun c hc => ?_⟩
    rcases Tbl.mem_put m a v c hc with rfl | hc
    · assumption
    · exact h.2 c hc

theorem Memory.wf_writeN (b : Byte) (m : List Host.Cell) (a : Nat) (bs : List Byte) (h : Memory.wf b m = true) : Memory.wf b (Memory.writeN b m a bs) = true := by
  induction bs generalizing m a with
  | nil => exact h
  | cons x xs ih => exact ih _ _ (Memory.wf_write b m a x h)

theorem Memory.wf_wipe (b : Byte) (m : List Host.Cell) (a n : Nat) (h : Memory.wf b m = true) : Memory.wf b (Memory.wipe m a n) = true := by
  rw [Memory.wf_iff] at h ⊢
  exact ⟨h.1.sublist List.filter_sublist, fun c hc => h.2 c (List.mem_of_mem_filter hc)⟩

/-- A property of what few commands change: the OTP (R316), the NVM (R289), the stroke count (R38) and the offset of the timestamp (R459). -/
abbrev Keep := Otp → List Host.Cell → Nat → Int → Prop

/-- The byte memories of `d` are in canonical form, and its OTP, NVM, stroke count and timestamp offset have the property `o`. -/
def KeptMem (o : Keep) (dram nvm : List Host.Cell) (p : Otp) (loc : Nat) (ofs : Int) : Prop := OkMem dram nvm ∧ o p nvm loc ofs
def Kept (o : Keep) (d : Dev) : Prop := KeptMem o d.dram d.nvm d.otp d.time.loc d.time.tsOfs

/-- The property does not look at the NVM. -/
def Keep.AnyNvm (o : Keep) : Prop := ∀ p m n l t, o p m l t → o p n l t
/-- The property stands when OTP fields are burnt that may be burnt. -/
def Keep.Burns (o : Keep) : Prop := ∀ p q n l t, OtpKept p q → o p n l t → o q n l t
/-- The property does not look at the offset of the timestamp. -/
def Keep.AnyStamp (o : Keep) : Prop := ∀ p n l t u, o p n l t → o p n l u
/-- The property stands when the stroke count is cleared (R366). -/
def Keep.Clears (o : Keep) : Prop := ∀ p n l t, o p n l t → o p n 0 t

@[simp] theorem keptMem_dram (o : Keep) (d : Dev) (a : Nat) (bs : List Byte) (h : Kept o d) :
    KeptMem o (Memory.writeN dramBlank d.dram a bs) d.nvm d.otp d.time.loc d.time.tsOfs := ⟨⟨Memory.wf_writeN _ _ _ _ h.1.1, h.1.2⟩, h.2⟩
theorem keptMem_nvm (o : Keep) (d : Dev) (a : Nat) (bs : List Byte) (hw : o.AnyNvm) (h : Kept o d) :
    KeptMem o d.dram (Memory.writeN nvmBlank d.nvm a bs) d.otp d.time.loc d.time.tsOfs :=
  ⟨⟨h.1.1, Memory.wf_writeN _ _ _ _ h.1.2⟩, hw _ _ _ _ _ h.2⟩
theorem keptMem_wipe (o : Keep) (d : Dev) (a n x : Nat) (bs : List Byte) (hw : o.AnyNvm) (h : Kept o d) :
    KeptMem o d.dram (Memory.writeN nvmBlank (Memory.wipe d.nvm a n) x bs) d.otp d.time.loc d.time.tsOfs :=
  ⟨⟨h.1.1, Memory.wf_writeN _ _ _ _ (Memory.wf_wipe _ _ _ _ h.1.2)⟩, hw _ _ _ _ _ h.2⟩
@[simp] theorem keptMem_nil (o : Keep) (d : Dev) (h : Kept o d) : KeptMem o [] d.nvm d.otp d.time.loc d.time.tsOfs := ⟨⟨rfl, h.1.2⟩, h.2⟩

@[simp] theorem keptMem_dev (o : Keep) (d : Dev) : KeptMem o d.dram d.nvm d.otp d.time.loc d.time.tsOfs = Kept o d := rfl
@[simp] theorem kept_mk (o : Keep) (a0 : TimeSt) (a1) (a2) (a3) (a4) (a5) (a6) (a7) (a8) (a9) (b0) (b1) (b2) (b3) (b4) (b5) (b6) (b7)
    (b8) (b9) (c0) (c1) (c2) (c3) (c4) (c5) (c6) (c7) (c8) (c9) (d0) (d1) (d2) (d3) (d4) (d5) (d6) (d7) (d8) (d9) (e0) (e1) (e2) (e3)
    (e4) (e5) (e6) (e7) (e8) (e9) (f0) (f1) (f2) (f3) : Kept o (Dev.mk a0 a1 a2 a3 a4 a5 a6 a7 a8 a9 b0 b1 b2 b3 b4 b5 b6 b7 b8 b9 c0
    c1 c2 c3 c4 c5 c6 c7 c8 c9 d0 d1 d2 d3 d4 d5 d6 d7 d8 d9 e0 e1 e2 e3 e4 e5 e6 e7 e8 e9 f0 f1 f2 f3) = KeptMem o b4 a7 a6 a0.loc
    a0.tsOfs := rfl
@[simp] theorem kept_ite (o : Keep) (c : Prop) [Decidable c] (a b : Dev) (ha : Kept o a) (hb : Kept o b) : Kept o (if c then a else b) := by split <;> assumption
@[simp] theorem kept_forAll {α : Type} (o : Keep) (d : Dev) (xs : List α) (f : Dev → α → Dev) (h : Kept o d) (hf : ∀ d x, Kept o d → Kept o (f d x)) : Kept o (forAll d xs f) := by
  unfold forAll
  induction xs generalizing d with
  | nil => exact h
  | cons x xs ih => exact ih _ (hf d x h)
@[simp] theorem kept_when (o : Keep) (d : Dev) (c : Bool) (f : Dev → Dev) (h : Kept o d) (hf : Kept o d → Kept o (f d)) : Kept o (d.when c f) := by
  unfold Dev.when; split <;> simp_all
@[simp] theorem kept_foldl {α : Type} (o : Keep) (d : Dev) (xs : List α) (f : Dev → α → Dev) (h : Kept o d) (hf : ∀ d x, Kept o d → Kept o (f d x)) : Kept o (xs.foldl f d) := kept_forAll o d xs f h hf
@[simp] theorem kept_foldl_fst {α β : Type} (o : Keep) (p : Dev × β) (xs : List α) (f : Dev × β → α → Dev × β) (h : Kept o p.1) (hf : ∀ p x, Kept o p.1 → Kept o (f p x).1) : Kept o (xs.foldl f p).1 := by
  induction xs generalizing p with
  | nil => exact h
  | cons x xs ih => exact ih _ (hf p x h)
@[simp] theorem kept_ite_fst {β : Type} (o : Keep) (c : Prop) [Decidable c] (a b : Dev × β) (ha : Kept o a.1) (hb : Kept o b.1) : Kept o (if c then a else b).1 := by split <;> assumption
@[simp] theorem kept_ite_snd {β : Type} (o : Keep) (c : Prop) [Decidable c] (a b : β × Dev) (ha : Kept o a.2) (hb : Kept o b.2) : Kept o (if c then a else b).2 := by split <;> assumption

/-! ### What touches no stored data -/

/-- A property of the stored data: the DRAM, the cistern, the well map and the marks of the granules. -/
abbrev Store := List Host.Cell → Tbl Gran → Tbl MapEntry → Tbl Nat → Prop
def HeldMem (o : Store) (dram : List Host.Cell) (cist : Tbl Gran) (wmap : Tbl MapEntry) (poison : Tbl Nat) : Prop := o dram cist wmap poison
def Held (o : Store) (d : Dev) : Prop := HeldMem o d.dram d.cist d.wmap d.poison

@[simp] theorem heldMem_dev (o : Store) (d : Dev) : HeldMem o d.dram d.cist d.wmap d.poison = Held o d := rfl
@[simp] theorem held_mk (o : Store) (a0 : TimeSt) (a1) (a2) (a3) (a4) (a5) (a6) (a7) (a8) (a9) (b0) (b1) (b2) (b3) (b4) (b5) (b6) (b7)
    (b8) (b9) (c0) (c1) (c2) (c3) (c4) (c5) (c6) (c7) (c8) (c9) (d0) (d1) (d2) (d3) (d4) (d5) (d6) (d7) (d8) (d9) (e0) (e1) (e2) (e3)
    (e4) (e5) (e6) (e7) (e8) (e9) (f0) (f1) (f2) (f3) : Held o (Dev.mk a0 a1 a2 a3 a4 a5 a6 a7 a8 a9 b0 b1 b2 b3 b4 b5 b6 b7 b8 b9 c0
    c1 c2 c3 c4 c5 c6 c7 c8 c9 d0 d1 d2 d3 d4 d5 d6 d7 d8 d9 e0 e1 e2 e3 e4 e5 e6 e7 e8 e9 f0 f1 f2 f3) = HeldMem o b4 b6 b1 b5 := rfl
@[simp] theorem held_ite (o : Store) (c : Prop) [Decidable c] (a b : Dev) (ha : Held o a) (hb : Held o b) : Held o (if c then a else b) := by split <;> assumption
@[simp] theorem held_forAll {α : Type} (o : Store) (d : Dev) (xs : List α) (f : Dev → α → Dev) (h : Held o d) (hf : ∀ d x, Held o d → Held o (f d x)) : Held o (forAll d xs f) := by
  unfold forAll
  induction xs generalizing d with
  | nil => exact h
  | cons x xs ih => exact ih _ (hf d x h)
@[simp] theorem held_when (o : Store) (d : Dev) (c : Bool) (f : Dev → Dev) (h : Held o d) (hf : Held o d → Held o (f d)) : Held o (d.when c f) := by
  unfold Dev.when; split <;> simp_all
@[simp] theorem held_foldl {α : Type} (o : Store) (d : Dev) (xs : List α) (f : Dev → α → Dev) (h : Held o d) (hf : ∀ d x, Held o d → Held o (f d x)) : Held o (xs.foldl f d) := held_forAll o d xs f h hf
@[simp] theorem held_foldl_fst {α β : Type} (o : Store) (p : Dev × β) (xs : List α) (f : Dev × β → α → Dev × β) (h : Held o p.1) (hf : ∀ p x, Held o p.1 → Held o (f p x).1) : Held o (xs.foldl f p).1 := by
  induction xs generalizing p with
  | nil => exact h
  | cons x xs ih => exact ih _ (hf p x h)
@[simp] theorem held_ite_fst {β : Type} (o : Store) (c : Prop) [Decidable c] (a b : Dev × β) (ha : Held o a.1) (hb : Held o b.1) : Held o (if c then a else b).1 := by split <;> assumption
@[simp] theorem held_ite_snd {β : Type} (o : Store) (c : Prop) [Decidable c] (a b : β × Dev) (ha : Held o a.2) (hb : Held o b.2) : Held o (if c then a else b).2 := by split <;> assumption
end Sys2Proof.Machine
end

