-- ==== Sys2Proof/Laws/HeldOps.lean ====
section
/-! SUPPORT. The operations that touch no stored data: the DRAM, the cistern, the well map and the marks of poisoned granules are as they were
after each of them. -/

namespace Sys2Proof.Machine

open Sys2Proof

set_option linter.unreachableTactic false
set_option linter.unusedTactic false
set_option linter.unusedSimpArgs false

@[simp] theorem Dev.emit_held (o : Store) (a0 : Dev) (a1) (h0 : Held o a0) : Held o (@Dev.emit a0 a1) := by
  simp +contextual [Dev.emit, *]

@[simp] theorem Dev.setPort_held (o : Store) (a0 : Dev) (a1) (a2) (h0 : Held o a0) : Held o (@Dev.setPort a0 a1 a2) := by
  simp +contextual [Dev.setPort, *]

@[simp] theorem forAll_held (o : Store) (a0) (a1 : Dev) (a2) (a3) (h1 : Held o a1) (h3 : ∀ y0 y1, Held o y0 → Held o (a3 y0 y1)) : Held o (@forAll a0 a1 a2 a3) := by
  simp +contextual [forAll, *]

@[simp] theorem Dev.reply_held (o : Store) (a0 : Dev) (a1) (a2) (a3) (a4) (h0 : Held o a0) : Held o (@Dev.reply a0 a1 a2 a3 a4) := by
  simp +contextual [Dev.reply, *]

@[simp] theorem Dev.setDom_held (o : Store) (a0 : Dev) (a1) (a2) (h0 : Held o a0) : Held o (@Dev.setDom a0 a1 a2) := by
  simp +contextual [Dev.setDom, *]

@[simp] theorem Dev.setMod_held (o : Store) (a0 : Dev) (a1) (a2) (h0 : Held o a0) : Held o (@Dev.setMod a0 a1 a2) := by
  simp +contextual [Dev.setMod, *]

@[simp] theorem Dev.setRoute_held (o : Store) (a0 : Dev) (a1) (a2) (h0 : Held o a0) : Held o (@Dev.setRoute a0 a1 a2) := by
  simp +contextual [Dev.setRoute, *]

@[simp] theorem Dev.setCnt_held (o : Store) (a0 : Dev) (a1) (a2) (h0 : Held o a0) : Held o (@Dev.setCnt a0 a1 a2) := by
  simp +contextual [Dev.setCnt, *]

@[simp] theorem Dev.countEv_held (o : Store) (a0 : Dev) (a1) (h0 : Held o a0) : Held o (@Dev.countEv a0 a1).1 := by
  unfold Dev.countEv
  repeat' first | assumption | intro _ | split | with_reducible apply held_forAll | with_reducible apply held_foldl | with_reducible apply held_when | with_reducible apply held_foldl_fst | with_reducible apply held_ite | with_reducible apply held_ite_fst | with_reducible apply Dev.setCnt_held | (simp only [held_mk, heldMem_dev])

@[simp] theorem Dev.setPend_held (o : Store) (a0 : Dev) (a1) (h0 : Held o a0) : Held o (@Dev.setPend a0 a1) := by
  simp +contextual [Dev.setPend, *]

@[simp] theorem Dev.setLog_held (o : Store) (a0 : Dev) (a1) (a2) (h0 : Held o a0) : Held o (@Dev.setLog a0 a1 a2) := by
  simp +contextual [Dev.setLog, *]

@[simp] theorem Dev.logPost_held (o : Store) (a0 : Dev) (a1) (a2) (a3) (h0 : Held o a0) : Held o (@Dev.logPost a0 a1 a2 a3).1 := by
  simp +contextual only [Dev.logPost]
  (repeat' split) <;> simp +contextual [*]

@[simp] theorem Dev.post_held (o : Store) (a0 : Dev) (a1) (a2) (a3) (h0 : Held o a0) : Held o (@Dev.post a0 a1 a2 a3).1 := by
  unfold Dev.post
  repeat' first | assumption | intro _ | with_reducible apply held_ite | with_reducible apply held_forAll | with_reducible apply held_foldl | with_reducible apply held_when | with_reducible apply held_foldl_fst | with_reducible apply held_ite_fst | with_reducible apply held_ite_snd | with_reducible apply Dev.logPost_held | (simp only [held_mk, heldMem_dev]; done) | split | (simp only [held_mk, heldMem_dev])

@[simp] theorem Dev.postAll_held (o : Store) (a0 : Dev) (a1) (a2) (a3) (h0 : Held o a0) : Held o (@Dev.postAll a0 a1 a2 a3).1 := by
  simp +contextual [Dev.postAll, *]

@[simp] theorem Dev.journalAgain_held (o : Store) (a0 : Dev) (a1) (h0 : Held o a0) : Held o (@Dev.journalAgain a0 a1) := by
  simp (maxDischargeDepth := 20) +contextual [Dev.journalAgain, *]

@[simp] theorem Dev.journal_held (o : Store) (a0 : Dev) (a1) (h0 : Held o a0) : Held o (@Dev.journal a0 a1).1 := by
  unfold Dev.journal
  (repeat' split) <;> simp +contextual [*]

@[simp] theorem Dev.raise1_held (o : Store) (a0 : Dev) (a1) (a2) (h0 : Held o a0) : Held o (@Dev.raise1 a0 a1 a2).1 := by
  unfold Dev.raise1
  repeat' first | assumption | intro _ | with_reducible apply held_ite | with_reducible apply held_forAll | with_reducible apply held_foldl | with_reducible apply held_when | with_reducible apply held_foldl_fst | with_reducible apply held_ite_fst | with_reducible apply held_ite_snd | with_reducible apply Dev.countEv_held | with_reducible apply Dev.setPend_held | with_reducible apply Dev.postAll_held | with_reducible apply Dev.journalAgain_held | with_reducible apply Dev.journal_held | (simp only [held_mk, heldMem_dev]; done) | split | (simp only [held_mk, heldMem_dev])

@[simp] theorem Dev.raiseI_held (o : Store) (a0 : Dev) (a1) (a2) (h0 : Held o a0) : Held o (@Dev.raiseI a0 a1 a2) := by
  simp +contextual [Dev.raiseI, *]

@[simp] theorem Dev.raise_held (o : Store) (a0 : Dev) (a1) (a2) (a3) (h0 : Held o a0) : Held o (@Dev.raise a0 a1 a2 a3) := by
  simp +contextual [Dev.raise, *]

@[simp] theorem Dev.record_held (o : Store) (a0 : Dev) (a1) (a2) (a3) (a4) (a5) (a6) (a7) (h0 : Held o a0) : Held o (@Dev.record a0 a1 a2 a3 a4 a5 a6 a7) := by
  simp +contextual [Dev.record, *]

@[simp] theorem Dev.setHs_held (o : Store) (a0 : Dev) (a1) (a2) (h0 : Held o a0) : Held o (@Dev.setHs a0 a1 a2) := by
  simp +contextual [Dev.setHs, *]

@[simp] theorem Dev.setTile_held (o : Store) (a0 : Dev) (a1) (a2) (h0 : Held o a0) : Held o (@Dev.setTile a0 a1 a2) := by
  simp +contextual [Dev.setTile, *]

@[simp] theorem Dev.setChan_held (o : Store) (a0 : Dev) (a1) (a2) (h0 : Held o a0) : Held o (@Dev.setChan a0 a1 a2) := by
  simp +contextual [Dev.setChan, *]

@[simp] theorem Dev.finishBg_held (o : Store) (a0 : Dev) (a1) (a2) (a3) (a4) (h0 : Held o a0) : Held o (@Dev.finishBg a0 a1 a2 a3 a4) := by
  unfold Dev.finishBg
  repeat' first | assumption | intro _ | split | with_reducible apply held_forAll | with_reducible apply held_foldl | with_reducible apply held_when | with_reducible apply held_foldl_fst | with_reducible apply held_ite | with_reducible apply held_ite_fst | with_reducible apply Dev.reply_held | (simp only [held_mk, heldMem_dev])

@[simp] theorem Dev.setPwr_held (o : Store) (a0 : Dev) (a1) (h0 : Held o a0) : Held o (@Dev.setPwr a0 a1) := by
  simp +contextual [Dev.setPwr, *]

@[simp] theorem Dev.writeLed_held (o : Store) (a0 : Dev) (a1) (h0 : Held o a0) : Held o (@Dev.writeLed a0 a1) := by
  simp +contextual [Dev.writeLed, *]

@[simp] theorem Dev.setBook_held (o : Store) (a0 : Dev) (a1) (a2) (h0 : Held o a0) : Held o (@Dev.setBook a0 a1 a2) := by
  simp +contextual [Dev.setBook, *]

@[simp] theorem Dev.setKd_held (o : Store) (a0 : Dev) (a1) (a2) (h0 : Held o a0) : Held o (@Dev.setKd a0 a1 a2) := by
  simp +contextual [Dev.setKd, *]

@[simp] theorem Dev.setBw_held (o : Store) (a0 : Dev) (a1) (a2) (h0 : Held o a0) : Held o (@Dev.setBw a0 a1 a2) := by
  simp +contextual [Dev.setBw, *]

@[simp] theorem Dev.setPert_held (o : Store) (a0 : Dev) (a1) (a2) (h0 : Held o a0) : Held o (@Dev.setPert a0 a1 a2) := by
  simp +contextual [Dev.setPert, *]

@[simp] theorem Dev.setHead_held (o : Store) (a0 : Dev) (a1) (a2) (h0 : Held o a0) : Held o (@Dev.setHead a0 a1 a2) := by
  simp +contextual [Dev.setHead, *]

@[simp] theorem Dev.setPump_held (o : Store) (a0 : Dev) (a1) (a2) (h0 : Held o a0) : Held o (@Dev.setPump a0 a1 a2) := by
  simp +contextual [Dev.setPump, *]

@[simp] theorem Dev.setEnc_held (o : Store) (a0 : Dev) (a1) (a2) (h0 : Held o a0) : Held o (@Dev.setEnc a0 a1 a2) := by
  simp (maxDischargeDepth := 20) +contextual [Dev.setEnc, *]

@[simp] theorem Dev.setRank_held (o : Store) (a0 : Dev) (a1) (a2) (a3) (h0 : Held o a0) : Held o (@Dev.setRank a0 a1 a2 a3) := by
  simp +contextual [Dev.setRank, *]

@[simp] theorem Dev.setBay_held (o : Store) (a0 : Dev) (a1) (a2) (h0 : Held o a0) : Held o (@Dev.setBay a0 a1 a2) := by
  simp +contextual [Dev.setBay, *]

@[simp] theorem Dev.wake_held (o : Store) (a0 : Dev) (a1) (a2) (h0 : Held o a0) : Held o (@Dev.wake a0 a1 a2) := by
  unfold Dev.wake
  repeat' first | assumption | intro _ | with_reducible apply held_ite | with_reducible apply held_forAll | with_reducible apply held_foldl | with_reducible apply held_when | with_reducible apply held_foldl_fst | with_reducible apply held_ite_fst | with_reducible apply held_ite_snd | with_reducible apply Dev.raise_held | with_reducible apply Dev.setPwr_held | (simp only [held_mk, heldMem_dev]; done) | split | (simp only [held_mk, heldMem_dev])

@[simp] theorem Dev.setSens_held (o : Store) (a0 : Dev) (a1) (a2) (h0 : Held o a0) : Held o (@Dev.setSens a0 a1 a2) := by
  simp +contextual [Dev.setSens, *]

@[simp] theorem Dev.wakeFor_held (o : Store) (a0 : Dev) (a1) (h0 : Held o a0) : Held o (@Dev.wakeFor a0 a1) := by
  unfold Dev.wakeFor
  repeat' first | assumption | intro _ | with_reducible apply held_ite | with_reducible apply held_forAll | with_reducible apply held_foldl | with_reducible apply held_when | with_reducible apply held_foldl_fst | with_reducible apply held_ite_fst | with_reducible apply held_ite_snd | with_reducible apply Dev.wake_held | (simp only [held_mk, heldMem_dev]; done) | split | (simp only [held_mk, heldMem_dev])

@[simp] theorem Dev.reassert_held (o : Store) (a0 : Dev) (a1) (h0 : Held o a0) : Held o (@Dev.reassert a0 a1) := by
  simp +contextual [Dev.reassert, *]

@[simp] theorem Dev.fresh_held (o : Store) (a0 : Dev) (h0 : Held o a0) : Held o (@Dev.fresh a0).2 := by
  simp (maxDischargeDepth := 20) +contextual [Dev.fresh, *]

@[simp] theorem Dev.busy104_held (o : Store) (a0 : Dev) (a1) (h0 : Held o a0) : Held o (@Dev.busy104 a0 a1) := by
  simp (maxDischargeDepth := 20) +contextual [Dev.busy104, *]

@[simp] theorem Dev.overrun1_held (o : Store) (a0 : Dev) (a1) (a2) (a3) (h0 : Held o a0) : Held o (@Dev.overrun1 a0 a1 a2 a3) := by
  unfold Dev.overrun1
  repeat' first | assumption | intro _ | with_reducible apply held_ite | with_reducible apply held_forAll | with_reducible apply held_foldl | with_reducible apply held_when | with_reducible apply held_foldl_fst | with_reducible apply held_ite_fst | with_reducible apply held_ite_snd | with_reducible apply Dev.raise_held | (simp only [held_mk, heldMem_dev]; done) | split | (simp only [held_mk, heldMem_dev])

@[simp] theorem Dev.emits_held (o : Store) (a0 : Dev) (a1) (h0 : Held o a0) : Held o (@Dev.emits a0 a1) := by
  simp (maxDischargeDepth := 20) +contextual [Dev.emits, *]

@[simp] theorem Dev.when_held (o : Store) (a0 : Dev) (a1) (a2) (h0 : Held o a0) (h2 : ∀ y0, Held o y0 → Held o (a2 y0)) : Held o (@Dev.when a0 a1 a2) := by
  simp (maxDischargeDepth := 20) +contextual [Dev.when, *]

@[simp] theorem Dev.setDec_held (o : Store) (a0 : Dev) (a1) (a2) (h0 : Held o a0) : Held o (@Dev.setDec a0 a1 a2) := by
  simp (maxDischargeDepth := 20) +contextual [Dev.setDec, *]

@[simp] theorem Dev.journalNote_held (o : Store) (a0 : Dev) (a1) (a2) (a3) (h0 : Held o a0) : Held o (@Dev.journalNote a0 a1 a2 a3) := by
  simp (maxDischargeDepth := 20) +contextual [Dev.journalNote, *]

@[simp] theorem Dev.skipDue_held (o : Store) (a0 : Dev) (a1) (a2) (h0 : Held o a0) : Held o (@Dev.skipDue a0 a1 a2) := by
  simp (maxDischargeDepth := 20) +contextual [Dev.skipDue, *]

end Sys2Proof.Machine
end

