-- ==== Sys2Proof/Laws/HeldWells.lean ====
section
/-! SUPPORT. The operations that touch no stored data: the DRAM, the cistern, the well map and the marks of poisoned granules are as they were
after each of them. -/

namespace Sys2Proof.Machine

open Sys2Proof

set_option linter.unreachableTactic false
set_option linter.unusedTactic false
set_option linter.unusedSimpArgs false

@[simp] theorem Dev.mediaRecord_held (o : Store) (a0 : Dev) (a1) (a2) (a3) (a4) (h0 : Held o a0) : Held o (@Dev.mediaRecord a0 a1 a2 a3 a4) := by
  unfold Dev.mediaRecord
  repeat' first | assumption | intro _ | split | with_reducible apply held_forAll | with_reducible apply held_foldl | with_reducible apply held_when | with_reducible apply held_foldl_fst | with_reducible apply held_ite | with_reducible apply held_ite_fst | with_reducible apply forAll_held | with_reducible apply Dev.record_held | (simp only [held_mk, heldMem_dev])

@[simp] theorem Dev.queueJob_held (o : Store) (a0 : Dev) (a1) (a2) (a3) (h0 : Held o a0) : Held o (@Dev.queueJob a0 a1 a2 a3) := by
  simp +contextual [Dev.queueJob, *]

@[simp] theorem Dev.dirtyPage_held (o : Store) (a0 : Dev) (a1) (h0 : Held o a0) : Held o (@Dev.dirtyPage a0 a1) := by
  simp +contextual [Dev.dirtyPage, *]

@[simp] theorem Dev.raisePage_held (o : Store) (a0 : Dev) (a1) (a2) (h0 : Held o a0) : Held o (@Dev.raisePage a0 a1 a2) := by
  simp (maxDischargeDepth := 20) +contextual [Dev.raisePage, *]

@[simp] theorem Dev.setFrame_held (o : Store) (a0 : Dev) (a1) (a2) (a3) (h0 : Held o a0) : Held o (@Dev.setFrame a0 a1 a2 a3) := by
  simp +contextual [Dev.setFrame, *]

@[simp] theorem Dev.clearFrame_held (o : Store) (a0 : Dev) (a1) (h0 : Held o a0) : Held o (@Dev.clearFrame a0 a1) := by
  simp +contextual [Dev.clearFrame, *]

@[simp] theorem Dev.freeFrame_held (o : Store) (a0 : Dev) (a1) (h0 : Held o a0) : Held o (@Dev.freeFrame a0 a1) := by
  simp +contextual only [Dev.freeFrame]
  (repeat' split) <;> simp +contextual [*]

@[simp] theorem Dev.dropCand_held (o : Store) (a0 : Dev) (a1) (h0 : Held o a0) : Held o (@Dev.dropCand a0 a1) := by
  simp +contextual [Dev.dropCand, *]

@[simp] theorem Dev.foundPage_held (o : Store) (a0 : Dev) (a1) (h0 : Held o a0) : Held o (@Dev.foundPage a0 a1) := by
  simp +contextual [Dev.foundPage, *]

@[simp] theorem Dev.freeSlots_held (o : Store) (a0 : Dev) (a1) (a2) (h0 : Held o a0) : Held o (@Dev.freeSlots a0 a1 a2) := by
  simp +contextual [Dev.freeSlots, *]

@[simp] theorem Dev.freeRun_held (o : Store) (a0 : Dev) (a1) (a2) (h0 : Held o a0) : Held o (@Dev.freeRun a0 a1 a2) := by
  simp +contextual [Dev.freeRun, *]

@[simp] theorem Dev.leaveSegment_held (o : Store) (a0 : Dev) (a1) (h0 : Held o a0) : Held o (@Dev.leaveSegment a0 a1) := by
  simp +contextual only [Dev.leaveSegment]
  (repeat' split) <;> simp +contextual [*]

@[simp] theorem Dev.releaseStorage_held (o : Store) (a0 : Dev) (a1) (h0 : Held o a0) : Held o (@Dev.releaseStorage a0 a1) := by
  unfold Dev.releaseStorage
  (repeat' split) <;> simp +contextual [*]

@[simp] theorem Dev.meetUe_held (o : Store) (a0 : Dev) (a1) (h0 : Held o a0) : Held o (@Dev.meetUe a0 a1) := by
  unfold Dev.meetUe
  repeat' first | assumption | intro _ | split | with_reducible apply held_forAll | with_reducible apply held_foldl | with_reducible apply held_when | with_reducible apply held_foldl_fst | with_reducible apply held_ite | with_reducible apply held_ite_fst | with_reducible apply Dev.setChan_held | with_reducible apply Dev.raise_held | (simp only [held_mk, heldMem_dev])

@[simp] theorem Dev.bumpFree_held (o : Store) (a0 : Dev) (h0 : Held o a0) : Held o (@Dev.bumpFree a0) := by
  simp +contextual [Dev.bumpFree, *]

@[simp] theorem Dev.foundLine_held (o : Store) (a0 : Dev) (a1) (h0 : Held o a0) : Held o (@Dev.foundLine a0 a1) := by
  simp +contextual [Dev.foundLine, *]

theorem Dev.allocFrame_held (o : Store) (a0 : Dev) (a1) (a2) (a3) (a4) (h0 : Held o a0) : ∀ e, (@Dev.allocFrame a0 a1 a2 a3 a4) = some e → Held o e.2 := by
  intro e he
  unfold Dev.allocFrame at he
  extract_lets k own at he
  split at he
  · simp only [Option.map_eq_some_iff] at he
    obtain ⟨f, -, rfl⟩ := he
    simp (maxDischargeDepth := 20) [*]
  · split at he
    · clear_value own
      cases own with
      | none => simp at he
      | some j =>
        simp only [Option.map_eq_some_iff] at he
        obtain ⟨f, -, rfl⟩ := he
        simp (maxDischargeDepth := 20) [*]
    · simp at he

@[simp] theorem Dev.enterDry_held (o : Store) (a0 : Dev) (a1) (h0 : Held o a0) : Held o (@Dev.enterDry a0 a1) := by
  unfold Dev.enterDry
  repeat' first | assumption | intro _ | with_reducible apply held_ite | with_reducible apply held_forAll | with_reducible apply held_foldl | with_reducible apply held_when | with_reducible apply held_foldl_fst | with_reducible apply held_ite_fst | with_reducible apply held_ite_snd | with_reducible apply Dev.raisePage_held | (simp only [held_mk, heldMem_dev]; done) | split | (simp only [held_mk, heldMem_dev])

@[simp] theorem Dev.mgrRecord_held (o : Store) (a0 : Dev) (a1) (a2) (a3) (h0 : Held o a0) : Held o (@Dev.mgrRecord a0 a1 a2 a3) := by
  simp +contextual [Dev.mgrRecord, *]

@[simp] theorem Dev.recompute_held (o : Store) (a0 : Dev) (a1) (h0 : Held o a0) : Held o (@Dev.recompute a0 a1) := by
  simp (maxDischargeDepth := 20) +contextual [Dev.recompute, *]

@[simp] theorem Dev.queueFirst_held (o : Store) (a0 : Dev) (a1) (a2) (h0 : Held o a0) : Held o (@Dev.queueFirst a0 a1 a2) := by
  simp (maxDischargeDepth := 20) +contextual [Dev.queueFirst, *]

@[simp] theorem Dev.takeSegment_held (o : Store) (a0 : Dev) (a1) (a2) (a3) (h0 : Held o a0) : Held o (@Dev.takeSegment a0 a1 a2 a3) := by
  simp (maxDischargeDepth := 20) +contextual [Dev.takeSegment, *]

@[simp] theorem Dev.takeSlots_held (o : Store) (a0 : Dev) (a1) (a2) (h0 : Held o a0) : Held o (@Dev.takeSlots a0 a1 a2) := by
  simp (maxDischargeDepth := 20) +contextual [Dev.takeSlots, *]

theorem Dev.allocSlots_held (o : Store) (a0 : Dev) (a1) (a2) (a3) (h0 : Held o a0) : ∀ e, (@Dev.allocSlots a0 a1 a2 a3) = some e → Held o e.2 := by
  intro e he
  unfold Dev.allocSlots at he
  extract_lets k at he
  split at he
  · simp only [Option.some.injEq] at he
    subst he
    simp (maxDischargeDepth := 20) [*]
  · simp only [Option.map_eq_some_iff] at he
    obtain ⟨x, hx, rfl⟩ := he
    have hk := Dev.allocFrame_held _ _ _ _ _ _ h0 _ hx
    exact hk

@[simp] theorem Dev.putFlit_held (o : Store) (a0 : Dev) (a1) (a2) (a3) (h0 : Held o a0) : Held o (@Dev.putFlit a0 a1 a2 a3) := by
  simp (maxDischargeDepth := 20) +contextual [Dev.putFlit, *]

@[simp] theorem Dev.sendOn_held (o : Store) (a0 : Dev) (a1) (a2) (a3) (h0 : Held o a0) : Held o (@Dev.sendOn a0 a1 a2 a3) := by
  simp (maxDischargeDepth := 20) +contextual [Dev.sendOn, *]

@[simp] theorem Dev.sendBcast_held (o : Store) (a0 : Dev) (a1) (a2) (a3) (h0 : Held o a0) : Held o (@Dev.sendBcast a0 a1 a2 a3) := by
  simp (maxDischargeDepth := 20) +contextual [Dev.sendBcast, *]

@[simp] theorem Dev.guestOut_held (o : Store) (a0 : Dev) (a1) (h0 : Held o a0) : Held o (@Dev.guestOut a0 a1) := by
  simp +contextual only [Dev.guestOut]
  (repeat' split) <;> simp +contextual [*]

@[simp] theorem Dev.sendTo_held (o : Store) (a0 : Dev) (a1) (a2) (h0 : Held o a0) : Held o (@Dev.sendTo a0 a1 a2).1 := by
  unfold Dev.sendTo
  repeat' first | assumption | intro _ | with_reducible apply held_ite | with_reducible apply held_forAll | with_reducible apply held_foldl | with_reducible apply held_when | with_reducible apply held_foldl_fst | with_reducible apply held_ite_fst | with_reducible apply held_ite_snd | with_reducible apply Dev.setRoute_held | with_reducible apply Dev.sendOn_held | with_reducible apply Dev.raise_held | (simp only [held_mk, heldMem_dev]; done) | split | (simp only [held_mk, heldMem_dev])

@[simp] theorem Dev.send_held (o : Store) (a0 : Dev) (a1) (a2) (h0 : Held o a0) : Held o (@Dev.send a0 a1 a2) := by
  simp +contextual [Dev.send, *]

@[simp] theorem Dev.respond1_held (o : Store) (a0 : Dev) (a1) (a2) (a3) (a4) (a5) (a6) (h0 : Held o a0) : Held o (@Dev.respond1 a0 a1 a2 a3 a4 a5 a6) := by
  unfold Dev.respond1
  repeat' first | assumption | intro _ | with_reducible apply held_ite | with_reducible apply held_forAll | with_reducible apply held_foldl | with_reducible apply held_when | with_reducible apply held_foldl_fst | with_reducible apply held_ite_fst | with_reducible apply held_ite_snd | with_reducible apply Dev.emit_held | with_reducible apply Dev.guestOut_held | with_reducible apply Dev.send_held | (simp only [held_mk, heldMem_dev]; done) | split | (simp only [held_mk, heldMem_dev])

@[simp] theorem Dev.respond_held (o : Store) (a0 : Dev) (a1) (a2) (a3) (a4) (a5) (a6) (h0 : Held o a0) : Held o (@Dev.respond a0 a1 a2 a3 a4 a5 a6) := by
  simp +contextual [Dev.respond, *]

@[simp] theorem Dev.poisonRead_held (o : Store) (a0 : Dev) (a1) (a2) (a3) (a4) (h0 : Held o a0) : Held o (@Dev.poisonRead a0 a1 a2 a3 a4) := by
  simp +contextual [Dev.poisonRead, *]

@[simp] theorem Dev.snoop_held (o : Store) (a0 : Dev) (a1) (a2) (a3) (a4) (a5) (h0 : Held o a0) : Held o (@Dev.snoop a0 a1 a2 a3 a4 a5) := by
  unfold Dev.snoop
  repeat' first | assumption | intro _ | with_reducible apply held_ite | with_reducible apply held_forAll | with_reducible apply held_foldl | with_reducible apply held_when | with_reducible apply held_foldl_fst | with_reducible apply held_ite_fst | with_reducible apply held_ite_snd | with_reducible apply Dev.guestOut_held | with_reducible apply Dev.emit_held | with_reducible apply Dev.send_held | (simp only [held_mk, heldMem_dev]; done) | split | (simp only [held_mk, heldMem_dev])

@[simp] theorem Dev.broadcast_held (o : Store) (a0 : Dev) (a1) (a2) (h0 : Held o a0) : Held o (@Dev.broadcast a0 a1 a2) := by
  unfold Dev.broadcast
  repeat' first | assumption | intro _ | with_reducible apply held_ite | with_reducible apply held_forAll | with_reducible apply held_foldl | with_reducible apply held_when | with_reducible apply held_foldl_fst | with_reducible apply held_ite_fst | with_reducible apply held_ite_snd | with_reducible apply forAll_held | with_reducible apply Dev.sendBcast_held | (simp only [held_mk, heldMem_dev]; done) | split | (simp only [held_mk, heldMem_dev])

@[simp] theorem Dev.sendAck_held (o : Store) (a0 : Dev) (a1) (a2) (h0 : Held o a0) : Held o (@Dev.sendAck a0 a1 a2) := by
  simp (maxDischargeDepth := 20) +contextual [Dev.sendAck, *]

@[simp] theorem Dev.ack_held (o : Store) (a0 : Dev) (a1) (a2) (a3) (a4) (a5) (h0 : Held o a0) : Held o (@Dev.ack a0 a1 a2 a3 a4 a5) := by
  simp +contextual [Dev.ack, *]

@[simp] theorem Dev.newTag_held (o : Store) (a0 : Dev) (h0 : Held o a0) : Held o (@Dev.newTag a0).2 := by
  simp +contextual [Dev.newTag, *]

@[simp] theorem Dev.restTag_held (o : Store) (a0 : Dev) (a1) (h0 : Held o a0) : Held o (@Dev.restTag a0 a1) := by
  simp +contextual [Dev.restTag, *]

@[simp] theorem Dev.flushPort_held (o : Store) (a0 : Dev) (a1) (h0 : Held o a0) : Held o (@Dev.flushPort a0 a1) := by
  simp +contextual [Dev.flushPort, *]

@[simp] theorem Dev.toNeighbour_held (o : Store) (a0 : Dev) (a1) (a2) (a3) (a4) (a5) (h0 : Held o a0) : Held o (@Dev.toNeighbour a0 a1 a2 a3 a4 a5) := by
  simp (maxDischargeDepth := 20) +contextual [Dev.toNeighbour, *]

@[simp] theorem Dev.sendNotice_held (o : Store) (a0 : Dev) (a1) (a2) (a3) (h0 : Held o a0) : Held o (@Dev.sendNotice a0 a1 a2 a3) := by
  simp (maxDischargeDepth := 20) +contextual [Dev.sendNotice, *]

@[simp] theorem Dev.flushGuest_held (o : Store) (a0 : Dev) (h0 : Held o a0) : Held o (@Dev.flushGuest a0) := by
  unfold Dev.flushGuest
  repeat' first | assumption | intro _ | with_reducible apply held_ite | with_reducible apply held_forAll | with_reducible apply held_foldl | with_reducible apply held_when | with_reducible apply held_foldl_fst | with_reducible apply held_ite_fst | with_reducible apply held_ite_snd | with_reducible apply forAll_held | with_reducible apply Dev.guestOut_held | (simp only [held_mk, heldMem_dev]; done) | split | (simp only [held_mk, heldMem_dev])

theorem Dev.hear_held (o : Store) (a0 : Dev) (a1) (a2) (a3) (h0 : Held o a0) : ∀ e, (@Dev.hear a0 a1 a2 a3) = some e → Held o e := by
  intro e he
  unfold Dev.hear at he
  extract_lets ok at he
  split at he
  · simp only [Option.some.injEq] at he
    subst he
    exact held_forAll _ _ _ _ h0 fun d x hd => Dev.sendBcast_held _ _ _ _ _ hd
  · simp at he

@[simp] theorem Dev.dropPromos_held (o : Store) (a0 : Dev) (a1) (a2) (h0 : Held o a0) : Held o (@Dev.dropPromos a0 a1 a2) := by
  unfold Dev.dropPromos
  repeat' first | assumption | intro _ | with_reducible apply held_ite | with_reducible apply held_forAll | with_reducible apply held_foldl | with_reducible apply held_when | with_reducible apply held_foldl_fst | with_reducible apply held_ite_fst | with_reducible apply held_ite_snd | with_reducible apply forAll_held | with_reducible apply Dev.respond_held | (simp only [held_mk, heldMem_dev]; done) | split | (simp only [held_mk, heldMem_dev])

@[simp] theorem Dev.answerDown_held (o : Store) (a0 : Dev) (a1) (h0 : Held o a0) : Held o (@Dev.answerDown a0 a1) := by
  unfold Dev.answerDown
  repeat' first | assumption | intro _ | with_reducible apply held_ite | with_reducible apply held_forAll | with_reducible apply held_foldl | with_reducible apply held_when | with_reducible apply held_foldl_fst | with_reducible apply held_ite_fst | with_reducible apply held_ite_snd | with_reducible apply Dev.respond_held | with_reducible apply Dev.poisonRead_held | (simp only [held_mk, heldMem_dev]; done) | split | (simp only [held_mk, heldMem_dev])

@[simp] theorem Dev.abandonHold_held (o : Store) (a0 : Dev) (a1) (h0 : Held o a0) : Held o (@Dev.abandonHold a0 a1) := by
  unfold Dev.abandonHold
  repeat' first | assumption | intro _ | with_reducible apply held_ite | with_reducible apply held_forAll | with_reducible apply held_foldl | with_reducible apply held_when | with_reducible apply held_foldl_fst | with_reducible apply held_ite_fst | with_reducible apply held_ite_snd | with_reducible apply Dev.answerDown_held | (simp only [held_mk, heldMem_dev]; done) | split | (simp only [held_mk, heldMem_dev])

@[simp] theorem Dev.frontEvac_held (o : Store) (a0 : Dev) (a1) (h0 : Held o a0) : Held o (@Dev.frontEvac a0 a1) := by
  simp +contextual only [Dev.frontEvac]
  (repeat' split) <;> simp +contextual [*]

@[simp] theorem Dev.enlist_held (o : Store) (a0 : Dev) (a1) (a2) (h0 : Held o a0) : Held o (@Dev.enlist a0 a1 a2) := by
  simp (maxDischargeDepth := 20) +contextual [Dev.enlist, *]

@[simp] theorem Dev.addHold_held (o : Store) (a0 : Dev) (a1) (a2) (a3) (a4) (a5) (a6) (a7) (h0 : Held o a0) : Held o (@Dev.addHold a0 a1 a2 a3 a4 a5 a6 a7) := by
  simp (maxDischargeDepth := 20) +contextual [Dev.addHold, *]

@[simp] theorem Dev.evictLine_held (o : Store) (a0 : Dev) (a1) (a2) (h0 : Held o a0) : Held o (@Dev.evictLine a0 a1 a2) := by
  simp (maxDischargeDepth := 20) +contextual [Dev.evictLine, *]

@[simp] theorem Dev.wayFor_held (o : Store) (a0 : Dev) (a1) (a2) (h0 : Held o a0) : Held o (@Dev.wayFor a0 a1 a2) := by
  unfold Dev.wayFor
  repeat' first | assumption | intro _ | with_reducible apply held_ite | with_reducible apply held_forAll | with_reducible apply held_foldl | with_reducible apply held_when | with_reducible apply held_foldl_fst | with_reducible apply held_ite_fst | with_reducible apply held_ite_snd | with_reducible apply Dev.evictLine_held | with_reducible apply Dev.setHs_held | with_reducible apply Dev.raise_held | (simp only [held_mk, heldMem_dev]; done) | split | (simp only [held_mk, heldMem_dev])

@[simp] theorem Dev.finishPush_held (o : Store) (a0 : Dev) (a1) (a2) (h0 : Held o a0) : Held o (@Dev.finishPush a0 a1 a2) := by
  simp (maxDischargeDepth := 20) +contextual [Dev.finishPush, *]

@[simp] theorem Dev.noteInvalid_held (o : Store) (a0 : Dev) (a1) (h0 : Held o a0) : Held o (@Dev.noteInvalid a0 a1) := by
  simp (maxDischargeDepth := 20) +contextual [Dev.noteInvalid, *]

@[simp] theorem Dev.endPromo_held (o : Store) (a0 : Dev) (a1) (h0 : Held o a0) : Held o (@Dev.endPromo a0 a1) := by
  unfold Dev.endPromo
  repeat' first | assumption | intro _ | with_reducible apply held_ite | with_reducible apply held_forAll | with_reducible apply held_foldl | with_reducible apply held_when | with_reducible apply held_foldl_fst | with_reducible apply held_ite_fst | with_reducible apply held_ite_snd | with_reducible apply Dev.freeFrame_held | with_reducible apply Dev.respond_held | (simp only [held_mk, heldMem_dev]; done) | split | (simp only [held_mk, heldMem_dev])

@[simp] theorem Dev.pushGuest_held (o : Store) (a0 : Dev) (a1) (a2) (h0 : Held o a0) : Held o (@Dev.pushGuest a0 a1 a2) := by
  simp (maxDischargeDepth := 20) +contextual [Dev.pushGuest, *]

@[simp] theorem Dev.promoteTrigger_held (o : Store) (a0 : Dev) (a1) (h0 : Held o a0) : Held o (@Dev.promoteTrigger a0 a1) := by
  simp +contextual [Dev.promoteTrigger, *]

@[simp] theorem Dev.detectDown_held (o : Store) (a0 : Dev) (a1) (a2) (a3) (a4) (a5) (h0 : Held o a0) : Held o (@Dev.detectDown a0 a1 a2 a3 a4 a5) := by
  unfold Dev.detectDown
  repeat' first | assumption | intro _ | with_reducible apply held_ite | with_reducible apply held_forAll | with_reducible apply held_foldl | with_reducible apply held_when | with_reducible apply held_foldl_fst | with_reducible apply held_ite_fst | with_reducible apply held_ite_snd | with_reducible apply Dev.setDom_held | (simp only [held_mk, heldMem_dev]; done) | split | (simp only [held_mk, heldMem_dev])

@[simp] theorem Dev.guestDead_held (o : Store) (a0 : Dev) (h0 : Held o a0) : Held o (@Dev.guestDead a0) := by
  simp +contextual [Dev.guestDead, *]

@[simp] theorem Dev.corruptDir_held (o : Store) (a0 : Dev) (a1) (h0 : Held o a0) : Held o (@Dev.corruptDir a0 a1) := by
  simp (maxDischargeDepth := 20) +contextual [Dev.corruptDir, *]

@[simp] theorem Dev.dirCheck_held (o : Store) (a0 : Dev) (a1) (a2) (h0 : Held o a0) : Held o (@Dev.dirCheck a0 a1 a2).1 := by
  unfold Dev.dirCheck
  (repeat' split) <;> simp (maxDischargeDepth := 20) +contextual [*]

@[simp] theorem Dev.pullTrigger_held (o : Store) (a0 : Dev) (a1) (h0 : Held o a0) : Held o (@Dev.pullTrigger a0 a1) := by
  simp (maxDischargeDepth := 20) +contextual [Dev.pullTrigger, *]

@[simp] theorem Dev.checkHint_held (o : Store) (a0 : Dev) (a1) (h0 : Held o a0) : Held o (@Dev.checkHint a0 a1).1 := by
  unfold Dev.checkHint
  repeat' first | assumption | intro _ | with_reducible apply held_ite | with_reducible apply held_forAll | with_reducible apply held_foldl | with_reducible apply held_when | with_reducible apply held_foldl_fst | with_reducible apply held_ite_fst | with_reducible apply held_ite_snd | with_reducible apply Dev.raise_held | with_reducible apply Dev.setHs_held | (simp only [held_mk, heldMem_dev]; done) | split | (simp only [held_mk, heldMem_dev])

@[simp] theorem Dev.noteLoad_held (o : Store) (a0 : Dev) (a1) (h0 : Held o a0) : Held o (@Dev.noteLoad a0 a1) := by
  simp (maxDischargeDepth := 20) +contextual [Dev.noteLoad, *]

@[simp] theorem Dev.memberDead_held (o : Store) (a0 : Dev) (a1) (a2) (h0 : Held o a0) : Held o (@Dev.memberDead a0 a1 a2) := by
  simp (maxDischargeDepth := 20) +contextual [Dev.memberDead, *]

@[simp] theorem Dev.useCredits_held (o : Store) (a0 : Dev) (a1) (a2) (h0 : Held o a0) : Held o (@Dev.useCredits a0 a1 a2) := by
  induction a2 generalizing a0 with
  | zero => exact h0
  | succ n ih =>
    unfold Dev.useCredits
    split
    · exact h0
    · split
      · exact ih _ (Dev.enlist_held _ _ _ _ (Dev.setHs_held _ _ _ _ h0))
      · exact h0

@[simp] theorem Dev.releaseHold_held (o : Store) (a0 : Dev) (a1) (a2) (h0 : Held o a0) : Held o (@Dev.releaseHold a0 a1 a2) := by
  simp (maxDischargeDepth := 20) +contextual [Dev.releaseHold, *]

end Sys2Proof.Machine
end

