-- ==== Sys2Proof/Laws/HeldDram.lean ====
section
/-! SUPPORT. The operations that touch no stored data: the DRAM, the cistern, the well map and the marks of poisoned granules are as they were
after each of them. -/

namespace Sys2Proof.Machine

open Sys2Proof

set_option linter.unreachableTactic false
set_option linter.unusedTactic false
set_option linter.unusedSimpArgs false

@[simp] theorem Dev.retireNow_held (o : Store) (a0 : Dev) (a1) (a2) (a3) (a4) (h0 : Held o a0) : Held o (@Dev.retireNow a0 a1 a2 a3 a4) := by
  unfold Dev.retireNow
  repeat' first | assumption | intro _ | with_reducible apply held_ite | with_reducible apply held_forAll | with_reducible apply held_foldl | with_reducible apply held_when | with_reducible apply held_foldl_fst | with_reducible apply held_ite_fst | with_reducible apply held_ite_snd | with_reducible apply Dev.setRank_held | with_reducible apply Dev.setTile_held | with_reducible apply Dev.mgrRecord_held | with_reducible apply Dev.raiseI_held | (simp only [held_mk, heldMem_dev]; done) | split | (simp only [held_mk, heldMem_dev])

@[simp] theorem Dev.rankOff_held (o : Store) (a0 : Dev) (a1) (a2) (h0 : Held o a0) : Held o (@Dev.rankOff a0 a1 a2) := by
  unfold Dev.rankOff
  repeat' first | assumption | intro _ | with_reducible apply held_ite | with_reducible apply held_forAll | with_reducible apply held_foldl | with_reducible apply held_when | with_reducible apply held_foldl_fst | with_reducible apply held_ite_fst | with_reducible apply held_ite_snd | with_reducible apply Dev.setChan_held | with_reducible apply Dev.setRank_held | (simp only [held_mk, heldMem_dev]; done) | split | (simp only [held_mk, heldMem_dev])

@[simp] theorem Dev.slotOff_held (o : Store) (a0 : Dev) (a1) (a2) (h0 : Held o a0) : Held o (@Dev.slotOff a0 a1 a2) := by
  simp +contextual [Dev.slotOff, *]

@[simp] theorem Dev.haltPump_held (o : Store) (a0 : Dev) (a1) (a2) (a3) (a4) (h0 : Held o a0) : Held o (@Dev.haltPump a0 a1 a2 a3 a4) := by
  simp +contextual [Dev.haltPump, *]

@[simp] theorem Dev.queueMeta_held (o : Store) (a0 : Dev) (a1) (a2) (h0 : Held o a0) : Held o (@Dev.queueMeta a0 a1 a2) := by
  simp +contextual [Dev.queueMeta, *]

@[simp] theorem Dev.queueEvac_held (o : Store) (a0 : Dev) (a1) (h0 : Held o a0) : Held o (@Dev.queueEvac a0 a1) := by
  unfold Dev.queueEvac
  repeat' first | assumption | intro _ | with_reducible apply held_ite | with_reducible apply held_forAll | with_reducible apply held_foldl | with_reducible apply held_when | with_reducible apply held_foldl_fst | with_reducible apply held_ite_fst | with_reducible apply held_ite_snd | with_reducible apply Dev.queueJob_held | (simp only [held_mk, heldMem_dev]; done) | split | (simp only [held_mk, heldMem_dev])

@[simp] theorem Dev.remapRow_held (o : Store) (a0 : Dev) (a1) (a2) (h0 : Held o a0) : Held o (@Dev.remapRow a0 a1 a2) := by
  unfold Dev.remapRow
  (repeat' split) <;> simp (maxDischargeDepth := 20) +contextual [*]

@[simp] theorem Dev.payRefresh_held (o : Store) (a0 : Dev) (a1) (a2) (h0 : Held o a0) : Held o (@Dev.payRefresh a0 a1 a2) := by
  simp (maxDischargeDepth := 20) +contextual [Dev.payRefresh, *]

@[simp] theorem Dev.rankTrigger_held (o : Store) (a0 : Dev) (a1) (a2) (h0 : Held o a0) : Held o (@Dev.rankTrigger a0 a1 a2) := by
  simp (maxDischargeDepth := 20) +contextual [Dev.rankTrigger, *]

@[simp] theorem Dev.parkRank_held (o : Store) (a0 : Dev) (a1) (a2) (h0 : Held o a0) : Held o (@Dev.parkRank a0 a1 a2) := by
  simp (maxDischargeDepth := 20) +contextual [Dev.parkRank, *]

@[simp] theorem Dev.drainCh_held (o : Store) (a0 : Dev) (a1) (h0 : Held o a0) : Held o (@Dev.drainCh a0 a1) := by
  simp (maxDischargeDepth := 20) +contextual [Dev.drainCh, *]

@[simp] theorem Dev.accessDone_held (o : Store) (a0 : Dev) (a1) (a2) (a3) (h0 : Held o a0) : Held o (@Dev.accessDone a0 a1 a2 a3) := by
  unfold Dev.accessDone
  repeat' first | assumption | intro _ | with_reducible apply held_ite | with_reducible apply held_forAll | with_reducible apply held_foldl | with_reducible apply held_when | with_reducible apply held_foldl_fst | with_reducible apply held_ite_fst | with_reducible apply held_ite_snd | with_reducible apply Dev.setChan_held | with_reducible apply Dev.drainCh_held | (simp only [held_mk, heldMem_dev]; done) | split | (simp only [held_mk, heldMem_dev])

@[simp] theorem Dev.recordRepair_held (o : Store) (a0 : Dev) (a1) (h0 : Held o a0) : Held o (@Dev.recordRepair a0 a1) := by
  unfold Dev.recordRepair
  repeat' first | assumption | intro _ | with_reducible apply held_ite | with_reducible apply held_forAll | with_reducible apply held_foldl | with_reducible apply held_when | with_reducible apply held_foldl_fst | with_reducible apply held_ite_fst | with_reducible apply held_ite_snd | with_reducible apply Dev.raise_held | (simp only [held_mk, heldMem_dev]; done) | split | (simp only [held_mk, heldMem_dev])

@[simp] theorem Dev.softPpr_held (o : Store) (a0 : Dev) (a1) (a2) (h0 : Held o a0) : Held o (@Dev.softPpr a0 a1 a2) := by
  unfold Dev.softPpr
  (repeat' split) <;> simp (maxDischargeDepth := 20) +contextual [*]

@[simp] theorem Dev.startRetrain_held (o : Store) (a0 : Dev) (a1) (a2) (h0 : Held o a0) : Held o (@Dev.startRetrain a0 a1 a2) := by
  simp (maxDischargeDepth := 20) +contextual [Dev.startRetrain, *]

@[simp] theorem Dev.burstResult_held (o : Store) (a0 : Dev) (a1) (a2) (a3) (h0 : Held o a0) : Held o (@Dev.burstResult a0 a1 a2 a3) := by
  simp (maxDischargeDepth := 20) +contextual [Dev.burstResult, *]

@[simp] theorem Dev.retrainingEnd_held (o : Store) (a0 : Dev) (a1) (a2) (a3) (a4) (h0 : Held o a0) : Held o (@Dev.retrainingEnd a0 a1 a2 a3 a4) := by
  simp (maxDischargeDepth := 20) +contextual [Dev.retrainingEnd, *]

@[simp] theorem Dev.endUrgent_held (o : Store) (a0 : Dev) (a1) (h0 : Held o a0) : Held o (@Dev.endUrgent a0 a1) := by
  simp (maxDischargeDepth := 20) +contextual [Dev.endUrgent, *]

@[simp] theorem Dev.refabIssue_held (o : Store) (a0 : Dev) (a1) (a2) (h0 : Held o a0) : Held o (@Dev.refabIssue a0 a1 a2) := by
  simp (maxDischargeDepth := 20) +contextual [Dev.refabIssue, *]

@[simp] theorem Dev.caParityAlert_held (o : Store) (a0 : Dev) (a1) (a2) (h0 : Held o a0) : Held o (@Dev.caParityAlert a0 a1 a2) := by
  simp (maxDischargeDepth := 20) +contextual [Dev.caParityAlert, *]

@[simp] theorem Dev.replayRepairs_held (o : Store) (a0 : Dev) (a1) (a2) (h0 : Held o a0) : Held o (@Dev.replayRepairs a0 a1 a2) := by
  unfold Dev.replayRepairs
  repeat' first | assumption | intro _ | with_reducible apply held_ite | with_reducible apply held_forAll | with_reducible apply held_foldl | with_reducible apply held_when | with_reducible apply held_foldl_fst | with_reducible apply held_ite_fst | with_reducible apply held_ite_snd | with_reducible apply forAll_held | with_reducible apply Dev.setFrame_held | with_reducible apply Dev.emit_held | with_reducible apply Dev.setChan_held | (simp only [held_mk, heldMem_dev]; done) | split | (simp only [held_mk, heldMem_dev])

@[simp] theorem Dev.rankUpNow_held (o : Store) (a0 : Dev) (a1) (a2) (h0 : Held o a0) : Held o (@Dev.rankUpNow a0 a1 a2) := by
  simp (maxDischargeDepth := 20) +contextual [Dev.rankUpNow, *]

@[simp] theorem Dev.bringUpComplete_held (o : Store) (a0 : Dev) (a1) (a2) (h0 : Held o a0) : Held o (@Dev.bringUpComplete a0 a1 a2) := by
  simp (maxDischargeDepth := 20) +contextual [Dev.bringUpComplete, *]

@[simp] theorem Dev.hardGran_held (o : Store) (a0 : Dev) (a1) (a2) (a3) (h0 : Held o a0) : Held o (@Dev.hardGran a0 a1 a2 a3) := by
  unfold Dev.hardGran
  repeat' first | assumption | intro _ | with_reducible apply held_ite | with_reducible apply held_forAll | with_reducible apply held_foldl | with_reducible apply held_when | with_reducible apply held_foldl_fst | with_reducible apply held_ite_fst | with_reducible apply held_ite_snd | with_reducible apply Dev.setRank_held | with_reducible apply Dev.mgrRecord_held | with_reducible apply Dev.raise_held | (simp only [held_mk, heldMem_dev]; done) | split | (simp only [held_mk, heldMem_dev])

@[simp] theorem Dev.correction_held (o : Store) (a0 : Dev) (a1) (a2) (h0 : Held o a0) : Held o (@Dev.correction a0 a1 a2) := by
  unfold Dev.correction
  repeat' first | assumption | intro _ | with_reducible apply held_ite | with_reducible apply held_forAll | with_reducible apply held_foldl | with_reducible apply held_when | with_reducible apply held_foldl_fst | with_reducible apply held_ite_fst | with_reducible apply held_ite_snd | with_reducible apply Dev.setRank_held | with_reducible apply Dev.raise_held | with_reducible apply Dev.setChan_held | with_reducible apply Dev.hardGran_held | with_reducible apply Dev.remapRow_held | (simp only [held_mk, heldMem_dev]; done) | split | (simp only [held_mk, heldMem_dev])

@[simp] theorem Dev.rewriteLater_held (o : Store) (a0 : Dev) (a1) (a2) (h0 : Held o a0) : Held o (@Dev.rewriteLater a0 a1 a2) := by
  simp (maxDischargeDepth := 20) +contextual [Dev.rewriteLater, *]

@[simp] theorem Dev.mr4Rank_held (o : Store) (a0 : Dev) (a1) (a2) (a3) (h0 : Held o a0) : Held o (@Dev.mr4Rank a0 a1 a2 a3) := by
  simp (maxDischargeDepth := 20) +contextual [Dev.mr4Rank, *]

@[simp] theorem Dev.exitSelfRef_held (o : Store) (a0 : Dev) (a1) (h0 : Held o a0) : Held o (@Dev.exitSelfRef a0 a1) := by
  simp (maxDischargeDepth := 20) +contextual [Dev.exitSelfRef, *]

@[simp] theorem Dev.retrainingWindow_held (o : Store) (a0 : Dev) (a1) (a2) (a3) (h0 : Held o a0) : Held o (@Dev.retrainingWindow a0 a1 a2 a3) := by
  simp (maxDischargeDepth := 20) +contextual [Dev.retrainingWindow, *]

@[simp] theorem Dev.calibrationBurst_held (o : Store) (a0 : Dev) (a1) (a2) (a3) (h0 : Held o a0) : Held o (@Dev.calibrationBurst a0 a1 a2 a3) := by
  simp (maxDischargeDepth := 20) +contextual [Dev.calibrationBurst, *]

@[simp] theorem Dev.rankEmpty_held (o : Store) (a0 : Dev) (a1) (a2) (h0 : Held o a0) : Held o (@Dev.rankEmpty a0 a1 a2) := by
  unfold Dev.rankEmpty
  repeat' first | assumption | intro _ | with_reducible apply held_ite | with_reducible apply held_forAll | with_reducible apply held_foldl | with_reducible apply held_when | with_reducible apply held_foldl_fst | with_reducible apply held_ite_fst | with_reducible apply held_ite_snd | with_reducible apply Dev.setRank_held | with_reducible apply Dev.setTile_held | with_reducible apply Dev.mgrRecord_held | with_reducible apply Dev.raise_held | with_reducible apply Dev.finishBg_held | (simp only [held_mk, heldMem_dev]; done) | split | (simp only [held_mk, heldMem_dev])

@[simp] theorem Dev.refreshCredit_held (o : Store) (a0 : Dev) (a1) (h0 : Held o a0) : Held o (@Dev.refreshCredit a0 a1) := by
  simp (maxDischargeDepth := 20) +contextual [Dev.refreshCredit, *]

@[simp] theorem Dev.ueWindowExpiry_held (o : Store) (a0 : Dev) (a1) (a2) (h0 : Held o a0) : Held o (@Dev.ueWindowExpiry a0 a1 a2) := by
  simp (maxDischargeDepth := 20) +contextual [Dev.ueWindowExpiry, *]

@[simp] theorem Dev.channelRequest_held (o : Store) (a0 : Dev) (a1) (a2) (a3) (a4) (h0 : Held o a0) : Held o (@Dev.channelRequest a0 a1 a2 a3 a4) := by
  simp (maxDischargeDepth := 20) +contextual [Dev.channelRequest, *]

@[simp] theorem Dev.autoIdleExpiry_held (o : Store) (a0 : Dev) (a1) (a2) (a3) (h0 : Held o a0) : Held o (@Dev.autoIdleExpiry a0 a1 a2 a3) := by
  simp (maxDischargeDepth := 20) +contextual [Dev.autoIdleExpiry, *]

@[simp] theorem Dev.retrainingTimeout_held (o : Store) (a0 : Dev) (a1) (a2) (a3) (h0 : Held o a0) : Held o (@Dev.retrainingTimeout a0 a1 a2 a3) := by
  simp (maxDischargeDepth := 20) +contextual [Dev.retrainingTimeout, *]

@[simp] theorem Dev.mr4Poll_held (o : Store) (a0 : Dev) (a1) (a2) (h0 : Held o a0) : Held o (@Dev.mr4Poll a0 a1 a2) := by
  simp (maxDischargeDepth := 20) +contextual [Dev.mr4Poll, *]

@[simp] theorem Dev.installSetting_held (o : Store) (a0 : Dev) (a1) (a2) (h0 : Held o a0) : Held o (@Dev.installSetting a0 a1 a2) := by
  unfold Dev.installSetting
  split
  · exact h0
  · exact held_ite _ _ _ _ (Dev.raise_held _ _ _ _ _ (Dev.setRank_held _ _ _ _ _ h0)) (Dev.setRank_held _ _ _ _ _ h0)

end Sys2Proof.Machine
end

