-- ==== Sys2Proof/Laws/HeldPumps.lean ====
section
/-! SUPPORT. The operations that touch no stored data: the DRAM, the cistern, the well map and the marks of poisoned granules are as they were
after each of them. -/

namespace Sys2Proof.Machine

open Sys2Proof

set_option linter.unreachableTactic false
set_option linter.unusedTactic false
set_option linter.unusedSimpArgs false

@[simp] theorem Dev.rejoinBack_held (o : Store) (a0 : Dev) (a1) (h0 : Held o a0) : Held o (@Dev.rejoinBack a0 a1) := by
  simp +contextual [Dev.rejoinBack, *]

@[simp] theorem Dev.trimRun_held (o : Store) (a0 : Dev) (a1) (a2) (h0 : Held o a0) : Held o (@Dev.trimRun a0 a1 a2) := by
  simp +contextual [Dev.trimRun, *]

@[simp] theorem Dev.sendPageFree_held (o : Store) (a0 : Dev) (a1) (a2) (h0 : Held o a0) : Held o (@Dev.sendPageFree a0 a1 a2) := by
  unfold Dev.sendPageFree
  split
  rename_i t d h
  have hd : Held o d := by
    have := Dev.newTag_held o a0 h0
    rw [h] at this; exact this
  extract_lets c d1
  have h1 : Held o d1 := hd
  clear_value d1
  simp (maxDischargeDepth := 20) [*]

@[simp] theorem Dev.freeDest_held (o : Store) (a0 : Dev) (a1) (a2) (h0 : Held o a0) : Held o (@Dev.freeDest a0 a1 a2) := by
  simp (maxDischargeDepth := 20) +contextual [Dev.freeDest, *]

@[simp] theorem Dev.endJob_held (o : Store) (a0 : Dev) (a1) (a2) (a3) (h0 : Held o a0) : Held o (@Dev.endJob a0 a1 a2 a3) := by
  unfold Dev.endJob
  repeat' first | assumption | intro _ | with_reducible apply held_ite | with_reducible apply held_forAll | with_reducible apply held_foldl | with_reducible apply held_when | with_reducible apply held_foldl_fst | with_reducible apply held_ite_fst | with_reducible apply held_ite_snd | with_reducible apply Dev.setEnc_held | with_reducible apply Dev.restTag_held | with_reducible apply Dev.setPump_held | (simp only [held_mk, heldMem_dev]; done) | split | (simp only [held_mk, heldMem_dev])

@[simp] theorem Dev.pumpRefill_held (o : Store) (a0 : Dev) (a1) (a2) (h0 : Held o a0) : Held o (@Dev.pumpRefill a0 a1 a2) := by
  simp (maxDischargeDepth := 20) +contextual [Dev.pumpRefill, *]

@[simp] theorem Dev.addCand_held (o : Store) (a0 : Dev) (a1) (a2) (h0 : Held o a0) : Held o (@Dev.addCand a0 a1 a2) := by
  unfold Dev.addCand
  repeat' first | assumption | intro _ | with_reducible apply held_ite | with_reducible apply held_forAll | with_reducible apply held_foldl | with_reducible apply held_when | with_reducible apply held_foldl_fst | with_reducible apply held_ite_fst | with_reducible apply held_ite_snd | with_reducible apply Dev.setTile_held | with_reducible apply Dev.queueJob_held | (simp only [held_mk, heldMem_dev]; done) | split | (simp only [held_mk, heldMem_dev])

@[simp] theorem Dev.sweepJob_held (o : Store) (a0 : Dev) (a1) (a2) (h0 : Held o a0) : Held o (@Dev.sweepJob a0 a1 a2) := by
  unfold Dev.sweepJob
  repeat' first | assumption | intro _ | with_reducible apply held_ite | with_reducible apply held_forAll | with_reducible apply held_foldl | with_reducible apply held_when | with_reducible apply held_foldl_fst | with_reducible apply held_ite_fst | with_reducible apply held_ite_snd | with_reducible apply Dev.queueJob_held | with_reducible apply Dev.addCand_held | (simp only [held_mk, heldMem_dev]; done) | split | (simp only [held_mk, heldMem_dev])

@[simp] theorem Dev.passStart_held (o : Store) (a0 : Dev) (a1) (h0 : Held o a0) : Held o (@Dev.passStart a0 a1) := by
  simp +contextual [Dev.passStart, *]

@[simp] theorem Dev.abortEvacs_held (o : Store) (a0 : Dev) (a1) (a2) (h0 : Held o a0) : Held o (@Dev.abortEvacs a0 a1 a2) := by
  simp (maxDischargeDepth := 20) +contextual [Dev.abortEvacs, *]

@[simp] theorem Dev.retireBack_held (o : Store) (a0 : Dev) (a1) (a2) (h0 : Held o a0) : Held o (@Dev.retireBack a0 a1 a2) := by
  unfold Dev.retireBack
  repeat' first | assumption | intro _ | with_reducible apply held_ite | with_reducible apply held_forAll | with_reducible apply held_foldl | with_reducible apply held_when | with_reducible apply held_foldl_fst | with_reducible apply held_ite_fst | with_reducible apply held_ite_snd | with_reducible apply Dev.setTile_held | with_reducible apply Dev.setRank_held | (simp only [held_mk, heldMem_dev]; done) | split | (simp only [held_mk, heldMem_dev])

@[simp] theorem Dev.pumpStop_held (o : Store) (a0 : Dev) (a1) (h0 : Held o a0) : Held o (@Dev.pumpStop a0 a1) := by
  simp (maxDischargeDepth := 20) +contextual [Dev.pumpStop, *]

@[simp] theorem Dev.verifyFail_held (o : Store) (a0 : Dev) (a1) (h0 : Held o a0) : Held o (@Dev.verifyFail a0 a1) := by
  simp (maxDischargeDepth := 20) +contextual [Dev.verifyFail, *]

@[simp] theorem Dev.pumpAbort_held (o : Store) (a0 : Dev) (a1) (a2) (h0 : Held o a0) : Held o (@Dev.pumpAbort a0 a1 a2) := by
  simp (maxDischargeDepth := 20) +contextual [Dev.pumpAbort, *]

@[simp] theorem Dev.jobReady_held (o : Store) (a0 : Dev) (a1) (a2) (h0 : Held o a0) : Held o (@Dev.jobReady a0 a1 a2) := by
  simp (maxDischargeDepth := 20) +contextual [Dev.jobReady, *]

@[simp] theorem Dev.bookSlotRetireEnd_held (o : Store) (a0 : Dev) (a1) (h0 : Held o a0) : Held o (@Dev.bookSlotRetireEnd a0 a1) := by
  simp (maxDischargeDepth := 20) +contextual [Dev.bookSlotRetireEnd, *]

@[simp] theorem Dev.commitMeta_held (o : Store) (a0 : Dev) (a1) (a2) (h0 : Held o a0) : Held o (@Dev.commitMeta a0 a1 a2) := by
  unfold Dev.commitMeta
  repeat' first | assumption | intro _ | with_reducible apply held_ite | with_reducible apply held_forAll | with_reducible apply held_foldl | with_reducible apply held_when | with_reducible apply held_foldl_fst | with_reducible apply held_ite_fst | with_reducible apply held_ite_snd | with_reducible apply forAll_held | with_reducible apply Dev.freeFrame_held | (simp only [held_mk, heldMem_dev]; done) | split | (simp only [held_mk, heldMem_dev])

@[simp] theorem Dev.pumpCut_held (o : Store) (a0 : Dev) (a1) (h0 : Held o a0) : Held o (@Dev.pumpCut a0 a1) := by
  simp (maxDischargeDepth := 20) +contextual [Dev.pumpCut, *]

@[simp] theorem Dev.blockEvac_held (o : Store) (a0 : Dev) (a1) (a2) (h0 : Held o a0) : Held o (@Dev.blockEvac a0 a1 a2) := by
  simp (maxDischargeDepth := 20) +contextual [Dev.blockEvac, *]

@[simp] theorem Dev.decodeError_held (o : Store) (a0 : Dev) (a1) (a2) (a3) (h0 : Held o a0) : Held o (@Dev.decodeError a0 a1 a2 a3) := by
  simp (maxDischargeDepth := 20) +contextual [Dev.decodeError, *]

@[simp] theorem Dev.sendPage_held (o : Store) (a0 : Dev) (a1) (a2) (a3) (a4) (h0 : Held o a0) : Held o (@Dev.sendPage a0 a1 a2 a3 a4) := by
  simp (maxDischargeDepth := 20) +contextual [Dev.sendPage, *]

@[simp] theorem Dev.oweDecay_held (o : Store) (a0 : Dev) (h0 : Held o a0) : Held o (@Dev.oweDecay a0) := by
  unfold Dev.oweDecay
  repeat' first | assumption | intro _ | with_reducible apply held_ite | with_reducible apply held_forAll | with_reducible apply held_foldl | with_reducible apply held_when | with_reducible apply held_foldl_fst | with_reducible apply held_ite_fst | with_reducible apply held_ite_snd  | (simp only [held_mk, heldMem_dev]; done) | split | (simp only [held_mk, heldMem_dev])

@[simp] theorem Dev.sweepStale_held (o : Store) (a0 : Dev) (a1) (h0 : Held o a0) : Held o (@Dev.sweepStale a0 a1) := by
  simp (maxDischargeDepth := 20) +contextual [Dev.sweepStale, *]

end Sys2Proof.Machine
end

