-- ==== Sys2Proof/Laws/HeldConfig.lean ====
section
/-! SUPPORT. The operations that touch no stored data: the DRAM, the cistern, the well map and the marks of poisoned granules are as they were
after each of them. -/

namespace Sys2Proof.Machine

open Sys2Proof

set_option linter.unreachableTactic false
set_option linter.unusedTactic false
set_option linter.unusedSimpArgs false

@[simp] theorem Dev.setSlotState_held (o : Store) (a0 : Dev) (a1) (a2) (h0 : Held o a0) : Held o (@Dev.setSlotState a0 a1 a2) := by
  unfold Dev.setSlotState
  (repeat' split) <;> simp +contextual [*]

theorem Dev.placeRun_held (o : Store) (a0 : Dev) (a1) (a2) (a3) (h0 : Held o a0) : ∀ e, (@Dev.placeRun a0 a1 a2 a3) = some e → Held o e.2 := by
  intro e he
  unfold Dev.placeRun at he
  extract_lets cs at he
  split at he
  · simp at he
  · split at he
    · simp at he
    · rename_i f _
      extract_lets d1 p m at he
      have h1 : Held o d1 := by simp (maxDischargeDepth := 20) +contextual [d1, *]
      clear_value d1 m
      cases m with
      | none => 
        simp only at he
        split at he
        · simp at he
        · simp only [Option.some.injEq] at he
          subst he; exact h1
      | some g =>
        simp only [Option.some.injEq] at he
        subst he
        simp (maxDischargeDepth := 20) +contextual [*]

theorem Dev.placeRuns_held (o : Store) (a0 : Dev) (a1) (a2) (a3) (h0 : Held o a0) : ∀ e, (@Dev.placeRuns a0 a1 a2 a3) = some e → Held o e.2 := by
  induction a2 generalizing a0 a3 with
  | zero => intro e he; simp only [Dev.placeRuns, Option.some.injEq] at he; subst he; exact h0
  | succ n ih =>
    intro e he
    simp only [Dev.placeRuns] at he
    split at he
    · simp at he
    · rename_i h
      exact ih _ _ (Dev.placeRun_held _ _ _ _ _ h0 _ h) e he

theorem Dev.reserveTile_held (o : Store) (a0 : Dev) (a1) (a2) (h0 : Held o a0) : ∀ e, (@Dev.reserveTile a0 a1 a2) = some e → Held o e.2 :=
  Dev.placeRuns_held _ _ _ _ _ h0

theorem Dev.reserveRuns_held (o : Store) (a0 : Dev) (a1) (h0 : Held o a0) : ∀ e, (@Dev.reserveRuns a0 a1) = some e → Held o e.2 := by
  unfold Dev.reserveRuns
  have key : ∀ (ks : List Nat) (acc : Option (List MetaRun × Dev)), (∀ x, acc = some x → Held o x.2) → ∀ e, ks.foldl (fun (acc : Option (List MetaRun × Dev)) k =>
    match acc with
    | none => none
    | some (ms, d) => match d.reserveTile k a1 with
      | none => none
      | some (xs, d) => some (ms ++ xs, d)) acc = some e → Held o e.2 := by
    intro ks
    induction ks with
    | nil => intro acc h e he; exact h e he
    | cons k ks ih =>
      intro acc h e he
      refine ih _ ?_ e he
      intro x hx
      dsimp only at hx
      split at hx
      · simp at hx
      · split at hx
        · simp at hx
        · rename_i h2
          simp only [Option.some.injEq] at hx
          subst hx
          have hk := Dev.reserveTile_held o _ _ _ (h (_, _) rfl) _ h2; exact hk
  exact key _ _ (by intro x hx; simp only [Option.some.injEq] at hx; subst hx; exact h0)

@[simp] theorem Dev.freeRuns_held (o : Store) (a0 : Dev) (a1) (h0 : Held o a0) : Held o (@Dev.freeRuns a0 a1) := by
  unfold Dev.freeRuns
  repeat' first | assumption | intro _ | with_reducible apply held_ite | with_reducible apply held_forAll | with_reducible apply held_foldl | with_reducible apply held_when | with_reducible apply held_foldl_fst | with_reducible apply held_ite_fst | with_reducible apply held_ite_snd | with_reducible apply forAll_held | with_reducible apply Dev.freeRun_held | (simp only [held_mk, heldMem_dev]; done) | split | (simp only [held_mk, heldMem_dev])

@[simp] theorem Dev.noteSlot_held (o : Store) (a0 : Dev) (a1) (a2) (h0 : Held o a0) : Held o (@Dev.noteSlot a0 a1 a2) := by
  simp (maxDischargeDepth := 20) +contextual [Dev.noteSlot, *]

@[simp] theorem Dev.skips_held (o : Store) (a0 : Dev) (a1) (h0 : Held o a0) : Held o (@Dev.skips a0 a1) := by
  simp (maxDischargeDepth := 20) +contextual [Dev.skips, *]

@[simp] theorem Dev.checkSlot_held (o : Store) (a0 : Dev) (a1) (h0 : Held o a0) : Held o (@Dev.checkSlot a0 a1).1 := by
  simp (maxDischargeDepth := 20) +contextual [Dev.checkSlot, *]

@[simp] theorem Dev.selectFrom_held (o : Store) (a0 : Dev) (a1) (h0 : Held o a0) : Held o (@Dev.selectFrom a0 a1).1 := by
  induction a1 generalizing a0 with
  | nil => exact h0
  | cons x xs ih =>
    obtain ⟨v, n⟩ := x
    unfold Dev.selectFrom
    have hc := Dev.checkSlot_held o a0 n h0
    split
    rename_i d c h
    rw [h] at hc
    exact held_ite_fst _ _ _ _ hc (ih _ (Dev.raise_held _ _ _ _ _ hc))

@[simp] theorem Dev.commitDone_held (o : Store) (a0 : Dev) (a1) (h0 : Held o a0) : Held o (@Dev.commitDone a0 a1) := by
  unfold Dev.commitDone
  (repeat' split) <;> simp +contextual [*]

@[simp] theorem Dev.activateBooks_held (o : Store) (a0 : Dev) (a1) (h0 : Held o a0) : Held o (@Dev.activateBooks a0 a1) := by
  simp (maxDischargeDepth := 20) +contextual [Dev.activateBooks, *]

@[simp] theorem Dev.releaseHosting_held (o : Store) (a0 : Dev) (a1) (h0 : Held o a0) : Held o (@Dev.releaseHosting a0 a1) := by
  simp (maxDischargeDepth := 20) +contextual [Dev.releaseHosting, *]

@[simp] theorem Dev.portsChanged_held (o : Store) (a0 : Dev) (a1) (h0 : Held o a0) : Held o (@Dev.portsChanged a0 a1) := by
  unfold Dev.portsChanged
  repeat' first | assumption | intro _ | split | with_reducible apply held_forAll | with_reducible apply held_foldl | with_reducible apply held_when | with_reducible apply held_foldl_fst | with_reducible apply held_ite | with_reducible apply held_ite_fst | with_reducible apply forAll_held | with_reducible apply Dev.setPort_held | (simp only [held_mk, heldMem_dev])

@[simp] theorem Dev.routesChanged_held (o : Store) (a0 : Dev) (a1) (h0 : Held o a0) : Held o (@Dev.routesChanged a0 a1) := by
  unfold Dev.routesChanged
  repeat' first | assumption | intro _ | split | with_reducible apply held_forAll | with_reducible apply held_foldl | with_reducible apply held_when | with_reducible apply held_foldl_fst | with_reducible apply held_ite | with_reducible apply held_ite_fst | with_reducible apply forAll_held | with_reducible apply Dev.setRoute_held | (simp only [held_mk, heldMem_dev])

@[simp] theorem Dev.putRegs_held (o : Store) (a0 : Dev) (a1) (h0 : Held o a0) : Held o (@Dev.putRegs a0 a1) := by
  unfold Dev.putRegs
  repeat' first | assumption | intro _ | split | with_reducible apply held_forAll | with_reducible apply held_foldl | with_reducible apply held_when | with_reducible apply held_foldl_fst | with_reducible apply held_ite | with_reducible apply held_ite_fst | with_reducible apply Dev.portsChanged_held | with_reducible apply Dev.routesChanged_held | (simp only [held_mk, heldMem_dev])

@[simp] theorem Dev.activateRegs_held (o : Store) (a0 : Dev) (a1) (a2) (h0 : Held o a0) : Held o (@Dev.activateRegs a0 a1 a2) := by
  unfold Dev.activateRegs
  repeat' first | assumption | intro _ | split | with_reducible apply held_forAll | with_reducible apply held_foldl | with_reducible apply held_when | with_reducible apply held_foldl_fst | with_reducible apply held_ite | with_reducible apply held_ite_fst | with_reducible apply Dev.putRegs_held | with_reducible apply forAll_held | with_reducible apply Dev.raise_held | (simp only [held_mk, heldMem_dev])

@[simp] theorem Dev.capacityRecord_held (o : Store) (a0 : Dev) (a1) (h0 : Held o a0) : Held o (@Dev.capacityRecord a0 a1) := by
  simp +contextual [Dev.capacityRecord, *]

@[simp] theorem Dev.activateCapacity_held (o : Store) (a0 : Dev) (h0 : Held o a0) : Held o (@Dev.activateCapacity a0) := by
  unfold Dev.activateCapacity
  repeat' first | assumption | intro _ | split | with_reducible apply held_forAll | with_reducible apply held_foldl | with_reducible apply held_when | with_reducible apply held_foldl_fst | with_reducible apply held_ite | with_reducible apply held_ite_fst | with_reducible apply forAll_held | with_reducible apply Dev.capacityRecord_held | (simp only [held_mk, heldMem_dev])

@[simp] theorem Dev.syncDom_held (o : Store) (a0 : Dev) (a1) (h0 : Held o a0) : Held o (@Dev.syncDom a0 a1) := by
  unfold Dev.syncDom
  (repeat' split) <;> simp +contextual [*]

@[simp] theorem Dev.syncDoms_held (o : Store) (a0 : Dev) (h0 : Held o a0) : Held o (@Dev.syncDoms a0) := by
  simp +contextual [Dev.syncDoms, *]

@[simp] theorem Dev.activateKeys_held (o : Store) (a0 : Dev) (a1) (h0 : Held o a0) : Held o (@Dev.activateKeys a0 a1) := by
  unfold Dev.activateKeys
  repeat' first | assumption | intro _ | split | with_reducible apply held_forAll | with_reducible apply held_foldl | with_reducible apply held_when | with_reducible apply held_foldl_fst | with_reducible apply held_ite | with_reducible apply held_ite_fst | with_reducible apply forAll_held | with_reducible apply Dev.setKd_held | (simp only [held_mk, heldMem_dev])

@[simp] theorem Dev.activateImage_held (o : Store) (a0 : Dev) (a1) (a2) (a3) (h0 : Held o a0) : Held o (@Dev.activateImage a0 a1 a2 a3) := by
  unfold Dev.activateImage
  extract_lets old d1 c sc d2 d3
  have h1 : Held o d1 := by simp (maxDischargeDepth := 20) [d1, *]
  clear_value d1
  have h2 : Held o d2 := h1
  clear_value d2
  have h3 : Held o d3 := held_ite _ _ _ _ h2 (by simp (maxDischargeDepth := 20) [*])
  clear_value d3
  simp (maxDischargeDepth := 20) [*]

@[simp] theorem Dev.overlayReg_held (o : Store) (a0 : Dev) (a1) (a2) (h0 : Held o a0) : Held o (@Dev.overlayReg a0 a1 a2) := by
  unfold Dev.overlayReg
  repeat' first | assumption | intro _ | split | with_reducible apply held_forAll | with_reducible apply held_foldl | with_reducible apply held_when | with_reducible apply held_foldl_fst | with_reducible apply held_ite | with_reducible apply held_ite_fst | with_reducible apply Dev.putRegs_held | (simp only [held_mk, heldMem_dev])

@[simp] theorem Dev.dropBreaking_held (o : Store) (a0 : Dev) (a1) (h0 : Held o a0) : Held o (@Dev.dropBreaking a0 a1) := by
  unfold Dev.dropBreaking
  repeat' first | assumption | intro _ | with_reducible apply held_ite | with_reducible apply held_forAll | with_reducible apply held_foldl | with_reducible apply held_when | with_reducible apply held_foldl_fst | with_reducible apply held_ite_fst | with_reducible apply held_ite_snd | with_reducible apply Dev.raise_held | with_reducible apply Dev.putRegs_held | (simp only [held_mk, heldMem_dev]; done) | split | (simp only [held_mk, heldMem_dev])

@[simp] theorem Dev.activateOverlay_held (o : Store) (a0 : Dev) (a1) (h0 : Held o a0) : Held o (@Dev.activateOverlay a0 a1) := by
  simp (maxDischargeDepth := 20) +contextual [Dev.activateOverlay, *]

@[simp] theorem Dev.activateTxn_held (o : Store) (a0 : Dev) (h0 : Held o a0) : Held o (@Dev.activateTxn a0) := by
  unfold Dev.activateTxn
  extract_lets t s c d1
  have h1 : Held o d1 := h0
  clear_value d1
  apply held_ite _ _ _ _ h0
  split
  · exact Dev.commitDone_held _ _ _ (Dev.setSlotState_held _ _ _ _ (Dev.activateImage_held _ _ _ _ _ h1))
  · simp (maxDischargeDepth := 20) [*]

@[simp] theorem Dev.revertDone_held (o : Store) (a0 : Dev) (h0 : Held o a0) : Held o (@Dev.revertDone a0) := by
  unfold Dev.revertDone
  repeat' first | assumption | intro _ | split | with_reducible apply held_forAll | with_reducible apply held_foldl | with_reducible apply held_when | with_reducible apply held_foldl_fst | with_reducible apply held_ite | with_reducible apply held_ite_fst | with_reducible apply Dev.finishBg_held | (simp only [held_mk, heldMem_dev])

@[simp] theorem Dev.reconciled_held (o : Store) (a0 : Dev) (h0 : Held o a0) : Held o (@Dev.reconciled a0) := by
  unfold Dev.reconciled
  repeat' first | assumption | intro _ | with_reducible apply held_ite | with_reducible apply held_forAll | with_reducible apply held_foldl | with_reducible apply held_when | with_reducible apply held_foldl_fst | with_reducible apply held_ite_fst | with_reducible apply held_ite_snd | with_reducible apply Dev.sendAck_held | with_reducible apply Dev.raise_held | (simp only [held_mk, heldMem_dev]; done) | split | (simp only [held_mk, heldMem_dev])

@[simp] theorem Dev.activateTo_held (o : Store) (a0 : Dev) (h0 : Held o a0) : Held o (@Dev.activateTo a0) := by
  unfold Dev.activateTo
  split
  · exact h0
  · extract_lets was c d1 d2 d3
    have h1 : Held o d1 := h0
    clear_value d1
    have h2 : Held o d2 := by
      simp only [d2]
      split
      · rename_i h; exact Dev.reserveRuns_held _ _ _ h1 _ h
      · exact h1
    clear_value d2
    have h3 : Held o d3 := Dev.setSlotState_held _ _ _ _ (Dev.activateImage_held _ _ _ _ _ h2)
    clear_value d3
    simp (maxDischargeDepth := 20) [*]

theorem Dev.queueAct_held (o : Store) (a0 : Dev) (a1) (a2) (a3) (h0 : Held o a0) : ∀ e, (@Dev.queueAct a0 a1 a2 a3) = .ok e → Held o e := by
  intro e he
  unfold Dev.queueAct at he
  repeat' split at he
  all_goals first | (simp only [reduceCtorEq] at he; done) | skip
  simp only [Except.ok.injEq] at he
  subst he
  exact h0

@[simp] theorem Dev.txnIdle_held (o : Store) (a0 : Dev) (h0 : Held o a0) : Held o (@Dev.txnIdle a0) := by
  unfold Dev.txnIdle
  repeat' first | assumption | intro _ | with_reducible apply held_ite | with_reducible apply held_forAll | with_reducible apply held_foldl | with_reducible apply held_when | with_reducible apply held_foldl_fst | with_reducible apply held_ite_fst | with_reducible apply held_ite_snd | with_reducible apply Dev.freeRuns_held | with_reducible apply Dev.setSlotState_held | (simp only [held_mk, heldMem_dev]; done) | split | (simp only [held_mk, heldMem_dev])

@[simp] theorem Dev.mapBg_held (o : Store) (a0 : Dev) (a1) (h0 : Held o a0) : Held o (@Dev.mapBg a0 a1) := by
  simp +contextual [Dev.mapBg, *]

@[simp] theorem Dev.primeBays_held (o : Store) (a0 : Dev) (h0 : Held o a0) : Held o (@Dev.primeBays a0) := by
  simp (maxDischargeDepth := 20) +contextual [Dev.primeBays, *]

@[simp] theorem Dev.primeFrom_held (o : Store) (a0 : Dev) (a1) (a2) (a3) (h0 : Held o a0) : Held o (@Dev.primeFrom a0 a1 a2 a3) := by
  unfold Dev.primeFrom
  repeat' first | assumption | intro _ | with_reducible apply held_ite | with_reducible apply held_forAll | with_reducible apply held_foldl | with_reducible apply held_when | with_reducible apply held_foldl_fst | with_reducible apply held_ite_fst | with_reducible apply held_ite_snd | with_reducible apply Dev.primeBays_held | (with_reducible refine Dev.queueAct_held _ _ _ ?_ _ (by assumption))| (with_reducible refine Dev.queueAct_held _ _ _ _ ?_ _ (by assumption))| (with_reducible refine Dev.queueAct_held _ _ _ _ _ ?_ _ (by assumption))| (with_reducible refine Dev.queueAct_held _ _ _ _ _ _ ?_ _ (by assumption)) | (simp only [held_mk, heldMem_dev]; done) | split | (simp only [held_mk, heldMem_dev])

@[simp] theorem Dev.primeStart_held (o : Store) (a0 : Dev) (h0 : Held o a0) : Held o (@Dev.primeStart a0) := by
  unfold Dev.primeStart
  extract_lets gs d
  have hd : Held o d := h0
  clear_value d
  refine held_ite _ _ _ _ (Dev.raise_held _ _ _ _ _ hd) (held_ite _ _ _ _ hd (held_ite _ _ _ _ (Dev.raise_held _ _ _ _ _ hd) ?_))
  have hk := Dev.selectFrom_held o d d.candidates hd
  split
  · rename_i h
    rw [h] at hk
    exact Dev.primeFrom_held _ _ _ _ _ hk
  · rename_i h
    rw [h] at hk
    exact Dev.raise_held _ _ _ _ _ hk

@[simp] theorem Dev.primeBegin_held (o : Store) (a0 : Dev) (h0 : Held o a0) : Held o (@Dev.primeBegin a0) := by
  unfold Dev.primeBegin
  repeat' first | assumption | intro _ | with_reducible apply held_ite | with_reducible apply held_forAll | with_reducible apply held_foldl | with_reducible apply held_when | with_reducible apply held_foldl_fst | with_reducible apply held_ite_fst | with_reducible apply held_ite_snd | with_reducible apply Dev.primeStart_held | (simp only [held_mk, heldMem_dev]; done) | split | (simp only [held_mk, heldMem_dev])

@[simp] theorem Dev.primeGuest_held (o : Store) (a0 : Dev) (h0 : Held o a0) : Held o (@Dev.primeGuest a0) := by
  simp (maxDischargeDepth := 20) +contextual [Dev.primeGuest, *]

@[simp] theorem Dev.setTxn_held (o : Store) (a0 : Dev) (a1) (h0 : Held o a0) : Held o (@Dev.setTxn a0 a1) := by
  simp +contextual [Dev.setTxn, *]

@[simp] theorem Dev.reopen_held (o : Store) (a0 : Dev) (h0 : Held o a0) : Held o (@Dev.reopen a0) := by
  unfold Dev.reopen
  repeat' first | assumption | intro _ | with_reducible apply held_ite | with_reducible apply held_forAll | with_reducible apply held_foldl | with_reducible apply held_when | with_reducible apply held_foldl_fst | with_reducible apply held_ite_fst | with_reducible apply held_ite_snd | with_reducible apply Dev.freeRuns_held | with_reducible apply Dev.setSlotState_held | with_reducible apply Dev.setTxn_held | (simp only [held_mk, heldMem_dev]; done) | split | (simp only [held_mk, heldMem_dev])

@[simp] theorem Dev.dropTarget_held (o : Store) (a0 : Dev) (a1) (h0 : Held o a0) : Held o (@Dev.dropTarget a0 a1) := by
  unfold Dev.dropTarget
  repeat' first | assumption | intro _ | with_reducible apply held_ite | with_reducible apply held_forAll | with_reducible apply held_foldl | with_reducible apply held_when | with_reducible apply held_foldl_fst | with_reducible apply held_ite_fst | with_reducible apply held_ite_snd | with_reducible apply Dev.setSlotState_held | with_reducible apply Dev.setTxn_held | (simp only [held_mk, heldMem_dev]; done) | split | (simp only [held_mk, heldMem_dev])

@[simp] theorem Dev.rollBackTxn_held (o : Store) (a0 : Dev) (a1) (h0 : Held o a0) : Held o (@Dev.rollBackTxn a0 a1) := by
  unfold Dev.rollBackTxn
  repeat' first | assumption | intro _ | with_reducible apply held_ite | with_reducible apply held_forAll | with_reducible apply held_foldl | with_reducible apply held_when | with_reducible apply held_foldl_fst | with_reducible apply held_ite_fst | with_reducible apply held_ite_snd | with_reducible apply Dev.reopen_held | with_reducible apply Dev.dropTarget_held | (simp only [held_mk, heldMem_dev]; done) | split | (simp only [held_mk, heldMem_dev])

@[simp] theorem Dev.touchTxn_held (o : Store) (a0 : Dev) (h0 : Held o a0) : Held o (@Dev.touchTxn a0) := by
  simp +contextual [Dev.touchTxn, *]

@[simp] theorem Dev.gated_held (o : Store) (a0 : Dev) (a1) (a2) (a3) (h0 : Held o a0) (h3 : ∀ y0, Held o y0 → Held o (a3 y0)) : Held o (@Dev.gated a0 a1 a2 a3) := by
  unfold Dev.gated
  try dsimp only
  repeat' first | assumption | intro _ | with_reducible apply held_ite | with_reducible apply held_forAll | with_reducible apply held_foldl | with_reducible apply held_when | with_reducible apply held_foldl_fst | with_reducible apply held_ite_fst | with_reducible apply held_ite_snd | with_reducible apply Dev.wakeFor_held | with_reducible apply Dev.reply_held | (simp only [held_mk, heldMem_dev]; done) | split | (simp only [held_mk, heldMem_dev]) | (simp_all; done)

@[simp] theorem Dev.vend_held (o : Store) (a0 : Dev) (a1) (a2) (a3) (a4) (a5) (h0 : Held o a0) (h5 : ∀ y0, Held o y0 → Held o (a5 y0)) : Held o (@Dev.vend a0 a1 a2 a3 a4 a5) := by
  unfold Dev.vend
  try dsimp only
  repeat' first | assumption | intro _ | with_reducible apply held_ite | with_reducible apply held_forAll | with_reducible apply held_foldl | with_reducible apply held_when | with_reducible apply held_foldl_fst | with_reducible apply held_ite_fst | with_reducible apply held_ite_snd | with_reducible apply Dev.reply_held | (simp only [held_mk, heldMem_dev]; done) | split | (simp only [held_mk, heldMem_dev]) | (simp_all; done)

@[simp] theorem Dev.askAbort_held (o : Store) (a0 : Dev) (a1) (a2) (h0 : Held o a0) : Held o (@Dev.askAbort a0 a1 a2) := by
  simp +contextual [Dev.askAbort, *]

@[simp] theorem Dev.rollback_held (o : Store) (a0 : Dev) (a1) (a2) (h0 : Held o a0) : Held o (@Dev.rollback a0 a1 a2) := by
  unfold Dev.rollback
  repeat' first | assumption | intro _ | with_reducible apply held_ite | with_reducible apply held_forAll | with_reducible apply held_foldl | with_reducible apply held_when | with_reducible apply held_foldl_fst | with_reducible apply held_ite_fst | with_reducible apply held_ite_snd | with_reducible apply Dev.gated_held | with_reducible apply Dev.reply_held | with_reducible apply Dev.vend_held | with_reducible apply Dev.txnIdle_held | with_reducible apply Dev.askAbort_held | (simp only [held_mk, heldMem_dev]; done) | split | (simp only [held_mk, heldMem_dev])

@[simp] theorem Dev.owned_held (o : Store) (a0 : Dev) (a1) (a2) (h0 : Held o a0) (h2 : ∀ y0, Held o y0 → Held o (a2 y0)) : Held o (@Dev.owned a0 a1 a2) := by
  simp (maxDischargeDepth := 20) +contextual [Dev.owned, *]

@[simp] theorem Dev.asBg_held (o : Store) (a0 : Dev) (a1) (a2) (h0 : Held o a0) (h2 : ∀ y0, Held o y0 → Held o (a2 y0)) : Held o (@Dev.asBg a0 a1 a2) := by
  simp (maxDischargeDepth := 20) +contextual [Dev.asBg, *]

@[simp] theorem Dev.startBg_held (o : Store) (a0 : Dev) (a1) (a2) (a3) (h0 : Held o a0) : Held o (@Dev.startBg a0 a1 a2 a3) := by
  unfold Dev.startBg
  repeat' first | assumption | intro _ | with_reducible apply held_ite | with_reducible apply held_forAll | with_reducible apply held_foldl | with_reducible apply held_when | with_reducible apply held_foldl_fst | with_reducible apply held_ite_fst | with_reducible apply held_ite_snd | with_reducible apply Dev.reply_held | (simp only [held_mk, heldMem_dev]; done) | split | (simp only [held_mk, heldMem_dev])

@[simp] theorem Dev.stage_held (o : Store) (a0 : Dev) (a1) (a2) (h0 : Held o a0) : Held o (@Dev.stage a0 a1 a2) := by
  unfold Dev.stage
  repeat' first | assumption | intro _ | with_reducible apply held_ite | with_reducible apply held_forAll | with_reducible apply held_foldl | with_reducible apply held_when | with_reducible apply held_foldl_fst | with_reducible apply held_ite_fst | with_reducible apply held_ite_snd | with_reducible apply Dev.gated_held | with_reducible apply Dev.owned_held | with_reducible apply Dev.vend_held | with_reducible apply Dev.touchTxn_held | with_reducible apply Dev.reply_held | with_reducible apply Dev.asBg_held | with_reducible apply Dev.setTxn_held | with_reducible apply Dev.reopen_held | with_reducible apply Dev.startBg_held | (simp only [held_mk, heldMem_dev]; done) | split | (simp only [held_mk, heldMem_dev])

@[simp] theorem Dev.beginTxn_held (o : Store) (a0 : Dev) (a1) (a2) (h0 : Held o a0) : Held o (@Dev.beginTxn a0 a1 a2) := by
  simp (maxDischargeDepth := 20) +contextual [Dev.beginTxn, *]

set_option maxRecDepth 8000 in
@[simp] theorem Dev.findPrev_held (o : Store) (a0 : Dev) (a1) (h0 : Held o a0) : Held o (@Dev.findPrev a0 a1).1 := by
  unfold Dev.findPrev
  repeat' first | assumption | intro _ | with_reducible apply held_ite | with_reducible apply held_forAll | with_reducible apply held_foldl | with_reducible apply held_when | with_reducible apply held_foldl_fst | with_reducible apply held_ite_fst | with_reducible apply held_ite_snd | with_reducible apply Dev.checkSlot_held | (simp only [held_mk, heldMem_dev]; done) | split | (simp only [held_mk, heldMem_dev])

@[simp] theorem Dev.validateFail_held (o : Store) (a0 : Dev) (a1) (a2) (a3) (h0 : Held o a0) : Held o (@Dev.validateFail a0 a1 a2 a3) := by
  unfold Dev.validateFail
  repeat' first | assumption | intro _ | with_reducible apply held_ite | with_reducible apply held_forAll | with_reducible apply held_foldl | with_reducible apply held_when | with_reducible apply held_foldl_fst | with_reducible apply held_ite_fst | with_reducible apply held_ite_snd | with_reducible apply Dev.touchTxn_held | with_reducible apply Dev.setTxn_held | with_reducible apply Dev.finishBg_held | (simp only [held_mk, heldMem_dev]; done) | split | (simp only [held_mk, heldMem_dev])

@[simp] theorem Dev.writeSlot_held (o : Store) (a0 : Dev) (a1) (h0 : Held o a0) : Held o (@Dev.writeSlot a0 a1) := by
  unfold Dev.writeSlot; simp only [held_mk]; exact h0

@[simp] theorem Dev.readBack_held (o : Store) (a0 : Dev) (a1) (a2) (h0 : Held o a0) : Held o (@Dev.readBack a0 a1 a2).1 := by
  simp (maxDischargeDepth := 20) +contextual [Dev.readBack, *]

@[simp] theorem Dev.commitQueue_held (o : Store) (a0 : Dev) (a1) (h0 : Held o a0) : Held o (@Dev.commitQueue a0 a1) := by
  unfold Dev.commitQueue
  repeat' first | assumption | intro _ | with_reducible apply held_ite | with_reducible apply held_forAll | with_reducible apply held_foldl | with_reducible apply held_when | with_reducible apply held_foldl_fst | with_reducible apply held_ite_fst | with_reducible apply held_ite_snd | with_reducible apply Dev.setTxn_held | with_reducible apply Dev.finishBg_held | with_reducible apply Dev.raise_held | with_reducible apply Dev.touchTxn_held | with_reducible apply Dev.dropTarget_held | (with_reducible refine Dev.queueAct_held _ _ _ ?_ _ (by assumption))| (with_reducible refine Dev.queueAct_held _ _ _ _ ?_ _ (by assumption))| (with_reducible refine Dev.queueAct_held _ _ _ _ _ ?_ _ (by assumption))| (with_reducible refine Dev.queueAct_held _ _ _ _ _ _ ?_ _ (by assumption)) | (simp only [held_mk, heldMem_dev]; done) | split | (simp only [held_mk, heldMem_dev])

@[simp] theorem Dev.commitSlotWritten_held (o : Store) (a0 : Dev) (a1) (h0 : Held o a0) : Held o (@Dev.commitSlotWritten a0 a1) := by
  unfold Dev.commitSlotWritten
  split
  · refine held_ite _ _ _ _ h0 ?_
    rename_i n i _ _ _
    have hk := Dev.readBack_held o (a0.writeSlot n) n a1 (Dev.writeSlot_held _ _ _ h0)
    split
    rename_i d ok h
    rw [h] at hk
    refine held_ite _ _ _ _ (by simp (maxDischargeDepth := 20) [*]) (held_ite _ _ _ _ (by simp (maxDischargeDepth := 20) [*]) ?_)
    exact Dev.primeFrom_held _ _ _ _ _ hk
  · exact h0

@[simp] theorem Dev.nvmWriteTimeout_held (o : Store) (a0 : Dev) (h0 : Held o a0) : Held o (@Dev.nvmWriteTimeout a0) := by
  unfold Dev.nvmWriteTimeout
  repeat' first | assumption | intro _ | with_reducible apply held_ite | with_reducible apply held_forAll | with_reducible apply held_foldl | with_reducible apply held_when | with_reducible apply held_foldl_fst | with_reducible apply held_ite_fst | with_reducible apply held_ite_snd | with_reducible apply Dev.setSlotState_held | with_reducible apply Dev.finishBg_held | with_reducible apply Dev.touchTxn_held | with_reducible apply Dev.rollBackTxn_held | (simp only [held_mk, heldMem_dev]; done) | split | (simp only [held_mk, heldMem_dev])

@[simp] theorem Dev.stageComplete_held (o : Store) (a0 : Dev) (a1) (h0 : Held o a0) : Held o (@Dev.stageComplete a0 a1) := by
  unfold Dev.stageComplete
  try dsimp only
  repeat' first | assumption | intro _ | with_reducible apply held_ite | with_reducible apply held_forAll | with_reducible apply held_foldl | with_reducible apply held_when | with_reducible apply held_foldl_fst | with_reducible apply held_ite_fst | with_reducible apply held_ite_snd | with_reducible apply Dev.touchTxn_held | with_reducible apply Dev.setTxn_held | with_reducible apply Dev.finishBg_held | (simp only [held_mk, heldMem_dev]; done) | split | (simp only [held_mk, heldMem_dev]) | (simp_all; done)

@[simp] theorem Dev.transactionTimeout_held (o : Store) (a0 : Dev) (h0 : Held o a0) : Held o (@Dev.transactionTimeout a0) := by
  unfold Dev.transactionTimeout
  repeat' first | assumption | intro _ | with_reducible apply held_ite | with_reducible apply held_forAll | with_reducible apply held_foldl | with_reducible apply held_when | with_reducible apply held_foldl_fst | with_reducible apply held_ite_fst | with_reducible apply held_ite_snd | with_reducible apply Dev.finishBg_held | with_reducible apply Dev.raise_held | with_reducible apply Dev.txnIdle_held | (simp only [held_mk, heldMem_dev]; done) | split | (simp only [held_mk, heldMem_dev])

@[simp] theorem Dev.validatePass_held (o : Store) (a0 : Dev) (a1) (a2) (a3) (a4) (a5) (h0 : Held o a0) : Held o (@Dev.validatePass a0 a1 a2 a3 a4 a5) := by
  simp (maxDischargeDepth := 20) +contextual [Dev.validatePass, *]

@[simp] theorem Dev.validateComplete_held (o : Store) (a0 : Dev) (a1) (h0 : Held o a0) : Held o (@Dev.validateComplete a0 a1) := by
  unfold Dev.validateComplete
  split
  · exact h0
  · extract_lets t c n
    refine held_ite _ _ _ _ ?_ (held_ite _ _ _ _ (by simp [*]) ?_)
    · split <;> simp [*]
    · split
      · simp (maxDischargeDepth := 20) [*]
      · split
        · simp (maxDischargeDepth := 20) [*]
        · rename_i ms d1 h
          have h1 : Held o d1 := by
            split at h
            · exact Dev.reserveRuns_held _ _ _ h0 _ h
            · simp only [Option.some.injEq, Prod.mk.injEq] at h
              rw [← h.2]; exact h0
          refine held_ite _ _ _ _ (by simp (maxDischargeDepth := 20) [*]) (held_ite _ _ _ _ h0 ?_)
          have hk := Dev.readBack_held o (((d1.skips c.skipped).setSlotState n 2).writeSlot n) n a1 (by simp (maxDischargeDepth := 20) [*])
          split
          rename_i d2 ok h2
          rw [h2] at hk
          refine held_ite _ _ _ _ (by simp (maxDischargeDepth := 20) [*]) (by simp (maxDischargeDepth := 20) [*])

@[simp] theorem Dev.validate_held (o : Store) (a0 : Dev) (a1) (a2) (h0 : Held o a0) : Held o (@Dev.validate a0 a1 a2) := by
  unfold Dev.validate
  repeat' first | assumption | intro _ | with_reducible apply held_ite | with_reducible apply held_forAll | with_reducible apply held_foldl | with_reducible apply held_when | with_reducible apply held_foldl_fst | with_reducible apply held_ite_fst | with_reducible apply held_ite_snd | with_reducible apply Dev.gated_held | with_reducible apply Dev.owned_held | with_reducible apply Dev.vend_held | with_reducible apply Dev.touchTxn_held | with_reducible apply Dev.reply_held | with_reducible apply Dev.asBg_held | with_reducible apply Dev.startBg_held | with_reducible apply Dev.reopen_held | (simp only [held_mk, heldMem_dev]; done) | split | (simp only [held_mk, heldMem_dev])

@[simp] theorem Dev.commit_held (o : Store) (a0 : Dev) (a1) (a2) (h0 : Held o a0) : Held o (@Dev.commit a0 a1 a2) := by
  unfold Dev.commit
  refine Dev.gated_held _ _ _ _ _ h0 fun d hd => Dev.owned_held _ _ _ _ hd fun d hd => Dev.vend_held _ _ _ _ _ _ _ hd fun d hd => ?_
  extract_lets d1
  have h1 : Held o d1 := Dev.touchTxn_held _ _ hd
  clear_value d1
  refine held_ite _ _ _ _ (Dev.reply_held _ _ _ _ _ _ h1) (Dev.asBg_held _ _ _ _ h1 fun d hd => ?_)
  extract_lets e1 e2
  have h1 : Held o e1 := Dev.setTxn_held _ _ _ hd
  clear_value e1
  have h2 : Held o e2 := Dev.startBg_held _ _ _ _ _ h1
  clear_value e2
  refine held_ite _ _ _ _ (by simp (maxDischargeDepth := 20) [*]) ?_
  split <;> simp [*]

@[simp] theorem Dev.revert_held (o : Store) (a0 : Dev) (a1) (a2) (h0 : Held o a0) : Held o (@Dev.revert a0 a1 a2) := by
  unfold Dev.revert
  refine Dev.gated_held _ _ _ _ _ h0 fun d hd => Dev.vend_held _ _ _ _ _ _ _ hd fun d hd => ?_
  extract_lets pool
  refine held_ite _ _ _ _ (Dev.busy104_held _ _ _ hd) (held_ite _ _ _ _ (Dev.reply_held _ _ _ _ _ _ hd) (Dev.asBg_held _ _ _ _ hd fun d hd => ?_))
  have hc := Dev.findPrev_held o d pool hd
  split
  rename_i d2 f h
  rw [h] at hc
  split
  · exact Dev.reply_held _ _ _ _ _ _ hc
  · split
    · rename_i i _
      have hs := Dev.startBg_held o d2 a1 (.revert 0 i.version) false hc
      exact hs
    · extract_lets s
      split
      · exact Dev.reply_held _ _ _ _ _ _ (Dev.raise_held _ _ _ _ _ hc)
      · rename_i hq
        have hk := Dev.queueAct_held _ _ _ _ _ hc _ hq
        exact Dev.startBg_held _ _ _ _ _ hk

@[simp] theorem Dev.pullMsgTo_held (o : Store) (a0 : Dev) (a1) (a2) (h0 : Held o a0) : Held o (@Dev.pullMsgTo a0 a1 a2) := by
  simp (maxDischargeDepth := 20) +contextual [Dev.pullMsgTo, *]

@[simp] theorem Dev.sendPull_held (o : Store) (a0 : Dev) (a1) (h0 : Held o a0) : Held o (@Dev.sendPull a0 a1) := by
  simp +contextual [Dev.sendPull, *]

@[simp] theorem Dev.setMember_held (o : Store) (a0 : Dev) (a1) (h0 : Held o a0) : Held o (@Dev.setMember a0 a1) := by
  simp +contextual [Dev.setMember, *]

@[simp] theorem Dev.pullRetry_held (o : Store) (a0 : Dev) (h0 : Held o a0) : Held o (@Dev.pullRetry a0) := by
  unfold Dev.pullRetry
  repeat' first | assumption | intro _ | with_reducible apply held_ite | with_reducible apply held_forAll | with_reducible apply held_foldl | with_reducible apply held_when | with_reducible apply held_foldl_fst | with_reducible apply held_ite_fst | with_reducible apply held_ite_snd | with_reducible apply Dev.sendPull_held | with_reducible apply Dev.setMember_held | (simp only [held_mk, heldMem_dev]; done) | split | (simp only [held_mk, heldMem_dev])

@[simp] theorem Dev.endPoolCmd_held (o : Store) (a0 : Dev) (a1) (a2) (a3) (h0 : Held o a0) : Held o (@Dev.endPoolCmd a0 a1 a2 a3) := by
  unfold Dev.endPoolCmd
  repeat' first | assumption | intro _ | with_reducible apply held_ite | with_reducible apply held_forAll | with_reducible apply held_foldl | with_reducible apply held_when | with_reducible apply held_foldl_fst | with_reducible apply held_ite_fst | with_reducible apply held_ite_snd | with_reducible apply Dev.finishBg_held | (simp only [held_mk, heldMem_dev]; done) | split | (simp only [held_mk, heldMem_dev])

@[simp] theorem Dev.decide__held (o : Store) (a0 : Dev) (a1) (a2) (a3) (h0 : Held o a0) : Held o (@Dev.decide_ a0 a1 a2 a3) := by
  simp +contextual [Dev.decide_, *]

@[simp] theorem Dev.setRoot_held (o : Store) (a0 : Dev) (a1) (h0 : Held o a0) : Held o (@Dev.setRoot a0 a1) := by
  simp +contextual [Dev.setRoot, *]

@[simp] theorem Dev.rootAbort_held (o : Store) (a0 : Dev) (a1) (a2) (h0 : Held o a0) : Held o (@Dev.rootAbort a0 a1 a2) := by
  unfold Dev.rootAbort
  repeat' first | assumption | intro _ | with_reducible apply held_ite | with_reducible apply held_forAll | with_reducible apply held_foldl | with_reducible apply held_when | with_reducible apply held_foldl_fst | with_reducible apply held_ite_fst | with_reducible apply held_ite_snd | with_reducible apply Dev.broadcast_held | with_reducible apply Dev.setTxn_held | with_reducible apply Dev.decide__held | with_reducible apply Dev.touchTxn_held | with_reducible apply Dev.setRoot_held | (simp only [held_mk, heldMem_dev]; done) | split | (simp only [held_mk, heldMem_dev])

@[simp] theorem Dev.voteWindowExpiry_held (o : Store) (a0 : Dev) (h0 : Held o a0) : Held o (@Dev.voteWindowExpiry a0) := by
  unfold Dev.voteWindowExpiry
  repeat' first | assumption | intro _ | with_reducible apply held_ite | with_reducible apply held_forAll | with_reducible apply held_foldl | with_reducible apply held_when | with_reducible apply held_foldl_fst | with_reducible apply held_ite_fst | with_reducible apply held_ite_snd | with_reducible apply Dev.endPoolCmd_held | with_reducible apply Dev.rootAbort_held | (simp only [held_mk, heldMem_dev]; done) | split | (simp only [held_mk, heldMem_dev])

@[simp] theorem Dev.dropPending_held (o : Store) (a0 : Dev) (a1) (h0 : Held o a0) : Held o (@Dev.dropPending a0 a1) := by
  unfold Dev.dropPending
  repeat' first | assumption | intro _ | with_reducible apply held_ite | with_reducible apply held_forAll | with_reducible apply held_foldl | with_reducible apply held_when | with_reducible apply held_foldl_fst | with_reducible apply held_ite_fst | with_reducible apply held_ite_snd | with_reducible apply Dev.txnIdle_held | with_reducible apply Dev.setSlotState_held | (simp only [held_mk, heldMem_dev]; done) | split | (simp only [held_mk, heldMem_dev])

@[simp] theorem Dev.configurationPull_held (o : Store) (a0 : Dev) (a1) (a2) (h0 : Held o a0) : Held o (@Dev.configurationPull a0 a1 a2) := by
  simp (maxDischargeDepth := 20) +contextual [Dev.configurationPull, *]

@[simp] theorem Dev.startPull_held (o : Store) (a0 : Dev) (h0 : Held o a0) : Held o (@Dev.startPull a0) := by
  unfold Dev.startPull
  repeat' first | assumption | intro _ | with_reducible apply held_ite | with_reducible apply held_forAll | with_reducible apply held_foldl | with_reducible apply held_when | with_reducible apply held_foldl_fst | with_reducible apply held_ite_fst | with_reducible apply held_ite_snd | with_reducible apply Dev.sendPull_held | with_reducible apply Dev.setMember_held | (simp only [held_mk, heldMem_dev]; done) | split | (simp only [held_mk, heldMem_dev])

@[simp] theorem Dev.rootTarget_held (o : Store) (a0 : Dev) (h0 : Held o a0) : Held o (@Dev.rootTarget a0).1 := by
  simp (maxDischargeDepth := 20) +contextual [Dev.rootTarget, *]

@[simp] theorem Dev.rootAcked_held (o : Store) (a0 : Dev) (h0 : Held o a0) : Held o (@Dev.rootAcked a0) := by
  simp (maxDischargeDepth := 20) +contextual [Dev.rootAcked, *]

@[simp] theorem Dev.rootCommit_held (o : Store) (a0 : Dev) (h0 : Held o a0) : Held o (@Dev.rootCommit a0) := by
  unfold Dev.rootCommit
  repeat' first | assumption | intro _ | with_reducible apply held_ite | with_reducible apply held_forAll | with_reducible apply held_foldl | with_reducible apply held_when | with_reducible apply held_foldl_fst | with_reducible apply held_ite_fst | with_reducible apply held_ite_snd | with_reducible apply Dev.endPoolCmd_held | with_reducible apply Dev.rootAbort_held | with_reducible apply Dev.raise_held | with_reducible apply Dev.setTxn_held | with_reducible apply Dev.decide__held | with_reducible apply Dev.broadcast_held | with_reducible apply Dev.mapBg_held | with_reducible apply Dev.rootAcked_held | with_reducible apply Dev.setRoot_held | (with_reducible refine Dev.queueAct_held _ _ _ ?_ _ (by assumption))| (with_reducible refine Dev.queueAct_held _ _ _ _ ?_ _ (by assumption))| (with_reducible refine Dev.queueAct_held _ _ _ _ _ ?_ _ (by assumption))| (with_reducible refine Dev.queueAct_held _ _ _ _ _ _ ?_ _ (by assumption)) | (simp only [held_mk, heldMem_dev]; done) | split | (simp only [held_mk, heldMem_dev])

@[simp] theorem Dev.takeAck_held (o : Store) (a0 : Dev) (a1) (h0 : Held o a0) : Held o (@Dev.takeAck a0 a1) := by
  simp (maxDischargeDepth := 20) +contextual [Dev.takeAck, *]

@[simp] theorem Dev.commitWaitExpiry_held (o : Store) (a0 : Dev) (h0 : Held o a0) : Held o (@Dev.commitWaitExpiry a0) := by
  unfold Dev.commitWaitExpiry
  repeat' first | assumption | intro _ | with_reducible apply held_ite | with_reducible apply held_forAll | with_reducible apply held_foldl | with_reducible apply held_when | with_reducible apply held_foldl_fst | with_reducible apply held_ite_fst | with_reducible apply held_ite_snd | with_reducible apply Dev.setRoot_held | (simp only [held_mk, heldMem_dev]; done) | split | (simp only [held_mk, heldMem_dev])

@[simp] theorem Dev.poolCommit_held (o : Store) (a0 : Dev) (a1) (a2) (h0 : Held o a0) : Held o (@Dev.poolCommit a0 a1 a2) := by
  simp (maxDischargeDepth := 20) +contextual [Dev.poolCommit, *]

@[simp] theorem Dev.votedTimeout_held (o : Store) (a0 : Dev) (h0 : Held o a0) : Held o (@Dev.votedTimeout a0) := by
  simp (maxDischargeDepth := 20) +contextual [Dev.votedTimeout, *]

@[simp] theorem Dev.pullGiveUp_held (o : Store) (a0 : Dev) (h0 : Held o a0) : Held o (@Dev.pullGiveUp a0) := by
  simp (maxDischargeDepth := 20) +contextual [Dev.pullGiveUp, *]

@[simp] theorem Dev.takeVote_held (o : Store) (a0 : Dev) (a1) (h0 : Held o a0) : Held o (@Dev.takeVote a0 a1) := by
  simp (maxDischargeDepth := 20) +contextual [Dev.takeVote, *]

@[simp] theorem Dev.rootRevert_held (o : Store) (a0 : Dev) (h0 : Held o a0) : Held o (@Dev.rootRevert a0) := by
  unfold Dev.rootRevert
  try dsimp only
  repeat' first | assumption | intro _ | with_reducible apply held_ite | with_reducible apply held_forAll | with_reducible apply held_foldl | with_reducible apply held_when | with_reducible apply held_foldl_fst | with_reducible apply held_ite_fst | with_reducible apply held_ite_snd | with_reducible apply Dev.rootTarget_held | with_reducible apply Dev.endPoolCmd_held | with_reducible apply Dev.raise_held | with_reducible apply Dev.setRoot_held | with_reducible apply Dev.mapBg_held | with_reducible apply Dev.decide__held | with_reducible apply Dev.broadcast_held | (with_reducible refine Dev.queueAct_held _ _ _ ?_ _ (by assumption))| (with_reducible refine Dev.queueAct_held _ _ _ _ ?_ _ (by assumption))| (with_reducible refine Dev.queueAct_held _ _ _ _ _ ?_ _ (by assumption))| (with_reducible refine Dev.queueAct_held _ _ _ _ _ _ ?_ _ (by assumption)) | (simp only [held_mk, heldMem_dev]; done) | split | (simp only [held_mk, heldMem_dev]) | (simp_all; done)

@[simp] theorem Dev.rootPrepare_held (o : Store) (a0 : Dev) (h0 : Held o a0) : Held o (@Dev.rootPrepare a0) := by
  simp (maxDischargeDepth := 20) +contextual [Dev.rootPrepare, *]

@[simp] theorem Dev.poolBoundary_held (o : Store) (a0 : Dev) (a1 : Dev) (h0 : Held o a0) : Held o (@Dev.poolBoundary a0 a1) := by
  simp (maxDischargeDepth := 20) +contextual [Dev.poolBoundary, *]

@[simp] theorem Dev.cannotApply_held (o : Store) (a0 : Dev) (h0 : Held o a0) : Held o (@Dev.cannotApply a0) := by
  simp (maxDischargeDepth := 20) +contextual [Dev.cannotApply, *]

@[simp] theorem Dev.slotVerificationComplete_held (o : Store) (a0 : Dev) (h0 : Held o a0) : Held o (@Dev.slotVerificationComplete a0) := by
  unfold Dev.slotVerificationComplete
  refine held_ite _ _ _ _ h0 ?_
  split
  · simp [*]
  · rename_i n _ _
    have hc := Dev.checkSlot_held o a0 n h0
    split
    rename_i d c h
    rw [h] at hc
    refine held_ite _ _ _ _ (Dev.cannotApply_held _ _ hc) ?_
    split
    · simp (maxDischargeDepth := 20) [*]
    · rename_i hq
      have hk := Dev.queueAct_held _ _ _ _ _ hc _ hq
      extract_lets d2
      have h2 : Held o d2 := held_ite _ _ _ _ (Dev.setTxn_held _ _ _ (Dev.freeRuns_held _ _ _ hk)) hk
      exact h2

@[simp] theorem Dev.rootAgain_held (o : Store) (a0 : Dev) (h0 : Held o a0) : Held o (@Dev.rootAgain a0) := by
  simp (maxDischargeDepth := 20) +contextual [Dev.rootAgain, *]

@[simp] theorem Dev.configurationPullReply_held (o : Store) (a0 : Dev) (a1) (a2) (h0 : Held o a0) : Held o (@Dev.configurationPullReply a0 a1 a2) := by
  unfold Dev.configurationPullReply
  repeat' first | assumption | intro _ | with_reducible apply held_ite | with_reducible apply held_forAll | with_reducible apply held_foldl | with_reducible apply held_when | with_reducible apply held_foldl_fst | with_reducible apply held_ite_fst | with_reducible apply held_ite_snd | with_reducible apply Dev.setMember_held | with_reducible apply Dev.dropPending_held | with_reducible apply Dev.cannotApply_held | (simp only [held_mk, heldMem_dev]; done) | split | (simp only [held_mk, heldMem_dev])

@[simp] theorem Dev.hearPool_held (o : Store) (a0 : Dev) (a1) (a2) (a3) (a4 : Dev → Dev) (h0 : Held o a0) (h4 : ∀ y0, Held o y0 → Held o (a4 y0)) : Held o (@Dev.hearPool a0 a1 a2 a3 a4) := by
  unfold Dev.hearPool
  split
  · exact h0
  · rename_i d hd
    have hk := Dev.hear_held _ _ _ _ _ h0 _ hd
    exact held_ite _ _ _ _ hk (h4 _ (Dev.setMember_held _ _ _ hk))

@[simp] theorem Dev.poolCommitBroadcast_held (o : Store) (a0 : Dev) (a1) (a2) (h0 : Held o a0) : Held o (@Dev.poolCommitBroadcast a0 a1 a2) := by
  unfold Dev.poolCommitBroadcast
  repeat' first | assumption | intro _ | with_reducible apply held_ite | with_reducible apply held_forAll | with_reducible apply held_foldl | with_reducible apply held_when | with_reducible apply held_foldl_fst | with_reducible apply held_ite_fst | with_reducible apply held_ite_snd | with_reducible apply Dev.hearPool_held | with_reducible apply Dev.ack_held | with_reducible apply Dev.raise_held | with_reducible apply Dev.setMember_held | with_reducible apply Dev.setTxn_held | (with_reducible refine Dev.queueAct_held _ _ _ ?_ _ (by assumption))| (with_reducible refine Dev.queueAct_held _ _ _ _ ?_ _ (by assumption))| (with_reducible refine Dev.queueAct_held _ _ _ _ _ ?_ _ (by assumption))| (with_reducible refine Dev.queueAct_held _ _ _ _ _ _ ?_ _ (by assumption)) | (simp only [held_mk, heldMem_dev]; done) | split | (simp only [held_mk, heldMem_dev])

@[simp] theorem Dev.poolAbort_held (o : Store) (a0 : Dev) (a1) (a2) (h0 : Held o a0) : Held o (@Dev.poolAbort a0 a1 a2) := by
  simp (maxDischargeDepth := 20) +contextual [Dev.poolAbort, *]

@[simp] theorem Dev.poolPrepare_held (o : Store) (a0 : Dev) (a1) (a2) (h0 : Held o a0) : Held o (@Dev.poolPrepare a0 a1 a2) := by
  simp (maxDischargeDepth := 20) +contextual [Dev.poolPrepare, *]

@[simp] theorem Dev.poolRevert_held (o : Store) (a0 : Dev) (a1) (a2) (h0 : Held o a0) : Held o (@Dev.poolRevert a0 a1 a2) := by
  unfold Dev.poolRevert
  refine Dev.hearPool_held _ _ _ _ _ _ h0 fun d hd => held_ite _ _ _ _ ?_ (held_ite _ _ _ _ (Dev.ack_held _ _ _ _ _ _ _ (Dev.dropPending_held _ _ _ hd)) (Dev.ack_held _ _ _ _ _ _ _ (Dev.raise_held _ _ _ _ _ hd)))
  have hc := Dev.findPrev_held o d true hd
  split
  rename_i d2 f h
  rw [h] at hc
  split
  · exact Dev.ack_held _ _ _ _ _ _ _ (Dev.raise_held _ _ _ _ _ hc)
  · extract_lets late
    split
    · exact Dev.ack_held _ _ _ _ _ _ _ (Dev.raise_held _ _ _ _ _ hc)
    · rename_i hq
      have hk := Dev.queueAct_held _ _ _ _ _ hc _ hq
      exact Dev.ack_held _ _ _ _ _ _ _ (held_ite _ _ _ _ (Dev.raise_held _ _ _ _ _ hk) hk)

end Sys2Proof.Machine
end

