-- ==== Sys2Proof/Laws/HeldSecurity.lean ====
section
/-! SUPPORT. The operations that touch no stored data: the DRAM, the cistern, the well map and the marks of poisoned granules are as they were
after each of them. -/

namespace Sys2Proof.Machine

open Sys2Proof

set_option linter.unreachableTactic false
set_option linter.unusedTactic false
set_option linter.unusedSimpArgs false

@[simp] theorem Dev.completeBg_held (o : Store) (a0 : Dev) (h0 : Held o a0) : Held o (@Dev.completeBg a0) := by
  unfold Dev.completeBg
  repeat' first | assumption | intro _ | split | with_reducible apply held_forAll | with_reducible apply held_foldl | with_reducible apply held_when | with_reducible apply held_foldl_fst | with_reducible apply held_ite | with_reducible apply held_ite_fst | with_reducible apply forAll_held | with_reducible apply Dev.reply_held | (simp only [held_mk, heldMem_dev])

@[simp] theorem Dev.spdm_held (o : Store) (a0 : Dev) (a1) (a2) (h0 : Held o a0) (h2 : ∀ y0, Held o y0 → Held o (a2 y0)) : Held o (@Dev.spdm a0 a1 a2) := by
  unfold Dev.spdm
  (repeat' split) <;> simp +contextual [*]

@[simp] theorem Dev.setSec_held (o : Store) (a0 : Dev) (a1) (h0 : Held o a0) : Held o (@Dev.setSec a0 a1) := by
  simp +contextual [Dev.setSec, *]

@[simp] theorem Dev.negotiateAlgorithms_held (o : Store) (a0 : Dev) (a1) (a2) (h0 : Held o a0) : Held o (@Dev.negotiateAlgorithms a0 a1 a2) := by
  unfold Dev.negotiateAlgorithms
  repeat' first | assumption | intro _ | split | with_reducible apply held_forAll | with_reducible apply held_foldl | with_reducible apply held_when | with_reducible apply held_foldl_fst | with_reducible apply held_ite | with_reducible apply held_ite_fst | with_reducible apply Dev.spdm_held | with_reducible apply Dev.emit_held | with_reducible apply Dev.setSec_held | (simp only [held_mk, heldMem_dev])

@[simp] theorem Dev.secured_held (o : Store) (a0 : Dev) (a1) (a2) (h0 : Held o a0) (h2 : ∀ y0, Held o y0 → Held o (a2 y0)) : Held o (@Dev.secured a0 a1 a2) := by
  unfold Dev.secured
  try dsimp only
  repeat' first | assumption | intro _ | with_reducible apply held_ite | with_reducible apply held_forAll | with_reducible apply held_foldl | with_reducible apply held_when | with_reducible apply held_foldl_fst | with_reducible apply held_ite_fst | with_reducible apply held_ite_snd | with_reducible apply Dev.spdm_held | with_reducible apply Dev.wake_held | with_reducible apply Dev.emit_held | (simp only [held_mk, heldMem_dev]; done) | split | (simp only [held_mk, heldMem_dev]) | (simp_all; done)

@[simp] theorem Dev.keyUpdate_held (o : Store) (a0 : Dev) (a1) (h0 : Held o a0) : Held o (@Dev.keyUpdate a0 a1) := by
  simp +contextual [Dev.keyUpdate, *]

@[simp] theorem Dev.handshake_held (o : Store) (a0 : Dev) (a1) (a2) (h0 : Held o a0) (h2 : ∀ y0, Held o y0 → Held o (a2 y0)) : Held o (@Dev.handshake a0 a1 a2) := by
  unfold Dev.handshake
  try dsimp only
  repeat' first | assumption | intro _ | with_reducible apply held_ite | with_reducible apply held_forAll | with_reducible apply held_foldl | with_reducible apply held_when | with_reducible apply held_foldl_fst | with_reducible apply held_ite_fst | with_reducible apply held_ite_snd | with_reducible apply Dev.spdm_held | with_reducible apply Dev.emit_held | (simp only [held_mk, heldMem_dev]; done) | split | (simp only [held_mk, heldMem_dev]) | (simp_all; done)

@[simp] theorem Dev.setSession_held (o : Store) (a0 : Dev) (a1) (a2) (h0 : Held o a0) : Held o (@Dev.setSession a0 a1 a2) := by
  simp +contextual [Dev.setSession, *]

@[simp] theorem Dev.dropSession_held (o : Store) (a0 : Dev) (a1) (h0 : Held o a0) : Held o (@Dev.dropSession a0 a1) := by
  simp +contextual [Dev.dropSession, *]

@[simp] theorem Dev.finish_held (o : Store) (a0 : Dev) (a1) (a2) (h0 : Held o a0) : Held o (@Dev.finish a0 a1 a2) := by
  unfold Dev.finish
  repeat' first | assumption | intro _ | with_reducible apply held_ite | with_reducible apply held_forAll | with_reducible apply held_foldl | with_reducible apply held_when | with_reducible apply held_foldl_fst | with_reducible apply held_ite_fst | with_reducible apply held_ite_snd | with_reducible apply Dev.handshake_held | with_reducible apply Dev.emit_held | with_reducible apply Dev.setSession_held | with_reducible apply Dev.dropSession_held | (simp only [held_mk, heldMem_dev]; done) | split | (simp only [held_mk, heldMem_dev])

@[simp] theorem Dev.keyReply_held (o : Store) (a0 : Dev) (a1) (a2) (a3) (a4) (h0 : Held o a0) : Held o (@Dev.keyReply a0 a1 a2 a3 a4) := by
  simp (maxDischargeDepth := 20) +contextual [Dev.keyReply, *]

@[simp] theorem Dev.keyLive_held (o : Store) (a0 : Dev) (a1) (h0 : Held o a0) : Held o (@Dev.keyLive a0 a1) := by
  unfold Dev.keyLive
  repeat' first | assumption | intro _ | with_reducible apply held_ite | with_reducible apply held_forAll | with_reducible apply held_foldl | with_reducible apply held_when | with_reducible apply held_foldl_fst | with_reducible apply held_ite_fst | with_reducible apply held_ite_snd | with_reducible apply Dev.setKd_held | with_reducible apply Dev.raiseI_held | with_reducible apply Dev.keyReply_held | (simp only [held_mk, heldMem_dev]; done) | split | (simp only [held_mk, heldMem_dev])

@[simp] theorem Dev.unlock_held (o : Store) (a0 : Dev) (a1) (a2) (h0 : Held o a0) : Held o (@Dev.unlock a0 a1 a2) := by
  simp (maxDischargeDepth := 20) +contextual [Dev.unlock, *]

@[simp] theorem Dev.spdmGetVersion_held (o : Store) (a0 : Dev) (a1) (h0 : Held o a0) : Held o (@Dev.spdmGetVersion a0 a1) := by
  simp (maxDischargeDepth := 20) +contextual [Dev.spdmGetVersion, *]

@[simp] theorem Dev.abandonParts_held (o : Store) (a0 : Dev) (h0 : Held o a0) : Held o (@Dev.abandonParts a0) := by
  unfold Dev.abandonParts
  repeat' first | assumption | intro _ | with_reducible apply held_ite | with_reducible apply held_forAll | with_reducible apply held_foldl | with_reducible apply held_when | with_reducible apply held_foldl_fst | with_reducible apply held_ite_fst | with_reducible apply held_ite_snd | with_reducible apply forAll_held | with_reducible apply Dev.abortEvacs_held | with_reducible apply Dev.retireBack_held | with_reducible apply Dev.rejoinBack_held | with_reducible apply Dev.setDom_held | (simp only [held_mk, heldMem_dev]; done) | split | (simp only [held_mk, heldMem_dev])

@[simp] theorem Dev.domainKeyEmpty_held (o : Store) (a0 : Dev) (a1) (h0 : Held o a0) : Held o (@Dev.domainKeyEmpty a0 a1) := by
  simp (maxDischargeDepth := 20) +contextual [Dev.domainKeyEmpty, *]

@[simp] theorem Dev.negotiated_held (o : Store) (a0 : Dev) (a1) (a2) (h0 : Held o a0) (h2 : ∀ y0, Held o y0 → Held o (a2 y0)) : Held o (@Dev.negotiated a0 a1 a2) := by
  simp (maxDischargeDepth := 20) +contextual [Dev.negotiated, *]

@[simp] theorem Dev.closeScopes_held (o : Store) (a0 : Dev) (h0 : Held o a0) : Held o (@Dev.closeScopes a0) := by
  simp (maxDischargeDepth := 20) +contextual [Dev.closeScopes, *]

@[simp] theorem Dev.endSession_held (o : Store) (a0 : Dev) (a1) (h0 : Held o a0) : Held o (@Dev.endSession a0 a1) := by
  simp (maxDischargeDepth := 20) +contextual [Dev.endSession, *]

@[simp] theorem Dev.secMessage_held (o : Store) (a0 : Dev) (a1) (a2) (a3) (a4) (a5) (a6) (h0 : Held o a0) (h6 : ∀ y0, Held o y0 → Held o (a6 y0).2) : Held o (@Dev.secMessage a0 a1 a2 a3 a4 a5 a6) := by
  simp (maxDischargeDepth := 20) +contextual [Dev.secMessage, *]

@[simp] theorem Dev.burnOwner_held (o : Store) (a0 : Dev) (a1) (a2) (h0 : Held o a0) : Held o (@Dev.burnOwner a0 a1 a2) := by
  unfold Dev.burnOwner
  exact Dev.raise_held _ _ _ _ _ h0

@[simp] theorem Dev.transferOwnership_held (o : Store) (a0 : Dev) (a1) (a2) (h0 : Held o a0) : Held o (@Dev.transferOwnership a0 a1 a2) := by
  unfold Dev.transferOwnership
  repeat' first | assumption | intro _ | with_reducible apply held_ite | with_reducible apply held_forAll | with_reducible apply held_foldl | with_reducible apply held_when | with_reducible apply held_foldl_fst | with_reducible apply held_ite_fst | with_reducible apply held_ite_snd | with_reducible apply Dev.secMessage_held | with_reducible refine Dev.burnOwner_held _ _ _ _ ?_ | (simp only [held_mk, heldMem_dev]; done) | split | (simp only [held_mk, heldMem_dev])

@[simp] theorem Dev.abandonBg_held (o : Store) (a0 : Dev) (h0 : Held o a0) : Held o (@Dev.abandonBg a0) := by
  simp (maxDischargeDepth := 20) +contextual [Dev.abandonBg, *]

@[simp] theorem Dev.abandonRest_held (o : Store) (a0 : Dev) (h0 : Held o a0) : Held o (@Dev.abandonRest a0) := by
  unfold Dev.abandonRest
  repeat' first | assumption | intro _ | with_reducible apply held_ite | with_reducible apply held_forAll | with_reducible apply held_foldl | with_reducible apply held_when | with_reducible apply held_foldl_fst | with_reducible apply held_ite_fst | with_reducible apply held_ite_snd | with_reducible apply forAll_held | with_reducible apply Dev.wake_held | with_reducible apply Dev.setHead_held | (simp only [held_mk, heldMem_dev]; done) | split | (simp only [held_mk, heldMem_dev])

@[simp] theorem Dev.getDigests_held (o : Store) (a0 : Dev) (a1) (h0 : Held o a0) : Held o (@Dev.getDigests a0 a1) := by
  simp (maxDischargeDepth := 20) +contextual [Dev.getDigests, *]

@[simp] theorem Dev.scopeBoundary_held (o : Store) (a0 : Dev) (a1 : Dev) (h0 : Held o a0) : Held o (@Dev.scopeBoundary a0 a1) := by
  unfold Dev.scopeBoundary
  repeat' first | assumption | intro _ | with_reducible apply held_ite | with_reducible apply held_forAll | with_reducible apply held_foldl | with_reducible apply held_when | with_reducible apply held_foldl_fst | with_reducible apply held_ite_fst | with_reducible apply held_ite_snd | with_reducible apply Dev.setSec_held | with_reducible apply Dev.raiseI_held | (simp only [held_mk, heldMem_dev]; done) | split | (simp only [held_mk, heldMem_dev])

@[simp] theorem Dev.floorRise_held (o : Store) (a0 : Dev) (h0 : Held o a0) : Held o (@Dev.floorRise a0) := by
  simp (maxDischargeDepth := 20) +contextual [Dev.floorRise, *]

@[simp] theorem Dev.claimOwnership_held (o : Store) (a0 : Dev) (a1) (a2) (h0 : Held o a0) : Held o (@Dev.claimOwnership a0 a1 a2) := by
  simp (maxDischargeDepth := 20) +contextual [Dev.claimOwnership, *]

@[simp] theorem Dev.decommission_held (o : Store) (a0 : Dev) (a1) (a2) (h0 : Held o a0) : Held o (@Dev.decommission a0 a1 a2) := by
  unfold Dev.decommission
  refine Dev.secMessage_held _ _ _ _ _ _ _ _ h0 fun d hd => ?_
  split
  · exact held_ite_snd _ _ _ _ hd (held_ite_snd _ _ _ _ hd hd)
  · exact hd

@[simp] theorem Dev.unlockLockoutExpiry_held (o : Store) (a0 : Dev) (h0 : Held o a0) : Held o (@Dev.unlockLockoutExpiry a0) := by
  simp (maxDischargeDepth := 20) +contextual [Dev.unlockLockoutExpiry, *]

@[simp] theorem Dev.getCertificate_held (o : Store) (a0 : Dev) (a1) (a2) (a3) (a4) (h0 : Held o a0) : Held o (@Dev.getCertificate a0 a1 a2 a3 a4) := by
  simp (maxDischargeDepth := 20) +contextual [Dev.getCertificate, *]

@[simp] theorem Dev.debugScopeExpiry_held (o : Store) (a0 : Dev) (h0 : Held o a0) : Held o (@Dev.debugScopeExpiry a0) := by
  simp (maxDischargeDepth := 20) +contextual [Dev.debugScopeExpiry, *]

@[simp] theorem Dev.deliverEncapsulatedResponse_held (o : Store) (a0 : Dev) (a1) (a2) (a3) (h0 : Held o a0) : Held o (@Dev.deliverEncapsulatedResponse a0 a1 a2 a3) := by
  unfold Dev.deliverEncapsulatedResponse
  repeat' first | assumption | intro _ | with_reducible apply held_ite | with_reducible apply held_forAll | with_reducible apply held_foldl | with_reducible apply held_when | with_reducible apply held_foldl_fst | with_reducible apply held_ite_fst | with_reducible apply held_ite_snd | with_reducible apply Dev.handshake_held | with_reducible apply Dev.emit_held | with_reducible apply Dev.setSession_held | with_reducible apply Dev.raise_held | with_reducible apply Dev.dropSession_held | (simp only [held_mk, heldMem_dev]; done) | split | (simp only [held_mk, heldMem_dev])

@[simp] theorem Dev.relock_held (o : Store) (a0 : Dev) (a1) (a2) (h0 : Held o a0) : Held o (@Dev.relock a0 a1 a2) := by
  simp (maxDischargeDepth := 20) +contextual [Dev.relock, *]

@[simp] theorem Dev.challenge_held (o : Store) (a0 : Dev) (a1) (a2) (a3) (h0 : Held o a0) : Held o (@Dev.challenge a0 a1 a2 a3) := by
  simp (maxDischargeDepth := 20) +contextual [Dev.challenge, *]

@[simp] theorem Dev.getCapabilities_held (o : Store) (a0 : Dev) (a1) (h0 : Held o a0) : Held o (@Dev.getCapabilities a0 a1) := by
  simp (maxDischargeDepth := 20) +contextual [Dev.getCapabilities, *]

@[simp] theorem Dev.getChallenge_held (o : Store) (a0 : Dev) (a1) (a2) (h0 : Held o a0) : Held o (@Dev.getChallenge a0 a1 a2) := by
  simp (maxDischargeDepth := 20) +contextual [Dev.getChallenge, *]

@[simp] theorem Dev.getEncapsulatedRequest_held (o : Store) (a0 : Dev) (a1) (h0 : Held o a0) : Held o (@Dev.getEncapsulatedRequest a0 a1) := by
  simp (maxDischargeDepth := 20) +contextual [Dev.getEncapsulatedRequest, *]

@[simp] theorem Dev.heartbeat_held (o : Store) (a0 : Dev) (a1) (h0 : Held o a0) : Held o (@Dev.heartbeat a0 a1) := by
  simp (maxDischargeDepth := 20) +contextual [Dev.heartbeat, *]

@[simp] theorem Dev.getMeasurements_held (o : Store) (a0 : Dev) (a1) (a2) (h0 : Held o a0) : Held o (@Dev.getMeasurements a0 a1 a2) := by
  simp (maxDischargeDepth := 20) +contextual [Dev.getMeasurements, *]

@[simp] theorem Dev.keyExchange_held (o : Store) (a0 : Dev) (a1) (h0 : Held o a0) : Held o (@Dev.keyExchange a0 a1) := by
  simp (maxDischargeDepth := 20) +contextual [Dev.keyExchange, *]

@[simp] theorem Dev.setCertificate_held (o : Store) (a0 : Dev) (a1) (a2) (a3) (h0 : Held o a0) : Held o (@Dev.setCertificate a0 a1 a2 a3) := by
  simp (maxDischargeDepth := 20) +contextual [Dev.setCertificate, *]

@[simp] theorem Dev.revokeVendorKey_held (o : Store) (a0 : Dev) (a1) (a2) (h0 : Held o a0) : Held o (@Dev.revokeVendorKey a0 a1 a2) := by
  unfold Dev.revokeVendorKey
  refine Dev.secMessage_held _ _ _ _ _ _ _ _ h0 fun d hd => ?_
  extract_lets k j key
  refine held_ite_snd _ _ _ _ hd (held_ite_snd _ _ _ _ hd (held_ite_snd _ _ _ _ hd ?_))
  exact Dev.raise_held _ _ _ _ _ hd

@[simp] theorem Dev.postQueue_held (o : Store) (a0 : Dev) (a1) (h0 : Held o a0) : Held o (@Dev.postQueue a0 a1) := by
  induction a1 generalizing a0 with
  | nil => exact h0
  | cons x xs ih =>
    obtain ⟨k, l, r⟩ := x
    unfold Dev.postQueue
    have hc := Dev.post_held o a0 k l r h0
    split
    rename_i d x h
    rw [h] at hc
    exact ih _ (held_foldl _ _ _ _ hc fun d x hd => Dev.raise1_held _ _ _ _ hd)

@[simp] theorem Dev.deliverQueue_held (o : Store) (a0 : Dev) (h0 : Held o a0) : Held o (@Dev.deliverQueue a0) := by
  unfold Dev.deliverQueue
  repeat' first | assumption | intro _ | with_reducible apply held_ite | with_reducible apply held_forAll | with_reducible apply held_foldl | with_reducible apply held_when | with_reducible apply held_foldl_fst | with_reducible apply held_ite_fst | with_reducible apply held_ite_snd | with_reducible apply Dev.postQueue_held | with_reducible apply Dev.raise_held | (simp only [held_mk, heldMem_dev]; done) | split | (simp only [held_mk, heldMem_dev])

@[simp] theorem Dev.coresResume_held (o : Store) (a0 : Dev) (h0 : Held o a0) : Held o (@Dev.coresResume a0) := by
  unfold Dev.coresResume
  refine held_ite _ _ _ _ h0 (held_ite _ _ _ _ ?_ ?_)
  · exact Dev.raise_held _ _ _ _ _ h0
  · extract_lets c d1 d2 d3 gone g d4
    have h1 : Held o d1 := h0
    clear_value d1
    have h2 : Held o d2 := held_forAll _ _ _ _ h1 fun d x hd => held_ite _ _ _ _ (Dev.setSlotState_held _ _ _ _ hd) hd
    clear_value d2
    have h3 : Held o d3 := Dev.rootAgain_held _ _ (Dev.completeBg_held _ _ (Dev.deliverQueue_held _ _ h2))
    clear_value d3
    have h4 : Held o d4 := held_forAll _ _ _ _ h3 fun d x hd => Dev.reply_held _ _ _ _ _ _ hd
    clear_value d4
    exact held_ite _ _ _ _ (Dev.startPull_held _ _ h4) h4

@[simp] theorem Dev.coresReset_held (o : Store) (a0 : Dev) (h0 : Held o a0) : Held o (@Dev.coresReset a0) := by
  unfold Dev.coresReset
  extract_lets recent d d2 unq c3 d3 c4 d4 fr cc d5 co gs d6 co2
  have h2 : Held o d2 := Dev.setSec_held _ _ _ (Dev.closeScopes_held _ _ (Dev.abandonBg_held _ _ (Dev.abandonParts_held _ _ (Dev.abandonRest_held _ _ h0))))
  have h3 : Held o d3 := held_ite _ _ _ _ h2 h2
  have h4 : Held o d4 := held_ite _ _ _ _ (Dev.txnIdle_held _ _ h3) h3
  have h5 : Held o d5 := by
    simp only [d5]
    split
    · exact Dev.txnIdle_held _ _ h4
    · exact Dev.txnIdle_held _ _ h4
    · exact Dev.freeRuns_held _ _ _ h4
    · exact h4
  have h6 : Held o d6 := h5
  exact held_ite _ _ _ _ (Dev.raise_held _ _ _ _ _ h6) h6

@[simp] theorem Dev.coreWatchdogExpiry_held (o : Store) (a0 : Dev) (h0 : Held o a0) : Held o (@Dev.coreWatchdogExpiry a0) := by
  unfold Dev.coreWatchdogExpiry
  repeat' first | assumption | intro _ | with_reducible apply held_ite | with_reducible apply held_forAll | with_reducible apply held_foldl | with_reducible apply held_when | with_reducible apply held_foldl_fst | with_reducible apply held_ite_fst | with_reducible apply held_ite_snd | with_reducible apply Dev.coresReset_held | with_reducible apply Dev.raise_held | (simp only [held_mk, heldMem_dev]; done) | split | (simp only [held_mk, heldMem_dev])

@[simp] theorem Dev.uncorrectableFetch_held (o : Store) (a0 : Dev) (h0 : Held o a0) : Held o (@Dev.uncorrectableFetch a0) := by
  unfold Dev.uncorrectableFetch
  repeat' first | assumption | intro _ | with_reducible apply held_ite | with_reducible apply held_forAll | with_reducible apply held_foldl | with_reducible apply held_when | with_reducible apply held_foldl_fst | with_reducible apply held_ite_fst | with_reducible apply held_ite_snd | with_reducible apply Dev.coresReset_held | with_reducible apply Dev.raise_held | (simp only [held_mk, heldMem_dev]; done) | split | (simp only [held_mk, heldMem_dev])

@[simp] theorem Dev.controlComplexReset_held (o : Store) (a0 : Dev) (a1) (h0 : Held o a0) : Held o (@Dev.controlComplexReset a0 a1) := by
  simp (maxDischargeDepth := 20) +contextual [Dev.controlComplexReset, *]

@[simp] theorem Dev.lockstepMismatch_held (o : Store) (a0 : Dev) (h0 : Held o a0) : Held o (@Dev.lockstepMismatch a0) := by
  unfold Dev.lockstepMismatch
  repeat' first | assumption | intro _ | with_reducible apply held_ite | with_reducible apply held_forAll | with_reducible apply held_foldl | with_reducible apply held_when | with_reducible apply held_foldl_fst | with_reducible apply held_ite_fst | with_reducible apply held_ite_snd | with_reducible apply Dev.coresReset_held | with_reducible apply Dev.raise_held | (simp only [held_mk, heldMem_dev]; done) | split | (simp only [held_mk, heldMem_dev])

end Sys2Proof.Machine
end

