-- ==== Sys2Proof/Laws/HeldPower.lean ====
section
/-! SUPPORT. The operations that touch no stored data: the DRAM, the cistern, the well map and the marks of poisoned granules are as they were
after each of them. -/

namespace Sys2Proof.Machine

open Sys2Proof

set_option linter.unreachableTactic false
set_option linter.unusedTactic false
set_option linter.unusedSimpArgs false

@[simp] theorem Dev.noteRefuser_held (o : Store) (a0 : Dev) (a1) (a2) (a3) (h0 : Held o a0) : Held o (@Dev.noteRefuser a0 a1 a2 a3) := by
  simp +contextual [Dev.noteRefuser, *]

@[simp] theorem Dev.refuseEntry_held (o : Store) (a0 : Dev) (a1) (a2) (a3) (a4) (h0 : Held o a0) : Held o (@Dev.refuseEntry a0 a1 a2 a3 a4) := by
  unfold Dev.refuseEntry
  repeat' first | assumption | intro _ | split | with_reducible apply held_forAll | with_reducible apply held_foldl | with_reducible apply held_when | with_reducible apply held_foldl_fst | with_reducible apply held_ite | with_reducible apply held_ite_fst | with_reducible apply Dev.noteRefuser_held | with_reducible apply Dev.setPwr_held | with_reducible apply Dev.raiseI_held | (simp only [held_mk, heldMem_dev])

@[simp] theorem Dev.quiesceTimeout_held (o : Store) (a0 : Dev) (h0 : Held o a0) : Held o (@Dev.quiesceTimeout a0) := by
  unfold Dev.quiesceTimeout
  repeat' first | assumption | intro _ | split | with_reducible apply held_forAll | with_reducible apply held_foldl | with_reducible apply held_when | with_reducible apply held_foldl_fst | with_reducible apply held_ite | with_reducible apply held_ite_fst | with_reducible apply Dev.refuseEntry_held | with_reducible apply Dev.raise_held | (simp only [held_mk, heldMem_dev])

@[simp] theorem Dev.exitTimes_held (o : Store) (a0 : Dev) (h0 : Held o a0) : Held o (@Dev.exitTimes a0) := by
  simp +contextual only [Dev.exitTimes]
  (repeat' split) <;> simp +contextual [*]

@[simp] theorem Dev.setRail_held (o : Store) (a0 : Dev) (a1) (a2) (h0 : Held o a0) : Held o (@Dev.setRail a0 a1 a2) := by
  simp +contextual [Dev.setRail, *]

@[simp] theorem Dev.endHeadRest_held (o : Store) (a0 : Dev) (a1) (h0 : Held o a0) : Held o (@Dev.endHeadRest a0 a1) := by
  unfold Dev.endHeadRest
  repeat' first | assumption | intro _ | with_reducible apply held_ite | with_reducible apply held_forAll | with_reducible apply held_foldl | with_reducible apply held_when | with_reducible apply held_foldl_fst | with_reducible apply held_ite_fst | with_reducible apply held_ite_snd | with_reducible apply Dev.setHead_held | with_reducible apply Dev.wake_held | (simp only [held_mk, heldMem_dev]; done) | split | (simp only [held_mk, heldMem_dev])

@[simp] theorem Dev.sleepReplyTimeout_held (o : Store) (a0 : Dev) (h0 : Held o a0) : Held o (@Dev.sleepReplyTimeout a0) := by
  unfold Dev.sleepReplyTimeout
  repeat' first | assumption | intro _ | with_reducible apply held_ite | with_reducible apply held_forAll | with_reducible apply held_foldl | with_reducible apply held_when | with_reducible apply held_foldl_fst | with_reducible apply held_ite_fst | with_reducible apply held_ite_snd | with_reducible apply Dev.refuseEntry_held | with_reducible apply Dev.setPort_held | (simp only [held_mk, heldMem_dev]; done) | split | (simp only [held_mk, heldMem_dev])

@[simp] theorem Dev.countGate_held (o : Store) (a0 : Dev) (a1) (h0 : Held o a0) : Held o (@Dev.countGate a0 a1) := by
  unfold Dev.countGate
  repeat' first | assumption | intro _ | with_reducible apply held_ite | with_reducible apply held_forAll | with_reducible apply held_foldl | with_reducible apply held_when | with_reducible apply held_foldl_fst | with_reducible apply held_ite_fst | with_reducible apply held_ite_snd | with_reducible apply Dev.raise_held | (simp only [held_mk, heldMem_dev]; done) | split | (simp only [held_mk, heldMem_dev])

@[simp] theorem Dev.endRest_held (o : Store) (a0 : Dev) (a1) (a2) (a3) (h0 : Held o a0) : Held o (@Dev.endRest a0 a1 a2 a3) := by
  unfold Dev.endRest
  repeat' first | assumption | intro _ | with_reducible apply held_ite | with_reducible apply held_forAll | with_reducible apply held_foldl | with_reducible apply held_when | with_reducible apply held_foldl_fst | with_reducible apply held_ite_fst | with_reducible apply held_ite_snd | with_reducible apply Dev.finishBg_held | (simp only [held_mk, heldMem_dev]; done) | split | (simp only [held_mk, heldMem_dev])

@[simp] theorem Dev.guestUp_held (o : Store) (a0 : Dev) (h0 : Held o a0) : Held o (@Dev.guestUp a0) := by
  unfold Dev.guestUp
  repeat' first | assumption | intro _ | with_reducible apply held_ite | with_reducible apply held_forAll | with_reducible apply held_foldl | with_reducible apply held_when | with_reducible apply held_foldl_fst | with_reducible apply held_ite_fst | with_reducible apply held_ite_snd | with_reducible apply forAll_held | with_reducible apply Dev.setMod_held | with_reducible apply Dev.emit_held | (simp only [held_mk, heldMem_dev]; done) | split | (simp only [held_mk, heldMem_dev])

@[simp] theorem Dev.askSleep_held (o : Store) (a0 : Dev) (a1) (h0 : Held o a0) : Held o (@Dev.askSleep a0 a1) := by
  simp (maxDischargeDepth := 20) +contextual [Dev.askSleep, *]

@[simp] theorem Dev.reachState_held (o : Store) (a0 : Dev) (h0 : Held o a0) : Held o (@Dev.reachState a0) := by
  simp (maxDischargeDepth := 20) +contextual [Dev.reachState, *]

@[simp] theorem Dev.endStep_held (o : Store) (a0 : Dev) (a1) (h0 : Held o a0) : Held o (@Dev.endStep a0 a1) := by
  unfold Dev.endStep
  repeat' first | assumption | intro _ | with_reducible apply held_ite | with_reducible apply held_forAll | with_reducible apply held_foldl | with_reducible apply held_when | with_reducible apply held_foldl_fst | with_reducible apply held_ite_fst | with_reducible apply held_ite_snd | with_reducible apply Dev.refuseEntry_held | with_reducible apply Dev.countGate_held | with_reducible apply Dev.setPwr_held | (simp only [held_mk, heldMem_dev]; done) | split | (simp only [held_mk, heldMem_dev])

@[simp] theorem Dev.sleepLinks_held (o : Store) (a0 : Dev) (h0 : Held o a0) : Held o (@Dev.sleepLinks a0) := by
  simp (maxDischargeDepth := 20) +contextual [Dev.sleepLinks, *]

@[simp] theorem Dev.entryRetry_held (o : Store) (a0 : Dev) (h0 : Held o a0) : Held o (@Dev.entryRetry a0) := by
  simp (maxDischargeDepth := 20) +contextual [Dev.entryRetry, *]

@[simp] theorem Dev.ready_held (o : Store) (a0 : Dev) (h0 : Held o a0) : Held o (@Dev.ready a0) := by
  unfold Dev.ready
  repeat' first | assumption | intro _ | with_reducible apply held_ite | with_reducible apply held_forAll | with_reducible apply held_foldl | with_reducible apply held_when | with_reducible apply held_foldl_fst | with_reducible apply held_ite_fst | with_reducible apply held_ite_snd  | (simp only [held_mk, heldMem_dev]; done) | split | (simp only [held_mk, heldMem_dev])

@[simp] theorem Dev.wakeDone_held (o : Store) (a0 : Dev) (h0 : Held o a0) : Held o (@Dev.wakeDone a0) := by
  simp (maxDischargeDepth := 20) +contextual [Dev.wakeDone, *]

@[simp] theorem Dev.ungate_held (o : Store) (a0 : Dev) (a1) (a2) (h0 : Held o a0) (h2 : ∀ y0, Held o y0 → Held o (a2 y0)) : Held o (@Dev.ungate a0 a1 a2) := by
  simp (maxDischargeDepth := 20) +contextual [Dev.ungate, *]

@[simp] theorem Dev.wakeLink_held (o : Store) (a0 : Dev) (a1) (h0 : Held o a0) : Held o (@Dev.wakeLink a0 a1) := by
  simp (maxDischargeDepth := 20) +contextual [Dev.wakeLink, *]

@[simp] theorem Dev.undoStep_held (o : Store) (a0 : Dev) (h0 : Held o a0) : Held o (@Dev.undoStep a0) := by
  simp +contextual only [Dev.undoStep]
  (repeat' split) <;> simp (maxDischargeDepth := 20) +contextual [*]

@[simp] theorem Dev.wakeStep_held (o : Store) (a0 : Dev) (h0 : Held o a0) : Held o (@Dev.wakeStep a0) := by
  simp (maxDischargeDepth := 20) +contextual [Dev.wakeStep, *]

@[simp] theorem Dev.getPowerStatus_held (o : Store) (a0 : Dev) (a1) (a2) (h0 : Held o a0) : Held o (@Dev.getPowerStatus a0 a1 a2) := by
  simp (maxDischargeDepth := 20) +contextual [Dev.getPowerStatus, *]

@[simp] theorem Dev.hsWaitExpiry_held (o : Store) (a0 : Dev) (h0 : Held o a0) : Held o (@Dev.hsWaitExpiry a0) := by
  unfold Dev.hsWaitExpiry
  repeat' first | assumption | intro _ | with_reducible apply held_ite | with_reducible apply held_forAll | with_reducible apply held_foldl | with_reducible apply held_when | with_reducible apply held_foldl_fst | with_reducible apply held_ite_fst | with_reducible apply held_ite_snd | with_reducible apply Dev.refuseEntry_held | (simp only [held_mk, heldMem_dev]; done) | split | (simp only [held_mk, heldMem_dev])

@[simp] theorem Dev.activationWake_held (o : Store) (a0 : Dev) (h0 : Held o a0) : Held o (@Dev.activationWake a0) := by
  unfold Dev.activationWake
  repeat' first | assumption | intro _ | with_reducible apply held_ite | with_reducible apply held_forAll | with_reducible apply held_foldl | with_reducible apply held_when | with_reducible apply held_foldl_fst | with_reducible apply held_ite_fst | with_reducible apply held_ite_snd | with_reducible apply Dev.wake_held | (simp only [held_mk, heldMem_dev]; done) | split | (simp only [held_mk, heldMem_dev])

@[simp] theorem Dev.reentryIdleExpiry_held (o : Store) (a0 : Dev) (h0 : Held o a0) : Held o (@Dev.reentryIdleExpiry a0) := by
  simp (maxDischargeDepth := 20) +contextual [Dev.reentryIdleExpiry, *]

@[simp] theorem Dev.guestWake_held (o : Store) (a0 : Dev) (h0 : Held o a0) : Held o (@Dev.guestWake a0) := by
  simp (maxDischargeDepth := 20) +contextual [Dev.guestWake, *]

@[simp] theorem Dev.cancelRest_held (o : Store) (a0 : Dev) (a1) (a2) (h0 : Held o a0) : Held o (@Dev.cancelRest a0 a1 a2) := by
  unfold Dev.cancelRest
  repeat' first | assumption | intro _ | with_reducible apply held_ite | with_reducible apply held_forAll | with_reducible apply held_foldl | with_reducible apply held_when | with_reducible apply held_foldl_fst | with_reducible apply held_ite_fst | with_reducible apply held_ite_snd | with_reducible apply Dev.gated_held | with_reducible apply Dev.vend_held | with_reducible apply Dev.reply_held | with_reducible apply Dev.endHeadRest_held | (simp only [held_mk, heldMem_dev]; done) | split | (simp only [held_mk, heldMem_dev])

@[simp] theorem Dev.restBoundary_held (o : Store) (a0 : Dev) (h0 : Held o a0) : Held o (@Dev.restBoundary a0) := by
  unfold Dev.restBoundary
  extract_lets d1 t d2 p low
  have h1 : Held o d1 := Dev.setPwr_held _ _ _ h0
  clear_value d1
  have h2 : Held o d2 := Dev.setPwr_held _ _ _ h1
  clear_value d2
  simp (maxDischargeDepth := 20) [*]

@[simp] theorem Dev.wakeSource_held (o : Store) (a0 : Dev) (a1) (a2) (h0 : Held o a0) : Held o (@Dev.wakeSource a0 a1 a2) := by
  simp (maxDischargeDepth := 20) +contextual [Dev.wakeSource, *]

@[simp] theorem Dev.requestRest_held (o : Store) (a0 : Dev) (a1) (a2) (h0 : Held o a0) : Held o (@Dev.requestRest a0 a1 a2) := by
  unfold Dev.requestRest
  repeat' first | assumption | intro _ | with_reducible apply held_ite | with_reducible apply held_forAll | with_reducible apply held_foldl | with_reducible apply held_when | with_reducible apply held_foldl_fst | with_reducible apply held_ite_fst | with_reducible apply held_ite_snd | with_reducible apply Dev.gated_held | with_reducible apply Dev.vend_held | with_reducible apply Dev.reply_held | with_reducible apply Dev.setHead_held | with_reducible apply Dev.startBg_held | (simp only [held_mk, heldMem_dev]; done) | split | (simp only [held_mk, heldMem_dev])

@[simp] theorem Dev.refuse_held (o : Store) (a0 : Dev) (h0 : Held o a0) : Held o (@Dev.refuse a0) := by
  unfold Dev.refuse
  repeat' first | assumption | intro _ | with_reducible apply held_ite | with_reducible apply held_forAll | with_reducible apply held_foldl | with_reducible apply held_when | with_reducible apply held_foldl_fst | with_reducible apply held_ite_fst | with_reducible apply held_ite_snd | with_reducible apply Dev.refuseEntry_held | (simp only [held_mk, heldMem_dev]; done) | split | (simp only [held_mk, heldMem_dev])

@[simp] theorem Dev.setClk_held (o : Store) (a0 : Dev) (a1) (h0 : Held o a0) : Held o (@Dev.setClk a0 a1) := by
  simp +contextual [Dev.setClk, *]

@[simp] theorem Dev.setRails_held (o : Store) (a0 : Dev) (a1) (h0 : Held o a0) : Held o (@Dev.setRails a0 a1) := by
  simp (maxDischargeDepth := 20) +contextual [Dev.setRails, *]

@[simp] theorem Dev.moveRails_held (o : Store) (a0 : Dev) (a1) (a2) (h0 : Held o a0) : Held o (@Dev.moveRails a0 a1 a2) := by
  simp (maxDischargeDepth := 20) +contextual [Dev.moveRails, *]

@[simp] theorem Dev.startOp_held (o : Store) (a0 : Dev) (a1) (h0 : Held o a0) : Held o (@Dev.startOp a0 a1) := by
  simp (maxDischargeDepth := 20) +contextual [Dev.startOp, *]

@[simp] theorem Dev.opSequenceFault_held (o : Store) (a0 : Dev) (a1) (a2) (h0 : Held o a0) : Held o (@Dev.opSequenceFault a0 a1 a2) := by
  simp (maxDischargeDepth := 20) +contextual [Dev.opSequenceFault, *]

@[simp] theorem Dev.pllLocked_held (o : Store) (a0 : Dev) (a1) (h0 : Held o a0) : Held o (@Dev.pllLocked a0 a1) := by
  simp +contextual [Dev.pllLocked, *]

@[simp] theorem Dev.setRef_held (o : Store) (a0 : Dev) (a1) (h0 : Held o a0) : Held o (@Dev.setRef a0 a1) := by
  unfold Dev.setRef
  repeat' first | assumption | intro _ | with_reducible apply held_ite | with_reducible apply held_forAll | with_reducible apply held_foldl | with_reducible apply held_when | with_reducible apply held_foldl_fst | with_reducible apply held_ite_fst | with_reducible apply held_ite_snd | with_reducible apply Dev.raiseI_held | with_reducible apply Dev.setClk_held | (simp only [held_mk, heldMem_dev]; done) | split | (simp only [held_mk, heldMem_dev])

@[simp] theorem Dev.chooseRef_held (o : Store) (a0 : Dev) (h0 : Held o a0) : Held o (@Dev.chooseRef a0) := by
  simp +contextual [Dev.chooseRef, *]

@[simp] theorem Dev.setMon_held (o : Store) (a0 : Dev) (a1) (a2) (h0 : Held o a0) : Held o (@Dev.setMon a0 a1 a2) := by
  simp +contextual [Dev.setMon, *]

@[simp] theorem Dev.drainLedger_held (o : Store) (a0 : Dev) (h0 : Held o a0) : Held o (@Dev.drainLedger a0) := by
  unfold Dev.drainLedger
  repeat' first | assumption | intro _ | with_reducible apply held_ite | with_reducible apply held_forAll | with_reducible apply held_foldl | with_reducible apply held_when | with_reducible apply held_foldl_fst | with_reducible apply held_ite_fst | with_reducible apply held_ite_snd | with_reducible apply forAll_held | with_reducible apply Dev.journal_held | with_reducible apply Dev.raise1_held | (simp only [held_mk, heldMem_dev]; done) | split | (simp only [held_mk, heldMem_dev])

@[simp] theorem Dev.setSup_held (o : Store) (a0 : Dev) (a1) (h0 : Held o a0) : Held o (@Dev.setSup a0 a1) := by
  simp (maxDischargeDepth := 20) +contextual [Dev.setSup, *]

@[simp] theorem Dev.opEnd_held (o : Store) (a0 : Dev) (h0 : Held o a0) : Held o (@Dev.opEnd a0) := by
  simp (maxDischargeDepth := 20) +contextual [Dev.opEnd, *]

@[simp] theorem Dev.opSwitch_held (o : Store) (a0 : Dev) (h0 : Held o a0) : Held o (@Dev.opSwitch a0) := by
  simp (maxDischargeDepth := 20) +contextual [Dev.opSwitch, *]

@[simp] theorem Dev.opBoundary_held (o : Store) (a0 : Dev) (h0 : Held o a0) : Held o (@Dev.opBoundary a0) := by
  simp (maxDischargeDepth := 20) +contextual [Dev.opBoundary, *]

@[simp] theorem Dev.railBoundary_held (o : Store) (a0 : Dev) (a1) (h0 : Held o a0) : Held o (@Dev.railBoundary a0 a1) := by
  unfold Dev.railBoundary
  repeat' first | assumption | intro _ | with_reducible apply held_ite | with_reducible apply held_forAll | with_reducible apply held_foldl | with_reducible apply held_when | with_reducible apply held_foldl_fst | with_reducible apply held_ite_fst | with_reducible apply held_ite_snd | with_reducible apply forAll_held | with_reducible apply Dev.setSup_held | (simp only [held_mk, heldMem_dev]; done) | split | (simp only [held_mk, heldMem_dev])

@[simp] theorem Dev.clkoutBoundary_held (o : Store) (a0 : Dev) (h0 : Held o a0) : Held o (@Dev.clkoutBoundary a0) := by
  unfold Dev.clkoutBoundary
  repeat' first | assumption | intro _ | with_reducible apply held_ite | with_reducible apply held_forAll | with_reducible apply held_foldl | with_reducible apply held_when | with_reducible apply held_foldl_fst | with_reducible apply held_ite_fst | with_reducible apply held_ite_snd | with_reducible apply Dev.setClk_held | (simp only [held_mk, heldMem_dev]; done) | split | (simp only [held_mk, heldMem_dev])

@[simp] theorem Dev.clockBoundary_held (o : Store) (a0 : Dev) (h0 : Held o a0) : Held o (@Dev.clockBoundary a0) := by
  unfold Dev.clockBoundary
  repeat' first | assumption | intro _ | with_reducible apply held_ite | with_reducible apply held_forAll | with_reducible apply held_foldl | with_reducible apply held_when | with_reducible apply held_foldl_fst | with_reducible apply held_ite_fst | with_reducible apply held_ite_snd | with_reducible apply Dev.setClk_held | with_reducible apply Dev.setMon_held | with_reducible apply forAll_held | with_reducible apply Dev.chooseRef_held | (simp only [held_mk, heldMem_dev]; done) | split | (simp only [held_mk, heldMem_dev])

@[simp] theorem Dev.resumeRaise_held (o : Store) (a0 : Dev) (h0 : Held o a0) : Held o (@Dev.resumeRaise a0) := by
  simp (maxDischargeDepth := 20) +contextual [Dev.resumeRaise, *]

@[simp] theorem Dev.railOvervoltage_held (o : Store) (a0 : Dev) (a1) (a2) (a3) (h0 : Held o a0) : Held o (@Dev.railOvervoltage a0 a1 a2 a3) := by
  simp (maxDischargeDepth := 20) +contextual [Dev.railOvervoltage, *]

@[simp] theorem Dev.railPoll_held (o : Store) (a0 : Dev) (a1) (a2) (h0 : Held o a0) : Held o (@Dev.railPoll a0 a1 a2) := by
  simp (maxDischargeDepth := 20) +contextual [Dev.railPoll, *]

@[simp] theorem Dev.sourceSwitchStopTimeout_held (o : Store) (a0 : Dev) (a1) (a2) (h0 : Held o a0) : Held o (@Dev.sourceSwitchStopTimeout a0 a1 a2) := by
  simp (maxDischargeDepth := 20) +contextual [Dev.sourceSwitchStopTimeout, *]

@[simp] theorem Dev.rcTrim_held (o : Store) (a0 : Dev) (a1) (h0 : Held o a0) : Held o (@Dev.rcTrim a0 a1) := by
  unfold Dev.rcTrim
  repeat' first | assumption | intro _ | with_reducible apply held_ite | with_reducible apply held_forAll | with_reducible apply held_foldl | with_reducible apply held_when | with_reducible apply held_foldl_fst | with_reducible apply held_ite_fst | with_reducible apply held_ite_snd | with_reducible apply forAll_held | with_reducible apply Dev.setClk_held | with_reducible apply Dev.raise_held | (simp only [held_mk, heldMem_dev]; done) | split | (simp only [held_mk, heldMem_dev])

@[simp] theorem Dev.braceEnd_held (o : Store) (a0 : Dev) (h0 : Held o a0) : Held o (@Dev.braceEnd a0) := by
  simp (maxDischargeDepth := 20) +contextual [Dev.braceEnd, *]

@[simp] theorem Dev.failover_held (o : Store) (a0 : Dev) (a1) (h0 : Held o a0) : Held o (@Dev.failover a0 a1) := by
  unfold Dev.failover
  repeat' first | assumption | intro _ | with_reducible apply held_ite | with_reducible apply held_forAll | with_reducible apply held_foldl | with_reducible apply held_when | with_reducible apply held_foldl_fst | with_reducible apply held_ite_fst | with_reducible apply held_ite_snd | with_reducible apply Dev.setClk_held | with_reducible apply Dev.raise_held | (simp only [held_mk, heldMem_dev]; done) | split | (simp only [held_mk, heldMem_dev])

@[simp] theorem Dev.clockBad_held (o : Store) (a0 : Dev) (a1) (h0 : Held o a0) : Held o (@Dev.clockBad a0 a1) := by
  simp (maxDischargeDepth := 20) +contextual [Dev.clockBad, *]

@[simp] theorem Dev.warningCrossing_held (o : Store) (a0 : Dev) (a1) (a2) (h0 : Held o a0) : Held o (@Dev.warningCrossing a0 a1 a2) := by
  simp (maxDischargeDepth := 20) +contextual [Dev.warningCrossing, *]

@[simp] theorem Dev.gateRefusalTimeout_held (o : Store) (a0 : Dev) (a1) (h0 : Held o a0) : Held o (@Dev.gateRefusalTimeout a0 a1) := by
  simp (maxDischargeDepth := 20) +contextual [Dev.gateRefusalTimeout, *]

@[simp] theorem Dev.clockMonitorWindow_held (o : Store) (a0 : Dev) (a1) (a2) (h0 : Held o a0) : Held o (@Dev.clockMonitorWindow a0 a1 a2) := by
  simp (maxDischargeDepth := 20) +contextual [Dev.clockMonitorWindow, *]

@[simp] theorem Dev.clkoutConfiguration_held (o : Store) (a0 : Dev) (a1) (a2) (h0 : Held o a0) : Held o (@Dev.clkoutConfiguration a0 a1 a2) := by
  simp (maxDischargeDepth := 20) +contextual [Dev.clkoutConfiguration, *]

@[simp] theorem Dev.bayRanksOff_held (o : Store) (a0 : Dev) (a1) (h0 : Held o a0) : Held o (@Dev.bayRanksOff a0 a1) := by
  simp +contextual [Dev.bayRanksOff, *]

@[simp] theorem Dev.bayEvent_held (o : Store) (a0 : Dev) (a1) (a2) (h0 : Held o a0) : Held o (@Dev.bayEvent a0 a1 a2) := by
  simp +contextual [Dev.bayEvent, *]

@[simp] theorem Dev.faultRetry_held (o : Store) (a0 : Dev) (a1) (a2) (h0 : Held o a0) : Held o (@Dev.faultRetry a0 a1 a2) := by
  simp (maxDischargeDepth := 20) +contextual [Dev.faultRetry, *]

@[simp] theorem Dev.faultTimerExpiry_held (o : Store) (a0 : Dev) (a1) (h0 : Held o a0) : Held o (@Dev.faultTimerExpiry a0 a1) := by
  simp (maxDischargeDepth := 20) +contextual [Dev.faultTimerExpiry, *]

@[simp] theorem Dev.retryTimerExpiry_held (o : Store) (a0 : Dev) (a1) (h0 : Held o a0) : Held o (@Dev.retryTimerExpiry a0 a1) := by
  unfold Dev.retryTimerExpiry
  repeat' first | assumption | intro _ | with_reducible apply held_ite | with_reducible apply held_forAll | with_reducible apply held_foldl | with_reducible apply held_when | with_reducible apply held_foldl_fst | with_reducible apply held_ite_fst | with_reducible apply held_ite_snd | with_reducible apply Dev.setBay_held | (simp only [held_mk, heldMem_dev]; done) | split | (simp only [held_mk, heldMem_dev])

@[simp] theorem Dev.queueBay_held (o : Store) (a0 : Dev) (a1) (h0 : Held o a0) : Held o (@Dev.queueBay a0 a1) := by
  simp (maxDischargeDepth := 20) +contextual [Dev.queueBay, *]

@[simp] theorem Dev.bayBoundary_held (o : Store) (a0 : Dev) (a1) (a2) (h0 : Held o a0) : Held o (@Dev.bayBoundary a0 a1 a2) := by
  simp (maxDischargeDepth := 20) +contextual [Dev.bayBoundary, *]

@[simp] theorem Dev.fastTrip_held (o : Store) (a0 : Dev) (a1) (h0 : Held o a0) : Held o (@Dev.fastTrip a0 a1) := by
  simp (maxDischargeDepth := 20) +contextual [Dev.fastTrip, *]

@[simp] theorem Dev.latchBay_held (o : Store) (a0 : Dev) (a1) (a2) (a3) (h0 : Held o a0) : Held o (@Dev.latchBay a0 a1 a2 a3) := by
  simp (maxDischargeDepth := 20) +contextual [Dev.latchBay, *]

@[simp] theorem Dev.rampLimitExpiry_held (o : Store) (a0 : Dev) (a1) (h0 : Held o a0) : Held o (@Dev.rampLimitExpiry a0 a1) := by
  simp (maxDischargeDepth := 20) +contextual [Dev.rampLimitExpiry, *]

@[simp] theorem Dev.bayPower_held (o : Store) (a0 : Dev) (a1) (a2) (a3) (h0 : Held o a0) (h3 : ∀ y0 y1, Held o y0 → Held o (a3 y0 y1)) : Held o (@Dev.bayPower a0 a1 a2 a3) := by
  simp (maxDischargeDepth := 20) +contextual [Dev.bayPower, *]

@[simp] theorem Dev.bayPowerOn_held (o : Store) (a0 : Dev) (a1) (a2) (h0 : Held o a0) : Held o (@Dev.bayPowerOn a0 a1 a2) := by
  unfold Dev.bayPowerOn
  repeat' first | assumption | intro _ | with_reducible apply held_ite | with_reducible apply held_forAll | with_reducible apply held_foldl | with_reducible apply held_when | with_reducible apply held_foldl_fst | with_reducible apply held_ite_fst | with_reducible apply held_ite_snd | with_reducible apply Dev.bayPower_held | with_reducible apply Dev.queueBay_held | with_reducible apply Dev.reply_held | (simp only [held_mk, heldMem_dev]; done) | split | (simp only [held_mk, heldMem_dev])

@[simp] theorem Dev.bayInsertion_held (o : Store) (a0 : Dev) (a1) (a2) (a3) (h0 : Held o a0) : Held o (@Dev.bayInsertion a0 a1 a2 a3) := by
  unfold Dev.bayInsertion
  try dsimp only
  repeat' first | assumption | intro _ | with_reducible apply held_ite | with_reducible apply held_forAll | with_reducible apply held_foldl | with_reducible apply held_when | with_reducible apply held_foldl_fst | with_reducible apply held_ite_fst | with_reducible apply held_ite_snd | with_reducible apply Dev.setBay_held | with_reducible apply Dev.queueBay_held | with_reducible apply Dev.raiseI_held | (simp only [held_mk, heldMem_dev]; done) | split | (simp only [held_mk, heldMem_dev]) | (simp_all; done)

@[simp] theorem Dev.bayPowerClear_held (o : Store) (a0 : Dev) (a1) (a2) (h0 : Held o a0) : Held o (@Dev.bayPowerClear a0 a1 a2) := by
  simp (maxDischargeDepth := 20) +contextual [Dev.bayPowerClear, *]

@[simp] theorem Dev.shortedTransistor_held (o : Store) (a0 : Dev) (a1) (h0 : Held o a0) : Held o (@Dev.shortedTransistor a0 a1) := by
  simp (maxDischargeDepth := 20) +contextual [Dev.shortedTransistor, *]

@[simp] theorem Dev.bayOutputLow_held (o : Store) (a0 : Dev) (a1) (h0 : Held o a0) : Held o (@Dev.bayOutputLow a0 a1) := by
  simp (maxDischargeDepth := 20) +contextual [Dev.bayOutputLow, *]

@[simp] theorem Dev.currentLimit_held (o : Store) (a0 : Dev) (a1) (h0 : Held o a0) : Held o (@Dev.currentLimit a0 a1) := by
  simp (maxDischargeDepth := 20) +contextual [Dev.currentLimit, *]

@[simp] theorem Dev.powerDownGateDelay_held (o : Store) (a0 : Dev) (a1) (h0 : Held o a0) : Held o (@Dev.powerDownGateDelay a0 a1) := by
  simp (maxDischargeDepth := 20) +contextual [Dev.powerDownGateDelay, *]

@[simp] theorem Dev.retriesClear_held (o : Store) (a0 : Dev) (a1) (h0 : Held o a0) : Held o (@Dev.retriesClear a0 a1) := by
  simp (maxDischargeDepth := 20) +contextual [Dev.retriesClear, *]

@[simp] theorem Dev.bayRampStart_held (o : Store) (a0 : Dev) (a1) (h0 : Held o a0) : Held o (@Dev.bayRampStart a0 a1) := by
  simp (maxDischargeDepth := 20) +contextual [Dev.bayRampStart, *]

@[simp] theorem Dev.rampBoundary_held (o : Store) (a0 : Dev) (h0 : Held o a0) : Held o (@Dev.rampBoundary a0) := by
  unfold Dev.rampBoundary
  repeat' first | assumption | intro _ | with_reducible apply held_ite | with_reducible apply held_forAll | with_reducible apply held_foldl | with_reducible apply held_when | with_reducible apply held_foldl_fst | with_reducible apply held_ite_fst | with_reducible apply held_ite_snd | with_reducible apply forAll_held | with_reducible apply Dev.bayRampStart_held | (simp only [held_mk, heldMem_dev]; done) | split | (simp only [held_mk, heldMem_dev])

@[simp] theorem Dev.currentLimitCleared_held (o : Store) (a0 : Dev) (a1) (h0 : Held o a0) : Held o (@Dev.currentLimitCleared a0 a1) := by
  simp (maxDischargeDepth := 20) +contextual [Dev.currentLimitCleared, *]

@[simp] theorem Dev.powerDown_held (o : Store) (a0 : Dev) (a1) (h0 : Held o a0) : Held o (@Dev.powerDown a0 a1) := by
  simp (maxDischargeDepth := 20) +contextual [Dev.powerDown, *]

@[simp] theorem Dev.gateNotGood_held (o : Store) (a0 : Dev) (a1) (h0 : Held o a0) : Held o (@Dev.gateNotGood a0 a1) := by
  simp (maxDischargeDepth := 20) +contextual [Dev.gateNotGood, *]

@[simp] theorem Dev.bayRemoval_held (o : Store) (a0 : Dev) (a1) (a2) (h0 : Held o a0) : Held o (@Dev.bayRemoval a0 a1 a2) := by
  simp +contextual only [Dev.bayRemoval]
  (repeat' split) <;> simp (maxDischargeDepth := 20) +contextual [*]

@[simp] theorem Dev.bayPowerStatus_held (o : Store) (a0 : Dev) (a1) (a2) (h0 : Held o a0) : Held o (@Dev.bayPowerStatus a0 a1 a2) := by
  simp (maxDischargeDepth := 20) +contextual [Dev.bayPowerStatus, *]

@[simp] theorem Dev.bayPowerOff_held (o : Store) (a0 : Dev) (a1) (a2) (h0 : Held o a0) : Held o (@Dev.bayPowerOff a0 a1 a2) := by
  unfold Dev.bayPowerOff
  refine Dev.bayPower_held _ _ _ _ _ h0 fun d n hd => ?_
  refine held_ite _ _ _ _ (Dev.reply_held _ _ _ _ _ _ hd) ?_
  split
  · exact Dev.reply_held _ _ _ _ _ _ (Dev.setBay_held _ _ _ _ hd)
  · exact Dev.reply_held _ _ _ _ _ _ (Dev.setBay_held _ _ _ _ hd)
  · exact Dev.reply_held _ _ _ _ _ _ (Dev.setBay_held _ _ _ _ hd)
  · exact Dev.asBg_held _ _ _ _ hd fun d hd => Dev.startBg_held _ _ _ _ _ (Dev.powerDown_held _ _ _ hd)
  · exact Dev.asBg_held _ _ _ _ hd fun d hd => Dev.startBg_held _ _ _ _ _ (Dev.powerDown_held _ _ _ hd)
  · exact Dev.reply_held _ _ _ _ _ _ hd
  · exact Dev.reply_held _ _ _ _ _ _ hd

@[simp] theorem Dev.rateCheck_held (o : Store) (a0 : Dev) (a1) (h0 : Held o a0) : Held o (@Dev.rateCheck a0 a1) := by
  unfold Dev.rateCheck
  repeat' first | assumption | intro _ | with_reducible apply held_ite | with_reducible apply held_forAll | with_reducible apply held_foldl | with_reducible apply held_when | with_reducible apply held_foldl_fst | with_reducible apply held_ite_fst | with_reducible apply held_ite_snd | with_reducible apply Dev.setSens_held | with_reducible apply Dev.raise_held | (simp only [held_mk, heldMem_dev]; done) | split | (simp only [held_mk, heldMem_dev])

@[simp] theorem Dev.sensorFail_held (o : Store) (a0 : Dev) (a1) (h0 : Held o a0) : Held o (@Dev.sensorFail a0 a1) := by
  simp (maxDischargeDepth := 20) +contextual [Dev.sensorFail, *]

@[simp] theorem Dev.takeSample_held (o : Store) (a0 : Dev) (a1) (a2) (h0 : Held o a0) : Held o (@Dev.takeSample a0 a1 a2) := by
  unfold Dev.takeSample
  repeat' first | assumption | intro _ | with_reducible apply held_ite | with_reducible apply held_forAll | with_reducible apply held_foldl | with_reducible apply held_when | with_reducible apply held_foldl_fst | with_reducible apply held_ite_fst | with_reducible apply held_ite_snd | with_reducible apply Dev.setSens_held | with_reducible apply Dev.sensorFail_held | with_reducible apply Dev.rateCheck_held | (simp only [held_mk, heldMem_dev]; done) | split | (simp only [held_mk, heldMem_dev])

@[simp] theorem Dev.bayCut_held (o : Store) (a0 : Dev) (h0 : Held o a0) : Held o (@Dev.bayCut a0) := by
  simp (maxDischargeDepth := 20) +contextual [Dev.bayCut, *]

@[simp] theorem Dev.setTherm_held (o : Store) (a0 : Dev) (a1) (h0 : Held o a0) : Held o (@Dev.setTherm a0 a1) := by
  simp (maxDischargeDepth := 20) +contextual [Dev.setTherm, *]

@[simp] theorem Dev.enforcementStart_held (o : Store) (a0 : Dev) (h0 : Held o a0) : Held o (@Dev.enforcementStart a0) := by
  simp (maxDischargeDepth := 20) +contextual [Dev.enforcementStart, *]

@[simp] theorem Dev.throttleBoundary_held (o : Store) (a0 : Dev) (h0 : Held o a0) : Held o (@Dev.throttleBoundary a0) := by
  unfold Dev.throttleBoundary
  repeat' first | assumption | intro _ | with_reducible apply held_ite | with_reducible apply held_forAll | with_reducible apply held_foldl | with_reducible apply held_when | with_reducible apply held_foldl_fst | with_reducible apply held_ite_fst | with_reducible apply held_ite_snd | with_reducible apply Dev.raise_held | with_reducible apply Dev.setTherm_held | with_reducible apply Dev.enforcementStart_held | (simp only [held_mk, heldMem_dev]; done) | split | (simp only [held_mk, heldMem_dev])

@[simp] theorem Dev.tileSensorSample_held (o : Store) (a0 : Dev) (a1) (a2) (h0 : Held o a0) : Held o (@Dev.tileSensorSample a0 a1 a2) := by
  simp (maxDischargeDepth := 20) +contextual [Dev.tileSensorSample, *]

@[simp] theorem Dev.thermalResume_held (o : Store) (a0 : Dev) (a1) (a2) (h0 : Held o a0) : Held o (@Dev.thermalResume a0 a1 a2) := by
  unfold Dev.thermalResume
  repeat' first | assumption | intro _ | with_reducible apply held_ite | with_reducible apply held_forAll | with_reducible apply held_foldl | with_reducible apply held_when | with_reducible apply held_foldl_fst | with_reducible apply held_ite_fst | with_reducible apply held_ite_snd | with_reducible apply Dev.gated_held | with_reducible apply Dev.vend_held | with_reducible apply Dev.reply_held | (simp only [held_mk, heldMem_dev]; done) | split | (simp only [held_mk, heldMem_dev])

@[simp] theorem Dev.dimmTemperatureRead_held (o : Store) (a0 : Dev) (a1) (a2) (h0 : Held o a0) : Held o (@Dev.dimmTemperatureRead a0 a1 a2) := by
  simp (maxDischargeDepth := 20) +contextual [Dev.dimmTemperatureRead, *]

@[simp] theorem Dev.clearPend_held (o : Store) (a0 : Dev) (a1) (a2) (h0 : Held o a0) : Held o (@Dev.clearPend a0 a1 a2) := by
  simp +contextual only [Dev.clearPend]
  (repeat' split) <;> simp +contextual [*]

@[simp] theorem Dev.cntWrite_held (o : Store) (a0 : Dev) (a1) (a2) (h0 : Held o a0) : Held o (@Dev.cntWrite a0 a1 a2) := by
  unfold Dev.cntWrite
  (repeat' split) <;> simp +contextual [*]

@[simp] theorem Dev.bwWrite_held (o : Store) (a0 : Dev) (a1) (a2) (h0 : Held o a0) : Held o (@Dev.bwWrite a0 a1 a2) := by
  simp +contextual [Dev.bwWrite, *]

theorem Dev.pertGo_held (o : Store) (a0 : Dev) (a1) (h0 : Held o a0) : ∀ e, (@Dev.pertGo a0 a1) = .ok e → Held o e := by
  intro e he
  unfold Dev.pertGo at he
  extract_lets x at he
  split at he
  · simp at he
  split at he
  · simp at he
  rename_i h
  simp only [Except.ok.injEq] at he
  subst he
  exact Dev.setPert_held _ _ _ _ (Dev.queueAct_held _ _ _ _ _ h0 _ h)

@[simp] theorem Dev.pertStop_held (o : Store) (a0 : Dev) (a1) (h0 : Held o a0) : Held o (@Dev.pertStop a0 a1) := by
  simp +contextual [Dev.pertStop, *]

@[simp] theorem Dev.pertBegin_held (o : Store) (a0 : Dev) (a1) (a2) (h0 : Held o a0) : Held o (@Dev.pertBegin a0 a1 a2) := by
  simp (maxDischargeDepth := 20) +contextual [Dev.pertBegin, *]

@[simp] theorem Dev.pertEnd_held (o : Store) (a0 : Dev) (a1) (h0 : Held o a0) : Held o (@Dev.pertEnd a0 a1) := by
  simp (maxDischargeDepth := 20) +contextual [Dev.pertEnd, *]

@[simp] theorem Dev.perturbationExpiry_held (o : Store) (a0 : Dev) (a1) (h0 : Held o a0) : Held o (@Dev.perturbationExpiry a0 a1) := by
  simp (maxDischargeDepth := 20) +contextual [Dev.perturbationExpiry, *]

@[simp] theorem Dev.eventPendingClear_held (o : Store) (a0 : Dev) (a1) (a2) (a3) (h0 : Held o a0) : Held o (@Dev.eventPendingClear a0 a1 a2 a3) := by
  simp (maxDischargeDepth := 20) +contextual [Dev.eventPendingClear, *]

@[simp] theorem Dev.bwClose_held (o : Store) (a0 : Dev) (a1) (a2) (h0 : Held o a0) : Held o (@Dev.bwClose a0 a1 a2) := by
  simp (maxDischargeDepth := 20) +contextual [Dev.bwClose, *]

@[simp] theorem Dev.bwCloseAll_held (o : Store) (a0 : Dev) (h0 : Held o a0) : Held o (@Dev.bwCloseAll a0) := by
  simp (maxDischargeDepth := 20) +contextual [Dev.bwCloseAll, *]

@[simp] theorem Dev.counterOvfClear_held (o : Store) (a0 : Dev) (a1) (a2) (h0 : Held o a0) : Held o (@Dev.counterOvfClear a0 a1 a2) := by
  simp (maxDischargeDepth := 20) +contextual [Dev.counterOvfClear, *]

@[simp] theorem Dev.clearEventRecords_held (o : Store) (a0 : Dev) (a1) (a2) (a3) (a4) (h0 : Held o a0) : Held o (@Dev.clearEventRecords a0 a1 a2 a3 a4) := by
  unfold Dev.clearEventRecords
  repeat' first | assumption | intro _ | with_reducible apply held_ite | with_reducible apply held_forAll | with_reducible apply held_foldl | with_reducible apply held_when | with_reducible apply held_foldl_fst | with_reducible apply held_ite_fst | with_reducible apply held_ite_snd | with_reducible apply Dev.gated_held | with_reducible apply Dev.reply_held | with_reducible apply Dev.setLog_held | (simp only [held_mk, heldMem_dev]; done) | split | (simp only [held_mk, heldMem_dev])

@[simp] theorem Dev.perturbationStop_held (o : Store) (a0 : Dev) (a1) (a2) (h0 : Held o a0) : Held o (@Dev.perturbationStop a0 a1 a2) := by
  simp (maxDischargeDepth := 20) +contextual [Dev.perturbationStop, *]

@[simp] theorem Dev.cntAdd_held (o : Store) (a0 : Dev) (a1) (a2) (h0 : Held o a0) : Held o (@Dev.cntAdd a0 a1 a2) := by
  simp (maxDischargeDepth := 20) +contextual [Dev.cntAdd, *]

@[simp] theorem Dev.counterWrap_held (o : Store) (a0 : Dev) (a1) (a2) (h0 : Held o a0) : Held o (@Dev.counterWrap a0 a1 a2) := by
  simp (maxDischargeDepth := 20) +contextual [Dev.counterWrap, *]

@[simp] theorem Dev.readCounters_held (o : Store) (a0 : Dev) (a1) (a2) (h0 : Held o a0) : Held o (@Dev.readCounters a0 a1 a2) := by
  simp (maxDischargeDepth := 20) +contextual [Dev.readCounters, *]

@[simp] theorem Dev.faultNRelease_held (o : Store) (a0 : Dev) (h0 : Held o a0) : Held o (@Dev.faultNRelease a0) := by
  unfold Dev.faultNRelease
  repeat' first | assumption | intro _ | with_reducible apply held_ite | with_reducible apply held_forAll | with_reducible apply held_foldl | with_reducible apply held_when | with_reducible apply held_foldl_fst | with_reducible apply held_ite_fst | with_reducible apply held_ite_snd  | (simp only [held_mk, heldMem_dev]; done) | split | (simp only [held_mk, heldMem_dev])

@[simp] theorem Dev.cntBoundary_held (o : Store) (a0 : Dev) (a1 : Dev) (a2) (h0 : Held o a0) : Held o (@Dev.cntBoundary a0 a1 a2) := by
  unfold Dev.cntBoundary
  repeat' first | assumption | intro _ | with_reducible apply held_ite | with_reducible apply held_forAll | with_reducible apply held_foldl | with_reducible apply held_when | with_reducible apply held_foldl_fst | with_reducible apply held_ite_fst | with_reducible apply held_ite_snd | with_reducible apply forAll_held | with_reducible apply Dev.cntAdd_held | with_reducible apply Dev.setCnt_held | (simp only [held_mk, heldMem_dev]; done) | split | (simp only [held_mk, heldMem_dev])

@[simp] theorem Dev.ledgerFind_held (o : Store) (a0 : Dev) (a1) (h0 : Held o a0) : Held o (@Dev.ledgerFind a0 a1) := by
  unfold Dev.ledgerFind
  repeat' first | assumption | intro _ | with_reducible apply held_ite | with_reducible apply held_forAll | with_reducible apply held_foldl | with_reducible apply held_when | with_reducible apply held_foldl_fst | with_reducible apply held_ite_fst | with_reducible apply held_ite_snd | with_reducible apply Dev.raise_held | (simp only [held_mk, heldMem_dev]; done) | split | (simp only [held_mk, heldMem_dev])

@[simp] theorem Dev.bandwidthWindowClose_held (o : Store) (a0 : Dev) (a1) (h0 : Held o a0) : Held o (@Dev.bandwidthWindowClose a0 a1) := by
  simp (maxDischargeDepth := 20) +contextual [Dev.bandwidthWindowClose, *]

@[simp] theorem Dev.bwCloseDue_held (o : Store) (a0 : Dev) (h0 : Held o a0) : Held o (@Dev.bwCloseDue a0) := by
  simp (maxDischargeDepth := 20) +contextual [Dev.bwCloseDue, *]

@[simp] theorem Dev.bandwidthWindowConfig_held (o : Store) (a0 : Dev) (a1) (a2) (a3) (h0 : Held o a0) : Held o (@Dev.bandwidthWindowConfig a0 a1 a2 a3) := by
  simp (maxDischargeDepth := 20) +contextual [Dev.bandwidthWindowConfig, *]

@[simp] theorem Dev.perturbationGo_held (o : Store) (a0 : Dev) (a1) (a2) (h0 : Held o a0) : Held o (@Dev.perturbationGo a0 a1 a2) := by
  unfold Dev.perturbationGo
  repeat' first | assumption | intro _ | with_reducible apply held_ite | with_reducible apply held_forAll | with_reducible apply held_foldl | with_reducible apply held_when | with_reducible apply held_foldl_fst | with_reducible apply held_ite_fst | with_reducible apply held_ite_snd | with_reducible apply Dev.reply_held | with_reducible apply Dev.raise_held | (with_reducible refine Dev.pertGo_held _ _ _ ?_ _ (by assumption))| (with_reducible refine Dev.pertGo_held _ _ _ _ ?_ _ (by assumption))| (with_reducible refine Dev.pertGo_held _ _ _ _ _ ?_ _ (by assumption))| (with_reducible refine Dev.pertGo_held _ _ _ _ _ _ ?_ _ (by assumption)) | (simp only [held_mk, heldMem_dev]; done) | split | (simp only [held_mk, heldMem_dev])

@[simp] theorem Dev.pertBoundary_held (o : Store) (a0 : Dev) (a1 : Dev) (h0 : Held o a0) : Held o (@Dev.pertBoundary a0 a1) := by
  simp (maxDischargeDepth := 20) +contextual [Dev.pertBoundary, *]

@[simp] theorem Dev.counterReprogram_held (o : Store) (a0 : Dev) (a1) (a2) (a3) (h0 : Held o a0) : Held o (@Dev.counterReprogram a0 a1 a2 a3) := by
  simp (maxDischargeDepth := 20) +contextual [Dev.counterReprogram, *]

@[simp] theorem Dev.bwBoundary_held (o : Store) (a0 : Dev) (a1 : Dev) (a2) (a3) (h0 : Held o a0) : Held o (@Dev.bwBoundary a0 a1 a2 a3) := by
  unfold Dev.bwBoundary
  repeat' first | assumption | intro _ | with_reducible apply held_ite | with_reducible apply held_forAll | with_reducible apply held_foldl | with_reducible apply held_when | with_reducible apply held_foldl_fst | with_reducible apply held_ite_fst | with_reducible apply held_ite_snd | with_reducible apply forAll_held | with_reducible apply Dev.setBw_held | with_reducible apply Dev.bwCloseAll_held | with_reducible apply Dev.bwCloseDue_held | (simp only [held_mk, heldMem_dev]; done) | split | (simp only [held_mk, heldMem_dev])

@[simp] theorem Dev.setEventInterruptPolicy_held (o : Store) (a0 : Dev) (a1) (a2) (h0 : Held o a0) : Held o (@Dev.setEventInterruptPolicy a0 a1 a2) := by
  unfold Dev.setEventInterruptPolicy
  repeat' first | assumption | intro _ | with_reducible apply held_ite | with_reducible apply held_forAll | with_reducible apply held_foldl | with_reducible apply held_when | with_reducible apply held_foldl_fst | with_reducible apply held_ite_fst | with_reducible apply held_ite_snd | with_reducible apply Dev.gated_held | with_reducible apply Dev.reply_held | with_reducible apply Dev.setHead_held | (simp only [held_mk, heldMem_dev]; done) | split | (simp only [held_mk, heldMem_dev])

@[simp] theorem Dev.getEventRecords_held (o : Store) (a0 : Dev) (a1) (a2) (h0 : Held o a0) : Held o (@Dev.getEventRecords a0 a1 a2) := by
  unfold Dev.getEventRecords
  repeat' first | assumption | intro _ | with_reducible apply held_ite | with_reducible apply held_forAll | with_reducible apply held_foldl | with_reducible apply held_when | with_reducible apply held_foldl_fst | with_reducible apply held_ite_fst | with_reducible apply held_ite_snd | with_reducible apply Dev.gated_held | with_reducible apply Dev.reply_held | (simp only [held_mk, heldMem_dev]; done) | split | (simp only [held_mk, heldMem_dev])

end Sys2Proof.Machine
end

