-- ==== Sys2Proof/Laws/HeldLinks.lean ====
section
/-! SUPPORT. The operations that touch no stored data: the DRAM, the cistern, the well map and the marks of poisoned granules are as they were
after each of them. -/

namespace Sys2Proof.Machine

open Sys2Proof

set_option linter.unreachableTactic false
set_option linter.unusedTactic false
set_option linter.unusedSimpArgs false

@[simp] theorem Dev.setGst_held (o : Store) (a0 : Dev) (a1) (h0 : Held o a0) : Held o (@Dev.setGst a0 a1) := by
  simp +contextual [Dev.setGst, *]

@[simp] theorem Dev.guestAgain_held (o : Store) (a0 : Dev) (h0 : Held o a0) : Held o (@Dev.guestAgain a0) := by
  unfold Dev.guestAgain
  (repeat' split) <;> simp +contextual [*]

@[simp] theorem Dev.guestFail_held (o : Store) (a0 : Dev) (a1) (h0 : Held o a0) : Held o (@Dev.guestFail a0 a1) := by
  unfold Dev.guestFail
  repeat' first | assumption | intro _ | with_reducible apply held_ite | with_reducible apply held_forAll | with_reducible apply held_foldl | with_reducible apply held_when | with_reducible apply held_foldl_fst | with_reducible apply held_ite_fst | with_reducible apply held_ite_snd | with_reducible apply Dev.guestDead_held | with_reducible apply Dev.setGst_held | (simp only [held_mk, heldMem_dev]; done) | split | (simp only [held_mk, heldMem_dev])

@[simp] theorem Dev.detach_held (o : Store) (a0 : Dev) (h0 : Held o a0) : Held o (@Dev.detach a0) := by
  simp +contextual [Dev.detach, *]

@[simp] theorem Dev.violate_held (o : Store) (a0 : Dev) (h0 : Held o a0) : Held o (@Dev.violate a0) := by
  simp (maxDischargeDepth := 20) +contextual [Dev.violate, *]

@[simp] theorem Dev.guestBad_held (o : Store) (a0 : Dev) (a1) (a2) (a3) (h0 : Held o a0) : Held o (@Dev.guestBad a0 a1 a2 a3) := by
  unfold Dev.guestBad
  repeat' first | assumption | intro _ | with_reducible apply held_ite | with_reducible apply held_forAll | with_reducible apply held_foldl | with_reducible apply held_when | with_reducible apply held_foldl_fst | with_reducible apply held_ite_fst | with_reducible apply held_ite_snd | with_reducible apply Dev.respond_held | with_reducible apply Dev.guestFail_held | with_reducible apply Dev.raise_held | with_reducible apply Dev.violate_held | (simp only [held_mk, heldMem_dev]; done) | split | (simp only [held_mk, heldMem_dev])

@[simp] theorem Dev.guestOov_held (o : Store) (a0 : Dev) (a1) (a2) (a3) (h0 : Held o a0) : Held o (@Dev.guestOov a0 a1 a2 a3) := by
  unfold Dev.guestOov
  repeat' first | assumption | intro _ | with_reducible apply held_ite | with_reducible apply held_forAll | with_reducible apply held_foldl | with_reducible apply held_when | with_reducible apply held_foldl_fst | with_reducible apply held_ite_fst | with_reducible apply held_ite_snd | with_reducible apply Dev.raise_held | with_reducible apply Dev.setGst_held | with_reducible apply Dev.respond_held | (simp only [held_mk, heldMem_dev]; done) | split | (simp only [held_mk, heldMem_dev])

@[simp] theorem Dev.memberConflict_held (o : Store) (a0 : Dev) (a1) (a2) (a3) (h0 : Held o a0) : Held o (@Dev.memberConflict a0 a1 a2 a3) := by
  unfold Dev.memberConflict
  repeat' first | assumption | intro _ | with_reducible apply held_ite | with_reducible apply held_forAll | with_reducible apply held_foldl | with_reducible apply held_when | with_reducible apply held_foldl_fst | with_reducible apply held_ite_fst | with_reducible apply held_ite_snd | with_reducible apply Dev.send_held | with_reducible apply Dev.respond1_held | (simp only [held_mk, heldMem_dev]; done) | split | (simp only [held_mk, heldMem_dev])

@[simp] theorem Dev.resumedTimeout_held (o : Store) (a0 : Dev) (h0 : Held o a0) : Held o (@Dev.resumedTimeout a0) := by
  unfold Dev.resumedTimeout
  repeat' first | assumption | intro _ | with_reducible apply held_ite | with_reducible apply held_forAll | with_reducible apply held_foldl | with_reducible apply held_when | with_reducible apply held_foldl_fst | with_reducible apply held_ite_fst | with_reducible apply held_ite_snd | with_reducible apply Dev.guestFail_held | with_reducible apply Dev.raise_held | with_reducible apply Dev.setGst_held | (simp only [held_mk, heldMem_dev]; done) | split | (simp only [held_mk, heldMem_dev])

@[simp] theorem Dev.guestAccessSend_held (o : Store) (a0 : Dev) (h0 : Held o a0) : Held o (@Dev.guestAccessSend a0) := by
  unfold Dev.guestAccessSend
  repeat' first | assumption | intro _ | with_reducible apply held_ite | with_reducible apply held_forAll | with_reducible apply held_foldl | with_reducible apply held_when | with_reducible apply held_foldl_fst | with_reducible apply held_ite_fst | with_reducible apply held_ite_snd | with_reducible apply Dev.emit_held | with_reducible apply Dev.setGst_held | (simp only [held_mk, heldMem_dev]; done) | split | (simp only [held_mk, heldMem_dev])

@[simp] theorem Dev.guestAccessTimeout_held (o : Store) (a0 : Dev) (h0 : Held o a0) : Held o (@Dev.guestAccessTimeout a0) := by
  unfold Dev.guestAccessTimeout
  repeat' first | assumption | intro _ | with_reducible apply held_ite | with_reducible apply held_forAll | with_reducible apply held_foldl | with_reducible apply held_when | with_reducible apply held_foldl_fst | with_reducible apply held_ite_fst | with_reducible apply held_ite_snd | with_reducible apply Dev.guestAccessSend_held | with_reducible apply Dev.raise_held | with_reducible apply Dev.reply_held | with_reducible apply Dev.setGst_held | (simp only [held_mk, heldMem_dev]; done) | split | (simp only [held_mk, heldMem_dev])

@[simp] theorem Dev.guestModuleLoss_held (o : Store) (a0 : Dev) (h0 : Held o a0) : Held o (@Dev.guestModuleLoss a0) := by
  simp (maxDischargeDepth := 20) +contextual [Dev.guestModuleLoss, *]

@[simp] theorem Dev.attachTimeout_held (o : Store) (a0 : Dev) (h0 : Held o a0) : Held o (@Dev.attachTimeout a0) := by
  simp (maxDischargeDepth := 20) +contextual [Dev.attachTimeout, *]

@[simp] theorem Dev.guestResetRelease_held (o : Store) (a0 : Dev) (h0 : Held o a0) : Held o (@Dev.guestResetRelease a0) := by
  simp (maxDischargeDepth := 20) +contextual [Dev.guestResetRelease, *]

@[simp] theorem Dev.guestBoundary_held (o : Store) (a0 : Dev) (a1 : Dev) (h0 : Held o a0) : Held o (@Dev.guestBoundary a0 a1) := by
  unfold Dev.guestBoundary
  repeat' first | assumption | intro _ | with_reducible apply held_ite | with_reducible apply held_forAll | with_reducible apply held_foldl | with_reducible apply held_when | with_reducible apply held_foldl_fst | with_reducible apply held_ite_fst | with_reducible apply held_ite_snd | with_reducible apply Dev.flushGuest_held | with_reducible apply Dev.raise_held | with_reducible apply Dev.setGst_held | with_reducible apply forAll_held | with_reducible apply Dev.setHs_held | with_reducible apply Dev.primeGuest_held | with_reducible apply Dev.emit_held | (simp only [held_mk, heldMem_dev]; done) | split | (simp only [held_mk, heldMem_dev])

@[simp] theorem Dev.chrotenFlitReceive_held (o : Store) (a0 : Dev) (a1) (a2) (a3) (a4) (h0 : Held o a0) : Held o (@Dev.chrotenFlitReceive a0 a1 a2 a3 a4) := by
  simp (maxDischargeDepth := 20) +contextual [Dev.chrotenFlitReceive, *]

@[simp] theorem Dev.moduleDown_held (o : Store) (a0 : Dev) (a1) (a2) (h0 : Held o a0) : Held o (@Dev.moduleDown a0 a1 a2) := by
  unfold Dev.moduleDown
  repeat' first | assumption | intro _ | with_reducible apply held_ite | with_reducible apply held_forAll | with_reducible apply held_foldl | with_reducible apply held_when | with_reducible apply held_foldl_fst | with_reducible apply held_ite_fst | with_reducible apply held_ite_snd | with_reducible apply Dev.setMod_held | with_reducible apply Dev.raise_held | with_reducible apply Dev.setGst_held | with_reducible apply Dev.guestFail_held | (simp only [held_mk, heldMem_dev]; done) | split | (simp only [held_mk, heldMem_dev])

@[simp] theorem Dev.reattach_held (o : Store) (a0 : Dev) (a1) (h0 : Held o a0) : Held o (@Dev.reattach a0 a1) := by
  simp (maxDischargeDepth := 20) +contextual [Dev.reattach, *]

@[simp] theorem Dev.chrotenModuleUp_held (o : Store) (a0 : Dev) (a1) (a2) (a3) (h0 : Held o a0) : Held o (@Dev.chrotenModuleUp a0 a1 a2 a3) := by
  simp (maxDischargeDepth := 20) +contextual [Dev.chrotenModuleUp, *]

@[simp] theorem Dev.guestRegisterAccessPacket_held (o : Store) (a0 : Dev) (h0 : Held o a0) : Held o (@Dev.guestRegisterAccessPacket a0) := by
  simp (maxDischargeDepth := 20) +contextual [Dev.guestRegisterAccessPacket, *]

@[simp] theorem Dev.guestAccess_held (o : Store) (a0 : Dev) (a1) (a2) (a3) (a4) (a5) (h0 : Held o a0) : Held o (@Dev.guestAccess a0 a1 a2 a3 a4 a5) := by
  simp (maxDischargeDepth := 20) +contextual [Dev.guestAccess, *]

@[simp] theorem Dev.creditReturn_held (o : Store) (a0 : Dev) (a1) (a2) (h0 : Held o a0) : Held o (@Dev.creditReturn a0 a1 a2) := by
  simp (maxDischargeDepth := 20) +contextual [Dev.creditReturn, *]

@[simp] theorem Dev.guestBIConflict_held (o : Store) (a0 : Dev) (a1) (h0 : Held o a0) : Held o (@Dev.guestBIConflict a0 a1) := by
  simp (maxDischargeDepth := 20) +contextual [Dev.guestBIConflict, *]

@[simp] theorem Dev.resumed_held (o : Store) (a0 : Dev) (h0 : Held o a0) : Held o (@Dev.resumed a0) := by
  simp (maxDischargeDepth := 20) +contextual [Dev.resumed, *]

@[simp] theorem Dev.guestAccessCompletion_held (o : Store) (a0 : Dev) (a1) (h0 : Held o a0) : Held o (@Dev.guestAccessCompletion a0 a1) := by
  unfold Dev.guestAccessCompletion
  repeat' first | assumption | intro _ | with_reducible apply held_ite | with_reducible apply held_forAll | with_reducible apply held_foldl | with_reducible apply held_when | with_reducible apply held_foldl_fst | with_reducible apply held_ite_fst | with_reducible apply held_ite_snd | with_reducible apply Dev.setGst_held | with_reducible apply Dev.guestAccessSend_held | with_reducible apply Dev.reply_held | (simp only [held_mk, heldMem_dev]; done) | split | (simp only [held_mk, heldMem_dev])

@[simp] theorem Dev.attach_held (o : Store) (a0 : Dev) (a1) (a2) (a3) (h0 : Held o a0) : Held o (@Dev.attach a0 a1 a2 a3) := by
  simp (maxDischargeDepth := 20) +contextual [Dev.attach, *]

@[simp] theorem Dev.failRoutes_held (o : Store) (a0 : Dev) (a1) (h0 : Held o a0) : Held o (@Dev.failRoutes a0 a1) := by
  simp +contextual [Dev.failRoutes, *]

@[simp] theorem Dev.linkDown_held (o : Store) (a0 : Dev) (a1) (h0 : Held o a0) : Held o (@Dev.linkDown a0 a1) := by
  unfold Dev.linkDown
  repeat' first | assumption | intro _ | with_reducible apply held_ite | with_reducible apply held_forAll | with_reducible apply held_foldl | with_reducible apply held_when | with_reducible apply held_foldl_fst | with_reducible apply held_ite_fst | with_reducible apply held_ite_snd | with_reducible apply Dev.setPort_held | with_reducible apply Dev.raise_held | with_reducible apply Dev.failRoutes_held | (simp only [held_mk, heldMem_dev]; done) | split | (simp only [held_mk, heldMem_dev])

@[simp] theorem Dev.linkFail_held (o : Store) (a0 : Dev) (a1) (a2) (h0 : Held o a0) : Held o (@Dev.linkFail a0 a1 a2) := by
  unfold Dev.linkFail
  repeat' first | assumption | intro _ | with_reducible apply held_ite | with_reducible apply held_forAll | with_reducible apply held_foldl | with_reducible apply held_when | with_reducible apply held_foldl_fst | with_reducible apply held_ite_fst | with_reducible apply held_ite_snd | with_reducible apply Dev.setPort_held | (simp only [held_mk, heldMem_dev]; done) | split | (simp only [held_mk, heldMem_dev])

@[simp] theorem Dev.linkEnds_held (o : Store) (a0 : Dev) (a1) (h0 : Held o a0) : Held o (@Dev.linkEnds a0 a1) := by
  simp +contextual [Dev.linkEnds, *]

@[simp] theorem Dev.replay_held (o : Store) (a0 : Dev) (a1) (h0 : Held o a0) : Held o (@Dev.replay a0 a1) := by
  unfold Dev.replay
  repeat' first | assumption | intro _ | with_reducible apply held_ite | with_reducible apply held_forAll | with_reducible apply held_foldl | with_reducible apply held_when | with_reducible apply held_foldl_fst | with_reducible apply held_ite_fst | with_reducible apply held_ite_snd | with_reducible apply Dev.linkEnds_held | with_reducible apply Dev.setPort_held | with_reducible apply forAll_held | with_reducible apply Dev.raise_held | with_reducible apply Dev.emit_held | (simp only [held_mk, heldMem_dev]; done) | split | (simp only [held_mk, heldMem_dev])

@[simp] theorem Dev.linkControl_held (o : Store) (a0 : Dev) (a1) (a2) (a3) (a4) (h0 : Held o a0) : Held o (@Dev.linkControl a0 a1 a2 a3 a4) := by
  unfold Dev.linkControl
  repeat' first | assumption | intro _ | with_reducible apply held_ite | with_reducible apply held_forAll | with_reducible apply held_foldl | with_reducible apply held_when | with_reducible apply held_foldl_fst | with_reducible apply held_ite_fst | with_reducible apply held_ite_snd | with_reducible apply Dev.setPort_held | with_reducible apply Dev.replay_held | with_reducible apply Dev.flushPort_held | (simp only [held_mk, heldMem_dev]; done) | split | (simp only [held_mk, heldMem_dev])

@[simp] theorem Dev.sendHello_held (o : Store) (a0 : Dev) (a1) (h0 : Held o a0) : Held o (@Dev.sendHello a0 a1) := by
  simp (maxDischargeDepth := 20) +contextual [Dev.sendHello, *]

@[simp] theorem Dev.cascadeTrainingStepTimeout_held (o : Store) (a0 : Dev) (a1) (h0 : Held o a0) : Held o (@Dev.cascadeTrainingStepTimeout a0 a1) := by
  simp (maxDischargeDepth := 20) +contextual [Dev.cascadeTrainingStepTimeout, *]

@[simp] theorem Dev.acceptFlit_held (o : Store) (a0 : Dev) (a1) (a2) (a3) (a4) (h0 : Held o a0) : Held o (@Dev.acceptFlit a0 a1 a2 a3 a4) := by
  simp (maxDischargeDepth := 20) +contextual [Dev.acceptFlit, *]

@[simp] theorem Dev.lossOfSignal_held (o : Store) (a0 : Dev) (a1) (h0 : Held o a0) : Held o (@Dev.lossOfSignal a0 a1) := by
  simp (maxDischargeDepth := 20) +contextual [Dev.lossOfSignal, *]

@[simp] theorem Dev.nakOnce_held (o : Store) (a0 : Dev) (a1) (h0 : Held o a0) : Held o (@Dev.nakOnce a0 a1) := by
  simp (maxDischargeDepth := 20) +contextual [Dev.nakOnce, *]

@[simp] theorem Dev.sleepAnswer_held (o : Store) (a0 : Dev) (a1) (a2) (h0 : Held o a0) : Held o (@Dev.sleepAnswer a0 a1 a2) := by
  simp (maxDischargeDepth := 20) +contextual [Dev.sleepAnswer, *]

@[simp] theorem Dev.sleepRequest_held (o : Store) (a0 : Dev) (a1) (a2) (h0 : Held o a0) : Held o (@Dev.sleepRequest a0 a1 a2) := by
  simp (maxDischargeDepth := 20) +contextual [Dev.sleepRequest, *]

@[simp] theorem Dev.adaptationRetrain_held (o : Store) (a0 : Dev) (a1) (h0 : Held o a0) : Held o (@Dev.adaptationRetrain a0 a1) := by
  simp (maxDischargeDepth := 20) +contextual [Dev.adaptationRetrain, *]

@[simp] theorem Dev.securedTransport_held (o : Store) (a0 : Dev) (a1) (a2) (a3) (a4) (h0 : Held o a0) : Held o (@Dev.securedTransport a0 a1 a2 a3 a4) := by
  simp (maxDischargeDepth := 20) +contextual [Dev.securedTransport, *]

@[simp] theorem Dev.linkResumed_held (o : Store) (a0 : Dev) (a1) (h0 : Held o a0) : Held o (@Dev.linkResumed a0 a1) := by
  simp (maxDischargeDepth := 20) +contextual [Dev.linkResumed, *]

@[simp] theorem Dev.pairAlignmentLost_held (o : Store) (a0 : Dev) (a1) (h0 : Held o a0) : Held o (@Dev.pairAlignmentLost a0 a1) := by
  simp (maxDischargeDepth := 20) +contextual [Dev.pairAlignmentLost, *]

@[simp] theorem Dev.uncorrectable_held (o : Store) (a0 : Dev) (a1) (a2) (h0 : Held o a0) : Held o (@Dev.uncorrectable a0 a1 a2) := by
  simp (maxDischargeDepth := 20) +contextual [Dev.uncorrectable, *]

@[simp] theorem Dev.tagFailure_held (o : Store) (a0 : Dev) (a1) (a2) (h0 : Held o a0) : Held o (@Dev.tagFailure a0 a1 a2) := by
  simp (maxDischargeDepth := 20) +contextual [Dev.tagFailure, *]

@[simp] theorem Dev.flitReceive_held (o : Store) (a0 : Dev) (a1) (a2) (h0 : Held o a0) : Held o (@Dev.flitReceive a0 a1 a2) := by
  unfold Dev.flitReceive
  repeat' first | assumption | intro _ | with_reducible apply held_ite | with_reducible apply held_forAll | with_reducible apply held_foldl | with_reducible apply held_when | with_reducible apply held_foldl_fst | with_reducible apply held_ite_fst | with_reducible apply held_ite_snd | with_reducible apply Dev.setPort_held | with_reducible apply Dev.uncorrectable_held | with_reducible apply Dev.nakOnce_held | with_reducible apply Dev.tagFailure_held | with_reducible apply Dev.acceptFlit_held | (simp only [held_mk, heldMem_dev]; done) | split | (simp only [held_mk, heldMem_dev])

@[simp] theorem Dev.linkKeys_held (o : Store) (a0 : Dev) (h0 : Held o a0) : Held o (@Dev.linkKeys a0).2 := by
  simp (maxDischargeDepth := 20) +contextual [Dev.linkKeys, *]

@[simp] theorem Dev.foQuietExpiry_held (o : Store) (a0 : Dev) (a1) (h0 : Held o a0) : Held o (@Dev.foQuietExpiry a0 a1) := by
  unfold Dev.foQuietExpiry
  repeat' first | assumption | intro _ | with_reducible apply held_ite | with_reducible apply held_forAll | with_reducible apply held_foldl | with_reducible apply held_when | with_reducible apply held_foldl_fst | with_reducible apply held_ite_fst | with_reducible apply held_ite_snd | with_reducible apply Dev.setRoute_held | with_reducible apply Dev.raise_held | with_reducible apply Dev.sendNotice_held | with_reducible apply forAll_held | with_reducible apply Dev.send_held | (simp only [held_mk, heldMem_dev]; done) | split | (simp only [held_mk, heldMem_dev])

@[simp] theorem Dev.putFrame_held (o : Store) (a0 : Dev) (a1) (a2) (h0 : Held o a0) : Held o (@Dev.putFrame a0 a1 a2) := by
  simp (maxDischargeDepth := 20) +contextual [Dev.putFrame, *]

@[simp] theorem Dev.sendFrame_held (o : Store) (a0 : Dev) (a1) (h0 : Held o a0) : Held o (@Dev.sendFrame a0 a1) := by
  simp (maxDischargeDepth := 20) +contextual [Dev.sendFrame, *]

@[simp] theorem Dev.wakePatternDetected_held (o : Store) (a0 : Dev) (a1) (h0 : Held o a0) : Held o (@Dev.wakePatternDetected a0 a1) := by
  simp (maxDischargeDepth := 20) +contextual [Dev.wakePatternDetected, *]

@[simp] theorem Dev.trainFrom1_held (o : Store) (a0 : Dev) (a1) (h0 : Held o a0) : Held o (@Dev.trainFrom1 a0 a1) := by
  simp (maxDischargeDepth := 20) +contextual [Dev.trainFrom1, *]

@[simp] theorem Dev.portBoundary_held (o : Store) (a0 : Dev) (a1) (h0 : Held o a0) : Held o (@Dev.portBoundary a0 a1) := by
  simp (maxDischargeDepth := 20) +contextual [Dev.portBoundary, *]

@[simp] theorem Dev.takeKept_held (o : Store) (a0 : Dev) (a1) (a2) (h0 : Held o a0) : Held o (@Dev.takeKept a0 a1 a2).2 := by
  simp (maxDischargeDepth := 20) +contextual [Dev.takeKept, *]

@[simp] theorem Dev.switchRoute_held (o : Store) (a0 : Dev) (a1) (a2) (h0 : Held o a0) : Held o (@Dev.switchRoute a0 a1 a2) := by
  simp (maxDischargeDepth := 20) +contextual [Dev.switchRoute, *]

@[simp] theorem Dev.routeBoundary_held (o : Store) (a0 : Dev) (h0 : Held o a0) : Held o (@Dev.routeBoundary a0) := by
  unfold Dev.routeBoundary
  extract_lets due go d1 d2
  have h1 : Held o d1 := by simp (maxDischargeDepth := 20) +contextual [d1, *]
  clear_value d1
  have h2 : Held o d2 := by
    apply held_forAll _ _ _ _ h1
    intro d x hd
    split <;> simp [*]
  clear_value d2
  simp (maxDischargeDepth := 20) [*]

@[simp] theorem Dev.pairAlignmentAcquired_held (o : Store) (a0 : Dev) (a1) (h0 : Held o a0) : Held o (@Dev.pairAlignmentAcquired a0 a1) := by
  simp (maxDischargeDepth := 20) +contextual [Dev.pairAlignmentAcquired, *]

@[simp] theorem Dev.cascadeTrainingStart_held (o : Store) (a0 : Dev) (a1) (h0 : Held o a0) : Held o (@Dev.cascadeTrainingStart a0 a1) := by
  simp (maxDischargeDepth := 20) +contextual [Dev.cascadeTrainingStart, *]

@[simp] theorem Dev.startReturn_held (o : Store) (a0 : Dev) (a1) (h0 : Held o a0) : Held o (@Dev.startReturn a0 a1) := by
  simp (maxDischargeDepth := 20) +contextual [Dev.startReturn, *]

@[simp] theorem Dev.failbackPort_held (o : Store) (a0 : Dev) (a1) (h0 : Held o a0) : Held o (@Dev.failbackPort a0 a1) := by
  simp (maxDischargeDepth := 20) +contextual [Dev.failbackPort, *]

@[simp] theorem Dev.resumptionTimeout_held (o : Store) (a0 : Dev) (a1) (h0 : Held o a0) : Held o (@Dev.resumptionTimeout a0 a1) := by
  simp (maxDischargeDepth := 20) +contextual [Dev.resumptionTimeout, *]

@[simp] theorem Dev.replayTimeout_held (o : Store) (a0 : Dev) (a1) (h0 : Held o a0) : Held o (@Dev.replayTimeout a0 a1) := by
  unfold Dev.replayTimeout
  repeat' first | assumption | intro _ | with_reducible apply held_ite | with_reducible apply held_forAll | with_reducible apply held_foldl | with_reducible apply held_when | with_reducible apply held_foldl_fst | with_reducible apply held_ite_fst | with_reducible apply held_ite_snd | with_reducible apply Dev.replay_held | (simp only [held_mk, heldMem_dev]; done) | split | (simp only [held_mk, heldMem_dev])

@[simp] theorem Dev.alignmentLossTimeout_held (o : Store) (a0 : Dev) (a1) (h0 : Held o a0) : Held o (@Dev.alignmentLossTimeout a0 a1) := by
  simp (maxDischargeDepth := 20) +contextual [Dev.alignmentLossTimeout, *]

@[simp] theorem Dev.routeNoticeSwitch_held (o : Store) (a0 : Dev) (a1) (a2) (h0 : Held o a0) : Held o (@Dev.routeNoticeSwitch a0 a1 a2) := by
  simp (maxDischargeDepth := 20) +contextual [Dev.routeNoticeSwitch, *]

@[simp] theorem Dev.sleepReply_held (o : Store) (a0 : Dev) (a1) (a2) (a3) (h0 : Held o a0) : Held o (@Dev.sleepReply a0 a1 a2 a3) := by
  simp (maxDischargeDepth := 20) +contextual [Dev.sleepReply, *]

@[simp] theorem Dev.cascadeLinkUp_held (o : Store) (a0 : Dev) (a1) (a2) (a3) (a4) (h0 : Held o a0) : Held o (@Dev.cascadeLinkUp a0 a1 a2 a3 a4) := by
  simp (maxDischargeDepth := 20) +contextual [Dev.cascadeLinkUp, *]

@[simp] theorem Dev.hello_held (o : Store) (a0 : Dev) (a1) (a2) (h0 : Held o a0) : Held o (@Dev.hello a0 a1 a2) := by
  simp (maxDischargeDepth := 20) +contextual [Dev.hello, *]

@[simp] theorem Dev.routeNoticeRestore_held (o : Store) (a0 : Dev) (a1) (a2) (h0 : Held o a0) : Held o (@Dev.routeNoticeRestore a0 a1 a2) := by
  simp (maxDischargeDepth := 20) +contextual [Dev.routeNoticeRestore, *]

@[simp] theorem Dev.sleepDrainComplete_held (o : Store) (a0 : Dev) (a1) (h0 : Held o a0) : Held o (@Dev.sleepDrainComplete a0 a1) := by
  simp (maxDischargeDepth := 20) +contextual [Dev.sleepDrainComplete, *]

theorem Dev.keysFor_held (o : Store) (a0 : Dev) (a1) (a2) (h0 : Held o a0) : ∀ e, (@Dev.keysFor a0 a1 a2) = some e → Held o e.2 := by
  intro e he
  unfold Dev.keysFor at he
  split at he
  · simp only [Option.some.injEq] at he
    subst he
    exact Dev.emit_held _ _ _ (Dev.linkKeys_held _ _ h0)
  · rw [Option.map_eq_some_iff] at he
    obtain ⟨k, -, rfl⟩ := he
    exact h0

@[simp] theorem Dev.linkRekey_held (o : Store) (a0 : Dev) (a1) (a2) (h0 : Held o a0) : Held o (@Dev.linkRekey a0 a1 a2) := by
  unfold Dev.linkRekey
  split
  · split
    · exact h0
    · rename_i h
      exact Dev.setPort_held _ _ _ _ (Dev.keysFor_held _ _ _ _ h0 _ h)
  · exact h0

@[simp] theorem Dev.linkKeyMessage_held (o : Store) (a0 : Dev) (a1) (a2) (h0 : Held o a0) : Held o (@Dev.linkKeyMessage a0 a1 a2) := by
  unfold Dev.linkKeyMessage
  repeat' first | assumption | intro _ | with_reducible apply held_ite | with_reducible apply held_forAll | with_reducible apply held_foldl | with_reducible apply held_when | with_reducible apply held_foldl_fst | with_reducible apply held_ite_fst | with_reducible apply held_ite_snd | with_reducible apply Dev.setPort_held | (with_reducible refine Dev.keysFor_held _ _ _ ?_ _ (by assumption))| (with_reducible refine Dev.keysFor_held _ _ _ _ ?_ _ (by assumption))| (with_reducible refine Dev.keysFor_held _ _ _ _ _ ?_ _ (by assumption))| (with_reducible refine Dev.keysFor_held _ _ _ _ _ _ ?_ _ (by assumption)) | (simp only [held_mk, heldMem_dev]; done) | split | (simp only [held_mk, heldMem_dev])

@[simp] theorem Dev.passOn_held (o : Store) (a0 : Dev) (a1) (a2) (a3) (h0 : Held o a0) : Held o (@Dev.passOn a0 a1 a2 a3) := by
  simp (maxDischargeDepth := 20) +contextual [Dev.passOn, *]

@[simp] theorem Dev.remoteSnoop_held (o : Store) (a0 : Dev) (a1) (a2) (h0 : Held o a0) : Held o (@Dev.remoteSnoop a0 a1 a2) := by
  unfold Dev.remoteSnoop
  repeat' first | assumption | intro _ | with_reducible apply held_ite | with_reducible apply held_forAll | with_reducible apply held_foldl | with_reducible apply held_when | with_reducible apply held_foldl_fst | with_reducible apply held_ite_fst | with_reducible apply held_ite_snd | with_reducible apply Dev.snoop_held | (simp only [held_mk, heldMem_dev]; done) | split | (simp only [held_mk, heldMem_dev])

@[simp] theorem Dev.answerMsg_held (o : Store) (a0 : Dev) (a1) (a2) (a3) (h0 : Held o a0) : Held o (@Dev.answerMsg a0 a1 a2 a3) := by
  simp (maxDischargeDepth := 20) +contextual [Dev.answerMsg, *]

@[simp] theorem Dev.noGrant_held (o : Store) (a0 : Dev) (a1) (a2) (h0 : Held o a0) : Held o (@Dev.noGrant a0 a1 a2) := by
  simp (maxDischargeDepth := 20) +contextual [Dev.noGrant, *]

@[simp] theorem Dev.outsideGrant_held (o : Store) (a0 : Dev) (a1) (a2) (a3) (h0 : Held o a0) : Held o (@Dev.outsideGrant a0 a1 a2 a3) := by
  simp (maxDischargeDepth := 20) +contextual [Dev.outsideGrant, *]

@[simp] theorem Dev.dropRemote_held (o : Store) (a0 : Dev) (a1) (a2) (h0 : Held o a0) : Held o (@Dev.dropRemote a0 a1 a2) := by
  simp (maxDischargeDepth := 20) +contextual [Dev.dropRemote, *]

@[simp] theorem Dev.pageAckTimeout_held (o : Store) (a0 : Dev) (a1) (h0 : Held o a0) : Held o (@Dev.pageAckTimeout a0 a1) := by
  unfold Dev.pageAckTimeout
  repeat' first | assumption | intro _ | with_reducible apply held_ite | with_reducible apply held_forAll | with_reducible apply held_foldl | with_reducible apply held_when | with_reducible apply held_foldl_fst | with_reducible apply held_ite_fst | with_reducible apply held_ite_snd | with_reducible apply Dev.sendPageFree_held | with_reducible apply Dev.dropRemote_held | (simp only [held_mk, heldMem_dev]; done) | split | (simp only [held_mk, heldMem_dev])

@[simp] theorem Dev.endFwd_held (o : Store) (a0 : Dev) (a1) (h0 : Held o a0) : Held o (@Dev.endFwd a0 a1) := by
  unfold Dev.endFwd
  repeat' first | assumption | intro _ | with_reducible apply held_ite | with_reducible apply held_forAll | with_reducible apply held_foldl | with_reducible apply held_when | with_reducible apply held_foldl_fst | with_reducible apply held_ite_fst | with_reducible apply held_ite_snd | with_reducible apply Dev.restTag_held | (simp only [held_mk, heldMem_dev]; done) | split | (simp only [held_mk, heldMem_dev])

@[simp] theorem Dev.setFwd_held (o : Store) (a0 : Dev) (a1) (a2) (h0 : Held o a0) : Held o (@Dev.setFwd a0 a1 a2) := by
  simp (maxDischargeDepth := 20) +contextual [Dev.setFwd, *]

@[simp] theorem Dev.ownedPage_held (o : Store) (a0 : Dev) (a1) (h0 : Held o a0) : Held o (@Dev.ownedPage a0 a1).2 := by
  unfold Dev.ownedPage
  repeat' first | assumption | intro _ | with_reducible apply held_ite | with_reducible apply held_forAll | with_reducible apply held_foldl | with_reducible apply held_when | with_reducible apply held_foldl_fst | with_reducible apply held_ite_fst | with_reducible apply held_ite_snd | with_reducible apply Dev.decodeError_held | (simp only [held_mk, heldMem_dev]; done) | split | (simp only [held_mk, heldMem_dev])

@[simp] theorem Dev.sendOwned_held (o : Store) (a0 : Dev) (a1) (h0 : Held o a0) : Held o (@Dev.sendOwned a0 a1) := by
  simp (maxDischargeDepth := 20) +contextual [Dev.sendOwned, *]

@[simp] theorem Dev.fwdGot_held (o : Store) (a0 : Dev) (a1) (a2) (h0 : Held o a0) : Held o (@Dev.fwdGot a0 a1 a2) := by
  simp (maxDischargeDepth := 20) +contextual [Dev.fwdGot, *]

@[simp] theorem Dev.noteGrant_held (o : Store) (a0 : Dev) (a1) (h0 : Held o a0) : Held o (@Dev.noteGrant a0 a1) := by
  unfold Dev.noteGrant
  repeat' first | assumption | intro _ | with_reducible apply held_ite | with_reducible apply held_forAll | with_reducible apply held_foldl | with_reducible apply held_when | with_reducible apply held_foldl_fst | with_reducible apply held_ite_fst | with_reducible apply held_ite_snd | with_reducible apply forAll_held | with_reducible apply Dev.setPump_held | (simp only [held_mk, heldMem_dev]; done) | split | (simp only [held_mk, heldMem_dev])

@[simp] theorem Dev.dropIncoming_held (o : Store) (a0 : Dev) (a1) (a2) (h0 : Held o a0) : Held o (@Dev.dropIncoming a0 a1 a2) := by
  unfold Dev.dropIncoming
  repeat' first | assumption | intro _ | with_reducible apply held_ite | with_reducible apply held_forAll | with_reducible apply held_foldl | with_reducible apply held_when | with_reducible apply held_foldl_fst | with_reducible apply held_ite_fst | with_reducible apply held_ite_snd | with_reducible apply forAll_held | with_reducible apply Dev.freeFrame_held | (simp only [held_mk, heldMem_dev]; done) | split | (simp only [held_mk, heldMem_dev])

@[simp] theorem Dev.setJob_held (o : Store) (a0 : Dev) (a1) (a2) (h0 : Held o a0) : Held o (@Dev.setJob a0 a1 a2) := by
  simp (maxDischargeDepth := 20) +contextual [Dev.setJob, *]

@[simp] theorem Dev.pageFreeTimeout_held (o : Store) (a0 : Dev) (a1) (h0 : Held o a0) : Held o (@Dev.pageFreeTimeout a0 a1) := by
  unfold Dev.pageFreeTimeout
  repeat' first | assumption | intro _ | with_reducible apply held_ite | with_reducible apply held_forAll | with_reducible apply held_foldl | with_reducible apply held_when | with_reducible apply held_foldl_fst | with_reducible apply held_ite_fst | with_reducible apply held_ite_snd | with_reducible apply Dev.raise_held | with_reducible apply Dev.restTag_held | with_reducible apply Dev.send_held | (simp only [held_mk, heldMem_dev]; done) | split | (simp only [held_mk, heldMem_dev])

@[simp] theorem Dev.receive_held (o : Store) (a0 : Dev) (a1) (a2) (a3) (a4 : Dev → Dev) (h0 : Held o a0) (h4 : ∀ y0, Held o y0 → Held o (a4 y0)) : Held o (@Dev.receive a0 a1 a2 a3 a4) := by
  unfold Dev.receive
  extract_lets
  refine held_ite _ _ _ _ h0 (held_ite _ _ _ _ (Dev.passOn_held _ _ _ _ _ h0) (held_ite _ _ _ _ (Dev.raise_held _ _ _ _ _ h0) (h4 _ h0)))

@[simp] theorem Dev.terdyBISnpCur_held (o : Store) (a0 : Dev) (a1) (a2) (h0 : Held o a0) : Held o (@Dev.terdyBISnpCur a0 a1 a2) := by
  simp (maxDischargeDepth := 20) +contextual [Dev.terdyBISnpCur, *]

@[simp] theorem Dev.writeRetry_held (o : Store) (a0 : Dev) (a1) (a2) (h0 : Held o a0) : Held o (@Dev.writeRetry a0 a1 a2) := by
  unfold Dev.writeRetry
  repeat' first | assumption | intro _ | with_reducible apply held_ite | with_reducible apply held_forAll | with_reducible apply held_foldl | with_reducible apply held_when | with_reducible apply held_foldl_fst | with_reducible apply held_ite_fst | with_reducible apply held_ite_snd | with_reducible apply Dev.receive_held | with_reducible apply Dev.send_held | with_reducible apply Dev.setFwd_held | (simp only [held_mk, heldMem_dev]; done) | split | (simp only [held_mk, heldMem_dev])

@[simp] theorem Dev.terdyMemData_held (o : Store) (a0 : Dev) (a1) (a2) (h0 : Held o a0) : Held o (@Dev.terdyMemData a0 a1 a2) := by
  unfold Dev.terdyMemData
  repeat' first | assumption | intro _ | with_reducible apply held_ite | with_reducible apply held_forAll | with_reducible apply held_foldl | with_reducible apply held_when | with_reducible apply held_foldl_fst | with_reducible apply held_ite_fst | with_reducible apply held_ite_snd | with_reducible apply Dev.receive_held | with_reducible apply Dev.fwdGot_held | with_reducible apply Dev.respond1_held | (simp only [held_mk, heldMem_dev]; done) | split | (simp only [held_mk, heldMem_dev])

@[simp] theorem Dev.terdyBISnpData_held (o : Store) (a0 : Dev) (a1) (a2) (h0 : Held o a0) : Held o (@Dev.terdyBISnpData a0 a1 a2) := by
  simp (maxDischargeDepth := 20) +contextual [Dev.terdyBISnpData, *]

@[simp] theorem Dev.terdyCmp_held (o : Store) (a0 : Dev) (a1) (a2) (h0 : Held o a0) : Held o (@Dev.terdyCmp a0 a1 a2) := by
  unfold Dev.terdyCmp
  repeat' first | assumption | intro _ | with_reducible apply held_ite | with_reducible apply held_forAll | with_reducible apply held_foldl | with_reducible apply held_when | with_reducible apply held_foldl_fst | with_reducible apply held_ite_fst | with_reducible apply held_ite_snd | with_reducible apply Dev.receive_held | with_reducible apply Dev.noteGrant_held | with_reducible apply Dev.fwdGot_held | with_reducible apply Dev.respond1_held | (simp only [held_mk, heldMem_dev]; done) | split | (simp only [held_mk, heldMem_dev])

@[simp] theorem Dev.terdyBIConflict_held (o : Store) (a0 : Dev) (a1) (a2) (h0 : Held o a0) : Held o (@Dev.terdyBIConflict a0 a1 a2) := by
  simp (maxDischargeDepth := 20) +contextual [Dev.terdyBIConflict, *]

@[simp] theorem Dev.pagePlace_held (o : Store) (a0 : Dev) (a1) (a2) (h0 : Held o a0) : Held o (@Dev.pagePlace a0 a1 a2) := by
  unfold Dev.pagePlace
  repeat' first | assumption | intro _ | with_reducible apply held_ite | with_reducible apply held_forAll | with_reducible apply held_foldl | with_reducible apply held_when | with_reducible apply held_foldl_fst | with_reducible apply held_ite_fst | with_reducible apply held_ite_snd | with_reducible apply Dev.receive_held | with_reducible apply Dev.noGrant_held | with_reducible apply Dev.dropIncoming_held | with_reducible apply Dev.wake_held | with_reducible apply Dev.answerMsg_held | (with_reducible refine Dev.allocFrame_held _ _ _ ?_ _ (by assumption))| (with_reducible refine Dev.allocFrame_held _ _ _ _ ?_ _ (by assumption))| (with_reducible refine Dev.allocFrame_held _ _ _ _ _ ?_ _ (by assumption))| (with_reducible refine Dev.allocFrame_held _ _ _ _ _ _ ?_ _ (by assumption)) | (simp only [held_mk, heldMem_dev]; done) | split | (simp only [held_mk, heldMem_dev])

@[simp] theorem Dev.terdyBIConflictAck_held (o : Store) (a0 : Dev) (a1) (a2) (h0 : Held o a0) : Held o (@Dev.terdyBIConflictAck a0 a1 a2) := by
  unfold Dev.terdyBIConflictAck
  repeat' first | assumption | intro _ | with_reducible apply held_ite | with_reducible apply held_forAll | with_reducible apply held_foldl | with_reducible apply held_when | with_reducible apply held_foldl_fst | with_reducible apply held_ite_fst | with_reducible apply held_ite_snd | with_reducible apply Dev.receive_held | with_reducible apply Dev.respond1_held | (simp only [held_mk, heldMem_dev]; done) | split | (simp only [held_mk, heldMem_dev])

@[simp] theorem Dev.terdyBISnpInv_held (o : Store) (a0 : Dev) (a1) (a2) (h0 : Held o a0) : Held o (@Dev.terdyBISnpInv a0 a1 a2) := by
  simp (maxDischargeDepth := 20) +contextual [Dev.terdyBISnpInv, *]

@[simp] theorem Dev.rejoinEnd_held (o : Store) (a0 : Dev) (a1) (a2) (a3) (a4) (h0 : Held o a0) : Held o (@Dev.rejoinEnd a0 a1 a2 a3 a4) := by
  unfold Dev.rejoinEnd
  (repeat' split) <;> simp +contextual [*]

@[simp] theorem Dev.rejoinStep_held (o : Store) (a0 : Dev) (a1 : Dev) (a2) (h0 : Held o a0) : Held o (@Dev.rejoinStep a0 a1 a2) := by
  unfold Dev.rejoinStep
  repeat' first | assumption | intro _ | split | with_reducible apply held_forAll | with_reducible apply held_foldl | with_reducible apply held_when | with_reducible apply held_foldl_fst | with_reducible apply held_ite | with_reducible apply held_ite_fst | with_reducible apply Dev.setDom_held | with_reducible apply Dev.rejoinEnd_held | with_reducible apply Dev.broadcast_held | with_reducible apply Dev.raiseI_held | (simp only [held_mk, heldMem_dev])

@[simp] theorem Dev.rejoinTimeout_held (o : Store) (a0 : Dev) (a1) (h0 : Held o a0) : Held o (@Dev.rejoinTimeout a0 a1) := by
  unfold Dev.rejoinTimeout
  repeat' first | assumption | intro _ | with_reducible apply held_ite | with_reducible apply held_forAll | with_reducible apply held_foldl | with_reducible apply held_when | with_reducible apply held_foldl_fst | with_reducible apply held_ite_fst | with_reducible apply held_ite_snd | with_reducible apply Dev.rejoinEnd_held | with_reducible apply Dev.rejoinBack_held | (simp only [held_mk, heldMem_dev]; done) | split | (simp only [held_mk, heldMem_dev])

@[simp] theorem Dev.broadcastAck_held (o : Store) (a0 : Dev) (a1) (a2) (h0 : Held o a0) : Held o (@Dev.broadcastAck a0 a1 a2) := by
  unfold Dev.broadcastAck
  repeat' first | assumption | intro _ | with_reducible apply held_ite | with_reducible apply held_forAll | with_reducible apply held_foldl | with_reducible apply held_when | with_reducible apply held_foldl_fst | with_reducible apply held_ite_fst | with_reducible apply held_ite_snd | with_reducible apply forAll_held | with_reducible apply Dev.setDom_held | with_reducible apply Dev.takeVote_held | with_reducible apply Dev.takeAck_held | (simp only [held_mk, heldMem_dev]; done) | split | (simp only [held_mk, heldMem_dev])

@[simp] theorem Dev.rejoinDomain_held (o : Store) (a0 : Dev) (a1) (a2) (h0 : Held o a0) : Held o (@Dev.rejoinDomain a0 a1 a2) := by
  simp (maxDischargeDepth := 20) +contextual [Dev.rejoinDomain, *]

@[simp] theorem Dev.domainDown_held (o : Store) (a0 : Dev) (a1) (a2) (h0 : Held o a0) : Held o (@Dev.domainDown a0 a1 a2) := by
  unfold Dev.domainDown
  repeat' first | assumption | intro _ | with_reducible apply held_ite | with_reducible apply held_forAll | with_reducible apply held_foldl | with_reducible apply held_when | with_reducible apply held_foldl_fst | with_reducible apply held_ite_fst | with_reducible apply held_ite_snd | with_reducible apply Dev.detectDown_held | (with_reducible refine Dev.hear_held _ _ _ ?_ _ (by assumption))| (with_reducible refine Dev.hear_held _ _ _ _ ?_ _ (by assumption))| (with_reducible refine Dev.hear_held _ _ _ _ _ ?_ _ (by assumption))| (with_reducible refine Dev.hear_held _ _ _ _ _ _ ?_ _ (by assumption)) | (simp only [held_mk, heldMem_dev]; done) | split | (simp only [held_mk, heldMem_dev])

@[simp] theorem Dev.domainUp_held (o : Store) (a0 : Dev) (a1) (a2) (h0 : Held o a0) : Held o (@Dev.domainUp a0 a1 a2) := by
  unfold Dev.domainUp
  repeat' first | assumption | intro _ | with_reducible apply held_ite | with_reducible apply held_forAll | with_reducible apply held_foldl | with_reducible apply held_when | with_reducible apply held_foldl_fst | with_reducible apply held_ite_fst | with_reducible apply held_ite_snd | (with_reducible refine Dev.hear_held _ _ _ ?_ _ (by assumption))| (with_reducible refine Dev.hear_held _ _ _ _ ?_ _ (by assumption))| (with_reducible refine Dev.hear_held _ _ _ _ _ ?_ _ (by assumption))| (with_reducible refine Dev.hear_held _ _ _ _ _ _ ?_ _ (by assumption)) | (simp only [held_mk, heldMem_dev]; done) | split | (simp only [held_mk, heldMem_dev])

end Sys2Proof.Machine
end

