-- ==== Sys2Proof/Laws/HeldHost.lean ====
section
/-! SUPPORT. The operations that touch no stored data: the DRAM, the cistern, the well map and the marks of poisoned granules are as they were
after each of them. -/

namespace Sys2Proof.Machine

open Sys2Proof

set_option linter.unreachableTactic false
set_option linter.unusedTactic false
set_option linter.unusedSimpArgs false

@[simp] theorem Dev.tableAccess_held (o : Store) (a0 : Dev) (a1) (h0 : Held o a0) : Held o (@Dev.tableAccess a0 a1) := by
  simp +contextual [Dev.tableAccess, *]

@[simp] theorem Dev.portAnswer_held (o : Store) (a0 : Dev) (a1) (a2) (a3) (a4) (h0 : Held o a0) : Held o (@Dev.portAnswer a0 a1 a2 a3 a4) := by
  simp +contextual [Dev.portAnswer, *]

@[simp] theorem Dev.outOfView_held (o : Store) (a0 : Dev) (a1) (a2) (a3) (a4) (a5) (h0 : Held o a0) : Held o (@Dev.outOfView a0 a1 a2 a3 a4 a5) := by
  simp (maxDischargeDepth := 20) +contextual [Dev.outOfView, *]

@[simp] theorem Dev.hdmDecoderCommit_held (o : Store) (a0 : Dev) (a1) (a2) (a3) (h0 : Held o a0) : Held o (@Dev.hdmDecoderCommit a0 a1 a2 a3) := by
  simp (maxDischargeDepth := 20) +contextual [Dev.hdmDecoderCommit, *]

@[simp] theorem Dev.ltrConfigWrite_held (o : Store) (a0 : Dev) (a1) (a2) (a3) (a4) (h0 : Held o a0) : Held o (@Dev.ltrConfigWrite a0 a1 a2 a3 a4) := by
  simp (maxDischargeDepth := 20) +contextual [Dev.ltrConfigWrite, *]

@[simp] theorem Dev.joinDomains_held (o : Store) (a0 : Dev) (a1) (h0 : Held o a0) : Held o (@Dev.joinDomains a0 a1) := by
  simp (maxDischargeDepth := 20) +contextual [Dev.joinDomains, *]

@[simp] theorem Dev.m2sBIConflict_held (o : Store) (a0 : Dev) (a1) (a2) (h0 : Held o a0) : Held o (@Dev.m2sBIConflict a0 a1 a2) := by
  unfold Dev.m2sBIConflict
  repeat' first | assumption | intro _ | with_reducible apply held_ite | with_reducible apply held_forAll | with_reducible apply held_foldl | with_reducible apply held_when | with_reducible apply held_foldl_fst | with_reducible apply held_ite_fst | with_reducible apply held_ite_snd | with_reducible apply Dev.memberConflict_held | (simp only [held_mk, heldMem_dev]; done) | split | (simp only [held_mk, heldMem_dev])

@[simp] theorem Dev.perstDeassertion_held (o : Store) (a0 : Dev) (a1) (h0 : Held o a0) : Held o (@Dev.perstDeassertion a0 a1) := by
  simp (maxDischargeDepth := 20) +contextual [Dev.perstDeassertion, *]

@[simp] theorem Dev.holdTimeout_held (o : Store) (a0 : Dev) (a1) (h0 : Held o a0) : Held o (@Dev.holdTimeout a0 a1) := by
  unfold Dev.holdTimeout
  repeat' first | assumption | intro _ | with_reducible apply held_ite | with_reducible apply held_forAll | with_reducible apply held_foldl | with_reducible apply held_when | with_reducible apply held_foldl_fst | with_reducible apply held_ite_fst | with_reducible apply held_ite_snd | with_reducible apply Dev.detectDown_held | with_reducible apply Dev.raise_held | (simp only [held_mk, heldMem_dev]; done) | split | (simp only [held_mk, heldMem_dev])

@[simp] theorem Dev.snoopTimeout_held (o : Store) (a0 : Dev) (a1) (h0 : Held o a0) : Held o (@Dev.snoopTimeout a0 a1) := by
  unfold Dev.snoopTimeout
  repeat' first | assumption | intro _ | with_reducible apply held_ite | with_reducible apply held_forAll | with_reducible apply held_foldl | with_reducible apply held_when | with_reducible apply held_foldl_fst | with_reducible apply held_ite_fst | with_reducible apply held_ite_snd | with_reducible apply Dev.detectDown_held | with_reducible apply Dev.raise_held | (simp only [held_mk, heldMem_dev]; done) | split | (simp only [held_mk, heldMem_dev])

@[simp] theorem Dev.ageHolds_held (o : Store) (a0 : Dev) (h0 : Held o a0) : Held o (@Dev.ageHolds a0) := by
  simp (maxDischargeDepth := 20) +contextual [Dev.ageHolds, *]

@[simp] theorem Dev.ideIntegrityFailure_held (o : Store) (a0 : Dev) (a1) (a2) (h0 : Held o a0) : Held o (@Dev.ideIntegrityFailure a0 a1 a2) := by
  simp (maxDischargeDepth := 20) +contextual [Dev.ideIntegrityFailure, *]

@[simp] theorem Dev.hostLinkUp_held (o : Store) (a0 : Dev) (a1) (a2) (a3) (h0 : Held o a0) : Held o (@Dev.hostLinkUp a0 a1 a2 a3) := by
  simp (maxDischargeDepth := 20) +contextual [Dev.hostLinkUp, *]

@[simp] theorem Dev.ideKeyProgram_held (o : Store) (a0 : Dev) (a1) (a2) (a3) (h0 : Held o a0) : Held o (@Dev.ideKeyProgram a0 a1 a2 a3) := by
  simp (maxDischargeDepth := 20) +contextual [Dev.ideKeyProgram, *]

@[simp] theorem Dev.pertWrite_held (o : Store) (a0 : Dev) (a1) (a2) (a3) (h0 : Held o a0) : Held o (@Dev.pertWrite a0 a1 a2 a3).1 := by
  unfold Dev.pertWrite
  repeat' first | assumption | intro _ | with_reducible apply held_ite | with_reducible apply held_forAll | with_reducible apply held_foldl | with_reducible apply held_when | with_reducible apply held_foldl_fst | with_reducible apply held_ite_fst | with_reducible apply held_ite_snd | with_reducible apply Dev.setPert_held | with_reducible apply Dev.raise_held | with_reducible apply Dev.pertStop_held | (with_reducible refine Dev.pertGo_held _ _ _ ?_ _ (by assumption))| (with_reducible refine Dev.pertGo_held _ _ _ _ ?_ _ (by assumption))| (with_reducible refine Dev.pertGo_held _ _ _ _ _ ?_ _ (by assumption))| (with_reducible refine Dev.pertGo_held _ _ _ _ _ _ ?_ _ (by assumption)) | (simp only [held_mk, heldMem_dev]; done) | split | (simp only [held_mk, heldMem_dev])

@[simp] theorem Dev.ctSide_held (o : Store) (a0 : Dev) (a1) (a2) (h0 : Held o a0) : Held o (@Dev.ctSide a0 a1 a2).1 := by
  unfold Dev.ctSide
  repeat' first | assumption | intro _ | with_reducible apply held_ite | with_reducible apply held_forAll | with_reducible apply held_foldl | with_reducible apply held_when | with_reducible apply held_foldl_fst | with_reducible apply held_ite_fst | with_reducible apply held_ite_snd | with_reducible apply Dev.setClk_held | with_reducible apply Dev.clearPend_held | with_reducible apply Dev.cntWrite_held | with_reducible apply Dev.bwWrite_held | with_reducible apply Dev.pertWrite_held | (simp only [held_mk, heldMem_dev]; done) | split | (simp only [held_mk, heldMem_dev])

@[simp] theorem Dev.mctpControl_held (o : Store) (a0 : Dev) (a1) (h0 : Held o a0) (h1 : ∀ y0, Held o y0 → Held o (a1 y0)) : Held o (@Dev.mctpControl a0 a1) := by
  unfold Dev.mctpControl
  try dsimp only
  repeat' first | assumption | intro _ | with_reducible apply held_ite | with_reducible apply held_forAll | with_reducible apply held_foldl | with_reducible apply held_when | with_reducible apply held_foldl_fst | with_reducible apply held_ite_fst | with_reducible apply held_ite_snd | with_reducible apply Dev.wake_held | (simp only [held_mk, heldMem_dev]; done) | split | (simp only [held_mk, heldMem_dev]) | (simp_all; done)

@[simp] theorem Dev.getEndpointId_held (o : Store) (a0 : Dev) (h0 : Held o a0) : Held o (@Dev.getEndpointId a0) := by
  simp +contextual [Dev.getEndpointId, *]

@[simp] theorem Dev.cxl_held (o : Store) (a0 : Dev) (a1) (a2) (a3) (h0 : Held o a0) : Held o (@Dev.cxl a0 a1 a2 a3) := by
  simp +contextual [Dev.cxl, *]

@[simp] theorem Dev.identify_held (o : Store) (a0 : Dev) (a1) (h0 : Held o a0) : Held o (@Dev.identify a0 a1) := by
  simp +contextual [Dev.identify, *]

@[simp] theorem Dev.requestAbort_held (o : Store) (a0 : Dev) (a1) (h0 : Held o a0) : Held o (@Dev.requestAbort a0 a1) := by
  unfold Dev.requestAbort
  repeat' first | assumption | intro _ | with_reducible apply held_ite | with_reducible apply held_forAll | with_reducible apply held_foldl | with_reducible apply held_when | with_reducible apply held_foldl_fst | with_reducible apply held_ite_fst | with_reducible apply held_ite_snd | with_reducible apply Dev.gated_held | with_reducible apply Dev.askAbort_held | with_reducible apply Dev.reply_held | (simp only [held_mk, heldMem_dev]; done) | split | (simp only [held_mk, heldMem_dev])

@[simp] theorem Dev.getFwInfo_held (o : Store) (a0 : Dev) (a1) (h0 : Held o a0) : Held o (@Dev.getFwInfo a0 a1) := by
  simp (maxDischargeDepth := 20) +contextual [Dev.getFwInfo, *]

@[simp] theorem Dev.dynamicAddress_held (o : Store) (a0 : Dev) (a1) (h0 : Held o a0) : Held o (@Dev.dynamicAddress a0 a1) := by
  simp (maxDischargeDepth := 20) +contextual [Dev.dynamicAddress, *]

@[simp] theorem Dev.getDcdInfo_held (o : Store) (a0 : Dev) (a1) (h0 : Held o a0) : Held o (@Dev.getDcdInfo a0 a1) := by
  simp (maxDischargeDepth := 20) +contextual [Dev.getDcdInfo, *]

@[simp] theorem Dev.releaseRange_held (o : Store) (a0 : Dev) (a1) (a2) (h0 : Held o a0) : Held o (@Dev.releaseRange a0 a1 a2) := by
  unfold Dev.releaseRange
  (repeat' split) <;> simp (maxDischargeDepth := 20) +contextual [*]

@[simp] theorem Dev.getReclaimRequest_held (o : Store) (a0 : Dev) (a1) (a2) (h0 : Held o a0) : Held o (@Dev.getReclaimRequest a0 a1 a2) := by
  simp (maxDischargeDepth := 20) +contextual [Dev.getReclaimRequest, *]

@[simp] theorem Dev.initiateDcRelease_held (o : Store) (a0 : Dev) (a1) (a2) (a3) (h0 : Held o a0) : Held o (@Dev.initiateDcRelease a0 a1 a2 a3) := by
  simp (maxDischargeDepth := 20) +contextual [Dev.initiateDcRelease, *]

@[simp] theorem Dev.getSupportedLogs_held (o : Store) (a0 : Dev) (a1) (h0 : Held o a0) : Held o (@Dev.getSupportedLogs a0 a1) := by
  simp (maxDischargeDepth := 20) +contextual [Dev.getSupportedLogs, *]

@[simp] theorem Dev.unsupportedCommand_held (o : Store) (a0 : Dev) (a1) (a2) (h0 : Held o a0) : Held o (@Dev.unsupportedCommand a0 a1 a2) := by
  simp (maxDischargeDepth := 20) +contextual [Dev.unsupportedCommand, *]

@[simp] theorem Dev.getTimestamp_held (o : Store) (a0 : Dev) (a1) (h0 : Held o a0) : Held o (@Dev.getTimestamp a0 a1) := by
  simp (maxDischargeDepth := 20) +contextual [Dev.getTimestamp, *]

@[simp] theorem Dev.getLog_held (o : Store) (a0 : Dev) (a1) (a2) (a3) (h0 : Held o a0) : Held o (@Dev.getLog a0 a1 a2 a3) := by
  simp (maxDischargeDepth := 20) +contextual [Dev.getLog, *]

@[simp] theorem Dev.aboutHead_held (o : Store) (a0 : Dev) (a1) (a2) (a3) (h0 : Held o a0) (h3 : ∀ y0, Held o y0 → Held o (a3 y0)) : Held o (@Dev.aboutHead a0 a1 a2 a3) := by
  simp (maxDischargeDepth := 20) +contextual [Dev.aboutHead, *]

@[simp] theorem Dev.getHostDcRegionConfig_held (o : Store) (a0 : Dev) (a1) (a2) (h0 : Held o a0) : Held o (@Dev.getHostDcRegionConfig a0 a1 a2) := by
  simp (maxDischargeDepth := 20) +contextual [Dev.getHostDcRegionConfig, *]

@[simp] theorem Dev.releaseRangeComplete_held (o : Store) (a0 : Dev) (a1) (h0 : Held o a0) : Held o (@Dev.releaseRangeComplete a0 a1) := by
  unfold Dev.releaseRangeComplete
  repeat' first | assumption | intro _ | with_reducible apply held_ite | with_reducible apply held_forAll | with_reducible apply held_foldl | with_reducible apply held_when | with_reducible apply held_foldl_fst | with_reducible apply held_ite_fst | with_reducible apply held_ite_snd | with_reducible apply Dev.finishBg_held | (simp only [held_mk, heldMem_dev]; done) | split | (simp only [held_mk, heldMem_dev])

theorem Dev.overlayWrite_held (o : Store) (a0 : Dev) (a1) (a2) (a3) (h0 : Held o a0) : ∀ e, (@Dev.overlayWrite a0 a1 a2 a3) = .ok e → Held o e := by
  intro e he
  unfold Dev.overlayWrite at he
  extract_lets t d at he
  have hd : Held o d := held_ite _ _ _ _ (Dev.reopen_held _ _ h0) h0
  clear_value d
  repeat (split at he; · simp at he)
  simp only [Except.ok.injEq] at he
  subst he
  exact Dev.setTxn_held _ _ _ hd

@[simp] theorem Dev.identifyMemoryDevice_held (o : Store) (a0 : Dev) (a1) (h0 : Held o a0) : Held o (@Dev.identifyMemoryDevice a0 a1) := by
  simp (maxDischargeDepth := 20) +contextual [Dev.identifyMemoryDevice, *]

@[simp] theorem Dev.getHeadInfo_held (o : Store) (a0 : Dev) (a1) (a2) (h0 : Held o a0) : Held o (@Dev.getHeadInfo a0 a1 a2) := by
  simp (maxDischargeDepth := 20) +contextual [Dev.getHeadInfo, *]

@[simp] theorem Dev.setDcRegionConfig_held (o : Store) (a0 : Dev) (a1) (a2) (h0 : Held o a0) : Held o (@Dev.setDcRegionConfig a0 a1 a2) := by
  simp (maxDischargeDepth := 20) +contextual [Dev.setDcRegionConfig, *]

@[simp] theorem Dev.mctpGetVersion_held (o : Store) (a0 : Dev) (h0 : Held o a0) : Held o (@Dev.mctpGetVersion a0) := by
  simp (maxDischargeDepth := 20) +contextual [Dev.mctpGetVersion, *]

@[simp] theorem Dev.getPoisonList_held (o : Store) (a0 : Dev) (a1) (a2) (a3) (h0 : Held o a0) : Held o (@Dev.getPoisonList a0 a1 a2 a3) := by
  simp (maxDischargeDepth := 20) +contextual [Dev.getPoisonList, *]

@[simp] theorem Dev.releaseDc_held (o : Store) (a0 : Dev) (a1) (a2) (h0 : Held o a0) : Held o (@Dev.releaseDc a0 a1 a2) := by
  simp (maxDischargeDepth := 20) +contextual [Dev.releaseDc, *]

@[simp] theorem Dev.setTimestamp_held (o : Store) (a0 : Dev) (a1) (a2) (h0 : Held o a0) : Held o (@Dev.setTimestamp a0 a1 a2) := by
  unfold Dev.setTimestamp
  exact Dev.gated_held _ _ _ _ _ h0 fun d hd => Dev.reply_held _ _ _ _ _ _ hd

@[simp] theorem Dev.getDcRegionExtentLists_held (o : Store) (a0 : Dev) (a1) (a2) (h0 : Held o a0) : Held o (@Dev.getDcRegionExtentLists a0 a1 a2) := by
  simp (maxDischargeDepth := 20) +contextual [Dev.getDcRegionExtentLists, *]

@[simp] theorem Dev.readEffect_held (o : Store) (a0 : Dev) (a1) (h0 : Held o a0) : Held o (@Dev.readEffect a0 a1) := by
  unfold Dev.readEffect
  repeat' first | assumption | intro _ | with_reducible apply held_ite | with_reducible apply held_forAll | with_reducible apply held_foldl | with_reducible apply held_when | with_reducible apply held_foldl_fst | with_reducible apply held_ite_fst | with_reducible apply held_ite_snd | with_reducible apply Dev.setSup_held | with_reducible apply Dev.setBw_held | (simp only [held_mk, heldMem_dev]; done) | split | (simp only [held_mk, heldMem_dev])

@[simp] theorem Dev.managementRead_held (o : Store) (a0 : Dev) (a1) (a2) (h0 : Held o a0) : Held o (@Dev.managementRead a0 a1 a2) := by
  simp (maxDischargeDepth := 20) +contextual [Dev.managementRead, *]

@[simp] theorem Dev.setEndpointId_held (o : Store) (a0 : Dev) (a1) (h0 : Held o a0) : Held o (@Dev.setEndpointId a0 a1) := by
  unfold Dev.setEndpointId
  repeat' first | assumption | intro _ | with_reducible apply held_ite | with_reducible apply held_forAll | with_reducible apply held_foldl | with_reducible apply held_when | with_reducible apply held_foldl_fst | with_reducible apply held_ite_fst | with_reducible apply held_ite_snd | with_reducible apply Dev.mctpControl_held | with_reducible apply Dev.emit_held | (simp only [held_mk, heldMem_dev]; done) | split | (simp only [held_mk, heldMem_dev])

@[simp] theorem Dev.getSldQosStatus_held (o : Store) (a0 : Dev) (a1) (h0 : Held o a0) : Held o (@Dev.getSldQosStatus a0 a1) := by
  simp (maxDischargeDepth := 20) +contextual [Dev.getSldQosStatus, *]

@[simp] theorem Dev.initiateDcAdd_held (o : Store) (a0 : Dev) (a1) (a2) (a3) (h0 : Held o a0) : Held o (@Dev.initiateDcAdd a0 a1 a2 a3) := by
  simp (maxDischargeDepth := 20) +contextual [Dev.initiateDcAdd, *]

@[simp] theorem Dev.getRankStatus_held (o : Store) (a0 : Dev) (a1) (a2) (h0 : Held o a0) : Held o (@Dev.getRankStatus a0 a1 a2) := by
  unfold Dev.getRankStatus
  repeat' first | assumption | intro _ | with_reducible apply held_ite | with_reducible apply held_forAll | with_reducible apply held_foldl | with_reducible apply held_when | with_reducible apply held_foldl_fst | with_reducible apply held_ite_fst | with_reducible apply held_ite_snd | with_reducible apply Dev.gated_held | with_reducible apply Dev.vend_held | with_reducible apply Dev.reply_held | (simp only [held_mk, heldMem_dev]; done) | split | (simp only [held_mk, heldMem_dev])

@[simp] theorem Dev.getHealthInfo_held (o : Store) (a0 : Dev) (a1) (h0 : Held o a0) : Held o (@Dev.getHealthInfo a0 a1) := by
  simp (maxDischargeDepth := 20) +contextual [Dev.getHealthInfo, *]

@[simp] theorem Dev.addDcResponse_held (o : Store) (a0 : Dev) (a1) (a2) (h0 : Held o a0) : Held o (@Dev.addDcResponse a0 a1 a2) := by
  simp (maxDischargeDepth := 20) +contextual [Dev.addDcResponse, *]

@[simp] theorem Dev.deviceReset_held (o : Store) (a0 : Dev) (a1) (a2) (h0 : Held o a0) : Held o (@Dev.deviceReset a0 a1 a2) := by
  unfold Dev.deviceReset
  repeat' first | assumption | intro _ | with_reducible apply held_ite | with_reducible apply held_forAll | with_reducible apply held_foldl | with_reducible apply held_when | with_reducible apply held_foldl_fst | with_reducible apply held_ite_fst | with_reducible apply held_ite_snd | with_reducible apply Dev.gated_held | with_reducible apply Dev.vend_held | with_reducible apply Dev.reply_held | (simp only [held_mk, heldMem_dev]; done) | split | (simp only [held_mk, heldMem_dev])

@[simp] theorem Dev.getMessageTypeSupport_held (o : Store) (a0 : Dev) (h0 : Held o a0) : Held o (@Dev.getMessageTypeSupport a0) := by
  simp (maxDischargeDepth := 20) +contextual [Dev.getMessageTypeSupport, *]

@[simp] theorem Dev.getSldQosControl_held (o : Store) (a0 : Dev) (a1) (h0 : Held o a0) : Held o (@Dev.getSldQosControl a0 a1) := by
  simp (maxDischargeDepth := 20) +contextual [Dev.getSldQosControl, *]

@[simp] theorem Dev.getMultiHeadedInfo_held (o : Store) (a0 : Dev) (a1) (h0 : Held o a0) : Held o (@Dev.getMultiHeadedInfo a0 a1) := by
  simp (maxDischargeDepth := 20) +contextual [Dev.getMultiHeadedInfo, *]

@[simp] theorem Dev.retireRank_held (o : Store) (a0 : Dev) (a1) (a2) (h0 : Held o a0) : Held o (@Dev.retireRank a0 a1 a2) := by
  unfold Dev.retireRank
  repeat' first | assumption | intro _ | with_reducible apply held_ite | with_reducible apply held_forAll | with_reducible apply held_foldl | with_reducible apply held_when | with_reducible apply held_foldl_fst | with_reducible apply held_ite_fst | with_reducible apply held_ite_snd | with_reducible apply Dev.gated_held | with_reducible apply Dev.vend_held | with_reducible apply Dev.reply_held | with_reducible apply Dev.asBg_held | with_reducible apply Dev.startBg_held | with_reducible apply Dev.retireNow_held | (simp only [held_mk, heldMem_dev]; done) | split | (simp only [held_mk, heldMem_dev])

@[simp] theorem Dev.setSldQosControl_held (o : Store) (a0 : Dev) (a1) (a2) (a3) (a4) (a5) (h0 : Held o a0) : Held o (@Dev.setSldQosControl a0 a1 a2 a3 a4 a5) := by
  unfold Dev.setSldQosControl
  repeat' first | assumption | intro _ | with_reducible apply held_ite | with_reducible apply held_forAll | with_reducible apply held_foldl | with_reducible apply held_when | with_reducible apply held_foldl_fst | with_reducible apply held_ite_fst | with_reducible apply held_ite_snd | with_reducible apply Dev.gated_held | with_reducible apply Dev.reply_held | with_reducible apply Dev.busy104_held | (simp only [held_mk, heldMem_dev]; done) | split | (simp only [held_mk, heldMem_dev])

@[simp] theorem Dev.scheduleRegisterWrite_held (o : Store) (a0 : Dev) (a1) (a2) (h0 : Held o a0) : Held o (@Dev.scheduleRegisterWrite a0 a1 a2) := by
  unfold Dev.scheduleRegisterWrite
  refine Dev.gated_held _ _ _ _ _ h0 fun d hd => Dev.vend_held _ _ _ _ _ _ _ hd fun d hd => ?_
  extract_lets a v n
  refine held_ite _ _ _ _ (Dev.reply_held _ _ _ _ _ _ hd) (held_ite _ _ _ _ (Dev.reply_held _ _ _ _ _ _ hd) ?_)
  split
  · rename_i hq
    have hk := Dev.queueAct_held _ _ _ _ _ hd _ hq
    exact Dev.reply_held _ _ _ _ _ _ hk
  · exact Dev.reply_held _ _ _ _ _ _ (Dev.raise_held _ _ _ _ _ hd)

@[simp] theorem Dev.getHarluodIdentity_held (o : Store) (a0 : Dev) (a1) (a2) (h0 : Held o a0) : Held o (@Dev.getHarluodIdentity a0 a1 a2) := by
  simp (maxDischargeDepth := 20) +contextual [Dev.getHarluodIdentity, *]

end Sys2Proof.Machine
end

