-- ==== Sys2Proof/Laws/HeldReset.lean ====
section
/-! SUPPORT. The operations that touch no stored data: the DRAM, the cistern, the well map and the marks of poisoned granules are as they were
after each of them. -/

namespace Sys2Proof.Machine

open Sys2Proof

set_option linter.unreachableTactic false
set_option linter.unusedTactic false
set_option linter.unusedSimpArgs false

@[simp] theorem Dev.primeFrames_held (o : Store) (a0 : Dev) (h0 : Held o a0) : Held o (@Dev.primeFrames a0) := by
  unfold Dev.primeFrames
  repeat' first | assumption | intro _ | with_reducible apply held_ite | with_reducible apply held_forAll | with_reducible apply held_foldl | with_reducible apply held_when | with_reducible apply held_foldl_fst | with_reducible apply held_ite_fst | with_reducible apply held_ite_snd | with_reducible apply forAll_held | with_reducible apply Dev.recompute_held | with_reducible apply Dev.raise_held | (with_reducible refine Dev.reserveTile_held _ _ _ ?_ _ (by assumption))| (with_reducible refine Dev.reserveTile_held _ _ _ _ ?_ _ (by assumption))| (with_reducible refine Dev.reserveTile_held _ _ _ _ _ ?_ _ (by assumption))| (with_reducible refine Dev.reserveTile_held _ _ _ _ _ _ ?_ _ (by assumption)) | (simp only [held_mk, heldMem_dev]; done) | split | (simp only [held_mk, heldMem_dev])

@[simp] theorem Dev.bootRails_held (o : Store) (a0 : Dev) (h0 : Held o a0) : Held o (@Dev.bootRails a0) := by
  simp (maxDischargeDepth := 20) +contextual [Dev.bootRails, *]

@[simp] theorem Dev.discardPending_held (o : Store) (a0 : Dev) (h0 : Held o a0) : Held o (@Dev.discardPending a0) := by
  simp (maxDischargeDepth := 20) +contextual [Dev.discardPending, *]

@[simp] theorem Dev.braceOver_held (o : Store) (a0 : Dev) (h0 : Held o a0) : Held o (@Dev.braceOver a0) := by
  simp (maxDischargeDepth := 20) +contextual [Dev.braceOver, *]

@[simp] theorem Dev.holdTile_held (o : Store) (a0 : Dev) (a1) (h0 : Held o a0) : Held o (@Dev.holdTile a0 a1) := by
  simp (maxDischargeDepth := 20) +contextual [Dev.holdTile, *]

@[simp] theorem Dev.checkLimit_held (o : Store) (a0 : Dev) (h0 : Held o a0) : Held o (@Dev.checkLimit a0) := by
  unfold Dev.checkLimit
  repeat' first | assumption | intro _ | with_reducible apply held_ite | with_reducible apply held_forAll | with_reducible apply held_foldl | with_reducible apply held_when | with_reducible apply held_foldl_fst | with_reducible apply held_ite_fst | with_reducible apply held_ite_snd | with_reducible apply Dev.raise_held | (simp only [held_mk, heldMem_dev]; done) | split | (simp only [held_mk, heldMem_dev])

@[simp] theorem Dev.freshEpoch_held (o : Store) (a0 : Dev) (h0 : Held o a0) : Held o (@Dev.freshEpoch a0) := by
  simp (maxDischargeDepth := 20) +contextual [Dev.freshEpoch, *]

@[simp] theorem Dev.engineLost_held (o : Store) (a0 : Dev) (a1) (h0 : Held o a0) : Held o (@Dev.engineLost a0 a1) := by
  unfold Dev.engineLost
  repeat' first | assumption | intro _ | with_reducible apply held_ite | with_reducible apply held_forAll | with_reducible apply held_foldl | with_reducible apply held_when | with_reducible apply held_foldl_fst | with_reducible apply held_ite_fst | with_reducible apply held_ite_snd | with_reducible apply Dev.decodeError_held | with_reducible apply Dev.raise_held | with_reducible apply Dev.haltPump_held | (simp only [held_mk, heldMem_dev]; done) | split | (simp only [held_mk, heldMem_dev])

@[simp] theorem Dev.tileResetRelease_held (o : Store) (a0 : Dev) (a1) (h0 : Held o a0) : Held o (@Dev.tileResetRelease a0 a1) := by
  simp (maxDischargeDepth := 20) +contextual [Dev.tileResetRelease, *]

@[simp] theorem Dev.freshDomain0_held (o : Store) (a0 : Dev) (h0 : Held o a0) : Held o (@Dev.freshDomain0 a0) := by
  unfold Dev.freshDomain0
  repeat' first | assumption | intro _ | with_reducible apply held_ite | with_reducible apply held_forAll | with_reducible apply held_foldl | with_reducible apply held_when | with_reducible apply held_foldl_fst | with_reducible apply held_ite_fst | with_reducible apply held_ite_snd | with_reducible apply Dev.setKd_held | (simp only [held_mk, heldMem_dev]; done) | split | (simp only [held_mk, heldMem_dev])

@[simp] theorem Dev.primed_held (o : Store) (a0 : Dev) (h0 : Held o a0) : Held o (@Dev.primed a0) := by
  unfold Dev.primed
  split
  · refine held_ite _ _ _ _ h0 ?_
    rename_i live _
    extract_lets d1 d2 t p d3 d4 d5 dS cS d6
    have h1 : Held o d1 := by
      simp only [d1]
      apply Dev.checkLimit_held
      apply Dev.primeFrames_held
      exact h0
    have h2 : Held o d2 := by simp (maxDischargeDepth := 20) [d2, *]
    clear_value d2
    have h3 : Held o d3 := Dev.exitTimes_held _ _ h2
    clear_value d3
    have h4 : Held o d4 := Dev.raise_held _ _ _ _ _ h3
    clear_value d4
    have h5 : Held o d5 := held_forAll _ _ _ _ h4 fun d x hd => Dev.capacityRecord_held _ _ _ hd
    clear_value d5
    have h6 : Held o d6 := by
      refine held_ite _ _ _ _ (Dev.commitDone_held _ _ _ ?_) h5
      exact Dev.setSlotState_held _ _ _ _ h5
    clear_value d6
    exact held_ite _ _ _ _ (Dev.startPull_held _ _ h6) h6
  · exact h0

@[simp] theorem Dev.loseStrokes_held (o : Store) (a0 : Dev) (h0 : Held o a0) : Held o (@Dev.loseStrokes a0) := h0

@[simp] theorem Dev.resetNDeassertion_held (o : Store) (a0 : Dev) (a1) (h0 : Held o a0) : Held o (@Dev.resetNDeassertion a0 a1) := by
  unfold Dev.resetNDeassertion
  repeat' first | assumption | intro _ | with_reducible apply held_ite | with_reducible apply held_forAll | with_reducible apply held_foldl | with_reducible apply held_when | with_reducible apply held_foldl_fst | with_reducible apply held_ite_fst | with_reducible apply held_ite_snd | with_reducible apply Dev.setClk_held | with_reducible apply Dev.primeBegin_held | (simp only [held_mk, heldMem_dev]; done) | split | (simp only [held_mk, heldMem_dev])

@[simp] theorem Dev.opChange_held (o : Store) (a0 : Dev) (h0 : Held o a0) : Held o (@Dev.opChange a0) := by
  unfold Dev.opChange
  repeat' first | assumption | intro _ | with_reducible apply held_ite | with_reducible apply held_forAll | with_reducible apply held_foldl | with_reducible apply held_when | with_reducible apply held_foldl_fst | with_reducible apply held_ite_fst | with_reducible apply held_ite_snd | with_reducible apply Dev.startOp_held | (simp only [held_mk, heldMem_dev]; done) | split | (simp only [held_mk, heldMem_dev])

@[simp] theorem Dev.withOp_held (o : Store) (a0 : Dev) (a1) (h0 : Held o a0) (h1 : ∀ y0, Held o y0 → Held o (a1 y0)) : Held o (@Dev.withOp a0 a1) := by
  simp (maxDischargeDepth := 20) +contextual [Dev.withOp, *]

@[simp] theorem Dev.reassertN_held (o : Store) (a0 : Dev) (h0 : Held o a0) : Held o (@Dev.reassertN a0) := by
  unfold Dev.reassertN
  repeat' first | assumption | intro _ | with_reducible apply held_ite | with_reducible apply held_forAll | with_reducible apply held_foldl | with_reducible apply held_when | with_reducible apply held_foldl_fst | with_reducible apply held_ite_fst | with_reducible apply held_ite_snd | with_reducible apply Dev.reassert_held | (simp only [held_mk, heldMem_dev]; done) | split | (simp only [held_mk, heldMem_dev])

@[simp] theorem Dev.nvmBoundary_held (o : Store) (a0 : Dev) (h0 : Held o a0) : Held o (@Dev.nvmBoundary a0) := by
  unfold Dev.nvmBoundary
  repeat' first | assumption | intro _ | with_reducible apply held_ite | with_reducible apply held_forAll | with_reducible apply held_foldl | with_reducible apply held_when | with_reducible apply held_foldl_fst | with_reducible apply held_ite_fst | with_reducible apply held_ite_snd  | (simp only [held_mk, heldMem_dev]; done) | split | (simp only [held_mk, heldMem_dev])

@[simp] theorem Dev.rollBackBg_held (o : Store) (a0 : Dev) (a1) (h0 : Held o a0) : Held o (@Dev.rollBackBg a0 a1) := by
  unfold Dev.rollBackBg
  repeat' first | assumption | intro _ | with_reducible apply held_ite | with_reducible apply held_forAll | with_reducible apply held_foldl | with_reducible apply held_when | with_reducible apply held_foldl_fst | with_reducible apply held_ite_fst | with_reducible apply held_ite_snd | with_reducible apply Dev.finishBg_held | with_reducible apply Dev.touchTxn_held | with_reducible apply Dev.rollBackTxn_held | with_reducible apply Dev.rootAbort_held | with_reducible apply Dev.abortEvacs_held | with_reducible apply Dev.retireBack_held | with_reducible apply Dev.rejoinBack_held | with_reducible apply Dev.setDom_held | with_reducible apply Dev.endHeadRest_held | (simp only [held_mk, heldMem_dev]; done) | split | (simp only [held_mk, heldMem_dev])

@[simp] theorem Dev.abortBoundary_held (o : Store) (a0 : Dev) (h0 : Held o a0) : Held o (@Dev.abortBoundary a0) := by
  unfold Dev.abortBoundary
  repeat' first | assumption | intro _ | with_reducible apply held_ite | with_reducible apply held_forAll | with_reducible apply held_foldl | with_reducible apply held_when | with_reducible apply held_foldl_fst | with_reducible apply held_ite_fst | with_reducible apply held_ite_snd | with_reducible apply forAll_held | with_reducible apply Dev.reply_held | with_reducible apply Dev.mapBg_held | with_reducible apply Dev.rollBackBg_held | (simp only [held_mk, heldMem_dev]; done) | split | (simp only [held_mk, heldMem_dev])

@[simp] theorem Dev.setTime_held (o : Store) (a0 : Dev) (a1) (h0 : Held o a0) : Held o (@Dev.setTime a0 a1) := h0

@[simp] theorem Dev.overruns_held (o : Store) (a0 : Dev) (a1) (h0 : Held o a0) : Held o (@Dev.overruns a0 a1) := by
  simp (maxDischargeDepth := 20) +contextual [Dev.overruns, *]

@[simp] theorem Dev.rankBoundary_held (o : Store) (a0 : Dev) (a1 : Dev) (h0 : Held o a0) : Held o (@Dev.rankBoundary a0 a1) := by
  simp (maxDischargeDepth := 20) +contextual [Dev.rankBoundary, *]

@[simp] theorem Dev.skewPort_held (o : Store) (a0 : Dev) (a1 : Dev) (a2) (h0 : Held o a0) : Held o (@Dev.skewPort a0 a1 a2) := by
  unfold Dev.skewPort
  repeat' first | assumption | intro _ | with_reducible apply held_ite | with_reducible apply held_forAll | with_reducible apply held_foldl | with_reducible apply held_when | with_reducible apply held_foldl_fst | with_reducible apply held_ite_fst | with_reducible apply held_ite_snd | with_reducible apply Dev.setPort_held | with_reducible apply Dev.raise_held | with_reducible apply Dev.startPull_held | (simp only [held_mk, heldMem_dev]; done) | split | (simp only [held_mk, heldMem_dev])

@[simp] theorem Dev.dryBoundary_held (o : Store) (a0 : Dev) (a1 : Dev) (h0 : Held o a0) : Held o (@Dev.dryBoundary a0 a1) := by
  unfold Dev.dryBoundary
  repeat' first | assumption | intro _ | with_reducible apply held_ite | with_reducible apply held_forAll | with_reducible apply held_foldl | with_reducible apply held_when | with_reducible apply held_foldl_fst | with_reducible apply held_ite_fst | with_reducible apply held_ite_snd | with_reducible apply forAll_held | with_reducible apply Dev.raiseI_held | (simp only [held_mk, heldMem_dev]; done) | split | (simp only [held_mk, heldMem_dev])

@[simp] theorem Dev.strokeFrame_held (o : Store) (a0 : Dev) (a1) (a2) (h0 : Held o a0) : Held o (@Dev.strokeFrame a0 a1 a2) := by
  unfold Dev.strokeFrame
  repeat' first | assumption | intro _ | with_reducible apply held_ite | with_reducible apply held_forAll | with_reducible apply held_foldl | with_reducible apply held_when | with_reducible apply held_foldl_fst | with_reducible apply held_ite_fst | with_reducible apply held_ite_snd | with_reducible apply Dev.setPort_held | (simp only [held_mk, heldMem_dev]; done) | split | (simp only [held_mk, heldMem_dev])

@[simp] theorem Dev.tick_held (o : Store) (a0 : Dev) (a1) (h0 : Held o a0) : Held o (@Dev.tick a0 a1) := h0

@[simp] theorem Dev.reclaimRequest_held (o : Store) (a0 : Dev) (a1) (h0 : Held o a0) : Held o (@Dev.reclaimRequest a0 a1) := by
  simp (maxDischargeDepth := 20) +contextual [Dev.reclaimRequest, *]

@[simp] theorem Dev.floatBoundary_held (o : Store) (a0 : Dev) (a1 : Dev) (a2) (h0 : Held o a0) : Held o (@Dev.floatBoundary a0 a1 a2) := by
  simp (maxDischargeDepth := 20) +contextual [Dev.floatBoundary, *]

@[simp] theorem Dev.correctPhase_held (o : Store) (a0 : Dev) (a1) (h0 : Held o a0) : Held o (@Dev.correctPhase a0 a1) := by
  simp (maxDischargeDepth := 20) +contextual [apply_ite TimeSt.loc, apply_ite TimeSt.tsOfs, Dev.correctPhase, *]

@[simp] theorem Dev.sendMarks_held (o : Store) (a0 : Dev) (h0 : Held o a0) : Held o (@Dev.sendMarks a0) := by
  simp (maxDischargeDepth := 20) +contextual [Dev.sendMarks, *]

@[simp] theorem Dev.phaseCorrection_held (o : Store) (a0 : Dev) (h0 : Held o a0) : Held o (@Dev.phaseCorrection a0) := by
  unfold Dev.phaseCorrection
  repeat' first | assumption | intro _ | with_reducible apply held_ite | with_reducible apply held_forAll | with_reducible apply held_foldl | with_reducible apply held_when | with_reducible apply held_foldl_fst | with_reducible apply held_ite_fst | with_reducible apply held_ite_snd | with_reducible apply Dev.correctPhase_held | with_reducible apply Dev.setPort_held | (simp only [held_mk, heldMem_dev]; done) | split | (simp only [held_mk, heldMem_dev])

@[simp] theorem Dev.holdoverEntry_held (o : Store) (a0 : Dev) (h0 : Held o a0) : Held o (@Dev.holdoverEntry a0) := by
  simp (maxDischargeDepth := 20) +contextual [Dev.holdoverEntry, *]

@[simp] theorem Dev.markBoundary_held (o : Store) (a0 : Dev) (a1 : Dev) (h0 : Held o a0) : Held o (@Dev.markBoundary a0 a1) := by
  unfold Dev.markBoundary
  extract_lets c sp
  have hc : ∀ d, Held o d → Held o (c d) := fun d hd => held_forAll _ _ _ _ hd fun d x hd => Dev.setPort_held _ _ _ _ hd
  clear_value c sp
  exact held_ite _ _ _ _ (hc _ (Dev.setTime_held _ _ _ h0)) (hc _ (Dev.setTime_held _ _ _ h0))

@[simp] theorem Dev.rewriteOfs_held (o : Store) (a0 : Dev) (h0 : Held o a0) : Held o (@Dev.rewriteOfs a0) := by
  unfold Dev.rewriteOfs
  repeat' first | assumption | intro _ | with_reducible apply held_ite | with_reducible apply held_forAll | with_reducible apply held_foldl | with_reducible apply held_when | with_reducible apply held_foldl_fst | with_reducible apply held_ite_fst | with_reducible apply held_ite_snd | with_reducible apply Dev.raise_held | with_reducible apply Dev.setTime_held | (simp only [held_mk, heldMem_dev]; done) | split | (simp only [held_mk, heldMem_dev])

@[simp] theorem Dev.poolMove_held (o : Store) (a0 : Dev) (h0 : Held o a0) : Held o (@Dev.poolMove a0) := by
  simp (maxDischargeDepth := 20) +contextual [Dev.poolMove, *]

@[simp] theorem Dev.alignBoundary_held (o : Store) (a0 : Dev) (a1 : Dev) (h0 : Held o a0) : Held o (@Dev.alignBoundary a0 a1) := by
  simp (maxDischargeDepth := 20) +contextual [Dev.alignBoundary, *]

@[simp] theorem Dev.heldBoundary_held (o : Store) (a0 : Dev) (h0 : Held o a0) : Held o (@Dev.heldBoundary a0) := by
  simp (maxDischargeDepth := 20) +contextual [Dev.heldBoundary, *]

@[simp] theorem Dev.eventRoutes_held (o : Store) (a0 : Dev) (a1 : Dev) (h0 : Held o a0) : Held o (@Dev.eventRoutes a0 a1) := by
  simp (maxDischargeDepth := 20) +contextual [Dev.eventRoutes, *]

@[simp] theorem Dev.loadReset_held (o : Store) (a0 : Dev) (h0 : Held o a0) : Held o (@Dev.loadReset a0) := by
  simp (maxDischargeDepth := 20) +contextual [Dev.loadReset, *]

@[simp] theorem Dev.plantDues_held (o : Store) (a0 : Dev) (a1 : Dev) (h0 : Held o a0) : Held o (@Dev.plantDues a0 a1) := by
  simp (maxDischargeDepth := 20) +contextual [Dev.plantDues, *]

@[simp] theorem Dev.loadBoundary_held (o : Store) (a0 : Dev) (a1 : Dev) (a2) (h0 : Held o a0) : Held o (@Dev.loadBoundary a0 a1 a2) := by
  simp (maxDischargeDepth := 20) +contextual [Dev.loadBoundary, *]

@[simp] theorem Dev.commandDues_held (o : Store) (a0 : Dev) (a1 : Dev) (h0 : Held o a0) : Held o (@Dev.commandDues a0 a1) := by
  simp (maxDischargeDepth := 20) +contextual [Dev.commandDues, *]

@[simp] theorem Dev.waitsBoundary_held (o : Store) (a0 : Dev) (a1 : Dev) (h0 : Held o a0) : Held o (@Dev.waitsBoundary a0 a1) := by
  simp (maxDischargeDepth := 20) +contextual [Dev.waitsBoundary, *]

@[simp] theorem Dev.sendFrames_held (o : Store) (a0 : Dev) (h0 : Held o a0) : Held o (@Dev.sendFrames a0) := by
  simp (maxDischargeDepth := 20) +contextual [Dev.sendFrames, *]

@[simp] theorem Dev.qosBoundary_held (o : Store) (a0 : Dev) (a1 : Dev) (h0 : Held o a0) : Held o (@Dev.qosBoundary a0 a1) := by
  unfold Dev.qosBoundary
  repeat' first | assumption | intro _ | with_reducible apply held_ite | with_reducible apply held_forAll | with_reducible apply held_foldl | with_reducible apply held_when | with_reducible apply held_foldl_fst | with_reducible apply held_ite_fst | with_reducible apply held_ite_snd | with_reducible apply forAll_held | with_reducible apply Dev.overlayReg_held | (simp only [held_mk, heldMem_dev]; done) | split | (simp only [held_mk, heldMem_dev])

@[simp] theorem Dev.pairWord_held (o : Store) (a0 : Dev) (a1) (a2) (a3) (a4) (h0 : Held o a0) : Held o (@Dev.pairWord a0 a1 a2 a3 a4) := by
  simp (maxDischargeDepth := 20) +contextual [Dev.pairWord, *]

end Sys2Proof.Machine
end

