-- ==== Sys2Proof/Laws/KeptOps.lean ====
section
/-! SUPPORT. That the named operations keep both byte memories in canonical form and change the OTP only as it may be burnt: one lemma for each
operation that answers a device. -/

namespace Sys2Proof.Machine

open Sys2Proof

set_option linter.unreachableTactic false
set_option linter.unusedTactic false
set_option linter.unusedSimpArgs false

theorem otpKept_trans {o p q : Otp} (h : OtpKept o p) (g : OtpKept p q) : OtpKept o q where
  life := by rcases g.life with g1 | g1 <;> rcases h.life with h1 | h1 <;> simp [g1, h1]
  revoke := by rw [← h.revoke, BitVec.and_assoc, g.revoke]
  owners := h.owners.trans g.owners
  caps0 := g.caps0.trans h.caps0
  caps1 := g.caps1.trans h.caps1
  serial := g.serial.trans h.serial
  vendorHash := g.vendorHash.trans h.vendorHash
  factoryHash := g.factoryHash.trans h.factoryHash
  certs := g.certs.trans h.certs
  opVolt := g.opVolt.trans h.opVolt

@[simp] theorem Dev.emit_kept (o : Keep) (a0 : Dev) (a1) (h0 : Kept o a0) : Kept o (@Dev.emit a0 a1) := by
  simp +contextual [Dev.emit, *]

@[simp] theorem Dev.setPort_kept (o : Keep) (a0 : Dev) (a1) (a2) (h0 : Kept o a0) : Kept o (@Dev.setPort a0 a1 a2) := by
  simp +contextual [Dev.setPort, *]

@[simp] theorem forAll_kept (o : Keep) (a0) (a1 : Dev) (a2) (a3) (h1 : Kept o a1) (h3 : ∀ y0 y1, Kept o y0 → Kept o (a3 y0 y1)) : Kept o (@forAll a0 a1 a2 a3) := by
  simp +contextual [forAll, *]

@[simp] theorem Dev.reply_kept (o : Keep) (a0 : Dev) (a1) (a2) (a3) (a4) (h0 : Kept o a0) : Kept o (@Dev.reply a0 a1 a2 a3 a4) := by
  simp +contextual [Dev.reply, *]

@[simp] theorem Dev.setDom_kept (o : Keep) (a0 : Dev) (a1) (a2) (h0 : Kept o a0) : Kept o (@Dev.setDom a0 a1 a2) := by
  simp +contextual [Dev.setDom, *]

@[simp] theorem Dev.setMod_kept (o : Keep) (a0 : Dev) (a1) (a2) (h0 : Kept o a0) : Kept o (@Dev.setMod a0 a1 a2) := by
  simp +contextual [Dev.setMod, *]

@[simp] theorem Dev.setRoute_kept (o : Keep) (a0 : Dev) (a1) (a2) (h0 : Kept o a0) : Kept o (@Dev.setRoute a0 a1 a2) := by
  simp +contextual [Dev.setRoute, *]

@[simp] theorem Dev.setCnt_kept (o : Keep) (a0 : Dev) (a1) (a2) (h0 : Kept o a0) : Kept o (@Dev.setCnt a0 a1 a2) := by
  simp +contextual [Dev.setCnt, *]

@[simp] theorem Dev.countEv_kept (o : Keep) (a0 : Dev) (a1) (h0 : Kept o a0) : Kept o (@Dev.countEv a0 a1).1 := by
  unfold Dev.countEv
  repeat' first | assumption | intro _ | split | with_reducible apply kept_forAll | with_reducible apply kept_foldl | with_reducible apply kept_when | with_reducible apply kept_foldl_fst | with_reducible apply kept_ite | with_reducible apply kept_ite_fst | with_reducible apply Dev.setCnt_kept | (simp only [kept_mk, keptMem_dev])

@[simp] theorem Dev.setPend_kept (o : Keep) (a0 : Dev) (a1) (h0 : Kept o a0) : Kept o (@Dev.setPend a0 a1) := by
  simp +contextual [Dev.setPend, *]

@[simp] theorem Dev.setLog_kept (o : Keep) (a0 : Dev) (a1) (a2) (h0 : Kept o a0) : Kept o (@Dev.setLog a0 a1 a2) := by
  simp +contextual [Dev.setLog, *]

@[simp] theorem Dev.logPost_kept (o : Keep) (a0 : Dev) (a1) (a2) (a3) (h0 : Kept o a0) : Kept o (@Dev.logPost a0 a1 a2 a3).1 := by
  simp +contextual only [Dev.logPost]
  (repeat' split) <;> simp +contextual [*]

@[simp] theorem Dev.post_kept (o : Keep) (a0 : Dev) (a1) (a2) (a3) (h0 : Kept o a0) : Kept o (@Dev.post a0 a1 a2 a3).1 := by
  unfold Dev.post
  repeat' first | assumption | intro _ | with_reducible apply kept_ite | with_reducible apply kept_forAll | with_reducible apply kept_foldl | with_reducible apply kept_when | with_reducible apply kept_foldl_fst | with_reducible apply kept_ite_fst | with_reducible apply kept_ite_snd | with_reducible apply Dev.logPost_kept | (simp only [kept_mk, keptMem_dev]; done) | split | (simp only [kept_mk, keptMem_dev])

@[simp] theorem Dev.postAll_kept (o : Keep) (a0 : Dev) (a1) (a2) (a3) (h0 : Kept o a0) : Kept o (@Dev.postAll a0 a1 a2 a3).1 := by
  simp +contextual [Dev.postAll, *]

@[simp] theorem Dev.journalAgain_kept (o : Keep) (a0 : Dev) (a1) (h0 : Kept o a0) : Kept o (@Dev.journalAgain a0 a1) := by
  simp (maxDischargeDepth := 20) +contextual [Dev.journalAgain, *]

@[simp] theorem Dev.journal_kept (o : Keep) (a0 : Dev) (a1) (h0 : Kept o a0) : Kept o (@Dev.journal a0 a1).1 := by
  unfold Dev.journal
  (repeat' split) <;> simp +contextual [*]

@[simp] theorem Dev.raise1_kept (o : Keep) (a0 : Dev) (a1) (a2) (h0 : Kept o a0) : Kept o (@Dev.raise1 a0 a1 a2).1 := by
  unfold Dev.raise1
  repeat' first | assumption | intro _ | with_reducible apply kept_ite | with_reducible apply kept_forAll | with_reducible apply kept_foldl | with_reducible apply kept_when | with_reducible apply kept_foldl_fst | with_reducible apply kept_ite_fst | with_reducible apply kept_ite_snd | with_reducible apply Dev.countEv_kept | with_reducible apply Dev.setPend_kept | with_reducible apply Dev.postAll_kept | with_reducible apply Dev.journalAgain_kept | with_reducible apply Dev.journal_kept | (simp only [kept_mk, keptMem_dev]; done) | split | (simp only [kept_mk, keptMem_dev])

@[simp] theorem Dev.raiseI_kept (o : Keep) (a0 : Dev) (a1) (a2) (h0 : Kept o a0) : Kept o (@Dev.raiseI a0 a1 a2) := by
  simp +contextual [Dev.raiseI, *]

@[simp] theorem Dev.raise_kept (o : Keep) (a0 : Dev) (a1) (a2) (a3) (h0 : Kept o a0) : Kept o (@Dev.raise a0 a1 a2 a3) := by
  simp +contextual [Dev.raise, *]

@[simp] theorem Dev.record_kept (o : Keep) (a0 : Dev) (a1) (a2) (a3) (a4) (a5) (a6) (a7) (h0 : Kept o a0) : Kept o (@Dev.record a0 a1 a2 a3 a4 a5 a6 a7) := by
  simp +contextual [Dev.record, *]

@[simp] theorem Dev.setHs_kept (o : Keep) (a0 : Dev) (a1) (a2) (h0 : Kept o a0) : Kept o (@Dev.setHs a0 a1 a2) := by
  simp +contextual [Dev.setHs, *]

@[simp] theorem Dev.setTile_kept (o : Keep) (a0 : Dev) (a1) (a2) (h0 : Kept o a0) : Kept o (@Dev.setTile a0 a1 a2) := by
  simp +contextual [Dev.setTile, *]

@[simp] theorem Dev.setEntry_kept (o : Keep) (a0 : Dev) (a1) (a2) (h0 : Kept o a0) : Kept o (@Dev.setEntry a0 a1 a2) := by
  simp +contextual [Dev.setEntry, *]

@[simp] theorem Dev.setChan_kept (o : Keep) (a0 : Dev) (a1) (a2) (h0 : Kept o a0) : Kept o (@Dev.setChan a0 a1 a2) := by
  simp +contextual [Dev.setChan, *]

@[simp] theorem Dev.finishBg_kept (o : Keep) (a0 : Dev) (a1) (a2) (a3) (a4) (h0 : Kept o a0) : Kept o (@Dev.finishBg a0 a1 a2 a3 a4) := by
  unfold Dev.finishBg
  repeat' first | assumption | intro _ | split | with_reducible apply kept_forAll | with_reducible apply kept_foldl | with_reducible apply kept_when | with_reducible apply kept_foldl_fst | with_reducible apply kept_ite | with_reducible apply kept_ite_fst | with_reducible apply Dev.reply_kept | (simp only [kept_mk, keptMem_dev])

@[simp] theorem Dev.setPwr_kept (o : Keep) (a0 : Dev) (a1) (h0 : Kept o a0) : Kept o (@Dev.setPwr a0 a1) := by
  simp +contextual [Dev.setPwr, *]

@[simp] theorem Dev.writeLed_kept (o : Keep) (a0 : Dev) (a1) (h0 : Kept o a0) : Kept o (@Dev.writeLed a0 a1) := by
  simp +contextual [Dev.writeLed, *]

@[simp] theorem Dev.setBook_kept (o : Keep) (a0 : Dev) (a1) (a2) (h0 : Kept o a0) : Kept o (@Dev.setBook a0 a1 a2) := by
  simp +contextual [Dev.setBook, *]

@[simp] theorem Dev.setKd_kept (o : Keep) (a0 : Dev) (a1) (a2) (h0 : Kept o a0) : Kept o (@Dev.setKd a0 a1 a2) := by
  simp +contextual [Dev.setKd, *]

@[simp] theorem Dev.setBw_kept (o : Keep) (a0 : Dev) (a1) (a2) (h0 : Kept o a0) : Kept o (@Dev.setBw a0 a1 a2) := by
  simp +contextual [Dev.setBw, *]

@[simp] theorem Dev.setPert_kept (o : Keep) (a0 : Dev) (a1) (a2) (h0 : Kept o a0) : Kept o (@Dev.setPert a0 a1 a2) := by
  simp +contextual [Dev.setPert, *]

@[simp] theorem Dev.setHead_kept (o : Keep) (a0 : Dev) (a1) (a2) (h0 : Kept o a0) : Kept o (@Dev.setHead a0 a1 a2) := by
  simp +contextual [Dev.setHead, *]

@[simp] theorem Dev.setPump_kept (o : Keep) (a0 : Dev) (a1) (a2) (h0 : Kept o a0) : Kept o (@Dev.setPump a0 a1 a2) := by
  simp +contextual [Dev.setPump, *]

@[simp] theorem Dev.setEnc_kept (o : Keep) (a0 : Dev) (a1) (a2) (h0 : Kept o a0) : Kept o (@Dev.setEnc a0 a1 a2) := by
  simp (maxDischargeDepth := 20) +contextual [Dev.setEnc, *]

@[simp] theorem Dev.setRank_kept (o : Keep) (a0 : Dev) (a1) (a2) (a3) (h0 : Kept o a0) : Kept o (@Dev.setRank a0 a1 a2 a3) := by
  simp +contextual [Dev.setRank, *]

@[simp] theorem Dev.setBay_kept (o : Keep) (a0 : Dev) (a1) (a2) (h0 : Kept o a0) : Kept o (@Dev.setBay a0 a1 a2) := by
  simp +contextual [Dev.setBay, *]

@[simp] theorem Dev.wake_kept (o : Keep) (a0 : Dev) (a1) (a2) (h0 : Kept o a0) : Kept o (@Dev.wake a0 a1 a2) := by
  unfold Dev.wake
  repeat' first | assumption | intro _ | with_reducible apply kept_ite | with_reducible apply kept_forAll | with_reducible apply kept_foldl | with_reducible apply kept_when | with_reducible apply kept_foldl_fst | with_reducible apply kept_ite_fst | with_reducible apply kept_ite_snd | with_reducible apply Dev.raise_kept | with_reducible apply Dev.setPwr_kept | (simp only [kept_mk, keptMem_dev]; done) | split | (simp only [kept_mk, keptMem_dev])

@[simp] theorem Dev.setSens_kept (o : Keep) (a0 : Dev) (a1) (a2) (h0 : Kept o a0) : Kept o (@Dev.setSens a0 a1 a2) := by
  simp +contextual [Dev.setSens, *]

@[simp] theorem Dev.wakeFor_kept (o : Keep) (a0 : Dev) (a1) (h0 : Kept o a0) : Kept o (@Dev.wakeFor a0 a1) := by
  unfold Dev.wakeFor
  repeat' first | assumption | intro _ | with_reducible apply kept_ite | with_reducible apply kept_forAll | with_reducible apply kept_foldl | with_reducible apply kept_when | with_reducible apply kept_foldl_fst | with_reducible apply kept_ite_fst | with_reducible apply kept_ite_snd | with_reducible apply Dev.wake_kept | (simp only [kept_mk, keptMem_dev]; done) | split | (simp only [kept_mk, keptMem_dev])

@[simp] theorem Dev.reassert_kept (o : Keep) (a0 : Dev) (a1) (h0 : Kept o a0) : Kept o (@Dev.reassert a0 a1) := by
  simp +contextual [Dev.reassert, *]

@[simp] theorem Dev.fresh_kept (o : Keep) (a0 : Dev) (h0 : Kept o a0) : Kept o (@Dev.fresh a0).2 := by
  simp (maxDischargeDepth := 20) +contextual [Dev.fresh, *]

@[simp] theorem Dev.busy104_kept (o : Keep) (a0 : Dev) (a1) (h0 : Kept o a0) : Kept o (@Dev.busy104 a0 a1) := by
  simp (maxDischargeDepth := 20) +contextual [Dev.busy104, *]

@[simp] theorem Dev.overrun1_kept (o : Keep) (a0 : Dev) (a1) (a2) (a3) (h0 : Kept o a0) : Kept o (@Dev.overrun1 a0 a1 a2 a3) := by
  unfold Dev.overrun1
  repeat' first | assumption | intro _ | with_reducible apply kept_ite | with_reducible apply kept_forAll | with_reducible apply kept_foldl | with_reducible apply kept_when | with_reducible apply kept_foldl_fst | with_reducible apply kept_ite_fst | with_reducible apply kept_ite_snd | with_reducible apply Dev.raise_kept | (simp only [kept_mk, keptMem_dev]; done) | split | (simp only [kept_mk, keptMem_dev])

@[simp] theorem Dev.emits_kept (o : Keep) (a0 : Dev) (a1) (h0 : Kept o a0) : Kept o (@Dev.emits a0 a1) := by
  simp (maxDischargeDepth := 20) +contextual [Dev.emits, *]

@[simp] theorem Dev.when_kept (o : Keep) (a0 : Dev) (a1) (a2) (h0 : Kept o a0) (h2 : ∀ y0, Kept o y0 → Kept o (a2 y0)) : Kept o (@Dev.when a0 a1 a2) := by
  simp (maxDischargeDepth := 20) +contextual [Dev.when, *]

@[simp] theorem Dev.setDec_kept (o : Keep) (a0 : Dev) (a1) (a2) (h0 : Kept o a0) : Kept o (@Dev.setDec a0 a1 a2) := by
  simp (maxDischargeDepth := 20) +contextual [Dev.setDec, *]

@[simp] theorem Dev.journalNote_kept (o : Keep) (a0 : Dev) (a1) (a2) (a3) (h0 : Kept o a0) : Kept o (@Dev.journalNote a0 a1 a2 a3) := by
  simp (maxDischargeDepth := 20) +contextual [Dev.journalNote, *]

@[simp] theorem Dev.skipDue_kept (o : Keep) (a0 : Dev) (a1) (a2) (h0 : Kept o a0) : Kept o (@Dev.skipDue a0 a1 a2) := by
  simp (maxDischargeDepth := 20) +contextual [Dev.skipDue, *]

end Sys2Proof.Machine
end

