-- ==== Sys2Proof/Laws/KeptWells.lean ====
section
/-! SUPPORT. That the wells, the links and the coherence operations keep both byte memories in canonical form and change the OTP only as it may be burnt: one lemma for each
operation that answers a device. -/

namespace Sys2Proof.Machine

open Sys2Proof

set_option linter.unreachableTactic false
set_option linter.unusedTactic false
set_option linter.unusedSimpArgs false

@[simp] theorem Dev.cleanPage_kept (o : Keep) (a0 : Dev) (a1) (h0 : Kept o a0) : Kept o (@Dev.cleanPage a0 a1) := by
  simp +contextual [Dev.cleanPage, *]

@[simp] theorem Dev.mediaRecord_kept (o : Keep) (a0 : Dev) (a1) (a2) (a3) (a4) (h0 : Kept o a0) : Kept o (@Dev.mediaRecord a0 a1 a2 a3 a4) := by
  unfold Dev.mediaRecord
  repeat' first | assumption | intro _ | split | with_reducible apply kept_forAll | with_reducible apply kept_foldl | with_reducible apply kept_when | with_reducible apply kept_foldl_fst | with_reducible apply kept_ite | with_reducible apply kept_ite_fst | with_reducible apply forAll_kept | with_reducible apply Dev.record_kept | (simp only [kept_mk, keptMem_dev])

@[simp] theorem Dev.queueJob_kept (o : Keep) (a0 : Dev) (a1) (a2) (a3) (h0 : Kept o a0) : Kept o (@Dev.queueJob a0 a1 a2 a3) := by
  simp +contextual [Dev.queueJob, *]

@[simp] theorem Dev.dirtyPage_kept (o : Keep) (a0 : Dev) (a1) (h0 : Kept o a0) : Kept o (@Dev.dirtyPage a0 a1) := by
  simp +contextual [Dev.dirtyPage, *]

@[simp] theorem Dev.raisePage_kept (o : Keep) (a0 : Dev) (a1) (a2) (h0 : Kept o a0) : Kept o (@Dev.raisePage a0 a1 a2) := by
  simp (maxDischargeDepth := 20) +contextual [Dev.raisePage, *]

@[simp] theorem Dev.setFrame_kept (o : Keep) (a0 : Dev) (a1) (a2) (a3) (h0 : Kept o a0) : Kept o (@Dev.setFrame a0 a1 a2 a3) := by
  simp +contextual [Dev.setFrame, *]

@[simp] theorem Dev.clearFrame_kept (o : Keep) (a0 : Dev) (a1) (h0 : Kept o a0) : Kept o (@Dev.clearFrame a0 a1) := by
  simp +contextual [Dev.clearFrame, *]

@[simp] theorem Dev.freeFrame_kept (o : Keep) (a0 : Dev) (a1) (h0 : Kept o a0) : Kept o (@Dev.freeFrame a0 a1) := by
  simp +contextual only [Dev.freeFrame]
  (repeat' split) <;> simp +contextual [*]

@[simp] theorem Dev.dropCand_kept (o : Keep) (a0 : Dev) (a1) (h0 : Kept o a0) : Kept o (@Dev.dropCand a0 a1) := by
  simp +contextual [Dev.dropCand, *]

@[simp] theorem Dev.foundPage_kept (o : Keep) (a0 : Dev) (a1) (h0 : Kept o a0) : Kept o (@Dev.foundPage a0 a1) := by
  simp +contextual [Dev.foundPage, *]

@[simp] theorem Dev.dropPage_kept (o : Keep) (a0 : Dev) (a1) (h0 : Kept o a0) : Kept o (@Dev.dropPage a0 a1) := by
  simp +contextual [Dev.dropPage, *]

@[simp] theorem Dev.freeSlots_kept (o : Keep) (a0 : Dev) (a1) (a2) (h0 : Kept o a0) : Kept o (@Dev.freeSlots a0 a1 a2) := by
  simp +contextual [Dev.freeSlots, *]

@[simp] theorem Dev.freeRun_kept (o : Keep) (a0 : Dev) (a1) (a2) (h0 : Kept o a0) : Kept o (@Dev.freeRun a0 a1 a2) := by
  simp +contextual [Dev.freeRun, *]

@[simp] theorem Dev.leaveSegment_kept (o : Keep) (a0 : Dev) (a1) (h0 : Kept o a0) : Kept o (@Dev.leaveSegment a0 a1) := by
  simp +contextual only [Dev.leaveSegment]
  (repeat' split) <;> simp +contextual [*]

@[simp] theorem Dev.releaseStorage_kept (o : Keep) (a0 : Dev) (a1) (h0 : Kept o a0) : Kept o (@Dev.releaseStorage a0 a1) := by
  unfold Dev.releaseStorage
  (repeat' split) <;> simp +contextual [*]

@[simp] theorem Dev.heat_kept (o : Keep) (a0 : Dev) (a1) (h0 : Kept o a0) : Kept o (@Dev.heat a0 a1) := by
  simp +contextual [Dev.heat, *]

@[simp] theorem Dev.poisonPage_kept (o : Keep) (a0 : Dev) (a1) (a2) (h0 : Kept o a0) : Kept o (@Dev.poisonPage a0 a1 a2) := by
  simp +contextual [Dev.poisonPage, *]

@[simp] theorem Dev.loseLine_kept (o : Keep) (a0 : Dev) (a1) (h0 : Kept o a0) : Kept o (@Dev.loseLine a0 a1) := by
  simp +contextual only [Dev.loseLine]
  (repeat' split) <;> simp +contextual [*]

@[simp] theorem Dev.discardWrite_kept (o : Keep) (a0 : Dev) (a1) (h0 : Kept o a0) : Kept o (@Dev.discardWrite a0 a1) := by
  simp +contextual [Dev.discardWrite, *]

@[simp] theorem Dev.setGran_kept (o : Keep) (a0 : Dev) (a1) (a2) (h0 : Kept o a0) : Kept o (@Dev.setGran a0 a1 a2) := by
  simp +contextual [Dev.setGran, *]

@[simp] theorem Dev.putGran_kept (o : Keep) (a0 : Dev) (a1) (a2) (a3) (a4) (a5) (h0 : Kept o a0) : Kept o (@Dev.putGran a0 a1 a2 a3 a4 a5) := by
  simp (maxDischargeDepth := 20) +contextual [Dev.putGran, *]

@[simp] theorem Dev.meetUe_kept (o : Keep) (a0 : Dev) (a1) (h0 : Kept o a0) : Kept o (@Dev.meetUe a0 a1) := by
  unfold Dev.meetUe
  repeat' first | assumption | intro _ | split | with_reducible apply kept_forAll | with_reducible apply kept_foldl | with_reducible apply kept_when | with_reducible apply kept_foldl_fst | with_reducible apply kept_ite | with_reducible apply kept_ite_fst | with_reducible apply Dev.setChan_kept | with_reducible apply Dev.raise_kept | (simp only [kept_mk, keptMem_dev])

@[simp] theorem Dev.writeBack_kept (o : Keep) (a0 : Dev) (a1) (a2) (h0 : Kept o a0) : Kept o (@Dev.writeBack a0 a1 a2) := by
  unfold Dev.writeBack
  extract_lets v miss
  split
  · exact h0
  · extract_lets m a b mask d1 d2 d3
    have h1 : Kept o d1 := by simp only [d1]; apply Dev.putGran_kept; exact h0
    clear_value d1
    have h2 : Kept o d2 := Dev.dirtyPage_kept _ _ _ h1
    clear_value d2
    have h3 : Kept o d3 := kept_ite _ _ _ _ (Dev.poisonPage_kept _ _ _ _ h2) h2
    clear_value d3
    exact kept_ite _ _ _ _ (Dev.meetUe_kept _ _ _ h3) h3

@[simp] theorem Dev.evictGran_kept (o : Keep) (a0 : Dev) (a1) (a2) (h0 : Kept o a0) : Kept o (@Dev.evictGran a0 a1 a2) := by
  simp (maxDischargeDepth := 20) [Dev.evictGran, *]

@[simp] theorem Dev.bumpFree_kept (o : Keep) (a0 : Dev) (h0 : Kept o a0) : Kept o (@Dev.bumpFree a0) := by
  simp +contextual [Dev.bumpFree, *]

@[simp] theorem Dev.makeRoom_kept (o : Keep) (a0 : Dev) (a1) (h0 : Kept o a0) : Kept o (@Dev.makeRoom a0 a1) := by
  unfold Dev.makeRoom
  apply kept_ite
  · exact h0
  · extract_lets vs
    clear_value vs
    cases vs <;> simp (maxDischargeDepth := 20) [*]

@[simp] theorem Dev.placeLine_kept (o : Keep) (a0 : Dev) (a1) (a2) (a3) (a4) (h0 : Kept o a0) : Kept o (@Dev.placeLine a0 a1 a2 a3 a4) := by
  simp (maxDischargeDepth := 20) [Dev.placeLine, *]

@[simp] theorem Dev.foundLine_kept (o : Keep) (a0 : Dev) (a1) (h0 : Kept o a0) : Kept o (@Dev.foundLine a0 a1) := by
  simp +contextual [Dev.foundLine, *]

@[simp] theorem Dev.placePage_kept (o : Keep) (a0 : Dev) (a1) (a2) (h0 : Kept o a0) : Kept o (@Dev.placePage a0 a1 a2) := by
  unfold Dev.placePage
  apply kept_forAll _ _ _ _ h0
  intro d x hd
  (repeat' split) <;> simp (maxDischargeDepth := 20) [*]

theorem Dev.allocFrame_kept (o : Keep) (a0 : Dev) (a1) (a2) (a3) (a4) (h0 : Kept o a0) : ∀ e, (@Dev.allocFrame a0 a1 a2 a3 a4) = some e → Kept o e.2 := by
  intro e he
  unfold Dev.allocFrame at he
  extract_lets k own at he
  split at he
  · simp only [Option.map_eq_some_iff] at he
    obtain ⟨f, -, rfl⟩ := he
    simp (maxDischargeDepth := 20) [*]
  · split at he
    · clear_value own
      cases own with
      | none => simp at he
      | some j =>
        simp only [Option.map_eq_some_iff] at he
        obtain ⟨f, -, rfl⟩ := he
        simp (maxDischargeDepth := 20) [*]
    · simp at he

@[simp] theorem Dev.enterDry_kept (o : Keep) (a0 : Dev) (a1) (h0 : Kept o a0) : Kept o (@Dev.enterDry a0 a1) := by
  unfold Dev.enterDry
  repeat' first | assumption | intro _ | with_reducible apply kept_ite | with_reducible apply kept_forAll | with_reducible apply kept_foldl | with_reducible apply kept_when | with_reducible apply kept_foldl_fst | with_reducible apply kept_ite_fst | with_reducible apply kept_ite_snd | with_reducible apply Dev.raisePage_kept | (simp only [kept_mk, keptMem_dev]; done) | split | (simp only [kept_mk, keptMem_dev])

@[simp] theorem Dev.mgrRecord_kept (o : Keep) (a0 : Dev) (a1) (a2) (a3) (h0 : Kept o a0) : Kept o (@Dev.mgrRecord a0 a1 a2 a3) := by
  simp +contextual [Dev.mgrRecord, *]

@[simp] theorem Dev.poisonGran_kept (o : Keep) (a0 : Dev) (a1) (a2) (a3) (a4) (h0 : Kept o a0) : Kept o (@Dev.poisonGran a0 a1 a2 a3 a4) := by
  unfold Dev.poisonGran
  repeat' first | assumption | intro _ | with_reducible apply kept_ite | with_reducible apply kept_forAll | with_reducible apply kept_foldl | with_reducible apply kept_when | with_reducible apply kept_foldl_fst | with_reducible apply kept_ite_fst | with_reducible apply kept_ite_snd | with_reducible apply Dev.poisonPage_kept | with_reducible apply Dev.loseLine_kept | (simp only [kept_mk, keptMem_dev]; done) | split | (simp only [kept_mk, keptMem_dev])

@[simp] theorem Dev.losePage_kept (o : Keep) (a0 : Dev) (a1) (h0 : Kept o a0) : Kept o (@Dev.losePage a0 a1) := by
  unfold Dev.losePage
  repeat' first | assumption | intro _ | with_reducible apply kept_ite | with_reducible apply kept_forAll | with_reducible apply kept_foldl | with_reducible apply kept_when | with_reducible apply kept_foldl_fst | with_reducible apply kept_ite_fst | with_reducible apply kept_ite_snd | with_reducible apply Dev.setEntry_kept | with_reducible apply Dev.dropCand_kept | with_reducible apply Dev.releaseStorage_kept | with_reducible apply Dev.foundPage_kept | with_reducible apply Dev.mediaRecord_kept | with_reducible apply Dev.raise_kept | (simp only [kept_mk, keptMem_dev]; done) | split | (simp only [kept_mk, keptMem_dev])

@[simp] theorem Dev.recompute_kept (o : Keep) (a0 : Dev) (a1) (h0 : Kept o a0) : Kept o (@Dev.recompute a0 a1) := by
  simp (maxDischargeDepth := 20) +contextual [Dev.recompute, *]

@[simp] theorem Dev.queueFirst_kept (o : Keep) (a0 : Dev) (a1) (a2) (h0 : Kept o a0) : Kept o (@Dev.queueFirst a0 a1 a2) := by
  simp (maxDischargeDepth := 20) +contextual [Dev.queueFirst, *]

@[simp] theorem Dev.fillLine_kept (o : Keep) (a0 : Dev) (a1) (a2) (a3) (h0 : Kept o a0) : Kept o (@Dev.fillLine a0 a1 a2 a3) := by
  unfold Dev.fillLine
  repeat' first | assumption | intro _ | with_reducible apply kept_ite | with_reducible apply kept_forAll | with_reducible apply kept_foldl | with_reducible apply kept_when | with_reducible apply kept_foldl_fst | with_reducible apply kept_ite_fst | with_reducible apply kept_ite_snd | with_reducible apply Dev.placeLine_kept | (simp only [kept_mk, keptMem_dev]; done) | split | (simp only [kept_mk, keptMem_dev])

@[simp] theorem Dev.takeSegment_kept (o : Keep) (a0 : Dev) (a1) (a2) (a3) (h0 : Kept o a0) : Kept o (@Dev.takeSegment a0 a1 a2 a3) := by
  simp (maxDischargeDepth := 20) +contextual [Dev.takeSegment, *]

@[simp] theorem Dev.takeSlots_kept (o : Keep) (a0 : Dev) (a1) (a2) (h0 : Kept o a0) : Kept o (@Dev.takeSlots a0 a1 a2) := by
  simp (maxDischargeDepth := 20) +contextual [Dev.takeSlots, *]

theorem Dev.allocSlots_kept (o : Keep) (a0 : Dev) (a1) (a2) (a3) (h0 : Kept o a0) : ∀ e, (@Dev.allocSlots a0 a1 a2 a3) = some e → Kept o e.2 := by
  intro e he
  unfold Dev.allocSlots at he
  extract_lets k at he
  split at he
  · simp only [Option.some.injEq] at he
    subst he
    simp (maxDischargeDepth := 20) [*]
  · simp only [Option.map_eq_some_iff] at he
    obtain ⟨x, hx, rfl⟩ := he
    have hk := Dev.allocFrame_kept _ _ _ _ _ _ h0 _ hx
    exact hk

@[simp] theorem Dev.putFlit_kept (o : Keep) (a0 : Dev) (a1) (a2) (a3) (h0 : Kept o a0) : Kept o (@Dev.putFlit a0 a1 a2 a3) := by
  simp (maxDischargeDepth := 20) +contextual [Dev.putFlit, *]

@[simp] theorem Dev.sendOn_kept (o : Keep) (a0 : Dev) (a1) (a2) (a3) (h0 : Kept o a0) : Kept o (@Dev.sendOn a0 a1 a2 a3) := by
  simp (maxDischargeDepth := 20) +contextual [Dev.sendOn, *]

@[simp] theorem Dev.sendBcast_kept (o : Keep) (a0 : Dev) (a1) (a2) (a3) (h0 : Kept o a0) : Kept o (@Dev.sendBcast a0 a1 a2 a3) := by
  simp (maxDischargeDepth := 20) +contextual [Dev.sendBcast, *]

@[simp] theorem Dev.guestOut_kept (o : Keep) (a0 : Dev) (a1) (h0 : Kept o a0) : Kept o (@Dev.guestOut a0 a1) := by
  simp +contextual only [Dev.guestOut]
  (repeat' split) <;> simp +contextual [*]

@[simp] theorem Dev.sendTo_kept (o : Keep) (a0 : Dev) (a1) (a2) (h0 : Kept o a0) : Kept o (@Dev.sendTo a0 a1 a2).1 := by
  unfold Dev.sendTo
  repeat' first | assumption | intro _ | with_reducible apply kept_ite | with_reducible apply kept_forAll | with_reducible apply kept_foldl | with_reducible apply kept_when | with_reducible apply kept_foldl_fst | with_reducible apply kept_ite_fst | with_reducible apply kept_ite_snd | with_reducible apply Dev.setRoute_kept | with_reducible apply Dev.sendOn_kept | with_reducible apply Dev.raise_kept | (simp only [kept_mk, keptMem_dev]; done) | split | (simp only [kept_mk, keptMem_dev])

@[simp] theorem Dev.send_kept (o : Keep) (a0 : Dev) (a1) (a2) (h0 : Kept o a0) : Kept o (@Dev.send a0 a1 a2) := by
  simp +contextual [Dev.send, *]

@[simp] theorem Dev.respond1_kept (o : Keep) (a0 : Dev) (a1) (a2) (a3) (a4) (a5) (a6) (h0 : Kept o a0) : Kept o (@Dev.respond1 a0 a1 a2 a3 a4 a5 a6) := by
  unfold Dev.respond1
  repeat' first | assumption | intro _ | with_reducible apply kept_ite | with_reducible apply kept_forAll | with_reducible apply kept_foldl | with_reducible apply kept_when | with_reducible apply kept_foldl_fst | with_reducible apply kept_ite_fst | with_reducible apply kept_ite_snd | with_reducible apply Dev.emit_kept | with_reducible apply Dev.guestOut_kept | with_reducible apply Dev.send_kept | (simp only [kept_mk, keptMem_dev]; done) | split | (simp only [kept_mk, keptMem_dev])

@[simp] theorem Dev.respond_kept (o : Keep) (a0 : Dev) (a1) (a2) (a3) (a4) (a5) (a6) (h0 : Kept o a0) : Kept o (@Dev.respond a0 a1 a2 a3 a4 a5 a6) := by
  simp +contextual [Dev.respond, *]

@[simp] theorem Dev.poisonRead_kept (o : Keep) (a0 : Dev) (a1) (a2) (a3) (a4) (h0 : Kept o a0) : Kept o (@Dev.poisonRead a0 a1 a2 a3 a4) := by
  simp +contextual [Dev.poisonRead, *]

@[simp] theorem Dev.snoop_kept (o : Keep) (a0 : Dev) (a1) (a2) (a3) (a4) (a5) (h0 : Kept o a0) : Kept o (@Dev.snoop a0 a1 a2 a3 a4 a5) := by
  unfold Dev.snoop
  repeat' first | assumption | intro _ | with_reducible apply kept_ite | with_reducible apply kept_forAll | with_reducible apply kept_foldl | with_reducible apply kept_when | with_reducible apply kept_foldl_fst | with_reducible apply kept_ite_fst | with_reducible apply kept_ite_snd | with_reducible apply Dev.guestOut_kept | with_reducible apply Dev.emit_kept | with_reducible apply Dev.send_kept | (simp only [kept_mk, keptMem_dev]; done) | split | (simp only [kept_mk, keptMem_dev])

@[simp] theorem Dev.broadcast_kept (o : Keep) (a0 : Dev) (a1) (a2) (h0 : Kept o a0) : Kept o (@Dev.broadcast a0 a1 a2) := by
  unfold Dev.broadcast
  repeat' first | assumption | intro _ | with_reducible apply kept_ite | with_reducible apply kept_forAll | with_reducible apply kept_foldl | with_reducible apply kept_when | with_reducible apply kept_foldl_fst | with_reducible apply kept_ite_fst | with_reducible apply kept_ite_snd | with_reducible apply forAll_kept | with_reducible apply Dev.sendBcast_kept | (simp only [kept_mk, keptMem_dev]; done) | split | (simp only [kept_mk, keptMem_dev])

@[simp] theorem Dev.sendAck_kept (o : Keep) (a0 : Dev) (a1) (a2) (h0 : Kept o a0) : Kept o (@Dev.sendAck a0 a1 a2) := by
  simp (maxDischargeDepth := 20) +contextual [Dev.sendAck, *]

@[simp] theorem Dev.ack_kept (o : Keep) (a0 : Dev) (a1) (a2) (a3) (a4) (a5) (h0 : Kept o a0) : Kept o (@Dev.ack a0 a1 a2 a3 a4 a5) := by
  simp +contextual [Dev.ack, *]

@[simp] theorem Dev.newTag_kept (o : Keep) (a0 : Dev) (h0 : Kept o a0) : Kept o (@Dev.newTag a0).2 := by
  simp +contextual [Dev.newTag, *]

@[simp] theorem Dev.restTag_kept (o : Keep) (a0 : Dev) (a1) (h0 : Kept o a0) : Kept o (@Dev.restTag a0 a1) := by
  simp +contextual [Dev.restTag, *]

@[simp] theorem Dev.flushPort_kept (o : Keep) (a0 : Dev) (a1) (h0 : Kept o a0) : Kept o (@Dev.flushPort a0 a1) := by
  simp +contextual [Dev.flushPort, *]

@[simp] theorem Dev.toNeighbour_kept (o : Keep) (a0 : Dev) (a1) (a2) (a3) (a4) (a5) (h0 : Kept o a0) : Kept o (@Dev.toNeighbour a0 a1 a2 a3 a4 a5) := by
  simp (maxDischargeDepth := 20) +contextual [Dev.toNeighbour, *]

@[simp] theorem Dev.sendNotice_kept (o : Keep) (a0 : Dev) (a1) (a2) (a3) (h0 : Kept o a0) : Kept o (@Dev.sendNotice a0 a1 a2 a3) := by
  simp (maxDischargeDepth := 20) +contextual [Dev.sendNotice, *]

@[simp] theorem Dev.flushGuest_kept (o : Keep) (a0 : Dev) (h0 : Kept o a0) : Kept o (@Dev.flushGuest a0) := by
  unfold Dev.flushGuest
  repeat' first | assumption | intro _ | with_reducible apply kept_ite | with_reducible apply kept_forAll | with_reducible apply kept_foldl | with_reducible apply kept_when | with_reducible apply kept_foldl_fst | with_reducible apply kept_ite_fst | with_reducible apply kept_ite_snd | with_reducible apply forAll_kept | with_reducible apply Dev.guestOut_kept | (simp only [kept_mk, keptMem_dev]; done) | split | (simp only [kept_mk, keptMem_dev])

theorem Dev.hear_kept (o : Keep) (a0 : Dev) (a1) (a2) (a3) (h0 : Kept o a0) : ∀ e, (@Dev.hear a0 a1 a2 a3) = some e → Kept o e := by
  intro e he
  unfold Dev.hear at he
  extract_lets ok at he
  split at he
  · simp only [Option.some.injEq] at he
    subst he
    exact kept_forAll _ _ _ _ h0 fun d x hd => Dev.sendBcast_kept _ _ _ _ _ hd
  · simp at he

@[simp] theorem Dev.dropPromos_kept (o : Keep) (a0 : Dev) (a1) (a2) (h0 : Kept o a0) : Kept o (@Dev.dropPromos a0 a1 a2) := by
  unfold Dev.dropPromos
  repeat' first | assumption | intro _ | with_reducible apply kept_ite | with_reducible apply kept_forAll | with_reducible apply kept_foldl | with_reducible apply kept_when | with_reducible apply kept_foldl_fst | with_reducible apply kept_ite_fst | with_reducible apply kept_ite_snd | with_reducible apply forAll_kept | with_reducible apply Dev.respond_kept | (simp only [kept_mk, keptMem_dev]; done) | split | (simp only [kept_mk, keptMem_dev])

@[simp] theorem Dev.answerDown_kept (o : Keep) (a0 : Dev) (a1) (h0 : Kept o a0) : Kept o (@Dev.answerDown a0 a1) := by
  unfold Dev.answerDown
  repeat' first | assumption | intro _ | with_reducible apply kept_ite | with_reducible apply kept_forAll | with_reducible apply kept_foldl | with_reducible apply kept_when | with_reducible apply kept_foldl_fst | with_reducible apply kept_ite_fst | with_reducible apply kept_ite_snd | with_reducible apply Dev.respond_kept | with_reducible apply Dev.poisonRead_kept | (simp only [kept_mk, keptMem_dev]; done) | split | (simp only [kept_mk, keptMem_dev])

@[simp] theorem Dev.abandonHold_kept (o : Keep) (a0 : Dev) (a1) (h0 : Kept o a0) : Kept o (@Dev.abandonHold a0 a1) := by
  unfold Dev.abandonHold
  repeat' first | assumption | intro _ | with_reducible apply kept_ite | with_reducible apply kept_forAll | with_reducible apply kept_foldl | with_reducible apply kept_when | with_reducible apply kept_foldl_fst | with_reducible apply kept_ite_fst | with_reducible apply kept_ite_snd | with_reducible apply Dev.answerDown_kept | (simp only [kept_mk, keptMem_dev]; done) | split | (simp only [kept_mk, keptMem_dev])

@[simp] theorem Dev.frontEvac_kept (o : Keep) (a0 : Dev) (a1) (h0 : Kept o a0) : Kept o (@Dev.frontEvac a0 a1) := by
  simp +contextual only [Dev.frontEvac]
  (repeat' split) <;> simp +contextual [*]

@[simp] theorem Dev.enlist_kept (o : Keep) (a0 : Dev) (a1) (a2) (h0 : Kept o a0) : Kept o (@Dev.enlist a0 a1 a2) := by
  simp (maxDischargeDepth := 20) +contextual [Dev.enlist, *]

@[simp] theorem Dev.addHold_kept (o : Keep) (a0 : Dev) (a1) (a2) (a3) (a4) (a5) (a6) (a7) (h0 : Kept o a0) : Kept o (@Dev.addHold a0 a1 a2 a3 a4 a5 a6 a7) := by
  simp (maxDischargeDepth := 20) +contextual [Dev.addHold, *]

@[simp] theorem Dev.evictLine_kept (o : Keep) (a0 : Dev) (a1) (a2) (h0 : Kept o a0) : Kept o (@Dev.evictLine a0 a1 a2) := by
  simp (maxDischargeDepth := 20) +contextual [Dev.evictLine, *]

@[simp] theorem Dev.wayFor_kept (o : Keep) (a0 : Dev) (a1) (a2) (h0 : Kept o a0) : Kept o (@Dev.wayFor a0 a1 a2) := by
  unfold Dev.wayFor
  repeat' first | assumption | intro _ | with_reducible apply kept_ite | with_reducible apply kept_forAll | with_reducible apply kept_foldl | with_reducible apply kept_when | with_reducible apply kept_foldl_fst | with_reducible apply kept_ite_fst | with_reducible apply kept_ite_snd | with_reducible apply Dev.evictLine_kept | with_reducible apply Dev.setHs_kept | with_reducible apply Dev.raise_kept | (simp only [kept_mk, keptMem_dev]; done) | split | (simp only [kept_mk, keptMem_dev])

@[simp] theorem Dev.finishPush_kept (o : Keep) (a0 : Dev) (a1) (a2) (h0 : Kept o a0) : Kept o (@Dev.finishPush a0 a1 a2) := by
  simp (maxDischargeDepth := 20) +contextual [Dev.finishPush, *]

@[simp] theorem Dev.noteInvalid_kept (o : Keep) (a0 : Dev) (a1) (h0 : Kept o a0) : Kept o (@Dev.noteInvalid a0 a1) := by
  simp (maxDischargeDepth := 20) +contextual [Dev.noteInvalid, *]

@[simp] theorem Dev.endPromo_kept (o : Keep) (a0 : Dev) (a1) (h0 : Kept o a0) : Kept o (@Dev.endPromo a0 a1) := by
  unfold Dev.endPromo
  repeat' first | assumption | intro _ | with_reducible apply kept_ite | with_reducible apply kept_forAll | with_reducible apply kept_foldl | with_reducible apply kept_when | with_reducible apply kept_foldl_fst | with_reducible apply kept_ite_fst | with_reducible apply kept_ite_snd | with_reducible apply Dev.freeFrame_kept | with_reducible apply Dev.respond_kept | (simp only [kept_mk, keptMem_dev]; done) | split | (simp only [kept_mk, keptMem_dev])

@[simp] theorem Dev.unback_kept (o : Keep) (a0 : Dev) (a1) (h0 : Kept o a0) : Kept o (@Dev.unback a0 a1) := by
  simp (maxDischargeDepth := 20) +contextual [Dev.unback, *]

@[simp] theorem Dev.beforeWrite_kept (o : Keep) (a0 : Dev) (a1) (h0 : Kept o a0) : Kept o (@Dev.beforeWrite a0 a1) := by
  simp (maxDischargeDepth := 20) +contextual [Dev.beforeWrite, *]

@[simp] theorem Dev.pushGuest_kept (o : Keep) (a0 : Dev) (a1) (a2) (h0 : Kept o a0) : Kept o (@Dev.pushGuest a0 a1 a2) := by
  simp (maxDischargeDepth := 20) +contextual [Dev.pushGuest, *]

@[simp] theorem Dev.writePromoting_kept (o : Keep) (a0 : Dev) (a1) (a2) (a3) (a4) (h0 : Kept o a0) : Kept o (@Dev.writePromoting a0 a1 a2 a3 a4) := by
  simp (maxDischargeDepth := 20) +contextual [Dev.writePromoting, *]

theorem Dev.backPage_kept (o : Keep) (a0 : Dev) (a1) (a2) (h0 : Kept o a0) : ∀ e, (@Dev.backPage a0 a1 a2) = some e → Kept o e := by
  intro e he
  unfold Dev.backPage at he
  split at he
  · contradiction
  · simp only [Option.map_eq_some_iff] at he
    obtain ⟨x, hx, rfl⟩ := he
    have := Dev.allocFrame_kept o _ _ _ _ _ h0 _ hx
    simp (maxDischargeDepth := 20) +contextual [*]

@[simp] theorem Dev.writeNotPlaced_kept (o : Keep) (a0 : Dev) (a1) (a2) (a3) (h0 : Kept o a0) : Kept o (@Dev.writeNotPlaced a0 a1 a2 a3) := by
  unfold Dev.writeNotPlaced
  repeat' first | assumption | intro _ | with_reducible apply kept_ite | with_reducible apply kept_forAll | with_reducible apply kept_foldl | with_reducible apply kept_when | with_reducible apply kept_foldl_fst | with_reducible apply kept_ite_fst | with_reducible apply kept_ite_snd | with_reducible apply Dev.enterDry_kept | with_reducible apply Dev.respond_kept | with_reducible apply Dev.discardWrite_kept | (simp only [kept_mk, keptMem_dev]; done) | split | (simp only [kept_mk, keptMem_dev])

@[simp] theorem Dev.hintGran_kept (o : Keep) (a0 : Dev) (a1) (a2) (h0 : Kept o a0) : Kept o (@Dev.hintGran a0 a1 a2) := by
  unfold Dev.hintGran
  (repeat' split) <;> simp +contextual [*]

@[simp] theorem Dev.writeT1_kept (o : Keep) (a0 : Dev) (a1) (a2) (a3) (a4) (a5) (h0 : Kept o a0) : Kept o (@Dev.writeT1 a0 a1 a2 a3 a4 a5) := by
  unfold Dev.writeT1
  extract_lets page e d1 old e2 d2 d3 d4
  have h1 : Kept o d1 := kept_ite _ _ _ _ (by simp (maxDischargeDepth := 20) +contextual [*]) h0
  have h2 : Kept o d2 := Dev.setEntry_kept _ _ _ _ h1
  have h3 : Kept o d3 := Dev.placeLine_kept _ _ _ _ _ _ h2
  have h4 : Kept o d4 := kept_ite _ _ _ _ (Dev.foundLine_kept _ _ _ h3) h3
  clear_value d4
  simp (maxDischargeDepth := 20) [*]

@[simp] theorem Dev.serveWrite_kept (o : Keep) (a0 : Dev) (a1) (a2) (a3) (a4) (a5) (h0 : Kept o a0) : Kept o (@Dev.serveWrite a0 a1 a2 a3 a4 a5) := by
  unfold Dev.serveWrite
  repeat' first | assumption | intro _ | with_reducible apply kept_ite | with_reducible apply kept_forAll | with_reducible apply kept_foldl | with_reducible apply kept_when | with_reducible apply kept_foldl_fst | with_reducible apply kept_ite_fst | with_reducible apply kept_ite_snd | with_reducible apply Dev.respond_kept | with_reducible apply Dev.dirtyPage_kept | with_reducible apply Dev.beforeWrite_kept | with_reducible apply Dev.heat_kept | with_reducible apply Dev.discardWrite_kept | with_reducible apply Dev.pushGuest_kept | with_reducible apply Dev.writePromoting_kept | with_reducible apply Dev.raisePage_kept | with_reducible apply Dev.writeNotPlaced_kept | with_reducible apply Dev.writeT1_kept | with_reducible apply Dev.setEntry_kept | (with_reducible refine Dev.backPage_kept _ _ _ ?_ _ (by assumption))| (with_reducible refine Dev.backPage_kept _ _ _ _ ?_ _ (by assumption))| (with_reducible refine Dev.backPage_kept _ _ _ _ _ ?_ _ (by assumption))| (with_reducible refine Dev.backPage_kept _ _ _ _ _ _ ?_ _ (by assumption)) | (with_reducible refine Dev.allocFrame_kept _ _ _ ?_ _ (by assumption))| (with_reducible refine Dev.allocFrame_kept _ _ _ _ ?_ _ (by assumption))| (with_reducible refine Dev.allocFrame_kept _ _ _ _ _ ?_ _ (by assumption))| (with_reducible refine Dev.allocFrame_kept _ _ _ _ _ _ ?_ _ (by assumption)) | (simp only [kept_mk, keptMem_dev]; done) | split | (simp only [kept_mk, keptMem_dev])

@[simp] theorem Dev.promoteTrigger_kept (o : Keep) (a0 : Dev) (a1) (h0 : Kept o a0) : Kept o (@Dev.promoteTrigger a0 a1) := by
  simp +contextual [Dev.promoteTrigger, *]

@[simp] theorem Dev.serveRead_kept (o : Keep) (a0 : Dev) (a1) (a2) (a3) (a4) (h0 : Kept o a0) : Kept o (@Dev.serveRead a0 a1 a2 a3 a4) := by
  simp +contextual only [Dev.serveRead]
  (repeat' split) <;> simp (maxDischargeDepth := 20) +contextual [*]

@[simp] theorem Dev.finishHold_kept (o : Keep) (a0 : Dev) (a1) (a2) (h0 : Kept o a0) : Kept o (@Dev.finishHold a0 a1 a2) := by
  unfold Dev.finishHold
  (repeat' split) <;> simp (maxDischargeDepth := 20) +contextual [*]

@[simp] theorem Dev.detectDown_kept (o : Keep) (a0 : Dev) (a1) (a2) (a3) (a4) (a5) (h0 : Kept o a0) : Kept o (@Dev.detectDown a0 a1 a2 a3 a4 a5) := by
  unfold Dev.detectDown
  repeat' first | assumption | intro _ | with_reducible apply kept_ite | with_reducible apply kept_forAll | with_reducible apply kept_foldl | with_reducible apply kept_when | with_reducible apply kept_foldl_fst | with_reducible apply kept_ite_fst | with_reducible apply kept_ite_snd | with_reducible apply Dev.setDom_kept | (simp only [kept_mk, keptMem_dev]; done) | split | (simp only [kept_mk, keptMem_dev])

@[simp] theorem Dev.guestDead_kept (o : Keep) (a0 : Dev) (h0 : Kept o a0) : Kept o (@Dev.guestDead a0) := by
  simp +contextual [Dev.guestDead, *]

@[simp] theorem Dev.corruptDir_kept (o : Keep) (a0 : Dev) (a1) (h0 : Kept o a0) : Kept o (@Dev.corruptDir a0 a1) := by
  simp (maxDischargeDepth := 20) +contextual [Dev.corruptDir, *]

@[simp] theorem Dev.dirCheck_kept (o : Keep) (a0 : Dev) (a1) (a2) (h0 : Kept o a0) : Kept o (@Dev.dirCheck a0 a1 a2).1 := by
  unfold Dev.dirCheck
  (repeat' split) <;> simp (maxDischargeDepth := 20) +contextual [*]

@[simp] theorem Dev.pullTrigger_kept (o : Keep) (a0 : Dev) (a1) (h0 : Kept o a0) : Kept o (@Dev.pullTrigger a0 a1) := by
  simp (maxDischargeDepth := 20) +contextual [Dev.pullTrigger, *]

@[simp] theorem Dev.remoteFail_kept (o : Keep) (a0 : Dev) (a1) (a2) (a3) (a4) (h0 : Kept o a0) : Kept o (@Dev.remoteFail a0 a1 a2 a3 a4) := by
  unfold Dev.remoteFail
  repeat' first | assumption | intro _ | with_reducible apply kept_ite | with_reducible apply kept_forAll | with_reducible apply kept_foldl | with_reducible apply kept_when | with_reducible apply kept_foldl_fst | with_reducible apply kept_ite_fst | with_reducible apply kept_ite_snd | with_reducible apply Dev.respond_kept | with_reducible apply Dev.discardWrite_kept | with_reducible apply Dev.poisonRead_kept | (simp only [kept_mk, keptMem_dev]; done) | split | (simp only [kept_mk, keptMem_dev])

@[simp] theorem Dev.forward_kept (o : Keep) (a0 : Dev) (a1) (a2) (a3) (a4) (h0 : Kept o a0) : Kept o (@Dev.forward a0 a1 a2 a3 a4) := by
  unfold Dev.forward
  repeat' first | assumption | intro _ | with_reducible apply kept_ite | with_reducible apply kept_forAll | with_reducible apply kept_foldl | with_reducible apply kept_when | with_reducible apply kept_foldl_fst | with_reducible apply kept_ite_fst | with_reducible apply kept_ite_snd | with_reducible apply Dev.heat_kept | with_reducible apply Dev.respond_kept | with_reducible apply Dev.discardWrite_kept | with_reducible apply Dev.pullTrigger_kept | with_reducible apply Dev.poisonRead_kept | with_reducible apply Dev.newTag_kept | with_reducible apply Dev.dirtyPage_kept | with_reducible apply Dev.sendTo_kept | with_reducible apply Dev.restTag_kept | with_reducible apply Dev.remoteFail_kept | (simp only [kept_mk, keptMem_dev]; done) | split | (simp only [kept_mk, keptMem_dev])

@[simp] theorem Dev.checkHint_kept (o : Keep) (a0 : Dev) (a1) (h0 : Kept o a0) : Kept o (@Dev.checkHint a0 a1).1 := by
  unfold Dev.checkHint
  repeat' first | assumption | intro _ | with_reducible apply kept_ite | with_reducible apply kept_forAll | with_reducible apply kept_foldl | with_reducible apply kept_when | with_reducible apply kept_foldl_fst | with_reducible apply kept_ite_fst | with_reducible apply kept_ite_snd | with_reducible apply Dev.raise_kept | with_reducible apply Dev.setHs_kept | (simp only [kept_mk, keptMem_dev]; done) | split | (simp only [kept_mk, keptMem_dev])

@[simp] theorem Dev.admitWriteBack_kept (o : Keep) (a0 : Dev) (a1) (h0 : Kept o a0) : Kept o (@Dev.admitWriteBack a0 a1) := by
  unfold Dev.admitWriteBack
  try dsimp only
  repeat' first | assumption | intro _ | with_reducible apply kept_ite | with_reducible apply kept_forAll | with_reducible apply kept_foldl | with_reducible apply kept_when | with_reducible apply kept_foldl_fst | with_reducible apply kept_ite_fst | with_reducible apply kept_ite_snd | with_reducible apply Dev.answerDown_kept | with_reducible apply Dev.forward_kept | with_reducible apply Dev.checkHint_kept | with_reducible apply Dev.setHs_kept | with_reducible apply Dev.writePromoting_kept | with_reducible apply Dev.serveWrite_kept | with_reducible apply Dev.respond_kept | (simp only [kept_mk, keptMem_dev]; done) | split | (simp only [kept_mk, keptMem_dev]) | (simp_all; done)

@[simp] theorem Dev.noteLoad_kept (o : Keep) (a0 : Dev) (a1) (h0 : Kept o a0) : Kept o (@Dev.noteLoad a0 a1) := by
  simp (maxDischargeDepth := 20) +contextual [Dev.noteLoad, *]

@[simp] theorem Dev.memberDead_kept (o : Keep) (a0 : Dev) (a1) (a2) (h0 : Kept o a0) : Kept o (@Dev.memberDead a0 a1 a2) := by
  simp (maxDischargeDepth := 20) +contextual [Dev.memberDead, *]

@[simp] theorem Dev.useCredits_kept (o : Keep) (a0 : Dev) (a1) (a2) (h0 : Kept o a0) : Kept o (@Dev.useCredits a0 a1 a2) := by
  induction a2 generalizing a0 with
  | zero => exact h0
  | succ n ih =>
    unfold Dev.useCredits
    split
    · exact h0
    · split
      · exact ih _ (Dev.enlist_kept _ _ _ _ (Dev.setHs_kept _ _ _ _ h0))
      · exact h0

@[simp] theorem Dev.settle_kept (o : Keep) (a0 : Dev) (a1) (a2) (h0 : Kept o a0) : Kept o (@Dev.settle a0 a1 a2) := by
  induction a2 generalizing a0 with
  | zero => exact h0
  | succ n ih =>
    unfold Dev.settle
    split
    · exact h0
    · refine ih _ ?_
      split
      · exact Dev.wayFor_kept _ _ _ _ h0
      · split
        · exact Dev.finishPush_kept _ _ _ _ h0
        · exact Dev.finishHold_kept _ _ _ _ h0

@[simp] theorem Dev.downSlices_kept (o : Keep) (a0 : Dev) (a1) (a2) (h0 : Kept o a0) : Kept o (@Dev.downSlices a0 a1 a2) := by
  unfold Dev.downSlices
  repeat' first | assumption | intro _ | with_reducible apply kept_ite | with_reducible apply kept_forAll | with_reducible apply kept_foldl | with_reducible apply kept_when | with_reducible apply kept_foldl_fst | with_reducible apply kept_ite_fst | with_reducible apply kept_ite_snd | with_reducible apply Dev.dropPromos_kept | with_reducible apply forAll_kept | with_reducible apply Dev.poisonRead_kept | with_reducible apply Dev.abandonHold_kept | with_reducible apply Dev.setHs_kept | with_reducible apply Dev.answerDown_kept | with_reducible apply Dev.useCredits_kept | with_reducible apply Dev.settle_kept | (simp only [kept_mk, keptMem_dev]; done) | split | (simp only [kept_mk, keptMem_dev])

@[simp] theorem Dev.handleDown_kept (o : Keep) (a0 : Dev) (a1) (h0 : Kept o a0) : Kept o (@Dev.handleDown a0 a1) := by
  unfold Dev.handleDown
  repeat' first | assumption | intro _ | with_reducible apply kept_ite | with_reducible apply kept_forAll | with_reducible apply kept_foldl | with_reducible apply kept_when | with_reducible apply kept_foldl_fst | with_reducible apply kept_ite_fst | with_reducible apply kept_ite_snd | with_reducible apply Dev.setDom_kept | with_reducible apply Dev.downSlices_kept | with_reducible apply Dev.raiseI_kept | with_reducible apply Dev.record_kept | with_reducible apply Dev.broadcast_kept | (simp only [kept_mk, keptMem_dev]; done) | split | (simp only [kept_mk, keptMem_dev])

@[simp] theorem Dev.handleRemoteDown_kept (o : Keep) (a0 : Dev) (a1) (a2) (h0 : Kept o a0) : Kept o (@Dev.handleRemoteDown a0 a1 a2) := by
  unfold Dev.handleRemoteDown
  repeat' first | assumption | intro _ | with_reducible apply kept_ite | with_reducible apply kept_forAll | with_reducible apply kept_foldl | with_reducible apply kept_when | with_reducible apply kept_foldl_fst | with_reducible apply kept_ite_fst | with_reducible apply kept_ite_snd | with_reducible apply Dev.downSlices_kept | with_reducible apply Dev.raiseI_kept | with_reducible apply Dev.record_kept | with_reducible apply Dev.broadcast_kept | (simp only [kept_mk, keptMem_dev]; done) | split | (simp only [kept_mk, keptMem_dev])

@[simp] theorem Dev.startHold_kept (o : Keep) (a0 : Dev) (a1) (a2) (a3) (a4) (a5) (a6) (a7) (h0 : Kept o a0) : Kept o (@Dev.startHold a0 a1 a2 a3 a4 a5 a6 a7) :=
  Dev.settle_kept _ _ _ _ (Dev.addHold_kept _ _ _ _ _ _ _ _ _ h0)

@[simp] theorem Dev.backInvalidate_kept (o : Keep) (a0 : Dev) (a1) (a2) (h0 : Kept o a0) : Kept o (@Dev.backInvalidate a0 a1 a2) :=
  Dev.settle_kept _ _ _ _ (Dev.evictLine_kept _ _ _ _ h0)

@[simp] theorem Dev.admitReq_kept (o : Keep) (a0 : Dev) (a1) (h0 : Kept o a0) : Kept o (@Dev.admitReq a0 a1).1 := by
  simp +contextual only [Dev.admitReq]
  (repeat' split) <;> simp (maxDischargeDepth := 20) +contextual [*]

@[simp] theorem Dev.arbitrate_kept (o : Keep) (a0 : Dev) (a1) (h0 : Kept o a0) : Kept o (@Dev.arbitrate a0 a1) := by
  unfold Dev.arbitrate
  repeat' first | assumption | intro _ | with_reducible apply kept_ite | with_reducible apply kept_forAll | with_reducible apply kept_foldl | with_reducible apply kept_when | with_reducible apply kept_foldl_fst | with_reducible apply kept_ite_fst | with_reducible apply kept_ite_snd | with_reducible apply Dev.useCredits_kept | with_reducible apply Dev.admitWriteBack_kept | with_reducible apply Dev.setHs_kept | with_reducible apply Dev.admitReq_kept | (simp only [kept_mk, keptMem_dev]; done) | split | (simp only [kept_mk, keptMem_dev])

@[simp] theorem Dev.arrive_kept (o : Keep) (a0 : Dev) (a1) (h0 : Kept o a0) : Kept o (@Dev.arrive a0 a1) := by
  simp (maxDischargeDepth := 20) +contextual [Dev.arrive, *]

@[simp] theorem Dev.request_kept (o : Keep) (a0 : Dev) (a1) (h0 : Kept o a0) : Kept o (@Dev.request a0 a1) := by
  simp (maxDischargeDepth := 20) +contextual [Dev.request, *]

@[simp] theorem Dev.releaseHold_kept (o : Keep) (a0 : Dev) (a1) (a2) (h0 : Kept o a0) : Kept o (@Dev.releaseHold a0 a1 a2) := by
  simp (maxDischargeDepth := 20) +contextual [Dev.releaseHold, *]

@[simp] theorem Dev.snoopResponse_kept (o : Keep) (a0 : Dev) (a1) (a2) (a3) (a4) (a5) (h0 : Kept o a0) : Kept o (@Dev.snoopResponse a0 a1 a2 a3 a4 a5) := by
  unfold Dev.snoopResponse
  generalize (if a1 = a0.devId then a3 else 17) = w
  extract_lets n
  split
  · exact Dev.raise_kept _ _ _ _ _ h0
  · split
    · exact h0
    · refine kept_ite _ _ _ _ (Dev.settle_kept _ _ _ _ ?_) (Dev.detectDown_kept _ _ _ _ _ _ _ (Dev.raise_kept _ _ _ _ _ h0))
      exact kept_ite _ _ _ _ (Dev.setHs_kept _ _ _ _ (Dev.setHs_kept _ _ _ _ h0)) (Dev.setHs_kept _ _ _ _ h0)

end Sys2Proof.Machine
end

