-- ==== Sys2Proof/Laws/KeptDram.lean ====
section
/-! SUPPORT. That the DRAM channels keep both byte memories in canonical form and change the OTP only as it may be burnt: one lemma for each
operation that answers a device. -/

namespace Sys2Proof.Machine

open Sys2Proof

set_option linter.unreachableTactic false
set_option linter.unusedTactic false
set_option linter.unusedSimpArgs false

@[simp] theorem Dev.retireNow_kept (o : Keep) (a0 : Dev) (a1) (a2) (a3) (a4) (h0 : Kept o a0) : Kept o (@Dev.retireNow a0 a1 a2 a3 a4) := by
  unfold Dev.retireNow
  repeat' first | assumption | intro _ | with_reducible apply kept_ite | with_reducible apply kept_forAll | with_reducible apply kept_foldl | with_reducible apply kept_when | with_reducible apply kept_foldl_fst | with_reducible apply kept_ite_fst | with_reducible apply kept_ite_snd | with_reducible apply Dev.setRank_kept | with_reducible apply Dev.setTile_kept | with_reducible apply Dev.mgrRecord_kept | with_reducible apply Dev.raiseI_kept | (simp only [kept_mk, keptMem_dev]; done) | split | (simp only [kept_mk, keptMem_dev])

@[simp] theorem Dev.rankOff_kept (o : Keep) (a0 : Dev) (a1) (a2) (h0 : Kept o a0) : Kept o (@Dev.rankOff a0 a1 a2) := by
  unfold Dev.rankOff
  repeat' first | assumption | intro _ | with_reducible apply kept_ite | with_reducible apply kept_forAll | with_reducible apply kept_foldl | with_reducible apply kept_when | with_reducible apply kept_foldl_fst | with_reducible apply kept_ite_fst | with_reducible apply kept_ite_snd | with_reducible apply Dev.setChan_kept | with_reducible apply Dev.setRank_kept | (simp only [kept_mk, keptMem_dev]; done) | split | (simp only [kept_mk, keptMem_dev])

@[simp] theorem Dev.slotOff_kept (o : Keep) (a0 : Dev) (a1) (a2) (h0 : Kept o a0) : Kept o (@Dev.slotOff a0 a1 a2) := by
  simp +contextual [Dev.slotOff, *]

@[simp] theorem Dev.metaUe_kept (o : Keep) (a0 : Dev) (a1) (a2) (h0 : Kept o a0) : Kept o (@Dev.metaUe a0 a1 a2) := by
  unfold Dev.metaUe
  repeat' first | assumption | intro _ | with_reducible apply kept_ite | with_reducible apply kept_forAll | with_reducible apply kept_foldl | with_reducible apply kept_when | with_reducible apply kept_foldl_fst | with_reducible apply kept_ite_fst | with_reducible apply kept_ite_snd | with_reducible apply Dev.raise_kept | with_reducible apply forAll_kept | with_reducible apply Dev.setFrame_kept | with_reducible apply Dev.dropCand_kept | with_reducible apply Dev.foundPage_kept | with_reducible apply Dev.setEntry_kept | with_reducible apply Dev.mediaRecord_kept | (simp only [kept_mk, keptMem_dev]; done) | split | (simp only [kept_mk, keptMem_dev])

@[simp] theorem Dev.ueAt_kept (o : Keep) (a0 : Dev) (a1) (a2) (h0 : Kept o a0) : Kept o (@Dev.ueAt a0 a1 a2) := by
  unfold Dev.ueAt
  repeat' first | assumption | intro _ | with_reducible apply kept_ite | with_reducible apply kept_forAll | with_reducible apply kept_foldl | with_reducible apply kept_when | with_reducible apply kept_foldl_fst | with_reducible apply kept_ite_fst | with_reducible apply kept_ite_snd | with_reducible apply Dev.metaUe_kept | with_reducible apply Dev.setFrame_kept | with_reducible apply forAll_kept | with_reducible apply Dev.mediaRecord_kept | with_reducible apply Dev.poisonGran_kept | with_reducible apply Dev.losePage_kept | (simp only [kept_mk, keptMem_dev]; done) | split | (simp only [kept_mk, keptMem_dev])

@[simp] theorem Dev.haltPump_kept (o : Keep) (a0 : Dev) (a1) (a2) (a3) (a4) (h0 : Kept o a0) : Kept o (@Dev.haltPump a0 a1 a2 a3 a4) := by
  simp +contextual [Dev.haltPump, *]

@[simp] theorem Dev.readUe_kept (o : Keep) (a0 : Dev) (a1) (a2) (h0 : Kept o a0) : Kept o (@Dev.readUe a0 a1 a2) := by
  unfold Dev.readUe
  repeat' first | assumption | intro _ | with_reducible apply kept_ite | with_reducible apply kept_forAll | with_reducible apply kept_foldl | with_reducible apply kept_when | with_reducible apply kept_foldl_fst | with_reducible apply kept_ite_fst | with_reducible apply kept_ite_snd | with_reducible apply Dev.meetUe_kept | with_reducible apply Dev.ueAt_kept | with_reducible apply Dev.haltPump_kept | with_reducible apply Dev.setChan_kept | with_reducible apply Dev.metaUe_kept | (simp only [kept_mk, keptMem_dev]; done) | split | (simp only [kept_mk, keptMem_dev])

@[simp] theorem Dev.queueMeta_kept (o : Keep) (a0 : Dev) (a1) (a2) (h0 : Kept o a0) : Kept o (@Dev.queueMeta a0 a1 a2) := by
  simp +contextual [Dev.queueMeta, *]

@[simp] theorem Dev.loseAt_kept (o : Keep) (a0 : Dev) (a1) (a2) (a3) (h0 : Kept o a0) : Kept o (@Dev.loseAt a0 a1 a2 a3) := by
  simp +contextual [Dev.loseAt, *]

@[simp] theorem Dev.queueEvac_kept (o : Keep) (a0 : Dev) (a1) (h0 : Kept o a0) : Kept o (@Dev.queueEvac a0 a1) := by
  unfold Dev.queueEvac
  repeat' first | assumption | intro _ | with_reducible apply kept_ite | with_reducible apply kept_forAll | with_reducible apply kept_foldl | with_reducible apply kept_when | with_reducible apply kept_foldl_fst | with_reducible apply kept_ite_fst | with_reducible apply kept_ite_snd | with_reducible apply Dev.queueJob_kept | (simp only [kept_mk, keptMem_dev]; done) | split | (simp only [kept_mk, keptMem_dev])

@[simp] theorem Dev.walkRank_kept (o : Keep) (a0 : Dev) (a1) (a2) (a3) (h0 : Kept o a0) : Kept o (@Dev.walkRank a0 a1 a2 a3) := by
  unfold Dev.walkRank
  repeat' first | assumption | intro _ | with_reducible apply kept_ite | with_reducible apply kept_forAll | with_reducible apply kept_foldl | with_reducible apply kept_when | with_reducible apply kept_foldl_fst | with_reducible apply kept_ite_fst | with_reducible apply kept_ite_snd | with_reducible apply forAll_kept | with_reducible apply Dev.queueMeta_kept | with_reducible apply Dev.loseAt_kept | with_reducible apply Dev.queueEvac_kept | (simp only [kept_mk, keptMem_dev]; done) | split | (simp only [kept_mk, keptMem_dev])

@[simp] theorem Dev.evacuationWalk_kept (o : Keep) (a0 : Dev) (a1) (h0 : Kept o a0) : Kept o (@Dev.evacuationWalk a0 a1) := by
  unfold Dev.evacuationWalk
  repeat' first | assumption | intro _ | with_reducible apply kept_ite | with_reducible apply kept_forAll | with_reducible apply kept_foldl | with_reducible apply kept_when | with_reducible apply kept_foldl_fst | with_reducible apply kept_ite_fst | with_reducible apply kept_ite_snd | with_reducible apply forAll_kept | with_reducible apply Dev.walkRank_kept | (simp only [kept_mk, keptMem_dev]; done) | split | (simp only [kept_mk, keptMem_dev])

@[simp] theorem Dev.remapRow_kept (o : Keep) (a0 : Dev) (a1) (a2) (h0 : Kept o a0) : Kept o (@Dev.remapRow a0 a1 a2) := by
  unfold Dev.remapRow
  (repeat' split) <;> simp (maxDischargeDepth := 20) +contextual [*]

@[simp] theorem Dev.payRefresh_kept (o : Keep) (a0 : Dev) (a1) (a2) (h0 : Kept o a0) : Kept o (@Dev.payRefresh a0 a1 a2) := by
  simp (maxDischargeDepth := 20) +contextual [Dev.payRefresh, *]

@[simp] theorem Dev.rankTrigger_kept (o : Keep) (a0 : Dev) (a1) (a2) (h0 : Kept o a0) : Kept o (@Dev.rankTrigger a0 a1 a2) := by
  simp (maxDischargeDepth := 20) +contextual [Dev.rankTrigger, *]

@[simp] theorem Dev.parkRank_kept (o : Keep) (a0 : Dev) (a1) (a2) (h0 : Kept o a0) : Kept o (@Dev.parkRank a0 a1 a2) := by
  simp (maxDischargeDepth := 20) +contextual [Dev.parkRank, *]

@[simp] theorem Dev.drainCh_kept (o : Keep) (a0 : Dev) (a1) (h0 : Kept o a0) : Kept o (@Dev.drainCh a0 a1) := by
  simp (maxDischargeDepth := 20) +contextual [Dev.drainCh, *]

@[simp] theorem Dev.accessDone_kept (o : Keep) (a0 : Dev) (a1) (a2) (a3) (h0 : Kept o a0) : Kept o (@Dev.accessDone a0 a1 a2 a3) := by
  unfold Dev.accessDone
  repeat' first | assumption | intro _ | with_reducible apply kept_ite | with_reducible apply kept_forAll | with_reducible apply kept_foldl | with_reducible apply kept_when | with_reducible apply kept_foldl_fst | with_reducible apply kept_ite_fst | with_reducible apply kept_ite_snd | with_reducible apply Dev.setChan_kept | with_reducible apply Dev.drainCh_kept | (simp only [kept_mk, keptMem_dev]; done) | split | (simp only [kept_mk, keptMem_dev])

@[simp] theorem Dev.writeBurst_kept (o : Keep) (a0 : Dev) (a1) (a2) (a3) (h0 : Kept o a0) : Kept o (@Dev.writeBurst a0 a1 a2 a3) := by
  unfold Dev.writeBurst
  repeat' first | assumption | intro _ | with_reducible apply kept_ite | with_reducible apply kept_forAll | with_reducible apply kept_foldl | with_reducible apply kept_when | with_reducible apply kept_foldl_fst | with_reducible apply kept_ite_fst | with_reducible apply kept_ite_snd | with_reducible apply Dev.accessDone_kept | with_reducible apply Dev.setChan_kept | with_reducible apply Dev.emit_kept | with_reducible apply Dev.haltPump_kept | with_reducible apply forAll_kept | with_reducible apply Dev.loseLine_kept | (simp only [kept_mk, keptMem_dev]; done) | split | (simp only [kept_mk, keptMem_dev])

@[simp] theorem Dev.enterSelfRef_kept (o : Keep) (a0 : Dev) (a1) (h0 : Kept o a0) : Kept o (@Dev.enterSelfRef a0 a1) := by
  simp (maxDischargeDepth := 20) +contextual [Dev.enterSelfRef, *]

@[simp] theorem Dev.recordRepair_kept (o : Keep) (a0 : Dev) (a1) (h0 : Kept o a0) : Kept o (@Dev.recordRepair a0 a1) := by
  unfold Dev.recordRepair
  repeat' first | assumption | intro _ | with_reducible apply kept_ite | with_reducible apply kept_forAll | with_reducible apply kept_foldl | with_reducible apply kept_when | with_reducible apply kept_foldl_fst | with_reducible apply kept_ite_fst | with_reducible apply kept_ite_snd | with_reducible apply Dev.raise_kept | (simp only [kept_mk, keptMem_dev]; done) | split | (simp only [kept_mk, keptMem_dev])

@[simp] theorem Dev.softPpr_kept (o : Keep) (a0 : Dev) (a1) (a2) (h0 : Kept o a0) : Kept o (@Dev.softPpr a0 a1 a2) := by
  unfold Dev.softPpr
  (repeat' split) <;> simp (maxDischargeDepth := 20) +contextual [*]

@[simp] theorem Dev.startRetrain_kept (o : Keep) (a0 : Dev) (a1) (a2) (h0 : Kept o a0) : Kept o (@Dev.startRetrain a0 a1 a2) := by
  simp (maxDischargeDepth := 20) +contextual [Dev.startRetrain, *]

@[simp] theorem Dev.burstResult_kept (o : Keep) (a0 : Dev) (a1) (a2) (a3) (h0 : Kept o a0) : Kept o (@Dev.burstResult a0 a1 a2 a3) := by
  simp (maxDischargeDepth := 20) +contextual [Dev.burstResult, *]

@[simp] theorem Dev.retrainingEnd_kept (o : Keep) (a0 : Dev) (a1) (a2) (a3) (a4) (h0 : Kept o a0) : Kept o (@Dev.retrainingEnd a0 a1 a2 a3 a4) := by
  simp (maxDischargeDepth := 20) +contextual [Dev.retrainingEnd, *]

@[simp] theorem Dev.endUrgent_kept (o : Keep) (a0 : Dev) (a1) (h0 : Kept o a0) : Kept o (@Dev.endUrgent a0 a1) := by
  simp (maxDischargeDepth := 20) +contextual [Dev.endUrgent, *]

@[simp] theorem Dev.refabIssue_kept (o : Keep) (a0 : Dev) (a1) (a2) (h0 : Kept o a0) : Kept o (@Dev.refabIssue a0 a1 a2) := by
  simp (maxDischargeDepth := 20) +contextual [Dev.refabIssue, *]

@[simp] theorem Dev.caParityAlert_kept (o : Keep) (a0 : Dev) (a1) (a2) (h0 : Kept o a0) : Kept o (@Dev.caParityAlert a0 a1 a2) := by
  simp (maxDischargeDepth := 20) +contextual [Dev.caParityAlert, *]

@[simp] theorem Dev.replayRepairs_kept (o : Keep) (a0 : Dev) (a1) (a2) (h0 : Kept o a0) : Kept o (@Dev.replayRepairs a0 a1 a2) := by
  unfold Dev.replayRepairs
  repeat' first | assumption | intro _ | with_reducible apply kept_ite | with_reducible apply kept_forAll | with_reducible apply kept_foldl | with_reducible apply kept_when | with_reducible apply kept_foldl_fst | with_reducible apply kept_ite_fst | with_reducible apply kept_ite_snd | with_reducible apply forAll_kept | with_reducible apply Dev.setFrame_kept | with_reducible apply Dev.emit_kept | with_reducible apply Dev.setChan_kept | (simp only [kept_mk, keptMem_dev]; done) | split | (simp only [kept_mk, keptMem_dev])

@[simp] theorem Dev.rankUpNow_kept (o : Keep) (a0 : Dev) (a1) (a2) (h0 : Kept o a0) : Kept o (@Dev.rankUpNow a0 a1 a2) := by
  simp (maxDischargeDepth := 20) +contextual [Dev.rankUpNow, *]

@[simp] theorem Dev.bringUpComplete_kept (o : Keep) (a0 : Dev) (a1) (a2) (h0 : Kept o a0) : Kept o (@Dev.bringUpComplete a0 a1 a2) := by
  simp (maxDischargeDepth := 20) +contextual [Dev.bringUpComplete, *]

@[simp] theorem Dev.hardGran_kept (o : Keep) (a0 : Dev) (a1) (a2) (a3) (h0 : Kept o a0) : Kept o (@Dev.hardGran a0 a1 a2 a3) := by
  unfold Dev.hardGran
  repeat' first | assumption | intro _ | with_reducible apply kept_ite | with_reducible apply kept_forAll | with_reducible apply kept_foldl | with_reducible apply kept_when | with_reducible apply kept_foldl_fst | with_reducible apply kept_ite_fst | with_reducible apply kept_ite_snd | with_reducible apply Dev.setRank_kept | with_reducible apply Dev.mgrRecord_kept | with_reducible apply Dev.raise_kept | (simp only [kept_mk, keptMem_dev]; done) | split | (simp only [kept_mk, keptMem_dev])

@[simp] theorem Dev.correction_kept (o : Keep) (a0 : Dev) (a1) (a2) (h0 : Kept o a0) : Kept o (@Dev.correction a0 a1 a2) := by
  unfold Dev.correction
  repeat' first | assumption | intro _ | with_reducible apply kept_ite | with_reducible apply kept_forAll | with_reducible apply kept_foldl | with_reducible apply kept_when | with_reducible apply kept_foldl_fst | with_reducible apply kept_ite_fst | with_reducible apply kept_ite_snd | with_reducible apply Dev.setRank_kept | with_reducible apply Dev.raise_kept | with_reducible apply Dev.setChan_kept | with_reducible apply Dev.hardGran_kept | with_reducible apply Dev.remapRow_kept | (simp only [kept_mk, keptMem_dev]; done) | split | (simp only [kept_mk, keptMem_dev])

@[simp] theorem Dev.rewriteLater_kept (o : Keep) (a0 : Dev) (a1) (a2) (h0 : Kept o a0) : Kept o (@Dev.rewriteLater a0 a1 a2) := by
  simp (maxDischargeDepth := 20) +contextual [Dev.rewriteLater, *]

@[simp] theorem Dev.readReturn_kept (o : Keep) (a0 : Dev) (a1) (a2) (a3) (h0 : Kept o a0) : Kept o (@Dev.readReturn a0 a1 a2 a3) := by
  unfold Dev.readReturn
  repeat' first | assumption | intro _ | with_reducible apply kept_ite | with_reducible apply kept_forAll | with_reducible apply kept_foldl | with_reducible apply kept_when | with_reducible apply kept_foldl_fst | with_reducible apply kept_ite_fst | with_reducible apply kept_ite_snd | with_reducible apply Dev.correction_kept | with_reducible apply Dev.rewriteLater_kept | with_reducible apply Dev.readUe_kept | (simp only [kept_mk, keptMem_dev]; done) | split | (simp only [kept_mk, keptMem_dev])

@[simp] theorem Dev.scrubGran_kept (o : Keep) (a0 : Dev) (a1) (a2) (a3) (h0 : Kept o a0) : Kept o (@Dev.scrubGran a0 a1 a2 a3) := by
  unfold Dev.scrubGran
  split
  · exact h0
  · exact kept_ite _ _ _ _ (Dev.readReturn_kept _ _ _ _ _ (Dev.setChan_kept _ _ _ _ h0)) h0

@[simp] theorem Dev.mr4Rank_kept (o : Keep) (a0 : Dev) (a1) (a2) (a3) (h0 : Kept o a0) : Kept o (@Dev.mr4Rank a0 a1 a2 a3) := by
  simp (maxDischargeDepth := 20) +contextual [Dev.mr4Rank, *]

@[simp] theorem Dev.exitSelfRef_kept (o : Keep) (a0 : Dev) (a1) (h0 : Kept o a0) : Kept o (@Dev.exitSelfRef a0 a1) := by
  simp (maxDischargeDepth := 20) +contextual [Dev.exitSelfRef, *]

@[simp] theorem Dev.retrainingWindow_kept (o : Keep) (a0 : Dev) (a1) (a2) (a3) (h0 : Kept o a0) : Kept o (@Dev.retrainingWindow a0 a1 a2 a3) := by
  simp (maxDischargeDepth := 20) +contextual [Dev.retrainingWindow, *]

@[simp] theorem Dev.evacuationRetry_kept (o : Keep) (a0 : Dev) (a1) (h0 : Kept o a0) : Kept o (@Dev.evacuationRetry a0 a1) := by
  simp (maxDischargeDepth := 20) +contextual [Dev.evacuationRetry, *]

@[simp] theorem Dev.rewriteGran_kept (o : Keep) (a0 : Dev) (a1) (a2) (a3) (a4) (h0 : Kept o a0) : Kept o (@Dev.rewriteGran a0 a1 a2 a3 a4) := by
  unfold Dev.rewriteGran
  repeat' first | assumption | intro _ | with_reducible apply kept_ite | with_reducible apply kept_forAll | with_reducible apply kept_foldl | with_reducible apply kept_when | with_reducible apply kept_foldl_fst | with_reducible apply kept_ite_fst | with_reducible apply kept_ite_snd | with_reducible apply Dev.setChan_kept | with_reducible apply Dev.readReturn_kept | with_reducible apply Dev.rewriteLater_kept | (simp only [kept_mk, keptMem_dev]; done) | split | (simp only [kept_mk, keptMem_dev])

@[simp] theorem Dev.serveRewrite_kept (o : Keep) (a0 : Dev) (a1) (a2) (h0 : Kept o a0) : Kept o (@Dev.serveRewrite a0 a1 a2) := by
  unfold Dev.serveRewrite
  split
  · exact h0
  · exact Dev.rewriteGran_kept _ _ _ _ _ _ h0

@[simp] theorem Dev.calibrationBurst_kept (o : Keep) (a0 : Dev) (a1) (a2) (a3) (h0 : Kept o a0) : Kept o (@Dev.calibrationBurst a0 a1 a2 a3) := by
  simp (maxDischargeDepth := 20) +contextual [Dev.calibrationBurst, *]

@[simp] theorem Dev.rankEmpty_kept (o : Keep) (a0 : Dev) (a1) (a2) (h0 : Kept o a0) : Kept o (@Dev.rankEmpty a0 a1 a2) := by
  unfold Dev.rankEmpty
  repeat' first | assumption | intro _ | with_reducible apply kept_ite | with_reducible apply kept_forAll | with_reducible apply kept_foldl | with_reducible apply kept_when | with_reducible apply kept_foldl_fst | with_reducible apply kept_ite_fst | with_reducible apply kept_ite_snd | with_reducible apply Dev.setRank_kept | with_reducible apply Dev.setTile_kept | with_reducible apply Dev.mgrRecord_kept | with_reducible apply Dev.raise_kept | with_reducible apply Dev.finishBg_kept | (simp only [kept_mk, keptMem_dev]; done) | split | (simp only [kept_mk, keptMem_dev])

@[simp] theorem Dev.clearSlot_kept (o : Keep) (a0 : Dev) (a1) (a2) (h0 : Kept o a0) : Kept o (@Dev.clearSlot a0 a1 a2) := by
  unfold Dev.clearSlot
  repeat' first | assumption | intro _ | with_reducible apply kept_ite | with_reducible apply kept_forAll | with_reducible apply kept_foldl | with_reducible apply kept_when | with_reducible apply kept_foldl_fst | with_reducible apply kept_ite_fst | with_reducible apply kept_ite_snd | with_reducible apply forAll_kept | with_reducible apply Dev.loseAt_kept | with_reducible apply Dev.setTile_kept | with_reducible apply Dev.setRank_kept | with_reducible apply Dev.setChan_kept | (simp only [kept_mk, keptMem_dev]; done) | split | (simp only [kept_mk, keptMem_dev])

@[simp] theorem Dev.refreshCredit_kept (o : Keep) (a0 : Dev) (a1) (h0 : Kept o a0) : Kept o (@Dev.refreshCredit a0 a1) := by
  simp (maxDischargeDepth := 20) +contextual [Dev.refreshCredit, *]

@[simp] theorem Dev.ueWindowExpiry_kept (o : Keep) (a0 : Dev) (a1) (a2) (h0 : Kept o a0) : Kept o (@Dev.ueWindowExpiry a0 a1 a2) := by
  simp (maxDischargeDepth := 20) +contextual [Dev.ueWindowExpiry, *]

@[simp] theorem Dev.dramReadReturn_kept (o : Keep) (a0 : Dev) (a1) (a2) (a3) (a4) (h0 : Kept o a0) : Kept o (@Dev.dramReadReturn a0 a1 a2 a3 a4) := by
  simp (maxDischargeDepth := 20) +contextual [Dev.dramReadReturn, *]

@[simp] theorem Dev.scrubOne_kept (o : Keep) (a0 : Dev) (a1) (a2) (h0 : Kept o a0) : Kept o (@Dev.scrubOne a0 a1 a2) := by
  unfold Dev.scrubOne
  split
  · exact h0
  · exact Dev.scrubGran_kept _ _ _ _ _ (kept_ite _ _ _ _ (Dev.raise_kept _ _ _ _ _ (Dev.setChan_kept _ _ _ _ h0)) (Dev.setChan_kept _ _ _ _ h0))

@[simp] theorem Dev.scrubRead_kept (o : Keep) (a0 : Dev) (a1) (a2) (a3) (h0 : Kept o a0) : Kept o (@Dev.scrubRead a0 a1 a2 a3) := by
  simp (maxDischargeDepth := 20) +contextual [Dev.scrubRead, *]

@[simp] theorem Dev.channelRequest_kept (o : Keep) (a0 : Dev) (a1) (a2) (a3) (a4) (h0 : Kept o a0) : Kept o (@Dev.channelRequest a0 a1 a2 a3 a4) := by
  simp (maxDischargeDepth := 20) +contextual [Dev.channelRequest, *]

@[simp] theorem Dev.autoIdleExpiry_kept (o : Keep) (a0 : Dev) (a1) (a2) (a3) (h0 : Kept o a0) : Kept o (@Dev.autoIdleExpiry a0 a1 a2 a3) := by
  simp (maxDischargeDepth := 20) +contextual [Dev.autoIdleExpiry, *]

@[simp] theorem Dev.retrainingTimeout_kept (o : Keep) (a0 : Dev) (a1) (a2) (a3) (h0 : Kept o a0) : Kept o (@Dev.retrainingTimeout a0 a1 a2 a3) := by
  simp (maxDischargeDepth := 20) +contextual [Dev.retrainingTimeout, *]

@[simp] theorem Dev.mr4Poll_kept (o : Keep) (a0 : Dev) (a1) (a2) (h0 : Kept o a0) : Kept o (@Dev.mr4Poll a0 a1 a2) := by
  simp (maxDischargeDepth := 20) +contextual [Dev.mr4Poll, *]

@[simp] theorem Dev.channelStart_kept (o : Keep) (a0 : Dev) (a1) (a2) (a3) (a4) (h0 : Kept o a0) : Kept o (@Dev.channelStart a0 a1 a2 a3 a4) := by
  unfold Dev.channelStart
  extract_lets u0 u1 rate v0 v1 bad d1 d2 d3 came
  have h3 : Kept o d3 := Dev.setChan_kept _ _ _ _ (kept_forAll _ _ _ _ (kept_forAll _ _ _ _ h0 fun _ _ hd => Dev.raise_kept _ _ _ _ _ hd) fun _ _ hd => Dev.clearSlot_kept _ _ _ _ hd)
  clear_value d3
  split
  · extract_lets e1 e2 news e3
    have h4 : Kept o e1 := Dev.setChan_kept _ _ _ _ h3
    clear_value e1
    have h5 : Kept o e2 := kept_ite _ _ _ _ (Dev.raise_kept _ _ _ _ _ h4) h4
    clear_value e2
    exact Dev.setChan_kept _ _ _ _ (kept_forAll _ _ _ _ h5 fun _ _ hd => Dev.setRank_kept _ _ _ _ _ hd)
  · exact h3

@[simp] theorem Dev.installSetting_kept (o : Keep) (a0 : Dev) (a1) (a2) (h0 : Kept o a0) : Kept o (@Dev.installSetting a0 a1 a2) := by
  unfold Dev.installSetting
  split
  · exact h0
  · exact kept_ite _ _ _ _ (Dev.raise_kept _ _ _ _ _ (Dev.setRank_kept _ _ _ _ _ h0)) (Dev.setRank_kept _ _ _ _ _ h0)

end Sys2Proof.Machine
end

