-- ==== Sys2Proof/Laws/KeptPumps.lean ====
section
/-! SUPPORT. That the pumps keep both byte memories in canonical form and change the OTP only as it may be burnt: one lemma for each
operation that answers a device. -/

namespace Sys2Proof.Machine

open Sys2Proof

set_option linter.unreachableTactic false
set_option linter.unusedTactic false
set_option linter.unusedSimpArgs false

@[simp] theorem Dev.rejoinBack_kept (o : Keep) (a0 : Dev) (a1) (h0 : Kept o a0) : Kept o (@Dev.rejoinBack a0 a1) := by
  simp +contextual [Dev.rejoinBack, *]

@[simp] theorem Dev.restorePage_kept (o : Keep) (a0 : Dev) (a1) (a2) (h0 : Kept o a0) : Kept o (@Dev.restorePage a0 a1 a2) := by
  simp +contextual [Dev.restorePage, *]

@[simp] theorem Dev.trimRun_kept (o : Keep) (a0 : Dev) (a1) (a2) (h0 : Kept o a0) : Kept o (@Dev.trimRun a0 a1 a2) := by
  simp +contextual [Dev.trimRun, *]

@[simp] theorem Dev.sendPageFree_kept (o : Keep) (a0 : Dev) (a1) (a2) (h0 : Kept o a0) : Kept o (@Dev.sendPageFree a0 a1 a2) := by
  unfold Dev.sendPageFree
  split
  rename_i t d h
  have hd : Kept o d := by
    have := Dev.newTag_kept o a0 h0
    rw [h] at this; exact this
  extract_lets c d1
  have h1 : Kept o d1 := hd
  clear_value d1
  simp (maxDischargeDepth := 20) [*]

@[simp] theorem Dev.freeDest_kept (o : Keep) (a0 : Dev) (a1) (a2) (h0 : Kept o a0) : Kept o (@Dev.freeDest a0 a1 a2) := by
  simp (maxDischargeDepth := 20) +contextual [Dev.freeDest, *]

@[simp] theorem Dev.endJob_kept (o : Keep) (a0 : Dev) (a1) (a2) (a3) (h0 : Kept o a0) : Kept o (@Dev.endJob a0 a1 a2 a3) := by
  unfold Dev.endJob
  repeat' first | assumption | intro _ | with_reducible apply kept_ite | with_reducible apply kept_forAll | with_reducible apply kept_foldl | with_reducible apply kept_when | with_reducible apply kept_foldl_fst | with_reducible apply kept_ite_fst | with_reducible apply kept_ite_snd | with_reducible apply Dev.setEnc_kept | with_reducible apply Dev.restTag_kept | with_reducible apply Dev.setPump_kept | (simp only [kept_mk, keptMem_dev]; done) | split | (simp only [kept_mk, keptMem_dev])

@[simp] theorem Dev.rollBack_kept (o : Keep) (a0 : Dev) (a1) (a2) (h0 : Kept o a0) : Kept o (@Dev.rollBack a0 a1 a2) := by
  unfold Dev.rollBack
  repeat' first | assumption | intro _ | with_reducible apply kept_ite | with_reducible apply kept_forAll | with_reducible apply kept_foldl | with_reducible apply kept_when | with_reducible apply kept_foldl_fst | with_reducible apply kept_ite_fst | with_reducible apply kept_ite_snd | with_reducible apply forAll_kept | with_reducible apply Dev.restorePage_kept | with_reducible apply Dev.trimRun_kept | with_reducible apply Dev.freeFrame_kept | with_reducible apply Dev.freeDest_kept | with_reducible apply Dev.endJob_kept | (simp only [kept_mk, keptMem_dev]; done) | split | (simp only [kept_mk, keptMem_dev])

@[simp] theorem Dev.discardHalted_kept (o : Keep) (a0 : Dev) (a1) (h0 : Kept o a0) : Kept o (@Dev.discardHalted a0 a1) := by
  simp (maxDischargeDepth := 20) +contextual [Dev.discardHalted, *]

@[simp] theorem Dev.pumpRefill_kept (o : Keep) (a0 : Dev) (a1) (a2) (h0 : Kept o a0) : Kept o (@Dev.pumpRefill a0 a1 a2) := by
  simp (maxDischargeDepth := 20) +contextual [Dev.pumpRefill, *]

@[simp] theorem Dev.addCand_kept (o : Keep) (a0 : Dev) (a1) (a2) (h0 : Kept o a0) : Kept o (@Dev.addCand a0 a1 a2) := by
  unfold Dev.addCand
  repeat' first | assumption | intro _ | with_reducible apply kept_ite | with_reducible apply kept_forAll | with_reducible apply kept_foldl | with_reducible apply kept_when | with_reducible apply kept_foldl_fst | with_reducible apply kept_ite_fst | with_reducible apply kept_ite_snd | with_reducible apply Dev.setTile_kept | with_reducible apply Dev.queueJob_kept | (simp only [kept_mk, keptMem_dev]; done) | split | (simp only [kept_mk, keptMem_dev])

@[simp] theorem Dev.sweepJob_kept (o : Keep) (a0 : Dev) (a1) (a2) (h0 : Kept o a0) : Kept o (@Dev.sweepJob a0 a1 a2) := by
  unfold Dev.sweepJob
  repeat' first | assumption | intro _ | with_reducible apply kept_ite | with_reducible apply kept_forAll | with_reducible apply kept_foldl | with_reducible apply kept_when | with_reducible apply kept_foldl_fst | with_reducible apply kept_ite_fst | with_reducible apply kept_ite_snd | with_reducible apply Dev.queueJob_kept | with_reducible apply Dev.addCand_kept | (simp only [kept_mk, keptMem_dev]; done) | split | (simp only [kept_mk, keptMem_dev])

@[simp] theorem Dev.sweepVisit_kept (o : Keep) (a0 : Dev) (a1) (a2) (h0 : Kept o a0) : Kept o (@Dev.sweepVisit a0 a1 a2) := by
  simp (maxDischargeDepth := 20) +contextual [Dev.sweepVisit, *]

@[simp] theorem Dev.passStart_kept (o : Keep) (a0 : Dev) (a1) (h0 : Kept o a0) : Kept o (@Dev.passStart a0 a1) := by
  simp +contextual [Dev.passStart, *]

@[simp] theorem Dev.sweepOne_kept (o : Keep) (a0 : Dev) (a1) (h0 : Kept o a0) : Kept o (@Dev.sweepOne a0 a1) := by
  unfold Dev.sweepOne
  repeat' first | assumption | intro _ | with_reducible apply kept_ite | with_reducible apply kept_forAll | with_reducible apply kept_foldl | with_reducible apply kept_when | with_reducible apply kept_foldl_fst | with_reducible apply kept_ite_fst | with_reducible apply kept_ite_snd | with_reducible apply Dev.setTile_kept | with_reducible apply Dev.sweepVisit_kept | with_reducible apply Dev.passStart_kept | (simp only [kept_mk, keptMem_dev]; done) | split | (simp only [kept_mk, keptMem_dev])

@[simp] theorem Dev.sweepStep_kept (o : Keep) (a0 : Dev) (a1) (h0 : Kept o a0) : Kept o (@Dev.sweepStep a0 a1) := by
  unfold Dev.sweepStep
  repeat' first | assumption | intro _ | with_reducible apply kept_ite | with_reducible apply kept_forAll | with_reducible apply kept_foldl | with_reducible apply kept_when | with_reducible apply kept_foldl_fst | with_reducible apply kept_ite_fst | with_reducible apply kept_ite_snd | with_reducible apply forAll_kept | with_reducible apply Dev.setTile_kept | with_reducible apply Dev.sweepOne_kept | (simp only [kept_mk, keptMem_dev]; done) | split | (simp only [kept_mk, keptMem_dev])

@[simp] theorem Dev.abortEvacs_kept (o : Keep) (a0 : Dev) (a1) (a2) (h0 : Kept o a0) : Kept o (@Dev.abortEvacs a0 a1 a2) := by
  simp (maxDischargeDepth := 20) +contextual [Dev.abortEvacs, *]

@[simp] theorem Dev.retireBack_kept (o : Keep) (a0 : Dev) (a1) (a2) (h0 : Kept o a0) : Kept o (@Dev.retireBack a0 a1 a2) := by
  unfold Dev.retireBack
  repeat' first | assumption | intro _ | with_reducible apply kept_ite | with_reducible apply kept_forAll | with_reducible apply kept_foldl | with_reducible apply kept_when | with_reducible apply kept_foldl_fst | with_reducible apply kept_ite_fst | with_reducible apply kept_ite_snd | with_reducible apply Dev.setTile_kept | with_reducible apply Dev.setRank_kept | (simp only [kept_mk, keptMem_dev]; done) | split | (simp only [kept_mk, keptMem_dev])

@[simp] theorem Dev.pumpStop_kept (o : Keep) (a0 : Dev) (a1) (h0 : Kept o a0) : Kept o (@Dev.pumpStop a0 a1) := by
  simp (maxDischargeDepth := 20) +contextual [Dev.pumpStop, *]

@[simp] theorem Dev.verifyFail_kept (o : Keep) (a0 : Dev) (a1) (h0 : Kept o a0) : Kept o (@Dev.verifyFail a0 a1) := by
  simp (maxDischargeDepth := 20) +contextual [Dev.verifyFail, *]

@[simp] theorem Dev.pumpAbort_kept (o : Keep) (a0 : Dev) (a1) (a2) (h0 : Kept o a0) : Kept o (@Dev.pumpAbort a0 a1 a2) := by
  simp (maxDischargeDepth := 20) +contextual [Dev.pumpAbort, *]

@[simp] theorem Dev.writeFrame_kept (o : Keep) (a0 : Dev) (a1) (a2) (a3) (h0 : Kept o a0) : Kept o (@Dev.writeFrame a0 a1 a2 a3) := by
  simp (maxDischargeDepth := 20) +contextual [Dev.writeFrame, *]

@[simp] theorem Dev.writeUnits_kept (o : Keep) (a0 : Dev) (a1) (a2) (a3) (a4) (h0 : Kept o a0) : Kept o (@Dev.writeUnits a0 a1 a2 a3 a4) := by
  simp (maxDischargeDepth := 20) +contextual [Dev.writeUnits, *]

@[simp] theorem Dev.copyStored_kept (o : Keep) (a0 : Dev) (a1) (a2) (a3) (h0 : Kept o a0) : Kept o (@Dev.copyStored a0 a1 a2 a3) := by
  simp (maxDischargeDepth := 20) +contextual [Dev.copyStored, *]

@[simp] theorem Dev.examineAbort_kept (o : Keep) (a0 : Dev) (a1) (h0 : Kept o a0) : Kept o (@Dev.examineAbort a0 a1) := by
  simp (maxDischargeDepth := 20) +contextual [Dev.examineAbort, *]

@[simp] theorem Dev.haltDisposal_kept (o : Keep) (a0 : Dev) (a1) (h0 : Kept o a0) : Kept o (@Dev.haltDisposal a0 a1) := by
  unfold Dev.haltDisposal
  repeat' first | assumption | intro _ | with_reducible apply kept_ite | with_reducible apply kept_forAll | with_reducible apply kept_foldl | with_reducible apply kept_when | with_reducible apply kept_foldl_fst | with_reducible apply kept_ite_fst | with_reducible apply kept_ite_snd | with_reducible apply Dev.discardHalted_kept | with_reducible apply Dev.setFrame_kept | with_reducible apply Dev.setRank_kept | with_reducible apply Dev.poisonGran_kept | with_reducible apply Dev.losePage_kept | with_reducible apply forAll_kept | with_reducible apply Dev.queueJob_kept | (simp only [kept_mk, keptMem_dev]; done) | split | (simp only [kept_mk, keptMem_dev])

@[simp] theorem Dev.jobReady_kept (o : Keep) (a0 : Dev) (a1) (a2) (h0 : Kept o a0) : Kept o (@Dev.jobReady a0 a1 a2) := by
  simp (maxDischargeDepth := 20) +contextual [Dev.jobReady, *]

@[simp] theorem Dev.dropPages_kept (o : Keep) (a0 : Dev) (a1) (a2) (a3) (h0 : Kept o a0) : Kept o (@Dev.dropPages a0 a1 a2 a3) := by
  simp (maxDischargeDepth := 20) +contextual [Dev.dropPages, *]

@[simp] theorem Dev.bookSlotRetireEnd_kept (o : Keep) (a0 : Dev) (a1) (h0 : Kept o a0) : Kept o (@Dev.bookSlotRetireEnd a0 a1) := by
  simp (maxDischargeDepth := 20) +contextual [Dev.bookSlotRetireEnd, *]

@[simp] theorem Dev.commitMeta_kept (o : Keep) (a0 : Dev) (a1) (a2) (h0 : Kept o a0) : Kept o (@Dev.commitMeta a0 a1 a2) := by
  unfold Dev.commitMeta
  repeat' first | assumption | intro _ | with_reducible apply kept_ite | with_reducible apply kept_forAll | with_reducible apply kept_foldl | with_reducible apply kept_when | with_reducible apply kept_foldl_fst | with_reducible apply kept_ite_fst | with_reducible apply kept_ite_snd | with_reducible apply forAll_kept | with_reducible apply Dev.freeFrame_kept | (simp only [kept_mk, keptMem_dev]; done) | split | (simp only [kept_mk, keptMem_dev])

@[simp] theorem Dev.pumpHint_kept (o : Keep) (a0 : Dev) (a1) (h0 : Kept o a0) : Kept o (@Dev.pumpHint a0 a1) := by
  simp +contextual only [Dev.pumpHint]
  (repeat' split) <;> simp (maxDischargeDepth := 20) +contextual [*]

@[simp] theorem Dev.commitOne_kept (o : Keep) (a0 : Dev) (a1) (a2) (a3) (h0 : Kept o a0) : Kept o (@Dev.commitOne a0 a1 a2 a3).1 := by
  unfold Dev.commitOne
  repeat' first | assumption | intro _ | with_reducible apply kept_ite | with_reducible apply kept_forAll | with_reducible apply kept_foldl | with_reducible apply kept_when | with_reducible apply kept_foldl_fst | with_reducible apply kept_ite_fst | with_reducible apply kept_ite_snd | with_reducible apply Dev.restorePage_kept | with_reducible apply Dev.freeDest_kept | with_reducible apply Dev.queueFirst_kept | with_reducible apply Dev.setEntry_kept | with_reducible apply Dev.cleanPage_kept | with_reducible apply Dev.releaseStorage_kept | with_reducible apply Dev.setFrame_kept | with_reducible apply Dev.setRank_kept | with_reducible apply Dev.sendPageFree_kept | with_reducible apply Dev.dropPage_kept | with_reducible apply Dev.pumpHint_kept | with_reducible apply Dev.setTile_kept | (simp only [kept_mk, keptMem_dev]; done) | split | (simp only [kept_mk, keptMem_dev])

@[simp] theorem Dev.commitPhase_kept (o : Keep) (a0 : Dev) (a1) (h0 : Kept o a0) : Kept o (@Dev.commitPhase a0 a1) := by
  unfold Dev.commitPhase
  repeat' first | assumption | intro _ | with_reducible apply kept_ite | with_reducible apply kept_forAll | with_reducible apply kept_foldl | with_reducible apply kept_when | with_reducible apply kept_foldl_fst | with_reducible apply kept_ite_fst | with_reducible apply kept_ite_snd | with_reducible apply Dev.endJob_kept | with_reducible apply Dev.commitMeta_kept | with_reducible apply Dev.setPump_kept | with_reducible apply Dev.commitOne_kept | with_reducible apply Dev.trimRun_kept | (simp only [kept_mk, keptMem_dev]; done) | split | (simp only [kept_mk, keptMem_dev])

@[simp] theorem Dev.pumpCut_kept (o : Keep) (a0 : Dev) (a1) (h0 : Kept o a0) : Kept o (@Dev.pumpCut a0 a1) := by
  simp (maxDischargeDepth := 20) +contextual [Dev.pumpCut, *]

@[simp] theorem Dev.blockEvac_kept (o : Keep) (a0 : Dev) (a1) (a2) (h0 : Kept o a0) : Kept o (@Dev.blockEvac a0 a1 a2) := by
  simp (maxDischargeDepth := 20) +contextual [Dev.blockEvac, *]

@[simp] theorem Dev.setMoving_kept (o : Keep) (a0 : Dev) (a1) (a2) (h0 : Kept o a0) : Kept o (@Dev.setMoving a0 a1 a2) := by
  simp (maxDischargeDepth := 20) +contextual [Dev.setMoving, *]

@[simp] theorem Dev.decodeError_kept (o : Keep) (a0 : Dev) (a1) (a2) (a3) (h0 : Kept o a0) : Kept o (@Dev.decodeError a0 a1 a2 a3) := by
  simp (maxDischargeDepth := 20) +contextual [Dev.decodeError, *]

@[simp] theorem Dev.storeT3_kept (o : Keep) (a0 : Dev) (a1) (a2) (a3) (a4) (a5) (a6) (h0 : Kept o a0) : Kept o (@Dev.storeT3 a0 a1 a2 a3 a4 a5 a6).1 := by
  unfold Dev.storeT3
  repeat' first | assumption | intro _ | with_reducible apply kept_ite | with_reducible apply kept_forAll | with_reducible apply kept_foldl | with_reducible apply kept_when | with_reducible apply kept_foldl_fst | with_reducible apply kept_ite_fst | with_reducible apply kept_ite_snd | with_reducible apply forAll_kept | with_reducible apply Dev.verifyFail_kept | with_reducible apply Dev.writeUnits_kept | (simp only [kept_mk, keptMem_dev]; done) | split | (simp only [kept_mk, keptMem_dev])

@[simp] theorem Dev.sendPage_kept (o : Keep) (a0 : Dev) (a1) (a2) (a3) (a4) (h0 : Kept o a0) : Kept o (@Dev.sendPage a0 a1 a2 a3 a4) := by
  simp (maxDischargeDepth := 20) +contextual [Dev.sendPage, *]

@[simp] theorem Dev.storeT2_kept (o : Keep) (a0 : Dev) (a1) (a2) (a3) (a4) (a5) (a6) (h0 : Kept o a0) : Kept o (@Dev.storeT2 a0 a1 a2 a3 a4 a5 a6).1 := by
  unfold Dev.storeT2
  repeat' first | assumption | intro _ | with_reducible apply kept_ite | with_reducible apply kept_forAll | with_reducible apply kept_foldl | with_reducible apply kept_when | with_reducible apply kept_foldl_fst | with_reducible apply kept_ite_fst | with_reducible apply kept_ite_snd | with_reducible apply Dev.writeFrame_kept | with_reducible apply Dev.verifyFail_kept | with_reducible apply Dev.writeUnits_kept | (with_reducible refine Dev.allocFrame_kept _ _ _ ?_ _ (by assumption))| (with_reducible refine Dev.allocFrame_kept _ _ _ _ ?_ _ (by assumption))| (with_reducible refine Dev.allocFrame_kept _ _ _ _ _ ?_ _ (by assumption))| (with_reducible refine Dev.allocFrame_kept _ _ _ _ _ _ ?_ _ (by assumption)) | (with_reducible refine Dev.allocSlots_kept _ _ _ ?_ _ (by assumption))| (with_reducible refine Dev.allocSlots_kept _ _ _ _ ?_ _ (by assumption))| (with_reducible refine Dev.allocSlots_kept _ _ _ _ _ ?_ _ (by assumption))| (with_reducible refine Dev.allocSlots_kept _ _ _ _ _ _ ?_ _ (by assumption)) | (simp only [kept_mk, keptMem_dev]; done) | split | (simp only [kept_mk, keptMem_dev])

@[simp] theorem Dev.storeAll_kept (o : Keep) (a0 : Dev) (a1) (a2) (a3) (h0 : Kept o a0) : Kept o (@Dev.storeAll a0 a1 a2 a3).1 := by
  unfold Dev.storeAll
  repeat' first | assumption | intro _ | with_reducible apply kept_ite | with_reducible apply kept_forAll | with_reducible apply kept_foldl | with_reducible apply kept_when | with_reducible apply kept_foldl_fst | with_reducible apply kept_ite_fst | with_reducible apply kept_ite_snd | with_reducible apply Dev.storeT2_kept | (simp only [kept_mk, keptMem_dev]; done) | split | (simp only [kept_mk, keptMem_dev])

@[simp] theorem Dev.finishJob_kept (o : Keep) (a0 : Dev) (a1) (a2) (h0 : Kept o a0) : Kept o (@Dev.finishJob a0 a1 a2) := by
  simp +contextual only [Dev.finishJob]
  (repeat' split) <;> simp (maxDischargeDepth := 20) +contextual [*]

@[simp] theorem Dev.fenceAbandon_kept (o : Keep) (a0 : Dev) (a1) (h0 : Kept o a0) : Kept o (@Dev.fenceAbandon a0 a1) := by
  unfold Dev.fenceAbandon
  repeat' first | assumption | intro _ | with_reducible apply kept_ite | with_reducible apply kept_forAll | with_reducible apply kept_foldl | with_reducible apply kept_when | with_reducible apply kept_foldl_fst | with_reducible apply kept_ite_fst | with_reducible apply kept_ite_snd | with_reducible apply Dev.setTile_kept | with_reducible apply Dev.rollBack_kept | with_reducible apply Dev.dropPages_kept | with_reducible apply forAll_kept | with_reducible apply Dev.raise_kept | (simp only [kept_mk, keptMem_dev]; done) | split | (simp only [kept_mk, keptMem_dev])

@[simp] theorem Dev.oweDecay_kept (o : Keep) (a0 : Dev) (h0 : Kept o a0) : Kept o (@Dev.oweDecay a0) := by
  unfold Dev.oweDecay
  repeat' first | assumption | intro _ | with_reducible apply kept_ite | with_reducible apply kept_forAll | with_reducible apply kept_foldl | with_reducible apply kept_when | with_reducible apply kept_foldl_fst | with_reducible apply kept_ite_fst | with_reducible apply kept_ite_snd  | (simp only [kept_mk, keptMem_dev]; done) | split | (simp only [kept_mk, keptMem_dev])

@[simp] theorem Dev.sweepStale_kept (o : Keep) (a0 : Dev) (a1) (h0 : Kept o a0) : Kept o (@Dev.sweepStale a0 a1) := by
  simp (maxDischargeDepth := 20) +contextual [Dev.sweepStale, *]

@[simp] theorem Dev.pumpResume_kept (o : Keep) (a0 : Dev) (a1) (a2) (h0 : Kept o a0) : Kept o (@Dev.pumpResume a0 a1 a2) := by
  simp (maxDischargeDepth := 20) +contextual [Dev.pumpResume, *]

@[simp] theorem Dev.heatDecayPass_kept (o : Keep) (a0 : Dev) (a1) (h0 : Kept o a0) : Kept o (@Dev.heatDecayPass a0 a1) := by
  unfold Dev.heatDecayPass
  repeat' first | assumption | intro _ | with_reducible apply kept_ite | with_reducible apply kept_forAll | with_reducible apply kept_foldl | with_reducible apply kept_when | with_reducible apply kept_foldl_fst | with_reducible apply kept_ite_fst | with_reducible apply kept_ite_snd | with_reducible apply forAll_kept | with_reducible apply Dev.setEntry_kept | (simp only [kept_mk, keptMem_dev]; done) | split | (simp only [kept_mk, keptMem_dev])

@[simp] theorem Dev.fencePage_kept (o : Keep) (a0 : Dev) (a1) (h0 : Kept o a0) : Kept o (@Dev.fencePage a0 a1) :=
  kept_forAll _ _ _ _ h0 fun _ _ hd => kept_ite _ _ _ _ hd (Dev.backInvalidate_kept _ _ _ _ hd)

@[simp] theorem Dev.launch_kept (o : Keep) (a0 : Dev) (a1) (a2) (h0 : Kept o a0) : Kept o (@Dev.launch a0 a1 a2) := by
  unfold Dev.launch
  refine kept_ite _ _ _ _ (kept_forAll _ _ _ _ ?_ fun _ _ hd => Dev.fencePage_kept _ _ _ hd) ?_ <;>
    exact Dev.setPump_kept _ _ _ _ (kept_ite _ _ _ _ (Dev.setEnc_kept _ _ _ _ (kept_forAll _ _ _ _ (kept_forAll _ _ _ _ h0 fun _ _ hd => Dev.setMoving_kept _ _ _ _ hd) fun _ _ hd => Dev.setTile_kept _ _ _ _ hd)) (kept_forAll _ _ _ _ (kept_forAll _ _ _ _ h0 fun _ _ hd => Dev.setMoving_kept _ _ _ _ hd) fun _ _ hd => Dev.setTile_kept _ _ _ _ hd))

@[simp] theorem Dev.startMeta_kept (o : Keep) (a0 : Dev) (a1) (a2) (h0 : Kept o a0) : Kept o (@Dev.startMeta a0 a1 a2) := by
  simp +contextual only [Dev.startMeta]
  (repeat' split) <;> simp (maxDischargeDepth := 20) +contextual [*]

@[simp] theorem Dev.startBuild_kept (o : Keep) (a0 : Dev) (a1) (a2) (h0 : Kept o a0) : Kept o (@Dev.startBuild a0 a1 a2) := by
  simp +contextual only [Dev.startBuild]
  (repeat' split) <;> simp (maxDischargeDepth := 20) +contextual [*]

@[simp] theorem Dev.pumpRun_kept (o : Keep) (a0 : Dev) (a1) (h0 : Kept o a0) : Kept o (@Dev.pumpRun a0 a1) := by
  unfold Dev.pumpRun
  repeat' first | assumption | intro _ | with_reducible apply kept_ite | with_reducible apply kept_forAll | with_reducible apply kept_foldl | with_reducible apply kept_when | with_reducible apply kept_foldl_fst | with_reducible apply kept_ite_fst | with_reducible apply kept_ite_snd | with_reducible apply forAll_kept | with_reducible apply Dev.setPump_kept | with_reducible apply Dev.fencePage_kept | with_reducible apply Dev.haltPump_kept | with_reducible apply Dev.decodeError_kept | with_reducible apply Dev.setEnc_kept | with_reducible apply Dev.finishJob_kept | (simp only [kept_mk, keptMem_dev]; done) | split | (simp only [kept_mk, keptMem_dev])

@[simp] theorem Dev.fenceTick_kept (o : Keep) (a0 : Dev) (a1) (h0 : Kept o a0) : Kept o (@Dev.fenceTick a0 a1) := by
  unfold Dev.fenceTick
  repeat' first | assumption | intro _ | with_reducible apply kept_ite | with_reducible apply kept_forAll | with_reducible apply kept_foldl | with_reducible apply kept_when | with_reducible apply kept_foldl_fst | with_reducible apply kept_ite_fst | with_reducible apply kept_ite_snd | with_reducible apply Dev.fenceAbandon_kept | with_reducible apply forAll_kept | with_reducible apply Dev.setPump_kept | with_reducible apply Dev.fencePage_kept | (simp only [kept_mk, keptMem_dev]; done) | split | (simp only [kept_mk, keptMem_dev])

@[simp] theorem Dev.decoderAvailable_kept (o : Keep) (a0 : Dev) (a1) (a2) (h0 : Kept o a0) : Kept o (@Dev.decoderAvailable a0 a1 a2) := by
  unfold Dev.decoderAvailable
  repeat' first | assumption | intro _ | with_reducible apply kept_ite | with_reducible apply kept_forAll | with_reducible apply kept_foldl | with_reducible apply kept_when | with_reducible apply kept_foldl_fst | with_reducible apply kept_ite_fst | with_reducible apply kept_ite_snd | with_reducible apply Dev.pumpRun_kept | with_reducible apply Dev.setPump_kept | (simp only [kept_mk, keptMem_dev]; done) | split | (simp only [kept_mk, keptMem_dev])

@[simp] theorem Dev.fenceComplete_kept (o : Keep) (a0 : Dev) (a1) (h0 : Kept o a0) : Kept o (@Dev.fenceComplete a0 a1) := by
  unfold Dev.fenceComplete
  repeat' first | assumption | intro _ | with_reducible apply kept_ite | with_reducible apply kept_forAll | with_reducible apply kept_foldl | with_reducible apply kept_when | with_reducible apply kept_foldl_fst | with_reducible apply kept_ite_fst | with_reducible apply kept_ite_snd | with_reducible apply forAll_kept | with_reducible apply Dev.fencePage_kept | with_reducible apply Dev.pumpRun_kept | with_reducible apply Dev.setPump_kept | (simp only [kept_mk, keptMem_dev]; done) | split | (simp only [kept_mk, keptMem_dev])

@[simp] theorem Dev.startCopy_kept (o : Keep) (a0 : Dev) (a1) (a2) (a3) (a4) (h0 : Kept o a0) : Kept o (@Dev.startCopy a0 a1 a2 a3 a4) := by
  unfold Dev.startCopy
  extract_lets evac k stop got pages
  have hs : ∀ d, Kept o d → Kept o (stop d) := fun d hd => kept_ite _ _ _ _ (Dev.blockEvac_kept _ _ _ _ hd) hd
  clear_value stop
  split
  · exact hs _ h0
  · refine kept_ite _ _ _ _ ?_ (kept_ite _ _ _ _ ?_ ?_)
    · split
      · exact hs _ h0
      · simp (maxDischargeDepth := 20) +contextual [*]
    · have hg : ∀ e, got = some e → Kept o e.2 := by
        intro e he
        simp only [got] at he
        split at he
        · split at he
          · simp only [Option.some.injEq] at he
            subst he
            simp (maxDischargeDepth := 20) +contextual [*]
          · simp only [Option.map_eq_some_iff] at he
            obtain ⟨x, hx, rfl⟩ := he
            split
            · exact Dev.takeSlots_kept _ _ _ _ h0
            · exact Dev.setFrame_kept _ _ _ _ _ (Dev.bumpFree_kept _ _ h0)
        · exact Dev.allocSlots_kept _ _ _ _ _ h0 _ he
      clear_value got
      split
      · exact hs _ h0
      · rename_i s d
        exact Dev.launch_kept _ _ _ _ (hg (s, d) rfl)
    · refine kept_ite _ _ _ _ ?_ (hs _ h0)
      split
      · exact hs _ h0
      · exact Dev.launch_kept _ _ _ _ (Dev.takeSegment_kept _ _ _ _ _ (Dev.bumpFree_kept _ _ h0))

@[simp] theorem Dev.startJob_kept (o : Keep) (a0 : Dev) (a1) (a2) (h0 : Kept o a0) : Kept o (@Dev.startJob a0 a1 a2) := by
  unfold Dev.startJob
  extract_lets page e clean
  refine kept_ite _ _ _ _ (kept_ite _ _ _ _ (Dev.startMeta_kept _ _ _ _ h0) h0) (kept_ite _ _ _ _ h0 ?_)
  split
  · exact h0
  · split
    · refine kept_ite _ _ _ _ ?_ h0
      split
      · rename_i h
        exact Dev.launch_kept _ _ _ _ (Dev.allocFrame_kept _ _ _ _ _ _ h0 _ h)
      · exact h0
    · refine kept_ite _ _ _ _ ?_ h0
      split
      · rename_i f d _ h
        exact Dev.send_kept _ _ _ _ (Dev.launch_kept _ _ _ _ (Dev.newTag_kept _ _ (Dev.allocFrame_kept _ _ _ _ _ _ h0 _ h)))
      · exact h0
    · exact kept_ite _ _ _ _ (Dev.launch_kept _ _ _ _ h0) h0
    · exact kept_ite _ _ _ _ (Dev.startBuild_kept _ _ _ _ h0) h0
    · split
      · exact kept_ite _ _ _ _ (Dev.launch_kept _ _ _ _ h0) h0
      · exact h0
    · exact kept_ite _ _ _ _ (Dev.launch_kept _ _ _ _ h0) h0
    · exact kept_ite _ _ _ _ (Dev.startCopy_kept _ _ _ _ _ _ h0) h0
    · refine kept_ite _ _ _ _ h0 (kept_ite _ _ _ _ (Dev.launch_kept _ _ _ _ h0) (kept_ite _ _ _ _ ?_ h0))
      extract_lets pages
      refine kept_ite _ _ _ _ ?_ h0
      split
      · exact h0
      · exact Dev.launch_kept _ _ _ _ (Dev.takeSegment_kept _ _ _ _ _ (Dev.bumpFree_kept _ _ h0))
    · exact kept_ite _ _ _ _ h0 (kept_ite _ _ _ _ (Dev.setEntry_kept _ _ _ _ h0) (Dev.startCopy_kept _ _ _ _ _ _ h0))
    · exact h0

@[simp] theorem Dev.urgentEvac_kept (o : Keep) (a0 : Dev) (a1) (h0 : Kept o a0) : Kept o (@Dev.urgentEvac a0 a1) := by
  unfold Dev.urgentEvac
  split
  · refine kept_ite _ _ _ _ ?_ h0
    split
    · exact h0
    · extract_lets x d1 d2 d3
      have h3 : Kept o d3 := Dev.startJob_kept _ _ _ _ (Dev.setPump_kept _ _ _ _ (Dev.pumpCut_kept _ _ _ (Dev.setTile_kept _ _ _ _ h0)))
      exact kept_ite _ _ _ _ h0 (kept_ite _ _ _ _ (Dev.pumpRun_kept _ _ _ h3) (Dev.setPump_kept _ _ _ _ h3))
  · exact h0

@[simp] theorem Dev.pumpsStep6_kept (o : Keep) (a0 : Dev) (a1) (h0 : Kept o a0) : Kept o (@Dev.pumpsStep6 a0 a1) := by
  simp (maxDischargeDepth := 20) +contextual [Dev.pumpsStep6, *]

@[simp] theorem Dev.takeJob_kept (o : Keep) (a0 : Dev) (a1) (a2) (h0 : Kept o a0) : Kept o (@Dev.takeJob a0 a1 a2) := by
  induction a2 generalizing a0 with
  | zero => exact h0
  | succ n ih =>
    unfold Dev.takeJob
    split
    · exact h0
    · have h := Dev.startJob_kept o _ a1 ‹_› (Dev.setTile_kept o a0 (a1 / 8) (fun t => { t with queue := t.queue.erase ‹_› }) h0)
      exact kept_ite _ _ _ _ (Dev.pumpRun_kept _ _ _ h) (ih _ h)

@[simp] theorem Dev.pumpJobStart_kept (o : Keep) (a0 : Dev) (a1) (h0 : Kept o a0) : Kept o (@Dev.pumpJobStart a0 a1) := by
  simp (maxDischargeDepth := 20) +contextual [Dev.pumpJobStart, *]

end Sys2Proof.Machine
end

