-- ==== Sys2Proof/Laws/KeptConfig.lean ====
section
/-! SUPPORT. That images, activation, the transaction and the pool keep both byte memories in canonical form and change the OTP only as it may be burnt: one lemma for each
operation that answers a device. -/

namespace Sys2Proof.Machine

open Sys2Proof

set_option linter.unreachableTactic false
set_option linter.unusedTactic false
set_option linter.unusedSimpArgs false

@[simp] theorem Dev.setSlotState_kept (o : Keep) (a0 : Dev) (a1) (a2) (h0 : Kept o a0) : Kept o (@Dev.setSlotState a0 a1 a2) := by
  unfold Dev.setSlotState
  (repeat' split) <;> simp +contextual [*]

theorem Dev.placeRun_kept (o : Keep) (a0 : Dev) (a1) (a2) (a3) (h0 : Kept o a0) : ∀ e, (@Dev.placeRun a0 a1 a2 a3) = some e → Kept o e.2 := by
  intro e he
  unfold Dev.placeRun at he
  extract_lets cs at he
  split at he
  · simp at he
  · split at he
    · simp at he
    · rename_i f _
      extract_lets d1 p m at he
      have h1 : Kept o d1 := by simp (maxDischargeDepth := 20) +contextual [d1, *]
      clear_value d1 m
      cases m with
      | none => 
        simp only at he
        split at he
        · simp at he
        · simp only [Option.some.injEq] at he
          subst he; exact h1
      | some g =>
        simp only [Option.some.injEq] at he
        subst he
        simp (maxDischargeDepth := 20) +contextual [*]

theorem Dev.placeRuns_kept (o : Keep) (a0 : Dev) (a1) (a2) (a3) (h0 : Kept o a0) : ∀ e, (@Dev.placeRuns a0 a1 a2 a3) = some e → Kept o e.2 := by
  induction a2 generalizing a0 a3 with
  | zero => intro e he; simp only [Dev.placeRuns, Option.some.injEq] at he; subst he; exact h0
  | succ n ih =>
    intro e he
    simp only [Dev.placeRuns] at he
    split at he
    · simp at he
    · rename_i h
      exact ih _ _ (Dev.placeRun_kept _ _ _ _ _ h0 _ h) e he

theorem Dev.reserveTile_kept (o : Keep) (a0 : Dev) (a1) (a2) (h0 : Kept o a0) : ∀ e, (@Dev.reserveTile a0 a1 a2) = some e → Kept o e.2 :=
  Dev.placeRuns_kept _ _ _ _ _ h0

theorem Dev.reserveRuns_kept (o : Keep) (a0 : Dev) (a1) (h0 : Kept o a0) : ∀ e, (@Dev.reserveRuns a0 a1) = some e → Kept o e.2 := by
  unfold Dev.reserveRuns
  have key : ∀ (ks : List Nat) (acc : Option (List MetaRun × Dev)), (∀ x, acc = some x → Kept o x.2) → ∀ e, ks.foldl (fun (acc : Option (List MetaRun × Dev)) k =>
    match acc with
    | none => none
    | some (ms, d) => match d.reserveTile k a1 with
      | none => none
      | some (xs, d) => some (ms ++ xs, d)) acc = some e → Kept o e.2 := by
    intro ks
    induction ks with
    | nil => intro acc h e he; exact h e he
    | cons k ks ih =>
      intro acc h e he
      refine ih _ ?_ e he
      intro x hx
      dsimp only at hx
      split at hx
      · simp at hx
      · split at hx
        · simp at hx
        · rename_i h2
          simp only [Option.some.injEq] at hx
          subst hx
          have hk := Dev.reserveTile_kept o _ _ _ (h (_, _) rfl) _ h2; exact hk
  exact key _ _ (by intro x hx; simp only [Option.some.injEq] at hx; subst hx; exact h0)

@[simp] theorem Dev.freeRuns_kept (o : Keep) (a0 : Dev) (a1) (h0 : Kept o a0) : Kept o (@Dev.freeRuns a0 a1) := by
  unfold Dev.freeRuns
  repeat' first | assumption | intro _ | with_reducible apply kept_ite | with_reducible apply kept_forAll | with_reducible apply kept_foldl | with_reducible apply kept_when | with_reducible apply kept_foldl_fst | with_reducible apply kept_ite_fst | with_reducible apply kept_ite_snd | with_reducible apply forAll_kept | with_reducible apply Dev.freeRun_kept | (simp only [kept_mk, keptMem_dev]; done) | split | (simp only [kept_mk, keptMem_dev])

@[simp] theorem Dev.noteSlot_kept (o : Keep) (a0 : Dev) (a1) (a2) (h0 : Kept o a0) : Kept o (@Dev.noteSlot a0 a1 a2) := by
  simp (maxDischargeDepth := 20) +contextual [Dev.noteSlot, *]

@[simp] theorem Dev.skips_kept (o : Keep) (a0 : Dev) (a1) (h0 : Kept o a0) : Kept o (@Dev.skips a0 a1) := by
  simp (maxDischargeDepth := 20) +contextual [Dev.skips, *]

@[simp] theorem Dev.checkSlot_kept (o : Keep) (a0 : Dev) (a1) (h0 : Kept o a0) : Kept o (@Dev.checkSlot a0 a1).1 := by
  simp (maxDischargeDepth := 20) +contextual [Dev.checkSlot, *]

@[simp] theorem Dev.selectFrom_kept (o : Keep) (a0 : Dev) (a1) (h0 : Kept o a0) : Kept o (@Dev.selectFrom a0 a1).1 := by
  induction a1 generalizing a0 with
  | nil => exact h0
  | cons x xs ih =>
    obtain ⟨v, n⟩ := x
    unfold Dev.selectFrom
    have hc := Dev.checkSlot_kept o a0 n h0
    split
    rename_i d c h
    rw [h] at hc
    exact kept_ite_fst _ _ _ _ hc (ih _ (Dev.raise_kept _ _ _ _ _ hc))

@[simp] theorem Dev.commitDone_kept (o : Keep) (a0 : Dev) (a1) (h0 : Kept o a0) : Kept o (@Dev.commitDone a0 a1) := by
  unfold Dev.commitDone
  (repeat' split) <;> simp +contextual [*]

@[simp] theorem Dev.activateBooks_kept (o : Keep) (a0 : Dev) (a1) (h0 : Kept o a0) : Kept o (@Dev.activateBooks a0 a1) := by
  simp (maxDischargeDepth := 20) +contextual [Dev.activateBooks, *]

@[simp] theorem Dev.releaseHosting_kept (o : Keep) (a0 : Dev) (a1) (h0 : Kept o a0) : Kept o (@Dev.releaseHosting a0 a1) := by
  simp (maxDischargeDepth := 20) +contextual [Dev.releaseHosting, *]

@[simp] theorem Dev.portsChanged_kept (o : Keep) (a0 : Dev) (a1) (h0 : Kept o a0) : Kept o (@Dev.portsChanged a0 a1) := by
  unfold Dev.portsChanged
  repeat' first | assumption | intro _ | split | with_reducible apply kept_forAll | with_reducible apply kept_foldl | with_reducible apply kept_when | with_reducible apply kept_foldl_fst | with_reducible apply kept_ite | with_reducible apply kept_ite_fst | with_reducible apply forAll_kept | with_reducible apply Dev.setPort_kept | (simp only [kept_mk, keptMem_dev])

@[simp] theorem Dev.routesChanged_kept (o : Keep) (a0 : Dev) (a1) (h0 : Kept o a0) : Kept o (@Dev.routesChanged a0 a1) := by
  unfold Dev.routesChanged
  repeat' first | assumption | intro _ | split | with_reducible apply kept_forAll | with_reducible apply kept_foldl | with_reducible apply kept_when | with_reducible apply kept_foldl_fst | with_reducible apply kept_ite | with_reducible apply kept_ite_fst | with_reducible apply forAll_kept | with_reducible apply Dev.setRoute_kept | (simp only [kept_mk, keptMem_dev])

@[simp] theorem Dev.putRegs_kept (o : Keep) (a0 : Dev) (a1) (h0 : Kept o a0) : Kept o (@Dev.putRegs a0 a1) := by
  unfold Dev.putRegs
  repeat' first | assumption | intro _ | split | with_reducible apply kept_forAll | with_reducible apply kept_foldl | with_reducible apply kept_when | with_reducible apply kept_foldl_fst | with_reducible apply kept_ite | with_reducible apply kept_ite_fst | with_reducible apply Dev.portsChanged_kept | with_reducible apply Dev.routesChanged_kept | (simp only [kept_mk, keptMem_dev])

@[simp] theorem Dev.activateRegs_kept (o : Keep) (a0 : Dev) (a1) (a2) (h0 : Kept o a0) : Kept o (@Dev.activateRegs a0 a1 a2) := by
  unfold Dev.activateRegs
  repeat' first | assumption | intro _ | split | with_reducible apply kept_forAll | with_reducible apply kept_foldl | with_reducible apply kept_when | with_reducible apply kept_foldl_fst | with_reducible apply kept_ite | with_reducible apply kept_ite_fst | with_reducible apply Dev.putRegs_kept | with_reducible apply forAll_kept | with_reducible apply Dev.raise_kept | (simp only [kept_mk, keptMem_dev])

@[simp] theorem Dev.capacityRecord_kept (o : Keep) (a0 : Dev) (a1) (h0 : Kept o a0) : Kept o (@Dev.capacityRecord a0 a1) := by
  simp +contextual [Dev.capacityRecord, *]

@[simp] theorem Dev.activateCapacity_kept (o : Keep) (a0 : Dev) (h0 : Kept o a0) : Kept o (@Dev.activateCapacity a0) := by
  unfold Dev.activateCapacity
  repeat' first | assumption | intro _ | split | with_reducible apply kept_forAll | with_reducible apply kept_foldl | with_reducible apply kept_when | with_reducible apply kept_foldl_fst | with_reducible apply kept_ite | with_reducible apply kept_ite_fst | with_reducible apply forAll_kept | with_reducible apply Dev.capacityRecord_kept | (simp only [kept_mk, keptMem_dev])

@[simp] theorem Dev.syncDom_kept (o : Keep) (a0 : Dev) (a1) (h0 : Kept o a0) : Kept o (@Dev.syncDom a0 a1) := by
  unfold Dev.syncDom
  (repeat' split) <;> simp +contextual [*]

@[simp] theorem Dev.syncDoms_kept (o : Keep) (a0 : Dev) (h0 : Kept o a0) : Kept o (@Dev.syncDoms a0) := by
  simp +contextual [Dev.syncDoms, *]

@[simp] theorem Dev.activateKeys_kept (o : Keep) (a0 : Dev) (a1) (h0 : Kept o a0) : Kept o (@Dev.activateKeys a0 a1) := by
  unfold Dev.activateKeys
  repeat' first | assumption | intro _ | split | with_reducible apply kept_forAll | with_reducible apply kept_foldl | with_reducible apply kept_when | with_reducible apply kept_foldl_fst | with_reducible apply kept_ite | with_reducible apply kept_ite_fst | with_reducible apply forAll_kept | with_reducible apply Dev.setKd_kept | (simp only [kept_mk, keptMem_dev])

@[simp] theorem Dev.activateImage_kept (o : Keep) (a0 : Dev) (a1) (a2) (a3) (h0 : Kept o a0) : Kept o (@Dev.activateImage a0 a1 a2 a3) := by
  unfold Dev.activateImage
  extract_lets old d1 c sc d2 d3
  have h1 : Kept o d1 := by simp (maxDischargeDepth := 20) [d1, *]
  clear_value d1
  have h2 : Kept o d2 := h1
  clear_value d2
  have h3 : Kept o d3 := kept_ite _ _ _ _ h2 (by simp (maxDischargeDepth := 20) [*])
  clear_value d3
  simp (maxDischargeDepth := 20) [*]

@[simp] theorem Dev.overlayReg_kept (o : Keep) (a0 : Dev) (a1) (a2) (h0 : Kept o a0) : Kept o (@Dev.overlayReg a0 a1 a2) := by
  unfold Dev.overlayReg
  repeat' first | assumption | intro _ | split | with_reducible apply kept_forAll | with_reducible apply kept_foldl | with_reducible apply kept_when | with_reducible apply kept_foldl_fst | with_reducible apply kept_ite | with_reducible apply kept_ite_fst | with_reducible apply Dev.putRegs_kept | (simp only [kept_mk, keptMem_dev])

@[simp] theorem Dev.dropBreaking_kept (o : Keep) (a0 : Dev) (a1) (h0 : Kept o a0) : Kept o (@Dev.dropBreaking a0 a1) := by
  unfold Dev.dropBreaking
  repeat' first | assumption | intro _ | with_reducible apply kept_ite | with_reducible apply kept_forAll | with_reducible apply kept_foldl | with_reducible apply kept_when | with_reducible apply kept_foldl_fst | with_reducible apply kept_ite_fst | with_reducible apply kept_ite_snd | with_reducible apply Dev.raise_kept | with_reducible apply Dev.putRegs_kept | (simp only [kept_mk, keptMem_dev]; done) | split | (simp only [kept_mk, keptMem_dev])

@[simp] theorem Dev.activateOverlay_kept (o : Keep) (a0 : Dev) (a1) (h0 : Kept o a0) : Kept o (@Dev.activateOverlay a0 a1) := by
  simp (maxDischargeDepth := 20) +contextual [Dev.activateOverlay, *]

@[simp] theorem Dev.activateTxn_kept (o : Keep) (a0 : Dev) (h0 : Kept o a0) : Kept o (@Dev.activateTxn a0) := by
  unfold Dev.activateTxn
  extract_lets t s c d1
  have h1 : Kept o d1 := h0
  clear_value d1
  apply kept_ite _ _ _ _ h0
  split
  · exact Dev.commitDone_kept _ _ _ (Dev.setSlotState_kept _ _ _ _ (Dev.activateImage_kept _ _ _ _ _ h1))
  · simp (maxDischargeDepth := 20) [*]

@[simp] theorem Dev.revertDone_kept (o : Keep) (a0 : Dev) (h0 : Kept o a0) : Kept o (@Dev.revertDone a0) := by
  unfold Dev.revertDone
  repeat' first | assumption | intro _ | split | with_reducible apply kept_forAll | with_reducible apply kept_foldl | with_reducible apply kept_when | with_reducible apply kept_foldl_fst | with_reducible apply kept_ite | with_reducible apply kept_ite_fst | with_reducible apply Dev.finishBg_kept | (simp only [kept_mk, keptMem_dev])

@[simp] theorem Dev.reconciled_kept (o : Keep) (a0 : Dev) (h0 : Kept o a0) : Kept o (@Dev.reconciled a0) := by
  unfold Dev.reconciled
  repeat' first | assumption | intro _ | with_reducible apply kept_ite | with_reducible apply kept_forAll | with_reducible apply kept_foldl | with_reducible apply kept_when | with_reducible apply kept_foldl_fst | with_reducible apply kept_ite_fst | with_reducible apply kept_ite_snd | with_reducible apply Dev.sendAck_kept | with_reducible apply Dev.raise_kept | (simp only [kept_mk, keptMem_dev]; done) | split | (simp only [kept_mk, keptMem_dev])

@[simp] theorem Dev.activateTo_kept (o : Keep) (a0 : Dev) (h0 : Kept o a0) : Kept o (@Dev.activateTo a0) := by
  unfold Dev.activateTo
  split
  · exact h0
  · extract_lets was c d1 d2 d3
    have h1 : Kept o d1 := h0
    clear_value d1
    have h2 : Kept o d2 := by
      simp only [d2]
      split
      · rename_i h; exact Dev.reserveRuns_kept _ _ _ h1 _ h
      · exact h1
    clear_value d2
    have h3 : Kept o d3 := Dev.setSlotState_kept _ _ _ _ (Dev.activateImage_kept _ _ _ _ _ h2)
    clear_value d3
    simp (maxDischargeDepth := 20) [*]

theorem Dev.queueAct_kept (o : Keep) (a0 : Dev) (a1) (a2) (a3) (h0 : Kept o a0) : ∀ e, (@Dev.queueAct a0 a1 a2 a3) = .ok e → Kept o e := by
  intro e he
  unfold Dev.queueAct at he
  repeat' split at he
  all_goals first | (simp only [reduceCtorEq] at he; done) | skip
  simp only [Except.ok.injEq] at he
  subst he
  exact h0

@[simp] theorem Dev.txnIdle_kept (o : Keep) (a0 : Dev) (h0 : Kept o a0) : Kept o (@Dev.txnIdle a0) := by
  unfold Dev.txnIdle
  repeat' first | assumption | intro _ | with_reducible apply kept_ite | with_reducible apply kept_forAll | with_reducible apply kept_foldl | with_reducible apply kept_when | with_reducible apply kept_foldl_fst | with_reducible apply kept_ite_fst | with_reducible apply kept_ite_snd | with_reducible apply Dev.freeRuns_kept | with_reducible apply Dev.setSlotState_kept | (simp only [kept_mk, keptMem_dev]; done) | split | (simp only [kept_mk, keptMem_dev])

@[simp] theorem Dev.mapBg_kept (o : Keep) (a0 : Dev) (a1) (h0 : Kept o a0) : Kept o (@Dev.mapBg a0 a1) := by
  simp +contextual [Dev.mapBg, *]

@[simp] theorem Dev.primeBays_kept (o : Keep) (a0 : Dev) (h0 : Kept o a0) : Kept o (@Dev.primeBays a0) := by
  simp (maxDischargeDepth := 20) +contextual [Dev.primeBays, *]

@[simp] theorem Dev.primeFrom_kept (o : Keep) (a0 : Dev) (a1) (a2) (a3) (h0 : Kept o a0) : Kept o (@Dev.primeFrom a0 a1 a2 a3) := by
  unfold Dev.primeFrom
  repeat' first | assumption | intro _ | with_reducible apply kept_ite | with_reducible apply kept_forAll | with_reducible apply kept_foldl | with_reducible apply kept_when | with_reducible apply kept_foldl_fst | with_reducible apply kept_ite_fst | with_reducible apply kept_ite_snd | with_reducible apply Dev.primeBays_kept | (with_reducible refine Dev.queueAct_kept _ _ _ ?_ _ (by assumption))| (with_reducible refine Dev.queueAct_kept _ _ _ _ ?_ _ (by assumption))| (with_reducible refine Dev.queueAct_kept _ _ _ _ _ ?_ _ (by assumption))| (with_reducible refine Dev.queueAct_kept _ _ _ _ _ _ ?_ _ (by assumption)) | (simp only [kept_mk, keptMem_dev]; done) | split | (simp only [kept_mk, keptMem_dev])

@[simp] theorem Dev.primeStart_kept (o : Keep) (a0 : Dev) (h0 : Kept o a0) : Kept o (@Dev.primeStart a0) := by
  unfold Dev.primeStart
  extract_lets gs d
  have hd : Kept o d := h0
  clear_value d
  refine kept_ite _ _ _ _ (Dev.raise_kept _ _ _ _ _ hd) (kept_ite _ _ _ _ hd (kept_ite _ _ _ _ (Dev.raise_kept _ _ _ _ _ hd) ?_))
  have hk := Dev.selectFrom_kept o d d.candidates hd
  split
  · rename_i h
    rw [h] at hk
    exact Dev.primeFrom_kept _ _ _ _ _ hk
  · rename_i h
    rw [h] at hk
    exact Dev.raise_kept _ _ _ _ _ hk

@[simp] theorem Dev.primeBegin_kept (o : Keep) (a0 : Dev) (h0 : Kept o a0) : Kept o (@Dev.primeBegin a0) := by
  unfold Dev.primeBegin
  repeat' first | assumption | intro _ | with_reducible apply kept_ite | with_reducible apply kept_forAll | with_reducible apply kept_foldl | with_reducible apply kept_when | with_reducible apply kept_foldl_fst | with_reducible apply kept_ite_fst | with_reducible apply kept_ite_snd | with_reducible apply Dev.primeStart_kept | (simp only [kept_mk, keptMem_dev]; done) | split | (simp only [kept_mk, keptMem_dev])

@[simp] theorem Dev.primeGuest_kept (o : Keep) (a0 : Dev) (h0 : Kept o a0) : Kept o (@Dev.primeGuest a0) := by
  simp (maxDischargeDepth := 20) +contextual [Dev.primeGuest, *]

@[simp] theorem Dev.setTxn_kept (o : Keep) (a0 : Dev) (a1) (h0 : Kept o a0) : Kept o (@Dev.setTxn a0 a1) := by
  simp +contextual [Dev.setTxn, *]

@[simp] theorem Dev.reopen_kept (o : Keep) (a0 : Dev) (h0 : Kept o a0) : Kept o (@Dev.reopen a0) := by
  unfold Dev.reopen
  repeat' first | assumption | intro _ | with_reducible apply kept_ite | with_reducible apply kept_forAll | with_reducible apply kept_foldl | with_reducible apply kept_when | with_reducible apply kept_foldl_fst | with_reducible apply kept_ite_fst | with_reducible apply kept_ite_snd | with_reducible apply Dev.freeRuns_kept | with_reducible apply Dev.setSlotState_kept | with_reducible apply Dev.setTxn_kept | (simp only [kept_mk, keptMem_dev]; done) | split | (simp only [kept_mk, keptMem_dev])

@[simp] theorem Dev.dropTarget_kept (o : Keep) (a0 : Dev) (a1) (h0 : Kept o a0) : Kept o (@Dev.dropTarget a0 a1) := by
  unfold Dev.dropTarget
  repeat' first | assumption | intro _ | with_reducible apply kept_ite | with_reducible apply kept_forAll | with_reducible apply kept_foldl | with_reducible apply kept_when | with_reducible apply kept_foldl_fst | with_reducible apply kept_ite_fst | with_reducible apply kept_ite_snd | with_reducible apply Dev.setSlotState_kept | with_reducible apply Dev.setTxn_kept | (simp only [kept_mk, keptMem_dev]; done) | split | (simp only [kept_mk, keptMem_dev])

@[simp] theorem Dev.rollBackTxn_kept (o : Keep) (a0 : Dev) (a1) (h0 : Kept o a0) : Kept o (@Dev.rollBackTxn a0 a1) := by
  unfold Dev.rollBackTxn
  repeat' first | assumption | intro _ | with_reducible apply kept_ite | with_reducible apply kept_forAll | with_reducible apply kept_foldl | with_reducible apply kept_when | with_reducible apply kept_foldl_fst | with_reducible apply kept_ite_fst | with_reducible apply kept_ite_snd | with_reducible apply Dev.reopen_kept | with_reducible apply Dev.dropTarget_kept | (simp only [kept_mk, keptMem_dev]; done) | split | (simp only [kept_mk, keptMem_dev])

@[simp] theorem Dev.touchTxn_kept (o : Keep) (a0 : Dev) (h0 : Kept o a0) : Kept o (@Dev.touchTxn a0) := by
  simp +contextual [Dev.touchTxn, *]

@[simp] theorem Dev.gated_kept (o : Keep) (a0 : Dev) (a1) (a2) (a3) (h0 : Kept o a0) (h3 : ∀ y0, Kept o y0 → Kept o (a3 y0)) : Kept o (@Dev.gated a0 a1 a2 a3) := by
  unfold Dev.gated
  try dsimp only
  repeat' first | assumption | intro _ | with_reducible apply kept_ite | with_reducible apply kept_forAll | with_reducible apply kept_foldl | with_reducible apply kept_when | with_reducible apply kept_foldl_fst | with_reducible apply kept_ite_fst | with_reducible apply kept_ite_snd | with_reducible apply Dev.wakeFor_kept | with_reducible apply Dev.reply_kept | (simp only [kept_mk, keptMem_dev]; done) | split | (simp only [kept_mk, keptMem_dev]) | (simp_all; done)

@[simp] theorem Dev.vend_kept (o : Keep) (a0 : Dev) (a1) (a2) (a3) (a4) (a5) (h0 : Kept o a0) (h5 : ∀ y0, Kept o y0 → Kept o (a5 y0)) : Kept o (@Dev.vend a0 a1 a2 a3 a4 a5) := by
  unfold Dev.vend
  try dsimp only
  repeat' first | assumption | intro _ | with_reducible apply kept_ite | with_reducible apply kept_forAll | with_reducible apply kept_foldl | with_reducible apply kept_when | with_reducible apply kept_foldl_fst | with_reducible apply kept_ite_fst | with_reducible apply kept_ite_snd | with_reducible apply Dev.reply_kept | (simp only [kept_mk, keptMem_dev]; done) | split | (simp only [kept_mk, keptMem_dev]) | (simp_all; done)

@[simp] theorem Dev.askAbort_kept (o : Keep) (a0 : Dev) (a1) (a2) (h0 : Kept o a0) : Kept o (@Dev.askAbort a0 a1 a2) := by
  simp +contextual [Dev.askAbort, *]

@[simp] theorem Dev.rollback_kept (o : Keep) (a0 : Dev) (a1) (a2) (h0 : Kept o a0) : Kept o (@Dev.rollback a0 a1 a2) := by
  unfold Dev.rollback
  repeat' first | assumption | intro _ | with_reducible apply kept_ite | with_reducible apply kept_forAll | with_reducible apply kept_foldl | with_reducible apply kept_when | with_reducible apply kept_foldl_fst | with_reducible apply kept_ite_fst | with_reducible apply kept_ite_snd | with_reducible apply Dev.gated_kept | with_reducible apply Dev.reply_kept | with_reducible apply Dev.vend_kept | with_reducible apply Dev.txnIdle_kept | with_reducible apply Dev.askAbort_kept | (simp only [kept_mk, keptMem_dev]; done) | split | (simp only [kept_mk, keptMem_dev])

@[simp] theorem Dev.owned_kept (o : Keep) (a0 : Dev) (a1) (a2) (h0 : Kept o a0) (h2 : ∀ y0, Kept o y0 → Kept o (a2 y0)) : Kept o (@Dev.owned a0 a1 a2) := by
  simp (maxDischargeDepth := 20) +contextual [Dev.owned, *]

@[simp] theorem Dev.asBg_kept (o : Keep) (a0 : Dev) (a1) (a2) (h0 : Kept o a0) (h2 : ∀ y0, Kept o y0 → Kept o (a2 y0)) : Kept o (@Dev.asBg a0 a1 a2) := by
  simp (maxDischargeDepth := 20) +contextual [Dev.asBg, *]

@[simp] theorem Dev.startBg_kept (o : Keep) (a0 : Dev) (a1) (a2) (a3) (h0 : Kept o a0) : Kept o (@Dev.startBg a0 a1 a2 a3) := by
  unfold Dev.startBg
  repeat' first | assumption | intro _ | with_reducible apply kept_ite | with_reducible apply kept_forAll | with_reducible apply kept_foldl | with_reducible apply kept_when | with_reducible apply kept_foldl_fst | with_reducible apply kept_ite_fst | with_reducible apply kept_ite_snd | with_reducible apply Dev.reply_kept | (simp only [kept_mk, keptMem_dev]; done) | split | (simp only [kept_mk, keptMem_dev])

@[simp] theorem Dev.stage_kept (o : Keep) (a0 : Dev) (a1) (a2) (h0 : Kept o a0) : Kept o (@Dev.stage a0 a1 a2) := by
  unfold Dev.stage
  repeat' first | assumption | intro _ | with_reducible apply kept_ite | with_reducible apply kept_forAll | with_reducible apply kept_foldl | with_reducible apply kept_when | with_reducible apply kept_foldl_fst | with_reducible apply kept_ite_fst | with_reducible apply kept_ite_snd | with_reducible apply Dev.gated_kept | with_reducible apply Dev.owned_kept | with_reducible apply Dev.vend_kept | with_reducible apply Dev.touchTxn_kept | with_reducible apply Dev.reply_kept | with_reducible apply Dev.asBg_kept | with_reducible apply Dev.setTxn_kept | with_reducible apply Dev.reopen_kept | with_reducible apply Dev.startBg_kept | (simp only [kept_mk, keptMem_dev]; done) | split | (simp only [kept_mk, keptMem_dev])

@[simp] theorem Dev.beginTxn_kept (o : Keep) (a0 : Dev) (a1) (a2) (h0 : Kept o a0) : Kept o (@Dev.beginTxn a0 a1 a2) := by
  simp (maxDischargeDepth := 20) +contextual [Dev.beginTxn, *]

set_option maxRecDepth 8000 in
@[simp] theorem Dev.findPrev_kept (o : Keep) (a0 : Dev) (a1) (h0 : Kept o a0) : Kept o (@Dev.findPrev a0 a1).1 := by
  unfold Dev.findPrev
  repeat' first | assumption | intro _ | with_reducible apply kept_ite | with_reducible apply kept_forAll | with_reducible apply kept_foldl | with_reducible apply kept_when | with_reducible apply kept_foldl_fst | with_reducible apply kept_ite_fst | with_reducible apply kept_ite_snd | with_reducible apply Dev.checkSlot_kept | (simp only [kept_mk, keptMem_dev]; done) | split | (simp only [kept_mk, keptMem_dev])

@[simp] theorem Dev.validateFail_kept (o : Keep) (a0 : Dev) (a1) (a2) (a3) (h0 : Kept o a0) : Kept o (@Dev.validateFail a0 a1 a2 a3) := by
  unfold Dev.validateFail
  repeat' first | assumption | intro _ | with_reducible apply kept_ite | with_reducible apply kept_forAll | with_reducible apply kept_foldl | with_reducible apply kept_when | with_reducible apply kept_foldl_fst | with_reducible apply kept_ite_fst | with_reducible apply kept_ite_snd | with_reducible apply Dev.touchTxn_kept | with_reducible apply Dev.setTxn_kept | with_reducible apply Dev.finishBg_kept | (simp only [kept_mk, keptMem_dev]; done) | split | (simp only [kept_mk, keptMem_dev])

@[simp] theorem Dev.writeSlot_kept (o : Keep) (a0 : Dev) (a1) (hw : o.AnyNvm) (h0 : Kept o a0) : Kept o (@Dev.writeSlot a0 a1) := by
  unfold Dev.writeSlot; simp only [kept_mk]; exact keptMem_wipe _ _ _ _ _ _ hw h0

@[simp] theorem Dev.readBack_kept (o : Keep) (a0 : Dev) (a1) (a2) (h0 : Kept o a0) : Kept o (@Dev.readBack a0 a1 a2).1 := by
  simp (maxDischargeDepth := 20) +contextual [Dev.readBack, *]

@[simp] theorem Dev.commitQueue_kept (o : Keep) (a0 : Dev) (a1) (h0 : Kept o a0) : Kept o (@Dev.commitQueue a0 a1) := by
  unfold Dev.commitQueue
  repeat' first | assumption | intro _ | with_reducible apply kept_ite | with_reducible apply kept_forAll | with_reducible apply kept_foldl | with_reducible apply kept_when | with_reducible apply kept_foldl_fst | with_reducible apply kept_ite_fst | with_reducible apply kept_ite_snd | with_reducible apply Dev.setTxn_kept | with_reducible apply Dev.finishBg_kept | with_reducible apply Dev.raise_kept | with_reducible apply Dev.touchTxn_kept | with_reducible apply Dev.dropTarget_kept | (with_reducible refine Dev.queueAct_kept _ _ _ ?_ _ (by assumption))| (with_reducible refine Dev.queueAct_kept _ _ _ _ ?_ _ (by assumption))| (with_reducible refine Dev.queueAct_kept _ _ _ _ _ ?_ _ (by assumption))| (with_reducible refine Dev.queueAct_kept _ _ _ _ _ _ ?_ _ (by assumption)) | (simp only [kept_mk, keptMem_dev]; done) | split | (simp only [kept_mk, keptMem_dev])

@[simp] theorem Dev.commitSlotWritten_kept (o : Keep) (a0 : Dev) (a1) (hw : o.AnyNvm) (h0 : Kept o a0) : Kept o (@Dev.commitSlotWritten a0 a1) := by
  unfold Dev.commitSlotWritten
  split
  · refine kept_ite _ _ _ _ h0 ?_
    rename_i n i _ _ _
    have hk := Dev.readBack_kept o (a0.writeSlot n) n a1 (Dev.writeSlot_kept _ _ _ hw h0)
    split
    rename_i d ok h
    rw [h] at hk
    refine kept_ite _ _ _ _ (by simp (maxDischargeDepth := 20) [*]) (kept_ite _ _ _ _ (by simp (maxDischargeDepth := 20) [*]) ?_)
    exact Dev.primeFrom_kept _ _ _ _ _ hk
  · exact h0

@[simp] theorem Dev.nvmWriteTimeout_kept (o : Keep) (a0 : Dev) (h0 : Kept o a0) : Kept o (@Dev.nvmWriteTimeout a0) := by
  unfold Dev.nvmWriteTimeout
  repeat' first | assumption | intro _ | with_reducible apply kept_ite | with_reducible apply kept_forAll | with_reducible apply kept_foldl | with_reducible apply kept_when | with_reducible apply kept_foldl_fst | with_reducible apply kept_ite_fst | with_reducible apply kept_ite_snd | with_reducible apply Dev.setSlotState_kept | with_reducible apply Dev.finishBg_kept | with_reducible apply Dev.touchTxn_kept | with_reducible apply Dev.rollBackTxn_kept | (simp only [kept_mk, keptMem_dev]; done) | split | (simp only [kept_mk, keptMem_dev])

@[simp] theorem Dev.stageComplete_kept (o : Keep) (a0 : Dev) (a1) (hw : o.AnyNvm) (h0 : Kept o a0) : Kept o (@Dev.stageComplete a0 a1) := by
  unfold Dev.stageComplete
  try dsimp only
  repeat' first | assumption | intro _ | with_reducible apply kept_ite | with_reducible apply kept_forAll | with_reducible apply kept_foldl | with_reducible apply kept_when | with_reducible apply kept_foldl_fst | with_reducible apply kept_ite_fst | with_reducible apply kept_ite_snd | with_reducible apply Dev.touchTxn_kept | with_reducible apply Dev.setTxn_kept | with_reducible apply Dev.finishBg_kept | (simp only [kept_mk, keptMem_dev]; done) | split | (simp only [kept_mk, keptMem_dev]) | (with_reducible refine keptMem_nvm _ _ _ _ hw ?_) | (with_reducible refine keptMem_wipe _ _ _ _ _ _ hw ?_) | (simp_all; done)

@[simp] theorem Dev.transactionTimeout_kept (o : Keep) (a0 : Dev) (h0 : Kept o a0) : Kept o (@Dev.transactionTimeout a0) := by
  unfold Dev.transactionTimeout
  repeat' first | assumption | intro _ | with_reducible apply kept_ite | with_reducible apply kept_forAll | with_reducible apply kept_foldl | with_reducible apply kept_when | with_reducible apply kept_foldl_fst | with_reducible apply kept_ite_fst | with_reducible apply kept_ite_snd | with_reducible apply Dev.finishBg_kept | with_reducible apply Dev.raise_kept | with_reducible apply Dev.txnIdle_kept | (simp only [kept_mk, keptMem_dev]; done) | split | (simp only [kept_mk, keptMem_dev])

@[simp] theorem Dev.validatePass_kept (o : Keep) (a0 : Dev) (a1) (a2) (a3) (a4) (a5) (h0 : Kept o a0) : Kept o (@Dev.validatePass a0 a1 a2 a3 a4 a5) := by
  simp (maxDischargeDepth := 20) +contextual [Dev.validatePass, *]

@[simp] theorem Dev.validateComplete_kept (o : Keep) (a0 : Dev) (a1) (hw : o.AnyNvm) (h0 : Kept o a0) : Kept o (@Dev.validateComplete a0 a1) := by
  unfold Dev.validateComplete
  split
  · exact h0
  · extract_lets t c n
    refine kept_ite _ _ _ _ ?_ (kept_ite _ _ _ _ (by simp [*]) ?_)
    · split <;> simp [*]
    · split
      · simp (maxDischargeDepth := 20) [*]
      · split
        · simp (maxDischargeDepth := 20) [*]
        · rename_i ms d1 h
          have h1 : Kept o d1 := by
            split at h
            · exact Dev.reserveRuns_kept _ _ _ h0 _ h
            · simp only [Option.some.injEq, Prod.mk.injEq] at h
              rw [← h.2]; exact h0
          refine kept_ite _ _ _ _ (by simp (maxDischargeDepth := 20) [*]) (kept_ite _ _ _ _ h0 ?_)
          have hk := Dev.readBack_kept o (((d1.skips c.skipped).setSlotState n 2).writeSlot n) n a1 (by simp (maxDischargeDepth := 20) [*])
          split
          rename_i d2 ok h2
          rw [h2] at hk
          refine kept_ite _ _ _ _ (by simp (maxDischargeDepth := 20) [*]) (by simp (maxDischargeDepth := 20) [*])

@[simp] theorem Dev.validate_kept (o : Keep) (a0 : Dev) (a1) (a2) (h0 : Kept o a0) : Kept o (@Dev.validate a0 a1 a2) := by
  unfold Dev.validate
  repeat' first | assumption | intro _ | with_reducible apply kept_ite | with_reducible apply kept_forAll | with_reducible apply kept_foldl | with_reducible apply kept_when | with_reducible apply kept_foldl_fst | with_reducible apply kept_ite_fst | with_reducible apply kept_ite_snd | with_reducible apply Dev.gated_kept | with_reducible apply Dev.owned_kept | with_reducible apply Dev.vend_kept | with_reducible apply Dev.touchTxn_kept | with_reducible apply Dev.reply_kept | with_reducible apply Dev.asBg_kept | with_reducible apply Dev.startBg_kept | with_reducible apply Dev.reopen_kept | (simp only [kept_mk, keptMem_dev]; done) | split | (simp only [kept_mk, keptMem_dev])

@[simp] theorem Dev.commit_kept (o : Keep) (a0 : Dev) (a1) (a2) (h0 : Kept o a0) : Kept o (@Dev.commit a0 a1 a2) := by
  unfold Dev.commit
  refine Dev.gated_kept _ _ _ _ _ h0 fun d hd => Dev.owned_kept _ _ _ _ hd fun d hd => Dev.vend_kept _ _ _ _ _ _ _ hd fun d hd => ?_
  extract_lets d1
  have h1 : Kept o d1 := Dev.touchTxn_kept _ _ hd
  clear_value d1
  refine kept_ite _ _ _ _ (Dev.reply_kept _ _ _ _ _ _ h1) (Dev.asBg_kept _ _ _ _ h1 fun d hd => ?_)
  extract_lets e1 e2
  have h1 : Kept o e1 := Dev.setTxn_kept _ _ _ hd
  clear_value e1
  have h2 : Kept o e2 := Dev.startBg_kept _ _ _ _ _ h1
  clear_value e2
  refine kept_ite _ _ _ _ (by simp (maxDischargeDepth := 20) [*]) ?_
  split <;> simp [*]

@[simp] theorem Dev.revert_kept (o : Keep) (a0 : Dev) (a1) (a2) (h0 : Kept o a0) : Kept o (@Dev.revert a0 a1 a2) := by
  unfold Dev.revert
  refine Dev.gated_kept _ _ _ _ _ h0 fun d hd => Dev.vend_kept _ _ _ _ _ _ _ hd fun d hd => ?_
  extract_lets pool
  refine kept_ite _ _ _ _ (Dev.busy104_kept _ _ _ hd) (kept_ite _ _ _ _ (Dev.reply_kept _ _ _ _ _ _ hd) (Dev.asBg_kept _ _ _ _ hd fun d hd => ?_))
  have hc := Dev.findPrev_kept o d pool hd
  split
  rename_i d2 f h
  rw [h] at hc
  split
  · exact Dev.reply_kept _ _ _ _ _ _ hc
  · split
    · rename_i i _
      have hs := Dev.startBg_kept o d2 a1 (.revert 0 i.version) false hc
      exact hs
    · extract_lets s
      split
      · exact Dev.reply_kept _ _ _ _ _ _ (Dev.raise_kept _ _ _ _ _ hc)
      · rename_i hq
        have hk := Dev.queueAct_kept _ _ _ _ _ hc _ hq
        exact Dev.startBg_kept _ _ _ _ _ hk

@[simp] theorem Dev.pullMsgTo_kept (o : Keep) (a0 : Dev) (a1) (a2) (h0 : Kept o a0) : Kept o (@Dev.pullMsgTo a0 a1 a2) := by
  simp (maxDischargeDepth := 20) +contextual [Dev.pullMsgTo, *]

@[simp] theorem Dev.sendPull_kept (o : Keep) (a0 : Dev) (a1) (h0 : Kept o a0) : Kept o (@Dev.sendPull a0 a1) := by
  simp +contextual [Dev.sendPull, *]

@[simp] theorem Dev.setMember_kept (o : Keep) (a0 : Dev) (a1) (h0 : Kept o a0) : Kept o (@Dev.setMember a0 a1) := by
  simp +contextual [Dev.setMember, *]

@[simp] theorem Dev.pullRetry_kept (o : Keep) (a0 : Dev) (h0 : Kept o a0) : Kept o (@Dev.pullRetry a0) := by
  unfold Dev.pullRetry
  repeat' first | assumption | intro _ | with_reducible apply kept_ite | with_reducible apply kept_forAll | with_reducible apply kept_foldl | with_reducible apply kept_when | with_reducible apply kept_foldl_fst | with_reducible apply kept_ite_fst | with_reducible apply kept_ite_snd | with_reducible apply Dev.sendPull_kept | with_reducible apply Dev.setMember_kept | (simp only [kept_mk, keptMem_dev]; done) | split | (simp only [kept_mk, keptMem_dev])

@[simp] theorem Dev.endPoolCmd_kept (o : Keep) (a0 : Dev) (a1) (a2) (a3) (h0 : Kept o a0) : Kept o (@Dev.endPoolCmd a0 a1 a2 a3) := by
  unfold Dev.endPoolCmd
  repeat' first | assumption | intro _ | with_reducible apply kept_ite | with_reducible apply kept_forAll | with_reducible apply kept_foldl | with_reducible apply kept_when | with_reducible apply kept_foldl_fst | with_reducible apply kept_ite_fst | with_reducible apply kept_ite_snd | with_reducible apply Dev.finishBg_kept | (simp only [kept_mk, keptMem_dev]; done) | split | (simp only [kept_mk, keptMem_dev])

@[simp] theorem Dev.decide__kept (o : Keep) (a0 : Dev) (a1) (a2) (a3) (h0 : Kept o a0) : Kept o (@Dev.decide_ a0 a1 a2 a3) := by
  simp +contextual [Dev.decide_, *]

@[simp] theorem Dev.setRoot_kept (o : Keep) (a0 : Dev) (a1) (h0 : Kept o a0) : Kept o (@Dev.setRoot a0 a1) := by
  simp +contextual [Dev.setRoot, *]

@[simp] theorem Dev.rootAbort_kept (o : Keep) (a0 : Dev) (a1) (a2) (h0 : Kept o a0) : Kept o (@Dev.rootAbort a0 a1 a2) := by
  unfold Dev.rootAbort
  repeat' first | assumption | intro _ | with_reducible apply kept_ite | with_reducible apply kept_forAll | with_reducible apply kept_foldl | with_reducible apply kept_when | with_reducible apply kept_foldl_fst | with_reducible apply kept_ite_fst | with_reducible apply kept_ite_snd | with_reducible apply Dev.broadcast_kept | with_reducible apply Dev.setTxn_kept | with_reducible apply Dev.decide__kept | with_reducible apply Dev.touchTxn_kept | with_reducible apply Dev.setRoot_kept | (simp only [kept_mk, keptMem_dev]; done) | split | (simp only [kept_mk, keptMem_dev])

@[simp] theorem Dev.voteWindowExpiry_kept (o : Keep) (a0 : Dev) (h0 : Kept o a0) : Kept o (@Dev.voteWindowExpiry a0) := by
  unfold Dev.voteWindowExpiry
  repeat' first | assumption | intro _ | with_reducible apply kept_ite | with_reducible apply kept_forAll | with_reducible apply kept_foldl | with_reducible apply kept_when | with_reducible apply kept_foldl_fst | with_reducible apply kept_ite_fst | with_reducible apply kept_ite_snd | with_reducible apply Dev.endPoolCmd_kept | with_reducible apply Dev.rootAbort_kept | (simp only [kept_mk, keptMem_dev]; done) | split | (simp only [kept_mk, keptMem_dev])

@[simp] theorem Dev.dropPending_kept (o : Keep) (a0 : Dev) (a1) (h0 : Kept o a0) : Kept o (@Dev.dropPending a0 a1) := by
  unfold Dev.dropPending
  repeat' first | assumption | intro _ | with_reducible apply kept_ite | with_reducible apply kept_forAll | with_reducible apply kept_foldl | with_reducible apply kept_when | with_reducible apply kept_foldl_fst | with_reducible apply kept_ite_fst | with_reducible apply kept_ite_snd | with_reducible apply Dev.txnIdle_kept | with_reducible apply Dev.setSlotState_kept | (simp only [kept_mk, keptMem_dev]; done) | split | (simp only [kept_mk, keptMem_dev])

@[simp] theorem Dev.configurationPull_kept (o : Keep) (a0 : Dev) (a1) (a2) (h0 : Kept o a0) : Kept o (@Dev.configurationPull a0 a1 a2) := by
  simp (maxDischargeDepth := 20) +contextual [Dev.configurationPull, *]

@[simp] theorem Dev.startPull_kept (o : Keep) (a0 : Dev) (h0 : Kept o a0) : Kept o (@Dev.startPull a0) := by
  unfold Dev.startPull
  repeat' first | assumption | intro _ | with_reducible apply kept_ite | with_reducible apply kept_forAll | with_reducible apply kept_foldl | with_reducible apply kept_when | with_reducible apply kept_foldl_fst | with_reducible apply kept_ite_fst | with_reducible apply kept_ite_snd | with_reducible apply Dev.sendPull_kept | with_reducible apply Dev.setMember_kept | (simp only [kept_mk, keptMem_dev]; done) | split | (simp only [kept_mk, keptMem_dev])

@[simp] theorem Dev.rootTarget_kept (o : Keep) (a0 : Dev) (h0 : Kept o a0) : Kept o (@Dev.rootTarget a0).1 := by
  simp (maxDischargeDepth := 20) +contextual [Dev.rootTarget, *]

@[simp] theorem Dev.rootAcked_kept (o : Keep) (a0 : Dev) (h0 : Kept o a0) : Kept o (@Dev.rootAcked a0) := by
  simp (maxDischargeDepth := 20) +contextual [Dev.rootAcked, *]

@[simp] theorem Dev.rootCommit_kept (o : Keep) (a0 : Dev) (h0 : Kept o a0) : Kept o (@Dev.rootCommit a0) := by
  unfold Dev.rootCommit
  repeat' first | assumption | intro _ | with_reducible apply kept_ite | with_reducible apply kept_forAll | with_reducible apply kept_foldl | with_reducible apply kept_when | with_reducible apply kept_foldl_fst | with_reducible apply kept_ite_fst | with_reducible apply kept_ite_snd | with_reducible apply Dev.endPoolCmd_kept | with_reducible apply Dev.rootAbort_kept | with_reducible apply Dev.raise_kept | with_reducible apply Dev.setTxn_kept | with_reducible apply Dev.decide__kept | with_reducible apply Dev.broadcast_kept | with_reducible apply Dev.mapBg_kept | with_reducible apply Dev.rootAcked_kept | with_reducible apply Dev.setRoot_kept | (with_reducible refine Dev.queueAct_kept _ _ _ ?_ _ (by assumption))| (with_reducible refine Dev.queueAct_kept _ _ _ _ ?_ _ (by assumption))| (with_reducible refine Dev.queueAct_kept _ _ _ _ _ ?_ _ (by assumption))| (with_reducible refine Dev.queueAct_kept _ _ _ _ _ _ ?_ _ (by assumption)) | (simp only [kept_mk, keptMem_dev]; done) | split | (simp only [kept_mk, keptMem_dev])

@[simp] theorem Dev.takeAck_kept (o : Keep) (a0 : Dev) (a1) (h0 : Kept o a0) : Kept o (@Dev.takeAck a0 a1) := by
  simp (maxDischargeDepth := 20) +contextual [Dev.takeAck, *]

@[simp] theorem Dev.commitWaitExpiry_kept (o : Keep) (a0 : Dev) (h0 : Kept o a0) : Kept o (@Dev.commitWaitExpiry a0) := by
  unfold Dev.commitWaitExpiry
  repeat' first | assumption | intro _ | with_reducible apply kept_ite | with_reducible apply kept_forAll | with_reducible apply kept_foldl | with_reducible apply kept_when | with_reducible apply kept_foldl_fst | with_reducible apply kept_ite_fst | with_reducible apply kept_ite_snd | with_reducible apply Dev.setRoot_kept | (simp only [kept_mk, keptMem_dev]; done) | split | (simp only [kept_mk, keptMem_dev])

@[simp] theorem Dev.poolCommit_kept (o : Keep) (a0 : Dev) (a1) (a2) (h0 : Kept o a0) : Kept o (@Dev.poolCommit a0 a1 a2) := by
  simp (maxDischargeDepth := 20) +contextual [Dev.poolCommit, *]

@[simp] theorem Dev.votedTimeout_kept (o : Keep) (a0 : Dev) (h0 : Kept o a0) : Kept o (@Dev.votedTimeout a0) := by
  simp (maxDischargeDepth := 20) +contextual [Dev.votedTimeout, *]

@[simp] theorem Dev.pullGiveUp_kept (o : Keep) (a0 : Dev) (h0 : Kept o a0) : Kept o (@Dev.pullGiveUp a0) := by
  simp (maxDischargeDepth := 20) +contextual [Dev.pullGiveUp, *]

@[simp] theorem Dev.takeVote_kept (o : Keep) (a0 : Dev) (a1) (h0 : Kept o a0) : Kept o (@Dev.takeVote a0 a1) := by
  simp (maxDischargeDepth := 20) +contextual [Dev.takeVote, *]

@[simp] theorem Dev.rootRevert_kept (o : Keep) (a0 : Dev) (h0 : Kept o a0) : Kept o (@Dev.rootRevert a0) := by
  unfold Dev.rootRevert
  try dsimp only
  repeat' first | assumption | intro _ | with_reducible apply kept_ite | with_reducible apply kept_forAll | with_reducible apply kept_foldl | with_reducible apply kept_when | with_reducible apply kept_foldl_fst | with_reducible apply kept_ite_fst | with_reducible apply kept_ite_snd | with_reducible apply Dev.rootTarget_kept | with_reducible apply Dev.endPoolCmd_kept | with_reducible apply Dev.raise_kept | with_reducible apply Dev.setRoot_kept | with_reducible apply Dev.mapBg_kept | with_reducible apply Dev.decide__kept | with_reducible apply Dev.broadcast_kept | (with_reducible refine Dev.queueAct_kept _ _ _ ?_ _ (by assumption))| (with_reducible refine Dev.queueAct_kept _ _ _ _ ?_ _ (by assumption))| (with_reducible refine Dev.queueAct_kept _ _ _ _ _ ?_ _ (by assumption))| (with_reducible refine Dev.queueAct_kept _ _ _ _ _ _ ?_ _ (by assumption)) | (simp only [kept_mk, keptMem_dev]; done) | split | (simp only [kept_mk, keptMem_dev]) | (simp_all; done)

@[simp] theorem Dev.rootPrepare_kept (o : Keep) (a0 : Dev) (h0 : Kept o a0) : Kept o (@Dev.rootPrepare a0) := by
  simp (maxDischargeDepth := 20) +contextual [Dev.rootPrepare, *]

@[simp] theorem Dev.poolBoundary_kept (o : Keep) (a0 : Dev) (a1 : Dev) (h0 : Kept o a0) : Kept o (@Dev.poolBoundary a0 a1) := by
  simp (maxDischargeDepth := 20) +contextual [Dev.poolBoundary, *]

@[simp] theorem Dev.cannotApply_kept (o : Keep) (a0 : Dev) (h0 : Kept o a0) : Kept o (@Dev.cannotApply a0) := by
  simp (maxDischargeDepth := 20) +contextual [Dev.cannotApply, *]

@[simp] theorem Dev.slotVerificationComplete_kept (o : Keep) (a0 : Dev) (h0 : Kept o a0) : Kept o (@Dev.slotVerificationComplete a0) := by
  unfold Dev.slotVerificationComplete
  refine kept_ite _ _ _ _ h0 ?_
  split
  · simp [*]
  · rename_i n _ _
    have hc := Dev.checkSlot_kept o a0 n h0
    split
    rename_i d c h
    rw [h] at hc
    refine kept_ite _ _ _ _ (Dev.cannotApply_kept _ _ hc) ?_
    split
    · simp (maxDischargeDepth := 20) [*]
    · rename_i hq
      have hk := Dev.queueAct_kept _ _ _ _ _ hc _ hq
      extract_lets d2
      have h2 : Kept o d2 := kept_ite _ _ _ _ (Dev.setTxn_kept _ _ _ (Dev.freeRuns_kept _ _ _ hk)) hk
      exact h2

@[simp] theorem Dev.rootAgain_kept (o : Keep) (a0 : Dev) (h0 : Kept o a0) : Kept o (@Dev.rootAgain a0) := by
  simp (maxDischargeDepth := 20) +contextual [Dev.rootAgain, *]

@[simp] theorem Dev.configurationPullReply_kept (o : Keep) (a0 : Dev) (a1) (a2) (h0 : Kept o a0) : Kept o (@Dev.configurationPullReply a0 a1 a2) := by
  unfold Dev.configurationPullReply
  repeat' first | assumption | intro _ | with_reducible apply kept_ite | with_reducible apply kept_forAll | with_reducible apply kept_foldl | with_reducible apply kept_when | with_reducible apply kept_foldl_fst | with_reducible apply kept_ite_fst | with_reducible apply kept_ite_snd | with_reducible apply Dev.setMember_kept | with_reducible apply Dev.dropPending_kept | with_reducible apply Dev.cannotApply_kept | (simp only [kept_mk, keptMem_dev]; done) | split | (simp only [kept_mk, keptMem_dev])

@[simp] theorem Dev.hearPool_kept (o : Keep) (a0 : Dev) (a1) (a2) (a3) (a4 : Dev → Dev) (h0 : Kept o a0) (h4 : ∀ y0, Kept o y0 → Kept o (a4 y0)) : Kept o (@Dev.hearPool a0 a1 a2 a3 a4) := by
  unfold Dev.hearPool
  split
  · exact h0
  · rename_i d hd
    have hk := Dev.hear_kept _ _ _ _ _ h0 _ hd
    exact kept_ite _ _ _ _ hk (h4 _ (Dev.setMember_kept _ _ _ hk))

@[simp] theorem Dev.poolCommitBroadcast_kept (o : Keep) (a0 : Dev) (a1) (a2) (h0 : Kept o a0) : Kept o (@Dev.poolCommitBroadcast a0 a1 a2) := by
  unfold Dev.poolCommitBroadcast
  repeat' first | assumption | intro _ | with_reducible apply kept_ite | with_reducible apply kept_forAll | with_reducible apply kept_foldl | with_reducible apply kept_when | with_reducible apply kept_foldl_fst | with_reducible apply kept_ite_fst | with_reducible apply kept_ite_snd | with_reducible apply Dev.hearPool_kept | with_reducible apply Dev.ack_kept | with_reducible apply Dev.raise_kept | with_reducible apply Dev.setMember_kept | with_reducible apply Dev.setTxn_kept | (with_reducible refine Dev.queueAct_kept _ _ _ ?_ _ (by assumption))| (with_reducible refine Dev.queueAct_kept _ _ _ _ ?_ _ (by assumption))| (with_reducible refine Dev.queueAct_kept _ _ _ _ _ ?_ _ (by assumption))| (with_reducible refine Dev.queueAct_kept _ _ _ _ _ _ ?_ _ (by assumption)) | (simp only [kept_mk, keptMem_dev]; done) | split | (simp only [kept_mk, keptMem_dev])

@[simp] theorem Dev.poolAbort_kept (o : Keep) (a0 : Dev) (a1) (a2) (h0 : Kept o a0) : Kept o (@Dev.poolAbort a0 a1 a2) := by
  simp (maxDischargeDepth := 20) +contextual [Dev.poolAbort, *]

@[simp] theorem Dev.poolPrepare_kept (o : Keep) (a0 : Dev) (a1) (a2) (h0 : Kept o a0) : Kept o (@Dev.poolPrepare a0 a1 a2) := by
  simp (maxDischargeDepth := 20) +contextual [Dev.poolPrepare, *]

@[simp] theorem Dev.poolRevert_kept (o : Keep) (a0 : Dev) (a1) (a2) (h0 : Kept o a0) : Kept o (@Dev.poolRevert a0 a1 a2) := by
  unfold Dev.poolRevert
  refine Dev.hearPool_kept _ _ _ _ _ _ h0 fun d hd => kept_ite _ _ _ _ ?_ (kept_ite _ _ _ _ (Dev.ack_kept _ _ _ _ _ _ _ (Dev.dropPending_kept _ _ _ hd)) (Dev.ack_kept _ _ _ _ _ _ _ (Dev.raise_kept _ _ _ _ _ hd)))
  have hc := Dev.findPrev_kept o d true hd
  split
  rename_i d2 f h
  rw [h] at hc
  split
  · exact Dev.ack_kept _ _ _ _ _ _ _ (Dev.raise_kept _ _ _ _ _ hc)
  · extract_lets late
    split
    · exact Dev.ack_kept _ _ _ _ _ _ _ (Dev.raise_kept _ _ _ _ _ hc)
    · rename_i hq
      have hk := Dev.queueAct_kept _ _ _ _ _ hc _ hq
      exact Dev.ack_kept _ _ _ _ _ _ _ (kept_ite _ _ _ _ (Dev.raise_kept _ _ _ _ _ hk) hk)

end Sys2Proof.Machine
end

