-- ==== Sys2Proof/Laws/KeptSecurity.lean ====
section
/-! SUPPORT. That security keep both byte memories in canonical form and change the OTP only as it may be burnt: one lemma for each
operation that answers a device. -/

namespace Sys2Proof.Machine

open Sys2Proof

set_option linter.unreachableTactic false
set_option linter.unusedTactic false
set_option linter.unusedSimpArgs false

@[simp] theorem Dev.completeBg_kept (o : Keep) (a0 : Dev) (h0 : Kept o a0) : Kept o (@Dev.completeBg a0) := by
  unfold Dev.completeBg
  repeat' first | assumption | intro _ | split | with_reducible apply kept_forAll | with_reducible apply kept_foldl | with_reducible apply kept_when | with_reducible apply kept_foldl_fst | with_reducible apply kept_ite | with_reducible apply kept_ite_fst | with_reducible apply forAll_kept | with_reducible apply Dev.reply_kept | (simp only [kept_mk, keptMem_dev])

@[simp] theorem Dev.spdm_kept (o : Keep) (a0 : Dev) (a1) (a2) (h0 : Kept o a0) (h2 : ∀ y0, Kept o y0 → Kept o (a2 y0)) : Kept o (@Dev.spdm a0 a1 a2) := by
  unfold Dev.spdm
  (repeat' split) <;> simp +contextual [*]

@[simp] theorem Dev.setSec_kept (o : Keep) (a0 : Dev) (a1) (h0 : Kept o a0) : Kept o (@Dev.setSec a0 a1) := by
  simp +contextual [Dev.setSec, *]

@[simp] theorem Dev.negotiateAlgorithms_kept (o : Keep) (a0 : Dev) (a1) (a2) (h0 : Kept o a0) : Kept o (@Dev.negotiateAlgorithms a0 a1 a2) := by
  unfold Dev.negotiateAlgorithms
  repeat' first | assumption | intro _ | split | with_reducible apply kept_forAll | with_reducible apply kept_foldl | with_reducible apply kept_when | with_reducible apply kept_foldl_fst | with_reducible apply kept_ite | with_reducible apply kept_ite_fst | with_reducible apply Dev.spdm_kept | with_reducible apply Dev.emit_kept | with_reducible apply Dev.setSec_kept | (simp only [kept_mk, keptMem_dev])

@[simp] theorem Dev.secured_kept (o : Keep) (a0 : Dev) (a1) (a2) (h0 : Kept o a0) (h2 : ∀ y0, Kept o y0 → Kept o (a2 y0)) : Kept o (@Dev.secured a0 a1 a2) := by
  unfold Dev.secured
  try dsimp only
  repeat' first | assumption | intro _ | with_reducible apply kept_ite | with_reducible apply kept_forAll | with_reducible apply kept_foldl | with_reducible apply kept_when | with_reducible apply kept_foldl_fst | with_reducible apply kept_ite_fst | with_reducible apply kept_ite_snd | with_reducible apply Dev.spdm_kept | with_reducible apply Dev.wake_kept | with_reducible apply Dev.emit_kept | (simp only [kept_mk, keptMem_dev]; done) | split | (simp only [kept_mk, keptMem_dev]) | (simp_all; done)

@[simp] theorem Dev.keyUpdate_kept (o : Keep) (a0 : Dev) (a1) (h0 : Kept o a0) : Kept o (@Dev.keyUpdate a0 a1) := by
  simp +contextual [Dev.keyUpdate, *]

@[simp] theorem Dev.handshake_kept (o : Keep) (a0 : Dev) (a1) (a2) (h0 : Kept o a0) (h2 : ∀ y0, Kept o y0 → Kept o (a2 y0)) : Kept o (@Dev.handshake a0 a1 a2) := by
  unfold Dev.handshake
  try dsimp only
  repeat' first | assumption | intro _ | with_reducible apply kept_ite | with_reducible apply kept_forAll | with_reducible apply kept_foldl | with_reducible apply kept_when | with_reducible apply kept_foldl_fst | with_reducible apply kept_ite_fst | with_reducible apply kept_ite_snd | with_reducible apply Dev.spdm_kept | with_reducible apply Dev.emit_kept | (simp only [kept_mk, keptMem_dev]; done) | split | (simp only [kept_mk, keptMem_dev]) | (simp_all; done)

@[simp] theorem Dev.setSession_kept (o : Keep) (a0 : Dev) (a1) (a2) (h0 : Kept o a0) : Kept o (@Dev.setSession a0 a1 a2) := by
  simp +contextual [Dev.setSession, *]

@[simp] theorem Dev.dropSession_kept (o : Keep) (a0 : Dev) (a1) (h0 : Kept o a0) : Kept o (@Dev.dropSession a0 a1) := by
  simp +contextual [Dev.dropSession, *]

@[simp] theorem Dev.finish_kept (o : Keep) (a0 : Dev) (a1) (a2) (h0 : Kept o a0) : Kept o (@Dev.finish a0 a1 a2) := by
  unfold Dev.finish
  repeat' first | assumption | intro _ | with_reducible apply kept_ite | with_reducible apply kept_forAll | with_reducible apply kept_foldl | with_reducible apply kept_when | with_reducible apply kept_foldl_fst | with_reducible apply kept_ite_fst | with_reducible apply kept_ite_snd | with_reducible apply Dev.handshake_kept | with_reducible apply Dev.emit_kept | with_reducible apply Dev.setSession_kept | with_reducible apply Dev.dropSession_kept | (simp only [kept_mk, keptMem_dev]; done) | split | (simp only [kept_mk, keptMem_dev])

@[simp] theorem Dev.keyReply_kept (o : Keep) (a0 : Dev) (a1) (a2) (a3) (a4) (h0 : Kept o a0) : Kept o (@Dev.keyReply a0 a1 a2 a3 a4) := by
  simp (maxDischargeDepth := 20) +contextual [Dev.keyReply, *]

@[simp] theorem Dev.dropDomain_kept (o : Keep) (a0 : Dev) (a1) (h0 : Kept o a0) : Kept o (@Dev.dropDomain a0 a1) := by
  simp (maxDischargeDepth := 20) +contextual [Dev.dropDomain, *]

@[simp] theorem Dev.keyHandle_kept (o : Keep) (a0 : Dev) (a1) (h0 : Kept o a0) : Kept o (@Dev.keyHandle a0 a1) := by
  unfold Dev.keyHandle
  repeat' first | assumption | intro _ | with_reducible apply kept_ite | with_reducible apply kept_forAll | with_reducible apply kept_foldl | with_reducible apply kept_when | with_reducible apply kept_foldl_fst | with_reducible apply kept_ite_fst | with_reducible apply kept_ite_snd | with_reducible apply Dev.keyReply_kept | with_reducible apply Dev.fresh_kept | with_reducible apply Dev.setKd_kept | with_reducible apply Dev.dropDomain_kept | (simp only [kept_mk, keptMem_dev]; done) | split | (simp only [kept_mk, keptMem_dev])

@[simp] theorem Dev.keyDrain_kept (o : Keep) (a0 : Dev) (a1) (h0 : Kept o a0) : Kept o (@Dev.keyDrain a0 a1) := by
  induction a1 generalizing a0 with
  | zero => exact h0
  | succ n ih =>
    unfold Dev.keyDrain
    split
    · exact h0
    · exact kept_ite _ _ _ _ h0 (ih _ (Dev.keyHandle_kept _ _ _ (Dev.setSec_kept _ _ _ h0)))

@[simp] theorem Dev.keyPump_kept (o : Keep) (a0 : Dev) (h0 : Kept o a0) : Kept o (@Dev.keyPump a0) := by
  simp (maxDischargeDepth := 20) +contextual [Dev.keyPump, *]

@[simp] theorem Dev.keyLive_kept (o : Keep) (a0 : Dev) (a1) (h0 : Kept o a0) : Kept o (@Dev.keyLive a0 a1) := by
  unfold Dev.keyLive
  repeat' first | assumption | intro _ | with_reducible apply kept_ite | with_reducible apply kept_forAll | with_reducible apply kept_foldl | with_reducible apply kept_when | with_reducible apply kept_foldl_fst | with_reducible apply kept_ite_fst | with_reducible apply kept_ite_snd | with_reducible apply Dev.setKd_kept | with_reducible apply Dev.raiseI_kept | with_reducible apply Dev.keyReply_kept | (simp only [kept_mk, keptMem_dev]; done) | split | (simp only [kept_mk, keptMem_dev])

@[simp] theorem Dev.keyBoundary_kept (o : Keep) (a0 : Dev) (a1 : Dev) (h0 : Kept o a0) : Kept o (@Dev.keyBoundary a0 a1) := by
  simp (maxDischargeDepth := 20) +contextual [Dev.keyBoundary, *]

@[simp] theorem Dev.unlock_kept (o : Keep) (a0 : Dev) (a1) (a2) (h0 : Kept o a0) : Kept o (@Dev.unlock a0 a1 a2) := by
  simp (maxDischargeDepth := 20) +contextual [Dev.unlock, *]

@[simp] theorem Dev.spdmGetVersion_kept (o : Keep) (a0 : Dev) (a1) (h0 : Kept o a0) : Kept o (@Dev.spdmGetVersion a0 a1) := by
  simp (maxDischargeDepth := 20) +contextual [Dev.spdmGetVersion, *]

@[simp] theorem Dev.abandonParts_kept (o : Keep) (a0 : Dev) (h0 : Kept o a0) : Kept o (@Dev.abandonParts a0) := by
  unfold Dev.abandonParts
  repeat' first | assumption | intro _ | with_reducible apply kept_ite | with_reducible apply kept_forAll | with_reducible apply kept_foldl | with_reducible apply kept_when | with_reducible apply kept_foldl_fst | with_reducible apply kept_ite_fst | with_reducible apply kept_ite_snd | with_reducible apply forAll_kept | with_reducible apply Dev.abortEvacs_kept | with_reducible apply Dev.retireBack_kept | with_reducible apply Dev.rejoinBack_kept | with_reducible apply Dev.setDom_kept | (simp only [kept_mk, keptMem_dev]; done) | split | (simp only [kept_mk, keptMem_dev])

@[simp] theorem Dev.domainKeyEmpty_kept (o : Keep) (a0 : Dev) (a1) (h0 : Kept o a0) : Kept o (@Dev.domainKeyEmpty a0 a1) := by
  simp (maxDischargeDepth := 20) +contextual [Dev.domainKeyEmpty, *]

@[simp] theorem Dev.negotiated_kept (o : Keep) (a0 : Dev) (a1) (a2) (h0 : Kept o a0) (h2 : ∀ y0, Kept o y0 → Kept o (a2 y0)) : Kept o (@Dev.negotiated a0 a1 a2) := by
  simp (maxDischargeDepth := 20) +contextual [Dev.negotiated, *]

@[simp] theorem Dev.closeScopes_kept (o : Keep) (a0 : Dev) (h0 : Kept o a0) : Kept o (@Dev.closeScopes a0) := by
  simp (maxDischargeDepth := 20) +contextual [Dev.closeScopes, *]

@[simp] theorem Dev.endSession_kept (o : Keep) (a0 : Dev) (a1) (h0 : Kept o a0) : Kept o (@Dev.endSession a0 a1) := by
  simp (maxDischargeDepth := 20) +contextual [Dev.endSession, *]

@[simp] theorem Dev.secMessage_kept (o : Keep) (a0 : Dev) (a1) (a2) (a3) (a4) (a5) (a6) (h0 : Kept o a0) (h6 : ∀ y0, Kept o y0 → Kept o (a6 y0).2) : Kept o (@Dev.secMessage a0 a1 a2 a3 a4 a5 a6) := by
  simp (maxDischargeDepth := 20) +contextual [Dev.secMessage, *]

@[simp] theorem Dev.burnOwner_kept (o : Keep) (a0 : Dev) (a1) (a2) (hb : o.Burns) (h0 : Kept o a0) : Kept o (@Dev.burnOwner a0 a1 a2) := by
  unfold Dev.burnOwner
  extract_lets pad
  apply Dev.raise_kept
  refine ⟨h0.1, hb a0.otp _ _ _ _ ?_ h0.2⟩
  exact ⟨Or.inl rfl, BitVec.and_self, ⟨pad ++ [(true, a2)], by simp⟩, rfl, rfl, rfl, rfl, rfl, rfl, rfl⟩

@[simp] theorem Dev.transferOwnership_kept (o : Keep) (a0 : Dev) (a1) (a2) (hb : o.Burns) (h0 : Kept o a0) : Kept o (@Dev.transferOwnership a0 a1 a2) := by
  unfold Dev.transferOwnership
  repeat' first | assumption | intro _ | with_reducible apply kept_ite | with_reducible apply kept_forAll | with_reducible apply kept_foldl | with_reducible apply kept_when | with_reducible apply kept_foldl_fst | with_reducible apply kept_ite_fst | with_reducible apply kept_ite_snd | with_reducible apply Dev.secMessage_kept | with_reducible refine Dev.burnOwner_kept _ _ _ _ hb ?_ | (simp only [kept_mk, keptMem_dev]; done) | split | (simp only [kept_mk, keptMem_dev])

@[simp] theorem Dev.abandonBg_kept (o : Keep) (a0 : Dev) (h0 : Kept o a0) : Kept o (@Dev.abandonBg a0) := by
  simp (maxDischargeDepth := 20) +contextual [Dev.abandonBg, *]

@[simp] theorem Dev.abandonRest_kept (o : Keep) (a0 : Dev) (h0 : Kept o a0) : Kept o (@Dev.abandonRest a0) := by
  unfold Dev.abandonRest
  repeat' first | assumption | intro _ | with_reducible apply kept_ite | with_reducible apply kept_forAll | with_reducible apply kept_foldl | with_reducible apply kept_when | with_reducible apply kept_foldl_fst | with_reducible apply kept_ite_fst | with_reducible apply kept_ite_snd | with_reducible apply forAll_kept | with_reducible apply Dev.wake_kept | with_reducible apply Dev.setHead_kept | (simp only [kept_mk, keptMem_dev]; done) | split | (simp only [kept_mk, keptMem_dev])

@[simp] theorem Dev.getDigests_kept (o : Keep) (a0 : Dev) (a1) (h0 : Kept o a0) : Kept o (@Dev.getDigests a0 a1) := by
  simp (maxDischargeDepth := 20) +contextual [Dev.getDigests, *]

@[simp] theorem Dev.scopeBoundary_kept (o : Keep) (a0 : Dev) (a1 : Dev) (h0 : Kept o a0) : Kept o (@Dev.scopeBoundary a0 a1) := by
  unfold Dev.scopeBoundary
  repeat' first | assumption | intro _ | with_reducible apply kept_ite | with_reducible apply kept_forAll | with_reducible apply kept_foldl | with_reducible apply kept_when | with_reducible apply kept_foldl_fst | with_reducible apply kept_ite_fst | with_reducible apply kept_ite_snd | with_reducible apply Dev.setSec_kept | with_reducible apply Dev.raiseI_kept | (simp only [kept_mk, keptMem_dev]; done) | split | (simp only [kept_mk, keptMem_dev])

@[simp] theorem Dev.floorRise_kept (o : Keep) (a0 : Dev) (h0 : Kept o a0) : Kept o (@Dev.floorRise a0) := by
  simp (maxDischargeDepth := 20) +contextual [Dev.floorRise, *]

@[simp] theorem Dev.keyMessage_kept (o : Keep) (a0 : Dev) (a1) (a2) (a3) (h0 : Kept o a0) : Kept o (@Dev.keyMessage a0 a1 a2 a3) := by
  unfold Dev.keyMessage
  repeat' first | assumption | intro _ | with_reducible apply kept_ite | with_reducible apply kept_forAll | with_reducible apply kept_foldl | with_reducible apply kept_when | with_reducible apply kept_foldl_fst | with_reducible apply kept_ite_fst | with_reducible apply kept_ite_snd | with_reducible apply Dev.spdm_kept | with_reducible apply Dev.wake_kept | with_reducible apply Dev.emit_kept | with_reducible apply Dev.keyPump_kept | with_reducible apply Dev.setSec_kept | (simp only [kept_mk, keptMem_dev]; done) | split | (simp only [kept_mk, keptMem_dev])

@[simp] theorem Dev.getDomainStatus_kept (o : Keep) (a0 : Dev) (a1) (a2) (h0 : Kept o a0) : Kept o (@Dev.getDomainStatus a0 a1 a2) := by
  simp (maxDischargeDepth := 20) +contextual [Dev.getDomainStatus, *]

@[simp] theorem Dev.claimOwnership_kept (o : Keep) (a0 : Dev) (a1) (a2) (hb : o.Burns) (h0 : Kept o a0) : Kept o (@Dev.claimOwnership a0 a1 a2) := by
  simp (maxDischargeDepth := 20) +contextual [Dev.claimOwnership, *]

@[simp] theorem Dev.setKey_kept (o : Keep) (a0 : Dev) (a1) (a2) (h0 : Kept o a0) : Kept o (@Dev.setKey a0 a1 a2) := by
  simp (maxDischargeDepth := 20) +contextual [Dev.setKey, *]

@[simp] theorem Dev.decommission_kept (o : Keep) (a0 : Dev) (a1) (a2) (hb : o.Burns) (h0 : Kept o a0) : Kept o (@Dev.decommission a0 a1 a2) := by
  unfold Dev.decommission
  refine Dev.secMessage_kept _ _ _ _ _ _ _ _ h0 fun d hd => ?_
  split
  · rename_i hl _
    refine kept_ite_snd _ _ _ _ hd (kept_ite_snd _ _ _ _ hd ?_)
    refine ⟨hd.1, hb d.otp _ _ _ _ ?_ hd.2⟩
    constructor <;> simp
  · exact hd

@[simp] theorem Dev.unlockLockoutExpiry_kept (o : Keep) (a0 : Dev) (h0 : Kept o a0) : Kept o (@Dev.unlockLockoutExpiry a0) := by
  simp (maxDischargeDepth := 20) +contextual [Dev.unlockLockoutExpiry, *]

@[simp] theorem Dev.eraseDomain_kept (o : Keep) (a0 : Dev) (a1) (a2) (h0 : Kept o a0) : Kept o (@Dev.eraseDomain a0 a1 a2) := by
  simp (maxDischargeDepth := 20) +contextual [Dev.eraseDomain, *]

@[simp] theorem Dev.getCertificate_kept (o : Keep) (a0 : Dev) (a1) (a2) (a3) (a4) (h0 : Kept o a0) : Kept o (@Dev.getCertificate a0 a1 a2 a3 a4) := by
  simp (maxDischargeDepth := 20) +contextual [Dev.getCertificate, *]

@[simp] theorem Dev.eraseInvalidationDone_kept (o : Keep) (a0 : Dev) (a1) (h0 : Kept o a0) : Kept o (@Dev.eraseInvalidationDone a0 a1) := by
  unfold Dev.eraseInvalidationDone
  repeat' first | assumption | intro _ | with_reducible apply kept_ite | with_reducible apply kept_forAll | with_reducible apply kept_foldl | with_reducible apply kept_when | with_reducible apply kept_foldl_fst | with_reducible apply kept_ite_fst | with_reducible apply kept_ite_snd | with_reducible apply Dev.dropDomain_kept | with_reducible apply forAll_kept | with_reducible apply Dev.rollBack_kept | with_reducible apply Dev.setKd_kept | with_reducible apply Dev.keyReply_kept | with_reducible apply Dev.keyPump_kept | (simp only [kept_mk, keptMem_dev]; done) | split | (simp only [kept_mk, keptMem_dev])

@[simp] theorem Dev.debugScopeExpiry_kept (o : Keep) (a0 : Dev) (h0 : Kept o a0) : Kept o (@Dev.debugScopeExpiry a0) := by
  simp (maxDischargeDepth := 20) +contextual [Dev.debugScopeExpiry, *]

@[simp] theorem Dev.retireDomain_kept (o : Keep) (a0 : Dev) (a1) (a2) (h0 : Kept o a0) : Kept o (@Dev.retireDomain a0 a1 a2) := by
  simp (maxDischargeDepth := 20) +contextual [Dev.retireDomain, *]

@[simp] theorem Dev.deliverEncapsulatedResponse_kept (o : Keep) (a0 : Dev) (a1) (a2) (a3) (h0 : Kept o a0) : Kept o (@Dev.deliverEncapsulatedResponse a0 a1 a2 a3) := by
  unfold Dev.deliverEncapsulatedResponse
  repeat' first | assumption | intro _ | with_reducible apply kept_ite | with_reducible apply kept_forAll | with_reducible apply kept_foldl | with_reducible apply kept_when | with_reducible apply kept_foldl_fst | with_reducible apply kept_ite_fst | with_reducible apply kept_ite_snd | with_reducible apply Dev.handshake_kept | with_reducible apply Dev.emit_kept | with_reducible apply Dev.setSession_kept | with_reducible apply Dev.raise_kept | with_reducible apply Dev.dropSession_kept | (simp only [kept_mk, keptMem_dev]; done) | split | (simp only [kept_mk, keptMem_dev])

@[simp] theorem Dev.relock_kept (o : Keep) (a0 : Dev) (a1) (a2) (h0 : Kept o a0) : Kept o (@Dev.relock a0 a1 a2) := by
  simp (maxDischargeDepth := 20) +contextual [Dev.relock, *]

@[simp] theorem Dev.challenge_kept (o : Keep) (a0 : Dev) (a1) (a2) (a3) (h0 : Kept o a0) : Kept o (@Dev.challenge a0 a1 a2 a3) := by
  simp (maxDischargeDepth := 20) +contextual [Dev.challenge, *]

@[simp] theorem Dev.getCapabilities_kept (o : Keep) (a0 : Dev) (a1) (h0 : Kept o a0) : Kept o (@Dev.getCapabilities a0 a1) := by
  simp (maxDischargeDepth := 20) +contextual [Dev.getCapabilities, *]

@[simp] theorem Dev.getChallenge_kept (o : Keep) (a0 : Dev) (a1) (a2) (h0 : Kept o a0) : Kept o (@Dev.getChallenge a0 a1 a2) := by
  simp (maxDischargeDepth := 20) +contextual [Dev.getChallenge, *]

@[simp] theorem Dev.getEncapsulatedRequest_kept (o : Keep) (a0 : Dev) (a1) (h0 : Kept o a0) : Kept o (@Dev.getEncapsulatedRequest a0 a1) := by
  simp (maxDischargeDepth := 20) +contextual [Dev.getEncapsulatedRequest, *]

@[simp] theorem Dev.heartbeat_kept (o : Keep) (a0 : Dev) (a1) (h0 : Kept o a0) : Kept o (@Dev.heartbeat a0 a1) := by
  simp (maxDischargeDepth := 20) +contextual [Dev.heartbeat, *]

@[simp] theorem Dev.getMeasurements_kept (o : Keep) (a0 : Dev) (a1) (a2) (h0 : Kept o a0) : Kept o (@Dev.getMeasurements a0 a1 a2) := by
  simp (maxDischargeDepth := 20) +contextual [Dev.getMeasurements, *]

@[simp] theorem Dev.keyExchange_kept (o : Keep) (a0 : Dev) (a1) (h0 : Kept o a0) : Kept o (@Dev.keyExchange a0 a1) := by
  simp (maxDischargeDepth := 20) +contextual [Dev.keyExchange, *]

@[simp] theorem Dev.setCertificate_kept (o : Keep) (a0 : Dev) (a1) (a2) (a3) (h0 : Kept o a0) : Kept o (@Dev.setCertificate a0 a1 a2 a3) := by
  simp (maxDischargeDepth := 20) +contextual [Dev.setCertificate, *]

@[simp] theorem Dev.revokeVendorKey_kept (o : Keep) (a0 : Dev) (a1) (a2) (hb : o.Burns) (h0 : Kept o a0) : Kept o (@Dev.revokeVendorKey a0 a1 a2) := by
  unfold Dev.revokeVendorKey
  refine Dev.secMessage_kept _ _ _ _ _ _ _ _ h0 fun d hd => ?_
  extract_lets k j key
  refine kept_ite_snd _ _ _ _ hd (kept_ite_snd _ _ _ _ hd (kept_ite_snd _ _ _ _ hd ?_))
  apply Dev.raise_kept
  refine ⟨hd.1, hb d.otp _ _ _ _ ⟨Or.inl rfl, ?_, List.prefix_rfl, rfl, rfl, rfl, rfl, rfl, rfl, rfl⟩ hd.2⟩
  ext i
  simp
  tauto

@[simp] theorem Dev.postQueue_kept (o : Keep) (a0 : Dev) (a1) (h0 : Kept o a0) : Kept o (@Dev.postQueue a0 a1) := by
  induction a1 generalizing a0 with
  | nil => exact h0
  | cons x xs ih =>
    obtain ⟨k, l, r⟩ := x
    unfold Dev.postQueue
    have hc := Dev.post_kept o a0 k l r h0
    split
    rename_i d x h
    rw [h] at hc
    exact ih _ (kept_foldl _ _ _ _ hc fun d x hd => Dev.raise1_kept _ _ _ _ hd)

@[simp] theorem Dev.deliverQueue_kept (o : Keep) (a0 : Dev) (h0 : Kept o a0) : Kept o (@Dev.deliverQueue a0) := by
  unfold Dev.deliverQueue
  repeat' first | assumption | intro _ | with_reducible apply kept_ite | with_reducible apply kept_forAll | with_reducible apply kept_foldl | with_reducible apply kept_when | with_reducible apply kept_foldl_fst | with_reducible apply kept_ite_fst | with_reducible apply kept_ite_snd | with_reducible apply Dev.postQueue_kept | with_reducible apply Dev.raise_kept | (simp only [kept_mk, keptMem_dev]; done) | split | (simp only [kept_mk, keptMem_dev])

@[simp] theorem Dev.coresResume_kept (o : Keep) (a0 : Dev) (h0 : Kept o a0) : Kept o (@Dev.coresResume a0) := by
  unfold Dev.coresResume
  refine kept_ite _ _ _ _ h0 (kept_ite _ _ _ _ ?_ ?_)
  · exact Dev.raise_kept _ _ _ _ _ h0
  · extract_lets c d1 d2 d3 gone g d4
    have h1 : Kept o d1 := h0
    clear_value d1
    have h2 : Kept o d2 := kept_forAll _ _ _ _ h1 fun d x hd => kept_ite _ _ _ _ (Dev.setSlotState_kept _ _ _ _ hd) hd
    clear_value d2
    have h3 : Kept o d3 := Dev.rootAgain_kept _ _ (Dev.completeBg_kept _ _ (Dev.deliverQueue_kept _ _ h2))
    clear_value d3
    have h4 : Kept o d4 := kept_forAll _ _ _ _ h3 fun d x hd => Dev.reply_kept _ _ _ _ _ _ hd
    clear_value d4
    exact kept_ite _ _ _ _ (Dev.startPull_kept _ _ h4) h4

@[simp] theorem Dev.coresReset_kept (o : Keep) (a0 : Dev) (h0 : Kept o a0) : Kept o (@Dev.coresReset a0) := by
  unfold Dev.coresReset
  extract_lets recent d d2 unq c3 d3 c4 d4 fr cc d5 co gs d6 co2
  have h2 : Kept o d2 := Dev.setSec_kept _ _ _ (Dev.closeScopes_kept _ _ (Dev.abandonBg_kept _ _ (Dev.abandonParts_kept _ _ (Dev.abandonRest_kept _ _ h0))))
  have h3 : Kept o d3 := kept_ite _ _ _ _ h2 h2
  have h4 : Kept o d4 := kept_ite _ _ _ _ (Dev.txnIdle_kept _ _ h3) h3
  have h5 : Kept o d5 := by
    simp only [d5]
    split
    · exact Dev.txnIdle_kept _ _ h4
    · exact Dev.txnIdle_kept _ _ h4
    · exact Dev.freeRuns_kept _ _ _ h4
    · exact h4
  have h6 : Kept o d6 := h5
  exact kept_ite _ _ _ _ (Dev.raise_kept _ _ _ _ _ h6) h6

@[simp] theorem Dev.coreWatchdogExpiry_kept (o : Keep) (a0 : Dev) (h0 : Kept o a0) : Kept o (@Dev.coreWatchdogExpiry a0) := by
  unfold Dev.coreWatchdogExpiry
  repeat' first | assumption | intro _ | with_reducible apply kept_ite | with_reducible apply kept_forAll | with_reducible apply kept_foldl | with_reducible apply kept_when | with_reducible apply kept_foldl_fst | with_reducible apply kept_ite_fst | with_reducible apply kept_ite_snd | with_reducible apply Dev.coresReset_kept | with_reducible apply Dev.raise_kept | (simp only [kept_mk, keptMem_dev]; done) | split | (simp only [kept_mk, keptMem_dev])

@[simp] theorem Dev.uncorrectableFetch_kept (o : Keep) (a0 : Dev) (h0 : Kept o a0) : Kept o (@Dev.uncorrectableFetch a0) := by
  unfold Dev.uncorrectableFetch
  repeat' first | assumption | intro _ | with_reducible apply kept_ite | with_reducible apply kept_forAll | with_reducible apply kept_foldl | with_reducible apply kept_when | with_reducible apply kept_foldl_fst | with_reducible apply kept_ite_fst | with_reducible apply kept_ite_snd | with_reducible apply Dev.coresReset_kept | with_reducible apply Dev.raise_kept | (simp only [kept_mk, keptMem_dev]; done) | split | (simp only [kept_mk, keptMem_dev])

@[simp] theorem Dev.controlComplexReset_kept (o : Keep) (a0 : Dev) (a1) (h0 : Kept o a0) : Kept o (@Dev.controlComplexReset a0 a1) := by
  simp (maxDischargeDepth := 20) +contextual [Dev.controlComplexReset, *]

@[simp] theorem Dev.lockstepMismatch_kept (o : Keep) (a0 : Dev) (h0 : Kept o a0) : Kept o (@Dev.lockstepMismatch a0) := by
  unfold Dev.lockstepMismatch
  repeat' first | assumption | intro _ | with_reducible apply kept_ite | with_reducible apply kept_forAll | with_reducible apply kept_foldl | with_reducible apply kept_when | with_reducible apply kept_foldl_fst | with_reducible apply kept_ite_fst | with_reducible apply kept_ite_snd | with_reducible apply Dev.coresReset_kept | with_reducible apply Dev.raise_kept | (simp only [kept_mk, keptMem_dev]; done) | split | (simp only [kept_mk, keptMem_dev])

end Sys2Proof.Machine
end

