-- ==== Sys2Proof/Laws/KeptPower.lean ====
section
/-! SUPPORT. That power states, clocks, bays, thermal and monitoring keep both byte memories in canonical form and change the OTP only as it may be burnt: one lemma for each
operation that answers a device. -/

namespace Sys2Proof.Machine

open Sys2Proof

set_option linter.unreachableTactic false
set_option linter.unusedTactic false
set_option linter.unusedSimpArgs false

@[simp] theorem Dev.noteRefuser_kept (o : Keep) (a0 : Dev) (a1) (a2) (a3) (h0 : Kept o a0) : Kept o (@Dev.noteRefuser a0 a1 a2 a3) := by
  simp +contextual [Dev.noteRefuser, *]

@[simp] theorem Dev.refuseEntry_kept (o : Keep) (a0 : Dev) (a1) (a2) (a3) (a4) (h0 : Kept o a0) : Kept o (@Dev.refuseEntry a0 a1 a2 a3 a4) := by
  unfold Dev.refuseEntry
  repeat' first | assumption | intro _ | split | with_reducible apply kept_forAll | with_reducible apply kept_foldl | with_reducible apply kept_when | with_reducible apply kept_foldl_fst | with_reducible apply kept_ite | with_reducible apply kept_ite_fst | with_reducible apply Dev.noteRefuser_kept | with_reducible apply Dev.setPwr_kept | with_reducible apply Dev.raiseI_kept | (simp only [kept_mk, keptMem_dev])

@[simp] theorem Dev.quiesceTimeout_kept (o : Keep) (a0 : Dev) (h0 : Kept o a0) : Kept o (@Dev.quiesceTimeout a0) := by
  unfold Dev.quiesceTimeout
  repeat' first | assumption | intro _ | split | with_reducible apply kept_forAll | with_reducible apply kept_foldl | with_reducible apply kept_when | with_reducible apply kept_foldl_fst | with_reducible apply kept_ite | with_reducible apply kept_ite_fst | with_reducible apply Dev.refuseEntry_kept | with_reducible apply Dev.raise_kept | (simp only [kept_mk, keptMem_dev])

@[simp] theorem Dev.exitTimes_kept (o : Keep) (a0 : Dev) (h0 : Kept o a0) : Kept o (@Dev.exitTimes a0) := by
  simp +contextual only [Dev.exitTimes]
  (repeat' split) <;> simp +contextual [*]

@[simp] theorem Dev.setRail_kept (o : Keep) (a0 : Dev) (a1) (a2) (h0 : Kept o a0) : Kept o (@Dev.setRail a0 a1 a2) := by
  simp +contextual [Dev.setRail, *]

@[simp] theorem Dev.endHeadRest_kept (o : Keep) (a0 : Dev) (a1) (h0 : Kept o a0) : Kept o (@Dev.endHeadRest a0 a1) := by
  unfold Dev.endHeadRest
  repeat' first | assumption | intro _ | with_reducible apply kept_ite | with_reducible apply kept_forAll | with_reducible apply kept_foldl | with_reducible apply kept_when | with_reducible apply kept_foldl_fst | with_reducible apply kept_ite_fst | with_reducible apply kept_ite_snd | with_reducible apply Dev.setHead_kept | with_reducible apply Dev.wake_kept | (simp only [kept_mk, keptMem_dev]; done) | split | (simp only [kept_mk, keptMem_dev])

@[simp] theorem Dev.sleepReplyTimeout_kept (o : Keep) (a0 : Dev) (h0 : Kept o a0) : Kept o (@Dev.sleepReplyTimeout a0) := by
  unfold Dev.sleepReplyTimeout
  repeat' first | assumption | intro _ | with_reducible apply kept_ite | with_reducible apply kept_forAll | with_reducible apply kept_foldl | with_reducible apply kept_when | with_reducible apply kept_foldl_fst | with_reducible apply kept_ite_fst | with_reducible apply kept_ite_snd | with_reducible apply Dev.refuseEntry_kept | with_reducible apply Dev.setPort_kept | (simp only [kept_mk, keptMem_dev]; done) | split | (simp only [kept_mk, keptMem_dev])

@[simp] theorem Dev.countGate_kept (o : Keep) (a0 : Dev) (a1) (h0 : Kept o a0) : Kept o (@Dev.countGate a0 a1) := by
  unfold Dev.countGate
  repeat' first | assumption | intro _ | with_reducible apply kept_ite | with_reducible apply kept_forAll | with_reducible apply kept_foldl | with_reducible apply kept_when | with_reducible apply kept_foldl_fst | with_reducible apply kept_ite_fst | with_reducible apply kept_ite_snd | with_reducible apply Dev.raise_kept | (simp only [kept_mk, keptMem_dev]; done) | split | (simp only [kept_mk, keptMem_dev])

@[simp] theorem Dev.endRest_kept (o : Keep) (a0 : Dev) (a1) (a2) (a3) (h0 : Kept o a0) : Kept o (@Dev.endRest a0 a1 a2 a3) := by
  unfold Dev.endRest
  repeat' first | assumption | intro _ | with_reducible apply kept_ite | with_reducible apply kept_forAll | with_reducible apply kept_foldl | with_reducible apply kept_when | with_reducible apply kept_foldl_fst | with_reducible apply kept_ite_fst | with_reducible apply kept_ite_snd | with_reducible apply Dev.finishBg_kept | (simp only [kept_mk, keptMem_dev]; done) | split | (simp only [kept_mk, keptMem_dev])

@[simp] theorem Dev.guestUp_kept (o : Keep) (a0 : Dev) (h0 : Kept o a0) : Kept o (@Dev.guestUp a0) := by
  unfold Dev.guestUp
  repeat' first | assumption | intro _ | with_reducible apply kept_ite | with_reducible apply kept_forAll | with_reducible apply kept_foldl | with_reducible apply kept_when | with_reducible apply kept_foldl_fst | with_reducible apply kept_ite_fst | with_reducible apply kept_ite_snd | with_reducible apply forAll_kept | with_reducible apply Dev.setMod_kept | with_reducible apply Dev.emit_kept | (simp only [kept_mk, keptMem_dev]; done) | split | (simp only [kept_mk, keptMem_dev])

@[simp] theorem Dev.askSleep_kept (o : Keep) (a0 : Dev) (a1) (h0 : Kept o a0) : Kept o (@Dev.askSleep a0 a1) := by
  simp (maxDischargeDepth := 20) +contextual [Dev.askSleep, *]

@[simp] theorem Dev.reachState_kept (o : Keep) (a0 : Dev) (h0 : Kept o a0) : Kept o (@Dev.reachState a0) := by
  simp (maxDischargeDepth := 20) +contextual [Dev.reachState, *]

@[simp] theorem Dev.endStep_kept (o : Keep) (a0 : Dev) (a1) (h0 : Kept o a0) : Kept o (@Dev.endStep a0 a1) := by
  unfold Dev.endStep
  repeat' first | assumption | intro _ | with_reducible apply kept_ite | with_reducible apply kept_forAll | with_reducible apply kept_foldl | with_reducible apply kept_when | with_reducible apply kept_foldl_fst | with_reducible apply kept_ite_fst | with_reducible apply kept_ite_snd | with_reducible apply Dev.refuseEntry_kept | with_reducible apply Dev.countGate_kept | with_reducible apply Dev.setPwr_kept | (simp only [kept_mk, keptMem_dev]; done) | split | (simp only [kept_mk, keptMem_dev])

@[simp] theorem Dev.sleepLinks_kept (o : Keep) (a0 : Dev) (h0 : Kept o a0) : Kept o (@Dev.sleepLinks a0) := by
  simp (maxDischargeDepth := 20) +contextual [Dev.sleepLinks, *]

@[simp] theorem Dev.beginStep_kept (o : Keep) (a0 : Dev) (a1) (a2) (h0 : Kept o a0) : Kept o (@Dev.beginStep a0 a1 a2) := by
  unfold Dev.beginStep
  extract_lets gate calm
  have hg : ∀ d k, Kept o d → (∀ d, Kept o d → Kept o (k d)) → Kept o (gate d k) := by
    intro d k hd hk
    simp only [gate]
    split
    · simp (maxDischargeDepth := 20) [*]
    · exact hk _ hd
  have hc : ∀ k, (∀ d, Kept o d → Kept o (k d)) → Kept o (calm k) := by
    intro k hk
    exact kept_ite _ _ _ _ (by simp [*]) (hk _ h0)
  clear_value gate calm
  split
  · split <;> simp (maxDischargeDepth := 20) [*]
  · exact hg _ _ h0 (fun d hd => kept_ite _ _ _ _ (Dev.emit_kept _ _ _ hd) hd)
  · split <;> simp (maxDischargeDepth := 20) +contextual [*]
  · exact hg _ _ h0 (fun d hd => by simp (maxDischargeDepth := 20) +contextual [*])
  · exact hc _ (fun d hd => hd)
  · exact hc _ (fun d hd => by simp (maxDischargeDepth := 20) [*])
  · simp [*]
  · split <;> simp (maxDischargeDepth := 20) [*]
  · exact hc _ (fun d hd => by simp (maxDischargeDepth := 20) [*])
  · exact h0

@[simp] theorem Dev.entryStep_kept (o : Keep) (a0 : Dev) (a1) (h0 : Kept o a0) : Kept o (@Dev.entryStep a0 a1) := by
  simp (maxDischargeDepth := 20) +contextual [Dev.entryStep, *]

@[simp] theorem Dev.entryRetry_kept (o : Keep) (a0 : Dev) (h0 : Kept o a0) : Kept o (@Dev.entryRetry a0) := by
  simp (maxDischargeDepth := 20) +contextual [Dev.entryRetry, *]

@[simp] theorem Dev.ready_kept (o : Keep) (a0 : Dev) (h0 : Kept o a0) : Kept o (@Dev.ready a0) := by
  unfold Dev.ready
  repeat' first | assumption | intro _ | with_reducible apply kept_ite | with_reducible apply kept_forAll | with_reducible apply kept_foldl | with_reducible apply kept_when | with_reducible apply kept_foldl_fst | with_reducible apply kept_ite_fst | with_reducible apply kept_ite_snd  | (simp only [kept_mk, keptMem_dev]; done) | split | (simp only [kept_mk, keptMem_dev])

@[simp] theorem Dev.wakeDone_kept (o : Keep) (a0 : Dev) (h0 : Kept o a0) : Kept o (@Dev.wakeDone a0) := by
  simp (maxDischargeDepth := 20) +contextual [Dev.wakeDone, *]

@[simp] theorem Dev.ungate_kept (o : Keep) (a0 : Dev) (a1) (a2) (h0 : Kept o a0) (h2 : ∀ y0, Kept o y0 → Kept o (a2 y0)) : Kept o (@Dev.ungate a0 a1 a2) := by
  simp (maxDischargeDepth := 20) +contextual [Dev.ungate, *]

@[simp] theorem Dev.wakeLink_kept (o : Keep) (a0 : Dev) (a1) (h0 : Kept o a0) : Kept o (@Dev.wakeLink a0 a1) := by
  simp (maxDischargeDepth := 20) +contextual [Dev.wakeLink, *]

@[simp] theorem Dev.undoStep_kept (o : Keep) (a0 : Dev) (h0 : Kept o a0) : Kept o (@Dev.undoStep a0) := by
  simp +contextual only [Dev.undoStep]
  (repeat' split) <;> simp (maxDischargeDepth := 20) +contextual [*]

@[simp] theorem Dev.wakeStep_kept (o : Keep) (a0 : Dev) (h0 : Kept o a0) : Kept o (@Dev.wakeStep a0) := by
  simp (maxDischargeDepth := 20) +contextual [Dev.wakeStep, *]

@[simp] theorem Dev.getPowerStatus_kept (o : Keep) (a0 : Dev) (a1) (a2) (h0 : Kept o a0) : Kept o (@Dev.getPowerStatus a0 a1 a2) := by
  simp (maxDischargeDepth := 20) +contextual [Dev.getPowerStatus, *]

@[simp] theorem Dev.hsWaitExpiry_kept (o : Keep) (a0 : Dev) (h0 : Kept o a0) : Kept o (@Dev.hsWaitExpiry a0) := by
  unfold Dev.hsWaitExpiry
  repeat' first | assumption | intro _ | with_reducible apply kept_ite | with_reducible apply kept_forAll | with_reducible apply kept_foldl | with_reducible apply kept_when | with_reducible apply kept_foldl_fst | with_reducible apply kept_ite_fst | with_reducible apply kept_ite_snd | with_reducible apply Dev.refuseEntry_kept | (simp only [kept_mk, keptMem_dev]; done) | split | (simp only [kept_mk, keptMem_dev])

@[simp] theorem Dev.activationWake_kept (o : Keep) (a0 : Dev) (h0 : Kept o a0) : Kept o (@Dev.activationWake a0) := by
  unfold Dev.activationWake
  repeat' first | assumption | intro _ | with_reducible apply kept_ite | with_reducible apply kept_forAll | with_reducible apply kept_foldl | with_reducible apply kept_when | with_reducible apply kept_foldl_fst | with_reducible apply kept_ite_fst | with_reducible apply kept_ite_snd | with_reducible apply Dev.wake_kept | (simp only [kept_mk, keptMem_dev]; done) | split | (simp only [kept_mk, keptMem_dev])

@[simp] theorem Dev.reentryIdleExpiry_kept (o : Keep) (a0 : Dev) (h0 : Kept o a0) : Kept o (@Dev.reentryIdleExpiry a0) := by
  simp (maxDischargeDepth := 20) +contextual [Dev.reentryIdleExpiry, *]

@[simp] theorem Dev.guestWake_kept (o : Keep) (a0 : Dev) (h0 : Kept o a0) : Kept o (@Dev.guestWake a0) := by
  simp (maxDischargeDepth := 20) +contextual [Dev.guestWake, *]

@[simp] theorem Dev.cancelRest_kept (o : Keep) (a0 : Dev) (a1) (a2) (h0 : Kept o a0) : Kept o (@Dev.cancelRest a0 a1 a2) := by
  unfold Dev.cancelRest
  repeat' first | assumption | intro _ | with_reducible apply kept_ite | with_reducible apply kept_forAll | with_reducible apply kept_foldl | with_reducible apply kept_when | with_reducible apply kept_foldl_fst | with_reducible apply kept_ite_fst | with_reducible apply kept_ite_snd | with_reducible apply Dev.gated_kept | with_reducible apply Dev.vend_kept | with_reducible apply Dev.reply_kept | with_reducible apply Dev.endHeadRest_kept | (simp only [kept_mk, keptMem_dev]; done) | split | (simp only [kept_mk, keptMem_dev])

@[simp] theorem Dev.restBoundary_kept (o : Keep) (a0 : Dev) (h0 : Kept o a0) : Kept o (@Dev.restBoundary a0) := by
  unfold Dev.restBoundary
  extract_lets d1 t d2 p low
  have h1 : Kept o d1 := Dev.setPwr_kept _ _ _ h0
  clear_value d1
  have h2 : Kept o d2 := Dev.setPwr_kept _ _ _ h1
  clear_value d2
  simp (maxDischargeDepth := 20) [*]

@[simp] theorem Dev.wakeSource_kept (o : Keep) (a0 : Dev) (a1) (a2) (h0 : Kept o a0) : Kept o (@Dev.wakeSource a0 a1 a2) := by
  simp (maxDischargeDepth := 20) +contextual [Dev.wakeSource, *]

@[simp] theorem Dev.requestRest_kept (o : Keep) (a0 : Dev) (a1) (a2) (h0 : Kept o a0) : Kept o (@Dev.requestRest a0 a1 a2) := by
  unfold Dev.requestRest
  repeat' first | assumption | intro _ | with_reducible apply kept_ite | with_reducible apply kept_forAll | with_reducible apply kept_foldl | with_reducible apply kept_when | with_reducible apply kept_foldl_fst | with_reducible apply kept_ite_fst | with_reducible apply kept_ite_snd | with_reducible apply Dev.gated_kept | with_reducible apply Dev.vend_kept | with_reducible apply Dev.reply_kept | with_reducible apply Dev.setHead_kept | with_reducible apply Dev.startBg_kept | (simp only [kept_mk, keptMem_dev]; done) | split | (simp only [kept_mk, keptMem_dev])

@[simp] theorem Dev.refuse_kept (o : Keep) (a0 : Dev) (h0 : Kept o a0) : Kept o (@Dev.refuse a0) := by
  unfold Dev.refuse
  repeat' first | assumption | intro _ | with_reducible apply kept_ite | with_reducible apply kept_forAll | with_reducible apply kept_foldl | with_reducible apply kept_when | with_reducible apply kept_foldl_fst | with_reducible apply kept_ite_fst | with_reducible apply kept_ite_snd | with_reducible apply Dev.refuseEntry_kept | (simp only [kept_mk, keptMem_dev]; done) | split | (simp only [kept_mk, keptMem_dev])

@[simp] theorem Dev.setClk_kept (o : Keep) (a0 : Dev) (a1) (h0 : Kept o a0) : Kept o (@Dev.setClk a0 a1) := by
  simp +contextual [Dev.setClk, *]

@[simp] theorem Dev.setRails_kept (o : Keep) (a0 : Dev) (a1) (h0 : Kept o a0) : Kept o (@Dev.setRails a0 a1) := by
  simp (maxDischargeDepth := 20) +contextual [Dev.setRails, *]

@[simp] theorem Dev.moveRails_kept (o : Keep) (a0 : Dev) (a1) (a2) (h0 : Kept o a0) : Kept o (@Dev.moveRails a0 a1 a2) := by
  simp (maxDischargeDepth := 20) +contextual [Dev.moveRails, *]

@[simp] theorem Dev.startOp_kept (o : Keep) (a0 : Dev) (a1) (h0 : Kept o a0) : Kept o (@Dev.startOp a0 a1) := by
  simp (maxDischargeDepth := 20) +contextual [Dev.startOp, *]

@[simp] theorem Dev.opSequenceFault_kept (o : Keep) (a0 : Dev) (a1) (a2) (h0 : Kept o a0) : Kept o (@Dev.opSequenceFault a0 a1 a2) := by
  simp (maxDischargeDepth := 20) +contextual [Dev.opSequenceFault, *]

@[simp] theorem Dev.pllLocked_kept (o : Keep) (a0 : Dev) (a1) (h0 : Kept o a0) : Kept o (@Dev.pllLocked a0 a1) := by
  simp +contextual [Dev.pllLocked, *]

@[simp] theorem Dev.setRef_kept (o : Keep) (a0 : Dev) (a1) (h0 : Kept o a0) : Kept o (@Dev.setRef a0 a1) := by
  unfold Dev.setRef
  repeat' first | assumption | intro _ | with_reducible apply kept_ite | with_reducible apply kept_forAll | with_reducible apply kept_foldl | with_reducible apply kept_when | with_reducible apply kept_foldl_fst | with_reducible apply kept_ite_fst | with_reducible apply kept_ite_snd | with_reducible apply Dev.raiseI_kept | with_reducible apply Dev.setClk_kept | (simp only [kept_mk, keptMem_dev]; done) | split | (simp only [kept_mk, keptMem_dev])

@[simp] theorem Dev.chooseRef_kept (o : Keep) (a0 : Dev) (h0 : Kept o a0) : Kept o (@Dev.chooseRef a0) := by
  simp +contextual [Dev.chooseRef, *]

@[simp] theorem Dev.setMon_kept (o : Keep) (a0 : Dev) (a1) (a2) (h0 : Kept o a0) : Kept o (@Dev.setMon a0 a1 a2) := by
  simp +contextual [Dev.setMon, *]

@[simp] theorem Dev.drainLedger_kept (o : Keep) (a0 : Dev) (h0 : Kept o a0) : Kept o (@Dev.drainLedger a0) := by
  unfold Dev.drainLedger
  repeat' first | assumption | intro _ | with_reducible apply kept_ite | with_reducible apply kept_forAll | with_reducible apply kept_foldl | with_reducible apply kept_when | with_reducible apply kept_foldl_fst | with_reducible apply kept_ite_fst | with_reducible apply kept_ite_snd | with_reducible apply forAll_kept | with_reducible apply Dev.journal_kept | with_reducible apply Dev.raise1_kept | (simp only [kept_mk, keptMem_dev]; done) | split | (simp only [kept_mk, keptMem_dev])

@[simp] theorem Dev.setSup_kept (o : Keep) (a0 : Dev) (a1) (h0 : Kept o a0) : Kept o (@Dev.setSup a0 a1) := by
  simp (maxDischargeDepth := 20) +contextual [Dev.setSup, *]

@[simp] theorem Dev.opEnd_kept (o : Keep) (a0 : Dev) (h0 : Kept o a0) : Kept o (@Dev.opEnd a0) := by
  simp (maxDischargeDepth := 20) +contextual [Dev.opEnd, *]

@[simp] theorem Dev.opSwitch_kept (o : Keep) (a0 : Dev) (h0 : Kept o a0) : Kept o (@Dev.opSwitch a0) := by
  simp (maxDischargeDepth := 20) +contextual [Dev.opSwitch, *]

@[simp] theorem Dev.opBoundary_kept (o : Keep) (a0 : Dev) (h0 : Kept o a0) : Kept o (@Dev.opBoundary a0) := by
  simp (maxDischargeDepth := 20) +contextual [Dev.opBoundary, *]

@[simp] theorem Dev.railBoundary_kept (o : Keep) (a0 : Dev) (a1) (h0 : Kept o a0) : Kept o (@Dev.railBoundary a0 a1) := by
  unfold Dev.railBoundary
  repeat' first | assumption | intro _ | with_reducible apply kept_ite | with_reducible apply kept_forAll | with_reducible apply kept_foldl | with_reducible apply kept_when | with_reducible apply kept_foldl_fst | with_reducible apply kept_ite_fst | with_reducible apply kept_ite_snd | with_reducible apply forAll_kept | with_reducible apply Dev.setSup_kept | (simp only [kept_mk, keptMem_dev]; done) | split | (simp only [kept_mk, keptMem_dev])

@[simp] theorem Dev.clkoutBoundary_kept (o : Keep) (a0 : Dev) (h0 : Kept o a0) : Kept o (@Dev.clkoutBoundary a0) := by
  unfold Dev.clkoutBoundary
  repeat' first | assumption | intro _ | with_reducible apply kept_ite | with_reducible apply kept_forAll | with_reducible apply kept_foldl | with_reducible apply kept_when | with_reducible apply kept_foldl_fst | with_reducible apply kept_ite_fst | with_reducible apply kept_ite_snd | with_reducible apply Dev.setClk_kept | (simp only [kept_mk, keptMem_dev]; done) | split | (simp only [kept_mk, keptMem_dev])

@[simp] theorem Dev.clockBoundary_kept (o : Keep) (a0 : Dev) (h0 : Kept o a0) : Kept o (@Dev.clockBoundary a0) := by
  unfold Dev.clockBoundary
  repeat' first | assumption | intro _ | with_reducible apply kept_ite | with_reducible apply kept_forAll | with_reducible apply kept_foldl | with_reducible apply kept_when | with_reducible apply kept_foldl_fst | with_reducible apply kept_ite_fst | with_reducible apply kept_ite_snd | with_reducible apply Dev.setClk_kept | with_reducible apply Dev.setMon_kept | with_reducible apply forAll_kept | with_reducible apply Dev.chooseRef_kept | (simp only [kept_mk, keptMem_dev]; done) | split | (simp only [kept_mk, keptMem_dev])

@[simp] theorem Dev.resumeRaise_kept (o : Keep) (a0 : Dev) (h0 : Kept o a0) : Kept o (@Dev.resumeRaise a0) := by
  simp (maxDischargeDepth := 20) +contextual [Dev.resumeRaise, *]

@[simp] theorem Dev.railOvervoltage_kept (o : Keep) (a0 : Dev) (a1) (a2) (a3) (h0 : Kept o a0) : Kept o (@Dev.railOvervoltage a0 a1 a2 a3) := by
  simp (maxDischargeDepth := 20) +contextual [Dev.railOvervoltage, *]

@[simp] theorem Dev.railPoll_kept (o : Keep) (a0 : Dev) (a1) (a2) (h0 : Kept o a0) : Kept o (@Dev.railPoll a0 a1 a2) := by
  simp (maxDischargeDepth := 20) +contextual [Dev.railPoll, *]

@[simp] theorem Dev.sourceSwitchStopTimeout_kept (o : Keep) (a0 : Dev) (a1) (a2) (h0 : Kept o a0) : Kept o (@Dev.sourceSwitchStopTimeout a0 a1 a2) := by
  simp (maxDischargeDepth := 20) +contextual [Dev.sourceSwitchStopTimeout, *]

@[simp] theorem Dev.rcTrim_kept (o : Keep) (a0 : Dev) (a1) (h0 : Kept o a0) : Kept o (@Dev.rcTrim a0 a1) := by
  unfold Dev.rcTrim
  repeat' first | assumption | intro _ | with_reducible apply kept_ite | with_reducible apply kept_forAll | with_reducible apply kept_foldl | with_reducible apply kept_when | with_reducible apply kept_foldl_fst | with_reducible apply kept_ite_fst | with_reducible apply kept_ite_snd | with_reducible apply forAll_kept | with_reducible apply Dev.setClk_kept | with_reducible apply Dev.raise_kept | (simp only [kept_mk, keptMem_dev]; done) | split | (simp only [kept_mk, keptMem_dev])

@[simp] theorem Dev.braceEnd_kept (o : Keep) (a0 : Dev) (h0 : Kept o a0) : Kept o (@Dev.braceEnd a0) := by
  simp (maxDischargeDepth := 20) +contextual [Dev.braceEnd, *]

@[simp] theorem Dev.failover_kept (o : Keep) (a0 : Dev) (a1) (h0 : Kept o a0) : Kept o (@Dev.failover a0 a1) := by
  unfold Dev.failover
  repeat' first | assumption | intro _ | with_reducible apply kept_ite | with_reducible apply kept_forAll | with_reducible apply kept_foldl | with_reducible apply kept_when | with_reducible apply kept_foldl_fst | with_reducible apply kept_ite_fst | with_reducible apply kept_ite_snd | with_reducible apply Dev.setClk_kept | with_reducible apply Dev.raise_kept | (simp only [kept_mk, keptMem_dev]; done) | split | (simp only [kept_mk, keptMem_dev])

@[simp] theorem Dev.clockBad_kept (o : Keep) (a0 : Dev) (a1) (h0 : Kept o a0) : Kept o (@Dev.clockBad a0 a1) := by
  simp (maxDischargeDepth := 20) +contextual [Dev.clockBad, *]

@[simp] theorem Dev.warningCrossing_kept (o : Keep) (a0 : Dev) (a1) (a2) (h0 : Kept o a0) : Kept o (@Dev.warningCrossing a0 a1 a2) := by
  simp (maxDischargeDepth := 20) +contextual [Dev.warningCrossing, *]

@[simp] theorem Dev.gateRefusalTimeout_kept (o : Keep) (a0 : Dev) (a1) (h0 : Kept o a0) : Kept o (@Dev.gateRefusalTimeout a0 a1) := by
  simp (maxDischargeDepth := 20) +contextual [Dev.gateRefusalTimeout, *]

@[simp] theorem Dev.clockMonitorWindow_kept (o : Keep) (a0 : Dev) (a1) (a2) (h0 : Kept o a0) : Kept o (@Dev.clockMonitorWindow a0 a1 a2) := by
  simp (maxDischargeDepth := 20) +contextual [Dev.clockMonitorWindow, *]

@[simp] theorem Dev.clkoutConfiguration_kept (o : Keep) (a0 : Dev) (a1) (a2) (h0 : Kept o a0) : Kept o (@Dev.clkoutConfiguration a0 a1 a2) := by
  simp (maxDischargeDepth := 20) +contextual [Dev.clkoutConfiguration, *]

@[simp] theorem Dev.bayRanksOff_kept (o : Keep) (a0 : Dev) (a1) (h0 : Kept o a0) : Kept o (@Dev.bayRanksOff a0 a1) := by
  simp +contextual [Dev.bayRanksOff, *]

@[simp] theorem Dev.bayEvent_kept (o : Keep) (a0 : Dev) (a1) (a2) (h0 : Kept o a0) : Kept o (@Dev.bayEvent a0 a1 a2) := by
  simp +contextual [Dev.bayEvent, *]

@[simp] theorem Dev.faultRetry_kept (o : Keep) (a0 : Dev) (a1) (a2) (h0 : Kept o a0) : Kept o (@Dev.faultRetry a0 a1 a2) := by
  simp (maxDischargeDepth := 20) +contextual [Dev.faultRetry, *]

@[simp] theorem Dev.faultTimerExpiry_kept (o : Keep) (a0 : Dev) (a1) (h0 : Kept o a0) : Kept o (@Dev.faultTimerExpiry a0 a1) := by
  simp (maxDischargeDepth := 20) +contextual [Dev.faultTimerExpiry, *]

@[simp] theorem Dev.retryTimerExpiry_kept (o : Keep) (a0 : Dev) (a1) (h0 : Kept o a0) : Kept o (@Dev.retryTimerExpiry a0 a1) := by
  unfold Dev.retryTimerExpiry
  repeat' first | assumption | intro _ | with_reducible apply kept_ite | with_reducible apply kept_forAll | with_reducible apply kept_foldl | with_reducible apply kept_when | with_reducible apply kept_foldl_fst | with_reducible apply kept_ite_fst | with_reducible apply kept_ite_snd | with_reducible apply Dev.setBay_kept | (simp only [kept_mk, keptMem_dev]; done) | split | (simp only [kept_mk, keptMem_dev])

@[simp] theorem Dev.queueBay_kept (o : Keep) (a0 : Dev) (a1) (h0 : Kept o a0) : Kept o (@Dev.queueBay a0 a1) := by
  simp (maxDischargeDepth := 20) +contextual [Dev.queueBay, *]

@[simp] theorem Dev.bayBoundary_kept (o : Keep) (a0 : Dev) (a1) (a2) (h0 : Kept o a0) : Kept o (@Dev.bayBoundary a0 a1 a2) := by
  simp (maxDischargeDepth := 20) +contextual [Dev.bayBoundary, *]

@[simp] theorem Dev.fastTrip_kept (o : Keep) (a0 : Dev) (a1) (h0 : Kept o a0) : Kept o (@Dev.fastTrip a0 a1) := by
  simp (maxDischargeDepth := 20) +contextual [Dev.fastTrip, *]

@[simp] theorem Dev.latchBay_kept (o : Keep) (a0 : Dev) (a1) (a2) (a3) (h0 : Kept o a0) : Kept o (@Dev.latchBay a0 a1 a2 a3) := by
  simp (maxDischargeDepth := 20) +contextual [Dev.latchBay, *]

@[simp] theorem Dev.rampLimitExpiry_kept (o : Keep) (a0 : Dev) (a1) (h0 : Kept o a0) : Kept o (@Dev.rampLimitExpiry a0 a1) := by
  simp (maxDischargeDepth := 20) +contextual [Dev.rampLimitExpiry, *]

@[simp] theorem Dev.bayPower_kept (o : Keep) (a0 : Dev) (a1) (a2) (a3) (h0 : Kept o a0) (h3 : ∀ y0 y1, Kept o y0 → Kept o (a3 y0 y1)) : Kept o (@Dev.bayPower a0 a1 a2 a3) := by
  simp (maxDischargeDepth := 20) +contextual [Dev.bayPower, *]

@[simp] theorem Dev.bayPowerOn_kept (o : Keep) (a0 : Dev) (a1) (a2) (h0 : Kept o a0) : Kept o (@Dev.bayPowerOn a0 a1 a2) := by
  unfold Dev.bayPowerOn
  repeat' first | assumption | intro _ | with_reducible apply kept_ite | with_reducible apply kept_forAll | with_reducible apply kept_foldl | with_reducible apply kept_when | with_reducible apply kept_foldl_fst | with_reducible apply kept_ite_fst | with_reducible apply kept_ite_snd | with_reducible apply Dev.bayPower_kept | with_reducible apply Dev.queueBay_kept | with_reducible apply Dev.reply_kept | (simp only [kept_mk, keptMem_dev]; done) | split | (simp only [kept_mk, keptMem_dev])

@[simp] theorem Dev.bayInsertion_kept (o : Keep) (a0 : Dev) (a1) (a2) (a3) (h0 : Kept o a0) : Kept o (@Dev.bayInsertion a0 a1 a2 a3) := by
  unfold Dev.bayInsertion
  try dsimp only
  repeat' first | assumption | intro _ | with_reducible apply kept_ite | with_reducible apply kept_forAll | with_reducible apply kept_foldl | with_reducible apply kept_when | with_reducible apply kept_foldl_fst | with_reducible apply kept_ite_fst | with_reducible apply kept_ite_snd | with_reducible apply Dev.setBay_kept | with_reducible apply Dev.queueBay_kept | with_reducible apply Dev.raiseI_kept | (simp only [kept_mk, keptMem_dev]; done) | split | (simp only [kept_mk, keptMem_dev]) | (simp_all; done)

@[simp] theorem Dev.bayPowerClear_kept (o : Keep) (a0 : Dev) (a1) (a2) (h0 : Kept o a0) : Kept o (@Dev.bayPowerClear a0 a1 a2) := by
  simp (maxDischargeDepth := 20) +contextual [Dev.bayPowerClear, *]

@[simp] theorem Dev.shortedTransistor_kept (o : Keep) (a0 : Dev) (a1) (h0 : Kept o a0) : Kept o (@Dev.shortedTransistor a0 a1) := by
  simp (maxDischargeDepth := 20) +contextual [Dev.shortedTransistor, *]

@[simp] theorem Dev.bayOutputLow_kept (o : Keep) (a0 : Dev) (a1) (h0 : Kept o a0) : Kept o (@Dev.bayOutputLow a0 a1) := by
  simp (maxDischargeDepth := 20) +contextual [Dev.bayOutputLow, *]

@[simp] theorem Dev.currentLimit_kept (o : Keep) (a0 : Dev) (a1) (h0 : Kept o a0) : Kept o (@Dev.currentLimit a0 a1) := by
  simp (maxDischargeDepth := 20) +contextual [Dev.currentLimit, *]

@[simp] theorem Dev.powerDownGateDelay_kept (o : Keep) (a0 : Dev) (a1) (h0 : Kept o a0) : Kept o (@Dev.powerDownGateDelay a0 a1) := by
  simp (maxDischargeDepth := 20) +contextual [Dev.powerDownGateDelay, *]

@[simp] theorem Dev.retriesClear_kept (o : Keep) (a0 : Dev) (a1) (h0 : Kept o a0) : Kept o (@Dev.retriesClear a0 a1) := by
  simp (maxDischargeDepth := 20) +contextual [Dev.retriesClear, *]

@[simp] theorem Dev.bayRampStart_kept (o : Keep) (a0 : Dev) (a1) (h0 : Kept o a0) : Kept o (@Dev.bayRampStart a0 a1) := by
  simp (maxDischargeDepth := 20) +contextual [Dev.bayRampStart, *]

@[simp] theorem Dev.rampBoundary_kept (o : Keep) (a0 : Dev) (h0 : Kept o a0) : Kept o (@Dev.rampBoundary a0) := by
  unfold Dev.rampBoundary
  repeat' first | assumption | intro _ | with_reducible apply kept_ite | with_reducible apply kept_forAll | with_reducible apply kept_foldl | with_reducible apply kept_when | with_reducible apply kept_foldl_fst | with_reducible apply kept_ite_fst | with_reducible apply kept_ite_snd | with_reducible apply forAll_kept | with_reducible apply Dev.bayRampStart_kept | (simp only [kept_mk, keptMem_dev]; done) | split | (simp only [kept_mk, keptMem_dev])

@[simp] theorem Dev.currentLimitCleared_kept (o : Keep) (a0 : Dev) (a1) (h0 : Kept o a0) : Kept o (@Dev.currentLimitCleared a0 a1) := by
  simp (maxDischargeDepth := 20) +contextual [Dev.currentLimitCleared, *]

@[simp] theorem Dev.powerDown_kept (o : Keep) (a0 : Dev) (a1) (h0 : Kept o a0) : Kept o (@Dev.powerDown a0 a1) := by
  simp (maxDischargeDepth := 20) +contextual [Dev.powerDown, *]

@[simp] theorem Dev.gateNotGood_kept (o : Keep) (a0 : Dev) (a1) (h0 : Kept o a0) : Kept o (@Dev.gateNotGood a0 a1) := by
  simp (maxDischargeDepth := 20) +contextual [Dev.gateNotGood, *]

@[simp] theorem Dev.bayRemoval_kept (o : Keep) (a0 : Dev) (a1) (a2) (h0 : Kept o a0) : Kept o (@Dev.bayRemoval a0 a1 a2) := by
  simp +contextual only [Dev.bayRemoval]
  (repeat' split) <;> simp (maxDischargeDepth := 20) +contextual [*]

@[simp] theorem Dev.bayPowerStatus_kept (o : Keep) (a0 : Dev) (a1) (a2) (h0 : Kept o a0) : Kept o (@Dev.bayPowerStatus a0 a1 a2) := by
  simp (maxDischargeDepth := 20) +contextual [Dev.bayPowerStatus, *]

@[simp] theorem Dev.bayPowerOff_kept (o : Keep) (a0 : Dev) (a1) (a2) (h0 : Kept o a0) : Kept o (@Dev.bayPowerOff a0 a1 a2) := by
  unfold Dev.bayPowerOff
  refine Dev.bayPower_kept _ _ _ _ _ h0 fun d n hd => ?_
  refine kept_ite _ _ _ _ (Dev.reply_kept _ _ _ _ _ _ hd) ?_
  split
  · exact Dev.reply_kept _ _ _ _ _ _ (Dev.setBay_kept _ _ _ _ hd)
  · exact Dev.reply_kept _ _ _ _ _ _ (Dev.setBay_kept _ _ _ _ hd)
  · exact Dev.reply_kept _ _ _ _ _ _ (Dev.setBay_kept _ _ _ _ hd)
  · exact Dev.asBg_kept _ _ _ _ hd fun d hd => Dev.startBg_kept _ _ _ _ _ (Dev.powerDown_kept _ _ _ hd)
  · exact Dev.asBg_kept _ _ _ _ hd fun d hd => Dev.startBg_kept _ _ _ _ _ (Dev.powerDown_kept _ _ _ hd)
  · exact Dev.reply_kept _ _ _ _ _ _ hd
  · exact Dev.reply_kept _ _ _ _ _ _ hd

@[simp] theorem Dev.bayGood_kept (o : Keep) (a0 : Dev) (a1) (h0 : Kept o a0) : Kept o (@Dev.bayGood a0 a1) := by
  unfold Dev.bayGood
  extract_lets s d d2 bad
  have h2 : Kept o d2 := kept_forAll _ _ _ _ (Dev.raiseI_kept _ _ _ _ (Dev.setBay_kept _ _ _ _ h0)) fun _ _ hd => kept_ite _ _ _ _ hd (Dev.channelStart_kept _ _ _ _ _ _ hd)
  exact kept_ite _ _ _ _ h0 (kept_ite _ _ _ _ (Dev.powerDown_kept _ _ _ h2) h2)

@[simp] theorem Dev.rateCheck_kept (o : Keep) (a0 : Dev) (a1) (h0 : Kept o a0) : Kept o (@Dev.rateCheck a0 a1) := by
  unfold Dev.rateCheck
  repeat' first | assumption | intro _ | with_reducible apply kept_ite | with_reducible apply kept_forAll | with_reducible apply kept_foldl | with_reducible apply kept_when | with_reducible apply kept_foldl_fst | with_reducible apply kept_ite_fst | with_reducible apply kept_ite_snd | with_reducible apply Dev.setSens_kept | with_reducible apply Dev.raise_kept | (simp only [kept_mk, keptMem_dev]; done) | split | (simp only [kept_mk, keptMem_dev])

@[simp] theorem Dev.sensorFail_kept (o : Keep) (a0 : Dev) (a1) (h0 : Kept o a0) : Kept o (@Dev.sensorFail a0 a1) := by
  simp (maxDischargeDepth := 20) +contextual [Dev.sensorFail, *]

@[simp] theorem Dev.takeSample_kept (o : Keep) (a0 : Dev) (a1) (a2) (h0 : Kept o a0) : Kept o (@Dev.takeSample a0 a1 a2) := by
  unfold Dev.takeSample
  repeat' first | assumption | intro _ | with_reducible apply kept_ite | with_reducible apply kept_forAll | with_reducible apply kept_foldl | with_reducible apply kept_when | with_reducible apply kept_foldl_fst | with_reducible apply kept_ite_fst | with_reducible apply kept_ite_snd | with_reducible apply Dev.setSens_kept | with_reducible apply Dev.sensorFail_kept | with_reducible apply Dev.rateCheck_kept | (simp only [kept_mk, keptMem_dev]; done) | split | (simp only [kept_mk, keptMem_dev])

@[simp] theorem Dev.resetTiles_kept (o : Keep) (a0 : Dev) (h0 : Kept o a0) : Kept o (@Dev.resetTiles a0) := by
  simp (maxDischargeDepth := 20) +contextual [Dev.resetTiles, *]

@[simp] theorem Dev.bayCut_kept (o : Keep) (a0 : Dev) (h0 : Kept o a0) : Kept o (@Dev.bayCut a0) := by
  simp (maxDischargeDepth := 20) +contextual [Dev.bayCut, *]

@[simp] theorem Dev.setTherm_kept (o : Keep) (a0 : Dev) (a1) (h0 : Kept o a0) : Kept o (@Dev.setTherm a0 a1) := by
  simp (maxDischargeDepth := 20) +contextual [Dev.setTherm, *]

@[simp] theorem Dev.latchOff_kept (o : Keep) (a0 : Dev) (a1) (h0 : Kept o a0) : Kept o (@Dev.latchOff a0 a1) := by
  unfold Dev.latchOff
  repeat' first | assumption | intro _ | with_reducible apply kept_ite | with_reducible apply kept_forAll | with_reducible apply kept_foldl | with_reducible apply kept_when | with_reducible apply kept_foldl_fst | with_reducible apply kept_ite_fst | with_reducible apply kept_ite_snd | with_reducible apply Dev.raiseI_kept | with_reducible apply Dev.resetTiles_kept | with_reducible apply Dev.bayCut_kept | with_reducible apply Dev.setRail_kept | with_reducible apply Dev.setPwr_kept | with_reducible apply Dev.setTherm_kept | (simp only [kept_mk, keptMem_dev]; done) | split | (simp only [kept_mk, keptMem_dev])

@[simp] theorem Dev.enforcementStart_kept (o : Keep) (a0 : Dev) (h0 : Kept o a0) : Kept o (@Dev.enforcementStart a0) := by
  simp (maxDischargeDepth := 20) +contextual [Dev.enforcementStart, *]

@[simp] theorem Dev.throttleBoundary_kept (o : Keep) (a0 : Dev) (h0 : Kept o a0) : Kept o (@Dev.throttleBoundary a0) := by
  unfold Dev.throttleBoundary
  repeat' first | assumption | intro _ | with_reducible apply kept_ite | with_reducible apply kept_forAll | with_reducible apply kept_foldl | with_reducible apply kept_when | with_reducible apply kept_foldl_fst | with_reducible apply kept_ite_fst | with_reducible apply kept_ite_snd | with_reducible apply Dev.raise_kept | with_reducible apply Dev.setTherm_kept | with_reducible apply Dev.enforcementStart_kept | (simp only [kept_mk, keptMem_dev]; done) | split | (simp only [kept_mk, keptMem_dev])

@[simp] theorem Dev.thermalBoundary_kept (o : Keep) (a0 : Dev) (h0 : Kept o a0) : Kept o (@Dev.thermalBoundary a0) := by
  unfold Dev.thermalBoundary
  repeat' first | assumption | intro _ | with_reducible apply kept_ite | with_reducible apply kept_forAll | with_reducible apply kept_foldl | with_reducible apply kept_when | with_reducible apply kept_foldl_fst | with_reducible apply kept_ite_fst | with_reducible apply kept_ite_snd | with_reducible apply forAll_kept | with_reducible apply Dev.takeSample_kept | with_reducible apply Dev.drainLedger_kept | with_reducible apply Dev.latchOff_kept | with_reducible apply Dev.throttleBoundary_kept | (simp only [kept_mk, keptMem_dev]; done) | split | (simp only [kept_mk, keptMem_dev])

@[simp] theorem Dev.tileSensorSample_kept (o : Keep) (a0 : Dev) (a1) (a2) (h0 : Kept o a0) : Kept o (@Dev.tileSensorSample a0 a1 a2) := by
  simp (maxDischargeDepth := 20) +contextual [Dev.tileSensorSample, *]

@[simp] theorem Dev.thermalResume_kept (o : Keep) (a0 : Dev) (a1) (a2) (h0 : Kept o a0) : Kept o (@Dev.thermalResume a0 a1 a2) := by
  unfold Dev.thermalResume
  repeat' first | assumption | intro _ | with_reducible apply kept_ite | with_reducible apply kept_forAll | with_reducible apply kept_foldl | with_reducible apply kept_when | with_reducible apply kept_foldl_fst | with_reducible apply kept_ite_fst | with_reducible apply kept_ite_snd | with_reducible apply Dev.gated_kept | with_reducible apply Dev.vend_kept | with_reducible apply Dev.reply_kept | (simp only [kept_mk, keptMem_dev]; done) | split | (simp only [kept_mk, keptMem_dev])

@[simp] theorem Dev.dimmTemperatureRead_kept (o : Keep) (a0 : Dev) (a1) (a2) (h0 : Kept o a0) : Kept o (@Dev.dimmTemperatureRead a0 a1 a2) := by
  simp (maxDischargeDepth := 20) +contextual [Dev.dimmTemperatureRead, *]

@[simp] theorem Dev.clearPend_kept (o : Keep) (a0 : Dev) (a1) (a2) (h0 : Kept o a0) : Kept o (@Dev.clearPend a0 a1 a2) := by
  simp +contextual only [Dev.clearPend]
  (repeat' split) <;> simp +contextual [*]

@[simp] theorem Dev.cntWrite_kept (o : Keep) (a0 : Dev) (a1) (a2) (h0 : Kept o a0) : Kept o (@Dev.cntWrite a0 a1 a2) := by
  unfold Dev.cntWrite
  (repeat' split) <;> simp +contextual [*]

@[simp] theorem Dev.bwWrite_kept (o : Keep) (a0 : Dev) (a1) (a2) (h0 : Kept o a0) : Kept o (@Dev.bwWrite a0 a1 a2) := by
  simp +contextual [Dev.bwWrite, *]

theorem Dev.pertGo_kept (o : Keep) (a0 : Dev) (a1) (h0 : Kept o a0) : ∀ e, (@Dev.pertGo a0 a1) = .ok e → Kept o e := by
  intro e he
  unfold Dev.pertGo at he
  extract_lets x at he
  split at he
  · simp at he
  split at he
  · simp at he
  rename_i h
  simp only [Except.ok.injEq] at he
  subst he
  exact Dev.setPert_kept _ _ _ _ (Dev.queueAct_kept _ _ _ _ _ h0 _ h)

@[simp] theorem Dev.pertStop_kept (o : Keep) (a0 : Dev) (a1) (h0 : Kept o a0) : Kept o (@Dev.pertStop a0 a1) := by
  simp +contextual [Dev.pertStop, *]

@[simp] theorem Dev.pertBegin_kept (o : Keep) (a0 : Dev) (a1) (a2) (h0 : Kept o a0) : Kept o (@Dev.pertBegin a0 a1 a2) := by
  simp (maxDischargeDepth := 20) +contextual [Dev.pertBegin, *]

@[simp] theorem Dev.pertEnd_kept (o : Keep) (a0 : Dev) (a1) (h0 : Kept o a0) : Kept o (@Dev.pertEnd a0 a1) := by
  simp (maxDischargeDepth := 20) +contextual [Dev.pertEnd, *]

@[simp] theorem Dev.perturbationExpiry_kept (o : Keep) (a0 : Dev) (a1) (h0 : Kept o a0) : Kept o (@Dev.perturbationExpiry a0 a1) := by
  simp (maxDischargeDepth := 20) +contextual [Dev.perturbationExpiry, *]

@[simp] theorem Dev.eventPendingClear_kept (o : Keep) (a0 : Dev) (a1) (a2) (a3) (h0 : Kept o a0) : Kept o (@Dev.eventPendingClear a0 a1 a2 a3) := by
  simp (maxDischargeDepth := 20) +contextual [Dev.eventPendingClear, *]

@[simp] theorem Dev.bwClose_kept (o : Keep) (a0 : Dev) (a1) (a2) (h0 : Kept o a0) : Kept o (@Dev.bwClose a0 a1 a2) := by
  simp (maxDischargeDepth := 20) +contextual [Dev.bwClose, *]

@[simp] theorem Dev.bwCloseAll_kept (o : Keep) (a0 : Dev) (h0 : Kept o a0) : Kept o (@Dev.bwCloseAll a0) := by
  simp (maxDischargeDepth := 20) +contextual [Dev.bwCloseAll, *]

@[simp] theorem Dev.counterOvfClear_kept (o : Keep) (a0 : Dev) (a1) (a2) (h0 : Kept o a0) : Kept o (@Dev.counterOvfClear a0 a1 a2) := by
  simp (maxDischargeDepth := 20) +contextual [Dev.counterOvfClear, *]

@[simp] theorem Dev.clearEventRecords_kept (o : Keep) (a0 : Dev) (a1) (a2) (a3) (a4) (h0 : Kept o a0) : Kept o (@Dev.clearEventRecords a0 a1 a2 a3 a4) := by
  unfold Dev.clearEventRecords
  repeat' first | assumption | intro _ | with_reducible apply kept_ite | with_reducible apply kept_forAll | with_reducible apply kept_foldl | with_reducible apply kept_when | with_reducible apply kept_foldl_fst | with_reducible apply kept_ite_fst | with_reducible apply kept_ite_snd | with_reducible apply Dev.gated_kept | with_reducible apply Dev.reply_kept | with_reducible apply Dev.setLog_kept | (simp only [kept_mk, keptMem_dev]; done) | split | (simp only [kept_mk, keptMem_dev])

@[simp] theorem Dev.perturbationStop_kept (o : Keep) (a0 : Dev) (a1) (a2) (h0 : Kept o a0) : Kept o (@Dev.perturbationStop a0 a1 a2) := by
  simp (maxDischargeDepth := 20) +contextual [Dev.perturbationStop, *]

@[simp] theorem Dev.cntAdd_kept (o : Keep) (a0 : Dev) (a1) (a2) (h0 : Kept o a0) : Kept o (@Dev.cntAdd a0 a1 a2) := by
  simp (maxDischargeDepth := 20) +contextual [Dev.cntAdd, *]

@[simp] theorem Dev.counterWrap_kept (o : Keep) (a0 : Dev) (a1) (a2) (h0 : Kept o a0) : Kept o (@Dev.counterWrap a0 a1 a2) := by
  simp (maxDischargeDepth := 20) +contextual [Dev.counterWrap, *]

@[simp] theorem Dev.readCounters_kept (o : Keep) (a0 : Dev) (a1) (a2) (h0 : Kept o a0) : Kept o (@Dev.readCounters a0 a1 a2) := by
  simp (maxDischargeDepth := 20) +contextual [Dev.readCounters, *]

@[simp] theorem Dev.faultNRelease_kept (o : Keep) (a0 : Dev) (h0 : Kept o a0) : Kept o (@Dev.faultNRelease a0) := by
  unfold Dev.faultNRelease
  repeat' first | assumption | intro _ | with_reducible apply kept_ite | with_reducible apply kept_forAll | with_reducible apply kept_foldl | with_reducible apply kept_when | with_reducible apply kept_foldl_fst | with_reducible apply kept_ite_fst | with_reducible apply kept_ite_snd  | (simp only [kept_mk, keptMem_dev]; done) | split | (simp only [kept_mk, keptMem_dev])

@[simp] theorem Dev.cntBoundary_kept (o : Keep) (a0 : Dev) (a1 : Dev) (a2) (h0 : Kept o a0) : Kept o (@Dev.cntBoundary a0 a1 a2) := by
  unfold Dev.cntBoundary
  repeat' first | assumption | intro _ | with_reducible apply kept_ite | with_reducible apply kept_forAll | with_reducible apply kept_foldl | with_reducible apply kept_when | with_reducible apply kept_foldl_fst | with_reducible apply kept_ite_fst | with_reducible apply kept_ite_snd | with_reducible apply forAll_kept | with_reducible apply Dev.cntAdd_kept | with_reducible apply Dev.setCnt_kept | (simp only [kept_mk, keptMem_dev]; done) | split | (simp only [kept_mk, keptMem_dev])

@[simp] theorem Dev.ledgerFind_kept (o : Keep) (a0 : Dev) (a1) (h0 : Kept o a0) : Kept o (@Dev.ledgerFind a0 a1) := by
  unfold Dev.ledgerFind
  repeat' first | assumption | intro _ | with_reducible apply kept_ite | with_reducible apply kept_forAll | with_reducible apply kept_foldl | with_reducible apply kept_when | with_reducible apply kept_foldl_fst | with_reducible apply kept_ite_fst | with_reducible apply kept_ite_snd | with_reducible apply Dev.raise_kept | (simp only [kept_mk, keptMem_dev]; done) | split | (simp only [kept_mk, keptMem_dev])

@[simp] theorem Dev.bandwidthWindowClose_kept (o : Keep) (a0 : Dev) (a1) (h0 : Kept o a0) : Kept o (@Dev.bandwidthWindowClose a0 a1) := by
  simp (maxDischargeDepth := 20) +contextual [Dev.bandwidthWindowClose, *]

@[simp] theorem Dev.bwCloseDue_kept (o : Keep) (a0 : Dev) (h0 : Kept o a0) : Kept o (@Dev.bwCloseDue a0) := by
  simp (maxDischargeDepth := 20) +contextual [Dev.bwCloseDue, *]

@[simp] theorem Dev.bandwidthWindowConfig_kept (o : Keep) (a0 : Dev) (a1) (a2) (a3) (h0 : Kept o a0) : Kept o (@Dev.bandwidthWindowConfig a0 a1 a2 a3) := by
  simp (maxDischargeDepth := 20) +contextual [Dev.bandwidthWindowConfig, *]

@[simp] theorem Dev.perturbationGo_kept (o : Keep) (a0 : Dev) (a1) (a2) (h0 : Kept o a0) : Kept o (@Dev.perturbationGo a0 a1 a2) := by
  unfold Dev.perturbationGo
  repeat' first | assumption | intro _ | with_reducible apply kept_ite | with_reducible apply kept_forAll | with_reducible apply kept_foldl | with_reducible apply kept_when | with_reducible apply kept_foldl_fst | with_reducible apply kept_ite_fst | with_reducible apply kept_ite_snd | with_reducible apply Dev.reply_kept | with_reducible apply Dev.raise_kept | (with_reducible refine Dev.pertGo_kept _ _ _ ?_ _ (by assumption))| (with_reducible refine Dev.pertGo_kept _ _ _ _ ?_ _ (by assumption))| (with_reducible refine Dev.pertGo_kept _ _ _ _ _ ?_ _ (by assumption))| (with_reducible refine Dev.pertGo_kept _ _ _ _ _ _ ?_ _ (by assumption)) | (simp only [kept_mk, keptMem_dev]; done) | split | (simp only [kept_mk, keptMem_dev])

@[simp] theorem Dev.pertBoundary_kept (o : Keep) (a0 : Dev) (a1 : Dev) (h0 : Kept o a0) : Kept o (@Dev.pertBoundary a0 a1) := by
  simp (maxDischargeDepth := 20) +contextual [Dev.pertBoundary, *]

@[simp] theorem Dev.counterReprogram_kept (o : Keep) (a0 : Dev) (a1) (a2) (a3) (h0 : Kept o a0) : Kept o (@Dev.counterReprogram a0 a1 a2 a3) := by
  simp (maxDischargeDepth := 20) +contextual [Dev.counterReprogram, *]

@[simp] theorem Dev.bwBoundary_kept (o : Keep) (a0 : Dev) (a1 : Dev) (a2) (a3) (h0 : Kept o a0) : Kept o (@Dev.bwBoundary a0 a1 a2 a3) := by
  unfold Dev.bwBoundary
  repeat' first | assumption | intro _ | with_reducible apply kept_ite | with_reducible apply kept_forAll | with_reducible apply kept_foldl | with_reducible apply kept_when | with_reducible apply kept_foldl_fst | with_reducible apply kept_ite_fst | with_reducible apply kept_ite_snd | with_reducible apply forAll_kept | with_reducible apply Dev.setBw_kept | with_reducible apply Dev.bwCloseAll_kept | with_reducible apply Dev.bwCloseDue_kept | (simp only [kept_mk, keptMem_dev]; done) | split | (simp only [kept_mk, keptMem_dev])

@[simp] theorem Dev.setEventInterruptPolicy_kept (o : Keep) (a0 : Dev) (a1) (a2) (h0 : Kept o a0) : Kept o (@Dev.setEventInterruptPolicy a0 a1 a2) := by
  unfold Dev.setEventInterruptPolicy
  repeat' first | assumption | intro _ | with_reducible apply kept_ite | with_reducible apply kept_forAll | with_reducible apply kept_foldl | with_reducible apply kept_when | with_reducible apply kept_foldl_fst | with_reducible apply kept_ite_fst | with_reducible apply kept_ite_snd | with_reducible apply Dev.gated_kept | with_reducible apply Dev.reply_kept | with_reducible apply Dev.setHead_kept | (simp only [kept_mk, keptMem_dev]; done) | split | (simp only [kept_mk, keptMem_dev])

@[simp] theorem Dev.getEventRecords_kept (o : Keep) (a0 : Dev) (a1) (a2) (h0 : Kept o a0) : Kept o (@Dev.getEventRecords a0 a1 a2) := by
  unfold Dev.getEventRecords
  repeat' first | assumption | intro _ | with_reducible apply kept_ite | with_reducible apply kept_forAll | with_reducible apply kept_foldl | with_reducible apply kept_when | with_reducible apply kept_foldl_fst | with_reducible apply kept_ite_fst | with_reducible apply kept_ite_snd | with_reducible apply Dev.gated_kept | with_reducible apply Dev.reply_kept | (simp only [kept_mk, keptMem_dev]; done) | split | (simp only [kept_mk, keptMem_dev])

end Sys2Proof.Machine
end

