-- ==== Sys2Proof/Laws/KeptLinks.lean ====
section
/-! SUPPORT. That the guest, the cascade and the coherent domains keep both byte memories in canonical form and change the OTP only as it may be burnt: one lemma for each
operation that answers a device. -/

namespace Sys2Proof.Machine

open Sys2Proof

set_option linter.unreachableTactic false
set_option linter.unusedTactic false
set_option linter.unusedSimpArgs false

@[simp] theorem Dev.setGst_kept (o : Keep) (a0 : Dev) (a1) (h0 : Kept o a0) : Kept o (@Dev.setGst a0 a1) := by
  simp +contextual [Dev.setGst, *]

@[simp] theorem Dev.guestAgain_kept (o : Keep) (a0 : Dev) (h0 : Kept o a0) : Kept o (@Dev.guestAgain a0) := by
  unfold Dev.guestAgain
  (repeat' split) <;> simp +contextual [*]

@[simp] theorem Dev.guestFail_kept (o : Keep) (a0 : Dev) (a1) (h0 : Kept o a0) : Kept o (@Dev.guestFail a0 a1) := by
  unfold Dev.guestFail
  repeat' first | assumption | intro _ | with_reducible apply kept_ite | with_reducible apply kept_forAll | with_reducible apply kept_foldl | with_reducible apply kept_when | with_reducible apply kept_foldl_fst | with_reducible apply kept_ite_fst | with_reducible apply kept_ite_snd | with_reducible apply Dev.guestDead_kept | with_reducible apply Dev.setGst_kept | (simp only [kept_mk, keptMem_dev]; done) | split | (simp only [kept_mk, keptMem_dev])

@[simp] theorem Dev.detach_kept (o : Keep) (a0 : Dev) (h0 : Kept o a0) : Kept o (@Dev.detach a0) := by
  simp +contextual [Dev.detach, *]

@[simp] theorem Dev.violate_kept (o : Keep) (a0 : Dev) (h0 : Kept o a0) : Kept o (@Dev.violate a0) := by
  simp (maxDischargeDepth := 20) +contextual [Dev.violate, *]

@[simp] theorem Dev.guestBad_kept (o : Keep) (a0 : Dev) (a1) (a2) (a3) (h0 : Kept o a0) : Kept o (@Dev.guestBad a0 a1 a2 a3) := by
  unfold Dev.guestBad
  repeat' first | assumption | intro _ | with_reducible apply kept_ite | with_reducible apply kept_forAll | with_reducible apply kept_foldl | with_reducible apply kept_when | with_reducible apply kept_foldl_fst | with_reducible apply kept_ite_fst | with_reducible apply kept_ite_snd | with_reducible apply Dev.respond_kept | with_reducible apply Dev.guestFail_kept | with_reducible apply Dev.raise_kept | with_reducible apply Dev.violate_kept | (simp only [kept_mk, keptMem_dev]; done) | split | (simp only [kept_mk, keptMem_dev])

@[simp] theorem Dev.guestOov_kept (o : Keep) (a0 : Dev) (a1) (a2) (a3) (h0 : Kept o a0) : Kept o (@Dev.guestOov a0 a1 a2 a3) := by
  unfold Dev.guestOov
  repeat' first | assumption | intro _ | with_reducible apply kept_ite | with_reducible apply kept_forAll | with_reducible apply kept_foldl | with_reducible apply kept_when | with_reducible apply kept_foldl_fst | with_reducible apply kept_ite_fst | with_reducible apply kept_ite_snd | with_reducible apply Dev.raise_kept | with_reducible apply Dev.setGst_kept | with_reducible apply Dev.respond_kept | (simp only [kept_mk, keptMem_dev]; done) | split | (simp only [kept_mk, keptMem_dev])

@[simp] theorem Dev.memberConflict_kept (o : Keep) (a0 : Dev) (a1) (a2) (a3) (h0 : Kept o a0) : Kept o (@Dev.memberConflict a0 a1 a2 a3) := by
  unfold Dev.memberConflict
  repeat' first | assumption | intro _ | with_reducible apply kept_ite | with_reducible apply kept_forAll | with_reducible apply kept_foldl | with_reducible apply kept_when | with_reducible apply kept_foldl_fst | with_reducible apply kept_ite_fst | with_reducible apply kept_ite_snd | with_reducible apply Dev.send_kept | with_reducible apply Dev.respond1_kept | (simp only [kept_mk, keptMem_dev]; done) | split | (simp only [kept_mk, keptMem_dev])

@[simp] theorem Dev.resumedTimeout_kept (o : Keep) (a0 : Dev) (h0 : Kept o a0) : Kept o (@Dev.resumedTimeout a0) := by
  unfold Dev.resumedTimeout
  repeat' first | assumption | intro _ | with_reducible apply kept_ite | with_reducible apply kept_forAll | with_reducible apply kept_foldl | with_reducible apply kept_when | with_reducible apply kept_foldl_fst | with_reducible apply kept_ite_fst | with_reducible apply kept_ite_snd | with_reducible apply Dev.guestFail_kept | with_reducible apply Dev.raise_kept | with_reducible apply Dev.setGst_kept | (simp only [kept_mk, keptMem_dev]; done) | split | (simp only [kept_mk, keptMem_dev])

@[simp] theorem Dev.guestAccessSend_kept (o : Keep) (a0 : Dev) (h0 : Kept o a0) : Kept o (@Dev.guestAccessSend a0) := by
  unfold Dev.guestAccessSend
  repeat' first | assumption | intro _ | with_reducible apply kept_ite | with_reducible apply kept_forAll | with_reducible apply kept_foldl | with_reducible apply kept_when | with_reducible apply kept_foldl_fst | with_reducible apply kept_ite_fst | with_reducible apply kept_ite_snd | with_reducible apply Dev.emit_kept | with_reducible apply Dev.setGst_kept | (simp only [kept_mk, keptMem_dev]; done) | split | (simp only [kept_mk, keptMem_dev])

@[simp] theorem Dev.guestAccessTimeout_kept (o : Keep) (a0 : Dev) (h0 : Kept o a0) : Kept o (@Dev.guestAccessTimeout a0) := by
  unfold Dev.guestAccessTimeout
  repeat' first | assumption | intro _ | with_reducible apply kept_ite | with_reducible apply kept_forAll | with_reducible apply kept_foldl | with_reducible apply kept_when | with_reducible apply kept_foldl_fst | with_reducible apply kept_ite_fst | with_reducible apply kept_ite_snd | with_reducible apply Dev.guestAccessSend_kept | with_reducible apply Dev.raise_kept | with_reducible apply Dev.reply_kept | with_reducible apply Dev.setGst_kept | (simp only [kept_mk, keptMem_dev]; done) | split | (simp only [kept_mk, keptMem_dev])

@[simp] theorem Dev.guestModuleLoss_kept (o : Keep) (a0 : Dev) (h0 : Kept o a0) : Kept o (@Dev.guestModuleLoss a0) := by
  simp (maxDischargeDepth := 20) +contextual [Dev.guestModuleLoss, *]

@[simp] theorem Dev.attachTimeout_kept (o : Keep) (a0 : Dev) (h0 : Kept o a0) : Kept o (@Dev.attachTimeout a0) := by
  simp (maxDischargeDepth := 20) +contextual [Dev.attachTimeout, *]

@[simp] theorem Dev.guestResetRelease_kept (o : Keep) (a0 : Dev) (h0 : Kept o a0) : Kept o (@Dev.guestResetRelease a0) := by
  simp (maxDischargeDepth := 20) +contextual [Dev.guestResetRelease, *]

@[simp] theorem Dev.guestBoundary_kept (o : Keep) (a0 : Dev) (a1 : Dev) (h0 : Kept o a0) : Kept o (@Dev.guestBoundary a0 a1) := by
  unfold Dev.guestBoundary
  repeat' first | assumption | intro _ | with_reducible apply kept_ite | with_reducible apply kept_forAll | with_reducible apply kept_foldl | with_reducible apply kept_when | with_reducible apply kept_foldl_fst | with_reducible apply kept_ite_fst | with_reducible apply kept_ite_snd | with_reducible apply Dev.flushGuest_kept | with_reducible apply Dev.raise_kept | with_reducible apply Dev.setGst_kept | with_reducible apply forAll_kept | with_reducible apply Dev.setHs_kept | with_reducible apply Dev.primeGuest_kept | with_reducible apply Dev.emit_kept | (simp only [kept_mk, keptMem_dev]; done) | split | (simp only [kept_mk, keptMem_dev])

@[simp] theorem Dev.chrotenFlitReceive_kept (o : Keep) (a0 : Dev) (a1) (a2) (a3) (a4) (h0 : Kept o a0) : Kept o (@Dev.chrotenFlitReceive a0 a1 a2 a3 a4) := by
  simp (maxDischargeDepth := 20) +contextual [Dev.chrotenFlitReceive, *]

@[simp] theorem Dev.moduleDown_kept (o : Keep) (a0 : Dev) (a1) (a2) (h0 : Kept o a0) : Kept o (@Dev.moduleDown a0 a1 a2) := by
  unfold Dev.moduleDown
  repeat' first | assumption | intro _ | with_reducible apply kept_ite | with_reducible apply kept_forAll | with_reducible apply kept_foldl | with_reducible apply kept_when | with_reducible apply kept_foldl_fst | with_reducible apply kept_ite_fst | with_reducible apply kept_ite_snd | with_reducible apply Dev.setMod_kept | with_reducible apply Dev.raise_kept | with_reducible apply Dev.setGst_kept | with_reducible apply Dev.guestFail_kept | (simp only [kept_mk, keptMem_dev]; done) | split | (simp only [kept_mk, keptMem_dev])

@[simp] theorem Dev.reattach_kept (o : Keep) (a0 : Dev) (a1) (h0 : Kept o a0) : Kept o (@Dev.reattach a0 a1) := by
  simp (maxDischargeDepth := 20) +contextual [Dev.reattach, *]

@[simp] theorem Dev.chrotenModuleUp_kept (o : Keep) (a0 : Dev) (a1) (a2) (a3) (h0 : Kept o a0) : Kept o (@Dev.chrotenModuleUp a0 a1 a2 a3) := by
  simp (maxDischargeDepth := 20) +contextual [Dev.chrotenModuleUp, *]

@[simp] theorem Dev.guestRegisterAccessPacket_kept (o : Keep) (a0 : Dev) (h0 : Kept o a0) : Kept o (@Dev.guestRegisterAccessPacket a0) := by
  simp (maxDischargeDepth := 20) +contextual [Dev.guestRegisterAccessPacket, *]

@[simp] theorem Dev.guestAccess_kept (o : Keep) (a0 : Dev) (a1) (a2) (a3) (a4) (a5) (h0 : Kept o a0) : Kept o (@Dev.guestAccess a0 a1 a2 a3 a4 a5) := by
  simp (maxDischargeDepth := 20) +contextual [Dev.guestAccess, *]

@[simp] theorem Dev.creditReturn_kept (o : Keep) (a0 : Dev) (a1) (a2) (h0 : Kept o a0) : Kept o (@Dev.creditReturn a0 a1 a2) := by
  simp (maxDischargeDepth := 20) +contextual [Dev.creditReturn, *]

@[simp] theorem Dev.guestBIConflict_kept (o : Keep) (a0 : Dev) (a1) (h0 : Kept o a0) : Kept o (@Dev.guestBIConflict a0 a1) := by
  simp (maxDischargeDepth := 20) +contextual [Dev.guestBIConflict, *]

@[simp] theorem Dev.resumed_kept (o : Keep) (a0 : Dev) (h0 : Kept o a0) : Kept o (@Dev.resumed a0) := by
  simp (maxDischargeDepth := 20) +contextual [Dev.resumed, *]

@[simp] theorem Dev.guestAccessCompletion_kept (o : Keep) (a0 : Dev) (a1) (h0 : Kept o a0) : Kept o (@Dev.guestAccessCompletion a0 a1) := by
  unfold Dev.guestAccessCompletion
  repeat' first | assumption | intro _ | with_reducible apply kept_ite | with_reducible apply kept_forAll | with_reducible apply kept_foldl | with_reducible apply kept_when | with_reducible apply kept_foldl_fst | with_reducible apply kept_ite_fst | with_reducible apply kept_ite_snd | with_reducible apply Dev.setGst_kept | with_reducible apply Dev.guestAccessSend_kept | with_reducible apply Dev.reply_kept | (simp only [kept_mk, keptMem_dev]; done) | split | (simp only [kept_mk, keptMem_dev])

@[simp] theorem Dev.attach_kept (o : Keep) (a0 : Dev) (a1) (a2) (a3) (h0 : Kept o a0) : Kept o (@Dev.attach a0 a1 a2 a3) := by
  simp (maxDischargeDepth := 20) +contextual [Dev.attach, *]

@[simp] theorem Dev.guestRequest_kept (o : Keep) (a0 : Dev) (a1) (a2) (a3) (a4) (h0 : Kept o a0) : Kept o (@Dev.guestRequest a0 a1 a2 a3 a4) := by
  simp (maxDischargeDepth := 20) +contextual [Dev.guestRequest, *]

@[simp] theorem Dev.guestMemInvNT_kept (o : Keep) (a0 : Dev) (a1) (a2) (a3) (h0 : Kept o a0) : Kept o (@Dev.guestMemInvNT a0 a1 a2 a3) := by
  simp (maxDischargeDepth := 20) +contextual [Dev.guestMemInvNT, *]

@[simp] theorem Dev.guestMemWrPtl_kept (o : Keep) (a0 : Dev) (a1) (a2) (a3) (a4) (a5) (a6) (h0 : Kept o a0) : Kept o (@Dev.guestMemWrPtl a0 a1 a2 a3 a4 a5 a6) := by
  simp (maxDischargeDepth := 20) +contextual [Dev.guestMemWrPtl, *]

@[simp] theorem Dev.guestMemRdData_kept (o : Keep) (a0 : Dev) (a1) (a2) (h0 : Kept o a0) : Kept o (@Dev.guestMemRdData a0 a1 a2) := by
  simp (maxDischargeDepth := 20) +contextual [Dev.guestMemRdData, *]

@[simp] theorem Dev.guestMemClnEvct_kept (o : Keep) (a0 : Dev) (a1) (a2) (h0 : Kept o a0) : Kept o (@Dev.guestMemClnEvct a0 a1 a2) := by
  simp (maxDischargeDepth := 20) +contextual [Dev.guestMemClnEvct, *]

@[simp] theorem Dev.guestMemInv_kept (o : Keep) (a0 : Dev) (a1) (a2) (a3) (h0 : Kept o a0) : Kept o (@Dev.guestMemInv a0 a1 a2 a3) := by
  simp (maxDischargeDepth := 20) +contextual [Dev.guestMemInv, *]

@[simp] theorem Dev.memberRsp_kept (o : Keep) (a0 : Dev) (a1) (a2) (a3) (h0 : Kept o a0) : Kept o (@Dev.memberRsp a0 a1 a2 a3) := by
  unfold Dev.memberRsp
  repeat' first | assumption | intro _ | with_reducible apply kept_ite | with_reducible apply kept_forAll | with_reducible apply kept_foldl | with_reducible apply kept_when | with_reducible apply kept_foldl_fst | with_reducible apply kept_ite_fst | with_reducible apply kept_ite_snd | with_reducible apply Dev.send_kept | with_reducible apply Dev.snoopResponse_kept | (simp only [kept_mk, keptMem_dev]; done) | split | (simp only [kept_mk, keptMem_dev])

@[simp] theorem Dev.guestMemRd_kept (o : Keep) (a0 : Dev) (a1) (a2) (a3) (h0 : Kept o a0) : Kept o (@Dev.guestMemRd a0 a1 a2 a3) := by
  simp (maxDischargeDepth := 20) +contextual [Dev.guestMemRd, *]

@[simp] theorem Dev.pushReply_kept (o : Keep) (a0 : Dev) (a1) (a2) (h0 : Kept o a0) : Kept o (@Dev.pushReply a0 a1 a2) := by
  unfold Dev.pushReply
  repeat' first | assumption | intro _ | with_reducible apply kept_ite | with_reducible apply kept_forAll | with_reducible apply kept_foldl | with_reducible apply kept_when | with_reducible apply kept_foldl_fst | with_reducible apply kept_ite_fst | with_reducible apply kept_ite_snd | with_reducible apply Dev.settle_kept | with_reducible apply Dev.setHs_kept | (simp only [kept_mk, keptMem_dev]; done) | split | (simp only [kept_mk, keptMem_dev])

@[simp] theorem Dev.guestBIRsp_kept (o : Keep) (a0 : Dev) (a1) (a2) (h0 : Kept o a0) : Kept o (@Dev.guestBIRsp a0 a1 a2) := by
  simp (maxDischargeDepth := 20) +contextual [Dev.guestBIRsp, *]

@[simp] theorem Dev.guestMemWr_kept (o : Keep) (a0 : Dev) (a1) (a2) (a3) (a4) (a5) (h0 : Kept o a0) : Kept o (@Dev.guestMemWr a0 a1 a2 a3 a4 a5) := by
  simp (maxDischargeDepth := 20) +contextual [Dev.guestMemWr, *]

@[simp] theorem Dev.failRoutes_kept (o : Keep) (a0 : Dev) (a1) (h0 : Kept o a0) : Kept o (@Dev.failRoutes a0 a1) := by
  simp +contextual [Dev.failRoutes, *]

@[simp] theorem Dev.linkDown_kept (o : Keep) (a0 : Dev) (a1) (h0 : Kept o a0) : Kept o (@Dev.linkDown a0 a1) := by
  unfold Dev.linkDown
  repeat' first | assumption | intro _ | with_reducible apply kept_ite | with_reducible apply kept_forAll | with_reducible apply kept_foldl | with_reducible apply kept_when | with_reducible apply kept_foldl_fst | with_reducible apply kept_ite_fst | with_reducible apply kept_ite_snd | with_reducible apply Dev.setPort_kept | with_reducible apply Dev.raise_kept | with_reducible apply Dev.failRoutes_kept | (simp only [kept_mk, keptMem_dev]; done) | split | (simp only [kept_mk, keptMem_dev])

@[simp] theorem Dev.linkFail_kept (o : Keep) (a0 : Dev) (a1) (a2) (h0 : Kept o a0) : Kept o (@Dev.linkFail a0 a1 a2) := by
  unfold Dev.linkFail
  repeat' first | assumption | intro _ | with_reducible apply kept_ite | with_reducible apply kept_forAll | with_reducible apply kept_foldl | with_reducible apply kept_when | with_reducible apply kept_foldl_fst | with_reducible apply kept_ite_fst | with_reducible apply kept_ite_snd | with_reducible apply Dev.setPort_kept | (simp only [kept_mk, keptMem_dev]; done) | split | (simp only [kept_mk, keptMem_dev])

@[simp] theorem Dev.linkEnds_kept (o : Keep) (a0 : Dev) (a1) (h0 : Kept o a0) : Kept o (@Dev.linkEnds a0 a1) := by
  simp +contextual [Dev.linkEnds, *]

@[simp] theorem Dev.replay_kept (o : Keep) (a0 : Dev) (a1) (h0 : Kept o a0) : Kept o (@Dev.replay a0 a1) := by
  unfold Dev.replay
  repeat' first | assumption | intro _ | with_reducible apply kept_ite | with_reducible apply kept_forAll | with_reducible apply kept_foldl | with_reducible apply kept_when | with_reducible apply kept_foldl_fst | with_reducible apply kept_ite_fst | with_reducible apply kept_ite_snd | with_reducible apply Dev.linkEnds_kept | with_reducible apply Dev.setPort_kept | with_reducible apply forAll_kept | with_reducible apply Dev.raise_kept | with_reducible apply Dev.emit_kept | (simp only [kept_mk, keptMem_dev]; done) | split | (simp only [kept_mk, keptMem_dev])

@[simp] theorem Dev.linkControl_kept (o : Keep) (a0 : Dev) (a1) (a2) (a3) (a4) (h0 : Kept o a0) : Kept o (@Dev.linkControl a0 a1 a2 a3 a4) := by
  unfold Dev.linkControl
  repeat' first | assumption | intro _ | with_reducible apply kept_ite | with_reducible apply kept_forAll | with_reducible apply kept_foldl | with_reducible apply kept_when | with_reducible apply kept_foldl_fst | with_reducible apply kept_ite_fst | with_reducible apply kept_ite_snd | with_reducible apply Dev.setPort_kept | with_reducible apply Dev.replay_kept | with_reducible apply Dev.flushPort_kept | (simp only [kept_mk, keptMem_dev]; done) | split | (simp only [kept_mk, keptMem_dev])

@[simp] theorem Dev.sendHello_kept (o : Keep) (a0 : Dev) (a1) (h0 : Kept o a0) : Kept o (@Dev.sendHello a0 a1) := by
  simp (maxDischargeDepth := 20) +contextual [Dev.sendHello, *]

@[simp] theorem Dev.cascadeTrainingStepTimeout_kept (o : Keep) (a0 : Dev) (a1) (h0 : Kept o a0) : Kept o (@Dev.cascadeTrainingStepTimeout a0 a1) := by
  simp (maxDischargeDepth := 20) +contextual [Dev.cascadeTrainingStepTimeout, *]

@[simp] theorem Dev.acceptFlit_kept (o : Keep) (a0 : Dev) (a1) (a2) (a3) (a4) (h0 : Kept o a0) : Kept o (@Dev.acceptFlit a0 a1 a2 a3 a4) := by
  simp (maxDischargeDepth := 20) +contextual [Dev.acceptFlit, *]

@[simp] theorem Dev.lossOfSignal_kept (o : Keep) (a0 : Dev) (a1) (h0 : Kept o a0) : Kept o (@Dev.lossOfSignal a0 a1) := by
  simp (maxDischargeDepth := 20) +contextual [Dev.lossOfSignal, *]

@[simp] theorem Dev.nakOnce_kept (o : Keep) (a0 : Dev) (a1) (h0 : Kept o a0) : Kept o (@Dev.nakOnce a0 a1) := by
  simp (maxDischargeDepth := 20) +contextual [Dev.nakOnce, *]

@[simp] theorem Dev.sleepAnswer_kept (o : Keep) (a0 : Dev) (a1) (a2) (h0 : Kept o a0) : Kept o (@Dev.sleepAnswer a0 a1 a2) := by
  simp (maxDischargeDepth := 20) +contextual [Dev.sleepAnswer, *]

@[simp] theorem Dev.sleepRequest_kept (o : Keep) (a0 : Dev) (a1) (a2) (h0 : Kept o a0) : Kept o (@Dev.sleepRequest a0 a1 a2) := by
  simp (maxDischargeDepth := 20) +contextual [Dev.sleepRequest, *]

@[simp] theorem Dev.adaptationRetrain_kept (o : Keep) (a0 : Dev) (a1) (h0 : Kept o a0) : Kept o (@Dev.adaptationRetrain a0 a1) := by
  simp (maxDischargeDepth := 20) +contextual [Dev.adaptationRetrain, *]

@[simp] theorem Dev.securedTransport_kept (o : Keep) (a0 : Dev) (a1) (a2) (a3) (a4) (h0 : Kept o a0) : Kept o (@Dev.securedTransport a0 a1 a2 a3 a4) := by
  simp (maxDischargeDepth := 20) +contextual [Dev.securedTransport, *]

@[simp] theorem Dev.linkResumed_kept (o : Keep) (a0 : Dev) (a1) (h0 : Kept o a0) : Kept o (@Dev.linkResumed a0 a1) := by
  simp (maxDischargeDepth := 20) +contextual [Dev.linkResumed, *]

@[simp] theorem Dev.pairAlignmentLost_kept (o : Keep) (a0 : Dev) (a1) (h0 : Kept o a0) : Kept o (@Dev.pairAlignmentLost a0 a1) := by
  simp (maxDischargeDepth := 20) +contextual [Dev.pairAlignmentLost, *]

@[simp] theorem Dev.uncorrectable_kept (o : Keep) (a0 : Dev) (a1) (a2) (h0 : Kept o a0) : Kept o (@Dev.uncorrectable a0 a1 a2) := by
  simp (maxDischargeDepth := 20) +contextual [Dev.uncorrectable, *]

@[simp] theorem Dev.tagFailure_kept (o : Keep) (a0 : Dev) (a1) (a2) (h0 : Kept o a0) : Kept o (@Dev.tagFailure a0 a1 a2) := by
  simp (maxDischargeDepth := 20) +contextual [Dev.tagFailure, *]

@[simp] theorem Dev.flitReceive_kept (o : Keep) (a0 : Dev) (a1) (a2) (h0 : Kept o a0) : Kept o (@Dev.flitReceive a0 a1 a2) := by
  unfold Dev.flitReceive
  repeat' first | assumption | intro _ | with_reducible apply kept_ite | with_reducible apply kept_forAll | with_reducible apply kept_foldl | with_reducible apply kept_when | with_reducible apply kept_foldl_fst | with_reducible apply kept_ite_fst | with_reducible apply kept_ite_snd | with_reducible apply Dev.setPort_kept | with_reducible apply Dev.uncorrectable_kept | with_reducible apply Dev.nakOnce_kept | with_reducible apply Dev.tagFailure_kept | with_reducible apply Dev.acceptFlit_kept | (simp only [kept_mk, keptMem_dev]; done) | split | (simp only [kept_mk, keptMem_dev])

@[simp] theorem Dev.linkKeys_kept (o : Keep) (a0 : Dev) (h0 : Kept o a0) : Kept o (@Dev.linkKeys a0).2 := by
  simp (maxDischargeDepth := 20) +contextual [Dev.linkKeys, *]

@[simp] theorem Dev.foQuietExpiry_kept (o : Keep) (a0 : Dev) (a1) (h0 : Kept o a0) : Kept o (@Dev.foQuietExpiry a0 a1) := by
  unfold Dev.foQuietExpiry
  repeat' first | assumption | intro _ | with_reducible apply kept_ite | with_reducible apply kept_forAll | with_reducible apply kept_foldl | with_reducible apply kept_when | with_reducible apply kept_foldl_fst | with_reducible apply kept_ite_fst | with_reducible apply kept_ite_snd | with_reducible apply Dev.setRoute_kept | with_reducible apply Dev.raise_kept | with_reducible apply Dev.sendNotice_kept | with_reducible apply forAll_kept | with_reducible apply Dev.send_kept | (simp only [kept_mk, keptMem_dev]; done) | split | (simp only [kept_mk, keptMem_dev])

@[simp] theorem Dev.putFrame_kept (o : Keep) (a0 : Dev) (a1) (a2) (h0 : Kept o a0) : Kept o (@Dev.putFrame a0 a1 a2) := by
  simp (maxDischargeDepth := 20) +contextual [Dev.putFrame, *]

@[simp] theorem Dev.sendFrame_kept (o : Keep) (a0 : Dev) (a1) (h0 : Kept o a0) : Kept o (@Dev.sendFrame a0 a1) := by
  simp (maxDischargeDepth := 20) +contextual [Dev.sendFrame, *]

@[simp] theorem Dev.wakePatternDetected_kept (o : Keep) (a0 : Dev) (a1) (h0 : Kept o a0) : Kept o (@Dev.wakePatternDetected a0 a1) := by
  simp (maxDischargeDepth := 20) +contextual [Dev.wakePatternDetected, *]

@[simp] theorem Dev.trainFrom1_kept (o : Keep) (a0 : Dev) (a1) (h0 : Kept o a0) : Kept o (@Dev.trainFrom1 a0 a1) := by
  simp (maxDischargeDepth := 20) +contextual [Dev.trainFrom1, *]

@[simp] theorem Dev.portBoundary_kept (o : Keep) (a0 : Dev) (a1) (h0 : Kept o a0) : Kept o (@Dev.portBoundary a0 a1) := by
  simp (maxDischargeDepth := 20) +contextual [Dev.portBoundary, *]

@[simp] theorem Dev.takeKept_kept (o : Keep) (a0 : Dev) (a1) (a2) (h0 : Kept o a0) : Kept o (@Dev.takeKept a0 a1 a2).2 := by
  simp (maxDischargeDepth := 20) +contextual [Dev.takeKept, *]

@[simp] theorem Dev.switchRoute_kept (o : Keep) (a0 : Dev) (a1) (a2) (h0 : Kept o a0) : Kept o (@Dev.switchRoute a0 a1 a2) := by
  simp (maxDischargeDepth := 20) +contextual [Dev.switchRoute, *]

@[simp] theorem Dev.routeBoundary_kept (o : Keep) (a0 : Dev) (h0 : Kept o a0) : Kept o (@Dev.routeBoundary a0) := by
  unfold Dev.routeBoundary
  extract_lets due go d1 d2
  have h1 : Kept o d1 := by simp (maxDischargeDepth := 20) +contextual [d1, *]
  clear_value d1
  have h2 : Kept o d2 := by
    apply kept_forAll _ _ _ _ h1
    intro d x hd
    split <;> simp [*]
  clear_value d2
  simp (maxDischargeDepth := 20) [*]

@[simp] theorem Dev.pairAlignmentAcquired_kept (o : Keep) (a0 : Dev) (a1) (h0 : Kept o a0) : Kept o (@Dev.pairAlignmentAcquired a0 a1) := by
  simp (maxDischargeDepth := 20) +contextual [Dev.pairAlignmentAcquired, *]

@[simp] theorem Dev.cascadeTrainingStart_kept (o : Keep) (a0 : Dev) (a1) (h0 : Kept o a0) : Kept o (@Dev.cascadeTrainingStart a0 a1) := by
  simp (maxDischargeDepth := 20) +contextual [Dev.cascadeTrainingStart, *]

@[simp] theorem Dev.startReturn_kept (o : Keep) (a0 : Dev) (a1) (h0 : Kept o a0) : Kept o (@Dev.startReturn a0 a1) := by
  simp (maxDischargeDepth := 20) +contextual [Dev.startReturn, *]

@[simp] theorem Dev.failbackPort_kept (o : Keep) (a0 : Dev) (a1) (h0 : Kept o a0) : Kept o (@Dev.failbackPort a0 a1) := by
  simp (maxDischargeDepth := 20) +contextual [Dev.failbackPort, *]

@[simp] theorem Dev.resumptionTimeout_kept (o : Keep) (a0 : Dev) (a1) (h0 : Kept o a0) : Kept o (@Dev.resumptionTimeout a0 a1) := by
  simp (maxDischargeDepth := 20) +contextual [Dev.resumptionTimeout, *]

@[simp] theorem Dev.replayTimeout_kept (o : Keep) (a0 : Dev) (a1) (h0 : Kept o a0) : Kept o (@Dev.replayTimeout a0 a1) := by
  unfold Dev.replayTimeout
  repeat' first | assumption | intro _ | with_reducible apply kept_ite | with_reducible apply kept_forAll | with_reducible apply kept_foldl | with_reducible apply kept_when | with_reducible apply kept_foldl_fst | with_reducible apply kept_ite_fst | with_reducible apply kept_ite_snd | with_reducible apply Dev.replay_kept | (simp only [kept_mk, keptMem_dev]; done) | split | (simp only [kept_mk, keptMem_dev])

@[simp] theorem Dev.alignmentLossTimeout_kept (o : Keep) (a0 : Dev) (a1) (h0 : Kept o a0) : Kept o (@Dev.alignmentLossTimeout a0 a1) := by
  simp (maxDischargeDepth := 20) +contextual [Dev.alignmentLossTimeout, *]

@[simp] theorem Dev.routeNoticeSwitch_kept (o : Keep) (a0 : Dev) (a1) (a2) (h0 : Kept o a0) : Kept o (@Dev.routeNoticeSwitch a0 a1 a2) := by
  simp (maxDischargeDepth := 20) +contextual [Dev.routeNoticeSwitch, *]

@[simp] theorem Dev.sleepReply_kept (o : Keep) (a0 : Dev) (a1) (a2) (a3) (h0 : Kept o a0) : Kept o (@Dev.sleepReply a0 a1 a2 a3) := by
  simp (maxDischargeDepth := 20) +contextual [Dev.sleepReply, *]

@[simp] theorem Dev.cascadeLinkUp_kept (o : Keep) (a0 : Dev) (a1) (a2) (a3) (a4) (h0 : Kept o a0) : Kept o (@Dev.cascadeLinkUp a0 a1 a2 a3 a4) := by
  simp (maxDischargeDepth := 20) +contextual [Dev.cascadeLinkUp, *]

@[simp] theorem Dev.hello_kept (o : Keep) (a0 : Dev) (a1) (a2) (h0 : Kept o a0) : Kept o (@Dev.hello a0 a1 a2) := by
  simp (maxDischargeDepth := 20) +contextual [Dev.hello, *]

@[simp] theorem Dev.routeNoticeRestore_kept (o : Keep) (a0 : Dev) (a1) (a2) (h0 : Kept o a0) : Kept o (@Dev.routeNoticeRestore a0 a1 a2) := by
  simp (maxDischargeDepth := 20) +contextual [Dev.routeNoticeRestore, *]

@[simp] theorem Dev.sleepDrainComplete_kept (o : Keep) (a0 : Dev) (a1) (h0 : Kept o a0) : Kept o (@Dev.sleepDrainComplete a0 a1) := by
  simp (maxDischargeDepth := 20) +contextual [Dev.sleepDrainComplete, *]

theorem Dev.keysFor_kept (o : Keep) (a0 : Dev) (a1) (a2) (h0 : Kept o a0) : ∀ e, (@Dev.keysFor a0 a1 a2) = some e → Kept o e.2 := by
  intro e he
  unfold Dev.keysFor at he
  split at he
  · simp only [Option.some.injEq] at he
    subst he
    exact Dev.emit_kept _ _ _ (Dev.linkKeys_kept _ _ h0)
  · rw [Option.map_eq_some_iff] at he
    obtain ⟨k, -, rfl⟩ := he
    exact h0

@[simp] theorem Dev.linkRekey_kept (o : Keep) (a0 : Dev) (a1) (a2) (h0 : Kept o a0) : Kept o (@Dev.linkRekey a0 a1 a2) := by
  unfold Dev.linkRekey
  split
  · split
    · exact h0
    · rename_i h
      exact Dev.setPort_kept _ _ _ _ (Dev.keysFor_kept _ _ _ _ h0 _ h)
  · exact h0

@[simp] theorem Dev.linkKeyMessage_kept (o : Keep) (a0 : Dev) (a1) (a2) (h0 : Kept o a0) : Kept o (@Dev.linkKeyMessage a0 a1 a2) := by
  unfold Dev.linkKeyMessage
  repeat' first | assumption | intro _ | with_reducible apply kept_ite | with_reducible apply kept_forAll | with_reducible apply kept_foldl | with_reducible apply kept_when | with_reducible apply kept_foldl_fst | with_reducible apply kept_ite_fst | with_reducible apply kept_ite_snd | with_reducible apply Dev.setPort_kept | (with_reducible refine Dev.keysFor_kept _ _ _ ?_ _ (by assumption))| (with_reducible refine Dev.keysFor_kept _ _ _ _ ?_ _ (by assumption))| (with_reducible refine Dev.keysFor_kept _ _ _ _ _ ?_ _ (by assumption))| (with_reducible refine Dev.keysFor_kept _ _ _ _ _ _ ?_ _ (by assumption)) | (simp only [kept_mk, keptMem_dev]; done) | split | (simp only [kept_mk, keptMem_dev])

@[simp] theorem Dev.placePageIn_kept (o : Keep) (a0 : Dev) (a1) (h0 : Kept o a0) : Kept o (@Dev.placePageIn a0 a1) := by
  unfold Dev.placePageIn
  repeat' first | assumption | intro _ | with_reducible apply kept_ite | with_reducible apply kept_forAll | with_reducible apply kept_foldl | with_reducible apply kept_when | with_reducible apply kept_foldl_fst | with_reducible apply kept_ite_fst | with_reducible apply kept_ite_snd | with_reducible apply Dev.foundPage_kept | with_reducible apply Dev.dropPage_kept | with_reducible apply Dev.dropCand_kept | with_reducible apply Dev.releaseStorage_kept | with_reducible apply Dev.setEntry_kept | (simp only [kept_mk, keptMem_dev]; done) | split | (simp only [kept_mk, keptMem_dev])

@[simp] theorem Dev.passOn_kept (o : Keep) (a0 : Dev) (a1) (a2) (a3) (h0 : Kept o a0) : Kept o (@Dev.passOn a0 a1 a2 a3) := by
  simp (maxDischargeDepth := 20) +contextual [Dev.passOn, *]

@[simp] theorem Dev.remoteSnoop_kept (o : Keep) (a0 : Dev) (a1) (a2) (h0 : Kept o a0) : Kept o (@Dev.remoteSnoop a0 a1 a2) := by
  unfold Dev.remoteSnoop
  repeat' first | assumption | intro _ | with_reducible apply kept_ite | with_reducible apply kept_forAll | with_reducible apply kept_foldl | with_reducible apply kept_when | with_reducible apply kept_foldl_fst | with_reducible apply kept_ite_fst | with_reducible apply kept_ite_snd | with_reducible apply Dev.snoop_kept | (simp only [kept_mk, keptMem_dev]; done) | split | (simp only [kept_mk, keptMem_dev])

@[simp] theorem Dev.answerMsg_kept (o : Keep) (a0 : Dev) (a1) (a2) (a3) (h0 : Kept o a0) : Kept o (@Dev.answerMsg a0 a1 a2 a3) := by
  simp (maxDischargeDepth := 20) +contextual [Dev.answerMsg, *]

@[simp] theorem Dev.noGrant_kept (o : Keep) (a0 : Dev) (a1) (a2) (h0 : Kept o a0) : Kept o (@Dev.noGrant a0 a1 a2) := by
  simp (maxDischargeDepth := 20) +contextual [Dev.noGrant, *]

@[simp] theorem Dev.outsideGrant_kept (o : Keep) (a0 : Dev) (a1) (a2) (a3) (h0 : Kept o a0) : Kept o (@Dev.outsideGrant a0 a1 a2 a3) := by
  simp (maxDischargeDepth := 20) +contextual [Dev.outsideGrant, *]

@[simp] theorem Dev.dropRemote_kept (o : Keep) (a0 : Dev) (a1) (a2) (h0 : Kept o a0) : Kept o (@Dev.dropRemote a0 a1 a2) := by
  simp (maxDischargeDepth := 20) +contextual [Dev.dropRemote, *]

@[simp] theorem Dev.pageAckTimeout_kept (o : Keep) (a0 : Dev) (a1) (h0 : Kept o a0) : Kept o (@Dev.pageAckTimeout a0 a1) := by
  unfold Dev.pageAckTimeout
  repeat' first | assumption | intro _ | with_reducible apply kept_ite | with_reducible apply kept_forAll | with_reducible apply kept_foldl | with_reducible apply kept_when | with_reducible apply kept_foldl_fst | with_reducible apply kept_ite_fst | with_reducible apply kept_ite_snd | with_reducible apply Dev.sendPageFree_kept | with_reducible apply Dev.dropRemote_kept | (simp only [kept_mk, keptMem_dev]; done) | split | (simp only [kept_mk, keptMem_dev])

@[simp] theorem Dev.endFwd_kept (o : Keep) (a0 : Dev) (a1) (h0 : Kept o a0) : Kept o (@Dev.endFwd a0 a1) := by
  unfold Dev.endFwd
  repeat' first | assumption | intro _ | with_reducible apply kept_ite | with_reducible apply kept_forAll | with_reducible apply kept_foldl | with_reducible apply kept_when | with_reducible apply kept_foldl_fst | with_reducible apply kept_ite_fst | with_reducible apply kept_ite_snd | with_reducible apply Dev.restTag_kept | (simp only [kept_mk, keptMem_dev]; done) | split | (simp only [kept_mk, keptMem_dev])

@[simp] theorem Dev.remoteTimeout_kept (o : Keep) (a0 : Dev) (a1) (h0 : Kept o a0) : Kept o (@Dev.remoteTimeout a0 a1) := by
  unfold Dev.remoteTimeout
  repeat' first | assumption | intro _ | with_reducible apply kept_ite | with_reducible apply kept_forAll | with_reducible apply kept_foldl | with_reducible apply kept_when | with_reducible apply kept_foldl_fst | with_reducible apply kept_ite_fst | with_reducible apply kept_ite_snd | with_reducible apply Dev.endFwd_kept | with_reducible apply Dev.raise_kept | with_reducible apply Dev.remoteFail_kept | with_reducible apply Dev.respond_kept | (simp only [kept_mk, keptMem_dev]; done) | split | (simp only [kept_mk, keptMem_dev])

@[simp] theorem Dev.setFwd_kept (o : Keep) (a0 : Dev) (a1) (a2) (h0 : Kept o a0) : Kept o (@Dev.setFwd a0 a1 a2) := by
  simp (maxDischargeDepth := 20) +contextual [Dev.setFwd, *]

@[simp] theorem Dev.ownedPage_kept (o : Keep) (a0 : Dev) (a1) (h0 : Kept o a0) : Kept o (@Dev.ownedPage a0 a1).2 := by
  unfold Dev.ownedPage
  repeat' first | assumption | intro _ | with_reducible apply kept_ite | with_reducible apply kept_forAll | with_reducible apply kept_foldl | with_reducible apply kept_when | with_reducible apply kept_foldl_fst | with_reducible apply kept_ite_fst | with_reducible apply kept_ite_snd | with_reducible apply Dev.decodeError_kept | (simp only [kept_mk, keptMem_dev]; done) | split | (simp only [kept_mk, keptMem_dev])

@[simp] theorem Dev.sendOwned_kept (o : Keep) (a0 : Dev) (a1) (h0 : Kept o a0) : Kept o (@Dev.sendOwned a0 a1) := by
  simp (maxDischargeDepth := 20) +contextual [Dev.sendOwned, *]

@[simp] theorem Dev.fwdGot_kept (o : Keep) (a0 : Dev) (a1) (a2) (h0 : Kept o a0) : Kept o (@Dev.fwdGot a0 a1 a2) := by
  simp (maxDischargeDepth := 20) +contextual [Dev.fwdGot, *]

@[simp] theorem Dev.noteGrant_kept (o : Keep) (a0 : Dev) (a1) (h0 : Kept o a0) : Kept o (@Dev.noteGrant a0 a1) := by
  unfold Dev.noteGrant
  repeat' first | assumption | intro _ | with_reducible apply kept_ite | with_reducible apply kept_forAll | with_reducible apply kept_foldl | with_reducible apply kept_when | with_reducible apply kept_foldl_fst | with_reducible apply kept_ite_fst | with_reducible apply kept_ite_snd | with_reducible apply forAll_kept | with_reducible apply Dev.setPump_kept | (simp only [kept_mk, keptMem_dev]; done) | split | (simp only [kept_mk, keptMem_dev])

@[simp] theorem Dev.dropIncoming_kept (o : Keep) (a0 : Dev) (a1) (a2) (h0 : Kept o a0) : Kept o (@Dev.dropIncoming a0 a1 a2) := by
  unfold Dev.dropIncoming
  repeat' first | assumption | intro _ | with_reducible apply kept_ite | with_reducible apply kept_forAll | with_reducible apply kept_foldl | with_reducible apply kept_when | with_reducible apply kept_foldl_fst | with_reducible apply kept_ite_fst | with_reducible apply kept_ite_snd | with_reducible apply forAll_kept | with_reducible apply Dev.freeFrame_kept | (simp only [kept_mk, keptMem_dev]; done) | split | (simp only [kept_mk, keptMem_dev])

@[simp] theorem Dev.setJob_kept (o : Keep) (a0 : Dev) (a1) (a2) (h0 : Kept o a0) : Kept o (@Dev.setJob a0 a1 a2) := by
  simp (maxDischargeDepth := 20) +contextual [Dev.setJob, *]

@[simp] theorem Dev.granuleIn_kept (o : Keep) (a0 : Dev) (a1) (a2) (h0 : Kept o a0) : Kept o (@Dev.granuleIn a0 a1 a2) := by
  unfold Dev.granuleIn
  repeat' first | assumption | intro _ | with_reducible apply kept_ite | with_reducible apply kept_forAll | with_reducible apply kept_foldl | with_reducible apply kept_when | with_reducible apply kept_foldl_fst | with_reducible apply kept_ite_fst | with_reducible apply kept_ite_snd | with_reducible apply Dev.putGran_kept | with_reducible apply Dev.send_kept | with_reducible apply Dev.placePageIn_kept | (simp only [kept_mk, keptMem_dev]; done) | split | (simp only [kept_mk, keptMem_dev])

@[simp] theorem Dev.pageFreeTimeout_kept (o : Keep) (a0 : Dev) (a1) (h0 : Kept o a0) : Kept o (@Dev.pageFreeTimeout a0 a1) := by
  unfold Dev.pageFreeTimeout
  repeat' first | assumption | intro _ | with_reducible apply kept_ite | with_reducible apply kept_forAll | with_reducible apply kept_foldl | with_reducible apply kept_when | with_reducible apply kept_foldl_fst | with_reducible apply kept_ite_fst | with_reducible apply kept_ite_snd | with_reducible apply Dev.raise_kept | with_reducible apply Dev.restTag_kept | with_reducible apply Dev.send_kept | (simp only [kept_mk, keptMem_dev]; done) | split | (simp only [kept_mk, keptMem_dev])

@[simp] theorem Dev.granulePulled_kept (o : Keep) (a0 : Dev) (a1) (a2) (a3) (h0 : Kept o a0) : Kept o (@Dev.granulePulled a0 a1 a2 a3) := by
  simp (maxDischargeDepth := 20) +contextual [Dev.granulePulled, *]

@[simp] theorem Dev.receive_kept (o : Keep) (a0 : Dev) (a1) (a2) (a3) (a4 : Dev → Dev) (h0 : Kept o a0) (h4 : ∀ y0, Kept o y0 → Kept o (a4 y0)) : Kept o (@Dev.receive a0 a1 a2 a3 a4) := by
  unfold Dev.receive
  extract_lets
  refine kept_ite _ _ _ _ h0 (kept_ite _ _ _ _ (Dev.passOn_kept _ _ _ _ _ h0) (kept_ite _ _ _ _ (Dev.raise_kept _ _ _ _ _ h0) (h4 _ h0)))

@[simp] theorem Dev.terdyBISnpCur_kept (o : Keep) (a0 : Dev) (a1) (a2) (h0 : Kept o a0) : Kept o (@Dev.terdyBISnpCur a0 a1 a2) := by
  simp (maxDischargeDepth := 20) +contextual [Dev.terdyBISnpCur, *]

@[simp] theorem Dev.cascadeAdmit_kept (o : Keep) (a0 : Dev) (a1) (a2) (h0 : Kept o a0) : Kept o (@Dev.cascadeAdmit a0 a1 a2) := by
  simp (maxDischargeDepth := 20) +contextual [Dev.cascadeAdmit, *]

@[simp] theorem Dev.remoteRequest_kept (o : Keep) (a0 : Dev) (a1) (a2) (a3) (h0 : Kept o a0) : Kept o (@Dev.remoteRequest a0 a1 a2 a3) := by
  simp (maxDischargeDepth := 20) +contextual [Dev.remoteRequest, *]

@[simp] theorem Dev.terdyMemRd_kept (o : Keep) (a0 : Dev) (a1) (a2) (h0 : Kept o a0) : Kept o (@Dev.terdyMemRd a0 a1 a2) := by
  simp (maxDischargeDepth := 20) +contextual [Dev.terdyMemRd, *]

@[simp] theorem Dev.remoteWrite_kept (o : Keep) (a0 : Dev) (a1) (a2) (a3) (h0 : Kept o a0) : Kept o (@Dev.remoteWrite a0 a1 a2 a3) := by
  simp (maxDischargeDepth := 20) +contextual [Dev.remoteWrite, *]

@[simp] theorem Dev.terdyMemWr_kept (o : Keep) (a0 : Dev) (a1) (a2) (h0 : Kept o a0) : Kept o (@Dev.terdyMemWr a0 a1 a2) := by
  simp (maxDischargeDepth := 20) +contextual [Dev.terdyMemWr, *]

@[simp] theorem Dev.writeRetry_kept (o : Keep) (a0 : Dev) (a1) (a2) (h0 : Kept o a0) : Kept o (@Dev.writeRetry a0 a1 a2) := by
  unfold Dev.writeRetry
  repeat' first | assumption | intro _ | with_reducible apply kept_ite | with_reducible apply kept_forAll | with_reducible apply kept_foldl | with_reducible apply kept_when | with_reducible apply kept_foldl_fst | with_reducible apply kept_ite_fst | with_reducible apply kept_ite_snd | with_reducible apply Dev.receive_kept | with_reducible apply Dev.send_kept | with_reducible apply Dev.setFwd_kept | (simp only [kept_mk, keptMem_dev]; done) | split | (simp only [kept_mk, keptMem_dev])

@[simp] theorem Dev.fetchRun_kept (o : Keep) (a0 : Dev) (h0 : Kept o a0) : Kept o (@Dev.fetchRun a0) := by
  unfold Dev.fetchRun
  extract_lets d
  have hd : Kept o d := by simp (maxDischargeDepth := 20) +contextual [d, *]
  clear_value d
  split
  refine kept_forAll _ _ _ _ hd fun d x hd => by simp [*]

@[simp] theorem Dev.terdyMemRdData_kept (o : Keep) (a0 : Dev) (a1) (a2) (h0 : Kept o a0) : Kept o (@Dev.terdyMemRdData a0 a1 a2) := by
  simp (maxDischargeDepth := 20) +contextual [Dev.terdyMemRdData, *]

@[simp] theorem Dev.terdyMemData_kept (o : Keep) (a0 : Dev) (a1) (a2) (h0 : Kept o a0) : Kept o (@Dev.terdyMemData a0 a1 a2) := by
  unfold Dev.terdyMemData
  repeat' first | assumption | intro _ | with_reducible apply kept_ite | with_reducible apply kept_forAll | with_reducible apply kept_foldl | with_reducible apply kept_when | with_reducible apply kept_foldl_fst | with_reducible apply kept_ite_fst | with_reducible apply kept_ite_snd | with_reducible apply Dev.receive_kept | with_reducible apply Dev.fwdGot_kept | with_reducible apply Dev.respond1_kept | (simp only [kept_mk, keptMem_dev]; done) | split | (simp only [kept_mk, keptMem_dev])

@[simp] theorem Dev.terdyBISnpData_kept (o : Keep) (a0 : Dev) (a1) (a2) (h0 : Kept o a0) : Kept o (@Dev.terdyBISnpData a0 a1 a2) := by
  simp (maxDischargeDepth := 20) +contextual [Dev.terdyBISnpData, *]

@[simp] theorem Dev.terdyMemWrRetried_kept (o : Keep) (a0 : Dev) (a1) (a2) (h0 : Kept o a0) : Kept o (@Dev.terdyMemWrRetried a0 a1 a2) := by
  simp (maxDischargeDepth := 20) +contextual [Dev.terdyMemWrRetried, *]

@[simp] theorem Dev.terdyCmp_kept (o : Keep) (a0 : Dev) (a1) (a2) (h0 : Kept o a0) : Kept o (@Dev.terdyCmp a0 a1 a2) := by
  unfold Dev.terdyCmp
  repeat' first | assumption | intro _ | with_reducible apply kept_ite | with_reducible apply kept_forAll | with_reducible apply kept_foldl | with_reducible apply kept_when | with_reducible apply kept_foldl_fst | with_reducible apply kept_ite_fst | with_reducible apply kept_ite_snd | with_reducible apply Dev.receive_kept | with_reducible apply Dev.noteGrant_kept | with_reducible apply Dev.fwdGot_kept | with_reducible apply Dev.respond1_kept | (simp only [kept_mk, keptMem_dev]; done) | split | (simp only [kept_mk, keptMem_dev])

@[simp] theorem Dev.terdyMemInvNT_kept (o : Keep) (a0 : Dev) (a1) (a2) (h0 : Kept o a0) : Kept o (@Dev.terdyMemInvNT a0 a1 a2) := by
  simp (maxDischargeDepth := 20) +contextual [Dev.terdyMemInvNT, *]

@[simp] theorem Dev.jobAck_kept (o : Keep) (a0 : Dev) (a1) (a2) (a3) (h0 : Kept o a0) : Kept o (@Dev.jobAck a0 a1 a2 a3) := by
  simp (maxDischargeDepth := 20) +contextual [Dev.jobAck, *]

@[simp] theorem Dev.pageAck_kept (o : Keep) (a0 : Dev) (a1) (a2) (h0 : Kept o a0) : Kept o (@Dev.pageAck a0 a1 a2) := by
  unfold Dev.pageAck
  repeat' first | assumption | intro _ | with_reducible apply kept_ite | with_reducible apply kept_forAll | with_reducible apply kept_foldl | with_reducible apply kept_when | with_reducible apply kept_foldl_fst | with_reducible apply kept_ite_fst | with_reducible apply kept_ite_snd | with_reducible apply Dev.receive_kept | with_reducible apply Dev.restTag_kept | with_reducible apply Dev.jobAck_kept | (simp only [kept_mk, keptMem_dev]; done) | split | (simp only [kept_mk, keptMem_dev])

@[simp] theorem Dev.terdyMemClnEvct_kept (o : Keep) (a0 : Dev) (a1) (a2) (h0 : Kept o a0) : Kept o (@Dev.terdyMemClnEvct a0 a1 a2) := by
  simp (maxDischargeDepth := 20) +contextual [Dev.terdyMemClnEvct, *]

@[simp] theorem Dev.pageFetch_kept (o : Keep) (a0 : Dev) (a1) (a2) (h0 : Kept o a0) : Kept o (@Dev.pageFetch a0 a1 a2) := by
  unfold Dev.pageFetch
  repeat' first | assumption | intro _ | with_reducible apply kept_ite | with_reducible apply kept_forAll | with_reducible apply kept_foldl | with_reducible apply kept_when | with_reducible apply kept_foldl_fst | with_reducible apply kept_ite_fst | with_reducible apply kept_ite_snd | with_reducible apply Dev.receive_kept | with_reducible apply Dev.wake_kept | with_reducible apply Dev.fetchRun_kept | with_reducible apply Dev.noGrant_kept | (simp only [kept_mk, keptMem_dev]; done) | split | (simp only [kept_mk, keptMem_dev])

@[simp] theorem Dev.pageFree_kept (o : Keep) (a0 : Dev) (a1) (a2) (h0 : Kept o a0) : Kept o (@Dev.pageFree a0 a1 a2) := by
  simp (maxDischargeDepth := 20) +contextual [Dev.pageFree, *]

@[simp] theorem Dev.terdyBIConflict_kept (o : Keep) (a0 : Dev) (a1) (a2) (h0 : Kept o a0) : Kept o (@Dev.terdyBIConflict a0 a1 a2) := by
  simp (maxDischargeDepth := 20) +contextual [Dev.terdyBIConflict, *]

@[simp] theorem Dev.terdyMemWrPtlRetried_kept (o : Keep) (a0 : Dev) (a1) (a2) (h0 : Kept o a0) : Kept o (@Dev.terdyMemWrPtlRetried a0 a1 a2) := by
  simp (maxDischargeDepth := 20) +contextual [Dev.terdyMemWrPtlRetried, *]

@[simp] theorem Dev.pagePlace_kept (o : Keep) (a0 : Dev) (a1) (a2) (h0 : Kept o a0) : Kept o (@Dev.pagePlace a0 a1 a2) := by
  unfold Dev.pagePlace
  repeat' first | assumption | intro _ | with_reducible apply kept_ite | with_reducible apply kept_forAll | with_reducible apply kept_foldl | with_reducible apply kept_when | with_reducible apply kept_foldl_fst | with_reducible apply kept_ite_fst | with_reducible apply kept_ite_snd | with_reducible apply Dev.receive_kept | with_reducible apply Dev.noGrant_kept | with_reducible apply Dev.dropIncoming_kept | with_reducible apply Dev.wake_kept | with_reducible apply Dev.answerMsg_kept | (with_reducible refine Dev.allocFrame_kept _ _ _ ?_ _ (by assumption))| (with_reducible refine Dev.allocFrame_kept _ _ _ _ ?_ _ (by assumption))| (with_reducible refine Dev.allocFrame_kept _ _ _ _ _ ?_ _ (by assumption))| (with_reducible refine Dev.allocFrame_kept _ _ _ _ _ _ ?_ _ (by assumption)) | (simp only [kept_mk, keptMem_dev]; done) | split | (simp only [kept_mk, keptMem_dev])

@[simp] theorem Dev.terdyBIConflictAck_kept (o : Keep) (a0 : Dev) (a1) (a2) (h0 : Kept o a0) : Kept o (@Dev.terdyBIConflictAck a0 a1 a2) := by
  unfold Dev.terdyBIConflictAck
  repeat' first | assumption | intro _ | with_reducible apply kept_ite | with_reducible apply kept_forAll | with_reducible apply kept_foldl | with_reducible apply kept_when | with_reducible apply kept_foldl_fst | with_reducible apply kept_ite_fst | with_reducible apply kept_ite_snd | with_reducible apply Dev.receive_kept | with_reducible apply Dev.respond1_kept | (simp only [kept_mk, keptMem_dev]; done) | split | (simp only [kept_mk, keptMem_dev])

@[simp] theorem Dev.terdyMemWrPtl_kept (o : Keep) (a0 : Dev) (a1) (a2) (h0 : Kept o a0) : Kept o (@Dev.terdyMemWrPtl a0 a1 a2) := by
  simp (maxDischargeDepth := 20) +contextual [Dev.terdyMemWrPtl, *]

@[simp] theorem Dev.terdyBISnpInv_kept (o : Keep) (a0 : Dev) (a1) (a2) (h0 : Kept o a0) : Kept o (@Dev.terdyBISnpInv a0 a1 a2) := by
  simp (maxDischargeDepth := 20) +contextual [Dev.terdyBISnpInv, *]

@[simp] theorem Dev.pageData_kept (o : Keep) (a0 : Dev) (a1) (a2) (h0 : Kept o a0) : Kept o (@Dev.pageData a0 a1 a2) := by
  unfold Dev.pageData
  repeat' first | assumption | intro _ | with_reducible apply kept_ite | with_reducible apply kept_forAll | with_reducible apply kept_foldl | with_reducible apply kept_when | with_reducible apply kept_foldl_fst | with_reducible apply kept_ite_fst | with_reducible apply kept_ite_snd | with_reducible apply Dev.receive_kept | with_reducible apply Dev.granuleIn_kept | with_reducible apply Dev.granulePulled_kept | (simp only [kept_mk, keptMem_dev]; done) | split | (simp only [kept_mk, keptMem_dev])

@[simp] theorem Dev.terdyBIRsp_kept (o : Keep) (a0 : Dev) (a1) (a2) (h0 : Kept o a0) : Kept o (@Dev.terdyBIRsp a0 a1 a2) := by
  simp (maxDischargeDepth := 20) +contextual [Dev.terdyBIRsp, *]

@[simp] theorem Dev.terdyMemInv_kept (o : Keep) (a0 : Dev) (a1) (a2) (h0 : Kept o a0) : Kept o (@Dev.terdyMemInv a0 a1 a2) := by
  simp (maxDischargeDepth := 20) +contextual [Dev.terdyMemInv, *]

@[simp] theorem Dev.rejoinEnd_kept (o : Keep) (a0 : Dev) (a1) (a2) (a3) (a4) (h0 : Kept o a0) : Kept o (@Dev.rejoinEnd a0 a1 a2 a3 a4) := by
  unfold Dev.rejoinEnd
  (repeat' split) <;> simp +contextual [*]

@[simp] theorem Dev.rejoinStep_kept (o : Keep) (a0 : Dev) (a1 : Dev) (a2) (h0 : Kept o a0) : Kept o (@Dev.rejoinStep a0 a1 a2) := by
  unfold Dev.rejoinStep
  repeat' first | assumption | intro _ | split | with_reducible apply kept_forAll | with_reducible apply kept_foldl | with_reducible apply kept_when | with_reducible apply kept_foldl_fst | with_reducible apply kept_ite | with_reducible apply kept_ite_fst | with_reducible apply Dev.setDom_kept | with_reducible apply Dev.rejoinEnd_kept | with_reducible apply Dev.broadcast_kept | with_reducible apply Dev.raiseI_kept | (simp only [kept_mk, keptMem_dev])

@[simp] theorem Dev.rejoinTimeout_kept (o : Keep) (a0 : Dev) (a1) (h0 : Kept o a0) : Kept o (@Dev.rejoinTimeout a0 a1) := by
  unfold Dev.rejoinTimeout
  repeat' first | assumption | intro _ | with_reducible apply kept_ite | with_reducible apply kept_forAll | with_reducible apply kept_foldl | with_reducible apply kept_when | with_reducible apply kept_foldl_fst | with_reducible apply kept_ite_fst | with_reducible apply kept_ite_snd | with_reducible apply Dev.rejoinEnd_kept | with_reducible apply Dev.rejoinBack_kept | (simp only [kept_mk, keptMem_dev]; done) | split | (simp only [kept_mk, keptMem_dev])

@[simp] theorem Dev.broadcastAck_kept (o : Keep) (a0 : Dev) (a1) (a2) (h0 : Kept o a0) : Kept o (@Dev.broadcastAck a0 a1 a2) := by
  unfold Dev.broadcastAck
  repeat' first | assumption | intro _ | with_reducible apply kept_ite | with_reducible apply kept_forAll | with_reducible apply kept_foldl | with_reducible apply kept_when | with_reducible apply kept_foldl_fst | with_reducible apply kept_ite_fst | with_reducible apply kept_ite_snd | with_reducible apply forAll_kept | with_reducible apply Dev.setDom_kept | with_reducible apply Dev.takeVote_kept | with_reducible apply Dev.takeAck_kept | (simp only [kept_mk, keptMem_dev]; done) | split | (simp only [kept_mk, keptMem_dev])

@[simp] theorem Dev.rejoinDomain_kept (o : Keep) (a0 : Dev) (a1) (a2) (h0 : Kept o a0) : Kept o (@Dev.rejoinDomain a0 a1 a2) := by
  simp (maxDischargeDepth := 20) +contextual [Dev.rejoinDomain, *]

@[simp] theorem Dev.downStep_kept (o : Keep) (a0 : Dev) (a1 : Dev) (a2) (h0 : Kept o a0) : Kept o (@Dev.downStep a0 a1 a2) := by
  unfold Dev.downStep
  repeat' first | assumption | intro _ | with_reducible apply kept_ite | with_reducible apply kept_forAll | with_reducible apply kept_foldl | with_reducible apply kept_when | with_reducible apply kept_foldl_fst | with_reducible apply kept_ite_fst | with_reducible apply kept_ite_snd | with_reducible apply Dev.handleDown_kept | with_reducible apply Dev.rejoinEnd_kept | with_reducible apply Dev.rejoinBack_kept | with_reducible apply Dev.setDom_kept | (simp only [kept_mk, keptMem_dev]; done) | split | (simp only [kept_mk, keptMem_dev])

@[simp] theorem Dev.domBoundary_kept (o : Keep) (a0 : Dev) (a1 : Dev) (h0 : Kept o a0) : Kept o (@Dev.domBoundary a0 a1) := by
  unfold Dev.domBoundary
  repeat' first | assumption | intro _ | with_reducible apply kept_ite | with_reducible apply kept_forAll | with_reducible apply kept_foldl | with_reducible apply kept_when | with_reducible apply kept_foldl_fst | with_reducible apply kept_ite_fst | with_reducible apply kept_ite_snd | with_reducible apply forAll_kept | with_reducible apply Dev.downStep_kept | with_reducible apply Dev.handleRemoteDown_kept | with_reducible apply Dev.rejoinStep_kept | with_reducible apply Dev.ack_kept | (simp only [kept_mk, keptMem_dev]; done) | split | (simp only [kept_mk, keptMem_dev])

@[simp] theorem Dev.domainDown_kept (o : Keep) (a0 : Dev) (a1) (a2) (h0 : Kept o a0) : Kept o (@Dev.domainDown a0 a1 a2) := by
  unfold Dev.domainDown
  repeat' first | assumption | intro _ | with_reducible apply kept_ite | with_reducible apply kept_forAll | with_reducible apply kept_foldl | with_reducible apply kept_when | with_reducible apply kept_foldl_fst | with_reducible apply kept_ite_fst | with_reducible apply kept_ite_snd | with_reducible apply Dev.detectDown_kept | (with_reducible refine Dev.hear_kept _ _ _ ?_ _ (by assumption))| (with_reducible refine Dev.hear_kept _ _ _ _ ?_ _ (by assumption))| (with_reducible refine Dev.hear_kept _ _ _ _ _ ?_ _ (by assumption))| (with_reducible refine Dev.hear_kept _ _ _ _ _ _ ?_ _ (by assumption)) | (simp only [kept_mk, keptMem_dev]; done) | split | (simp only [kept_mk, keptMem_dev])

@[simp] theorem Dev.domainUp_kept (o : Keep) (a0 : Dev) (a1) (a2) (h0 : Kept o a0) : Kept o (@Dev.domainUp a0 a1 a2) := by
  unfold Dev.domainUp
  repeat' first | assumption | intro _ | with_reducible apply kept_ite | with_reducible apply kept_forAll | with_reducible apply kept_foldl | with_reducible apply kept_when | with_reducible apply kept_foldl_fst | with_reducible apply kept_ite_fst | with_reducible apply kept_ite_snd | (with_reducible refine Dev.hear_kept _ _ _ ?_ _ (by assumption))| (with_reducible refine Dev.hear_kept _ _ _ _ ?_ _ (by assumption))| (with_reducible refine Dev.hear_kept _ _ _ _ _ ?_ _ (by assumption))| (with_reducible refine Dev.hear_kept _ _ _ _ _ _ ?_ _ (by assumption)) | (simp only [kept_mk, keptMem_dev]; done) | split | (simp only [kept_mk, keptMem_dev])

end Sys2Proof.Machine
end

