-- ==== Sys2Proof/Laws/KeptHost.lean ====
section
/-! SUPPORT. That host requests and management commands keep both byte memories in canonical form and change the OTP only as it may be burnt: one lemma for each
operation that answers a device. -/

namespace Sys2Proof.Machine

open Sys2Proof

set_option linter.unreachableTactic false
set_option linter.unusedTactic false
set_option linter.unusedSimpArgs false

@[simp] theorem Dev.tableAccess_kept (o : Keep) (a0 : Dev) (a1) (h0 : Kept o a0) : Kept o (@Dev.tableAccess a0 a1) := by
  simp +contextual [Dev.tableAccess, *]

@[simp] theorem Dev.portAnswer_kept (o : Keep) (a0 : Dev) (a1) (a2) (a3) (a4) (h0 : Kept o a0) : Kept o (@Dev.portAnswer a0 a1 a2 a3 a4) := by
  simp +contextual [Dev.portAnswer, *]

@[simp] theorem Dev.outOfView_kept (o : Keep) (a0 : Dev) (a1) (a2) (a3) (a4) (a5) (h0 : Kept o a0) : Kept o (@Dev.outOfView a0 a1 a2 a3 a4 a5) := by
  simp (maxDischargeDepth := 20) +contextual [Dev.outOfView, *]

@[simp] theorem Dev.completeWrite_kept (o : Keep) (a0 : Dev) (a1) (h0 : Kept o a0) : Kept o (@Dev.completeWrite a0 a1) := by
  unfold Dev.completeWrite
  repeat' first | assumption | intro _ | with_reducible apply kept_ite | with_reducible apply kept_forAll | with_reducible apply kept_foldl | with_reducible apply kept_when | with_reducible apply kept_foldl_fst | with_reducible apply kept_ite_fst | with_reducible apply kept_ite_snd | with_reducible apply Dev.forward_kept | with_reducible apply Dev.writePromoting_kept | with_reducible apply Dev.serveWrite_kept | (simp only [kept_mk, keptMem_dev]; done) | split | (simp only [kept_mk, keptMem_dev])

@[simp] theorem Dev.portReset_kept (o : Keep) (a0 : Dev) (a1) (h0 : Kept o a0) : Kept o (@Dev.portReset a0 a1) := by
  unfold Dev.portReset
  repeat' first | assumption | intro _ | with_reducible apply kept_ite | with_reducible apply kept_forAll | with_reducible apply kept_foldl | with_reducible apply kept_when | with_reducible apply kept_foldl_fst | with_reducible apply kept_ite_fst | with_reducible apply kept_ite_snd | with_reducible apply forAll_kept | with_reducible apply Dev.setHs_kept | with_reducible apply Dev.mapBg_kept | with_reducible apply Dev.endHeadRest_kept | with_reducible apply Dev.setHead_kept | with_reducible apply Dev.completeWrite_kept | (simp only [kept_mk, keptMem_dev]; done) | split | (simp only [kept_mk, keptMem_dev])

@[simp] theorem Dev.hostLinkDown_kept (o : Keep) (a0 : Dev) (a1) (h0 : Kept o a0) : Kept o (@Dev.hostLinkDown a0 a1) := by
  simp (maxDischargeDepth := 20) +contextual [Dev.hostLinkDown, *]

@[simp] theorem Dev.hdmDecoderCommit_kept (o : Keep) (a0 : Dev) (a1) (a2) (a3) (h0 : Kept o a0) : Kept o (@Dev.hdmDecoderCommit a0 a1 a2 a3) := by
  simp (maxDischargeDepth := 20) +contextual [Dev.hdmDecoderCommit, *]

@[simp] theorem Dev.cisternEviction_kept (o : Keep) (a0 : Dev) (a1) (a2) (h0 : Kept o a0) : Kept o (@Dev.cisternEviction a0 a1 a2) := by
  simp (maxDischargeDepth := 20) +contextual [Dev.cisternEviction, *]

@[simp] theorem Dev.ltrConfigWrite_kept (o : Keep) (a0 : Dev) (a1) (a2) (a3) (a4) (h0 : Kept o a0) : Kept o (@Dev.ltrConfigWrite a0 a1 a2 a3 a4) := by
  simp (maxDischargeDepth := 20) +contextual [Dev.ltrConfigWrite, *]

@[simp] theorem Dev.readBroken_kept (o : Keep) (a0 : Dev) (a1) (a2) (a3) (h0 : Kept o a0) : Kept o (@Dev.readBroken a0 a1 a2 a3) := by
  simp (maxDischargeDepth := 20) +contextual [Dev.readBroken, *]

@[simp] theorem Dev.promoErased_kept (o : Keep) (a0 : Dev) (a1) (h0 : Kept o a0) : Kept o (@Dev.promoErased a0 a1) := by
  unfold Dev.promoErased
  (repeat' split) <;> simp (maxDischargeDepth := 20) +contextual [*]

@[simp] theorem Dev.fillFrom_kept (o : Keep) (a0 : Dev) (a1) (a2) (a3) (h0 : Kept o a0) : Kept o (@Dev.fillFrom a0 a1 a2 a3) := by
  simp (maxDischargeDepth := 20) +contextual [Dev.fillFrom, *]

@[simp] theorem Dev.promoWrite_kept (o : Keep) (a0 : Dev) (a1) (h0 : Kept o a0) : Kept o (@Dev.promoWrite a0 a1) := by
  unfold Dev.promoWrite
  repeat' first | assumption | intro _ | with_reducible apply kept_ite | with_reducible apply kept_forAll | with_reducible apply kept_foldl | with_reducible apply kept_when | with_reducible apply kept_foldl_fst | with_reducible apply kept_ite_fst | with_reducible apply kept_ite_snd | with_reducible apply Dev.pushGuest_kept | with_reducible apply Dev.respond_kept | with_reducible apply Dev.writeT1_kept | (simp only [kept_mk, keptMem_dev]; done) | split | (simp only [kept_mk, keptMem_dev])

@[simp] theorem Dev.promoLost_kept (o : Keep) (a0 : Dev) (a1) (h0 : Kept o a0) : Kept o (@Dev.promoLost a0 a1) := by
  simp (maxDischargeDepth := 20) +contextual [Dev.promoLost, *]

@[simp] theorem Dev.keepExpiry_kept (o : Keep) (a0 : Dev) (a1) (h0 : Kept o a0) : Kept o (@Dev.keepExpiry a0 a1) := by
  unfold Dev.keepExpiry
  repeat' first | assumption | intro _ | with_reducible apply kept_ite | with_reducible apply kept_forAll | with_reducible apply kept_foldl | with_reducible apply kept_when | with_reducible apply kept_foldl_fst | with_reducible apply kept_ite_fst | with_reducible apply kept_ite_snd | with_reducible apply Dev.setGran_kept | (simp only [kept_mk, keptMem_dev]; done) | split | (simp only [kept_mk, keptMem_dev])

@[simp] theorem Dev.joinDomains_kept (o : Keep) (a0 : Dev) (a1) (h0 : Kept o a0) : Kept o (@Dev.joinDomains a0 a1) := by
  simp (maxDischargeDepth := 20) +contextual [Dev.joinDomains, *]

@[simp] theorem Dev.perstAssertion_kept (o : Keep) (a0 : Dev) (a1) (h0 : Kept o a0) : Kept o (@Dev.perstAssertion a0 a1) := by
  simp (maxDischargeDepth := 20) +contextual [Dev.perstAssertion, *]

@[simp] theorem Dev.readCompletion_kept (o : Keep) (a0 : Dev) (a1) (h0 : Kept o a0) : Kept o (@Dev.readCompletion a0 a1) := by
  unfold Dev.readCompletion
  repeat' first | assumption | intro _ | with_reducible apply kept_ite | with_reducible apply kept_forAll | with_reducible apply kept_foldl | with_reducible apply kept_when | with_reducible apply kept_foldl_fst | with_reducible apply kept_ite_fst | with_reducible apply kept_ite_snd | with_reducible apply Dev.poisonRead_kept | with_reducible apply Dev.respond_kept | with_reducible apply Dev.forward_kept | with_reducible apply Dev.readBroken_kept | with_reducible apply Dev.fillFrom_kept | (simp only [kept_mk, keptMem_dev]; done) | split | (simp only [kept_mk, keptMem_dev])

@[simp] theorem Dev.m2sBIConflict_kept (o : Keep) (a0 : Dev) (a1) (a2) (h0 : Kept o a0) : Kept o (@Dev.m2sBIConflict a0 a1 a2) := by
  unfold Dev.m2sBIConflict
  repeat' first | assumption | intro _ | with_reducible apply kept_ite | with_reducible apply kept_forAll | with_reducible apply kept_foldl | with_reducible apply kept_when | with_reducible apply kept_foldl_fst | with_reducible apply kept_ite_fst | with_reducible apply kept_ite_snd | with_reducible apply Dev.memberConflict_kept | (simp only [kept_mk, keptMem_dev]; done) | split | (simp only [kept_mk, keptMem_dev])

@[simp] theorem Dev.perstDeassertion_kept (o : Keep) (a0 : Dev) (a1) (h0 : Kept o a0) : Kept o (@Dev.perstDeassertion a0 a1) := by
  simp (maxDischargeDepth := 20) +contextual [Dev.perstDeassertion, *]

@[simp] theorem Dev.holdTimeout_kept (o : Keep) (a0 : Dev) (a1) (h0 : Kept o a0) : Kept o (@Dev.holdTimeout a0 a1) := by
  unfold Dev.holdTimeout
  repeat' first | assumption | intro _ | with_reducible apply kept_ite | with_reducible apply kept_forAll | with_reducible apply kept_foldl | with_reducible apply kept_when | with_reducible apply kept_foldl_fst | with_reducible apply kept_ite_fst | with_reducible apply kept_ite_snd | with_reducible apply Dev.detectDown_kept | with_reducible apply Dev.raise_kept | (simp only [kept_mk, keptMem_dev]; done) | split | (simp only [kept_mk, keptMem_dev])

@[simp] theorem Dev.snoopTimeout_kept (o : Keep) (a0 : Dev) (a1) (h0 : Kept o a0) : Kept o (@Dev.snoopTimeout a0 a1) := by
  unfold Dev.snoopTimeout
  repeat' first | assumption | intro _ | with_reducible apply kept_ite | with_reducible apply kept_forAll | with_reducible apply kept_foldl | with_reducible apply kept_when | with_reducible apply kept_foldl_fst | with_reducible apply kept_ite_fst | with_reducible apply kept_ite_snd | with_reducible apply Dev.detectDown_kept | with_reducible apply Dev.raise_kept | (simp only [kept_mk, keptMem_dev]; done) | split | (simp only [kept_mk, keptMem_dev])

@[simp] theorem Dev.ageHolds_kept (o : Keep) (a0 : Dev) (h0 : Kept o a0) : Kept o (@Dev.ageHolds a0) := by
  simp (maxDischargeDepth := 20) +contextual [Dev.ageHolds, *]

@[simp] theorem Dev.ideIntegrityFailure_kept (o : Keep) (a0 : Dev) (a1) (a2) (h0 : Kept o a0) : Kept o (@Dev.ideIntegrityFailure a0 a1 a2) := by
  simp (maxDischargeDepth := 20) +contextual [Dev.ideIntegrityFailure, *]

@[simp] theorem Dev.inlinePromotionEnd_kept (o : Keep) (a0 : Dev) (a1) (h0 : Kept o a0) : Kept o (@Dev.inlinePromotionEnd a0 a1) := by
  unfold Dev.inlinePromotionEnd
  repeat' first | assumption | intro _ | with_reducible apply kept_ite | with_reducible apply kept_forAll | with_reducible apply kept_foldl | with_reducible apply kept_when | with_reducible apply kept_foldl_fst | with_reducible apply kept_ite_fst | with_reducible apply kept_ite_snd | with_reducible apply Dev.promoErased_kept | with_reducible apply Dev.promoLost_kept | with_reducible apply Dev.decodeError_kept | with_reducible apply Dev.setEntry_kept | with_reducible apply Dev.promoWrite_kept | with_reducible apply Dev.placePage_kept | with_reducible apply Dev.releaseStorage_kept | (simp only [kept_mk, keptMem_dev]; done) | split | (simp only [kept_mk, keptMem_dev])

@[simp] theorem Dev.hostLinkUp_kept (o : Keep) (a0 : Dev) (a1) (a2) (a3) (h0 : Kept o a0) : Kept o (@Dev.hostLinkUp a0 a1 a2 a3) := by
  simp (maxDischargeDepth := 20) +contextual [Dev.hostLinkUp, *]

@[simp] theorem Dev.ideKeyProgram_kept (o : Keep) (a0 : Dev) (a1) (a2) (a3) (h0 : Kept o a0) : Kept o (@Dev.ideKeyProgram a0 a1 a2 a3) := by
  simp (maxDischargeDepth := 20) +contextual [Dev.ideKeyProgram, *]

@[simp] theorem Dev.arbiterAdmission_kept (o : Keep) (a0 : Dev) (a1) (a2) (h0 : Kept o a0) : Kept o (@Dev.arbiterAdmission a0 a1 a2) := by
  simp (maxDischargeDepth := 20) +contextual [Dev.arbiterAdmission, *]

@[simp] theorem Dev.portAdmit_kept (o : Keep) (a0 : Dev) (a1) (a2) (h0 : Kept o a0) : Kept o (@Dev.portAdmit a0 a1 a2) := by
  simp (maxDischargeDepth := 20) +contextual [Dev.portAdmit, *]

@[simp] theorem Dev.m2s_kept (o : Keep) (a0 : Dev) (a1) (a2) (a3) (a4) (h0 : Kept o a0) : Kept o (@Dev.m2s a0 a1 a2 a3 a4) := by
  unfold Dev.m2s
  repeat' first | assumption | intro _ | with_reducible apply kept_ite | with_reducible apply kept_forAll | with_reducible apply kept_foldl | with_reducible apply kept_when | with_reducible apply kept_foldl_fst | with_reducible apply kept_ite_fst | with_reducible apply kept_ite_snd | with_reducible apply Dev.portAnswer_kept | with_reducible apply Dev.outOfView_kept | with_reducible apply Dev.portAdmit_kept | (simp only [kept_mk, keptMem_dev]; done) | split | (simp only [kept_mk, keptMem_dev])

@[simp] theorem Dev.m2sMemWr_kept (o : Keep) (a0 : Dev) (a1) (a2) (a3) (a4) (a5) (h0 : Kept o a0) : Kept o (@Dev.m2sMemWr a0 a1 a2 a3 a4 a5) := by
  simp (maxDischargeDepth := 20) +contextual [Dev.m2sMemWr, *]

@[simp] theorem Dev.m2sMemClnEvct_kept (o : Keep) (a0 : Dev) (a1) (a2) (a3) (h0 : Kept o a0) : Kept o (@Dev.m2sMemClnEvct a0 a1 a2 a3) := by
  simp (maxDischargeDepth := 20) +contextual [Dev.m2sMemClnEvct, *]

@[simp] theorem Dev.capBoundary_kept (o : Keep) (a0 : Dev) (h0 : Kept o a0) : Kept o (@Dev.capBoundary a0) := by
  simp (maxDischargeDepth := 20) +contextual [Dev.capBoundary, *]

@[simp] theorem Dev.m2sMemInvNT_kept (o : Keep) (a0 : Dev) (a1) (a2) (a3) (a4) (h0 : Kept o a0) : Kept o (@Dev.m2sMemInvNT a0 a1 a2 a3 a4) := by
  simp (maxDischargeDepth := 20) +contextual [Dev.m2sMemInvNT, *]

@[simp] theorem Dev.transactionAcknowledged_kept (o : Keep) (a0 : Dev) (a1) (h0 : Kept o a0) : Kept o (@Dev.transactionAcknowledged a0 a1) := by
  simp (maxDischargeDepth := 20) +contextual [Dev.transactionAcknowledged, *]

@[simp] theorem Dev.m2sMemRdData_kept (o : Keep) (a0 : Dev) (a1) (a2) (a3) (h0 : Kept o a0) : Kept o (@Dev.m2sMemRdData a0 a1 a2 a3) := by
  simp (maxDischargeDepth := 20) +contextual [Dev.m2sMemRdData, *]

@[simp] theorem Dev.m2sMemInv_kept (o : Keep) (a0 : Dev) (a1) (a2) (a3) (a4) (h0 : Kept o a0) : Kept o (@Dev.m2sMemInv a0 a1 a2 a3 a4) := by
  simp (maxDischargeDepth := 20) +contextual [Dev.m2sMemInv, *]

@[simp] theorem Dev.m2sMemRd_kept (o : Keep) (a0 : Dev) (a1) (a2) (a3) (a4) (h0 : Kept o a0) : Kept o (@Dev.m2sMemRd a0 a1 a2 a3 a4) := by
  simp (maxDischargeDepth := 20) +contextual [Dev.m2sMemRd, *]

@[simp] theorem Dev.m2sBIRsp_kept (o : Keep) (a0 : Dev) (a1) (a2) (a3) (h0 : Kept o a0) : Kept o (@Dev.m2sBIRsp a0 a1 a2 a3) := by
  unfold Dev.m2sBIRsp
  repeat' first | assumption | intro _ | with_reducible apply kept_ite | with_reducible apply kept_forAll | with_reducible apply kept_foldl | with_reducible apply kept_when | with_reducible apply kept_foldl_fst | with_reducible apply kept_ite_fst | with_reducible apply kept_ite_snd | with_reducible apply Dev.memberRsp_kept | (simp only [kept_mk, keptMem_dev]; done) | split | (simp only [kept_mk, keptMem_dev])

@[simp] theorem Dev.m2sMemWrPtl_kept (o : Keep) (a0 : Dev) (a1) (a2) (a3) (a4) (a5) (a6) (h0 : Kept o a0) : Kept o (@Dev.m2sMemWrPtl a0 a1 a2 a3 a4 a5 a6) := by
  simp (maxDischargeDepth := 20) +contextual [Dev.m2sMemWrPtl, *]

@[simp] theorem Dev.pertWrite_kept (o : Keep) (a0 : Dev) (a1) (a2) (a3) (h0 : Kept o a0) : Kept o (@Dev.pertWrite a0 a1 a2 a3).1 := by
  unfold Dev.pertWrite
  repeat' first | assumption | intro _ | with_reducible apply kept_ite | with_reducible apply kept_forAll | with_reducible apply kept_foldl | with_reducible apply kept_when | with_reducible apply kept_foldl_fst | with_reducible apply kept_ite_fst | with_reducible apply kept_ite_snd | with_reducible apply Dev.setPert_kept | with_reducible apply Dev.raise_kept | with_reducible apply Dev.pertStop_kept | (with_reducible refine Dev.pertGo_kept _ _ _ ?_ _ (by assumption))| (with_reducible refine Dev.pertGo_kept _ _ _ _ ?_ _ (by assumption))| (with_reducible refine Dev.pertGo_kept _ _ _ _ _ ?_ _ (by assumption))| (with_reducible refine Dev.pertGo_kept _ _ _ _ _ _ ?_ _ (by assumption)) | (simp only [kept_mk, keptMem_dev]; done) | split | (simp only [kept_mk, keptMem_dev])

@[simp] theorem Dev.ctSide_kept (o : Keep) (a0 : Dev) (a1) (a2) (h0 : Kept o a0) : Kept o (@Dev.ctSide a0 a1 a2).1 := by
  unfold Dev.ctSide
  repeat' first | assumption | intro _ | with_reducible apply kept_ite | with_reducible apply kept_forAll | with_reducible apply kept_foldl | with_reducible apply kept_when | with_reducible apply kept_foldl_fst | with_reducible apply kept_ite_fst | with_reducible apply kept_ite_snd | with_reducible apply Dev.setClk_kept | with_reducible apply Dev.clearPend_kept | with_reducible apply Dev.cntWrite_kept | with_reducible apply Dev.bwWrite_kept | with_reducible apply Dev.pertWrite_kept | (simp only [kept_mk, keptMem_dev]; done) | split | (simp only [kept_mk, keptMem_dev])

@[simp] theorem Dev.sideWrite_kept (o : Keep) (a0 : Dev) (a1) (a2) (h0 : Kept o a0) : Kept o (@Dev.sideWrite a0 a1 a2).1 := by
  unfold Dev.sideWrite
  repeat' first | assumption | intro _ | with_reducible apply kept_ite | with_reducible apply kept_forAll | with_reducible apply kept_foldl | with_reducible apply kept_when | with_reducible apply kept_foldl_fst | with_reducible apply kept_ite_fst | with_reducible apply kept_ite_snd | with_reducible apply Dev.ctSide_kept | with_reducible apply Dev.guestAgain_kept | with_reducible apply Dev.setGst_kept | with_reducible apply Dev.setHead_kept | with_reducible apply Dev.setPort_kept | with_reducible apply Dev.setChan_kept | with_reducible apply Dev.setHs_kept | with_reducible apply Dev.setPump_kept | with_reducible apply Dev.discardHalted_kept | (simp only [kept_mk, keptMem_dev]; done) | split | (simp only [kept_mk, keptMem_dev])

@[simp] theorem Dev.scheduledWrite_kept (o : Keep) (a0 : Dev) (a1) (a2) (h0 : Kept o a0) : Kept o (@Dev.scheduledWrite a0 a1 a2) := by
  simp (maxDischargeDepth := 20) +contextual [Dev.scheduledWrite, *]

@[simp] theorem Dev.mctpControl_kept (o : Keep) (a0 : Dev) (a1) (h0 : Kept o a0) (h1 : ∀ y0, Kept o y0 → Kept o (a1 y0)) : Kept o (@Dev.mctpControl a0 a1) := by
  unfold Dev.mctpControl
  try dsimp only
  repeat' first | assumption | intro _ | with_reducible apply kept_ite | with_reducible apply kept_forAll | with_reducible apply kept_foldl | with_reducible apply kept_when | with_reducible apply kept_foldl_fst | with_reducible apply kept_ite_fst | with_reducible apply kept_ite_snd | with_reducible apply Dev.wake_kept | (simp only [kept_mk, keptMem_dev]; done) | split | (simp only [kept_mk, keptMem_dev]) | (simp_all; done)

@[simp] theorem Dev.getEndpointId_kept (o : Keep) (a0 : Dev) (h0 : Kept o a0) : Kept o (@Dev.getEndpointId a0) := by
  simp +contextual [Dev.getEndpointId, *]

@[simp] theorem Dev.cxl_kept (o : Keep) (a0 : Dev) (a1) (a2) (a3) (h0 : Kept o a0) : Kept o (@Dev.cxl a0 a1 a2 a3) := by
  simp +contextual [Dev.cxl, *]

@[simp] theorem Dev.identify_kept (o : Keep) (a0 : Dev) (a1) (h0 : Kept o a0) : Kept o (@Dev.identify a0 a1) := by
  simp +contextual [Dev.identify, *]

@[simp] theorem Dev.requestAbort_kept (o : Keep) (a0 : Dev) (a1) (h0 : Kept o a0) : Kept o (@Dev.requestAbort a0 a1) := by
  unfold Dev.requestAbort
  repeat' first | assumption | intro _ | with_reducible apply kept_ite | with_reducible apply kept_forAll | with_reducible apply kept_foldl | with_reducible apply kept_when | with_reducible apply kept_foldl_fst | with_reducible apply kept_ite_fst | with_reducible apply kept_ite_snd | with_reducible apply Dev.gated_kept | with_reducible apply Dev.askAbort_kept | with_reducible apply Dev.reply_kept | (simp only [kept_mk, keptMem_dev]; done) | split | (simp only [kept_mk, keptMem_dev])

@[simp] theorem Dev.injectPoison_kept (o : Keep) (a0 : Dev) (a1) (a2) (h0 : Kept o a0) : Kept o (@Dev.injectPoison a0 a1 a2) := by
  unfold Dev.injectPoison
  repeat' first | assumption | intro _ | with_reducible apply kept_ite | with_reducible apply kept_forAll | with_reducible apply kept_foldl | with_reducible apply kept_when | with_reducible apply kept_foldl_fst | with_reducible apply kept_ite_fst | with_reducible apply kept_ite_snd | with_reducible apply Dev.gated_kept | with_reducible apply Dev.reply_kept | with_reducible apply Dev.loseLine_kept | (simp only [kept_mk, keptMem_dev]; done) | split | (simp only [kept_mk, keptMem_dev])

@[simp] theorem Dev.getFwInfo_kept (o : Keep) (a0 : Dev) (a1) (h0 : Kept o a0) : Kept o (@Dev.getFwInfo a0 a1) := by
  simp (maxDischargeDepth := 20) +contextual [Dev.getFwInfo, *]

@[simp] theorem Dev.clearPoisonList_kept (o : Keep) (a0 : Dev) (a1) (a2) (a3) (h0 : Kept o a0) : Kept o (@Dev.clearPoisonList a0 a1 a2 a3) := by
  unfold Dev.clearPoisonList
  repeat' first | assumption | intro _ | with_reducible apply kept_ite | with_reducible apply kept_forAll | with_reducible apply kept_foldl | with_reducible apply kept_when | with_reducible apply kept_foldl_fst | with_reducible apply kept_ite_fst | with_reducible apply kept_ite_snd | with_reducible apply Dev.gated_kept | with_reducible apply Dev.reply_kept | with_reducible apply Dev.serveWrite_kept | (simp only [kept_mk, keptMem_dev]; done) | split | (simp only [kept_mk, keptMem_dev])

@[simp] theorem Dev.dynamicAddress_kept (o : Keep) (a0 : Dev) (a1) (h0 : Kept o a0) : Kept o (@Dev.dynamicAddress a0 a1) := by
  simp (maxDischargeDepth := 20) +contextual [Dev.dynamicAddress, *]

@[simp] theorem Dev.getDcdInfo_kept (o : Keep) (a0 : Dev) (a1) (h0 : Kept o a0) : Kept o (@Dev.getDcdInfo a0 a1) := by
  simp (maxDischargeDepth := 20) +contextual [Dev.getDcdInfo, *]

@[simp] theorem Dev.releaseRange_kept (o : Keep) (a0 : Dev) (a1) (a2) (h0 : Kept o a0) : Kept o (@Dev.releaseRange a0 a1 a2) := by
  unfold Dev.releaseRange
  (repeat' split) <;> simp (maxDischargeDepth := 20) +contextual [*]

@[simp] theorem Dev.getReclaimRequest_kept (o : Keep) (a0 : Dev) (a1) (a2) (h0 : Kept o a0) : Kept o (@Dev.getReclaimRequest a0 a1 a2) := by
  simp (maxDischargeDepth := 20) +contextual [Dev.getReclaimRequest, *]

@[simp] theorem Dev.initiateDcRelease_kept (o : Keep) (a0 : Dev) (a1) (a2) (a3) (h0 : Kept o a0) : Kept o (@Dev.initiateDcRelease a0 a1 a2 a3) := by
  simp (maxDischargeDepth := 20) +contextual [Dev.initiateDcRelease, *]

@[simp] theorem Dev.getSupportedLogs_kept (o : Keep) (a0 : Dev) (a1) (h0 : Kept o a0) : Kept o (@Dev.getSupportedLogs a0 a1) := by
  simp (maxDischargeDepth := 20) +contextual [Dev.getSupportedLogs, *]

@[simp] theorem Dev.unsupportedCommand_kept (o : Keep) (a0 : Dev) (a1) (a2) (h0 : Kept o a0) : Kept o (@Dev.unsupportedCommand a0 a1 a2) := by
  simp (maxDischargeDepth := 20) +contextual [Dev.unsupportedCommand, *]

@[simp] theorem Dev.getTimestamp_kept (o : Keep) (a0 : Dev) (a1) (h0 : Kept o a0) : Kept o (@Dev.getTimestamp a0 a1) := by
  simp (maxDischargeDepth := 20) +contextual [Dev.getTimestamp, *]

@[simp] theorem Dev.getLog_kept (o : Keep) (a0 : Dev) (a1) (a2) (a3) (h0 : Kept o a0) : Kept o (@Dev.getLog a0 a1 a2 a3) := by
  simp (maxDischargeDepth := 20) +contextual [Dev.getLog, *]

@[simp] theorem Dev.aboutHead_kept (o : Keep) (a0 : Dev) (a1) (a2) (a3) (h0 : Kept o a0) (h3 : ∀ y0, Kept o y0 → Kept o (a3 y0)) : Kept o (@Dev.aboutHead a0 a1 a2 a3) := by
  simp (maxDischargeDepth := 20) +contextual [Dev.aboutHead, *]

@[simp] theorem Dev.getHostDcRegionConfig_kept (o : Keep) (a0 : Dev) (a1) (a2) (h0 : Kept o a0) : Kept o (@Dev.getHostDcRegionConfig a0 a1 a2) := by
  simp (maxDischargeDepth := 20) +contextual [Dev.getHostDcRegionConfig, *]

@[simp] theorem Dev.releaseRangeComplete_kept (o : Keep) (a0 : Dev) (a1) (h0 : Kept o a0) : Kept o (@Dev.releaseRangeComplete a0 a1) := by
  unfold Dev.releaseRangeComplete
  repeat' first | assumption | intro _ | with_reducible apply kept_ite | with_reducible apply kept_forAll | with_reducible apply kept_foldl | with_reducible apply kept_when | with_reducible apply kept_foldl_fst | with_reducible apply kept_ite_fst | with_reducible apply kept_ite_snd | with_reducible apply Dev.finishBg_kept | (simp only [kept_mk, keptMem_dev]; done) | split | (simp only [kept_mk, keptMem_dev])

theorem Dev.overlayWrite_kept (o : Keep) (a0 : Dev) (a1) (a2) (a3) (h0 : Kept o a0) : ∀ e, (@Dev.overlayWrite a0 a1 a2 a3) = .ok e → Kept o e := by
  intro e he
  unfold Dev.overlayWrite at he
  extract_lets t d at he
  have hd : Kept o d := kept_ite _ _ _ _ (Dev.reopen_kept _ _ h0) h0
  clear_value d
  repeat (split at he; · simp at he)
  simp only [Except.ok.injEq] at he
  subst he
  exact Dev.setTxn_kept _ _ _ hd

@[simp] theorem Dev.identifyMemoryDevice_kept (o : Keep) (a0 : Dev) (a1) (h0 : Kept o a0) : Kept o (@Dev.identifyMemoryDevice a0 a1) := by
  simp (maxDischargeDepth := 20) +contextual [Dev.identifyMemoryDevice, *]

@[simp] theorem Dev.getHeadInfo_kept (o : Keep) (a0 : Dev) (a1) (a2) (h0 : Kept o a0) : Kept o (@Dev.getHeadInfo a0 a1 a2) := by
  simp (maxDischargeDepth := 20) +contextual [Dev.getHeadInfo, *]

@[simp] theorem Dev.setDcRegionConfig_kept (o : Keep) (a0 : Dev) (a1) (a2) (h0 : Kept o a0) : Kept o (@Dev.setDcRegionConfig a0 a1 a2) := by
  simp (maxDischargeDepth := 20) +contextual [Dev.setDcRegionConfig, *]

@[simp] theorem Dev.mctpGetVersion_kept (o : Keep) (a0 : Dev) (h0 : Kept o a0) : Kept o (@Dev.mctpGetVersion a0) := by
  simp (maxDischargeDepth := 20) +contextual [Dev.mctpGetVersion, *]

@[simp] theorem Dev.getPoisonList_kept (o : Keep) (a0 : Dev) (a1) (a2) (a3) (h0 : Kept o a0) : Kept o (@Dev.getPoisonList a0 a1 a2 a3) := by
  simp (maxDischargeDepth := 20) +contextual [Dev.getPoisonList, *]

@[simp] theorem Dev.regWrite_kept (o : Keep) (a0 : Dev) (a1) (a2) (a3) (h0 : Kept o a0) : Kept o (@Dev.regWrite a0 a1 a2 a3) := by
  unfold Dev.regWrite
  refine kept_ite _ _ _ _ (Dev.reply_kept _ _ _ _ _ _ h0) ?_
  extract_lets go
  have hg : ∀ d, Kept o d → Kept o (go d) := by
    intro d hd
    have hk := Dev.sideWrite_kept o d a2 a3.toNat hd
    simp only [go]
    split
    · rename_i h
      rw [h] at hk
      exact Dev.reply_kept _ _ _ _ _ _ hk
    · rename_i h
      rw [h] at hk
      exact Dev.reply_kept _ _ _ _ _ _ hk
  clear_value go
  refine kept_ite _ _ _ _ ?_ (hg _ h0)
  split
  · exact Dev.reply_kept _ _ _ _ _ _ h0
  · rename_i h
    exact hg _ (Dev.overlayWrite_kept _ _ _ _ _ h0 _ h)

@[simp] theorem Dev.managementWrite_kept (o : Keep) (a0 : Dev) (a1) (a2) (h0 : Kept o a0) : Kept o (@Dev.managementWrite a0 a1 a2) := by
  unfold Dev.managementWrite
  repeat' first | assumption | intro _ | with_reducible apply kept_ite | with_reducible apply kept_forAll | with_reducible apply kept_foldl | with_reducible apply kept_when | with_reducible apply kept_foldl_fst | with_reducible apply kept_ite_fst | with_reducible apply kept_ite_snd | with_reducible apply Dev.gated_kept | with_reducible apply Dev.vend_kept | with_reducible apply Dev.reply_kept | with_reducible apply Dev.guestAccess_kept | with_reducible apply Dev.regWrite_kept | (simp only [kept_mk, keptMem_dev]; done) | split | (simp only [kept_mk, keptMem_dev])

@[simp] theorem Dev.releaseDc_kept (o : Keep) (a0 : Dev) (a1) (a2) (h0 : Kept o a0) : Kept o (@Dev.releaseDc a0 a1 a2) := by
  simp (maxDischargeDepth := 20) +contextual [Dev.releaseDc, *]

theorem Dev.setTimestamp_kept (o : Keep) (a0 : Dev) (a1) (a2) (ho : o.AnyStamp) (h0 : Kept o a0) : Kept o (@Dev.setTimestamp a0 a1 a2) := by
  unfold Dev.setTimestamp
  exact Dev.gated_kept _ _ _ _ _ h0 fun d hd => Dev.reply_kept _ _ _ _ _ _ ⟨hd.1, ho _ _ _ _ _ hd.2⟩

@[simp] theorem Dev.getDcRegionExtentLists_kept (o : Keep) (a0 : Dev) (a1) (a2) (h0 : Kept o a0) : Kept o (@Dev.getDcRegionExtentLists a0 a1 a2) := by
  simp (maxDischargeDepth := 20) +contextual [Dev.getDcRegionExtentLists, *]

@[simp] theorem Dev.readEffect_kept (o : Keep) (a0 : Dev) (a1) (h0 : Kept o a0) : Kept o (@Dev.readEffect a0 a1) := by
  unfold Dev.readEffect
  repeat' first | assumption | intro _ | with_reducible apply kept_ite | with_reducible apply kept_forAll | with_reducible apply kept_foldl | with_reducible apply kept_when | with_reducible apply kept_foldl_fst | with_reducible apply kept_ite_fst | with_reducible apply kept_ite_snd | with_reducible apply Dev.setSup_kept | with_reducible apply Dev.setBw_kept | (simp only [kept_mk, keptMem_dev]; done) | split | (simp only [kept_mk, keptMem_dev])

@[simp] theorem Dev.managementRead_kept (o : Keep) (a0 : Dev) (a1) (a2) (h0 : Kept o a0) : Kept o (@Dev.managementRead a0 a1 a2) := by
  simp (maxDischargeDepth := 20) +contextual [Dev.managementRead, *]

@[simp] theorem Dev.setEndpointId_kept (o : Keep) (a0 : Dev) (a1) (h0 : Kept o a0) : Kept o (@Dev.setEndpointId a0 a1) := by
  unfold Dev.setEndpointId
  repeat' first | assumption | intro _ | with_reducible apply kept_ite | with_reducible apply kept_forAll | with_reducible apply kept_foldl | with_reducible apply kept_when | with_reducible apply kept_foldl_fst | with_reducible apply kept_ite_fst | with_reducible apply kept_ite_snd | with_reducible apply Dev.mctpControl_kept | with_reducible apply Dev.emit_kept | (simp only [kept_mk, keptMem_dev]; done) | split | (simp only [kept_mk, keptMem_dev])

@[simp] theorem Dev.getSldQosStatus_kept (o : Keep) (a0 : Dev) (a1) (h0 : Kept o a0) : Kept o (@Dev.getSldQosStatus a0 a1) := by
  simp (maxDischargeDepth := 20) +contextual [Dev.getSldQosStatus, *]

@[simp] theorem Dev.initiateDcAdd_kept (o : Keep) (a0 : Dev) (a1) (a2) (a3) (h0 : Kept o a0) : Kept o (@Dev.initiateDcAdd a0 a1 a2 a3) := by
  simp (maxDischargeDepth := 20) +contextual [Dev.initiateDcAdd, *]

@[simp] theorem Dev.getRankStatus_kept (o : Keep) (a0 : Dev) (a1) (a2) (h0 : Kept o a0) : Kept o (@Dev.getRankStatus a0 a1 a2) := by
  unfold Dev.getRankStatus
  repeat' first | assumption | intro _ | with_reducible apply kept_ite | with_reducible apply kept_forAll | with_reducible apply kept_foldl | with_reducible apply kept_when | with_reducible apply kept_foldl_fst | with_reducible apply kept_ite_fst | with_reducible apply kept_ite_snd | with_reducible apply Dev.gated_kept | with_reducible apply Dev.vend_kept | with_reducible apply Dev.reply_kept | (simp only [kept_mk, keptMem_dev]; done) | split | (simp only [kept_mk, keptMem_dev])

@[simp] theorem Dev.getHealthInfo_kept (o : Keep) (a0 : Dev) (a1) (h0 : Kept o a0) : Kept o (@Dev.getHealthInfo a0 a1) := by
  simp (maxDischargeDepth := 20) +contextual [Dev.getHealthInfo, *]

@[simp] theorem Dev.addDcResponse_kept (o : Keep) (a0 : Dev) (a1) (a2) (h0 : Kept o a0) : Kept o (@Dev.addDcResponse a0 a1 a2) := by
  simp (maxDischargeDepth := 20) +contextual [Dev.addDcResponse, *]

@[simp] theorem Dev.deviceReset_kept (o : Keep) (a0 : Dev) (a1) (a2) (h0 : Kept o a0) : Kept o (@Dev.deviceReset a0 a1 a2) := by
  unfold Dev.deviceReset
  repeat' first | assumption | intro _ | with_reducible apply kept_ite | with_reducible apply kept_forAll | with_reducible apply kept_foldl | with_reducible apply kept_when | with_reducible apply kept_foldl_fst | with_reducible apply kept_ite_fst | with_reducible apply kept_ite_snd | with_reducible apply Dev.gated_kept | with_reducible apply Dev.vend_kept | with_reducible apply Dev.reply_kept | (simp only [kept_mk, keptMem_dev]; done) | split | (simp only [kept_mk, keptMem_dev])

@[simp] theorem Dev.getMessageTypeSupport_kept (o : Keep) (a0 : Dev) (h0 : Kept o a0) : Kept o (@Dev.getMessageTypeSupport a0) := by
  simp (maxDischargeDepth := 20) +contextual [Dev.getMessageTypeSupport, *]

@[simp] theorem Dev.getSldQosControl_kept (o : Keep) (a0 : Dev) (a1) (h0 : Kept o a0) : Kept o (@Dev.getSldQosControl a0 a1) := by
  simp (maxDischargeDepth := 20) +contextual [Dev.getSldQosControl, *]

@[simp] theorem Dev.getMultiHeadedInfo_kept (o : Keep) (a0 : Dev) (a1) (h0 : Kept o a0) : Kept o (@Dev.getMultiHeadedInfo a0 a1) := by
  simp (maxDischargeDepth := 20) +contextual [Dev.getMultiHeadedInfo, *]

@[simp] theorem Dev.retireRank_kept (o : Keep) (a0 : Dev) (a1) (a2) (h0 : Kept o a0) : Kept o (@Dev.retireRank a0 a1 a2) := by
  unfold Dev.retireRank
  repeat' first | assumption | intro _ | with_reducible apply kept_ite | with_reducible apply kept_forAll | with_reducible apply kept_foldl | with_reducible apply kept_when | with_reducible apply kept_foldl_fst | with_reducible apply kept_ite_fst | with_reducible apply kept_ite_snd | with_reducible apply Dev.gated_kept | with_reducible apply Dev.vend_kept | with_reducible apply Dev.reply_kept | with_reducible apply Dev.asBg_kept | with_reducible apply Dev.startBg_kept | with_reducible apply Dev.retireNow_kept | (simp only [kept_mk, keptMem_dev]; done) | split | (simp only [kept_mk, keptMem_dev])

@[simp] theorem Dev.setSldQosControl_kept (o : Keep) (a0 : Dev) (a1) (a2) (a3) (a4) (a5) (h0 : Kept o a0) : Kept o (@Dev.setSldQosControl a0 a1 a2 a3 a4 a5) := by
  unfold Dev.setSldQosControl
  repeat' first | assumption | intro _ | with_reducible apply kept_ite | with_reducible apply kept_forAll | with_reducible apply kept_foldl | with_reducible apply kept_when | with_reducible apply kept_foldl_fst | with_reducible apply kept_ite_fst | with_reducible apply kept_ite_snd | with_reducible apply Dev.gated_kept | with_reducible apply Dev.reply_kept | with_reducible apply Dev.busy104_kept | (simp only [kept_mk, keptMem_dev]; done) | split | (simp only [kept_mk, keptMem_dev])

@[simp] theorem Dev.scheduleRegisterWrite_kept (o : Keep) (a0 : Dev) (a1) (a2) (h0 : Kept o a0) : Kept o (@Dev.scheduleRegisterWrite a0 a1 a2) := by
  unfold Dev.scheduleRegisterWrite
  refine Dev.gated_kept _ _ _ _ _ h0 fun d hd => Dev.vend_kept _ _ _ _ _ _ _ hd fun d hd => ?_
  extract_lets a v n
  refine kept_ite _ _ _ _ (Dev.reply_kept _ _ _ _ _ _ hd) (kept_ite _ _ _ _ (Dev.reply_kept _ _ _ _ _ _ hd) ?_)
  split
  · rename_i hq
    have hk := Dev.queueAct_kept _ _ _ _ _ hd _ hq
    exact Dev.reply_kept _ _ _ _ _ _ hk
  · exact Dev.reply_kept _ _ _ _ _ _ (Dev.raise_kept _ _ _ _ _ hd)

@[simp] theorem Dev.getHarluodIdentity_kept (o : Keep) (a0 : Dev) (a1) (a2) (h0 : Kept o a0) : Kept o (@Dev.getHarluodIdentity a0 a1 a2) := by
  simp (maxDischargeDepth := 20) +contextual [Dev.getHarluodIdentity, *]

@[simp] theorem Dev.releaseSpan_kept (o : Keep) (a0 : Dev) (a1) (a2) (h0 : Kept o a0) : Kept o (@Dev.releaseSpan a0 a1 a2).1 := by
  unfold Dev.releaseSpan
  extract_lets top inside cached d next pages freed e
  exact kept_forAll _ _ _ _ (kept_forAll _ _ _ _ h0 fun _ _ hd => Dev.fencePage_kept _ _ _ hd) fun _ _ hd =>
    Dev.unback_kept _ _ _ (kept_ite _ _ _ _ (Dev.sendPageFree_kept _ _ _ _ hd) hd)

end Sys2Proof.Machine
end

