-- ==== Sys2Proof/Laws/KeptReset.lean ====
section
/-! SUPPORT. That reset, priming and the stroke boundary keep both byte memories in canonical form and change the OTP only as it may be burnt: one lemma for each
operation that answers a device. -/

namespace Sys2Proof.Machine

open Sys2Proof

set_option linter.unreachableTactic false
set_option linter.unusedTactic false
set_option linter.unusedSimpArgs false

set_option maxRecDepth 8000 in
@[simp] theorem Dev.refetchGran_kept (o : Keep) (a0 : Dev) (a1) (h0 : Kept o a0) : Kept o (@Dev.refetchGran a0 a1) := by
  unfold Dev.refetchGran
  repeat' first | assumption | intro _ | with_reducible apply kept_ite | with_reducible apply kept_forAll | with_reducible apply kept_foldl | with_reducible apply kept_when | with_reducible apply kept_foldl_fst | with_reducible apply kept_ite_fst | with_reducible apply kept_ite_snd | with_reducible apply Dev.setGran_kept | (simp only [kept_mk, keptMem_dev]; done) | split | (simp only [kept_mk, keptMem_dev])

@[simp] theorem Dev.pllFailure_kept (o : Keep) (a0 : Dev) (a1) (h0 : Kept o a0) : Kept o (@Dev.pllFailure a0 a1) := by
  unfold Dev.pllFailure
  (repeat' split) <;> simp (maxDischargeDepth := 20) +contextual [*]

@[simp] theorem Dev.primeFrames_kept (o : Keep) (a0 : Dev) (h0 : Kept o a0) : Kept o (@Dev.primeFrames a0) := by
  unfold Dev.primeFrames
  repeat' first | assumption | intro _ | with_reducible apply kept_ite | with_reducible apply kept_forAll | with_reducible apply kept_foldl | with_reducible apply kept_when | with_reducible apply kept_foldl_fst | with_reducible apply kept_ite_fst | with_reducible apply kept_ite_snd | with_reducible apply forAll_kept | with_reducible apply Dev.recompute_kept | with_reducible apply Dev.raise_kept | (with_reducible refine Dev.reserveTile_kept _ _ _ ?_ _ (by assumption))| (with_reducible refine Dev.reserveTile_kept _ _ _ _ ?_ _ (by assumption))| (with_reducible refine Dev.reserveTile_kept _ _ _ _ _ ?_ _ (by assumption))| (with_reducible refine Dev.reserveTile_kept _ _ _ _ _ _ ?_ _ (by assumption)) | (simp only [kept_mk, keptMem_dev]; done) | split | (simp only [kept_mk, keptMem_dev])

@[simp] theorem Dev.bootRails_kept (o : Keep) (a0 : Dev) (h0 : Kept o a0) : Kept o (@Dev.bootRails a0) := by
  simp (maxDischargeDepth := 20) +contextual [Dev.bootRails, *]

@[simp] theorem Dev.discardPending_kept (o : Keep) (a0 : Dev) (h0 : Kept o a0) : Kept o (@Dev.discardPending a0) := by
  simp (maxDischargeDepth := 20) +contextual [Dev.discardPending, *]

@[simp] theorem Dev.warmReset_kept (o : Keep) (a0 : Dev) (h0 : Kept o a0) : Kept o (@Dev.warmReset a0) := by
  simp (maxDischargeDepth := 20) +contextual [Dev.warmReset, *]

@[simp] theorem Dev.braceOver_kept (o : Keep) (a0 : Dev) (h0 : Kept o a0) : Kept o (@Dev.braceOver a0) := by
  simp (maxDischargeDepth := 20) +contextual [Dev.braceOver, *]

@[simp] theorem Dev.holdTile_kept (o : Keep) (a0 : Dev) (a1) (h0 : Kept o a0) : Kept o (@Dev.holdTile a0 a1) := by
  simp (maxDischargeDepth := 20) +contextual [Dev.holdTile, *]

@[simp] theorem Dev.checkLimit_kept (o : Keep) (a0 : Dev) (h0 : Kept o a0) : Kept o (@Dev.checkLimit a0) := by
  unfold Dev.checkLimit
  repeat' first | assumption | intro _ | with_reducible apply kept_ite | with_reducible apply kept_forAll | with_reducible apply kept_foldl | with_reducible apply kept_when | with_reducible apply kept_foldl_fst | with_reducible apply kept_ite_fst | with_reducible apply kept_ite_snd | with_reducible apply Dev.raise_kept | (simp only [kept_mk, keptMem_dev]; done) | split | (simp only [kept_mk, keptMem_dev])

@[simp] theorem Dev.freshEpoch_kept (o : Keep) (a0 : Dev) (h0 : Kept o a0) : Kept o (@Dev.freshEpoch a0) := by
  simp (maxDischargeDepth := 20) +contextual [Dev.freshEpoch, *]

@[simp] theorem Dev.dropDirty_kept (o : Keep) (a0 : Dev) (a1) (h0 : Kept o a0) : Kept o (@Dev.dropDirty a0 a1) := by
  simp (maxDischargeDepth := 20) +contextual [Dev.dropDirty, *]

@[simp] theorem Dev.engineLost_kept (o : Keep) (a0 : Dev) (a1) (h0 : Kept o a0) : Kept o (@Dev.engineLost a0 a1) := by
  unfold Dev.engineLost
  repeat' first | assumption | intro _ | with_reducible apply kept_ite | with_reducible apply kept_forAll | with_reducible apply kept_foldl | with_reducible apply kept_when | with_reducible apply kept_foldl_fst | with_reducible apply kept_ite_fst | with_reducible apply kept_ite_snd | with_reducible apply Dev.decodeError_kept | with_reducible apply Dev.raise_kept | with_reducible apply Dev.haltPump_kept | (simp only [kept_mk, keptMem_dev]; done) | split | (simp only [kept_mk, keptMem_dev])

@[simp] theorem Dev.resetAndPrime_kept (o : Keep) (a0 : Dev) (h0 : Kept o a0) : Kept o (@Dev.resetAndPrime a0) := by
  simp (maxDischargeDepth := 20) +contextual [Dev.resetAndPrime, *]

@[simp] theorem Dev.resetFor_kept (o : Keep) (a0 : Dev) (a1) (a2) (h0 : Kept o a0) : Kept o (@Dev.resetFor a0 a1 a2) := by
  simp (maxDischargeDepth := 20) +contextual [Dev.resetFor, *]

@[simp] theorem Dev.sramPatrol_kept (o : Keep) (a0 : Dev) (a1) (a2) (h0 : Kept o a0) : Kept o (@Dev.sramPatrol a0 a1 a2) := by
  unfold Dev.sramPatrol
  repeat' first | assumption | intro _ | with_reducible apply kept_ite | with_reducible apply kept_forAll | with_reducible apply kept_foldl | with_reducible apply kept_when | with_reducible apply kept_foldl_fst | with_reducible apply kept_ite_fst | with_reducible apply kept_ite_snd | with_reducible apply Dev.raise_kept | with_reducible apply Dev.refetchGran_kept | with_reducible apply Dev.dropDirty_kept | with_reducible apply Dev.raisePage_kept | with_reducible apply Dev.poisonPage_kept | with_reducible apply Dev.engineLost_kept | with_reducible apply Dev.resetFor_kept | with_reducible apply Dev.ledgerFind_kept | (simp only [kept_mk, keptMem_dev]; done) | split | (simp only [kept_mk, keptMem_dev])

@[simp] theorem Dev.tileLinksDown_kept (o : Keep) (a0 : Dev) (a1) (h0 : Kept o a0) : Kept o (@Dev.tileLinksDown a0 a1) := by
  simp (maxDischargeDepth := 20) +contextual [Dev.tileLinksDown, *]

@[simp] theorem Dev.tileResetRelease_kept (o : Keep) (a0 : Dev) (a1) (h0 : Kept o a0) : Kept o (@Dev.tileResetRelease a0 a1) := by
  simp (maxDischargeDepth := 20) +contextual [Dev.tileResetRelease, *]

@[simp] theorem Dev.chrotenModuleDown_kept (o : Keep) (a0 : Dev) (a1) (a2) (h0 : Kept o a0) : Kept o (@Dev.chrotenModuleDown a0 a1 a2) := by
  simp (maxDischargeDepth := 20) +contextual [Dev.chrotenModuleDown, *]

@[simp] theorem Dev.resetN_kept (o : Keep) (a0 : Dev) (a1) (h0 : Kept o a0) : Kept o (@Dev.resetN a0 a1) := by
  unfold Dev.resetN
  repeat' first | assumption | intro _ | with_reducible apply kept_ite | with_reducible apply kept_forAll | with_reducible apply kept_foldl | with_reducible apply kept_when | with_reducible apply kept_foldl_fst | with_reducible apply kept_ite_fst | with_reducible apply kept_ite_snd | with_reducible apply Dev.warmReset_kept | with_reducible apply Dev.resetAndPrime_kept | (simp only [kept_mk, keptMem_dev]; done) | split | (simp only [kept_mk, keptMem_dev])

@[simp] theorem Dev.monitorWindow_kept (o : Keep) (a0 : Dev) (a1) (a2) (h0 : Kept o a0) : Kept o (@Dev.monitorWindow a0 a1 a2) := by
  simp (maxDischargeDepth := 20) +contextual [Dev.monitorWindow, *]

@[simp] theorem Dev.freshDomain0_kept (o : Keep) (a0 : Dev) (h0 : Kept o a0) : Kept o (@Dev.freshDomain0 a0) := by
  unfold Dev.freshDomain0
  repeat' first | assumption | intro _ | with_reducible apply kept_ite | with_reducible apply kept_forAll | with_reducible apply kept_foldl | with_reducible apply kept_when | with_reducible apply kept_foldl_fst | with_reducible apply kept_ite_fst | with_reducible apply kept_ite_snd | with_reducible apply Dev.setKd_kept | (simp only [kept_mk, keptMem_dev]; done) | split | (simp only [kept_mk, keptMem_dev])

@[simp] theorem Dev.primed_kept (o : Keep) (a0 : Dev) (h0 : Kept o a0) : Kept o (@Dev.primed a0) := by
  unfold Dev.primed
  split
  · refine kept_ite _ _ _ _ h0 ?_
    rename_i live _
    extract_lets d1 d2 t p d3 d4 d5 dS cS d6
    have h1 : Kept o d1 := by
      simp only [d1]
      apply Dev.checkLimit_kept
      apply Dev.primeFrames_kept
      exact h0
    have h2 : Kept o d2 := by simp (maxDischargeDepth := 20) [d2, *]
    clear_value d2
    have h3 : Kept o d3 := Dev.exitTimes_kept _ _ h2
    clear_value d3
    have h4 : Kept o d4 := Dev.raise_kept _ _ _ _ _ h3
    clear_value d4
    have h5 : Kept o d5 := kept_forAll _ _ _ _ h4 fun d x hd => Dev.capacityRecord_kept _ _ _ hd
    clear_value d5
    have h6 : Kept o d6 := by
      refine kept_ite _ _ _ _ (Dev.commitDone_kept _ _ _ ?_) h5
      exact Dev.setSlotState_kept _ _ _ _ h5
    clear_value d6
    exact kept_ite _ _ _ _ (Dev.startPull_kept _ _ h6) h6
  · exact h0

@[simp] theorem Dev.resetPortTile_kept (o : Keep) (a0 : Dev) (a1) (h0 : Kept o a0) : Kept o (@Dev.resetPortTile a0 a1) := by
  simp (maxDischargeDepth := 20) +contextual [Dev.resetPortTile, *]

theorem Dev.loseStrokes_kept (o : Keep) (a0 : Dev) (hc : o.Clears) (h0 : Kept o a0) : Kept o (@Dev.loseStrokes a0) := by
  unfold Dev.loseStrokes
  exact ⟨h0.1, hc _ _ _ _ h0.2⟩

theorem Dev.resetCrossing_kept (o : Keep) (a0 : Dev) (a1) (a2) (a3) (hc : o.Clears) (h0 : Kept o a0) : Kept o (@Dev.resetCrossing a0 a1 a2 a3) := by
  have hl := Dev.loseStrokes_kept o
  simp (maxDischargeDepth := 20) +contextual [Dev.resetCrossing, *]

@[simp] theorem Dev.resetNDeassertion_kept (o : Keep) (a0 : Dev) (a1) (h0 : Kept o a0) : Kept o (@Dev.resetNDeassertion a0 a1) := by
  unfold Dev.resetNDeassertion
  repeat' first | assumption | intro _ | with_reducible apply kept_ite | with_reducible apply kept_forAll | with_reducible apply kept_foldl | with_reducible apply kept_when | with_reducible apply kept_foldl_fst | with_reducible apply kept_ite_fst | with_reducible apply kept_ite_snd | with_reducible apply Dev.setClk_kept | with_reducible apply Dev.primeBegin_kept | (simp only [kept_mk, keptMem_dev]; done) | split | (simp only [kept_mk, keptMem_dev])

theorem Dev.coldReset_kept (o : Keep) (a0 : Dev) (a1) (h0 : KeptMem o a0.dram a0.nvm a0.otp 0 0) : Kept o (@Dev.coldReset a0 a1) := by
  unfold Dev.coldReset
  extract_lets n
  have hn : Kept o n := ⟨⟨rfl, h0.1.2⟩, h0.2⟩
  clear_value n
  exact Dev.primeBegin_kept _ _ (kept_ite _ _ _ _ (Dev.emit_kept _ _ _ hn) hn)

@[simp] theorem Dev.opChange_kept (o : Keep) (a0 : Dev) (h0 : Kept o a0) : Kept o (@Dev.opChange a0) := by
  unfold Dev.opChange
  repeat' first | assumption | intro _ | with_reducible apply kept_ite | with_reducible apply kept_forAll | with_reducible apply kept_foldl | with_reducible apply kept_when | with_reducible apply kept_foldl_fst | with_reducible apply kept_ite_fst | with_reducible apply kept_ite_snd | with_reducible apply Dev.startOp_kept | (simp only [kept_mk, keptMem_dev]; done) | split | (simp only [kept_mk, keptMem_dev])

@[simp] theorem Dev.withOp_kept (o : Keep) (a0 : Dev) (a1) (h0 : Kept o a0) (h1 : ∀ y0, Kept o y0 → Kept o (a1 y0)) : Kept o (@Dev.withOp a0 a1) := by
  simp (maxDischargeDepth := 20) +contextual [Dev.withOp, *]

@[simp] theorem Dev.runAct_kept (o : Keep) (a0 : Dev) (a1) (h0 : Kept o a0) : Kept o (@Dev.runAct a0 a1) := by
  unfold Dev.runAct
  repeat' first | assumption | intro _ | with_reducible apply kept_ite | with_reducible apply kept_forAll | with_reducible apply kept_foldl | with_reducible apply kept_when | with_reducible apply kept_foldl_fst | with_reducible apply kept_ite_fst | with_reducible apply kept_ite_snd | with_reducible apply Dev.exitTimes_kept | with_reducible apply Dev.withOp_kept | with_reducible apply Dev.activateTxn_kept | with_reducible apply Dev.activateTo_kept | with_reducible apply Dev.startOp_kept | with_reducible apply Dev.scheduledWrite_kept | with_reducible apply Dev.pertBegin_kept | with_reducible apply Dev.perturbationExpiry_kept | (simp only [kept_mk, keptMem_dev]; done) | split | (simp only [kept_mk, keptMem_dev])

@[simp] theorem Dev.takeAct_kept (o : Keep) (a0 : Dev) (a1 : Dev) (a2) (h0 : Kept o a0) : Kept o (@Dev.takeAct a0 a1 a2) := by
  unfold Dev.takeAct
  repeat' first | assumption | intro _ | with_reducible apply kept_ite | with_reducible apply kept_forAll | with_reducible apply kept_foldl | with_reducible apply kept_when | with_reducible apply kept_foldl_fst | with_reducible apply kept_ite_fst | with_reducible apply kept_ite_snd | with_reducible apply Dev.runAct_kept | (simp only [kept_mk, keptMem_dev]; done) | split | (simp only [kept_mk, keptMem_dev])

@[simp] theorem Dev.activation_kept (o : Keep) (a0 : Dev) (h0 : Kept o a0) : Kept o (@Dev.activation a0) := by
  unfold Dev.activation
  repeat' first | assumption | intro _ | with_reducible apply kept_ite | with_reducible apply kept_forAll | with_reducible apply kept_foldl | with_reducible apply kept_when | with_reducible apply kept_foldl_fst | with_reducible apply kept_ite_fst | with_reducible apply kept_ite_snd | with_reducible apply Dev.takeAct_kept | (simp only [kept_mk, keptMem_dev]; done) | split | (simp only [kept_mk, keptMem_dev])

@[simp] theorem Dev.reassertN_kept (o : Keep) (a0 : Dev) (h0 : Kept o a0) : Kept o (@Dev.reassertN a0) := by
  unfold Dev.reassertN
  repeat' first | assumption | intro _ | with_reducible apply kept_ite | with_reducible apply kept_forAll | with_reducible apply kept_foldl | with_reducible apply kept_when | with_reducible apply kept_foldl_fst | with_reducible apply kept_ite_fst | with_reducible apply kept_ite_snd | with_reducible apply Dev.reassert_kept | (simp only [kept_mk, keptMem_dev]; done) | split | (simp only [kept_mk, keptMem_dev])

@[simp] theorem Dev.nvmBoundary_kept (o : Keep) (a0 : Dev) (h0 : Kept o a0) : Kept o (@Dev.nvmBoundary a0) := by
  unfold Dev.nvmBoundary
  repeat' first | assumption | intro _ | with_reducible apply kept_ite | with_reducible apply kept_forAll | with_reducible apply kept_foldl | with_reducible apply kept_when | with_reducible apply kept_foldl_fst | with_reducible apply kept_ite_fst | with_reducible apply kept_ite_snd  | (simp only [kept_mk, keptMem_dev]; done) | split | (simp only [kept_mk, keptMem_dev])

@[simp] theorem Dev.rollBackBg_kept (o : Keep) (a0 : Dev) (a1) (h0 : Kept o a0) : Kept o (@Dev.rollBackBg a0 a1) := by
  unfold Dev.rollBackBg
  repeat' first | assumption | intro _ | with_reducible apply kept_ite | with_reducible apply kept_forAll | with_reducible apply kept_foldl | with_reducible apply kept_when | with_reducible apply kept_foldl_fst | with_reducible apply kept_ite_fst | with_reducible apply kept_ite_snd | with_reducible apply Dev.finishBg_kept | with_reducible apply Dev.touchTxn_kept | with_reducible apply Dev.rollBackTxn_kept | with_reducible apply Dev.rootAbort_kept | with_reducible apply Dev.abortEvacs_kept | with_reducible apply Dev.retireBack_kept | with_reducible apply Dev.rejoinBack_kept | with_reducible apply Dev.setDom_kept | with_reducible apply Dev.endHeadRest_kept | (simp only [kept_mk, keptMem_dev]; done) | split | (simp only [kept_mk, keptMem_dev])

@[simp] theorem Dev.abortBoundary_kept (o : Keep) (a0 : Dev) (h0 : Kept o a0) : Kept o (@Dev.abortBoundary a0) := by
  unfold Dev.abortBoundary
  repeat' first | assumption | intro _ | with_reducible apply kept_ite | with_reducible apply kept_forAll | with_reducible apply kept_foldl | with_reducible apply kept_when | with_reducible apply kept_foldl_fst | with_reducible apply kept_ite_fst | with_reducible apply kept_ite_snd | with_reducible apply forAll_kept | with_reducible apply Dev.reply_kept | with_reducible apply Dev.mapBg_kept | with_reducible apply Dev.rollBackBg_kept | (simp only [kept_mk, keptMem_dev]; done) | split | (simp only [kept_mk, keptMem_dev])

@[simp] theorem Dev.plantBoundary_kept (o : Keep) (a0 : Dev) (a1) (h0 : Kept o a0) : Kept o (@Dev.plantBoundary a0 a1) := by
  simp (maxDischargeDepth := 20) +contextual [Dev.plantBoundary, *]

@[simp] theorem Dev.setTime_kept (o : Keep) (a0 : Dev) (a1) (hl : (a1 a0.time).loc = a0.time.loc) (ht : (a1 a0.time).tsOfs = a0.time.tsOfs)
 (h0 : Kept o a0) : Kept o (@Dev.setTime a0 a1) := by
  unfold Dev.setTime
  rw [kept_mk, hl, ht, keptMem_dev]
  exact h0

@[simp] theorem Dev.overruns_kept (o : Keep) (a0 : Dev) (a1) (h0 : Kept o a0) : Kept o (@Dev.overruns a0 a1) := by
  simp (maxDischargeDepth := 20) +contextual [Dev.overruns, *]

@[simp] theorem Dev.rankBoundary_kept (o : Keep) (a0 : Dev) (a1 : Dev) (h0 : Kept o a0) : Kept o (@Dev.rankBoundary a0 a1) := by
  simp (maxDischargeDepth := 20) +contextual [Dev.rankBoundary, *]

@[simp] theorem Dev.skewPort_kept (o : Keep) (a0 : Dev) (a1 : Dev) (a2) (h0 : Kept o a0) : Kept o (@Dev.skewPort a0 a1 a2) := by
  unfold Dev.skewPort
  repeat' first | assumption | intro _ | with_reducible apply kept_ite | with_reducible apply kept_forAll | with_reducible apply kept_foldl | with_reducible apply kept_when | with_reducible apply kept_foldl_fst | with_reducible apply kept_ite_fst | with_reducible apply kept_ite_snd | with_reducible apply Dev.setPort_kept | with_reducible apply Dev.raise_kept | with_reducible apply Dev.startPull_kept | (simp only [kept_mk, keptMem_dev]; done) | split | (simp only [kept_mk, keptMem_dev])

@[simp] theorem Dev.dryBoundary_kept (o : Keep) (a0 : Dev) (a1 : Dev) (h0 : Kept o a0) : Kept o (@Dev.dryBoundary a0 a1) := by
  unfold Dev.dryBoundary
  repeat' first | assumption | intro _ | with_reducible apply kept_ite | with_reducible apply kept_forAll | with_reducible apply kept_foldl | with_reducible apply kept_when | with_reducible apply kept_foldl_fst | with_reducible apply kept_ite_fst | with_reducible apply kept_ite_snd | with_reducible apply forAll_kept | with_reducible apply Dev.raiseI_kept | (simp only [kept_mk, keptMem_dev]; done) | split | (simp only [kept_mk, keptMem_dev])

@[simp] theorem Dev.strokeFrame_kept (o : Keep) (a0 : Dev) (a1) (a2) (h0 : Kept o a0) : Kept o (@Dev.strokeFrame a0 a1 a2) := by
  unfold Dev.strokeFrame
  repeat' first | assumption | intro _ | with_reducible apply kept_ite | with_reducible apply kept_forAll | with_reducible apply kept_foldl | with_reducible apply kept_when | with_reducible apply kept_foldl_fst | with_reducible apply kept_ite_fst | with_reducible apply kept_ite_snd | with_reducible apply Dev.setPort_kept | (simp only [kept_mk, keptMem_dev]; done) | split | (simp only [kept_mk, keptMem_dev])

theorem Dev.tick_kept (o : Keep) (a0 : Dev) (a1) (h0 : KeptMem o a0.dram a0.nvm a0.otp (a0.time.loc + 1) a0.time.tsOfs) :
    Kept o (@Dev.tick a0 a1) := h0

@[simp] theorem Dev.reclaimRequest_kept (o : Keep) (a0 : Dev) (a1) (h0 : Kept o a0) : Kept o (@Dev.reclaimRequest a0 a1) := by
  simp (maxDischargeDepth := 20) +contextual [Dev.reclaimRequest, *]

@[simp] theorem Dev.floatBoundary_kept (o : Keep) (a0 : Dev) (a1 : Dev) (a2) (h0 : Kept o a0) : Kept o (@Dev.floatBoundary a0 a1 a2) := by
  simp (maxDischargeDepth := 20) +contextual [Dev.floatBoundary, *]

@[simp] theorem Dev.cutEntries_kept (o : Keep) (a0 : Dev) (a1) (h0 : Kept o a0) : Kept o (@Dev.cutEntries a0 a1) := by
  simp (maxDischargeDepth := 20) +contextual [Dev.cutEntries, *]

@[simp] theorem Dev.runActs_kept (o : Keep) (a0 : Dev) (a1 : Dev) (h0 : Kept o a0) : Kept o (@Dev.runActs a0 a1) := by
  simp (maxDischargeDepth := 20) +contextual [Dev.runActs, *]

@[simp] theorem Dev.correctPhase_kept (o : Keep) (a0 : Dev) (a1) (h0 : Kept o a0) : Kept o (@Dev.correctPhase a0 a1) := by
  simp (maxDischargeDepth := 20) +contextual [apply_ite TimeSt.loc, apply_ite TimeSt.tsOfs, Dev.correctPhase, *]

@[simp] theorem Dev.sendMarks_kept (o : Keep) (a0 : Dev) (h0 : Kept o a0) : Kept o (@Dev.sendMarks a0) := by
  simp (maxDischargeDepth := 20) +contextual [Dev.sendMarks, *]

@[simp] theorem Dev.phaseCorrection_kept (o : Keep) (a0 : Dev) (h0 : Kept o a0) : Kept o (@Dev.phaseCorrection a0) := by
  unfold Dev.phaseCorrection
  repeat' first | assumption | intro _ | with_reducible apply kept_ite | with_reducible apply kept_forAll | with_reducible apply kept_foldl | with_reducible apply kept_when | with_reducible apply kept_foldl_fst | with_reducible apply kept_ite_fst | with_reducible apply kept_ite_snd | with_reducible apply Dev.correctPhase_kept | with_reducible apply Dev.setPort_kept | (simp only [kept_mk, keptMem_dev]; done) | split | (simp only [kept_mk, keptMem_dev])

@[simp] theorem Dev.holdoverEntry_kept (o : Keep) (a0 : Dev) (h0 : Kept o a0) : Kept o (@Dev.holdoverEntry a0) := by
  simp (maxDischargeDepth := 20) +contextual [Dev.holdoverEntry, *]

@[simp] theorem Dev.markBoundary_kept (o : Keep) (a0 : Dev) (a1 : Dev) (h0 : Kept o a0) : Kept o (@Dev.markBoundary a0 a1) := by
  unfold Dev.markBoundary
  extract_lets c sp
  have hc : ∀ d, Kept o d → Kept o (c d) := fun d hd => kept_forAll _ _ _ _ hd fun d x hd => Dev.setPort_kept _ _ _ _ hd
  clear_value c sp
  refine kept_ite _ _ _ _ (hc _ (Dev.setTime_kept _ _ _ rfl rfl h0)) (hc _ (Dev.setTime_kept _ _ _ ?_ ?_ h0)) <;> (repeat' split) <;> rfl

@[simp] theorem Dev.rewriteOfs_kept (o : Keep) (a0 : Dev) (h0 : Kept o a0) : Kept o (@Dev.rewriteOfs a0) := by
  unfold Dev.rewriteOfs
  repeat' first | assumption | intro _ | with_reducible apply kept_ite | with_reducible apply kept_forAll | with_reducible apply kept_foldl | with_reducible apply kept_when | with_reducible apply kept_foldl_fst | with_reducible apply kept_ite_fst | with_reducible apply kept_ite_snd | with_reducible apply Dev.raise_kept | with_reducible apply Dev.setTime_kept | (simp only [kept_mk, keptMem_dev]; done) | split | (simp only [kept_mk, keptMem_dev])

@[simp] theorem Dev.poolMove_kept (o : Keep) (a0 : Dev) (h0 : Kept o a0) : Kept o (@Dev.poolMove a0) := by
  simp (maxDischargeDepth := 20) +contextual [Dev.poolMove, *]

@[simp] theorem Dev.alignBoundary_kept (o : Keep) (a0 : Dev) (a1 : Dev) (h0 : Kept o a0) : Kept o (@Dev.alignBoundary a0 a1) := by
  simp (maxDischargeDepth := 20) +contextual [Dev.alignBoundary, *]

@[simp] theorem Dev.heldBoundary_kept (o : Keep) (a0 : Dev) (h0 : Kept o a0) : Kept o (@Dev.heldBoundary a0) := by
  simp (maxDischargeDepth := 20) +contextual [Dev.heldBoundary, *]

@[simp] theorem Dev.eventRoutes_kept (o : Keep) (a0 : Dev) (a1 : Dev) (h0 : Kept o a0) : Kept o (@Dev.eventRoutes a0 a1) := by
  simp (maxDischargeDepth := 20) +contextual [Dev.eventRoutes, *]

@[simp] theorem Dev.loadReset_kept (o : Keep) (a0 : Dev) (h0 : Kept o a0) : Kept o (@Dev.loadReset a0) := by
  simp (maxDischargeDepth := 20) +contextual [Dev.loadReset, *]

@[simp] theorem Dev.plantDues_kept (o : Keep) (a0 : Dev) (a1 : Dev) (h0 : Kept o a0) : Kept o (@Dev.plantDues a0 a1) := by
  simp (maxDischargeDepth := 20) +contextual [Dev.plantDues, *]

@[simp] theorem Dev.loadBoundary_kept (o : Keep) (a0 : Dev) (a1 : Dev) (a2) (h0 : Kept o a0) : Kept o (@Dev.loadBoundary a0 a1 a2) := by
  simp (maxDischargeDepth := 20) +contextual [Dev.loadBoundary, *]

@[simp] theorem Dev.poolOffsetRewrite_kept (o : Keep) (a0 : Dev) (h0 : Kept o a0) : Kept o (@Dev.poolOffsetRewrite a0) := by
  unfold Dev.poolOffsetRewrite
  (repeat' split) <;> simp (maxDischargeDepth := 20) +contextual [*]

@[simp] theorem Dev.commandDues_kept (o : Keep) (a0 : Dev) (a1 : Dev) (h0 : Kept o a0) : Kept o (@Dev.commandDues a0 a1) := by
  simp (maxDischargeDepth := 20) +contextual [Dev.commandDues, *]

@[simp] theorem Dev.waitsBoundary_kept (o : Keep) (a0 : Dev) (a1 : Dev) (h0 : Kept o a0) : Kept o (@Dev.waitsBoundary a0 a1) := by
  simp (maxDischargeDepth := 20) +contextual [Dev.waitsBoundary, *]

@[simp] theorem Dev.sendFrames_kept (o : Keep) (a0 : Dev) (h0 : Kept o a0) : Kept o (@Dev.sendFrames a0) := by
  simp (maxDischargeDepth := 20) +contextual [Dev.sendFrames, *]

@[simp] theorem Dev.qosBoundary_kept (o : Keep) (a0 : Dev) (a1 : Dev) (h0 : Kept o a0) : Kept o (@Dev.qosBoundary a0 a1) := by
  unfold Dev.qosBoundary
  repeat' first | assumption | intro _ | with_reducible apply kept_ite | with_reducible apply kept_forAll | with_reducible apply kept_foldl | with_reducible apply kept_when | with_reducible apply kept_foldl_fst | with_reducible apply kept_ite_fst | with_reducible apply kept_ite_snd | with_reducible apply forAll_kept | with_reducible apply Dev.overlayReg_kept | (simp only [kept_mk, keptMem_dev]; done) | split | (simp only [kept_mk, keptMem_dev])

@[simp] theorem Dev.memoryDues_kept (o : Keep) (a0 : Dev) (a1 : Dev) (h0 : Kept o a0) : Kept o (@Dev.memoryDues a0 a1) := by
  simp (maxDischargeDepth := 20) +contextual [Dev.memoryDues, *]

@[simp] theorem Dev.cascadeDues_kept (o : Keep) (a0 : Dev) (a1 : Dev) (h0 : Kept o a0) : Kept o (@Dev.cascadeDues a0 a1) := by
  simp (maxDischargeDepth := 20) +contextual [Dev.cascadeDues, *]

@[simp] theorem Dev.pairWord_kept (o : Keep) (a0 : Dev) (a1) (a2) (a3) (a4) (h0 : Kept o a0) : Kept o (@Dev.pairWord a0 a1 a2 a3 a4) := by
  simp (maxDischargeDepth := 20) +contextual [Dev.pairWord, *]

@[simp] theorem Dev.releaseBoundary_kept (o : Keep) (a0 : Dev) (h0 : Kept o a0) : Kept o (@Dev.releaseBoundary a0) := by
  unfold Dev.releaseBoundary
  try dsimp only
  repeat' first | assumption | intro _ | with_reducible apply kept_ite | with_reducible apply kept_forAll | with_reducible apply kept_foldl | with_reducible apply kept_when | with_reducible apply kept_foldl_fst | with_reducible apply kept_ite_fst | with_reducible apply kept_ite_snd | with_reducible apply Dev.releaseSpan_kept | with_reducible apply Dev.mapBg_kept | (simp only [kept_mk, keptMem_dev]; done) | split | (simp only [kept_mk, keptMem_dev]) | (simp_all; done)

@[simp] theorem Dev.memoryBoundary_kept (o : Keep) (a0 : Dev) (a1 : Dev) (h0 : Kept o a0) : Kept o (@Dev.memoryBoundary a0 a1) := by
  simp (maxDischargeDepth := 20) +contextual [Dev.memoryBoundary, *]

@[simp] theorem Dev.linkBoundary_kept (o : Keep) (a0 : Dev) (a1 : Dev) (h0 : Kept o a0) : Kept o (@Dev.linkBoundary a0 a1) := by
  simp (maxDischargeDepth := 20) +contextual [Dev.linkBoundary, *]

@[simp] theorem Dev.stepsFiveSix_kept (o : Keep) (a0 : Dev) (a1) (h0 : Kept o a0) : Kept o (@Dev.stepsFiveSix a0 a1) := by
  unfold Dev.stepsFiveSix
  exact Dev.pumpsStep6_kept _ _ _ (kept_forAll _ _ _ _ (kept_forAll _ _ _ _ h0 fun _ _ hd => Dev.refreshCredit_kept _ _ _ hd) fun _ _ hd => kept_forAll _ _ _ _ hd fun _ _ hd => Dev.installSetting_kept _ _ _ _ hd)

@[simp] theorem Dev.stepOne_kept (o : Keep) (a0 : Dev) (a1 : Dev) (a2) (h0 : Kept o a0) : Kept o (@Dev.stepOne a0 a1 a2) := by
  unfold Dev.stepOne
  extract_lets d1 d2 d3 d4 d5 d6 d7 d8
  have h1 : Kept o d1 := Dev.overruns_kept _ _ _ (Dev.abortBoundary_kept _ _ h0)
  clear_value d1
  have h2 : Kept o d2 := Dev.plantBoundary_kept _ _ _ (Dev.memoryBoundary_kept _ _ _ h1)
  clear_value d2
  have h3 : Kept o d3 := Dev.plantDues_kept _ _ _ (Dev.commandDues_kept _ _ _ (Dev.memoryDues_kept _ _ _ h2))
  clear_value d3
  have h4 : Kept o d4 := Dev.linkBoundary_kept _ _ _ (Dev.domBoundary_kept _ _ _ (Dev.scopeBoundary_kept _ _ _ (Dev.debugScopeExpiry_kept _ _ (Dev.keyBoundary_kept _ _ _ h3))))
  clear_value d4
  have h5 : Kept o d5 := Dev.cascadeDues_kept _ _ _ h4
  clear_value d5
  have h6 : Kept o d6 := kept_forAll _ _ _ _ h5 fun _ _ hd => Dev.rejoinTimeout_kept _ _ _ hd
  clear_value d6
  have h7 : Kept o d7 := Dev.pertBoundary_kept _ _ _ (Dev.guestBoundary_kept _ _ _ (Dev.restBoundary_kept _ _ h6))
  clear_value d7
  have h8 : Kept o d8 := Dev.nvmBoundary_kept _ _ (Dev.eventRoutes_kept _ _ _ (Dev.qosBoundary_kept _ _ _ h7))
  clear_value d8
  exact Dev.capBoundary_kept _ _ (Dev.loadBoundary_kept _ _ _ _ (Dev.heldBoundary_kept _ _ (Dev.ageHolds_kept _ _ h8)))

theorem Dev.strokeBoundary_kept (o : Keep) (a0 : Dev) (a1 : Samples)
 (h0 : KeptMem o a0.dram a0.nvm a0.otp (a0.time.loc + 1) a0.time.tsOfs) : Kept o (@Dev.strokeBoundary a0 a1) := by
  unfold Dev.strokeBoundary
  extract_lets d1 d2 moves d3 d4
  have h1 : Kept o d1 := Dev.tick_kept _ _ _ h0
  clear_value d1
  have h2 : Kept o d3 := Dev.alignBoundary_kept _ _ _ (Dev.stepOne_kept _ _ _ _ h1)
  clear_value d3
  have h3 : Kept o d4 := Dev.bwBoundary_kept _ _ _ _ _ (Dev.cntBoundary_kept _ _ _ _ h2)
  clear_value d4
  exact kept_ite _ _ _ _ (Dev.plantBoundary_kept _ _ _ (Dev.resetAndPrime_kept _ _ h1))
    (Dev.stepsFiveSix_kept _ _ _ (Dev.sendFrames_kept _ _ (Dev.runActs_kept _ _ _ h3)))

end Sys2Proof.Machine
end

