-- ==== Sys2Proof/Laws/Wire.lean ====
section
/-! SUPPORT. A flit that is formed is a flit that is accepted: the CRC-32C of a plain flit holds for its receiver. -/

namespace Sys2Proof.Machine

open Sys2Proof

/-- A part of a list that lies inside its middle piece. -/
theorem sub_middle (xs ys zs : List Byte) : sub (xs ++ ys ++ zs) xs.length ys.length = ys := by
  apply List.ext_getElem
  · simp [sub]
  · intro i h1 h2
    simp only [sub, List.getElem_map, List.getElem_range, List.append_assoc]
    simp [List.getD, List.getElem?_append_right, List.getElem?_append_left h2, List.getElem?_eq_getElem h2]

theorem sub_front (ys zs : List Byte) : sub (ys ++ zs) 0 ys.length = ys := sub_middle [] ys zs

theorem sub_back (xs ys : List Byte) : sub (xs ++ ys) xs.length ys.length = ys := by simpa using sub_middle xs ys []

/-- R265: the CRC-32C that ends a plain flit is good for every receiver. -/
theorem CPort.tagOk_plainFlit (c : CPort) (f : Flit) (hd slots : List Nat) (hb : f.bytes = plainFlit hd slots) (hp : f.plain = true)
    (h : (hd ++ slots).length = 244) : c.tagOk f = true := by
  have hl : ((hd ++ slots).map (BitVec.ofNat 8) : List Byte).length = 244 := by simpa using h
  have hf : f.bytes = (hd ++ slots).map (BitVec.ofNat 8) ++
      (leBytes 4 (crc32c ((hd ++ slots).map (BitVec.ofNat 8))).toNat ++ List.replicate 8 0#8) := by
    rw [hb, plainFlit, List.append_assoc]
  generalize ((hd ++ slots).map (BitVec.ofNat 8) : List Byte) = bs at hl hf
  have h1 : sub f.bytes 0 244 = bs := by rw [hf, ← hl]; exact sub_front _ _
  have h2 : sub f.bytes 244 12 = leBytes 4 (crc32c bs).toNat ++ List.replicate 8 0#8 := by
    rw [hf, ← hl]; exact sub_back _ (leBytes 4 (crc32c bs).toNat ++ List.replicate 8 0#8)
  unfold CPort.tagOk
  rw [if_pos hp, h1, h2]
  exact beq_self_eq_true _

end Sys2Proof.Machine
end

