-- ==== Sys2Proof/WellFormed.lean ====
section
/-! DEFINITION. Which commands are well formed: unit numbers that name a unit of the full part (R1, R367), and operand fields that fit the
places the manual gives them. The device takes a command that is not well formed too: a unit it lacks has no effect, or gives Invalid Input
(R4, R5, R7). -/

namespace Sys2Proof.Instr

open Sys2Proof

/-- A mailbox sender is one of the sixteen heads or the MCTP endpoint (R56, R68). -/
def srcOk : Src → Bool
  | .head h => decide (h < 16)
  | .mctp => true

/-- An SPDM session runs over a head's DOE, over MCTP or over a cascade link, with an identifier of 16 bits at each side (R326). -/
def sessOk (x : Sess) : Bool :=
  decide (x.id < 2 ^ 32) && match x.tr with
  | .doe h => decide (h < 16)
  | .mctp => true
  | .link p => decide (p < 16)

/-- A write hint: KIND of 2 bits, TILE of 4 (R183). -/
def hintOk (x : Hint) : Bool := decide (x.kind < 4) && decide (x.tile < 16)

/-- `OSC_WAIT` has 3 straps, `I3C_SA` has 7 bits at most (R350, R448). -/
def strapsOk (x : Straps) : Bool := decide (x.oscWait < 8) && decide (x.i3cSa < 128)

/-- The samples of a boundary name heads, rails, tiles, bays and sources that exist (R77, R363, R371, R413). -/
def samplesOk (x : Samples) : Bool :=
  x.ingress.all (fun y => decide (y.1 < 16)) && x.rails.all (fun y => decide (y.1 < 8) && decide (y.2.1 < 11)) &&
    x.bays.all (fun y => decide (y.1 < 32)) && x.bytes.all (fun y => decide (y.1 < 64) && decide (y.2.1 < 2)) &&
    decide (x.vin < 65536)

/-- The fields of a Stroke Frame: HOPS and the role (R278). -/
def frameOk (x : FrameMsg) : Bool := decide (x.hops < 4096) && decide (x.role < 4)

/-- A decoder's ways and granularity are nonzero (R63). -/
def decoderWf (x : Decoder) : Bool := decide (0 < x.ways) && decide (0 < x.gran)

/-- An extent begins on a 256 MiB boundary and covers whole blocks (R61, R65). -/
def extentOk (x : Extent) : Bool := decide (x.dpa % 2 ^ 28 = 0) && decide (x.length % 2 ^ 28 = 0) && decide (0 < x.length)

/-- A request's page is an exposed page number, and a hint has two bits. -/
def originOk : ChOrigin → Bool
  | .page p => decide (p < 2 ^ 34)
  | .terdy h => decide (h < 4)
  | _ => true

/-- A granule is read by a home slice, by one of the pumps, by the scrubber, or for the metadata. -/
def readerOk : Reader → Bool
  | .home _ | .scrub | .metadata _ => true
  | .pump p => decide (p < 32)

/-- A setting covers at most the 20 devices of a rank. -/
def settingOk (x : Setting) : Bool := decide (x.devs.length ≤ 20)

/-- A flit has 256 bytes (the flit layout). -/
def flitOk (x : Flit) : Bool := x.bytes.length == 256

/-- A payload that a mailbox can carry and that has the row's own action or subop in the byte that gives it (R68, R330, R379). -/
def subOk (p : List Byte) (i : Nat) (v : Byte) : Bool := decide (p.length ≤ 65536) && p.getD i v == v

/-- A Hello names a device of 12 bits and one of its sixteen ports (R254). -/
def helloOk (x : Hello) : Bool := decide (x.dev < 4096) && decide (x.port < 16) && decide (x.role < 3) && decide (x.credits.length ≤ 8)

/-- The header fields of a Terdy message fit their places (the header slot, after R259). -/
def msgOk (x : Msg) : Bool :=
  hintOk x.hint && decide (x.dest < 4096) && decide (x.src < 4096) && decide (x.origin < 32) && decide (x.group < 256) &&
    decide (x.pageHint < 4) && decide (x.mval < 4) && decide (x.tag < 65536) && decide (x.addr < 2 ^ 46)

/-- A broadcast's originator and device have 12 bits, BSEQ 16, the domain 8 (R270). -/
def bcastOk (x : Bcast) : Bool := decide (x.src < 4096) && decide (x.bseq < 65536) && decide (x.dev < 4096) && decide (x.group < 256)

/-- A Broadcast Ack's member has 12 bits, BSEQ 16 (R270). -/
def ackOk (x : BcastAck) : Bool := decide (x.member < 4096) && decide (x.bseq < 65536) && decide (x.slice < 4096)

/-- A Configuration Pull comes from a device of 12 bits (R314). -/
def pullOk (x : PullMsg) : Bool := decide (x.src < 4096)

/-- A gate refusal names a slice, a head outside L1 one of the sixteen (R338). -/
def factsOk (x : EntryFacts) : Bool := x.gateRefused.all (fun s => decide (s < 4096)) && x.notL1.all fun h => decide (h < 16)

/-- A monitored clock is that of a tile, a head, a cascade port or a channel that the full part has (R354). -/
def clockOk : ClockId → Bool
  | .aon | .core | .refclk | .xo => true
  | .fabric t => decide (t < 11)
  | .serdesHost h => decide (h < 16)
  | .serdesCascade p => decide (p < 16)
  | .ddr c => decide (c < 32)

/-- A module has 1, 2 or 4 ranks (R195, R198). -/
def dimmOk (x : Dimm) : Bool := decide (x.ranks = 1) || decide (x.ranks = 2) || decide (x.ranks = 4)

/-- A patrol finds something at a granule, line, page or pump that the full part has (R393). -/
def findOk : SramFind → Bool
  | .nothing | .single | .other | .ledgerSingle | .ledgerState _ | .ledgerPinned _ | .ledgerJournal _ | .ledgerRepair _ | .ledgerChain => true
  | .cleanCistern g => decide (g < 2 ^ 39)
  | .dirtyCistern l => decide (l < 2 ^ 40)
  | .cleanMap p | .dirtyMap p => decide (p < 2 ^ 34)
  | .engine p => decide (p < 32)

/-- A command is well formed when each of its operands is. -/
def wf : Instr → Bool
  | .coldReset straps => strapsOk straps
  | .resetN _ => true
  | .primed => true
  | .perstAssertion h => decide (h < 16)
  | .perstDeassertion h => decide (h < 16)
  | .controlComplexReset _ => true
  | .coresResume => true
  | .lockstepMismatch => true
  | .coreWatchdogExpiry => true
  | .uncorrectableFetch => true
  | .strokeBoundary smp => samplesOk smp
  | .activation => true
  | .strokeFrame p f => decide (p < 16) && frameOk f
  | .phaseCorrection => true
  | .poolOffsetRewrite => true
  | .holdoverEntry => true
  | .hostLinkUp h rate width => decide (h < 16) && decide (rate < 6) && decide (width < 6)
  | .hostLinkDown h => decide (h < 16)
  | .hdmDecoderCommit h i dec => decide (h < 16) && decide (i < 8) && decoderWf dec
  | .ltrConfigWrite h _ snoopNs noSnoopNs => decide (h < 16) && decide (snoopNs < 2 ^ 35) && decide (noSnoopNs < 2 ^ 35)
  | .ideKeyProgram h _ => decide (h < 16)
  | .ideIntegrityFailure stream => decide (stream.head < 16)
  | .m2sMemRd h tag dpa _ => decide (h < 16) && decide (tag < 65536) && decide (dpa < 2 ^ 46)
  | .m2sMemRdData h tag dpa => decide (h < 16) && decide (tag < 65536) && decide (dpa < 2 ^ 46)
  | .m2sMemInv h tag dpa _ => decide (h < 16) && decide (tag < 65536) && decide (dpa < 2 ^ 46)
  | .m2sMemInvNT h tag dpa _ => decide (h < 16) && decide (tag < 65536) && decide (dpa < 2 ^ 46)
  | .m2sMemWr h tag dpa _ _ => decide (h < 16) && decide (tag < 65536) && decide (dpa < 2 ^ 46)
  | .m2sMemWrPtl h tag dpa _ _ _ => decide (h < 16) && decide (tag < 65536) && decide (dpa < 2 ^ 46)
  | .m2sMemClnEvct h tag dpa => decide (h < 16) && decide (tag < 65536) && decide (dpa < 2 ^ 46)
  | .m2sBIRsp h dpa _ => decide (h < 16) && decide (dpa < 2 ^ 46)
  | .m2sBIConflict h dpa => decide (h < 16) && decide (dpa < 2 ^ 46)
  | .readCompletion _ => true
  | .inlinePromotionEnd page => decide (page < 2 ^ 34)
  | .cisternEviction gran _ => decide (gran < 2 ^ 39)
  | .keepExpiry gran => decide (gran < 2 ^ 39)
  | .unsupportedCommand src opcode => srcOk src && decide (opcode < 65536)
  | .getFwInfo src => srcOk src
  | .getTimestamp src => srcOk src
  | .setTimestamp src _ => srcOk src
  | .getEventRecords src log => srcOk src && decide (log < 256)
  | .clearEventRecords src log _ handles => srcOk src && decide (log < 256) && (handles.all fun b => decide (b < 65536))
  | .setEventInterruptPolicy src _ => srcOk src
  | .getHealthInfo src => srcOk src
  | .getPoisonList src start count => srcOk src && decide (start < 2 ^ 46) && decide (count < 2 ^ 32)
  | .clearPoisonList src dpa _ => srcOk src && decide (dpa < 2 ^ 46)
  | .injectPoison src dpa => srcOk src && decide (dpa < 2 ^ 46)
  | .identifyMemoryDevice src => srcOk src
  | .getSupportedLogs src => srcOk src
  | .getLog src offset length => srcOk src && decide (offset < 2 ^ 32) && decide (length < 2 ^ 32)
  | .getMultiHeadedInfo src => srcOk src
  | .addDcResponse h blocks => decide (h < 16) && (blocks.all fun b => decide (b < 2 ^ 18))
  | .releaseDc h blocks => decide (h < 16) && (blocks.all fun b => decide (b < 2 ^ 18))
  | .requestAbort src => srcOk src
  | .getHarluodIdentity src payload => srcOk src && decide (payload.length ≤ 65536)
  | .managementRead src payload => srcOk src && decide (payload.length ≤ 65536)
  | .managementWrite src payload => srcOk src && decide (payload.length ≤ 65536)
  | .deviceReset src payload => srcOk src && decide (payload.length ≤ 65536)
  | .thermalResume src payload => srcOk src && decide (payload.length ≤ 65536)
  | .beginTxn src payload => srcOk src && decide (payload.length ≤ 65536)
  | .stage src payload => srcOk src && decide (payload.length ≤ 65536)
  | .stageComplete _ => true
  | .validate src payload => srcOk src && decide (payload.length ≤ 65536)
  | .validateComplete _ => true
  | .commit src payload => srcOk src && decide (payload.length ≤ 65536)
  | .commitSlotWritten _ => true
  | .rollback src payload => srcOk src && decide (payload.length ≤ 65536)
  | .revert src payload => srcOk src && decide (payload.length ≤ 65536)
  | .poolCommit src payload => srcOk src && decide (payload.length ≤ 65536)
  | .nvmWriteTimeout => true
  | .requestRest src payload => srcOk src && decide (payload.length ≤ 65536)
  | .cancelRest src payload => srcOk src && decide (payload.length ≤ 65536)
  | .getPowerStatus src payload => srcOk src && decide (payload.length ≤ 65536)
  | .getReclaimRequest src payload => srcOk src && decide (payload.length ≤ 65536)
  | .releaseRange src payload => srcOk src && decide (payload.length ≤ 65536)
  | .releaseRangeComplete src => srcOk src
  | .retireRank src payload => srcOk src && decide (payload.length ≤ 65536)
  | .getRankStatus src payload => srcOk src && decide (payload.length ≤ 65536)
  | .bayPowerStatus src payload => srcOk src && subOk payload 1 0#8
  | .bayPowerOn src payload => srcOk src && subOk payload 1 1#8
  | .bayPowerOff src payload => srcOk src && subOk payload 1 2#8
  | .bayPowerClear src payload => srcOk src && subOk payload 1 3#8
  | .rejoinDomain src payload => srcOk src && decide (payload.length ≤ 65536)
  | .getChallenge input => srcOk input.src && subOk input.payload 0 0#8
  | .unlock src payload => srcOk src && decide (payload.length ≤ 65536)
  | .relock input => srcOk input.src && subOk input.payload 0 2#8
  | .unlockLockoutExpiry => true
  | .scheduleRegisterWrite src payload => srcOk src && decide (payload.length ≤ 65536)
  | .readCounters src payload => srcOk src && decide (payload.length ≤ 65536)
  | .setEndpointId eid => decide (eid < 256)
  | .getEndpointId => true
  | .getMessageTypeSupport => true
  | .mctpGetVersion => true
  | .identify src => srcOk src
  | .getHeadInfo src h => srcOk src && decide (h < 16)
  | .getDcdInfo src => srcOk src
  | .getHostDcRegionConfig src h => srcOk src && decide (h < 16)
  | .setDcRegionConfig src h => srcOk src && decide (h < 16)
  | .getDcRegionExtentLists src h => srcOk src && decide (h < 16)
  | .initiateDcAdd src h exts => srcOk src && decide (h < 16) && exts.all extentOk
  | .initiateDcRelease src h exts => srcOk src && decide (h < 16) && exts.all extentOk
  | .getSldQosControl src => srcOk src
  | .setSldQosControl src optimal moderate severe hyst => srcOk src && decide (optimal < 256) && decide (moderate < 256) && decide (severe < 256) && decide (hyst < 16)
  | .getSldQosStatus src => srcOk src
  | .sweepStep tile => decide (tile < 4)
  | .sweepStale tile => decide (tile < 4)
  | .heatDecayPass resident => (resident.all fun b => decide (b < 2 ^ 34))
  | .pumpJobStart pump => decide (pump < 32)
  | .decoderAvailable tile dec => decide (tile < 4) && decide (dec < 64)
  | .fenceComplete pump => decide (pump < 32)
  | .fenceAbandon pump => decide (pump < 32)
  | .commitPhase pump => decide (pump < 32)
  | .pumpAbort src pump => srcOk src && decide (pump < 32)
  | .pumpResume src pump => srcOk src && decide (pump < 32)
  | .bookSlotRetireEnd slot => decide (slot < 16)
  | .setKey sess req => sessOk sess && decide (req.length ≤ 4096)
  | .retireDomain sess req => sessOk sess && decide (req.length ≤ 4096)
  | .eraseDomain sess req => sessOk sess && decide (req.length ≤ 4096)
  | .eraseInvalidationDone dom => decide (dom < 4096)
  | .getDomainStatus sess req => sessOk sess && decide (req.length ≤ 4096)
  | .domainKeyEmpty dom => decide (dom < 4096)
  | .linkKeyMessage msg => decide (msg.port < 16)
  | .linkRekey msg => decide (msg.port < 16)
  | .arbiterAdmission hs _ => decide (hs < 64)
  | .transactionAcknowledged line => decide (line < 2 ^ 40)
  | .snoopTimeout line => decide (line < 2 ^ 40)
  | .holdTimeout line => decide (line < 2 ^ 40)
  | .rejoinTimeout g => decide (g < 256)
  | .channelRequest ch _ gran origin => decide (ch < 32) && decide (gran < 2 ^ 32) && originOk origin
  | .dramReadReturn ch gran reader errs => decide (ch < 32) && decide (gran < 2 ^ 32) && readerOk reader && (errs.all fun y => decide (y.1 < 160))
  | .refabIssue ch r => decide (ch < 32) && decide (r < 8)
  | .mr4Poll ch codes => decide (ch < 32) && (codes.all fun y => decide (y.1 < 8))
  | .calibrationBurst ch r probes => decide (ch < 32) && decide (r < 8) && (probes.all fun y => decide (y.dev < 20))
  | .retrainingWindow ch r _ => decide (ch < 32) && decide (r < 8)
  | .retrainingEnd ch r _ setting => decide (ch < 32) && decide (r < 8) && settingOk setting
  | .retrainingTimeout ch r setting => decide (ch < 32) && decide (r < 8) && settingOk setting
  | .caParityAlert ch slot => decide (ch < 32) && decide (slot < 2)
  | .bringUpComplete ch results => decide (ch < 32) && (results.all fun y => decide (y.r < 8) && settingOk y.setting)
  | .scrubRead ch run => decide (ch < 32) && decide (run.n < 9) && (run.errs.all fun y => y.2.all fun z => decide (z.1 < 160))
  | .softPpr ch _ => decide (ch < 32)
  | .ueWindowExpiry ch r => decide (ch < 32) && decide (r < 8)
  | .evacuationWalk tile => decide (tile < 4)
  | .evacuationRetry tile => decide (tile < 4)
  | .rankEmpty ch r => decide (ch < 32) && decide (r < 8)
  | .cascadeTrainingStart p => decide (p < 16)
  | .cascadeTrainingStepTimeout p => decide (p < 16)
  | .cascadeLinkUp p rate width lanes => decide (p < 16) && decide (rate < 4) && decide (width < 4) && decide (lanes < 16)
  | .pairAlignmentAcquired p => decide (p < 16)
  | .pairAlignmentLost p => decide (p < 16)
  | .alignmentLossTimeout p => decide (p < 16)
  | .adaptationRetrain p => decide (p < 16)
  | .lossOfSignal p => decide (p < 16)
  | .flitReceive p f => decide (p < 16) && flitOk f
  | .linkControl p _ ack credits => decide (p < 16) && decide (ack < 4096) && decide (credits.length ≤ 8)
  | .replayTimeout p => decide (p < 16)
  | .hello p hl => decide (p < 16) && helloOk hl
  | .securedTransport p ofs total frag => decide (p < 16) && decide (ofs < 65536) && decide (total < 65536) && decide (frag.length ≤ 65536)
  | .terdyMemRd p m => decide (p < 16) && msgOk m
  | .terdyMemRdData p m => decide (p < 16) && msgOk m
  | .terdyMemInv p m => decide (p < 16) && msgOk m
  | .terdyMemInvNT p m => decide (p < 16) && msgOk m
  | .terdyMemWr p m => decide (p < 16) && msgOk m
  | .terdyMemWrPtl p m => decide (p < 16) && msgOk m
  | .terdyMemClnEvct p m => decide (p < 16) && msgOk m
  | .terdyMemWrRetried p m => decide (p < 16) && msgOk m
  | .terdyMemWrPtlRetried p m => decide (p < 16) && msgOk m
  | .writeRetry p m => decide (p < 16) && msgOk m
  | .terdyMemData p m => decide (p < 16) && msgOk m
  | .terdyCmp p m => decide (p < 16) && msgOk m
  | .terdyBIRsp p m => decide (p < 16) && msgOk m
  | .terdyBIConflict p m => decide (p < 16) && msgOk m
  | .terdyBIConflictAck p m => decide (p < 16) && msgOk m
  | .terdyBISnpInv p m => decide (p < 16) && msgOk m
  | .terdyBISnpData p m => decide (p < 16) && msgOk m
  | .terdyBISnpCur p m => decide (p < 16) && msgOk m
  | .pageFetch p m => decide (p < 16) && msgOk m
  | .pagePlace p m => decide (p < 16) && msgOk m
  | .pageData p m => decide (p < 16) && msgOk m
  | .pageAck p m => decide (p < 16) && msgOk m
  | .pageFree p m => decide (p < 16) && msgOk m
  | .remoteTimeout tag => decide (tag < 65536)
  | .pageAckTimeout pump => decide (pump < 32)
  | .pageFreeTimeout tag => decide (tag < 65536)
  | .foQuietExpiry dest => decide (dest < 4096)
  | .routeNoticeSwitch p dest => decide (p < 16) && decide (dest < 4096)
  | .routeNoticeRestore p dest => decide (p < 16) && decide (dest < 4096)
  | .failback p => decide (p < 16)
  | .domainDown p b => decide (p < 16) && bcastOk b
  | .domainUp p b => decide (p < 16) && bcastOk b
  | .broadcastAck p a => decide (p < 16) && ackOk a
  | .poolPrepare p b => decide (p < 16) && bcastOk b
  | .poolCommitBroadcast p b => decide (p < 16) && bcastOk b
  | .poolAbort p b => decide (p < 16) && bcastOk b
  | .poolRevert p b => decide (p < 16) && bcastOk b
  | .voteWindowExpiry => true
  | .commitWaitExpiry => true
  | .configurationPull p q => decide (p < 16) && pullOk q
  | .configurationPullReply p q => decide (p < 16) && pullOk q
  | .votedTimeout => true
  | .pullRetry => true
  | .pullGiveUp => true
  | .slotVerificationComplete => true
  | .transactionTimeout => true
  | .sleepRequest p src => decide (p < 16) && decide (src < 4096)
  | .sleepReply p _ slice => decide (p < 16) && decide (slice < 4096)
  | .sleepDrainComplete p => decide (p < 16)
  | .wakePatternDetected p => decide (p < 16)
  | .linkResumed p => decide (p < 16)
  | .resumptionTimeout p => decide (p < 16)
  | .claimOwnership sess req => sessOk sess && decide (req.length ≤ 4096)
  | .transferOwnership sess req => sessOk sess && decide (req.length ≤ 4096)
  | .revokeVendorKey sess req => sessOk sess && decide (req.length ≤ 4096)
  | .decommission sess req => sessOk sess && decide (req.length ≤ 4096)
  | .setCertificate sess slot chain => sessOk sess && decide (slot < 8) && decide (chain.length ≤ 65536)
  | .getCertificate sess slot offset length => sessOk sess && decide (slot < 8) && decide (offset < 2 ^ 32) && decide (length < 2 ^ 32)
  | .challenge sess slot nonce => sessOk sess && decide (slot < 8) && decide (nonce.length ≤ 64)
  | .negotiateAlgorithms sess _ => sessOk sess
  | .keyExchange sess => sessOk sess
  | .keyUpdate sess => sessOk sess
  | .heartbeat sess => sessOk sess
  | .endSession sess => sessOk sess
  | .getMeasurements sess index => sessOk sess && decide (index < 256)
  | .floorRise => true
  | .debugScopeExpiry => true
  | .entryStep facts => factsOk facts
  | .hsWaitExpiry => true
  | .sleepReplyTimeout => true
  | .entryRetry => true
  | .wakeSource code _ => decide (code < 10)
  | .wakeStep => true
  | .reentryIdleExpiry => true
  | .activationWake => true
  | .clockMonitorWindow clk _ => clockOk clk
  | .sourceSwitchStopTimeout clk _ => clockOk clk
  | .rcTrim steps => (steps.all fun y => decide (y.1 < 12))
  | .pllFailure clk => clockOk clk
  | .pllLocked tile => decide (tile < 11)
  | .railPoll avs _ => decide (avs < 4)
  | .opSequenceFault avs _ => decide (avs < 4)
  | .clkoutConfiguration src _ => srcOk src
  | .gateRefusalTimeout slice => decide (slice < 4096)
  | .warningCrossing rail tile => decide (rail < 8) && decide (tile < 11)
  | .braceEnd => true
  | .resetCrossing rail tile _ => decide (rail < 8) && decide (tile < 11)
  | .tileResetRelease tile => decide (tile < 11)
  | .railOvervoltage rail tile _ => decide (rail < 8) && decide (tile < 11)
  | .bayInsertion n pos dimm => decide (n < 32) && decide (pos < 2) && dimmOk dimm
  | .bayRemoval n pos => decide (n < 32) && decide (pos < 2)
  | .bayRampStart n => decide (n < 32)
  | .bayGood n => decide (n < 32)
  | .rampLimitExpiry n => decide (n < 32)
  | .gateNotGood n => decide (n < 32)
  | .currentLimit n => decide (n < 32)
  | .currentLimitCleared n => decide (n < 32)
  | .faultTimerExpiry n => decide (n < 32)
  | .fastTrip n => decide (n < 32)
  | .retryTimerExpiry n => decide (n < 32)
  | .retriesClear n => decide (n < 32)
  | .shortedTransistor n => decide (n < 32)
  | .powerDownGateDelay n => decide (n < 32)
  | .bayOutputLow n => decide (n < 32)
  | .tileSensorSample tile _ => decide (tile < 11)
  | .dimmTemperatureRead ch readings => decide (ch < 32) && decide (readings.length ≤ 2)
  | .enforcementStart => true
  | .eventPendingClear src w _ => srcOk src && decide (w < 8)
  | .faultNRelease => true
  | .sramPatrol tile found => decide (tile < 11) && findOk found
  | .counterReprogram src n _ => srcOk src && decide (n < 1024)
  | .counterOvfClear src n => srcOk src && decide (n < 1024)
  | .counterWrap n _ => decide (n < 1024)
  | .bandwidthWindowConfig src n _ => srcOk src && decide (n < 64)
  | .bandwidthWindowClose n => decide (n < 64)
  | .perturbationGo src p => srcOk src && decide (p < 8)
  | .perturbationStop src p => srcOk src && decide (p < 8)
  | .perturbationExpiry p => decide (p < 8)
  | .chrotenModuleUp m rate _ => decide (m < 53) && decide (rate < 7)
  | .chrotenModuleDown m _ => decide (m < 53)
  | .chrotenFlitReceive m _ opcode size => decide (m < 53) && decide (opcode < 256) && decide (size < 64)
  | .creditReturn m slots => decide (m < 53) && decide (slots.length ≤ 8)
  | .guestMemRd tag addr _ => decide (tag < 65536) && decide (addr < 2 ^ 46)
  | .guestMemRdData tag addr => decide (tag < 65536) && decide (addr < 2 ^ 46)
  | .guestMemInv tag addr _ => decide (tag < 65536) && decide (addr < 2 ^ 46)
  | .guestMemInvNT tag addr _ => decide (tag < 65536) && decide (addr < 2 ^ 46)
  | .guestMemWr tag addr _ hint _ => decide (tag < 65536) && decide (addr < 2 ^ 46) && hintOk hint
  | .guestMemWrPtl tag addr _ hint _ _ => decide (tag < 65536) && decide (addr < 2 ^ 46) && hintOk hint
  | .guestMemClnEvct tag addr => decide (tag < 65536) && decide (addr < 2 ^ 46)
  | .guestBIRsp addr _ => decide (addr < 2 ^ 46)
  | .guestBIConflict addr => decide (addr < 2 ^ 46)
  | .pushReply addr _ => decide (addr < 2 ^ 46)
  | .guestResetRelease => true
  | .attach _ _ credits => decide (credits.length ≤ 8)
  | .attachTimeout => true
  | .detach => true
  | .guestModuleLoss => true
  | .reattach src => srcOk src
  | .ready => true
  | .refuse => true
  | .quiesceTimeout => true
  | .guestWake => true
  | .resumed => true
  | .resumedTimeout => true
  | .guestAccessTimeout => true
  | .guestRegisterAccessPacket => true
  | .resetNDeassertion straps => strapsOk straps
  | .pairWord p _ _ mark => decide (p < 16) && decide (mark < 65536)
  | .dynamicAddress addr => (addr.all fun a => decide (a < 128))
  | .spdmGetVersion sess => sessOk sess
  | .getCapabilities sess => sessOk sess
  | .getDigests sess => sessOk sess
  | .finish sess _ => sessOk sess
  | .getEncapsulatedRequest sess => sessOk sess
  | .deliverEncapsulatedResponse sess _ _ => sessOk sess
  | .tableAccess h => decide (h < 16)
  | .guestAccessCompletion _ => true
  | .writeBurst ch gran _ => decide (ch < 32) && decide (gran < 2 ^ 32)
  | .autoIdleExpiry ch r bank => decide (ch < 32) && decide (r < 8) && decide (bank < 32)

end Sys2Proof.Instr
end

