-- ==== Sys2Proof/Tests/Slice0.lean ====
section
/-! SUPPORT. Small tests: terms that are not well formed, and states that meet the hypotheses of the statements. -/

namespace Sys2Proof.Tests

set_option Elab.async false

open Sys2Proof Sys2Proof.Machine

/-! ### Terms of the witnesses -/

/-- The state of device `d` with no command waiting. -/
def W (d : Dev) : State := { dev := d, pending := [] }

/-- A primed device at local stroke `n`, with nothing configured. -/
def up (n : Nat) : Dev := { prim := .primed, time := { loc := n } }

/-- The device with the configuration registers `l`. -/
def cfgd (d : Dev) (l : Tbl (BitVec 32)) : Dev := { d with cfg := { d.cfg with regs := l } }

/-- `Accepted`, as a Boolean. -/
def acceptB (c : Instr) (s : State) (src : Src) (d : Dev) : Bool :=
  match gateOf s.dev c with
  | some (x, g) => x == src && s.dev.srcOk src && (s.dev.heard src g).gateStop src g == none && decide (d = s.dev.heard src g)
  | none => false

theorem accepted_of_acceptB {c : Instr} {s : State} {src : Src} {d : Dev} (h : acceptB c s src d = true) : Accepted c s src d := by
  unfold acceptB at h
  split at h
  · next x g hg =>
    simp only [Bool.and_eq_true, beq_iff_eq, decide_eq_true_eq] at h
    obtain ⟨⟨⟨rfl, h1⟩, h2⟩, h3⟩ := h
    exact ⟨g, hg, ⟨h1, h2⟩, h3⟩
  · cases h

/-- The device that remembers message `m` of port `p` (R273), as `Took` names it. -/
def tookDev (d : Dev) (op : Nat) (m : Msg) : Dev :=
  { d with cas := { d.cas with seen := d.remembered ++ [(d.time.loc, m.src, m.tag, op, m.addr)] } }

/-- `Took`, as a Boolean, of a message that was not sent again. -/
def tookB (c : Instr) (s : State) (m : Msg) (e : Dev) : Bool :=
  match terdyOf c with
  | some (p, op, x) => x == m && s.dev.portUp p && m.dest == s.dev.devId && !m.resent && decide (e = tookDev s.dev op m)
  | none => false

theorem took_of_tookB {c : Instr} {s : State} {m : Msg} {e : Dev} (h : tookB c s m e = true) : Took c s m e := by
  unfold tookB at h
  split at h
  · next p op x hx =>
    simp only [Bool.and_eq_true, beq_iff_eq, Bool.not_eq_true', decide_eq_true_eq] at h
    obtain ⟨⟨⟨⟨rfl, h1⟩, h2⟩, h3⟩, h4⟩ := h
    exact ⟨p, op, hx, h1, h2, fun t => by simp [Dev.Twice, h3] at t, h4⟩
  · cases h

/-- Region 0: one block of 256 MiB that every head may see, without a domain. -/
def reg0 : Region :=
  { num := 0, base := 0, size := 1, heads := 0xFFFF#16, group := 0, guest := false, kdom := 0, tierMax := 3, pageHint := 0, t4ok := true
    reclaim := true, zeroElide := true, book := 0 }

/-- A primed device that exposes region 0, with head 0's link up and that block in its view. -/
def served (n : Nat) : Dev :=
  { up n with
    cfg := { active := { regions := [reg0] }, capacity := 1 }
    heads := [(0, { perst := false, up := true, rate := 5, width := 5, cxl := true, blocks := [0] })] }

/-- A DDR5 module of two ranks. -/
def dimm : Dimm :=
  { mrdimm := false, rate := 6400, dieGb := 16, ranks := 2, stack := 1, serial := 1#32, x4 := true, ecc40 := true
    tempLo := 0, tempHi := 5440 }

/-- Bytes of zeros. -/
def z (n : Nat) : List Byte := List.replicate n 0#8

/-- A primed device with the transaction `t` and the background commands `b`. -/
def inTxn (t : Txn) (b : List Bg) : Dev := { up 30000000 with cfg := { txn := t, bg := b } }

/-- A primed device at stroke `n` whose cascade ports are as `l` lists them. -/
def ported (n : Nat) (l : Tbl CPort) : Dev := { up n with cas := { ports := l } }

/-- A port that is Up, with nothing queued. -/
def upPort : CPort := { st := .up, step := 5, rate := 2, width := 3, lanes := 8, aligned := true, neighbour := 7 }

/-- A broadcast of device 7. -/
def cast : Bcast :=
  { src := 7, epoch := 1#32, bseq := 1, dev := 7, group := 1, cause := 1, stroke := 0#64, ver := 1#32, digest := 1#64, act := 0#64
    targetVer := 2#32, targetDigest := 2#64 }

/-- A message of device 7 for device 0. -/
def msg (a : Nat) : Msg := { msg0 with dest := 0, src := 7, origin := 1, group := 0, tag := 1, addr := a }

/-- An image of version 0 with a Pool tag (R295). -/
def tagged : Image := { poolTag := some (1#32, 1#64) }

/-! ### Witnesses: states and operands that meet the hypotheses of the statements, clause by clause -/

theorem witness_StepRunsTheFrontCommand :
    let p : Dev := { up 0 with cores := { paused := [.perstAssertion 15] } }
    ({ dev := {}, pending := [.perstAssertion 15] } : State).pending = [.perstAssertion 15] ∧
    ((W {}).pending = [] ∧ (W {}).dev.cores.paused = []) ∧ Dev.coresGone { cores := { away := true } } = true ∧
    (W p).pending = [] ∧ (W p).dev.cores.paused = [.perstAssertion 15] ∧ (W p).dev.coresGone = false := by decide

theorem witness_HomeSliceOfAPage :
    2 ^ 34 - 1 < 2 ^ 34 ∧ Dev.nHs {} = 64 ∧ Dev.nHs { otp := { caps1 := 0x20201007#32 } } = 32 := by decide

theorem witness_GuestRegisterPacketsAreDiscarded : Dev.hasGuest { otp := { caps0 := 0x020007FF#32 } } = true := by decide

theorem witness_DeviceResetAtTheSecondBoundary :
    (acceptB (.deviceReset .mctp []) (W {}) .mctp {} ∧ ({} : Dev).resetDue = none) ∧
    ((W { resetDue := some 1 }).dev.resetDue = some 1 ∧ (1 = 0 + 1) ∧ (W { resetDue := some 2 }).dev.resetDue = some 2 ∧ 0 + 1 < 2) ∧
    (W {}).dev.resetHeld = false ∧ (W {}).dev.therm.latched = false := by decide +kernel

theorem witness_MapEntryAndItsWordAgree :
    MapEntry.fits { st := .stable, tier := 3, owner := 7, heat := 15 } = true ∧
    (MapEntry.decode 0#128).isSome = true ∧ (0#128).extractLsb' 48 24 = 0#24 := by decide

theorem witness_OnlyBoundariesCountStrokes : OkMem (W {}).dev.dram (W {}).dev.nvm ∧ (W {}).dev.cores.paused = [] ∧
    (∃ t, exec (.perstAssertion 0) (W {}) = .next t) ∧ (∃ t, exec (.resetCrossing 7 16 true) (W {}) = .next t) ∧
    (∃ t, exec (.setTimestamp .mctp 0#64) (W {}) = .next t) ∧ ∃ t, step (W {}) = .next t :=
  ⟨⟨rfl, rfl⟩, rfl, ⟨_, rfl⟩, ⟨_, rfl⟩, ⟨_, rfl⟩, ⟨_, rfl⟩⟩

theorem witness_MemoryStaysCanonical : OkMem (W {}).dev.dram (W {}).dev.nvm ∧ ∃ t, step { W {} with pending := [.activation] } = .next t :=
  ⟨⟨rfl, rfl⟩, ⟨_, rfl⟩⟩

theorem witness_OtpIsOnlyBurntBySecurityMessages : OkMem (W {}).dev.dram (W {}).dev.nvm ∧ ∃ t, exec .detach (W {}) = .next t :=
  ⟨⟨rfl, rfl⟩, ⟨_, rfl⟩⟩

theorem witness_NvmIsOnlyWrittenByTheTransaction : OkMem (W {}).dev.dram (W {}).dev.nvm ∧ ∃ t, exec .detach (W {}) = .next t :=
  ⟨⟨rfl, rfl⟩, ⟨_, rfl⟩⟩

theorem witness_OnlyNamedCommandsTouchStoredData : storesOf .detach = false ∧ ∃ t, exec .detach (W {}) = .next t := ⟨rfl, ⟨_, rfl⟩⟩

theorem witness_GatesTurnCommandsAway :
    let away : Dev := { up 0 with cores := { away := true } }
    let hot : Dev := { up 0 with therm := { latched := true } }
    let bare : Dev := cfgd (up 0) [(0x300, 0#32)]
    ((gateOf away (.getTimestamp (.head 15))).isSome = true ∧ away.srcOk (.head 15) = true ∧ (away.heard (.head 15) {}).coresGone = true) ∧
    ((gateOf away (.getTimestamp .mctp)).isSome = true ∧ away.srcOk .mctp = true ∧ (away.heard .mctp {}).coresGone = true) ∧
    (hot.coresGone = false ∧ hot.therm.latched = true ∧ (gateOf hot (.getTimestamp .mctp)).isSome = true) ∧
    ((gateOf (up 0) (.relock ⟨.head 0, [0#8]⟩)).isSome = true ∧ (up 0).coresGone = false ∧ (up 0).therm.latched = false ∧ Src.head 0 ≠ .mctp) ∧
    (({} : Dev).prim ≠ .primed ∧ ({} : Dev).coresGone = false ∧ (gateOf {} (.getTimestamp .mctp)).isSome = true) ∧
    (bare.mgr (.head 0) = false ∧ bare.prim = .primed ∧ bare.coresGone = false ∧ (gateOf bare (.deviceReset (.head 0) [])).isSome = true) ∧
    (acceptB (.managementRead .mctp []) (W (up 0)) .mctp (up 0) ∧ ([] : List Byte).length ≠ 8 ∧ ([] : List Byte).length ≤ 4096) ∧
    (acceptB (.unlock .mctp (List.replicate 138 (0#8 : Byte))) (W (up 0)) .mctp (up 0) ∧ (List.replicate 138 (0#8 : Byte)).length ≠ 137) ∧
    acceptB (.thermalResume .mctp [0#8]) (W (up 0)) .mctp (up 0) := by decide +kernel

theorem witness_IdentityTimeAndCxlOutputs :
    (acceptB (.unsupportedCommand (.head 15) 0xFFFF) (W (up 0)) (.head 15) (up 0)) ∧
    (acceptB (.getTimestamp .mctp) (W (up 0)) .mctp (up 0)) ∧
    (acceptB (.setTimestamp (.head 0) 0xFFFFFFFFFFFFFFFF#64) (W (up 0)) (.head 0) (up 0)) ∧
    (acceptB (.getHarluodIdentity .mctp []) (W {}) .mctp {}) ∧
    (acceptB (.getFwInfo .mctp) (W {}) .mctp {}) ∧
    (acceptB (.identifyMemoryDevice (.head 0)) (W {}) (.head 0) {}) ∧
    (acceptB (.getSupportedLogs .mctp) (W {}) .mctp {}) ∧
    (acceptB (.getLog .mctp 0 0) (W {}) .mctp {} ∧ 0 + 0 ≤ (Config.cxlBytes 12 []).length) ∧
    (acceptB (.getHealthInfo .mctp) (W (up 0)) .mctp (up 0)) ∧
    (acceptB (.getMultiHeadedInfo .mctp) (W (up 0)) .mctp (up 0)) ∧
    (acceptB (.identify .mctp) (W (up 0)) .mctp (up 0)) ∧
    (acceptB (.getDcdInfo .mctp) (W (up 0)) .mctp (up 0)) ∧
    (acceptB (.getSldQosStatus .mctp) (W (up 0)) .mctp (up 0)) := by decide +kernel

theorem witness_FmApiSldQosAndMctpControl :
    let d := served 0
    let t : Dev := { up 0 with cfg := { txn := { st := .opened, owner := some (.head 3) } } }
    (acceptB (.getHeadInfo .mctp 16) (W d) .mctp d ∧ d.nHosts ≤ 16) ∧
    (acceptB (.getHeadInfo .mctp 15) (W d) .mctp d ∧ 15 < d.nHosts) ∧
    (acceptB (.getHostDcRegionConfig .mctp 0) (W d) .mctp d) ∧
    (acceptB (.setDcRegionConfig .mctp 0) (W d) .mctp d) ∧
    (acceptB (.getDcRegionExtentLists .mctp 0) (W d) .mctp d) ∧
    (acceptB (.getSldQosControl .mctp) (W d) .mctp d) ∧
    (acceptB (.setSldQosControl .mctp 25 25 90 5) (W d) .mctp d ∧ devloadBad 25 25 90 5 = true) ∧
    (acceptB (.setSldQosControl .mctp 25 70 90 16) (W d) .mctp d ∧ 15 < 16) ∧
    (acceptB (.setSldQosControl .mctp 25 70 90 15) (W t) .mctp t ∧ devloadBad 25 70 90 15 = false ∧ 15 ≤ 15 ∧ t.cfg.txn.st ≠ .idle ∧
        t.cfg.txn.owner ≠ some .mctp) ∧
    (acceptB (.setSldQosControl .mctp 1 2 100 0) (W d) .mctp d ∧ devloadBad 1 2 100 0 = false ∧ 0 ≤ 15 ∧ d.cfg.txn.st = .idle) ∧
    (({} : Dev).coresGone = false ∧ 0 < 254 ∧ 254 < 255) := by decide +kernel

theorem witness_DynamicCapacityAndPoison :
    let d := served 0
    let e0 : Extent := { dpa := 0, length := 2 ^ 28, tag := 0#128 }
    let off : Dev := d.setHead 0 fun x => { x with adds := [e0], blocks := [] }
    let dbg : Dev := { d with sec := { scope := 2#4 } }
    (acceptB (.initiateDcAdd .mctp 16 [e0]) (W d) .mctp d ∧ d.dcOk 16 [e0] = false) ∧
    (acceptB (.initiateDcAdd .mctp 0 [{ e0 with tag := 1#128 }]) (W d) .mctp d ∧ [{ e0 with tag := 1#128 }].all d.extTag = false) ∧
    (acceptB (.initiateDcAdd .mctp 0 [e0]) (W d) .mctp d ∧ tooManyExtents [e0] = false ∧ d.dcOk 0 [e0] = true ∧ [e0].all d.extTag = true) ∧
    (acceptB (.initiateDcRelease .mctp 15 [e0]) (W d) .mctp d ∧ tooManyExtents [e0] = false ∧ d.dcOk 15 [e0] = true) ∧
    (acceptB (.initiateDcRelease .mctp 16 [e0]) (W d) .mctp d ∧ d.dcOk 16 [e0] = false) ∧
    (acceptB (.addDcResponse 0 [1]) (W off) (.head 0) off ∧ ∀ e ∈ (off.head 0).adds, 1 ∉ extBlocks e) ∧
    (acceptB (.addDcResponse 0 [0]) (W off) (.head 0) off ∧ ∀ b ∈ [0], ∃ e ∈ (off.head 0).adds, b ∈ extBlocks e) ∧
    (acceptB (.releaseDc 0 [1]) (W d) (.head 0) d ∧ 1 ∉ (d.head 0).blocks) ∧
    (acceptB (.releaseDc 0 [0]) (W d) (.head 0) d ∧ ∀ b ∈ [0], b ∈ (d.head 0).blocks) ∧
    (acceptB (.getPoisonList .mctp 0 1) (W d) .mctp d) ∧
    (acceptB (.injectPoison .mctp 0) (W d) .mctp d ∧ d.sec.scope.getLsbD 1 = false) ∧
    (acceptB (.injectPoison (.head 0) (2 ^ 28 - 64)) (W dbg) (.head 0) dbg ∧ dbg.sec.scope.getLsbD 1 = true ∧ (2 ^ 28 - 64) % 64 = 0 ∧
        dbg.srcAddr (.head 0) (2 ^ 28 - 64) = some (2 ^ 28 - 64)) ∧
    (acceptB (.clearPoisonList .mctp (2 ^ 28) 0#512) (W d) .mctp d ∧ d.srcAddr .mctp (2 ^ 28) = none) ∧
    (acceptB (.clearPoisonList .mctp 0 0#512) (W d) .mctp d ∧ d.srcAddr .mctp 0 = some 0 ∧ 0 % 64 = 0) := by decide +kernel

theorem witness_ManagementReadsAndWrites :
    let d := up 0
    let g : Dev := { up 0 with otp := { caps0 := 0x020007FF#32 } }
    let rd (a w : Nat) : List Byte := leBytes 4 a ++ leBytes 1 w ++ z 3
    let wr (a v : Nat) : List Byte := leBytes 4 a ++ [4#8] ++ z 3 ++ leBytes 4 v ++ z 4
    let t (o : Src) : Dev := { up 0 with cfg := { txn := { st := .opened, owner := some o } } }
    (acceptB (.managementRead .mctp (rd 2 4)) (W d) .mctp d ∧ (rd 2 4).length = 8 ∧ zeros (sub (rd 2 4) 5 3) = true ∧ d.accessError 2 4 = true) ∧
    (acceptB (.managementRead .mctp (rd 0x0A000000 8)) (W g) .mctp g ∧ fieldAt (rd 0x0A000000 8) 4 1 = 8 ∧ g.accessError 0x0A000000 8 = false ∧
        inGuest 0x0A000000 = true ∧ g.hasGuest = true) ∧
    (acceptB (.managementRead .mctp (rd 0x0083FFFC 4)) (W d) .mctp d ∧ fieldAt (rd 0x0083FFFC 4) 0 4 = 0x0083FFFC ∧
        d.accessError 0x0083FFFC 4 = false ∧ inLedger 0x0083FFFC = true) ∧
    (d.accessError 0x0A000000 4 = false ∧ d.hasGuest = false ∧ inLedger 0x0A000000 = false ∧ d.regVal 0x0A000000 = none) ∧
    (d.accessError 0x300 4 = false ∧ inGuest 0x300 = false ∧ inLedger 0x300 = false ∧ (d.regVal 0x300).isSome = true) ∧
    (acceptB (.managementWrite .mctp (wr 0x302 0)) (W d) .mctp d ∧ (wr 0x302 0).length = 16 ∧ zeros (sub (wr 0x302 0) 5 3) = true ∧
        fieldAt (wr 0x302 0) 4 1 = 4 ∧ zeros (sub (wr 0x302 0) 12 4) = true ∧ d.accessError 0x302 4 = true) ∧
    (d.accessError 0xFFFFC 4 = false ∧ inGuest 0xFFFFC = false ∧ d.regVal 0xFFFFC = none) ∧
    ((d.regVal 0x300).map Prod.fst = some 4 ∧ inPert 0x300 = false ∧ d.changesRwt 0x300 1#32 = true ∧ d.cfg.txn.st = .idle ∧
        acceptB (.managementWrite .mctp (wr 0x300 1)) (W d) .mctp d) ∧
    (acceptB (.managementWrite .mctp (wr 0x300 1)) (W (t (.head 1))) .mctp (t (.head 1)) ∧ (t (.head 1)).changesRwt 0x300 1#32 = true ∧
        (t (.head 1)).cfg.txn.st ≠ .idle ∧ (t (.head 1)).cfg.txn.owner ≠ some .mctp) ∧
    ((t .mctp).changesRwt 0x3A0 1#32 = true ∧ closedReg 0x3A0 = true ∧ (t .mctp).cfg.txn.owner = some .mctp ∧
        acceptB (.managementWrite .mctp (wr 0x3A0 1)) (W (t .mctp)) .mctp (t .mctp)) ∧
    ((t .mctp).changesRwt 0x300 0xFFFF#32 = true ∧ closedReg 0x300 = false ∧ (t .mctp).changedInRange 0x300 0xFFFF#32 = true ∧
        acceptB (.managementWrite .mctp (wr 0x300 0xFFFF)) (W (t .mctp)) .mctp (t .mctp)) := by decide +kernel

theorem witness_ResetScheduleAndAbort :
    let d := up 0
    let b : Bg := { src := .mctp, kind := .validate }
    let x : Dev := { up 0 with cfg := { bg := [b] } }
    let p (a v : Nat) : List Byte := leBytes 4 a ++ leBytes 4 v ++ leBytes 8 2
    (acceptB (.deviceReset (.head 0) []) (W (cfgd d [(0x300, 1#32)])) (.head 0) (cfgd d [(0x300, 1#32)])) ∧
    (acceptB (.requestAbort .mctp) (W d) .mctp d ∧ ∀ b ∈ d.cfg.bg, b.src ≠ .mctp) ∧
    (acceptB (.requestAbort .mctp) (W x) .mctp x ∧ x.cfg.bg = [b] ∧ b.src = .mctp ∧ b.kind = .validate) ∧
    (acceptB (.scheduleRegisterWrite .mctp (p 1 0)) (W d) .mctp d ∧ (p 1 0).length = 16 ∧ d.accessError 1 4 = true) ∧
    (acceptB (.scheduleRegisterWrite .mctp (p 0x300 1)) (W d) .mctp d ∧ d.accessError 0x300 4 = false ∧ closedReg 0x300 = false ∧
        valueOk 0x300 1#32 = true ∧ d.wanted 2 = 2 ∧ d.earliest = 2 ∧ d.acts.length < 16) := by decide +kernel

theorem witness_ReclaimAndRetireCommands :
    let d := served 0
    let r : List Byte := leBytes 8 (2 ^ 28 - 4096) ++ leBytes 8 4096 ++ z 8
    let q : Dev := { up 0 with chans := [(0, { dimm0 := some dimm, ranks := [(0, { st := .active })] })] }
    let b (lo hi nx : Nat) : Bg := { src := .mctp, kind := .release lo hi nx 0 }
    (acceptB (.getReclaimRequest (.head 0) []) (W d) (.head 0) d) ∧
    (acceptB (.releaseRange (.head 0) (leBytes 8 4095 ++ leBytes 8 4096 ++ z 8)) (W d) (.head 0) d ∧ 4095 % 4096 ≠ 0) ∧
    (acceptB (.releaseRange (.head 0) r) (W d) (.head 0) d ∧ r.length = 24 ∧ zeros (sub r 16 8) = true ∧ fieldAt r 0 8 % 4096 = 0 ∧
        fieldAt r 8 8 % 4096 = 0 ∧ 0 < fieldAt r 8 8 ∧ (d.headDpaBase 0 + fieldAt r 0 8 + fieldAt r 8 8 - 1) / 2 ^ 28 = 0 ∧
        d.inView 0 0 = true ∧ d.bgRuns (.head 0) = false) ∧
    ((b 0 1 1).kind = .release 0 1 1 0 ∧ (b 0 1 1).result = none ∧ 1 ≤ 1 ∧ (b 0 1 0).kind = .release 0 1 0 0 ∧ 0 < 1) ∧
    (acceptB (.retireRank .mctp (z 8)) (W q) .mctp q ∧ (z 8).length = 8 ∧ zeros (sub (z 8) 3 5) = true ∧ q.rankIn (z 8) = some (0, 0) ∧
        rankUp (q.rank 0 0).st = true ∧ q.bgRuns .mctp = false ∧
        q.kindCount (q.rankRef 0 0) [1, 2, 3, 4, 5] ≤ q.spareFree 0 + ((tileList q).map q.free_).sum) ∧
    (acceptB (.getRankStatus .mctp (z 8)) (W q) .mctp q) := by decide +kernel

theorem witness_BaysSeatedPulledAndRamped :
    let s (b : Bay) : Dev := { up 1000 with bays := [(31, b)] }
    let auto (b : Bay) : Dev := cfgd (s b) [(0x700, 0x20588000#32)]
    (31 < (s {}).nBays ∧ ((s {}).bay 31).st = .empty ∧ ((s {}).bay 31).pres0 = false ∧ (s {}).fld 0x700 15 15 = 0 ∧ (s {}).prim = .primed) ∧
    (31 < (auto {}).nBays ∧ ((auto {}).bay 31).st = .empty ∧ ((auto {}).bay 31).pres1 = false ∧ (auto {}).fld 0x700 15 15 = 1) ∧
    (((s { st := .latched }).bay 31).st = .latched ∧ ((s { st := .latched }).bay 31).pres0 = false) ∧
    (((s { st := .queued, pres0 := true }).bay 31).pres0 = true ∧ ((s { st := .queued, pres0 := true }).bay 31).pres1 = false) ∧
    (let b : Bay := { st := .good, pres0 := true, pres1 := true, dimm1 := some dimm };
      ((s b).bay 31).st = .good ∧ ((s b).bay 31).pres1 = true ∧ ((s b).bay 31).causeAt ≠ (s b).time.loc + 1) ∧
    ((s { st := .queued }).nextRamp = some 31 ∧
        ((List.range (s { st := .queued }).nBays).filter fun k => ((s { st := .queued }).bay k).st == .ramping).length <
          (s { st := .queued }).fld 0x700 31 28 ∧ (s { st := .queued }).sup.brace = false ∧ (s { st := .queued }).therm.latched = false ∧
        (s { st := .queued }).prim ≠ .unprimed ∧ ((s { st := .queued }).bay 31).order < (s { st := .queued }).time.loc) ∧
    ((W { s { st := .queued } with sup := { brace := true } }).dev.sup.brace = true ∧
        (s { st := .queued, order := 1000 }).time.loc ≤ ((s { st := .queued, order := 1000 }).bay 31).order) ∧
    (((s { st := .ramping }).bay 31).st = .ramping) := by decide +kernel

theorem witness_BayFaultsRetriesAndLatches :
    let s (b : Bay) : Dev := { up (2 ^ 20) with bays := [(31, b)] }
    (31 < (s {}).nBays ∧ ((s { st := .good }).bay 31).st = .good) ∧
    (let b : Bay := { st := .limiting, timerEnd := 2 ^ 20 + 1, fromGood := true };
      ((s b).bay 31).st = .limiting ∧ (s b).time.loc < ((s b).bay 31).timerEnd ∧ ((s b).bay 31).fromGood = true) ∧
    (let b : Bay := { st := .limiting, timerEnd := 2 ^ 20 + 1 };
      (s b).time.loc < ((s b).bay 31).timerEnd ∧ ((s b).bay 31).fromGood = false) ∧
    (((s { st := .limiting, timerEnd := 2 ^ 20 }).bay 31).timerEnd ≤ (s { st := .limiting, timerEnd := 2 ^ 20 }).time.loc) ∧
    (((s { st := .ramping }).bay 31).st = .ramping ∧ (s { st := .ramping }).bayCtl 31 11 8 = 3 ∧ (s { st := .ramping }).bayCtl 31 18 12 ≠ 0 ∧
        satInc 16 ((s { st := .ramping, retries := 2 }).bay 31).retries = 3 ∧ satInc 16 ((s { st := .ramping, retries := 3 }).bay 31).retries = 4) ∧
    ((cfgd (s { st := .good }) [(0x9F0, 0x40280300#32)]).bayCtl 31 18 12 = 0) ∧
    (let b : Bay := { st := .retry, timerEnd := 2 ^ 20, pres0 := true };
      ((s b).bay 31).st = .retry ∧ ((s b).bay 31).timerEnd ≤ (s b).time.loc ∧ ((s b).bay 31).vacant = false) ∧
    (((s { st := .retry }).bay 31).st = .retry ∧ ((s { st := .retry }).bay 31).vacant = true) ∧
    (((s { st := .good }).bay 31).st = .good ∧ ((s { st := .good }).bay 31).goodAt + 2 ^ 20 ≤ (s { st := .good }).time.loc) ∧
    ((s { st := .good, goodAt := 1 }).time.loc < ((s { st := .good, goodAt := 1 }).bay 31).goodAt + 2 ^ 20) ∧
    (((s { st := .ramping }).bay 31).causeAt ≠ (s { st := .ramping }).time.loc + 1 ∧ ((s { st := .ramping }).bay 31).st = .ramping ∧
        ((s { st := .ramping }).bay 31).rampAt + (s { st := .ramping }).rampLimit 31 ≤ (s { st := .ramping }).time.loc ∧
        ((s { st := .good }).bay 31).st = .good ∧ ((s { st := .queued }).bay 31).st = .queued) := by decide +kernel

theorem witness_BayPowerCommands :
    let pay (n : Nat) : List Byte := leBytes 1 n ++ z 7
    let s (b : Bay) : Dev := { up 5000 with bays := [(31, b)] }
    (31 < (s { st := .down }).nBays ∧ ((s { st := .down }).bay 31).st = .down ∧ ((s { st := .down }).bay 31).downAt + 5000 ≤ (s { st := .down }).time.loc) ∧
    ((s { st := .down, downAt := 1 }).time.loc < ((s { st := .down, downAt := 1 }).bay 31).downAt + 5000) ∧
    (((s { st := .down, gateLow := true }).bay 31).st = .down ∧ ((s { st := .down, gateLow := true }).bay 31).gateLow = true) ∧
    (acceptB (.bayPowerStatus .mctp (pay 32)) (W (s {})) .mctp (s {}) ∧ (pay 32).length = 8 ∧ zeros (sub (pay 32) 2 6) = true ∧
        fieldAt (pay 32) 0 1 = 32 ∧ (s {}).nBays ≤ 32) ∧
    (acceptB (.bayPowerStatus .mctp (pay 31)) (W (s {})) .mctp (s {}) ∧ fieldAt (pay 31) 0 1 = 31 ∧ 31 < (s {}).nBays) ∧
    (acceptB (.bayPowerOn .mctp (pay 31)) (W (s { st := .off })) .mctp (s { st := .off }) ∧ ((s { st := .off }).bay 31).st = .off) ∧
    (acceptB (.bayPowerOn .mctp (pay 31)) (W (s { st := .latched })) .mctp (s { st := .latched }) ∧ ((s { st := .latched }).bay 31).st = .latched) ∧
    (let d : Dev := { s { st := .good } with chans := [(30, { ranks := [(4, { st := .active })] })] };
      acceptB (.bayPowerOff .mctp (pay 31)) (W d) .mctp d ∧ d.bayClear 31 = false) ∧
    (acceptB (.bayPowerOff .mctp (pay 31)) (W (s { st := .good })) .mctp (s { st := .good }) ∧ (s { st := .good }).bayClear 31 = true ∧ (s { st := .good }).bgRuns .mctp = false ∧
        ((s { st := .good }).bay 31).st = .good) ∧
    (acceptB (.bayPowerClear .mctp (pay 31)) (W (s { st := .latched })) .mctp (s { st := .latched }) ∧ ((s { st := .latched }).bay 31).st = .latched) ∧
    (acceptB (.bayPowerClear .mctp (pay 31)) (W (s { st := .good })) .mctp (s { st := .good }) ∧ ((s { st := .good }).bay 31).st ≠ .latched) := by decide +kernel

theorem witness_ThermalCommands :
    let s (n : Nat) : Dev := up n
    let late (n : Nat) : Dev := { up n with time := { loc := n, running := [(4, tileSlice 9, n * 1000 + 1)] } }
    let hot (a : Nat) : Dev := { up 2000 with therm := { throttle := true, startAt := a } }
    let m : Dev := { up 8 with chans := [(31, { dimm0 := some dimm })] }
    ((s 25).tilePresent 9 = true ∧ (s 25).pool % 16 = 9 ∧ (s 25).stillRuns 4 (tileSlice 9) = false) ∧
    ((late 25).stillRuns 4 (tileSlice 9) = true ∧ (late 25).tilePresent 9 = true ∧ (late 25).pool % 16 = 9) ∧
    ((s 25).tilePresent 10 = false ∧ (s 24).pool % 16 ≠ 9) ∧
    (31 < m.nChans ∧ m.pool % 16 = 8 ∧ (m.slotDimm 31 0).isSome = true) ∧
    ((hot 0).therm.throttle = true ∧ (hot 0).therm.enforced = false ∧ (hot 0).therm.startAt + (hot 0).fld 0xA00 15 0 ≤ (hot 0).time.loc) ∧
    ((hot 1).time.loc < (hot 1).therm.startAt + (hot 1).fld 0xA00 15 0) ∧
    (acceptB (.thermalResume .mctp []) (W { up 0 with therm := { latched := true } }) .mctp { up 0 with therm := { latched := true } }) := by decide +kernel

theorem witness_EventBitsPinsAndLogs :
    let s (e : EvSt) : Dev := { up 7 with ev := e }
    ((s {}).regOk .mctp = true ∧ 7 < 8) ∧
    ((s { pend := 2#256 }).anyN = true ∧ (s {}).anyN = false) ∧
    ((s { faultPin := true, faultClear := 6 }).ev.faultPin = true ∧ (s { faultPin := true, faultClear := 6 }).anyN = false ∧ 6 + 1 ≤ 7) ∧
    ((s { faultPin := true, faultClear := 7 }).time.loc < (s { faultPin := true, faultClear := 7 }).ev.faultClear + 1) ∧
    (logOf 3 = some .fatal ∧ acceptB (.getEventRecords (.head 15) 3) (W (s {})) (.head 15) (s {})) ∧
    (acceptB (.clearEventRecords .mctp 0 false [1]) (W (s {})) .mctp (s {}) ∧ logOf 0 = some .info ∧
        ∀ r ∈ ((s {}).log (logKey (srcDest .mctp) .info)).recs, r.handle ≠ 1) ∧
    (acceptB (.clearEventRecords .mctp 0 true []) (W (s {})) .mctp (s {})) ∧
    (acceptB (.setEventInterruptPolicy (.head 15) 0xFFFFFFFF#32) (W (s {})) (.head 15) (s {})) := by decide +kernel

theorem witness_CountersProgrammedReadAndWrapped :
    let d (c : Cnt) : Dev := { up 0 with cnts := [(1023, c)] }
    let edge : Cnt := { count := 2 ^ 48 - 1, cfg := 0x40000000#32 }
    let p (n : Nat) : List Byte := leBytes 2 1 ++ z 6 ++ leBytes 2 n
    ((d {}).regOk .mctp = true ∧ 1023 < 1024 ∧ (0x80000000#32).getLsbD 28 = false) ∧
    (((d { edge with cfg := 0x80000000#32 }).cnt 1023).mode ≠ 0 ∧ (d { edge with cfg := 0x80000000#32 }).cntBad 1023 = false ∧
        ((d { edge with cfg := 0x80000000#32 }).cnt 1023).mode ≠ 1 ∧ (d { edge with cfg := 0x80000000#32 }).cntRuns 1023 = true ∧ 2 ^ 48 ≤ ((d { edge with cfg := 0x80000000#32 }).cnt 1023).count + 1) ∧
    (acceptB (.readCounters .mctp (p 1024)) (W (up 0)) .mctp (up 0) ∧ fieldAt (p 1024) 0 2 = 1 ∧ (p 1024).length = 8 + 2 * 1 ∧
        zeros (sub (p 1024) 2 6) = true ∧ fieldAt (p 1024) 8 2 = 1024) ∧
    (acceptB (.readCounters .mctp (p 1023)) (W (up 0)) .mctp (up 0) ∧ fieldAt (p 1023) 8 2 = 1023) := by decide +kernel

theorem witness_BandwidthAndPerturbation :
    let s (n : Nat) (b : Bw) : Dev := { up n with bws := [(63, b)] }
    let t (x : Pert) (f : BitVec 4) : Dev := { up 100 with perts := [(7, x)], sec := { scope := f } }
    let x : Pert := { kind := 4, mag := 100, start := 102, dur := 1 }
    ((s 0 {}).regOk .mctp = true ∧ 63 < 64) ∧
    ((s 1024 {}).pool % 2 ^ ((s 1024 {}).bw 63).k = 0 ∧ ((s 1024 {}).bw 63).doneAt ≠ (s 1024 {}).time.loc + 1 ∧
        ((s 1024 {}).bw 63).toggle = false ∧ (s 1024 {}).bwPresent 63 = true ∧ (s 1024 {}).stillRuns 5 (bwSlice 63) = false) ∧
    (let b : Bw := { r00 := (1, false, 0, false) };
      0 < ((s 1024 b).bw 63).unread) ∧
    (Dev.bwPresent (up 0) 64 = false) ∧
    ((s 1023 {}).pool % 2 ^ ((s 1023 {}).bw 63).k ≠ 0) ∧
    ((t x 1#4).regOk .mctp = true ∧ (t x 1#4).sec.scope.getLsbD 0 = true ∧ pertTakes ((t x 1#4).pert 7).kind ((t x 1#4).pert 7).target = true ∧
        (t x 1#4).slicePresent ((t x 1#4).pert 7).target = true ∧ pertMagOk ((t x 1#4).pert 7).kind ((t x 1#4).pert 7).mag = true ∧
        ((t x 1#4).pert 7).dur ≠ 0 ∧ ((t x 1#4).pert 7).st = 0 ∧ (t x 1#4).earliest ≤ (t x 1#4).pertStart 7 ∧ (t x 1#4).acts.length < 16) ∧
    (((t { x with st := 1 } 1#4).pert 7).st ≠ 0) ∧
    ((t x 0#4).sec.scope.getLsbD 0 = false ∧ (t x 0#4).coresGone = false) ∧
    (let y : Pert := { x with st := 2, endAt := 100 };
      ((t y 1#4).pert 7).st = 2 ∧ ((t y 1#4).pert 7).endAt ≤ (t y 1#4).pool) := by decide +kernel

theorem witness_TransactionBegunStagedRolledBack :
    let o : Txn := { st := .opened, owner := some .mctp }
    let f : Txn := { st := .opened, owner := some (.head 0) }
    let q : List Byte := z 4 ++ leBytes 4 1
    let st (n : Nat) : List Byte := leBytes 4 0 ++ z 4 ++ z n
    let b : Bg := { src := .mctp, kind := .stage 0 (z 512) }
    (acceptB (.beginTxn .mctp (z 8)) (W (inTxn f [])) .mctp (inTxn f []) ∧ (z 8).length = 8 ∧ fieldAt (z 8) 0 1 < 2 ∧ zeros (sub (z 8) 1 3) = true ∧
        (inTxn f []).cfg.txn.st ≠ .idle) ∧
    (acceptB (.beginTxn .mctp q) (W (up 0)) .mctp (up 0) ∧ (up 0).cfg.txn.st = .idle ∧ (up 0).cfg.toSlot = none ∧ (up 0).cfg.root.phase = 0 ∧
        fieldAt q 4 4 ≠ 0 ∧ fieldAt q 4 4 ≠ (up 0).cfgVersion) ∧
    (acceptB (.beginTxn .mctp (z 8)) (W (up 0)) .mctp (up 0) ∧ fieldAt (z 8) 4 4 = 0) ∧
    (acceptB (.stage .mctp []) (W (up 0)) .mctp (up 0) ∧ acceptB (.validate .mctp []) (W (up 0)) .mctp (up 0) ∧
        acceptB (.commit .mctp []) (W (up 0)) .mctp (up 0) ∧ (up 0).cfg.txn.st = .idle) ∧
    (acceptB (.commit .mctp []) (W (inTxn f [])) .mctp (inTxn f []) ∧ (inTxn f []).cfg.txn.st ≠ .idle ∧ (inTxn f []).cfg.txn.owner ≠ some .mctp) ∧
    (acceptB (.stage .mctp (st 511)) (W (inTxn o [])) .mctp (inTxn o []) ∧ 8 ≤ (st 511).length ∧ (st 511).length ≤ 4096 ∧
        zeros (sub (st 511) 4 4) = true ∧ (inTxn o []).bgRuns .mctp = false ∧ (inTxn o []).stageOk (fieldAt (st 511) 0 4) ((st 511).length - 8) = false) ∧
    (acceptB (.stage .mctp (st 512)) (W (inTxn o [])) .mctp (inTxn o []) ∧
        (inTxn o []).stageOk (fieldAt (st 512) 0 4) ((st 512).length - 8) = true) ∧
    (acceptB (.rollback .mctp []) (W (inTxn o [])) .mctp (inTxn o []) ∧ (inTxn o []).cfg.txn.owner = some .mctp ∧ (inTxn o []).cfg.txn.st = .opened) ∧
    (acceptB (.rollback .mctp []) (W (inTxn { o with st := .queued } [])) .mctp (inTxn { o with st := .queued } [])) ∧
    (acceptB (.rollback .mctp []) (W (inTxn { o with st := .voted } [])) .mctp (inTxn { o with st := .voted } [])) ∧
    ((inTxn o [b]).cfg.bg = [b] ∧ b.result = none ∧ b.abandoned = false ∧ b.kind = .stage 0 (z 512) ∧ (inTxn o [b]).coresGone = false ∧
        b.mute = false ∧ (inTxn o [b]).nvmWritable = true ∧ (inTxn o [b]).cfg.txn.staged = []) ∧
    ((inTxn { o with staged := [(0, 512)] } [b]).cfg.txn.staged ≠ [] ∧ { inTxn o [b] with sup := { brace := true } }.nvmWritable = false) := by decide +kernel

theorem witness_ValidateEndsReadyOrOpen :
    let o : Txn := { st := .opened, owner := some .mctp }
    let b : Bg := { src := .mctp, kind := .validate }
    let bad : Txn := { o with overlay := [(0x3E4, (0xFFFF#32, 511#32))] }
    (acceptB (.validate .mctp []) (W (inTxn o [])) .mctp (inTxn o []) ∧ (inTxn o []).cfg.txn.st = .opened ∧ (inTxn o []).bgRuns .mctp = false ∧
        (inTxn o []).cfg.txn.owner = some .mctp) ∧
    ((inTxn o [b]).cfg.bg = [b] ∧ b.result = none ∧ b.abandoned = false ∧ b.mute = false ∧ b.kind = .validate ∧ (inTxn o [b]).coresGone = false ∧
        (inTxn o [b]).cfg.txn.stageIssued = false ∧ (inTxn o [b]).checkOverlay = none) ∧
    ((inTxn bad [b]).cfg.txn.stageIssued = false ∧ (inTxn bad [b]).checkOverlay.isSome = true) ∧
    ((inTxn { o with stageIssued := true } [b]).cfg.txn.stageIssued = true ∧ (inTxn { o with stageIssued := true } [b]).cfg.txn.staged = []) := by decide +kernel

theorem witness_CommitAndRevertQueueActivations :
    let o : Txn := { st := .opened, owner := some .mctp }
    let r : Txn := { o with st := .ready }
    let w : Txn := { o with st := .writing, target := some 1, image := some {} }
    let b : Bg := { src := .mctp, kind := .commit 0 }
    let v (p : List Byte) : Instr := .revert .mctp p
    (acceptB (.commit .mctp (z 8)) (W (inTxn o [])) .mctp (inTxn o []) ∧ (z 8).length = 8 ∧ (inTxn o []).cfg.txn.owner = some .mctp ∧
        (inTxn o []).cfg.txn.st = .opened) ∧
    ((inTxn { r with image := some {} } []).cfg.txn.image.isSome = true ∧ (inTxn { r with image := some {} } []).cfg.txn.pool = false ∧
        acceptB (.commit .mctp (z 8)) (W (inTxn { r with image := some {} } [])) .mctp (inTxn { r with image := some {} } [])) ∧
    (acceptB (.commit .mctp (z 8)) (W (inTxn r [])) .mctp (inTxn r []) ∧ (inTxn r []).cfg.txn.st = .ready ∧ (inTxn r []).cfg.txn.image = none ∧
        (inTxn r []).cfg.bg = [] ∧ (inTxn r []).acts.length < 16 ∧ fieldAt (z 8) 0 8 = 0) ∧
    ((inTxn w [b]).cfg.bg = [b] ∧ b.result = none ∧ b.abandoned = false ∧ b.queued = false ∧ b.kind = .commit 0 ∧
        (inTxn w [b]).cfg.txn.target = some 1 ∧ (inTxn w [b]).cfg.txn.image = some {} ∧ (inTxn w [b]).cfg.txn.st = .writing ∧
        (inTxn w [b]).nvmWritable = true ∧ (inTxn w [b]).coresGone = false ∧ b.mute = false) ∧
    ({ inTxn w [b] with sup := { brace := true } }.nvmWritable = false) ∧
    ((inTxn o []).cfg.txn.lastCmd + 30000000 ≤ (inTxn o []).time.loc ∧
        (inTxn { o with lastCmd := 1 } []).time.loc < (inTxn { o with lastCmd := 1 } []).cfg.txn.lastCmd + 30000000 ∧
        { inTxn o [] with mctp := { addr := some 8 } }.ownerGone = false) ∧
    ((inTxn w [b]).nvmWait < 10000000 ∧ 10000000 ≤ { inTxn w [b] with nvmWait := 10000000 }.nvmWait) ∧
    (acceptB (v (z 9)) (W (inTxn o [])) .mctp (inTxn o []) ∧ (z 9).length = 9 ∧ fieldAt (z 9) 8 1 < 2 ∧ (inTxn o []).cfg.txn.st ≠ .idle) ∧
    (acceptB (v (z 8 ++ [1#8])) (W (up 0)) .mctp (up 0) ∧ fieldAt (z 8 ++ [1#8]) 8 1 = 1 ∧ (up 0).isRoot = false ∧ (up 0).decisionOpen = false) ∧
    (acceptB (v (z 9)) (W (up 0)) .mctp (up 0) ∧ fieldAt (z 9) 8 1 = 0 ∧ (up 0).bgRuns .mctp = false ∧ (up 0).prevSlot = none ∧
        ((up 0).findPrev false).2 = none) := by decide +kernel

theorem witness_PoolDecisions :
    let root : Dev := cfgd (up 300) [(0x3A0, 0x80000000#32)]
    let rdy : Txn := { st := .ready, owner := some .mctp, pool := true, image := some tagged }
    let rr : Dev := { root with cfg := { root.cfg with txn := rdy } }
    let m (t : Txn) (a : Image) : Dev := { ported 300 [(15, upPort)] with cfg := { txn := t, active := a } }
    let ok (d : Dev) (k : Nat) (b : Bcast) : Bool := (d.hear 15 k b).isSome
    let c2 : Bcast := { cast with act := 302#64 }
    let pm : Dev := cfgd (up 300) [(0x3A0, 0x80000000#32), (0x4004, 0x80000000#32)]
    let ph (n s : Nat) : Dev := { pm with cfg := { pm.cfg with root := { phase := n, startP := s }, txn := { rdy with st := .voted } } }
    (acceptB (.poolCommit .mctp []) (W (up 0)) .mctp (up 0) ∧ (up 0).isRoot = false) ∧
    (acceptB (.poolCommit .mctp []) (W rr) .mctp rr ∧ rr.isRoot = true ∧ rr.cfg.txn.st = .ready ∧ rr.cfg.txn.pool = true ∧
        rr.txnTag = some (1#32, 1#64) ∧ rr.cfg.root.phase = 0 ∧ rr.bgRuns .mctp = false) ∧
    (ok (m rdy {}) 3 cast ∧ (m rdy {}).cfg.txn.st = .ready ∧ (m rdy {}).txnTag = some (cast.ver, cast.digest) ∧ (m rdy {}).coresGone = false) ∧
    (ok (m {} {}) 3 cast ∧ (m {} {}).cfg.txn.st ≠ .ready) ∧
    ((m {} {}).portUp 14 = false) ∧
    ((ph 2 44).cfg.root.phase = 2 ∧ (ph 2 44).members.find? (fun m => !(ph 2 44).cfg.root.yes.contains m) = some 1 ∧
        (ph 2 44).cfg.root.startP + (ph 2 44).voteWin ≤ (ph 2 44).pool ∧ (ph 2 44).cfg.txn.st = .voted) ∧
    ((ph 2 44).coresGone = false ∧ { ph 2 44 with cores := { away := true } }.coresGone = true) ∧
    ((ph 2 45).pool < (ph 2 45).cfg.root.startP + (ph 2 45).voteWin) ∧
    (ok (m { rdy with st := .voted } {}) 4 c2 ∧ (m { rdy with st := .voted } {}).cfg.member.lastAck = none ∧
        (m { rdy with st := .voted } {}).pool + 2 ≤ c2.act.toNat ∧ (m { rdy with st := .voted } {}).acts.length < 16) ∧
    ((m { rdy with st := .voted } {}).txnTag = some (cast.ver, cast.digest) ∧ ({ cast with act := 301#64 }).act.toNat < (m rdy {}).pool + 2) ∧
    ((m { rdy with st := .voted } {}).coresGone = false ∧ ok (m {} {}) 4 cast ∧ (m {} {}).poolNow ≠ (cast.ver, cast.digest) ∧ (m {} {}).cfg.txn.st ≠ .voted) ∧
    (ok (m rdy {}) 5 cast) ∧
    (ok (m {} {}) 6 cast ∧ (m {} {}).poolNow ≠ (cast.targetVer, cast.targetDigest)) ∧
    (let a : Image := { poolTag := some (2#32, 2#64) };
      ok (m {} a) 6 cast ∧ (m {} a).poolNow = (cast.targetVer, cast.targetDigest) ∧ (m {} a).pendingSlot = none) ∧
    ((ph 3 0).cfg.root.phase = 3 ∧ (ph 3 0).members.find? (fun m => !(ph 3 0).cfg.root.acks.contains m) = some 1 ∧
        (ph 3 0).pool < (ph 3 0).cfg.root.actS + (ph 3 0).commitWait) ∧
    (let d : Dev := { ph 3 0 with time := { loc := 1048576 } };
      d.coresGone = false ∧ d.cfg.root.startP + d.commitWait ≤ d.pool ∧ d.cfg.root.actS + d.commitWait ≤ d.pool ∧ d.members.find? (fun m => !d.cfg.root.acks.contains m) = some 1) := by decide +kernel

theorem witness_ConfigurationPulled :
    let root : Dev := cfgd (up 300) [(0x3A0, 0x80000000#32)]
    let pull (k : Nat) : PullMsg :=
      { src := 7, kind := k, outcome := 0, ver := 0#32, digest := 0#64, pendVer := 0#32, pendDigest := 0#64, act := 0#64
        rootVer := (up 0).poolNow.1, rootDigest := (up 0).poolNow.2 }
    let m (x : PoolMember) (n : Nat) : Dev := { up n with cfg := { member := x } }
    let v : Dev := { up 2000000 with cfg := { txn := { st := .voted } } }
    (root.isRoot = true ∧ root.prim = .primed ∧ root.coresGone = false ∧ (pull 1).kind ≠ 3) ∧
    (let d : Dev := { root with led := { decision := 1 }, cas := { ports := [(15, upPort)] } };
      d.portUp 15 = true ∧ d.isRoot = true ∧ (pull 3).kind = 3 ∧ d.led.decision = 1 ∧ d.pool ≤ d.led.decStroke + d.commitWait ∧
        d.cfg.root.phase < 4) ∧
    ((up 0).isRoot = false) ∧
    ((m { pulling := true } 0).cfg.member.pulling = true ∧ (pull 2).kind = 2 ∧ (m { pulling := true } 0).pendingSlot = none ∧ (m { pulling := true } 0).coresGone = false ∧
        (m { pulling := true } 0).poolNow = ((pull 2).rootVer, (pull 2).rootDigest)) ∧
    (v.cfg.txn.st = .voted ∧ v.isRoot = false ∧ v.cfg.member.pulling = false ∧ v.coresGone = false ∧ v.cfg.member.votedAt + v.voteWin + v.commitWait ≤ v.time.loc) ∧
    (let d := m { pulling := true } 256;
      d.cfg.member.pullLast + d.pullTo ≤ d.time.loc ∧ d.time.loc < d.cfg.member.pullStart + d.commitWait) ∧
    (let d := m { pulling := true } 1048576;
      d.cfg.member.pullStart + d.commitWait ≤ d.time.loc) := by decide +kernel

theorem witness_RestRequestsAndTheStateChosen :
    let d := served 0
    let p : List Byte := leBytes 4 5000000 ++ z 4
    let low : List Byte := leBytes 4 1999 ++ z 4
    let e (t : Nat) : Dev := d.setHead 0 fun x => { x with restReq := true, restTol := t }
    let two : Dev := d.setHead 15 fun x => { x with perst := false, up := true }
    let busy : Dev := { d with cfg := { d.cfg with bg := [{ src := .head 0, kind := .validate }] } }
    (acceptB (.requestRest (.head 0) p) (W busy) (.head 0) busy ∧ p.length = 8 ∧ zeros (sub p 4 4) = true ∧ busy.bgRuns (.head 0) = true) ∧
    (acceptB (.requestRest (.head 0) p) (W two) (.head 0) two ∧ two.bgRuns (.head 0) = false ∧
        (two.setHead 0 fun x => { x with restReq := true, restTol := fieldAt p 0 4 }).allResting = false) ∧
    (acceptB (.requestRest (.head 0) low) (W d) (.head 0) d ∧ d.allResting = false ∧ fieldAt low 0 4 = 1999 ∧ (e 1999).allResting = true ∧
        (e 1999).choose = 0) ∧
    (acceptB (.requestRest (.head 0) p) (W d) (.head 0) d ∧ fieldAt p 0 4 = 5000000 ∧ (e 5000000).allResting = true ∧ (e 5000000).choose = 4) ∧
    (acceptB (.cancelRest (.head 0) []) (W d) (.head 0) d ∧ (d.head 0).restReq = false) ∧
    (acceptB (.cancelRest (.head 0) []) (W (e 0)) (.head 0) (e 0) ∧ ((e 0).head 0).restReq = true ∧ (e 0).attached 0 = true) ∧
    (let f : Dev := (up 0).setHead 15 fun x => { x with restReq := true };
      acceptB (.cancelRest (.head 15) []) (W f) (.head 15) f ∧ (f.head 15).restReq = true ∧ f.attached 15 = false) ∧
    (acceptB (.cancelRest .mctp []) (W d) .mctp d ∧ acceptB (.requestRest .mctp p) (W d) .mctp d) ∧
    (acceptB (.getPowerStatus (.head 0) []) (W (cfgd d [(0x300, 0#32)])) (.head 0) (cfgd d [(0x300, 0#32)]) ∧
        (cfgd d [(0x300, 0#32)]).mgr (.head 0) = false) ∧
    (d.allResting = false ∧ (e 200000).choose < 4 ∧ (e 200000).allResting = true ∧ (e 200000).prim = .primed) := by decide +kernel

theorem witness_EntryStepsWaitAndAreRefused :
    let s (p : PwrSt) : Dev := { up 5 with pwr := p }
    let e : PwrSt := { entering := true, st := 1, target := 2, done := 2, mark := 5 }
    let hold (p : PwrSt) : Dev := { s p with hs := [(63, { waiting := [{ rq := .head 0, tag := 0, line := 0, kind := .anyRead }] })] }
    let drop (p : PwrSt) (n : Nat) : Dev := { s p with cas := { ports := [(15, { upPort with sleepAsked := true })] }, time := { loc := n } }
    let g (n : Nat) : Dev := { s { entering := true } with gst := { quiesce := 1 }, time := { loc := n } }
    ((s {}).pwr.entering = false ∧ (s { entering := true, mark := 6 }).pwr.mark = (s { entering := true, mark := 6 }).time.loc + 1) ∧
    (let d := hold { e with stepBusy := true };
      d.pwr.entering = true ∧ d.pwr.mark ≠ d.time.loc + 1 ∧ d.pwr.stepBusy = true ∧ d.stepOver (d.pwr.done + 1) = false) ∧
    ((s e).pwr.stepBusy = false ∧ (s e).pwr.done = 2 ∧ (s e).pwr.st = 1 ∧ 2 ≤ (s e).pwr.target ∧ ∀ n < (s e).nHs, (s e).hsIdle n = true) ∧
    ((hold e).hsIdle 63 = false ∧ 63 < (hold e).nHs) ∧
    (let d := s { e with target := 1, st := 0, done := 1, stepBusy := true };
      d.pwr.entering = true ∧ d.stepOver (d.pwr.done + 1) = true ∧ d.pwr.target = 1 ∧ d.pwr.st + 1 = 1 ∧ d.pwr.done + 1 = groupEnd 1 ∧ 1 ≠ 3) ∧
    (let d := s { e with target := 4, st := 3, done := 9, stepBusy := true };
      d.pwr.st + 1 = 4 ∧ d.pwr.done + 1 = groupEnd 4 ∧ d.stepOver (d.pwr.done + 1) = true) ∧
    (let d := hold { e with stepBusy := true, stepAt := 1 };
      (List.range d.nHs).find? (fun n => !d.hsIdle n) = some 63 ∧ d.pwr.stepAt + d.fld 0x504 7 4 ≤ d.time.loc) ∧
    (let d := hold { e with stepBusy := true, stepAt := 2 };
      d.time.loc < d.pwr.stepAt + d.fld 0x504 7 4) ∧
    (let d := drop { e with done := 7, stepBusy := true } 4;
      d.pwr.done = 7 ∧ d.ports.find? (fun q => (d.port q).sleepAsked && (d.port q).st == .up && !(d.port q).draining) = some 15 ∧
        d.pwr.stepAt + 4 ≤ d.time.loc) ∧
    ((drop { e with done := 7, stepBusy := true } 3).time.loc < (drop { e with done := 7, stepBusy := true } 3).pwr.stepAt + 4) ∧
    (let d := s { target := 1, retryAt := some 5 };
      d.pwr.entering = false ∧ d.pwr.waking = false ∧ d.pwr.st < d.pwr.target ∧ d.pwr.retryAt = some 5 ∧ 5 ≤ d.time.loc) ∧
    ((s {}).pwr.retryAt = none) ∧
    ((g 9).gst.quiesce = 1 ∧ (g 9).pwr.entering = true ∧ (g 9).time.loc < (g 9).pwr.stepAt + 10 ∧ (g 10).pwr.stepAt + 10 ≤ (g 10).time.loc) ∧
    ((s {}).gst.quiesce ≠ 1) := by decide +kernel

theorem witness_WakeSourcesStartTheWake :
    let s (p : PwrSt) : Dev := { up 64 with pwr := p }
    let a (n : Nat) : ActEntry := { stroke := n, cls := 1, kind := .config }
    ((s {}).pwr.waking = false ∧ (s {}).pwr.entering = false ∧ (s {}).pwr.st = 0 ∧ 1 ≤ 9 ∧ 9 ≤ 9) ∧
    ((s { st := 4 }).pwr.st ≠ 0 ∧ (s { st := 4 }).pwr.entering = false ∧ (s { st := 4 }).pwr.waking = false) ∧
    ((s { entering := true }).pwr.done = 0 ∧ (s { entering := true }).pwr.stepBusy = false ∧ (s { entering := true }).pwr.entering = true) ∧
    ((s { entering := true, stepBusy := true }).pwr.stepBusy = true) ∧
    ((s { waking := true, wakeTo := 1 }).pwr.waking = true ∧ (s { waking := true, wakeTo := 1 }).pwr.wakeTo ≠ 0) ∧
    ({ s {} with gst := { st := 2 } }.gst.st = 2 ∧ (s {}).gst.st ≠ 2) ∧
    ((s { waking := true, mark := 65 }).pwr.mark = (s { waking := true, mark := 65 }).time.loc + 1) ∧
    (let d := s { waking := true, wakeTo := 3, done := 8, st := 4 };
      d.pwr.waking = true ∧ d.pwr.mark ≠ d.time.loc + 1 ∧ d.pwr.done ≤ groupEnd d.pwr.wakeTo ∧ d.pwr.refused = false ∧ d.pwr.wakeTo ≠ d.pwr.st) ∧
    (let d := s { afterWake := true };
      d.pwr.afterWake = true ∧ d.pwr.idleSince + d.fld 0x504 15 8 ≤ d.time.loc) ∧
    ((s { idleSince := 1 }).time.loc < (s { idleSince := 1 }).pwr.idleSince + (s { idleSince := 1 }).fld 0x504 15 8) ∧
    (let d : Dev := { s { st := 1 } with acts := [a 68] };
      0 < d.pwr.st ∧ d.pwr.waking = false ∧ d.acts.find? (fun a => decide (a.stroke ≤ d.pool + d.pwr.exit d.pwr.st + 2)) = some (a 68)) := by decide +kernel

theorem witness_ClocksRailsAndSupplies :
    let s (c : ClkSt) : Dev := { up 1024 with clk := c }
    let mon (m : Mon) : Dev := s { mons := [(11, m)] }
    ((mon { skip := true }).monitored (.fabric 9) = true ∧ clockKey (.fabric 9) = 11 ∧ ((mon { skip := true }).mon 11).skip = true) ∧
    (((mon {}).mon 11).skip = false ∧ 20 ≤ (mon {}).fld 0x604 23 16) ∧
    ((mon {}).fld 0x604 23 16 < 21 ∧ ((mon {}).mon 11).bad = 0 ∧ ((mon {}).mon 11).failed = false) ∧
    ((mon { bad := 1 }).monitored (.fabric 9) = true ∧ ((mon { bad := 1 }).mon 11).bad = 1 ∧ ((mon { bad := 1 }).mon 11).failed = false) ∧
    (let d := s { refSrc := 1, trims := [(10, 126)] };
      d.pool % 1024 = 0 ∧ d.clk.trimAt ≠ d.time.loc + 1 ∧ d.clk.refSrc < 2 ∧ d.tilePresent (10 - 1) = true ∧ -126 ≤ Tbl.get 0 d.clk.trims 10 + max (-1) (min 1 0) ∧
        Tbl.get 0 d.clk.trims 10 + max (-1) (min 1 0) ≤ 126) ∧
    ((s { moving := true }).clk.moving = true ∧ (s { moving := true }).fabricTiles.contains 9 = true ∧ (s { moving := true }).clk.pllLocked.contains 9 = false) ∧
    (let d := s { settled := [0, 1, 2] };
      d.clk.settled.contains 3 = false ∧ 3 < 4 ∧ d.clk.railTgt.getD 3 0 = 750 ∧ 745 ≤ 750 + 5 ∧ 750 ≤ 745 + 5 ∧ 750 > 744 + 5) ∧
    ((s { moving := true }).coresGone = false ∧ { s { moving := true } with cores := { halted := true } }.coresGone = true ∧
        (s { slewAt := 1024 }).time.loc < (s { slewAt := 1024 }).clk.slewAt + (s { slewAt := 1024 }).slewTime + 64) ∧
    ((s {}).clockThere (.fabric 9) = true ∧ (s {}).clockThere (.fabric 10) = false) ∧
    ((s { moving := true, opStart := 1005 }).time.loc < (s { moving := true, opStart := 1005 }).clk.opStart + 20 ∧ 3 < 4) ∧
    ((s {}).regOk .mctp = true ∧ (s {}).slicePresent 0x600 = true ∧ (s {}).pwr.entering = false) ∧
    ((s {}).monitorOn 6 5 = true ∧ (s {}).monitorOn 7 1 = false) ∧
    (let d : Dev := { s {} with sup := { brace := true, goodRun := 8 } };
      d.sup.brace = true ∧ 8 ≤ d.sup.goodRun ∧ { s {} with sup := { brace := true, goodRun := 7 } }.sup.goodRun < 8) ∧
    (((s {}).railLevels 6).1 + 50 < 951 ∧ 950 ≤ ((s {}).railLevels 6).1 + 50) := by decide +kernel

theorem witness_KeyMessagesAndDomains :
    let x : Sess := { tr := .doe 0, id := 1 }
    let y : Session := { sess := x, bothAuth := true, kmRoot := true, finished := true }
    let d (k : Tbl KDom) : Dev := { served 0 with otp := { caps1 := 0x4020100F#32 }, kdoms := k, sec := { sessions := [y], negotiated := [.doe 0] } }
    let heard (e : Dev) : Bool := e.transportUp x.tr && !e.coresGone && e.lifecycle != 3
    let m (f n : Nat) : List Byte := [0#8, BitVec.ofNat 8 f] ++ leBytes 2 n ++ z 4
    let im : List Byte := m 0 4095 ++ z 32 ++ List.replicate 32 1#8
    (heard (served 0) ∧ (served 0).session x = none) ∧
    (heard (d []) ∧ x.tr = .doe 0 ∧ (d []).session x = some y ∧ (d []).sec.keyq = [] ∧ (d []).keyBusy = false) ∧
    ({ d [] with otp := { caps1 := 0x40201005#32 } }.hasEnc = false) ∧
    ((d []).keyRefused 1 im = none ∧ fieldAt im 1 1 = 0 ∧ fieldAt im 2 2 = 4095) ∧
    ((d []).keyRefused 1 (m 1 1) = none ∧ fieldAt (m 1 1) 1 1 = 1) ∧
    ((d [(1, { st := .live })]).keyRefused 2 (m 0 1) = none ∧ (d [(1, { st := .retiring })]).keyRefused 3 (m 0 1) = none ∧
        (d []).keyRefused 4 (m 0 0) = none) ∧
    (((d [(1, { st := .live, erasing := true })]).kd 1).erasing = true) ∧
    (1 ≠ 0 ∧ ((d [(1, { st := .retiring })]).kd 1).st = .retiring ∧ ((d [(1, { st := .retiring })]).kd 1).erasing = false ∧
        (d [(1, { st := .retiring })]).kdomRefs 1 = 0) ∧
    ({ d [(1, { st := .erased })] with wmap := [(0, { st := .stable, kdom := 1 })] }.kdomRefs 1 ≠ 0) := by decide +kernel

theorem witness_DebugUnlockAndRelock :
    let d (s : SecSt) : Dev := { up (2 ^ 20) with sec := s }
    let p (sc : Nat) : List Byte := [0#8, BitVec.ofNat 8 sc] ++ z 135
    (acceptB (.getChallenge ⟨.mctp, [0#8]⟩) (W (d {})) .mctp (d {}) ∧ acceptB (.relock ⟨.mctp, [0#8]⟩) (W (d {})) .mctp (d {}) ∧
        [0#8].length = 1) ∧
    (let s : SecSt := { lockUntil := some (2 ^ 20 + 1) };
      acceptB (.unlock .mctp (p 1)) (W (d s)) .mctp (d s) ∧ (p 1).length = 137 ∧ zeros (sub (p 1) 2 2) = true ∧ (d s).time.loc < 2 ^ 20 + 1) ∧
    (acceptB (.unlock .mctp (p 16)) (W (d { fails := 7 })) .mctp (d { fails := 7 }) ∧ (d { fails := 7 }).sec.lockUntil = none ∧
        16 ≤ fieldAt (p 16) 1 1) ∧
    ((d {}).unlockOk (p 15) = false) ∧
    ((d { lockUntil := some (2 ^ 20) }).sec.lockUntil = some (2 ^ 20) ∧ 2 ^ 20 ≤ (d { lockUntil := some (2 ^ 20) }).time.loc) ∧
    ((d { scope := 4#4, expiry := 2 ^ 20 }).sec.scope &&& 7#4 ≠ 0#4 ∧ (d { scope := 4#4, expiry := 2 ^ 20 }).sec.expiry ≤ (d {}).pool ∧
        (d {}).pool < (d { scope := 1#4, expiry := 2 ^ 20 + 1 }).sec.expiry) := by decide +kernel

theorem witness_ManagementCoresResetAndReturn :
    let d (c : Cores) : Dev := { up 10000000 with cores := c }
    ((d { halted := true }).cores.halted = true ∧ (d {}).cores.halted = false ∧ (d {}).sec.scope.getLsbD 2 = false) ∧
    (((d { resets := [1, 9999999] }).cores.resets.filter fun t => decide ((d {}).time.loc < t + 10000000)).length = 2 ∧
        ((d { resets := [0, 1] }).cores.resets.filter fun t => decide ((d {}).time.loc < t + 10000000)).length = 1) ∧
    ({ d {} with sec := { scope := 4#4 } }.sec.scope.getLsbD 2 = true) ∧
    ((d { away := true }).cores.away = true ∧ (d { away := true }).prim = .primed ∧ (d { away := true }).firmwareOk 3 = false) ∧
    ({ d { away := true } with prim := .unprimed }.prim ≠ .primed ∧ (d {}).cores.away = false) := by decide +kernel

/-- A device whose manufacturing certificates are one byte, heard over MCTP, with one session finished. -/
def spoken (y : List Session) : Dev := { up 0 with otp := { certs := [1#8] }, sec := { sessions := y, negotiated := [.mctp] } }

theorem witness_SpdmResponderAnswers :
    let x : Sess := { tr := .mctp, id := 1 }
    let y : Session := { sess := x, finished := true }
    ((Dev.coresGone { cores := { away := true } } = true ∧ Dev.transportUp (ported 0 [(15, upPort)]) (.link 15) = true ∧
        (ported 0 [(15, upPort)]).cfg.active.poolRoot ≠ some 1#256) ∧ Dev.transportUp {} (.doe 0) = false ∧ Dev.transportUp {} .mctp = true ∧ Dev.coresGone {} = false ∧
      Dev.lifecycle { otp := { lifecycle := 3 } } = 3) ∧
    ((spoken []).SpdmHeard x ∧ Dev.SpdmHeard {} x ∧ ({} : Dev).sec.negotiated.contains x.tr = false) ∧
    ((spoken []).sec.negotiated.contains x.tr = true ∧ (spoken []).certChain 1 = [] ∧ (spoken []).certChain 0 ≠ [] ∧
      0 < ((spoken []).certChain 0).length ∧ ((spoken []).certChain 2).length ≤ 0) ∧
    (x.id ≠ 0 ∧ (spoken []).session x = none ∧ ((spoken []).sec.sessions.filter fun y => y.sess.tr == x.tr).length < sessionLimit x.tr) ∧
    (sessionLimit x.tr ≤ ((spoken ([2, 3, 4, 5].map fun n => { sess := { x with id := n } })).sec.sessions.filter
      fun y => y.sess.tr == x.tr).length ∧ (spoken ([2, 3, 4, 5].map fun n => { sess := { x with id := n } })).session x = none) ∧
    ((spoken [{ y with finished := false }]).session x = some { y with finished := false }) ∧
    ((served 0).SpdmHeard { tr := .doe 0, id := 1 } ∧ ¬ (served 0).InSession { tr := .doe 0, id := 1 }) ∧
    ({ served 0 with sec := { sessions := [{ y with sess := { tr := .doe 0, id := 1 } }] } } : Dev).InSession { tr := .doe 0, id := 1 } := by
  refine ⟨by decide +kernel, ⟨?_, ?_, by decide +kernel⟩, ⟨by decide +kernel, by decide +kernel, ?_, ?_, by decide +kernel⟩, by decide +kernel,
    by decide +kernel, by decide +kernel, ⟨?_, fun ⟨_, h, _⟩ => by cases h⟩, ⟨_, rfl, rfl⟩⟩
  · unfold Dev.SpdmHeard; decide +kernel
  · unfold Dev.SpdmHeard; decide +kernel
  · simp [Dev.certChain, spoken, up]
  · simp [Dev.certChain, spoken, up]
  · unfold Dev.SpdmHeard; decide +kernel

/-- The hypotheses on the state alone; those on signatures hold where the key that the message names has signed it. -/
theorem witness_OwnershipCertificatesAndFloor :
    let x : Sess := { tr := .mctp, id := 1 }
    let d : Dev := { spoken [{ sess := x, finished := true }] with prim := .unprimed }
    let own : Dev := { d with otp := { owners := [(true, 1#256)] } }
    let f : Dev := { up (1024 * 2 ^ 20) with cfg := { active := { secVersion := 1 } } }
    (d.SpdmHeard x ∧ d.InSession x ∧ d = d.wake 5 0) ∧ (z 136).length = 136 ∧ (d.lifecycle = 1 ∧ d.prim ≠ .primed ∧ d.nextOwner = 0 ∧
      d.nvmWritable = true) ∧ (own.lifecycle = 2 ∧ own.lifecycle ≠ 1 ∧ d.lifecycle ≠ 2 ∧ own.currentOwner = some (0, 1#256) ∧ own.nextOwner < 4) ∧
    (fieldAt (z 1 ++ [2#8, 3#8] ++ z 133) 1 1 < fieldAt (z 1 ++ [2#8, 3#8] ++ z 133) 2 1 ∧ fieldAt (z 1 ++ [2#8, 3#8] ++ z 133) 2 1 < 4) ∧
    (fieldAt (z 136) 2 1 ≤ fieldAt (z 136) 1 1) ∧ x.tr = .mctp ∧ (0 ≠ 1 ∧ (z 4096).length ≤ 4096 ∧ z 4096 ≠ []) ∧
    (f.prim = .primed ∧ f.floorNow < f.cfg.active.secVersion ∧ f.sec.activeAt + f.fld 0x448 15 0 * 2 ^ 20 ≤ f.time.loc) ∧
    (up 0).cfg.active.secVersion ≤ (up 0).floorNow := by
  refine ⟨⟨?_, ⟨_, rfl, rfl⟩, by decide +kernel⟩, by decide +kernel⟩
  unfold Dev.SpdmHeard; decide +kernel

theorem witness_ChrotenModulesFlitsAndCredits :
    let d (l : Tbl Mod) : Dev := { up 0 with mods := l, otp := { caps0 := 0x020007FF#32 } }
    ((d []).modPresent 52 = true ∧ ((d []).modu 52).st = 0 ∧ 1 ≤ 6 ∧ 6 ≤ 6 ∧ (d []).gst.kept = [] ∧ ((d []).modu 52).trained = false) ∧
    (((d [(52, { st := 1, trained := true })]).modu 52).trained = true) ∧
    ((d []).modPresent 53 = false ∧ ((d [(0, { st := 4 })]).modu 0).st = 4 ∧ 6 < 7) ∧
    ((d [(52, { st := 2 })]).modPresent 52 = true ∧ ((d [(52, { st := 2 })]).modu 52).st = 2 ∧ chrotenSlots 0x06 ≠ 0 ∧ 5 + 1 = chrotenSlots 0x06 ∧
        5 + 1 ≠ chrotenSlots 0x05 ∧ chrotenSlots 0x08 = 0 ∧ modTile 52 = 10 ∧ modTile 48 ≠ 10) ∧
    (((d []).modu 52).st ≠ 2) := by decide +kernel

theorem witness_GuestLifeAndRegisterAccesses :
    let d (n : Nat) (g : GuestSt) : Dev := { up n with gst := g, otp := { caps0 := 0x020007FF#32 }, mods := [(49, { st := 2 })] }
    let a : GAccess := { src := .mctp, write := false, off := 0, size := 8, val := 0, at_ := 0 }
    ((d 1000 {}).gst.st = 0 ∧ (d 1000 {}).hasGuest = true ∧ (d 1000 {}).gst.rstAt + 1000 ≤ (d 1000 {}).time.loc ∧
        (d 999 {}).time.loc < (d 999 {}).gst.rstAt + 1000 ∧ (up 0).hasGuest = false) ∧
    ((d 0 { st := 1 }).gst.st = 1 ∧ (d 0 { st := 1 }).gst.failPend = none ∧ (d 0 { st := 1 }).prim ≠ .waiting ∧
        (d 0 { st := 1 }).attachOk 0x0C000000#32 [16, 16, 16, 16] = true ∧ (d 0 { st := 1 }).attachOk 0x0C000000#32 [15, 16, 16, 16] = false) ∧
    ((d 50000 { st := 1 }).gst.relAt + 50000 ≤ (d 50000 { st := 1 }).time.loc ∧ (d 49999 { st := 1 }).time.loc < (d 49999 { st := 1 }).gst.relAt + 50000) ∧
    ((d 0 {}).gst.st ≠ 1 ∧ (d 0 { st := 2 }).gst.st = 2 ∧ (d 0 { st := 2 }).anyGuestMod = true ∧ (d 0 {}).gst.st ≠ 2) ∧
    ({ d 64 { st := 2 } with mods := [] }.anyGuestMod = false ∧ (d 64 { st := 2 }).gst.noneUp + 64 ≤ (d 64 { st := 2 }).time.loc ∧
        (d 63 { st := 2 }).time.loc < (d 63 { st := 2 }).gst.noneUp + 64) ∧
    ((d 10 { st := 2, resumeWait := some 0 }).gst.resumeWait = some 0 ∧ 0 + 10 ≤ (d 10 {}).time.loc) ∧
    ((d 0 {}).regOk .mctp = true ∧ (d 0 { st := 3 }).gst.st = 3 ∧ (d 0 { st := 3 }).hasGuest = true ∧ (d 0 {}).gst.st ≠ 3) ∧
    ((d 0 { resumeWait := some 0 }).gst.resumeWait ≠ none ∧ (d 0 { resumeWait := some 0 }).gst.kept = [] ∧ (d 0 {}).guestModsUp ≠ [] ∧
        (up 0).guestModsUp = []) ∧
    ((d 2 { access := [a] }).gst.access = [a] ∧ a.abandoned = false ∧ a.at_ + 2 ≤ (d 2 {}).time.loc ∧ (d 1 {}).time.loc < a.at_ + 2 ∧
        (d 1 { access := [a, a] }).gst.access = a :: a :: [] ∧ (d 0 {}).hasGuest = true) := by decide +kernel

theorem witness_GuestRequestsAreServedOrRefused :
    let d (g : GuestSt) (r : Region) (x : Dom) : Dev := { up 0 with gst := g, cfg := { active := { regions := [r] }, capacity := 1 }, doms := [(1, x)] }
    let on : GuestSt := { st := 2 }
    ((d {} reg0 {}).gst.st ≠ 2 ∧ (d { st := 2, failPend := some 3 } reg0 {}).gst.failPend ≠ none) ∧
    ((d on { reg0 with group := 1 } { guest := true }).gst.st = 2 ∧ (d on { reg0 with group := 1 } { guest := true }).gst.failPend = none ∧
        (d on { reg0 with group := 1 } { guest := true }).guestMember (2 ^ 28 / 64 - 1) = true) ∧
    ((d on { reg0 with group := 1 } { guest := true }).guestMember (2 ^ 28 / 64) = false) ∧
    ((d on { reg0 with guest := true } {}).guestViews (2 ^ 28 / 64 - 1) = true ∧ (d on { reg0 with guest := true } {}).guestViews (2 ^ 28 / 64) = false) ∧
    ((d on { reg0 with group := 1 } { guest := true }).remoteHome 0 = none) ∧
    (let h : Hold := { line := 0, dev := 0, group := 1, req := none, push := true };
      let e : Dev := { up 0 with hs := [(0, { holds := [h] })] };
      let w (k : Nat) : DirEnt := { line := k + k * 2 ^ 15, st := .s, dev := 0, group := 1, ptrs := [0], order := 0 };
      e.home (lnPage 0) = 0 ∧ (e.hsl 0).holds.find? (fun x => x.line == 0 && x.push) = some h ∧ (e.hsl 0).setFull 0 = false ∧
        Hs.setFull { dir := (List.range 16).map fun k => w (k + 1) } 0 = true) := by decide +kernel

theorem witness_HostLinksDecodersAndIde :
    let d (h : Head) : Dev := { up 0 with heads := [(15, h)], doms := [(255, { st := .up, members := 0x8000#16 })] }
    let dec : Decoder := { base := 0, size := 2 ^ 28, dpaBase := 0, ways := 16, gran := 16384, bi := false }
    let sh : Dev := { served 0 with cfg := { active := { regions := [{ reg0 with group := 1 }] }, capacity := 1 } }
    let rest : Dev := (served 0).setHead 0 fun x => { x with restReq := true, ltrEn := true, snoopNs := 5, noSnoopNs := 5 }
    let sess : Session := { sess := { tr := .doe 15, id := 1 }, finished := true }
    (15 < (d {}).nHosts ∧ (d {}).therm.latched = false ∧ ((d {}).head 15).portQ = [] ∧ (∀ n < (d {}).nHs, ((d {}).hsl n).writesOf (.head 15) = []) ∧
        ((d { perst := false }).head 15).perst = false ∧
        0 < 255 ∧ 255 < 256 ∧ ((d {}).dom 255).members.getLsbD 15 = true ∧ ((d {}).dom 255).st = .up ∧ ((d {}).dom 255).detected = none) ∧
    (((d { perst := false, up := true }).head 15).up = true ∧ ((d {}).head 15).perst = true ∧ ((d {}).head 15).up = false) ∧
    ((d { perst := false }).resetHeld = false ∧ ((d { perst := false }).head 15).held = false ∧ (d {}).sup.held.contains (2 + 15 / 4) = false ∧
        1 ≤ 5 ∧ 5 ≤ 5 ∧ 5 ≤ (d {}).linkCtl 15 31 28 ∧ 1 ≤ (d {}).linkCtl 15 31 28) ∧
    ((decide (5 < (d {}).linkCtl 15 27 24) || decide (5 < (d {}).linkCtl 15 23 20)) = false ∧
        (decide (1 < (d {}).linkCtl 15 27 24) || decide (1 < (d {}).linkCtl 15 23 20)) = true) ∧
    ((d {}).linkCtl 15 31 28 < 6) ∧
    ((served 0).nHosts = 16 ∧ 7 < 8 ∧ ((served 0).head 0).up = true ∧ (served 0).prim = .primed ∧ decoderOk dec = true ∧
        (served 0).coversShared 0 dec.dpaBase (dec.size / dec.ways) = false) ∧
    (decoderOk { dec with ways := 3 } = false ∧ dec.bi = false ∧ sh.coversShared 0 dec.dpaBase (dec.size / dec.ways) = true ∧
        { served 0 with prim := .unprimed }.prim ≠ .primed) ∧
    ((served 0).attached 0 = true ∧ (served 0).minTol ≤ ((served 0).setHead 0 fun x => { x with ltrEn := true, snoopNs := 1, noSnoopNs := 1 }).minTol) ∧
    (rest.attached 0 = true ∧ (rest.setHead 0 fun x => { x with ltrEn := true, snoopNs := 4, noSnoopNs := 5 }).minTol < rest.minTol ∧
        (served 0).attached 1 = false) ∧
    (let e : Dev := { d { perst := false, up := true } with sec := { sessions := [sess] } };
      (e.head 15).up = true ∧ e.sec.sessions.any (fun x => x.sess.tr == Transport.doe 15 && x.finished) = true) ∧
    (((d { up := true, ide := 1 }).head 15).ide = 1 ∧ ((d { up := true }).head 15).ide ≠ 1 ∧ ((d { up := true, ideIo := 1 }).head 15).ideIo = 1 ∧
        (d { up := true }).staticOf 15 = none) := by decide +kernel

theorem witness_HostRequestsAreAnsweredOrSentHome :
    let dec : Decoder := { base := 2 ^ 40, size := 2 ^ 28, dpaBase := 0, ways := 1, gran := 256, bi := false }
    let d : Dev := (served 0).setHead 0 fun x => { x with decoders := [(0, dec)] }
    let sel : Dev := cfgd d [(hpBase 0 + 0x30, 1#32)]
    ((up 0).portLive 0 = false ∧ d.portLive 0 = true ∧ d.portServes 0 = true ∧ { d with prim := .unprimed }.prim ≠ .primed) ∧
    (sel.portLive 0 = true ∧ sel.prim = .primed ∧ sel.needsIde 0 = true ∧ d.needsIde 0 = false) ∧
    (let e : Dev := d.setHead 0 fun x => { x with ide := 2 };
      e.portLive 0 = true ∧ e.prim = .primed ∧ e.needsIde 0 = false ∧ e.portServes 0 = false) ∧
    (d.hostAddr 0 (2 ^ 40 + 2 ^ 28) = none ∧ d.hostAddr 0 (2 ^ 40 - 1) = none ∧ d.hostAddr 0 (2 ^ 40 + 2 ^ 28 - 1) = some (2 ^ 28 - 1) ∧
        d.therm.enforced = false) ∧
    (let q : Req := { rq := .head 0, tag := 0, line := 0, kind := .anyRead };
      let e : Dev := { (d.setHead 0 fun x => { x with portQ := [q] }) with therm := { enforced := true } };
      e.therm.enforced = true ∧ (e.head 0).portQ ≠ [] ∧ e.portServes 0 = true ∧ e.hostAddr 0 (2 ^ 40) = some 0) ∧
    (d.hdm 0 (2 ^ 40 + (2 ^ 28 - 64)) = some (2 ^ 28 - 64) ∧ d.remoteHome ((d.headDpaBase 0 + (2 ^ 28 - 64)) / 64) = none ∧ d.hdm 0 0 = none) := by decide +kernel

theorem witness_ReadsPromotionsAndEvictionsEnd :
    let r (b : Bool) : ReadIn := { id := 3, rq := .head 0, tag := 1, line := 64, rsp := [.memData], failed := b }
    let d (b : Bool) : Dev := { served 0 with reads := [r b] }
    let pg (e : MapEntry) : Dev := { d false with wmap := [(1, e)], frames := [(1, { kind := 2, mask := 1#16 })] }
    let x (b : Bool) : Promo := { page := 1, req := { rq := .head 0, tag := 0, line := 64, kind := .anyRead }, frame := 0, old := {}, failed := b }
    let p (b : Bool) : Dev := { served 0 with promos := [x b] }
    let t2 : MapEntry := { st := .stable, tier := 1, loc := locT2 1 16 }
    let c (g : Gran) : Dev := { served 0 with cist := [(32, g)] }
    ((served 0).reads.find? (fun r => r.id == 3) = none ∧ (d true).reads.find? (fun r => r.id == 3) = some (r true) ∧ (r true).failed = true ∧
        (d false).reads.find? (fun r => r.id == 3) = some (r false)) ∧
    (let e : Dev := { c { v0 := true, l0 := 7#512 } with reads := [] };
      (match e.lookup 64 with | .data l => l == 7#512 | _ => false) = true) ∧
    ((match (served 0).lookup 64 with | .zero => true | _ => false) = true) ∧
    ((match { served 0 with tiles := [(0, { lost := [64] })] }.lookup 64 with | .poison => true | _ => false) = true) ∧
    ((pg t2).mayDecode 1 1 3 = true ∧ (d false).mayDecode 1 0 3 = true ∧
        { pg t2 with reads := (List.range 16).map fun i => { r false with id := i } }.mayDecode 1 1 16 = false) ∧
    ((match (pg t2).storedPage t2 with | .error _ => true | .ok _ => false) = true ∧ (match (pg t2).lookup 64 with | .miss => true | _ => false) = true ∧
        ((pg t2).entry (lnPage 64)).remote = false) ∧
    ((served 0).promos.find? (fun x => x.page == 1) = none ∧ (p true).promos.find? (fun x => x.page == 1) = some (x true) ∧ (x true).failed = true ∧
        (p false).mayDecode 1 (x false).old.tier (x false).id = true ∧ (p false).erasedPage (x false).old = false ∧
        (match (p false).storedPage (x false).old with | .ok _ => true | .error _ => false) = true) ∧
    ((((c { v0 := true }).gran 32).v0 || ((c { v0 := true }).gran 32).v1) = true ∧ ((c { v0 := true }).gran 32).d0 = false ∧
        ((c { v0 := true }).gran 32).d1 = false) ∧
    (let e : Dev := { c { v0 := true, d0 := true } with wmap := [(1, { st := .stable })], chans := [(0, { dimm0 := some dimm, ranks := [(0, { st := .active })] })] };
      ((e.gran 32).d0 || (e.gran 32).d1) = true ∧ e.evictable 32 = true) ∧
    (((c { v0 := true, d0 := true }).gran 32).d0 = true ∧ (c { v0 := true, d0 := true }).evictable 32 = false) ∧
    (((c { v0 := true, keep := some 0 }).gran 32).keep = some 0 ∧ 0 ≤ (c {}).time.loc ∧ (c {}).time.loc < 1) := by decide +kernel

theorem witness_AdmissionAndItsTimeouts :
    let q : Req := { rq := .head 0, tag := 1, line := 0, kind := .ownRead }
    let sh : Dev := { served 0 with cfg := { active := { regions := [{ reg0 with group := 1 }] }, capacity := 1 }, doms := [(1, { st := .up, members := 1#16 })] }
    let h (l : Hs) : Dev := { sh with hs := [(0, l)] }
    let ent : DirEnt := { line := 0, st := .e, dev := 0, group := 1, ptrs := [0], order := 0 }
    let hold (a : Nat) : Hold := { line := 0, dev := 0, group := 1, req := none, age := a, snps := [{ who := 0, kind := .inv, age := a }] }
    (sh.nHs ≤ 64 ∧ ({} : Dev).prim ≠ .primed ∧ { sh with pwr := { done := 4 } }.asleep = true) ∧
    ((h { waiting := [q], dir := [ent] }).pickOrdered 0 = some q ∧ 
        ((h { waiting := [q], dir := [ent] }).linesRead 0).any (fun l => (((h { waiting := [q], dir := [ent] }).hsl 0).ent l).isSome) = true ∧
        dirBad (BitVec.ofNat 96 (4 * 2 ^ 53)) = true) ∧
    ((h { waiting := [q] }).pickOrdered 0 = some q ∧ (h { waiting := [q] }).pickWriteBack 0 = none ∧ ((h { waiting := [q] }).hsl 0).noCredit = [] ∧ (h { waiting := [q] }).asleep = false) ∧
    (let d := (h { waiting := [q] }).setHs 0 fun h => h.unwait q;
      (d.admitReq q).2 = true) ∧
    (let hs : List Hold := (List.range 16).map fun k => { hold 0 with line := (k + 1) * (1 + 2 ^ 15) };
      let f : Hs := { waiting := [q], dir := hs.map fun x => { ent with line := x.line }, holds := hs };
      (h f).pickOrdered 0 = some q ∧ (((h f).setHs 0 fun h => h.unwait q).admitReq q).2 = false) ∧
    (sh.promos.any (fun x => x.req.line == 0 && !x.dropped) = false ∧
        { sh with promos := [{ page := 0, req := q, frame := 0, old := {} }] }.promos.any (fun x => x.req.line == 0 && !x.dropped) = true) ∧
    (sh.pickOrdered 0 = none ∧ sh.pickWriteBack 0 = none ∧ sh.cas.fetchIn = []) ∧
    ((sh.hsl 0).holds.find? (fun x => x.line == 0 && sh.domState x.dev x.group == 0 && x.snps.any fun y => decide (sh.snpTo ≤ y.age)) = none ∧
        (sh.hsl 0).holds.find? (fun x => x.line == 0 && sh.domState x.dev x.group == 0 && decide (sh.snpTo ≤ x.age)) = none) ∧
    (let d := h { holds := [hold 256] };
      d.home (lnPage 0) = 0 ∧ (d.hsl 0).holds.find? (fun x => x.line == 0 && d.domState x.dev x.group == 0 && x.snps.any fun y => decide (d.snpTo ≤ y.age)) = some (hold 256) ∧
        (d.hsl 0).holds.find? (fun x => x.line == 0 && d.domState x.dev x.group == 0 && decide (d.snpTo ≤ x.age)) = some (hold 256) ∧ (hold 256).dev = d.devId ∧
        (d.dom 1).st = .up ∧ (d.dom 1).detected = none) ∧
    (((h { holds := [hold 255] }).hsl 0).holds.find? (fun x => x.line == 0 && (h {}).domState x.dev x.group == 0 && decide ((h {}).snpTo ≤ x.age)) = none) := by decide +kernel

theorem witness_CascadeLinksTrain :
    let d (n : Nat) (c : CPort) : Dev := cfgd (ported n [(15, c)]) [(cpBase 15 + 4, 0x83A00000#32)]
    let t (k : Nat) : CPort := { st := .training, step := k, cfg := 0x83A00000#32 }
    let hl : Hello := { dev := 7, root := false, port := 0, role := 1, credits := [1, 1, 1, 1, 1, 1, 1, 1] }
    (15 < (d 10000 {}).nHosts ∧ (d 10000 {}).prim = .primed ∧ (d 10000 {}).sup.held.contains (2 + 15 / 4) = false ∧
        bit ((d 10000 {}).portReg 15).toNat 31 = true ∧ ((d 10000 {}).port 15).st = .down ∧ ((d 10000 { stepAt := 10000 }).port 15).stepAt ≤ 10000) ∧
    (bit ((ported 0 []).portReg 15).toNat 31 = false ∧ (d 9999 { stepAt := 10000 }).time.loc < ((d 9999 { stepAt := 10000 }).port 15).stepAt) ∧
    (((d 0 (t 2)).port 15).live = true ∧ ((d 0 (t 2)).port 15).st = .training ∧ ((d 0 (t 2)).port 15).step ≤ 2) ∧
    (((d 0 upPort).port 15).st = .up ∧ ((d 0 upPort).port 15).live = true ∧ ((d 0 upPort).port 15).aligned = true) ∧
    (((d 0 (t 3)).port 15).step = 3 ∧ (d 0 (t 3)).neighbourOk 15 hl = true ∧ (d 0 (t 3)).neighbourOk 15 { hl with dev := 0 } = false) ∧
    (let c : CPort := { st := .keying, step := 4, secSt := 2, cfg := 0x83A00000#32 };
      ((d 0 c).port 15).st = .keying ∧ ((d 0 c).port 15).secSt = 2 ∧ 1 ≤ bits ((d 0 c).portCfg 15).toNat 23 22 ∧
        bits ((d 0 c).portCfg 15).toNat 23 22 = 2 ∧ bits ((d 0 c).portCfg 15).toNat 25 24 = 3 ∧ ((d 0 c).port 15).kept = []) ∧
    ((d 999 (t 3)).time.loc < ((d 999 (t 3)).port 15).stepAt + 1000 ∧ ((d 1000 (t 3)).port 15).stepAt + 1000 ≤ (d 1000 (t 3)).time.loc ∧
        ((d 25000 (t 1)).port 15).stepAt + 25000 ≤ (d 25000 (t 1)).time.loc ∧ 3 * 2 ^ (1 + 1) < 16 ∧ (t 1).step ≠ 3) ∧
    (let c : CPort := { upPort with aligned := false, lostAt := 3 };
      ((d 4 c).port 15).aligned = false ∧ ((d 4 c).port 15).lostAt + 1 ≤ (d 4 c).time.loc ∧ (d 3 c).time.loc < ((d 3 c).port 15).lostAt + 1) ∧
    ((d 0 { upPort with corrRun := 16 }).portUp 15 = true ∧ 16 ≤ ((d 0 { upPort with corrRun := 16 }).port 15).corrRun ∧
        ((d 0 { upPort with corrRun := 15 }).port 15).corrRun < 16 ∧ ((d 0 upPort).port 15).uncorrAt = []) := by decide +kernel

theorem witness_FlitsReplayAndLinkKeys :
    let d (n : Nat) (c : CPort) : Dev := ported n [(15, c)]
    let fl (bs : List Byte) : Flit := { bytes := bs, correctable := true, uncorrectable := 0, corrected := 0 }
    let f : Flit := fl (plainFlit (flitHead false true false 4095 0) (flitSlots 0x01 (msg 0)))
    let x : SentFlit := { seq := 0, tries := 1, since := 0, msgs := [] }
    let c : CPort := { upPort with rxNext := 4095 }
    (15 < (d 0 c).nHosts ∧ ((d 0 c).port 15).live = true ∧ f.corrected = 0 ∧ ((d 0 c).port 15).fec < 2 ^ 64 ∧ { f with correctable := false }.correctable = false) ∧
    (f.correctable = true ∧ ((d 0 c).port 15).aligned = true ∧ f.plain = true ∧ ((d 0 c).port 15).secSt < 2 ∧
        ((d 0 c).port 15).rxNext = 4095 ∧ f.seq % 4096 = 4095 % 4096 ∧
        ((d 0 c).port 15).msgsIn f = { op := 1, size := 0, cls := false } :: List.replicate 14 { op := 255, size := 0, cls := false } ∧
        sizeOk 1 0 = true ∧ sizeOk 255 0 = true) ∧
    (let g : Flit := fl (plainFlit (flitHead false true false 0 0) (flitSlots 0x01 (msg 0)));
      g.plain = true ∧ g.seq % 4096 ≠ 4095 % 4096 ∧ ((d 0 c).port 15).nak = false ∧
        ((d 0 { c with nak := true }).port 15).nak = true) ∧
    (let g : Flit := fl (plainFlit (flitHead false true false 4095 0) (headerSlot 0x42 15 (msg 0) ++ List.replicate 224 0));
      g.plain = true ∧ (((d 0 c).port 15).msgsIn g).any (fun m => !sizeOk m.op m.size) = true) ∧
    (let g : Flit := fl (sealFlit 0#256 0#32 4095 (flitHead false false false 4095 0) (flitSlots 0x01 (msg 0)));
      let c := { c with secSt := 2 };
      g.correctable = true ∧ ((d 0 c).port 15).aligned = true ∧ g.plain = false ∧ 2 ≤ ((d 0 c).port 15).secSt ∧ ((d 0 c).port 15).oldRxKey = false ∧
        ((d 0 c).port 15).tagOk g = true ∧ g.seq % 4096 = ((d 0 c).port 15).rxNext % 4096) ∧
    (f.plain = true ∧ 2 ≤ ((d 0 { c with secSt := 2 }).port 15).secSt ∧ f.seq ∉ ((d 0 { c with secSt := 2 }).port 15).tagFailSeq ∧
        ((d 0 { c with secSt := 2, tagFailNow := 2 }).port 15).tagFailNow < 3) ∧
    (((d 1 { c with sent := [x] }).port 15).sent = [x] ∧ (d 1 {}).time.loc < x.since + 2 ∧ x.since + 2 ≤ (d 2 {}).time.loc ∧ x.tries < 4 ∧
        4 ≤ { x with tries := 4 }.tries ∧ ((d 1 { c with sent := [x] }).port 15).st = .up) ∧
    (((d 0 c).port 15).kept = [] ∧ ((d 0 c).port 15).live = true) ∧
    ((d 0 {}).chainOk = false) ∧
    (let e (n : Nat) := d n { upPort with secSt := 2, cfg := 0x20000000#32 };
      (e (2 ^ 30)).portUp 15 = true ∧ ((e (2 ^ 30)).port 15).secSt = 2 ∧ (e (2 ^ 30)).coresGone = false ∧ (e (2 ^ 30)).upstream 15 = true ∧
        (e (2 ^ 30)).rekeyDue 15 = true ∧ (e (2 ^ 30 - 1)).rekeyDue 15 = false ∧ (d 0 { upPort with secSt := 2 }).upstream 15 = false) ∧
    (8 = ((d 0 { c with fragTotal := 8 }).port 15).fragTotal ∧ ((d 0 { c with frag := [1#8] }).port 15).frag ≠ []) := by decide +kernel

theorem witness_RoutesSwitchAndLinksSleep :
    let d (n : Nat) (c : CPort) (r : Route) : Dev :=
      { cfgd (up n) [(0x4004, 0xC00000EF#32)] with cas := { ports := [(15, c)], routes := [(1, r)] } }
    let two (r : Route) : Dev := { d 0 upPort r with cas := { ports := [(14, upPort), (15, upPort)], routes := [(1, r)] } }
    ((two {}).portUp 15 = true ∧ (two {}).routeValid 1 = true ∧ (two {}).routePrimary 1 = 15 ∧ ((two {}).route 1).usingAlt = false ∧
        ((two {}).routeAlt 1).any (two {}).portUp = true) ∧
    (((d 0 upPort {}).routeAlt 1).any (d 0 upPort {}).portUp = false ∧ ((d 0 upPort {}).route 1).usingAlt = false ∧ (d 0 upPort {}).portUp 15 = true) ∧
    (((two { usingAlt := true, byNotice := true }).route 1).usingAlt = true ∧ ((two { usingAlt := true, byNotice := true }).route 1).byNotice = true) ∧
    (let r : Route := { holdUntil := some 4 };
      ((d 3 {} r).route 1).holdUntil = some 4 ∧ (d 3 {} r).time.loc < 4 ∧ 4 ≤ (d 4 {} r).time.loc ∧ ((d 4 {} r).route 1).held = [] ∧
        ((d 4 {} { r with returnDue := true }).route 1).returnDue = true ∧ ((d 4 {} r).route 1).returnDue = false) ∧
    ((d 1023 upPort {}).time.loc < ((d 1023 upPort {}).port 15).upAt + (d 1023 upPort {}).failback * 64 ∧
        ((d 1024 upPort {}).port 15).upAt + (d 1024 upPort {}).failback * 64 ≤ (d 1024 upPort {}).time.loc ∧ 1 ∈ (d 1024 upPort {}).members) ∧
    (((d 0 upPort {}).port 15).draining = false ∧ ((d 0 upPort {}).port 15).sleepAsked = false ∧
        ((d 0 { upPort with sleepOrdered := true } {}).port 15).sleepOrdered = true ∧ ((d 0 upPort {}).port 15).sleepOrdered = false ∧
        ((d 0 upPort {}).port 15).kept = []) ∧
    (let e : Dev := { d 0 { upPort with sleepAsked := true } {} with pwr := { entering := true } };
      e.portUp 15 = true ∧ (e.port 15).sleepAsked = true ∧ e.pwr.entering = true ∧ e.devId < 1) ∧
    (let c : CPort := { upPort with draining := true, sleepOrdered := true };
      ((d 0 c {}).port 15).draining = true ∧ ((d 0 c {}).port 15).sent = [] ∧ ((d 0 c {}).port 15).sleepOrdered = true ∧
        (d 0 c {}).strokePort ≠ some 15 ∧ ((d 0 { c with sent := [{ seq := 0, tries := 1, since := 0, msgs := [] }] } {}).port 15).sent ≠ []) ∧
    (((d 0 { upPort with st := .sleep } {}).port 15).st = .sleep ∧ 15 < (d 0 {} {}).nHosts) ∧
    (let c : CPort := { upPort with st := .waking };
      ((d 50 c {}).port 15).st = .waking ∧ ((d 50 c {}).port 15).kept = [] ∧ ((d 50 c {}).port 15).stepAt + 50 ≤ (d 50 c {}).time.loc ∧
        (d 49 c {}).time.loc < ((d 49 c {}).port 15).stepAt + 50) := by decide +kernel

/-- The tags of the plain flits of the witness above. -/
theorem witness_FlitsReplayAndLinkKeys_tags (c : CPort) : ∀ n ∈ [4095, 0], ∀ s ∈ [flitSlots 0x01 (msg 0), headerSlot 0x42 15 (msg 0) ++ List.replicate 224 0],
    c.tagOk { bytes := plainFlit (flitHead false true false n 0) s, correctable := true, uncorrectable := 0, corrected := 0 } = true := by
  intro n hn s hs
  refine CPort.tagOk_plainFlit c _ _ _ rfl ?_ ?_ <;> fin_cases hn <;> fin_cases hs <;> rfl

/-- The sessions and the certificate chain that let link keys be installed, at an upstream and at a downstream port. -/
theorem witness_FlitsReplayAndLinkKeys_keys (r : BitVec 32) : 
    let d : Dev := { ported 0 [(15, { st := .keying, step := 4, secSt := 1, cfg := r })] with
      cfg := { active := { poolRoot := some (Config.chainRootHash [1#8]) } }, led := { chain := [1#8] }
      sec := { sessions := [{ sess := { tr := .link 15, id := 1 }, finished := true, bothAuth := true }] } }
    d.chainOk = true ∧ (d.port 15).st = .keying ∧ (d.port 15).secSt = 1 ∧ d.coresGone = false ∧ d.linkSession 15 = true ∧
      (r = 0x20000000#32 → d.upstream 15 = true) ∧ (r = 0#32 → d.upstream 15 = false) := by
  refine ⟨by simp [Dev.chainOk], rfl, rfl, rfl, ?_, ?_, ?_⟩
  · simp [Dev.linkSession]
  · rintro rfl; decide +kernel
  · rintro rfl; decide +kernel

theorem witness_TerdyMessagesAndSnoops :
    let d (l : Tbl (BitVec 32)) : Dev := cfgd (ported 4 [(15, upPort)]) l
    let own : Dev := d [(0x8000, 0xC0000007#32), (0x800C, 0x1000#32)]
    let imp : Dev := d [(0x8000, 0x80000007#32), (0x800C, 0x1000#32)]
    let twice : Dev := { ported 4 [(15, upPort)] with cas := { ports := [(15, upPort)], seen := [(3, 7, 1, 0x20, 0)] } }
    (terdyOf (.terdyMemRd 15 (msg 0)) = some (15, 0x01, msg 0) ∧ (up 0).portUp 15 = false ∧ (d []).portUp 15 = true ∧
        { msg 0 with dest := 5 }.dest ≠ (d []).devId ∧ ((d []).route 5).holdUntil = none ∧ (d []).reachable 5 = false ∧
        (d [(0x4014, 0xC00000EF#32)]).reachable 5 = true) ∧
    ((msg 0).dest = twice.devId ∧ { msg 0 with resent := true }.resent = true ∧ (3, 7, 1, 0x20, 0) ∈ twice.remembered) ∧
    (tookB (.terdyBISnpInv 15 (msg 0)) (W (d [])) (msg 0) (tookDev (d []) 0x30 (msg 0)) ∧ (tookDev (d []) 0x30 (msg 0)).importerLine (msg 0) = none) ∧
    (tookB (.terdyBISnpInv 15 (msg 0)) (W imp) (msg 0) (tookDev imp 0x30 (msg 0)) ∧ (tookDev imp 0x30 (msg 0)).importerLine (msg 0) = some 0 ∧ (msg 0).origin < 16) ∧
    (tookB (.terdyBIRsp 15 (msg 0)) (W own) (msg 0) (tookDev own 0x22 (msg 0))) ∧
    (tookB (.terdyBIConflict 15 (msg 0)) (W own) (msg 0) (tookDev own 0x23 (msg 0)) ∧ (tookDev own 0x23 (msg 0)).granted (msg 0) = true) ∧
    (tookB (.terdyBIConflict 15 (msg 0)) (W (d [])) (msg 0) (tookDev (d []) 0x23 (msg 0)) ∧ (tookDev (d []) 0x23 (msg 0)).granted (msg 0) = false) ∧
    (tookB (.terdyBIConflictAck 15 (msg 0)) (W imp) (msg 0) (tookDev imp 0x24 (msg 0))) := by decide +kernel

theorem witness_ForwardedRequestsAndResponses :
    let d (l : Tbl (BitVec 32)) : Dev := cfgd (ported 1024 [(15, upPort)]) l
    let own : Dev := d [(0x8000, 0xC0000007#32), (0x800C, 0x1000#32)]
    let m : Msg := msg (2 ^ 28 - 64)
    let wk : ReqKind := .write 0#64 0#512 true .i { kind := 0, tile := 0 }
    let f (r : Bool) (t : Nat) : Fwd := { tag := 1, rq := .head 0, rtag := 9, page := 0, line := 0, dest := 7, read := r, kind := (if r then .anyRead else wk), since := t }
    let w (x : Fwd) : Dev := { ported 1024 [(15, upPort)] with cas := { ports := [(15, upPort)], fwd := [x] } }
    let heldDev : Dev := { own with hs := [(own.home (lnPage (m.addr / 64)), { holds := [{ line := m.addr / 64, dev := 7, group := 0, req := none }] })] }
    (tookB (.terdyMemRd 15 m) (W (d [])) m (tookDev (d []) 0x01 m) ∧ (tookDev (d []) 0x01 m).granted m = false) ∧
    (tookB (.terdyMemRd 15 m) (W own) m (tookDev own 0x01 m) ∧ (tookDev own 0x01 m).granted m = true ∧ (tookDev own 0x01 m).therm.enforced = false ∧
        (tookDev own 0x01 m).granted (msg (2 ^ 28)) = false) ∧
    (tookB (.terdyMemClnEvct 15 m) (W own) m (tookDev own 0x07 m) ∧ tookB (.terdyMemWr 15 m) (W own) m (tookDev own 0x05 m)) ∧
    (let q : Req := { rq := msgRq m 15, tag := m.tag, line := m.addr / 64, kind := msgWriteKind m true, extra := true };
      own.isWriteBack q = false ∧ (own.hsl (own.home (lnPage q.line))).held q.line = false ∧ (own.hsl (own.home (lnPage q.line))).extras < 64 ∧
        (heldDev.hsl (heldDev.home (lnPage q.line))).held q.line = true ∧ heldDev.isWriteBack q = false) ∧
    (let g : Msg := { m with group := 1 };
      let e : Dev := { own with hs := [(own.home (lnPage (m.addr / 64)), { dir := [{ line := m.addr / 64, st := .e, dev := 7, group := 1, ptrs := [1], order := 0 }] })] };
      e.isWriteBack { rq := msgRq g 15, tag := 1, line := m.addr / 64, kind := msgWriteKind g true, extra := true } = true) ∧
    (tookB (.terdyCmp 15 (msg 0)) (W (d [])) (msg 0) (tookDev (d []) 0x21 (msg 0)) ∧ (tookDev (d []) 0x21 (msg 0)).fwdOf (msg 0) = none) ∧
    (tookB (.writeRetry 15 (msg 0)) (W (w (f false 0))) (msg 0) (tookDev (w (f false 0)) 0x25 (msg 0)) ∧
        (tookDev (w (f false 0)) 0x25 (msg 0)).fwdOf (msg 0) = some (f false 0) ∧ (f false 0).kind = wk) ∧
    (tookB (.terdyMemData 15 (msg 0)) (W (w (f true 0))) (msg 0) (tookDev (w (f true 0)) 0x20 (msg 0)) ∧ (f true 0).read = true ∧ (msg 0).mval = 0) ∧
    ((w (f true 1)).cas.fwd.find? (fun x => x.tag == 1 && decide ((d []).time.loc ≥ x.since + (d []).remTo)) = none) ∧
    ((w (f true 0)).cas.fwd.find? (fun x => x.tag == 1 && decide ((w (f true 0)).time.loc ≥ x.since + (w (f true 0)).remTo)) = some (f true 0) ∧ (f true 0).got = 0) := by decide +kernel

theorem witness_PageMessagesBetweenDevices :
    let d (l : Tbl (BitVec 32)) : Dev := cfgd (ported 1024 [(15, upPort)]) l
    let own : Dev := d [(0x8000, 0xC0000007#32), (0x800C, 0x1000#32)]
    let x : PageIn := { src := 7, tag := 1, page := 0, frame := 0, got := 30, poison := [] }
    let inn : Dev := { own with cas := { own.cas with pagesIn := [x] } }
    let fr (t : Nat) (b : Bool) : FreeOut := { tag := 1, dest := 7, addr := 0, since := t, again := b }
    let fd (f : FreeOut) : Dev := { own with cas := { own.cas with frees := [f] } }
    let j (r t : Nat) : Job := { ty := 2, pages := [], remote := r, remSince := t, tag := 1 }
    let pm (r t : Nat) : Dev := { up 1024 with pumps := [(31, { job := some (j r t) })] }
    (tookB (.pageFetch 15 (msg 0)) (W (d [])) (msg 0) (tookDev (d []) 0x10 (msg 0)) ∧ (tookDev (d []) 0x10 (msg 0)).granted (msg 0) = false) ∧
    (tookB (.pageFetch 15 (msg 0)) (W own) (msg 0) (tookDev own 0x10 (msg 0)) ∧ (tookDev own 0x10 (msg 0)).granted (msg 0) = true ∧
        tookB (.pageFree 15 (msg 0)) (W own) (msg 0) (tookDev own 0x12 (msg 0))) ∧
    (tookB (.pagePlace 15 (msg 0)) (W own) (msg 0) (tookDev own 0x11 (msg 0)) ∧ own.keyless 0 = false ∧
        (tookDev own 0x11 (msg 0)).allocFrame ((tookDev own 0x11 (msg 0)).homeTile 0) .promote 1 0#16 = none) ∧
    (let k : Dev := { cfgd own [(0x8000, 0xC0000007#32), (0x800C, 0x1001#32)] with otp := { caps1 := 0x4020100F#32 } };
      tookB (.pagePlace 15 (msg 0)) (W k) (msg 0) (tookDev k 0x11 (msg 0)) ∧ k.keyless 0 = true) ∧
    (tookB (.pageData 15 (msg 0)) (W inn) (msg 0) (tookDev inn 0x28 (msg 0)) ∧ x.got < 31 ∧
        (tookDev inn 0x28 (msg 0)).cas.pagesIn.find? (fun x => x.src == (msg 0).src && x.tag == (msg 0).tag && x.page == (msg 0).addr / 4096) = some x) ∧
    (tookB (.pageAck 15 (msg 0)) (W (fd (fr 0 false))) (msg 0) (tookDev (fd (fr 0 false)) 0x29 (msg 0)) ∧
        (fd (fr 0 false)).cas.frees.any (fun f => f.tag == (msg 0).tag && f.dest == (msg 0).src) = true) ∧
    (tookB (.pageAck 15 (msg 0)) (W own) (msg 0) (tookDev own 0x29 (msg 0)) ∧ own.cas.frees = [] ∧ own.pumpOfTag 1 = none) ∧
    (((pm 1 0).pump 31).job = some (j 1 0) ∧ 31 < (pm 1 0).nPumps ∧ (j 1 0).remSince + (pm 1 0).remTo ≤ (pm 1 0).time.loc ∧ (j 1 0).ty ≠ 5 ∧
        (pm 1 1).time.loc < (j 1 1).remSince + (pm 1 1).remTo ∧ (j 0 0).remote ≠ 1) ∧
    ((fd (fr 0 true)).cas.frees = [fr 0 true] ∧ (fr 0 true).since + own.remTo ≤ (fd (fr 0 true)).time.loc ∧ (fr 0 true).again = true ∧
        (fr 0 false).again = false ∧ (fd (fr 1 true)).time.loc < (fr 1 true).since + (fd (fr 1 true)).remTo) := by decide +kernel

theorem witness_DomainsDownUpAndRejoined :
    let d : Dev := ported 1024 [(15, upPort)]
    let g0 : Dev := { served 1024 with cfg := { regs := [(0x4004, 0x80000000#32)], active := { regions := [{ reg0 with group := 255 }] }, capacity := 1 } }
    let g (x : Dom) (l : List Bg) : Dev := { g0 with doms := [(255, x)] }
    let bg (x : Dom) : Dev := { g x [] with cfg := { (g x []).cfg with bg := [{ src := .mctp, kind := .rejoin 255 }] } }
    let q : List Byte := [255#8] ++ z 7
    let up1 : Dev := { d with cas := { d.cas with epoch := 1#32 }, doms := [(255, { st := .rejoining, bseq := 9 })] }
    ((up 0).portUp 15 = false ∧ (d.hear 15 1 cast).isSome = true ∧ (d.hear 15 2 cast).isSome = true ∧ cast.dev ≠ d.devId ∧
        Tbl.look d.remDown (cast.dev * 256 + cast.group) = none) ∧
    (up1.portUp 15 = true ∧ up1.cas.epoch = 1#32 ∧ (1#32 : BitVec 32) ≠ d.cas.epoch ∧ up1.doms = [(255, { st := .rejoining, bseq := 9 })]) ∧
    (acceptB (.rejoinDomain .mctp q) (W (g {} [])) .mctp (g {} []) ∧ q.length = 8 ∧ fieldAt q 1 1 < 2 ∧ fieldAt q 4 4 = 0 ∧ fieldAt q 0 1 = 255 ∧
        (g {} []).rejoinOk 255 (BitVec.ofNat 16 (fieldAt q 2 2)) (bit (fieldAt q 1 1) 0) = false) ∧
    (acceptB (.rejoinDomain .mctp q) (W (g { st := .rejoining } [])) .mctp (g { st := .rejoining } []) ∧ ((g { st := .rejoining } []).dom 255).st = .rejoining ∧
        (g { st := .rejoining } []).rejoinOk 255 (BitVec.ofNat 16 (fieldAt q 2 2)) (bit (fieldAt q 1 1) 0) = true) ∧
    ((g { st := .down } []).rejoinOk 255 (BitVec.ofNat 16 (fieldAt q 2 2)) (bit (fieldAt q 1 1) 0) = true ∧ ((g { st := .down } []).dom 255).want = none ∧
        acceptB (.rejoinDomain .mctp q) (W (g { st := .down } [])) .mctp (g { st := .down } []) ∧ (g { st := .down } []).bgRuns .mctp = false) ∧
    (((bg { st := .rejoining }).dom 255).st = .rejoining ∧ ((bg { st := .rejoining }).dom 255).since + 1024 ≤ (bg { st := .rejoining }).time.loc ∧
        (bg { st := .rejoining }).lateMember 255 = some 1 ∧ ((bg { st := .rejoining }).dom 255).ackAll = false ∧
        (bg { st := .rejoining }).cfg.bg = [{ src := .mctp, kind := .rejoin 255 }] ∧ (bg { st := .rejoining, since := 1 }).time.loc < ((bg { st := .rejoining, since := 1 }).dom 255).since + 1024) := by decide +kernel

theorem witness_DramRequestsAndReturns :
    let q (n : Nat) : List ChReq := (List.range n).map fun i => { gran := i, hint := 0, order := i }
    let d (r w : List ChReq) : Dev := { up 0 with chans := [(31, { dimm0 := some dimm, ranks := [(0, { st := .active })], rq := r, wq := w })] }
    let p : Nat := chGran 31 5
    (31 < (d [] []).nChans ∧ ((d [] []).chan 31).selfRef = false ∧ granOf 5 = 5 ∧ (d [] (q 63)).chServes p true = true ∧ ((d [] (q 63)).chan 31).wq.length < 64 ∧
        ((d [] (q 63)).chan 31).wwait = [] ∧ 64 ≤ ((d [] (q 64)).chan 31).wq.length ∧ ((d (q 63) []).chan 31).rwait = []) ∧
    ((d (q 63) []).chServes p false = true ∧ ((d (q 63) []).chan 31).rq.length < 64 ∧ ((d (q 63) []).chan 31).wq.any (fun x => x.gran == 5) = false) ∧
    (((d [] (q 6)).chan 31).wq.any (fun x => x.gran == 5) = true ∧ (up 0).chServes p true = false ∧ (up 0).chServes p false = false) ∧
    (((d [] []).place (p / 32)).isSome = true ∧ (match ((d [] []).accessDone 31 false 5).readGran p (errNats []) with | .clean => true | _ => false) = true) ∧
    ((match ((d [] []).accessDone 31 false 5).readGran p (errNats [(0, 1#8)]) with | .corrected (some 0) => true | _ => false) = true) ∧
    ((match { d [] [] with poison := [(p, 1)] }.readGran p (errNats []) with | .poisoned _ => true | _ => false) = true) ∧
    ((match ((d [] []).accessDone 31 false 5).readGran p (errNats ((List.range 33).map fun i => (4 * i, 1#8))) with | .uncorrectable => true | _ => false) = true) ∧
    (let e : Dev := { d [] (q 6) with pumps := [(24, { job := some { ty := 1, pages := [], frames := [p / 32] } })] };
      (e.chan 31).wq.any (fun x => x.gran == 5) = true ∧ (e.accessDone 31 true 5).destPump (p / 32) = some 24 ∧
        (e.chan 31).readFirst 5 = false) ∧
    (((d (q 6) ((q 7).drop 6)).chan 31).readFirst 5 = false ∧ ((d (q 6) [{ gran := 5, hint := 0, order := 6 }]).chan 31).readFirst 5 = true) ∧
    (((d [] []).chan 31).wq.any (fun x => x.gran == 5) = false ∧ ((d [] []).chan 31).newer.contains 5 = false) := by decide +kernel

theorem witness_DramRefreshTrainingAndAlerts :
    let d (n : Nat) (c : Chan) : Dev := { up n with chans := [(31, c)] }
    let rk (r : Rank) : Chan := { dimm0 := some dimm, dimm1 := some dimm, ranks := [(7, r)] }
    let b (f : Bool) : BringUp := { r := 7, tableProbesOk := false, found := f, setting := { devs := [], temp := 0 }, mr4 := 1 }
    (31 < (d 0 {}).nChans ∧ 7 < 8 ∧ ((d 0 (rk { st := .active, debt := 65536 })).rank 31 7).refreshed = true ∧
        65536 ≤ ((d 0 (rk { st := .active, debt := 65536 })).rank 31 7).debt ∧ ((d 0 (rk { st := .active, debt := 65535 })).rank 31 7).debt < 65536 ∧
        ((d 0 (rk {})).chan 31).selfRef = false) ∧
    ((d 15 (rk { st := .active })).pollDue 31 = true ∧ (d 15 (rk { st := .active })).stillRuns 2 (chanSlice 31) = false ∧
        { d 15 (rk { st := .active }) with time := { loc := 15, running := [(2, chanSlice 31, 15001)] } }.stillRuns 2 (chanSlice 31) = true ∧
        ((d 15 (rk { st := .active })).rank 31 7).refreshed = true) ∧
    ((d 61 {}).pollDue 31 = false ∧ (d 61 {}).burstDue 31 7 = false) ∧
    (let e := cfgd (d 62 (rk { st := .active })) [(chBase 31 + 0x10, 0#32)];
      e.burstDue 31 7 = true ∧ e.stillRuns 3 (chanSlice 31) = false ∧ e.fld (chBase 31 + 0x10) 3 3 = 0) ∧
    (let e := d 1024 (rk { st := .retraining });
      (e.rank 31 7).st = .retraining ∧ (e.chan 31).urgent = false ∧ 300 ≤ e.fld (chBase 31 + 0x10) 15 8 * 10 ∧ e.fld (chBase 31 + 0x10) 15 8 * 10 < 301 ∧
        (e.rank 31 7).install = none ∧ (e.rank 31 7).retrainAt + 1024 ≤ e.time.loc) ∧
    ((d 1023 (rk { st := .retraining })).time.loc < ((d 1023 (rk { st := .retraining })).rank 31 7).retrainAt + 1024 ∧
        ((d 0 { rk {} with urgent := true }).chan 31).urgent = true) ∧
    ((((d 1024 (rk {})).chan 31).dimm 0).isSome = true ∧ ((d 1024 (rk {})).chan 31).alert0 = none ∧
        ((d 1024 { rk {} with alert0 := some 0 }).chan 31).alert0 = some 0 ∧ (d 1024 {}).time.loc ≤ 0 + 1024) ∧
    (let e := d 0 { rk { st := .training } with bringUp := [7] };
      (e.chan 31).table = false ∧ (e.chan 31).bringUp.contains (b true).r = true ∧ (e.rank 31 (b true).r).st = .training ∧ (b true).found = true ∧ (b false).found = false) := by decide +kernel

theorem witness_DramScrubRepairAndRetirement :
    let d (n : Nat) (c : Chan) : Dev := { up n with chans := [(31, c)] }
    let c0 : Chan := { dimm0 := some dimm, ranks := [(0, { st := .active })] }
    let fr : Nat := 31 * 2 ^ 27 + 4
    let row : RepairRow := { gran := 32 * fr, r := 0, dev := 0, frame := fr }
    let fx : Tbl FrameRec := [(fr, { kind := 7, mask := 0#16 }), (fr + 1, { kind := 7, mask := 0#16 }), (fr + 2, { kind := 7, mask := 0#16 }), (fr + 3, { kind := 7, mask := 0#16 })]
    let ppr : Dev := { d 1000 { c0 with repair := [row], t0 := { read := true, temp := 64, at_ := 984 } } with frames := fx }
    let ev : TileSt := { evacs := [{ ch := 31, r := 7 }], blocked := true }
    let ret : Dev := { d 0 { dimm0 := some dimm, ranks := [(0, { st := .retired })] } with doms := [] }
    (((d 0 { c0 with selfRef := true }).chan 31).selfRef = true ∧ ((d 0 { c0 with scrubAt := 1 }).chan 31).scrubAt = (d 0 {}).time.loc + 1) ∧
    (let e := cfgd (d 0 c0) [(chBase 31 + 0x100, 0#32)];
      31 < e.nChans ∧ (e.chan 31).scrubAt ≠ e.time.loc + 1 ∧ e.fld (chBase 31 + 0x100) 31 28 = 0 ∧ (e.chan 31).rewrite = []) ∧
    (let e := d 0 c0;
      let f := e.setChan 31 fun c => { c with scrubAt := e.time.loc + 1 };
      e.fld (chBase 31 + 0x100) 31 28 = 1 ∧ f.nextScrub 31 (f.chan 31).scrubPos = some (0, false) ∧ (f.place (chGran 31 0 / 32)).map (Place.r) = some 0 ∧
        (f.rank 31 0).scrub = 2 ∧ (match f.readGran (chGran 31 0) [] with | .clean => true | _ => false) = true) ∧
    ((d 0 c0).pprRow 31 = none ∧ ppr.pprRow 31 = some row ∧ (ppr.granPlace row.gran).isSome = true ∧ (ppr.chan 31).dimm (row.r / 4) = some dimm ∧
        (ppr.chan 31).pprUsed = []) ∧
    (31 < (d 0 c0).nChans ∧ 7 < 8 ∧ (d 0 c0).nTiles ≤ 4 ∧ ((d 0 c0).tile 3).evacs = []) ∧
    (let e : Dev := { d 1024 c0 with tiles := [(3, ev)] };
      3 < e.nTiles ∧ (e.tile 3).evacs = [{ ch := 31, r := 7 }] ∧ (e.tile 3).blocked = true ∧ e.pool % 1024 = 0 ∧ (d 1023 c0).pool % 1024 ≠ 0) ∧
    ((ret.rank 31 0).st = .retired ∧ ret.rankHolds 31 0 = false ∧ { ret with frames := [(31 * 2 ^ 27 + 4, { kind := 1, mask := 0#16 })] }.rankHolds 31 0 = true) := by decide +kernel

theorem witness_PumpsFencesSweepAndBooks :
    let jr : JobReq := { ty := 7, page := 0 }
    let pg (e : MapEntry) : MapEntry := { e with st := .moving, owner := 7 }
    let d (n : Nat) (p : Pump) : Dev := { served n with pumps := [(31, p)], wmap := [(0, pg {})] }
    let q : Dev := { served 0 with tiles := [(3, { queue := [jr] })] }
    let j : Job := { ty := 7, pages := [(0, {})], dest := [{ page := 0 }] }
    let fj (w : Nat) : Job := { j with fencing := true, waits := [(0, w)] }
    ((d 0 { st := 5 }).pumpFree 31 = false ∧ q.pumpFree 31 = true ∧ q.pickJob 31 = some jr ∧ (served 0).pickJob 31 = none) ∧
    (let e : Dev := { served 0 with tiles := [(0, { queue := [{ ty := 3, page := 0 }] })], wmap := [(0, { st := .stable })], frames := [(0, { kind := 1, mask := 0#16 })] };
      e.pumpFree 7 = true ∧ e.pickJob 7 = some { ty := 3, page := 0 } ∧
        (((e.setTile (7 / 8) fun t => { t with queue := t.queue.erase { ty := 3, page := 0 } }).startJob 7 { ty := 3, page := 0 }).pump 7).job.isSome = true) ∧
    (j.waitDec = false ∧ j.fencing = false ∧ ((d 0 { job := some j }).pump 31).job = some j) ∧
    (let e := d 0 { job := some { j with waitDec := true } };
      ((List.range 8).map (8 * 3 + ·)).find? (fun p => (e.pump p).job.elim false Job.waitDec) = some 31 ∧ 3 < e.nTiles ∧ 15 < 16 ∧
        (e.pumpDecs 3).contains (16 * 3 + 15) = false ∧ (e.freeDec 3).isSome = true ∧
        ((List.range 8).map (8 * 3 + ·)).find? (fun p => ((d 0 {}).pump p).job.elim false Job.waitDec) = none) ∧
    (let e := { d 0 { job := some { j with waitDec := true } } with pumps := [(30, { job := some { j with decoder := some 63 } }), (31, { job := some { j with waitDec := true } })] };
      ((List.range 8).map (8 * 3 + ·)).find? (fun p => (e.pump p).job.elim false Job.waitDec) = some 31 ∧ (e.pumpDecs 3).contains (16 * 3 + 15) = true) ∧
    (let e := d 0 { st := 3, job := some (fj 0) };
      (e.pump 31).st = 3 ∧ ∀ x ∈ (fj 0).pages, ((fj 0).pages.foldl (fun d x => d.fencePage x.1) e).fenceDone x.1 = true) ∧
    (let e : Dev := { d 0 { st := 3, job := some (fj 0) } with hs := [(0, { holds := [{ line := 0, dev := 0, group := 0, req := none }] })] };
      (fj 0).pages.any (fun x => !((fj 0).pages.foldl (fun d x => d.fencePage x.1) e).fenceDone x.1) = true) ∧
    (let e (j : Job) : Dev := { d 0 { st := 3, job := some j } with hs := [(0, { holds := [{ line := 0, dev := 0, group := 0, req := none }] })] };
      let slow (j : Job) : List Nat := ((j.pages.map Prod.fst).filter fun g => !(e j).fenceDone g && decide (j.waited g ≥ (e j).fld (pumpBase 31) 23 16));
      let two : Job := { fj 64 with pages := [(0, {}), (1, {})] };
      slow (fj 64) = [0] ∧ (fj 64).pages.length = 1 ∧ ((e (fj 64)).pump 31).parked = none ∧ slow (fj 63) = [] ∧ slow two = [0] ∧ two.pages.length = 2) ∧
    (let e := d 6 { st := 1, job := some j, finished := some 5 };
      (e.pump 31).finished = some 5 ∧ (e.pump 31).abort = false ∧ 5 < e.time.loc ∧ (e.pump 31).st ≠ 5 ∧ (e.pump 31).st ≠ 6 ∧ (e.pump 31).parked = none ∧ j.metaRun = none ∧
        j.ownsRun = false ∧ j.ty ≠ 1 ∧ j.ty ≠ 2 ∧ j.dest = [{ page := 0 }] ∧ (e.entry 0).st = .moving ∧ (e.entry 0).owner = 31 % 8 ∧ j.dirty.contains 0 = false) ∧
    ({ j with ty := 8, dirty := [0] }.dirty.contains 0 = true ∧ { j with ty := 8 }.ty ≠ 7 ∧ { j with ty := 8 }.ownsRun = false ∧ (d 5 {}).time.loc ≤ 5) ∧
    (31 < (d 0 {}).nPumps ∧ (d 0 {}).regOk .mctp = true ∧ ((d 0 { st := 5 }).pump 31).st = 5 ∧ ((d 0 {}).pump 31).st ≠ 5 ∧ (d 0 {}).regOk (.head 16) = false) := by decide +kernel

theorem witness_PumpsFencesSweepAndBooks_sweep :
    ((served 1024).homed 65535 = true ∧ (served 1023).decayDue = false ∧ (served 1023).decayEp ≠ (served 1023).epoch + 1 ∧ (served 1024).decayDue = true) ∧
    (let e : Dev := { served 1024 with decayEp := 2, decayPos := 65535 };
      e.homed 65535 = true ∧ e.homed 65534 = true ∧ e.decayDue = false ∧ e.decayEp = e.epoch + 1 ∧ e.decayPos ≤ 65535 ∧ 65534 < e.decayPos) ∧
    ((served 0).sweepPump 3 = some 24 ∧ 3 < (served 0).nTiles ∧ ((served 0).tile 3).sweptAt ≠ (served 0).time.loc + 1 ∧ (served 0).pumpOff 24 = false ∧
        (served 0).pwr.done = 0 ∧ 0 < (served 0).cfg.capacity ∧ (served 0).nextHomed 0 256 ((served 0).tile 0).sweepPos = some 0) ∧
    ((served (2 ^ 25 - 1)).epoch < ((served 0).tile 3).passEpoch + 2 ^ 15 ∧ ((served 0).tile 3).passEpoch + 2 ^ 15 ≤ (served (2 ^ 25)).epoch) ∧
    (let e (b : BookSlot) : Dev := { served 0 with books := [(15, b)] };
      15 < 16 ∧ ((e { st := .retiring, pending := some builtinBook }).book 15).st = .retiring ∧ (e { st := .retiring }).bookRefs 15 = 0 ∧
        ((e { st := .retiring, pending := some builtinBook }).book 15).pending = some builtinBook ∧ ((e { st := .retiring }).book 15).pending = none) ∧
    ({ served 0 with wmap := [(0, { st := .stable, tier := 1, book := 15 })] }.bookRefs 15 ≠ 0) := by decide +kernel

theorem witness_ResetsCrossingsAndFaults :
    let st : Straps := { nvmMode := true, oscWait := 0, i3cSa := 0, testMode := false }
    let g : BitVec 32 := 0x020007FF#32
    ((up 0).resetHeld = false ∧ (up 0).therm.latched = false ∧ { up 0 with resetHeld := true }.resetHeld = true ∧
        { up 0 with therm := { latched := true } }.therm.latched = true ∧ (up 0).resetDue = none) ∧
    ({ up 0 with otp := { caps0 := g } }.hasGuest = true ∧ (up 0).hasGuest = false) ∧
    (let e : Dev := { up 0 with resetHeld := true, therm := { latched := true } };
      e.resetHeld = true ∧ e.therm.latched = true ∧ (up 0).therm.latched = false) ∧
    (let n : Dev := { otp := {}, led := {}, nvm := [], out := [], free := 0, clk := { straps := st } };
      n.hasGuest = false ∧ { n with otp := { caps0 := g } }.hasGuest = true) ∧
    ((up 0).primeReady = false ∧ (∀ l, (up 0).prim ≠ .priming l) ∧ { up 0 with prim := .priming false }.prim = .priming false ∧ { up 0 with prim := .priming false }.primeReady = true) ∧
    (31 < (up 0).nChans ∧ ((up 0).chan 31).pllFailed = false) ∧
    (let e : Dev := { up 0 with sup := { held := [5], rstRun := [(5, 8)] } };
      e.sup.held.contains 5 = true ∧ 8 ≤ Tbl.get 0 e.sup.rstRun 5 ∧ Tbl.get 0 (up 0).sup.rstRun 5 < 8) ∧
    ((up 0).monitorOn 6 6 = false ∧ (up 0).monitorOn 6 5 = true ∧ ∀ h ∈ tilePorts 5, ((up 0).head h).up = false ∧ ((up 0).port h).st = .down) ∧
    ((up 0).tilePresent 9 = true ∧ (up 0).tilePresent 10 = false ∧ 6 + (up 0).homeTile (32 / 32) = 6 ∧ 6 + (up 0).homeTile (lnPage 64) = 6) ∧
    (let e : Dev := { up 0 with mods := [(48, { st := 2 })] };
      e.modPresent 48 = true ∧ (e.modu 48).st = 2 ∧ modTile 48 ≠ 10 ∧ (e.moduleDown 48 false).cutOff 48 = false ∧ (e.modu 48).leaves = [] ∧
        (tileMods 10).any (fun j => (e.modu j).st != 4) = true) ∧
    ((up 0).modPresent 53 = false ∧ ({ up 0 with mods := [(0, { st := 4 })] }.modu 0).st = 4) := by decide +kernel

theorem witness_StrokesAlignmentAndActivations :
    let f : FrameMsg := { stroke := 9#64, ver := 0#32, digest := 0#64, arrOfs := some 320, hops := 0, role := 1, holdover := false, planned := false, plain := false }
    let c : CPort := { upPort with cfg := 0x87A00000#32, frame := some f, frameAt := 9, arr := [(8, 160)] }
    let d (c : CPort) (t : TimeSt) : Dev := { cfgd (up 0) [(0x4004, 0x8000000F#32)] with cas := { ports := [(15, c)] }, time := t }
    let x : Samples := { halfNs := 2000, ingress := [], rails := [], bays := [], bytes := [], signals := [], overruns := [] }
    ((((d c {}).tick x.halfNs).resetIsDue = false) ∧ ({ (d c {}) with resetDue := some 1 }.tick x.halfNs).resetIsDue = true) ∧
    (15 < (d c {}).nHosts ∧ ((d c {}).port 15).st = .up ∧ { f with plain := true }.plain = true ∧ ((d { c with secSt := 2 } {}).port 15).keyed = true ∧
        f.plain = false ∧ (up 0).role ≠ 2 ∧ pairBnd (pairWordOf true 5 0) = true ∧ pairBnd (pairWordOf false 0 0) = false) ∧
    (let e := d c { loc := 10 };
      e.strokePort = some 15 ∧ (e.port 15).goodFrame = some f ∧ f.arrOfs = some 320 ∧ (e.port 15).arrivalOf (f.stroke.toNat + 65535) = some 160 ∧ e.role = 2 ∧
        e.portUp 15 = true ∧ e.time.loc = (e.port 15).frameAt + 1 ∧ e.time.corrAt ≠ e.time.loc ∧ ((320 : Int) - 160).natAbs ≤ 160) ∧
    (160 < ((321 : Int) - 160).natAbs ∧ ((321 : Int) - 160).natAbs ≤ (d c {}).fld 0x214 15 8 * 320 ∧ (d c {}).fld 0x214 15 8 * 320 < ((16161 : Int) - 160).natAbs) ∧
    ((up 0).strokePort = none ∧ (d c { missed := 1 }).time.missed < 2) ∧
    (let e := d { upPort with st := .down } { missed := 2 };
      e.role = 2 ∧ e.time.holdover = false ∧ 2 ≤ e.time.missed ∧ e.strokePort = none) ∧
    (let a : ActEntry := { stroke := 5, cls := 1, kind := .config };
      (up 0).dueActs = [] ∧ { up 5 with acts := [a] }.dueActs = [a] ∧ a ∈ { up 5 with acts := [a] }.acts ∧ (up 5).clk.moving = false ∧ (up 5).coresGone = false ∧
        (up 5).sup.brace = false ∧ a.kind = .config) ∧
    (let e := d c { loc := 10, markBad := true, badAt := 9 };
      e.strokePort = some 15 ∧ (e.port 15).goodFrame = some f ∧ e.role = 2 ∧ e.rewriteDue = true ∧ e.acts = [] ∧ e.perts = [] ∧
        { e with time := {} }.rewriteDue = false) := by decide +kernel

/-! ### Terms that are not well formed: for each check, a term that it alone refuses -/

def strapsGood : Straps := { nvmMode := true, oscWait := 7, i3cSa := 127, testMode := false }
def samplesGood : Samples :=
  { halfNs := 2000, ingress := [(15, 0)], rails := [(7, 10, 0)], bays := [(31, 0, 0)], bytes := [(63, 1, 0)], signals := [], overruns := [] }
def frameGood : FrameMsg :=
  { stroke := 0#64, ver := 0#32, digest := 0#64, arrOfs := none, hops := 4095, role := 3, holdover := false, planned := false, plain := false }
def decoderGood : Decoder := { base := 0, size := 2 ^ 28, dpaBase := 0, ways := 1, gran := 256, bi := true }
def settingGood : Setting := { devs := List.replicate 20 (0, 0, 0), temp := 0 }
def hintGood : Hint := { kind := 3, tile := 15 }
def sessGood : Sess := { tr := .doe 15, id := 1 }
def flitGood : Flit := { bytes := z 256, correctable := true, uncorrectable := 0, corrected := 0 }
def helloGood : Hello := { dev := 4095, root := true, port := 15, role := 2, credits := List.replicate 8 0 }
def ackGood : BcastAck := { kind := 2, member := 4095, epoch := 0#32, bseq := 65535, status := 0, slice := 4095, ver := 0#32 }
def pullGood : PullMsg :=
  { src := 4095, kind := 1, outcome := 0, ver := 0#32, digest := 0#64, pendVer := 0#32, pendDigest := 0#64, act := 0#64, rootVer := 0#32
    rootDigest := 0#64 }
def factsGood : EntryFacts := { gateRefused := some 4095, nvmBusy := false, notL1 := some 15 }

theorem test_records_that_fit :
    Instr.wf (.coldReset strapsGood) = true ∧
    Instr.wf (.strokeBoundary samplesGood) = true ∧
    Instr.wf (.strokeFrame 0 frameGood) = true ∧
    Instr.wf (.hdmDecoderCommit 0 0 decoderGood) = true ∧
    Instr.wf (.initiateDcAdd .mctp 0 [{ dpa := 0, length := 2 ^ 28, tag := 0#128 }]) = true ∧
    Instr.wf (.spdmGetVersion { tr := .link 15, id := 2 ^ 32 - 1 }) = true ∧
    Instr.wf (.guestMemWr 0 0 .i { kind := 3, tile := 15 } 0#512) = true ∧
    Instr.wf (.dramReadReturn 0 0 (.pump 31) []) = true ∧
    Instr.wf (.retrainingEnd 0 0 true settingGood) = true ∧
    Instr.wf (.flitReceive 0 flitGood) = true ∧
    Instr.wf (.hello 0 helloGood) = true ∧
    Instr.wf (.pageFetch 0 msg0) = true ∧
    Instr.wf (.domainUp 0 cast) = true ∧
    Instr.wf (.broadcastAck 0 ackGood) = true ∧
    Instr.wf (.configurationPull 0 pullGood) = true ∧
    Instr.wf (.entryStep factsGood) = true ∧
    Instr.wf (.pllFailure (.fabric 10)) = true ∧
    Instr.wf (.bayInsertion 0 0 dimm) = true ∧
    Instr.wf (.sramPatrol 0 (.engine 31)) = true := by decide +kernel

theorem test_records_that_do_not_fit :
    Instr.wf (.coldReset { strapsGood with oscWait := 8 }) = false ∧
    Instr.wf (.coldReset { strapsGood with i3cSa := 128 }) = false ∧
    Instr.wf (.strokeBoundary { samplesGood with ingress := [(16, 0)] }) = false ∧
    Instr.wf (.strokeBoundary { samplesGood with rails := [(8, 0, 0)] }) = false ∧
    Instr.wf (.strokeBoundary { samplesGood with rails := [(0, 11, 0)] }) = false ∧
    Instr.wf (.strokeBoundary { samplesGood with bays := [(32, 0, 0)] }) = false ∧
    Instr.wf (.strokeBoundary { samplesGood with bytes := [(64, 0, 0)] }) = false ∧
    Instr.wf (.strokeBoundary { samplesGood with bytes := [(0, 2, 0)] }) = false ∧
    Instr.wf (.strokeBoundary { samplesGood with vin := 65536 }) = false ∧
    Instr.wf (.strokeFrame 0 { frameGood with hops := 4096 }) = false ∧
    Instr.wf (.strokeFrame 0 { frameGood with role := 4 }) = false ∧
    Instr.wf (.hdmDecoderCommit 0 0 { decoderGood with ways := 0 }) = false ∧
    Instr.wf (.hdmDecoderCommit 0 0 { decoderGood with gran := 0 }) = false ∧
    Instr.wf (.initiateDcAdd .mctp 0 [{ dpa := 0, length := 1, tag := 0#128 }]) = false ∧
    Instr.wf (.initiateDcAdd .mctp 0 [{ dpa := 0, length := 0, tag := 0#128 }]) = false ∧
    Instr.wf (.spdmGetVersion { tr := .link 16, id := 1 }) = false ∧
    Instr.wf (.spdmGetVersion { tr := .doe 16, id := 1 }) = false ∧
    Instr.wf (.spdmGetVersion { tr := .mctp, id := 2 ^ 32 }) = false ∧
    Instr.wf (.guestMemWr 0 0 .i { kind := 4, tile := 0 } 0#512) = false ∧
    Instr.wf (.guestMemWr 0 0 .i { kind := 0, tile := 16 } 0#512) = false ∧
    Instr.wf (.dramReadReturn 0 0 (.pump 32) []) = false ∧
    Instr.wf (.retrainingEnd 0 0 true { devs := List.replicate 21 (0, 0, 0), temp := 0 }) = false ∧
    Instr.wf (.flitReceive 0 { flitGood with bytes := z 255 }) = false ∧
    Instr.wf (.flitReceive 0 { flitGood with bytes := z 257 }) = false ∧
    Instr.wf (.hello 0 { helloGood with dev := 4096 }) = false ∧
    Instr.wf (.hello 0 { helloGood with port := 16 }) = false ∧
    Instr.wf (.hello 0 { helloGood with role := 3 }) = false ∧
    Instr.wf (.hello 0 { helloGood with credits := List.replicate 9 0 }) = false ∧
    Instr.wf (.pageFetch 0 { msg0 with hint := { kind := 4, tile := 0 } }) = false ∧
    Instr.wf (.pageFetch 0 { msg0 with dest := 4096 }) = false ∧
    Instr.wf (.pageFetch 0 { msg0 with src := 4096 }) = false ∧
    Instr.wf (.pageFetch 0 { msg0 with origin := 32 }) = false ∧
    Instr.wf (.pageFetch 0 { msg0 with group := 256 }) = false ∧
    Instr.wf (.pageFetch 0 { msg0 with pageHint := 4 }) = false ∧
    Instr.wf (.pageFetch 0 { msg0 with mval := 4 }) = false ∧
    Instr.wf (.pageFetch 0 { msg0 with tag := 65536 }) = false ∧
    Instr.wf (.pageFetch 0 { msg0 with addr := 2 ^ 46 }) = false ∧
    Instr.wf (.domainUp 0 { cast with src := 4096 }) = false ∧
    Instr.wf (.domainUp 0 { cast with bseq := 65536 }) = false ∧
    Instr.wf (.domainUp 0 { cast with dev := 4096 }) = false ∧
    Instr.wf (.domainUp 0 { cast with group := 256 }) = false ∧
    Instr.wf (.broadcastAck 0 { ackGood with member := 4096 }) = false ∧
    Instr.wf (.broadcastAck 0 { ackGood with bseq := 65536 }) = false ∧
    Instr.wf (.broadcastAck 0 { ackGood with slice := 4096 }) = false ∧
    Instr.wf (.configurationPull 0 { pullGood with src := 4096 }) = false ∧
    Instr.wf (.entryStep { factsGood with gateRefused := some 4096 }) = false ∧
    Instr.wf (.entryStep { factsGood with notL1 := some 16 }) = false ∧
    Instr.wf (.pllFailure (.fabric 11)) = false ∧
    Instr.wf (.pllFailure (.serdesHost 16)) = false ∧
    Instr.wf (.pllFailure (.serdesCascade 16)) = false ∧
    Instr.wf (.pllFailure (.ddr 32)) = false ∧
    Instr.wf (.bayInsertion 0 0 { dimm with ranks := 3 }) = false ∧
    Instr.wf (.sramPatrol 0 (.cleanCistern (2 ^ 39))) = false ∧
    Instr.wf (.sramPatrol 0 (.dirtyCistern (2 ^ 40))) = false ∧
    Instr.wf (.sramPatrol 0 (.cleanMap (2 ^ 34))) = false ∧
    Instr.wf (.sramPatrol 0 (.dirtyMap (2 ^ 34))) = false ∧
    Instr.wf (.sramPatrol 0 (.engine 32)) = false := by decide +kernel

theorem test_operands_at_their_bounds_1 :
    Instr.wf (.perstAssertion (16 - 1)) = true ∧
    Instr.wf (.strokeFrame (16 - 1) frameGood) = true ∧
    Instr.wf (.hostLinkUp 0 (6 - 1) 0) = true ∧
    Instr.wf (.hostLinkUp 0 0 (6 - 1)) = true ∧
    Instr.wf (.hdmDecoderCommit 0 (8 - 1) decoderGood) = true ∧
    Instr.wf (.ltrConfigWrite 0 true (2 ^ 35 - 1) 0) = true ∧
    Instr.wf (.ltrConfigWrite 0 true 0 (2 ^ 35 - 1)) = true ∧
    Instr.wf (.m2sMemRd 0 (65536 - 1) 0 .i) = true ∧
    Instr.wf (.m2sMemRd 0 0 (2 ^ 46 - 1) .i) = true ∧
    Instr.wf (.inlinePromotionEnd (2 ^ 34 - 1)) = true ∧
    Instr.wf (.cisternEviction (2 ^ 39 - 1) true) = true ∧
    Instr.wf (.unsupportedCommand (.head 15) 0) = true ∧
    Instr.wf (.unsupportedCommand .mctp (65536 - 1)) = true ∧
    Instr.wf (.getEventRecords .mctp (256 - 1)) = true ∧
    Instr.wf (.clearEventRecords .mctp 0 true [65535]) = true ∧
    Instr.wf (.getPoisonList .mctp (2 ^ 46 - 1) 0) = true ∧
    Instr.wf (.getPoisonList .mctp 0 (2 ^ 32 - 1)) = true ∧
    Instr.wf (.getLog .mctp (2 ^ 32 - 1) 0) = true ∧
    Instr.wf (.getLog .mctp 0 (2 ^ 32 - 1)) = true ∧
    Instr.wf (.addDcResponse 0 [2 ^ 18 - 1]) = true ∧
    Instr.wf (.bayPowerStatus .mctp [31#8, 0#8]) = true ∧
    Instr.wf (.setEndpointId (256 - 1)) = true ∧
    Instr.wf (.initiateDcAdd .mctp 0 [{ dpa := 0, length := 2 ^ 28, tag := 0#128 }]) = true ∧
    Instr.wf (.setSldQosControl .mctp (256 - 1) 0 0 0) = true ∧
    Instr.wf (.setSldQosControl .mctp 0 (256 - 1) 0 0) = true ∧
    Instr.wf (.setSldQosControl .mctp 0 0 (256 - 1) 0) = true ∧
    Instr.wf (.setSldQosControl .mctp 0 0 0 (16 - 1)) = true ∧
    Instr.wf (.sweepStep (4 - 1)) = true ∧
    Instr.wf (.heatDecayPass [2 ^ 34 - 1]) = true ∧
    Instr.wf (.pumpJobStart (32 - 1)) = true ∧
    Instr.wf (.decoderAvailable 0 (64 - 1)) = true ∧
    Instr.wf (.bookSlotRetireEnd (16 - 1)) = true ∧
    Instr.wf (.setKey sessGood (z 4096)) = true ∧
    Instr.wf (.eraseInvalidationDone (4096 - 1)) = true ∧
    Instr.wf (.arbiterAdmission (64 - 1) .good) = true ∧
    Instr.wf (.transactionAcknowledged (2 ^ 40 - 1)) = true ∧
    Instr.wf (.rejoinTimeout (256 - 1)) = true ∧
    Instr.wf (.channelRequest (32 - 1) true 0 .scrub) = true ∧
    Instr.wf (.channelRequest 0 true (2 ^ 32 - 1) .map) = true ∧
    Instr.wf (.channelRequest 0 true 0 (.terdy 3)) = true ∧
    Instr.wf (.dramReadReturn 0 0 .scrub [(159, 0#8)]) = true := by decide +kernel

theorem test_operands_beyond_their_bounds_1 :
    Instr.wf (.perstAssertion (16)) = false ∧
    Instr.wf (.strokeFrame (16) frameGood) = false ∧
    Instr.wf (.hostLinkUp 0 (6) 0) = false ∧
    Instr.wf (.hostLinkUp 0 0 (6)) = false ∧
    Instr.wf (.hdmDecoderCommit 0 (8) decoderGood) = false ∧
    Instr.wf (.ltrConfigWrite 0 true (2 ^ 35) 0) = false ∧
    Instr.wf (.ltrConfigWrite 0 true 0 (2 ^ 35)) = false ∧
    Instr.wf (.m2sMemRd 0 (65536) 0 .i) = false ∧
    Instr.wf (.m2sMemRd 0 0 (2 ^ 46) .i) = false ∧
    Instr.wf (.inlinePromotionEnd (2 ^ 34)) = false ∧
    Instr.wf (.cisternEviction (2 ^ 39) true) = false ∧
    Instr.wf (.unsupportedCommand (.head 16) 0) = false ∧
    Instr.wf (.unsupportedCommand .mctp (65536)) = false ∧
    Instr.wf (.getEventRecords .mctp (256)) = false ∧
    Instr.wf (.clearEventRecords .mctp 0 true [65536]) = false ∧
    Instr.wf (.getPoisonList .mctp (2 ^ 46) 0) = false ∧
    Instr.wf (.getPoisonList .mctp 0 (2 ^ 32)) = false ∧
    Instr.wf (.getLog .mctp (2 ^ 32) 0) = false ∧
    Instr.wf (.getLog .mctp 0 (2 ^ 32)) = false ∧
    Instr.wf (.addDcResponse 0 [2 ^ 18]) = false ∧
    Instr.wf (.bayPowerStatus .mctp [31#8, 1#8]) = false ∧
    Instr.wf (.setEndpointId (256)) = false ∧
    Instr.wf (.initiateDcAdd .mctp 0 [{ dpa := 1, length := 2 ^ 28, tag := 0#128 }]) = false ∧
    Instr.wf (.setSldQosControl .mctp (256) 0 0 0) = false ∧
    Instr.wf (.setSldQosControl .mctp 0 (256) 0 0) = false ∧
    Instr.wf (.setSldQosControl .mctp 0 0 (256) 0) = false ∧
    Instr.wf (.setSldQosControl .mctp 0 0 0 (16)) = false ∧
    Instr.wf (.sweepStep (4)) = false ∧
    Instr.wf (.heatDecayPass [2 ^ 34]) = false ∧
    Instr.wf (.pumpJobStart (32)) = false ∧
    Instr.wf (.decoderAvailable 0 (64)) = false ∧
    Instr.wf (.bookSlotRetireEnd (16)) = false ∧
    Instr.wf (.setKey sessGood (z 4097)) = false ∧
    Instr.wf (.eraseInvalidationDone (4096)) = false ∧
    Instr.wf (.arbiterAdmission (64) .good) = false ∧
    Instr.wf (.transactionAcknowledged (2 ^ 40)) = false ∧
    Instr.wf (.rejoinTimeout (256)) = false ∧
    Instr.wf (.channelRequest (32) true 0 .scrub) = false ∧
    Instr.wf (.channelRequest 0 true (2 ^ 32) .map) = false ∧
    Instr.wf (.channelRequest 0 true 0 (.terdy 4)) = false ∧
    Instr.wf (.dramReadReturn 0 0 .scrub [(160, 0#8)]) = false := by decide +kernel

theorem test_operands_at_their_bounds_2 :
    Instr.wf (.refabIssue 0 (8 - 1)) = true ∧
    Instr.wf (.channelRequest 0 true 0 (.page (2 ^ 34 - 1))) = true ∧
    Instr.wf (.scrubRead 0 ⟨8, []⟩) = true ∧
    Instr.wf (.bayPowerClear .mctp [0#8, 3#8]) = true ∧
    Instr.wf (.relock ⟨.mctp, [2#8]⟩) = true ∧
    Instr.wf (.getChallenge ⟨.mctp, [0#8]⟩) = true ∧
    Instr.wf (.mr4Poll 0 [(7, 0)]) = true ∧
    Instr.wf (.calibrationBurst 0 0 [{ dev := 19, minus := true, plus := true, centre := true, osc := 0 }]) = true ∧
    Instr.wf (.caParityAlert 0 (2 - 1)) = true ∧
    Instr.wf (.bringUpComplete 0 [{ r := 7, tableProbesOk := true, found := true, setting := settingGood, mr4 := 1 }]) = true ∧
    Instr.wf (.scrubRead 0 ⟨8, [(0, [(159, 0#8)])]⟩) = true ∧
    Instr.wf (.cascadeLinkUp 0 (4 - 1) 0 0) = true ∧
    Instr.wf (.cascadeLinkUp 0 0 (4 - 1) 0) = true ∧
    Instr.wf (.cascadeLinkUp 0 0 0 (16 - 1)) = true ∧
    Instr.wf (.linkControl 0 true (4096 - 1) []) = true ∧
    Instr.wf (.linkControl 0 true 0 (List.replicate 8 0)) = true ∧
    Instr.wf (.securedTransport 0 (65536 - 1) 0 []) = true ∧
    Instr.wf (.securedTransport 0 0 (65536 - 1) []) = true ∧
    Instr.wf (.securedTransport 0 0 0 (z 65536)) = true ∧
    Instr.wf (.foQuietExpiry (4096 - 1)) = true ∧
    Instr.wf (.sleepRequest 0 (4096 - 1)) = true ∧
    Instr.wf (.sleepReply 0 true (4096 - 1)) = true ∧
    Instr.wf (.setCertificate sessGood (8 - 1) []) = true ∧
    Instr.wf (.setCertificate sessGood 0 (z 65536)) = true ∧
    Instr.wf (.challenge sessGood 0 (z 64)) = true ∧
    Instr.wf (.getMeasurements sessGood (256 - 1)) = true ∧
    Instr.wf (.wakeSource (10 - 1) 0) = true ∧
    Instr.wf (.rcTrim [(11, 0)]) = true ∧
    Instr.wf (.pllLocked (11 - 1)) = true ∧
    Instr.wf (.railPoll (4 - 1) 0) = true ∧
    Instr.wf (.warningCrossing (8 - 1) 0) = true ∧
    Instr.wf (.bayInsertion (32 - 1) 0 dimm) = true ∧
    Instr.wf (.bayInsertion 0 (2 - 1) dimm) = true ∧
    Instr.wf (.dimmTemperatureRead 0 [[], []]) = true ∧
    Instr.wf (.eventPendingClear .mctp (8 - 1) 0#32) = true ∧
    Instr.wf (.counterReprogram .mctp (1024 - 1) 0#32) = true ∧
    Instr.wf (.bandwidthWindowConfig .mctp (64 - 1) 0#32) = true ∧
    Instr.wf (.perturbationGo .mctp (8 - 1)) = true ∧
    Instr.wf (.chrotenModuleUp (53 - 1) 0 true) = true ∧
    Instr.wf (.chrotenModuleUp 0 (7 - 1) true) = true ∧
    Instr.wf (.chrotenFlitReceive 0 true (256 - 1) 0) = true ∧
    Instr.wf (.chrotenFlitReceive 0 true 0 (64 - 1)) = true ∧
    Instr.wf (.creditReturn 0 (List.replicate 8 0)) = true ∧
    Instr.wf (.guestMemRd 0 (2 ^ 46 - 1) .i) = true ∧
    Instr.wf (.pairWord 0 0#40 0 (65536 - 1)) = true ∧
    Instr.wf (.dynamicAddress (some 127)) = true ∧
    Instr.wf (.autoIdleExpiry 0 0 (32 - 1)) = true := by decide +kernel

theorem test_operands_beyond_their_bounds_2 :
    Instr.wf (.refabIssue 0 (8)) = false ∧
    Instr.wf (.channelRequest 0 true 0 (.page (2 ^ 34))) = false ∧
    Instr.wf (.scrubRead 0 ⟨9, []⟩) = false ∧
    Instr.wf (.bayPowerClear .mctp [0#8, 2#8]) = false ∧
    Instr.wf (.relock ⟨.mctp, [0#8]⟩) = false ∧
    Instr.wf (.getChallenge ⟨.mctp, [2#8]⟩) = false ∧
    Instr.wf (.mr4Poll 0 [(8, 0)]) = false ∧
    Instr.wf (.calibrationBurst 0 0 [{ dev := 20, minus := true, plus := true, centre := true, osc := 0 }]) = false ∧
    Instr.wf (.caParityAlert 0 (2)) = false ∧
    Instr.wf (.bringUpComplete 0 [{ r := 8, tableProbesOk := true, found := true, setting := settingGood, mr4 := 1 }]) = false ∧
    Instr.wf (.scrubRead 0 ⟨8, [(0, [(160, 0#8)])]⟩) = false ∧
    Instr.wf (.cascadeLinkUp 0 (4) 0 0) = false ∧
    Instr.wf (.cascadeLinkUp 0 0 (4) 0) = false ∧
    Instr.wf (.cascadeLinkUp 0 0 0 (16)) = false ∧
    Instr.wf (.linkControl 0 true (4096) []) = false ∧
    Instr.wf (.linkControl 0 true 0 (List.replicate 9 0)) = false ∧
    Instr.wf (.securedTransport 0 (65536) 0 []) = false ∧
    Instr.wf (.securedTransport 0 0 (65536) []) = false ∧
    Instr.wf (.securedTransport 0 0 0 (z 65537)) = false ∧
    Instr.wf (.foQuietExpiry (4096)) = false ∧
    Instr.wf (.sleepRequest 0 (4096)) = false ∧
    Instr.wf (.sleepReply 0 true (4096)) = false ∧
    Instr.wf (.setCertificate sessGood (8) []) = false ∧
    Instr.wf (.setCertificate sessGood 0 (z 65537)) = false ∧
    Instr.wf (.challenge sessGood 0 (z 65)) = false ∧
    Instr.wf (.getMeasurements sessGood (256)) = false ∧
    Instr.wf (.wakeSource (10) 0) = false ∧
    Instr.wf (.rcTrim [(12, 0)]) = false ∧
    Instr.wf (.pllLocked (11)) = false ∧
    Instr.wf (.railPoll (4) 0) = false ∧
    Instr.wf (.warningCrossing (8) 0) = false ∧
    Instr.wf (.bayInsertion (32) 0 dimm) = false ∧
    Instr.wf (.bayInsertion 0 (2) dimm) = false ∧
    Instr.wf (.dimmTemperatureRead 0 [[], [], []]) = false ∧
    Instr.wf (.eventPendingClear .mctp (8) 0#32) = false ∧
    Instr.wf (.counterReprogram .mctp (1024) 0#32) = false ∧
    Instr.wf (.bandwidthWindowConfig .mctp (64) 0#32) = false ∧
    Instr.wf (.perturbationGo .mctp (8)) = false ∧
    Instr.wf (.chrotenModuleUp (53) 0 true) = false ∧
    Instr.wf (.chrotenModuleUp 0 (7) true) = false ∧
    Instr.wf (.chrotenFlitReceive 0 true (256) 0) = false ∧
    Instr.wf (.chrotenFlitReceive 0 true 0 (64)) = false ∧
    Instr.wf (.creditReturn 0 (List.replicate 9 0)) = false ∧
    Instr.wf (.guestMemRd 0 (2 ^ 46) .i) = false ∧
    Instr.wf (.pairWord 0 0#40 0 (65536)) = false ∧
    Instr.wf (.dynamicAddress (some 128)) = false ∧
    Instr.wf (.autoIdleExpiry 0 0 (32)) = false := by decide +kernel

/-! ### The manual's worked examples, and the published vectors of the standards it names -/

/-- Locating a slice (00_scope.md, the worked example after R10): HS37 and CH13. -/
theorem test_slices_are_located : hsSlice 37 * 0x10000 = 0x08250000 ∧ chanSlice 13 * 0x10000 = 0x07150000 := by decide

/-- The home of a page (07_coherence.md, the worked example after R165), on a full part and on one of two memory tiles. -/
theorem test_home_of_a_page : (up 0).home 0x12345 = 26 ∧ { up 0 with otp := { caps1 := 0x20100803#32 } }.home 0x12345 = 26 := by decide

/-- Decoding a device physical address (08_dram_controller.md, the worked example after R199). -/
theorem test_address_is_decoded :
    dimmDecode { dimm with dieGb := 32, ranks := 4 } 0x91A2D6C80 = { bg := 0, ba := 2, cid := 0, row := 0x12345, col := 0x590 } ∧
    0x6791A2D6C80 / 128 = 0x6791A2D6 * 32 + 25 := by decide

/-- The doubled refresh rate (08_dram_controller.md, the worked example of R207): 3.400 owed become 7.759. -/
theorem test_refresh_arrears :
    (({ debt := 222822, m := 1, mNew := some 2, credits := List.replicate 15 2000 : Rank }.credit 2000 3900000).debt * 1000 + 32768) / 65536 = 7759 := by
  decide +kernel

/-- The encoded fragment (05_zw16_compression.md, the worked example after R463): six tokens give the page's words, and no bit is left. -/
theorem test_fragment_is_decoded :
    (match decodeTo builtinBook.codes 2048 6
        { bits := bytesBits [0xA8#8, 0x04#8, 0x00#8, 0x3C#8, 0x42#8, 0x0B#8, 0x54#8, 0x70#8, 0x19#8, 0xCB#8, 0xEF#8], hist := [], left := 2048 } with
    | .ok s => s.bits == [] && s.left == 0 && s.hist.reverse.take 17 == [0, 0, 0, 0, 0x1000, 0x1008, 0x1010, 0x1018, 0x1020, 0x1028, 0x1030,
        0x1038, 0x10A3, 0x1000, 0x1008, 0x1010, 0x1018] && (s.hist.take 2031).all (· == 0)
    | .error _ => false) = true := by decide +kernel

/-- AES-256 (FIPS 197, appendix C.3). -/
theorem test_aes_256 :
    aesEncrypt (roundKeys (List.range 32)) ((List.range 16).map (17 * ·)) =
      [0x8e, 0xa2, 0xb7, 0xca, 0x51, 0x67, 0x45, 0xbf, 0xea, 0xfc, 0x49, 0x90, 0x4b, 0x49, 0x60, 0x89] := by decide +kernel

/-- XTS-AES-256 (IEEE 1619, vector 10): the first two blocks of data unit 0xFF. -/
theorem test_xts_aes_256 :
    let k1 := BitVec.ofNat 256 (leNat (leBytes 32 0x2718281828459045235360287471352662497757247093699959574966967627).reverse)
    let k2 := BitVec.ofNat 256 (leNat (leBytes 32 0x3141592653589793238462643383279502884197169399375105820974944592).reverse)
    xtsEncrypt k1 k2 0xFF 0 ((List.range 32).map fun i => BitVec.ofNat 8 i) =
      (leBytes 32 0x1c3b3a102f770386e4836c99e370cf9bea00803f5e482357a4ae12d414a3e63b).reverse := by decide +kernel

/-- AES-256 GCM (the test cases published with the standard): a zero key and nonce; the tag without data, cut to the
96 bits of R157, and one block of zeros. -/
theorem test_gcm :
    let ks := roundKeys (List.replicate 32 0)
    gcmTag ks (List.replicate 12 0) [] [] =
      [0x53, 0x0f, 0x8a, 0xfb, 0xc7, 0x45, 0x36, 0xb9, 0xa9, 0x63, 0xb4, 0xf1] ∧
    gcmRun ks (List.replicate 12 0) (List.replicate 16 0) =
      [0xce, 0xa7, 0x40, 0x3d, 0x4d, 0x60, 0x6b, 0x6e, 0x07, 0x4e, 0xc5, 0xd3, 0xba, 0xf3, 0x9d, 0x18] := by decide +kernel

end Sys2Proof.Tests
end

namespace Sys2Proof.Machine

open Sys2Proof

/-! ### What every command keeps of the memories, the OTP, the stroke count and the timestamp offset -/

/-- Every state that `x` answers has canonical byte memories and the property `o`. -/
def AnswerKept (o : Keep) (x : Host.Outcome State Fault Refusal) : Prop := ∀ t, x = .next t → Kept o t.dev

section
variable {o : Keep} {s : State} {d : Dev}

theorem AnswerKept.done (h : Kept o d) : AnswerKept o (s.done d) := by
  rintro t ht
  cases ht
  exact h

theorem AnswerKept.pause (h : Kept o s.dev) (i : Instr) : AnswerKept o (s.pause i) := .done (Dev.wake_kept o _ 5 0 h)

theorem AnswerKept.mail {src : Src} {i : Instr} (hs : Kept o s.dev) (h : Kept o d) : AnswerKept o (s.mail src i d) := by
  unfold State.mail
  split
  · exact .pause hs i
  · exact .done h

theorem AnswerKept.spdmMail {i : Instr} (hs : Kept o s.dev) (h : Kept o d) : AnswerKept o (s.spdmMail i d) := by
  unfold State.spdmMail
  split
  · exact .pause hs i
  · exact .done h

end

/-- What a property must allow for command `c` to keep it at `d`: the burns of the four security messages (R316, R318, R320, R321), the
writes of the NVM (R304 to R306), a new timestamp (R459), the loss of the stroke count (R366), and the counts that a cold reset and
a boundary leave (R13, R38). Of every other command it asks nothing. -/
def Keep.Allows (o : Keep) (d : Dev) : Instr → Prop
  | .claimOwnership _ _ | .transferOwnership _ _ | .revokeVendorKey _ _ | .decommission _ _ => o.Burns
  | .stageComplete _ | .validateComplete _ | .commitSlotWritten _ => o.AnyNvm
  | .setTimestamp _ _ => o.AnyStamp
  | .resetCrossing _ _ _ => o.Clears
  | .coldReset _ => KeptMem o d.dram d.nvm d.otp 0 0
  | .strokeBoundary _ => KeptMem o d.dram d.nvm d.otp (d.time.loc + 1) d.time.tsOfs
  | _ => True

/-- Every command keeps both byte memories canonical, and every property that allows it. The commands are taken by kind: those that the
property must allow, a sender's commands and SPDM messages, which may pause (R30), and all others. -/
theorem exec_kept {o : Keep} {c : Instr} {s : State} (ha : o.Allows s.dev c) (h : Kept o s.dev) : AnswerKept o (exec c s) := by
  cases c
  case claimOwnership => exact .spdmMail h (Dev.claimOwnership_kept _ _ _ _ ha h)
  case transferOwnership => exact .spdmMail h (Dev.transferOwnership_kept _ _ _ _ ha h)
  case revokeVendorKey => exact .spdmMail h (Dev.revokeVendorKey_kept _ _ _ _ ha h)
  case decommission => exact .spdmMail h (Dev.decommission_kept _ _ _ _ ha h)
  case stageComplete => exact .done (Dev.stageComplete_kept _ _ _ ha h)
  case validateComplete => exact .done (Dev.validateComplete_kept _ _ _ ha h)
  case commitSlotWritten => exact .done (Dev.commitSlotWritten_kept _ _ _ ha h)
  case setTimestamp => exact .mail h (Dev.setTimestamp_kept _ _ _ _ ha h)
  case resetCrossing => exact .done (Dev.resetCrossing_kept _ _ _ _ _ ha h)
  case coldReset => exact .done (Dev.coldReset_kept _ _ _ ha)
  case strokeBoundary => exact .done (Dev.strokeBoundary_kept _ _ _ ha)
  case pumpAbort | pumpResume | beginTxn | stage | validate | commit | rollback | revert | poolCommit | getChallenge | unlock | relock |
      requestRest | cancelRest | getPowerStatus | clkoutConfiguration | bayPowerStatus | bayPowerOn | bayPowerOff | bayPowerClear |
      thermalResume | eventPendingClear | getEventRecords | clearEventRecords | setEventInterruptPolicy | readCounters | counterReprogram |
      counterOvfClear | bandwidthWindowConfig | perturbationGo | perturbationStop | reattach | rejoinDomain | unsupportedCommand |
      getFwInfo | getTimestamp | getHealthInfo | getPoisonList | clearPoisonList | injectPoison | identifyMemoryDevice | getSupportedLogs |
      getLog | getMultiHeadedInfo | requestAbort | getHarluodIdentity | managementRead | managementWrite | deviceReset |
      getReclaimRequest | releaseRange | releaseRangeComplete | retireRank | getRankStatus | scheduleRegisterWrite | setEndpointId |
      getEndpointId | getMessageTypeSupport | mctpGetVersion | identify | getHeadInfo | getDcdInfo | getHostDcRegionConfig |
      setDcRegionConfig | getDcRegionExtentLists | initiateDcAdd | initiateDcRelease | getSldQosControl | setSldQosControl |
      getSldQosStatus =>
    exact .mail h (by simp [h])
  case setKey | retireDomain | eraseDomain | getDomainStatus | setCertificate | getCertificate | challenge | negotiateAlgorithms |
      keyExchange | keyUpdate | heartbeat | endSession | getMeasurements | spdmGetVersion | getCapabilities | getDigests | finish |
      getEncapsulatedRequest | deliverEncapsulatedResponse =>
    exact .spdmMail h (by simp [h])
  all_goals exact .done (by simp [h])

/-! ### The OTP -/

/-- A property of the OTP alone. -/
def Keep.ofOtp (q : Otp → Prop) : Keep := fun p _ _ _ => q p

/-- The four security messages that burn the OTP (R316, R318, R320, R321). -/
def burnsOtp : Instr → Bool
  | .claimOwnership _ _ | .transferOwnership _ _ | .revokeVendorKey _ _ | .decommission _ _ => true
  | _ => false

/-- A property of the OTP alone stands in the way of no command but the four that burn it. -/
theorem Keep.ofOtp_allows {q : Otp → Prop} {d : Dev} {c : Instr} (hb : burnsOtp c = true → (Keep.ofOtp q).Burns) (h : Kept (.ofOtp q) d) :
    (Keep.ofOtp q).Allows d c := by
  obtain ⟨hm, hq⟩ := h
  unfold Keep.Allows
  split
  case h_1 | h_2 | h_3 | h_4 => exact hb rfl
  case h_5 | h_6 | h_7 => exact fun _ _ _ _ _ hp => hp
  case h_8 => exact fun _ _ _ _ _ hp => hp
  case h_9 => exact fun _ _ _ _ hp => hp
  case h_10 | h_11 => exact ⟨hm, hq⟩
  case h_12 => trivial

theorem exec_otp {q : Otp → Prop} {c : Instr} {s t : State} (hm : OkMem s.dev.dram s.dev.nvm) (hq : q s.dev.otp)
    (hb : burnsOtp c = true → (Keep.ofOtp q).Burns) (ht : exec c s = .next t) : q t.dev.otp :=
  have hk : Kept (.ofOtp q) s.dev := ⟨hm, hq⟩
  (exec_kept (Keep.ofOtp_allows hb hk) hk t ht).2

theorem otpKept_refl (p : Otp) : OtpKept p p :=
  ⟨.inl rfl, BitVec.and_self, List.prefix_rfl, rfl, rfl, rfl, rfl, rfl, rfl, rfl⟩

/-- Settles O10: what an OTP can have come from stands under further burns, and no other command can change the OTP at all. -/
theorem otpIsOnlyBurntBySecurityMessages : Obligations.OtpIsOnlyBurntBySecurityMessages := by
  intro c s t hm ht
  refine ⟨exec_otp (q := OtpKept s.dev.otp) hm (otpKept_refl _) (fun _ _ _ _ _ _ hk hp => otpKept_trans hp hk) ht, ?_⟩
  intro hclaim htransfer hrevoke hdecommission
  refine exec_otp (q := (· = s.dev.otp)) hm rfl (fun hb => ?_) ht
  cases c
  case claimOwnership x r => exact absurd rfl (hclaim x r)
  case transferOwnership x r => exact absurd rfl (htransfer x r)
  case revokeVendorKey x r => exact absurd rfl (hrevoke x r)
  case decommission x r => exact absurd rfl (hdecommission x r)
  all_goals exact absurd hb Bool.false_ne_true

end Sys2Proof.Machine

namespace Sys2Proof.Machine

open Sys2Proof

/-! ### Commands about one head, and MCTP control -/

/-- What a vendor command leaves where it is accepted and its input is well formed (R76, R461). -/
theorem Accepted.leaves_vend {c : Instr} {src : Src} {g : Gate} {p : List Byte} {len zero : Bool} {f : Dev → Dev} {s : State} {d e : Dev}
    (hg : gateOf s.dev c = some (src, g)) (hx : exec c s = s.mail src c (s.dev.gated src g fun d => d.vend src p len zero f))
    (ha : Accepted c s src d) (hp : p.length ≤ 4096) (hl : len = true) (hz : zero = true) (he : f d = e) : Leaves c s e :=
  ha.leaves_mail hg hx ((Dev.vend_of_ok hp hl hz).trans he)

/-- R7: a command about an absent head is refused. -/
theorem Accepted.leaves_absentHead {c : Instr} {src : Src} {h : Nat} {f : Dev → Dev} {s : State} {d : Dev}
    (hg : gateOf s.dev c = some (src, { mctp := true })) (hx : exec c s = s.mail src c (s.dev.aboutHead src h f))
    (ha : Accepted c s src d) (hh : d.nHosts ≤ h) : Leaves c s (d.reply src .invalidInput) :=
  ha.leaves_mail hg hx (if_neg (Nat.not_lt.mpr hh))

theorem Accepted.leaves_presentHead {c : Instr} {src : Src} {h : Nat} {f : Dev → Dev} {s : State} {d e : Dev}
    (hg : gateOf s.dev c = some (src, { mctp := true })) (hx : exec c s = s.mail src c (s.dev.aboutHead src h f))
    (ha : Accepted c s src d) (hh : h < d.nHosts) (he : f d = e) : Leaves c s e :=
  ha.leaves_mail hg hx ((if_pos hh).trans he)

/-- An MCTP control message acts on the device that it woke, while the cores are there (R30, R342). -/
theorem leaves_mctpControl {c : Instr} {s : State} {f : Dev → Dev} {e : Dev} (hx : exec c s = s.mail .mctp c (s.dev.mctpControl f))
    (hc : s.dev.coresGone = false) (he : f (s.dev.wake 5 0) = e) : Leaves c s e := by
  unfold Leaves
  rw [hx, State.mail, Dev.mctpControl, hc, he]
  rfl

/-- SET_SLD_QOS_CONTROL (R80): refused, busy, or kept for the next boundary. -/
theorem Accepted.leaves_setSldQosControl {src : Src} {op mo se hy : Nat} {s : State} {d e : Dev}
    (ha : Accepted (.setSldQosControl src op mo se hy) s src d)
    (he : (if devloadBad op mo se hy || decide (15 < hy) then d.reply src .invalidInput
      else if d.cfg.txn.st != .idle && d.cfg.txn.owner != some src then d.busy104 src
      else { d with cfg := { d.cfg with qos := some (op, mo, se, hy) } }.reply src .success) = e) :
    Leaves (.setSldQosControl src op mo se hy) s e :=
  ha.leaves_mail rfl rfl he

/-- Settles O15: each command is its gates and one conditional, and the conditions of the statement decide it. -/
theorem fmApiSldQosAndMctpControl : Obligations.FmApiSldQosAndMctpControl := by
  refine ⟨?heads, fun src => ⟨.of_mailed (fun _ => rfl) fun _ => rfl, ?qos⟩, ?control⟩
  case heads =>
    intro src h s d c hc ha
    constructor
    · intro hh
      simp only [List.mem_cons, List.not_mem_nil, or_false] at hc
      rcases hc with rfl | rfl | rfl | rfl <;> exact ha.leaves_absentHead rfl rfl hh
    · intro hh
      refine ⟨?_, ?_, ?_, ?_⟩ <;> rintro rfl <;> exact ha.leaves_presentHead rfl rfl hh rfl
  case qos =>
    intro op mo se hy s d ha
    refine ⟨fun hbad => ha.leaves_setSldQosControl ?_, fun hok hhy hst ho => ha.leaves_setSldQosControl ?_,
      fun hok hhy ho => ha.leaves_setSldQosControl ?_⟩
    · exact if_pos (by simpa using hbad)
    · rw [if_neg (by simp [hok, hhy]), if_pos (by simp [hst, ho])]
      rfl
    · rw [if_neg (by simp [hok, hhy]), if_neg (by simpa [or_iff_not_imp_left] using ho)]
  case control =>
    intro s
    refine ⟨fun _ => rfl, fun hc => ⟨fun eid h0 h255 => ?_, fun eid h => ?_, ?_, ?_, ?_⟩⟩
    · exact leaves_mctpControl rfl hc (if_neg (by omega))
    · exact leaves_mctpControl rfl hc (if_pos h)
    · exact leaves_mctpControl rfl hc rfl
    · exact leaves_mctpControl rfl hc rfl
    · exact leaves_mctpControl rfl hc rfl

/-! ### Management Read and Management Write -/

/-- What an accepted Management Read of `w` bytes at `a` leaves (R71). -/
def Dev.answerRead (d : Dev) (src : Src) (a w : Nat) : Dev :=
  if d.accessError a w then d.reply src .invalidInput 0x0101
  else if inGuest a && d.hasGuest then d.guestAccess src false (a % 0x1000000) w 0
  else if inLedger a then d.reply src .success 0 (leBytes 8 (d.led.written.word (a - 0x00800000) w))
  else (d.readEffect a).reply src .success 0 (leBytes 8 ((d.regVal a).elim 0 Prod.snd))

theorem managementRead_leaves {src : Src} {p : List Byte} {s : State} {d e : Dev} (ha : Accepted (.managementRead src p) s src d)
    (hp : p.length = 8) (hz : zeros (sub p 5 3) = true) (he : d.answerRead src (fieldAt p 0 4) (fieldAt p 4 1) = e) :
    Leaves (.managementRead src p) s e :=
  ha.leaves_vend rfl rfl (by omega) (beq_iff_eq.mpr hp) hz he

section
variable {d : Dev} {src : Src} {a w : Nat}

theorem inGuest_and_hasGuest_eq_false (hg : inGuest a = true → d.hasGuest = false) : (inGuest a && d.hasGuest) = false := by
  cases h : inGuest a
  · rfl
  · exact hg h

theorem Dev.answerRead_error (h : d.accessError a w = true) : d.answerRead src a w = d.reply src .invalidInput 0x0101 := if_pos h

theorem Dev.answerRead_guest (h : d.accessError a w = false) (hi : inGuest a = true) (hg : d.hasGuest = true) :
    d.answerRead src a w = d.guestAccess src false (a % 0x1000000) w 0 := by
  simp [Dev.answerRead, h, hi, hg]

theorem Dev.answerRead_ledger (h : d.accessError a w = false) (hg : inGuest a = true → d.hasGuest = false) (hl : inLedger a = true) :
    d.answerRead src a w = d.reply src .success 0 (leBytes 8 (d.led.written.word (a - 0x00800000) w)) := by
  simp [Dev.answerRead, h, inGuest_and_hasGuest_eq_false hg, hl]

theorem Dev.answerRead_register (h : d.accessError a w = false) (hg : inGuest a = true → d.hasGuest = false) (hl : inLedger a = false) :
    d.answerRead src a w = (d.readEffect a).reply src .success 0 (leBytes 8 ((d.regVal a).elim 0 Prod.snd)) := by
  simp [Dev.answerRead, h, inGuest_and_hasGuest_eq_false hg, hl]

/-- A read touches nothing but a rail's minimum and a bandwidth result's mark (R363, R414). -/
theorem Dev.readEffect_frame (d : Dev) (a : Nat) : d.readEffect a = { d with sup := (d.readEffect a).sup, bws := (d.readEffect a).bws } := by
  unfold Dev.readEffect
  split <;> rfl

end

section
variable {d : Dev} {src : Src} {a : Nat} {v : BitVec 32}

theorem Dev.overlayWrite_idle (h : d.cfg.txn.st = .idle) : d.overlayWrite src a v = .error (.invalidInput, 0x0102) := if_pos h

theorem Dev.overlayWrite_other (h : d.cfg.txn.st ≠ .idle) (ho : d.cfg.txn.owner ≠ some src) :
    d.overlayWrite src a v = .error (.invalidInput, 0x0103) := by
  simp [Dev.overlayWrite, h, ho]

theorem Dev.overlayWrite_refused (h : d.cfg.txn.st = .opened) (ho : d.cfg.txn.owner = some src)
    (hc : closedReg a = true ∨ d.changedInRange a v = false) : d.overlayWrite src a v = .error (.invalidInput, 0) := by
  simp [Dev.overlayWrite, h, ho, hc]

theorem Dev.overlayWrite_opened (h : d.cfg.txn.st = .opened) (ho : d.cfg.txn.owner = some src) (hc : closedReg a = false)
    (hr : d.changedInRange a v = true) :
    d.overlayWrite src a v = .ok (d.setTxn fun t => { t with overlay := Tbl.put t.overlay a (d.rwtOf a, v &&& d.rwtOf a) }) := by
  simp [Dev.overlayWrite, h, ho, hc, hr]

theorem Dev.regWrite_error {r : Ret} {x : Nat} (hp : inPert a = false) (hc : d.changesRwt a v = true)
    (ho : d.overlayWrite src a v = .error (r, x)) : d.regWrite src a v = d.reply src r x := by
  simp [Dev.regWrite, hp, hc, ho]

/-- A write taken into the overlay then does what the register's other fields do at once (R71). -/
theorem Dev.regWrite_ok {e : Dev} (hp : inPert a = false) (hc : d.changesRwt a v = true) (ho : d.overlayWrite src a v = .ok e) :
    ∃ r, d.regWrite src a v = (e.sideWrite a v.toNat).1.reply src r := by
  simp only [Dev.regWrite, hp, hc, ho]
  rcases e.sideWrite a v.toNat with ⟨f, _ | r⟩
  · exact ⟨.success, rfl⟩
  · exact ⟨r, rfl⟩

end

/-- What an accepted Management Write of four bytes at `a` leaves (R71). -/
def Dev.answerWrite (d : Dev) (src : Src) (a val : Nat) : Dev :=
  if d.accessError a 4 then d.reply src .invalidInput 0x0101
  else if inGuest a && d.hasGuest then d.guestAccess src true (a % 0x1000000) 4 val
  else match d.regVal a with
    | some (4, _) => d.regWrite src a (BitVec.ofNat 32 val)
    | _ => d.reply src .success

theorem managementWrite_leaves {src : Src} {p : List Byte} {s : State} {d e : Dev} (ha : Accepted (.managementWrite src p) s src d)
    (hp : p.length = 16) (hz : zeros (sub p 5 3) = true) (hw : fieldAt p 4 1 = 4) (hv : zeros (sub p 12 4) = true)
    (he : d.answerWrite src (fieldAt p 0 4) (fieldAt p 8 4) = e) : Leaves (.managementWrite src p) s e := by
  refine ha.leaves_vend rfl rfl (by omega) (beq_iff_eq.mpr hp) (by simp [hz, hv]) ?_
  rw [hw]
  exact he

theorem Dev.answerWrite_unmapped {d : Dev} {src : Src} {a val : Nat} (h : d.accessError a 4 = false)
    (hg : inGuest a = true → d.hasGuest = false) (hr : d.regVal a = none) : d.answerWrite src a val = d.reply src .success := by
  simp [Dev.answerWrite, h, inGuest_and_hasGuest_eq_false hg, hr]

theorem Dev.answerWrite_register {d : Dev} {src : Src} {a val : Nat} (h : d.accessError a 4 = false)
    (hg : inGuest a = true → d.hasGuest = false) (hr : ∃ x, d.regVal a = some (4, x)) :
    d.answerWrite src a val = d.regWrite src a (BitVec.ofNat 32 val) := by
  obtain ⟨x, hx⟩ := hr
  simp [Dev.answerWrite, h, inGuest_and_hasGuest_eq_false hg, hx]

/-- Settles O17: a read by the four kinds of address, a write by what the overlay of the open transaction says to it. -/
theorem managementReadsAndWrites : Obligations.ManagementReadsAndWrites := by
  constructor
  · intro src p s d ha hp hz a w
    refine ⟨fun h => ?_, fun h hi hg => ?_, fun h hg hl => ?_, fun h hg hl hr => ?_, fun n v h hg hl hr => ?_⟩
    · exact managementRead_leaves ha hp hz (Dev.answerRead_error h)
    · exact managementRead_leaves ha hp hz (Dev.answerRead_guest h hi hg)
    · exact managementRead_leaves ha hp hz (Dev.answerRead_ledger h hg hl)
    · refine ⟨d.readEffect a, managementRead_leaves ha hp hz ?_, d.readEffect_frame a⟩
      rw [Dev.answerRead_register h hg hl, hr]
      rfl
    · refine ⟨d.readEffect a, managementRead_leaves ha hp hz ?_, d.readEffect_frame a⟩
      rw [Dev.answerRead_register h hg hl, hr]
      rfl
  · intro src p s d ha hp hz hw hv a v
    refine ⟨fun h => managementWrite_leaves ha hp hz hw hv (if_pos h),
      fun h hg hr => managementWrite_leaves ha hp hz hw hv (Dev.answerWrite_unmapped h hg hr), fun h hg hr hpe hc => ?_⟩
    have key : Leaves (.managementWrite src p) s (d.regWrite src a v) :=
      managementWrite_leaves ha hp hz hw hv (Dev.answerWrite_register h hg hr)
    refine ⟨fun hst => ?_, fun hst ho => ?_, fun hst ho hcl => ?_, fun hst ho hcl hin => ?_⟩
    · rwa [Dev.regWrite_error hpe hc (Dev.overlayWrite_idle hst)] at key
    · rwa [Dev.regWrite_error hpe hc (Dev.overlayWrite_other hst ho)] at key
    · rwa [Dev.regWrite_error hpe hc (Dev.overlayWrite_refused hst ho hcl)] at key
    · obtain ⟨r, hr⟩ := Dev.regWrite_ok hpe hc (Dev.overlayWrite_opened hst ho hcl hin)
      exact ⟨r, hr ▸ key⟩

end Sys2Proof.Machine

namespace Sys2Proof.Machine

open Sys2Proof

/-! ### Frames of a reset and of priming -/

theorem Leaves.of_done {c : Instr} {s : State} {d e : Dev} (h : exec c s = s.done d) (hd : d = e) : Leaves c s e := hd ▸ h

theorem forAll_rel {α : Type} {R : Dev → Dev → Prop} (hr : ∀ d, R d d) (ht : ∀ a b c, R a b → R b c → R a c) {f : Dev → α → Dev}
    (hf : ∀ d x, R d (f d x)) (d : Dev) (xs : List α) : R d (forAll d xs f) := by
  unfold forAll
  induction xs generalizing d with
  | nil => exact hr d
  | cons x xs ih => exact ht _ _ _ (hf d x) (ih _)

theorem forAll_eq_self {α : Type} {f : Dev → α → Dev} {d : Dev} {xs : List α} (h : ∀ x ∈ xs, f d x = d) : forAll d xs f = d := by
  unfold forAll
  induction xs with
  | nil => rfl
  | cons x xs ih =>
    rw [List.foldl_cons, h x List.mem_cons_self]
    exact ih fun y hy => h y (List.mem_cons_of_mem _ hy)

/-- What outlasts a `RESET_N` reset (R13) is in `e` as it was in `d`, and no pending bit is cleared. -/
structure Dev.Outlasts (d e : Dev) : Prop where
  otp : e.otp = d.otp
  loc : e.time.loc = d.time.loc
  ofs : e.time.ofs = d.time.ofs
  dbgEver : e.sec.dbgEver = d.sec.dbgEver
  mismatch : e.cores.mismatch = d.cores.mismatch
  pend : ∀ n, d.Pending n → e.Pending n

namespace Dev.Outlasts

theorem refl (d : Dev) : d.Outlasts d := ⟨rfl, rfl, rfl, rfl, rfl, fun _ h => h⟩

theorem trans {a b c : Dev} (h : a.Outlasts b) (g : b.Outlasts c) : a.Outlasts c :=
  ⟨g.otp.trans h.otp, g.loc.trans h.loc, g.ofs.trans h.ofs, g.dbgEver.trans h.dbgEver, g.mismatch.trans h.mismatch,
    fun n hn => g.pend n (h.pend n hn)⟩

theorem of_eq {d e : Dev} (hotp : e.otp = d.otp) (hloc : e.time.loc = d.time.loc) (hofs : e.time.ofs = d.time.ofs)
    (hdbg : e.sec.dbgEver = d.sec.dbgEver) (hmis : e.cores.mismatch = d.cores.mismatch) (hev : e.ev.pend = d.ev.pend) : d.Outlasts e :=
  ⟨hotp, hloc, hofs, hdbg, hmis, fun n hn => by rwa [Dev.Pending, hev]⟩

theorem of_raised {d e : Dev} (h : d.Raised e) : d.Outlasts e :=
  ⟨congrArg (·.otp) h.bare, congrArg (·.time.loc) h.bare, congrArg (·.time.ofs) h.bare, congrArg (·.sec.dbgEver) h.bare,
    congrArg (·.cores.mismatch) h.bare, h.pend⟩

end Dev.Outlasts

theorem Dev.closeScopes_outlasts (d : Dev) : d.Outlasts d.closeScopes := by
  unfold Dev.closeScopes
  split
  · exact .refl d
  · have hs : ∀ f : SecSt → SecSt, (f d.sec).dbgEver = d.sec.dbgEver → d.Outlasts (d.setSec f) :=
      fun _ h => .of_eq rfl rfl rfl h rfl rfl
    exact (hs _ rfl).trans (.of_raised (Dev.raise_raised _ 175 _ _))

theorem Dev.setSlotState_outlasts (d : Dev) (n v : Nat) : d.Outlasts (d.setSlotState n v) := by
  unfold Dev.setSlotState
  (repeat' split) <;> exact .of_eq rfl rfl rfl rfl rfl rfl

theorem Dev.discardPending_outlasts (d : Dev) : d.Outlasts d.discardPending := by
  refine forAll_rel .refl (fun _ _ _ => .trans) (fun d n => ?_) d _
  split
  · exact d.setSlotState_outlasts n 3
  · exact .refl d

theorem Dev.resetTiles_outlasts (d : Dev) : d.Outlasts d.resetTiles := by
  unfold Dev.resetTiles
  split <;> exact .of_eq rfl rfl rfl rfl rfl rfl

theorem Dev.bootRails_outlasts (d : Dev) : d.Outlasts d.bootRails := by
  have hrail : ∀ (e : Dev) (i : Nat), e.Outlasts (e.setRail i 750) := fun _ _ => .of_eq rfl rfl rfl rfl rfl rfl
  exact (hrail d 0).trans ((hrail _ 1).trans ((hrail _ 2).trans (hrail _ 3)))

theorem Dev.warmReset_outlasts (d : Dev) : d.Outlasts d.warmReset := by
  have hbay : ∀ e : Dev, e.Outlasts e.bayCut := fun _ => .of_eq rfl rfl rfl rfl rfl rfl
  have hlast : d.Outlasts d.closeScopes.discardPending.bayCut.resetTiles.bootRails :=
    d.closeScopes_outlasts.trans <| (Dev.discardPending_outlasts _).trans <| (hbay _).trans <|
      (Dev.resetTiles_outlasts _).trans (Dev.bootRails_outlasts _)
  unfold Dev.warmReset
  generalize d.closeScopes.discardPending.bayCut.resetTiles.bootRails = e at hlast
  exact ⟨hlast.otp, hlast.loc, hlast.ofs, hlast.dbgEver, hlast.mismatch, hlast.pend⟩

/-- What a `RESET_N` reset clears (R13). -/
theorem Dev.warmReset_cleared (d : Dev) : d.warmReset.prim = .unprimed ∧ d.warmReset.acts = [] ∧ d.warmReset.wmap = [] ∧
    d.warmReset.reads = [] ∧ d.warmReset.kdoms = [] ∧ d.warmReset.sec.sessions = [] ∧ d.warmReset.cfg.txn = {} :=
  ⟨rfl, rfl, rfl, rfl, rfl, rfl, rfl⟩

theorem Dev.resetN_pin {d : Dev} (hh : d.resetHeld = false) (hl : d.therm.latched = false) :
    d.resetN true = { d.warmReset with resetHeld := true } := by
  simp [Dev.resetN, hh, hl]

/-- A device that is held in reset, or latched off without an ordered reset, takes no `RESET_N` (R390). -/
theorem Dev.resetN_refused {d : Dev} (b : Bool) (h : d.resetHeld = true ∨ (d.therm.latched = true ∧ d.resetDue = none)) : d.resetN b = d := by
  unfold Dev.resetN
  rcases h with h | ⟨hl, hd⟩
  · exact if_pos (by simp [h])
  · exact if_pos (by simp [hl, hd])

/-- From `d` to `e` the end of priming has left alone what it has already settled: the priming state, the stroke count, the active image,
the registers in force, the capacity, the start of FLOOR_HOLD and the broadcast epoch; and no pending bit is cleared. -/
structure Dev.Settled (d e : Dev) : Prop where
  prim : e.prim = d.prim
  loc : e.time.loc = d.time.loc
  active : e.cfg.active = d.cfg.active
  regs : e.cfg.regs = d.cfg.regs
  capacity : e.cfg.capacity = d.cfg.capacity
  activeAt : e.sec.activeAt = d.sec.activeAt
  epoch : e.cas.epoch = d.cas.epoch
  pend : ∀ n, d.Pending n → e.Pending n

namespace Dev.Settled

theorem refl (d : Dev) : d.Settled d := ⟨rfl, rfl, rfl, rfl, rfl, rfl, rfl, fun _ h => h⟩

theorem trans {a b c : Dev} (h : a.Settled b) (g : b.Settled c) : a.Settled c :=
  ⟨g.prim.trans h.prim, g.loc.trans h.loc, g.active.trans h.active, g.regs.trans h.regs, g.capacity.trans h.capacity,
    g.activeAt.trans h.activeAt, g.epoch.trans h.epoch, fun n hn => g.pend n (h.pend n hn)⟩

theorem of_eq {d e : Dev} (hprim : e.prim = d.prim) (hloc : e.time.loc = d.time.loc) (hact : e.cfg.active = d.cfg.active)
    (hregs : e.cfg.regs = d.cfg.regs) (hcap : e.cfg.capacity = d.cfg.capacity) (hat : e.sec.activeAt = d.sec.activeAt)
    (hep : e.cas.epoch = d.cas.epoch) (hev : e.ev = d.ev) : d.Settled e :=
  ⟨hprim, hloc, hact, hregs, hcap, hat, hep, fun n hn => by rwa [Dev.Pending, hev]⟩

theorem of_raised {d e : Dev} (h : d.Raised e) : d.Settled e :=
  ⟨congrArg (·.prim) h.bare, congrArg (·.time.loc) h.bare, congrArg (·.cfg.active) h.bare, congrArg (·.cfg.regs) h.bare,
    congrArg (·.cfg.capacity) h.bare, congrArg (·.sec.activeAt) h.bare, congrArg (·.cas.epoch) h.bare, h.pend⟩

theorem forAll {α : Type} {f : Dev → α → Dev} (hf : ∀ (d : Dev) x, d.Settled (f d x)) (d : Dev) (xs : List α) :
    d.Settled (Machine.forAll d xs f) :=
  forAll_rel refl (fun _ _ _ => trans) hf d xs

theorem raise {d e : Dev} (h : d.Settled e) (n a b : Nat) : d.Settled (e.raise n a b) := h.trans (.of_raised (e.raise_raised n a b))

end Dev.Settled

theorem Dev.setFrame_settled (d : Dev) (f k : Nat) (m : BitVec 16) : d.Settled (d.setFrame f k m) :=
  .of_eq rfl rfl rfl rfl rfl rfl rfl rfl

theorem Dev.placeRun_settled {d e : Dev} {k r : Nat} {last : List Nat} {m : MetaRun} (h : d.placeRun k r last = some (m, e)) : d.Settled e := by
  have hfr : ∀ (d : Dev) (xs : List Nat), d.Settled (forAll d xs fun d x => d.setFrame x 5 0#16) :=
    .forAll fun d x => d.setFrame_settled x 5 0#16
  unfold Dev.placeRun at h
  extract_lets cs c at h
  split at h
  · cases h
  · split at h
    · cases h
    · extract_lets d1 prank m' at h
      have h1 : d.Settled d1 := hfr d _
      clear_value m' d1
      split at h
      · cases h
        exact h1.trans (hfr d1 _)
      · split at h
        · cases h
        · cases h
          exact h1

theorem Dev.placeRuns_settled {d e : Dev} {k n : Nat} {acc ms : List MetaRun} (h : d.placeRuns k n acc = some (ms, e)) : d.Settled e := by
  induction n generalizing d acc with
  | zero =>
    cases h
    exact .refl _
  | succ n ih =>
    unfold Dev.placeRuns at h
    split at h
    · cases h
    · next hp => exact (Dev.placeRun_settled hp).trans (ih h)

theorem Dev.recompute_settled (d : Dev) (k : Nat) : d.Settled (d.recompute k) := .of_eq rfl rfl rfl rfl rfl rfl rfl rfl

/-- The device with another exposed capacity. -/
def Dev.withCapacity (d : Dev) (cap : Nat) : Dev := { d with cfg := { d.cfg with capacity := cap } }

/-- Step 6 of priming settles the exposed capacity, and nothing else that these fields show (R466). -/
theorem Dev.primeFrames_settled (d : Dev) : (d.withCapacity (capacityOf d.cfg.active.regions d.grants)).Settled d.primeFrames := by
  unfold Dev.primeFrames
  extract_lets d1 cap src d2 d3
  have h1 : d.Settled d1 := .forAll Dev.recompute_settled d _
  have hg : d1.grants = d.grants := by
    unfold Dev.grants Dev.cfgReg
    rw [h1.regs]
  have h2 : (d.withCapacity (capacityOf d.cfg.active.regions d.grants)).Settled d2 := by
    refine ⟨h1.prim, h1.loc, h1.active, h1.regs, ?_, h1.activeAt, h1.epoch, h1.pend⟩
    simp only [d2, cap, h1.active, hg, Dev.withCapacity]
  have h3 : d2.Settled d3 := by
    refine .forAll (fun d k => ?_) d2 _
    split
    · next hr =>
      have hp := Dev.placeRuns_settled hr
      exact ⟨hp.prim, hp.loc, hp.active, hp.regs, hp.capacity, hp.activeAt, hp.epoch, hp.pend⟩
    · exact .refl d
  exact h2.trans (h3.trans (.forAll (fun d k => .raise (.refl d) _ _ _) d3 _))

theorem Dev.checkLimit_settled (d : Dev) : d.Settled d.checkLimit := by
  have hov : ∀ b, d.Settled { d with overLimit := b } := fun _ => .of_eq rfl rfl rfl rfl rfl rfl rfl rfl
  unfold Dev.checkLimit
  split
  · split
    · exact .refl d
    · exact .raise (hov true) _ _ _
  · exact hov false

theorem Dev.syncDoms_settled (d : Dev) : d.Settled d.syncDoms := by
  refine .forAll (fun d g => ?_) d _
  unfold Dev.syncDom
  (repeat' split) <;> exact .of_eq rfl rfl rfl rfl rfl rfl rfl rfl

theorem Dev.freshDomain0_settled (d : Dev) : d.Settled d.freshDomain0 := by
  unfold Dev.freshDomain0
  split <;> exact .of_eq rfl rfl rfl rfl rfl rfl rfl rfl

/-- The epoch drawn at priming is not zero (R270). -/
theorem Dev.freshEpoch_epoch (d : Dev) : d.freshEpoch.cas.epoch ≠ 0#32 := by
  unfold Dev.freshEpoch
  extract_lets w
  dsimp only
  split
  · decide
  · assumption

theorem Dev.exitTimes_settled (d : Dev) : d.Settled d.exitTimes := by
  unfold Dev.exitTimes
  extract_lets c g e2 e3 e4 d1
  have h1 : d.Settled d1 := .of_eq rfl rfl rfl rfl rfl rfl rfl rfl
  split
  · exact h1.raise _ _ _
  · exact h1

theorem Dev.capacityRecord_settled (d : Dev) (h : Nat) : d.Settled (d.capacityRecord h) := .of_raised (Dev.record_raised _ _ _ _ _ _ _ _)

theorem Dev.emit_settled (d : Dev) (o : Out) : d.Settled (d.emit o) := .of_raised (d.emit_raised o)

theorem Dev.setPort_settled (d : Dev) (p : Nat) (f : CPort → CPort) : d.Settled (d.setPort p f) :=
  .of_eq rfl rfl rfl rfl rfl rfl rfl rfl

theorem Dev.sendOn_settled (d : Dev) (p op : Nat) (m : Msg) : d.Settled (d.sendOn p op m) := by
  unfold Dev.sendOn
  extract_lets m' c d1
  split
  · exact (d.setPort_settled p _).trans ((Dev.emit_settled _ _).trans (Dev.emit_settled _ _))
  · have h1 : d.Settled d1 := d.setPort_settled p _
    split
    · exact h1.trans ((d1.setPort_settled p _).trans (Dev.emit_settled _ _))
    · exact h1

theorem Dev.send_settled (d : Dev) (op : Nat) (m : Msg) : d.Settled (d.send op m) := by
  have hr : ∀ f, d.Settled (d.setRoute m.dest f) := fun _ => .of_eq rfl rfl rfl rfl rfl rfl rfl rfl
  unfold Dev.send Dev.sendTo
  split
  · exact hr _
  · split
    · exact (hr _).trans (Dev.sendOn_settled _ _ _ _)
    · exact Dev.Settled.raise (hr _) 156 _ _

theorem Dev.startPull_settled (d : Dev) : d.Settled d.startPull := by
  have hm : ∀ f, d.Settled (d.setMember f) := fun _ => .of_eq rfl rfl rfl rfl rfl rfl rfl rfl
  have hf : ∀ e : Dev, e.Settled e.bumpFree := fun _ => .of_eq rfl rfl rfl rfl rfl rfl rfl rfl
  unfold Dev.startPull
  split
  · exact .refl d
  · exact (hm _).trans ((Dev.emit_settled _ _).trans ((Dev.send_settled _ _ _).trans (hf _)))

/-- Steps 6 to 8 of priming, up to the draw of the fresh key and epoch (R150, R270, R297). -/
def Dev.primeDraw (d : Dev) : Dev :=
  let e := { d with prim := .primed }.primeFrames.checkLimit
  e.syncDoms.freshDomain0.freshEpoch.setSec fun c => { c with dbgEver := false, activeAt := e.time.loc }

/-- The end of priming from there: the exit times, EV040, the capacity records, and the pull of a pool configuration that waits. -/
def Dev.primeAnnounce (d : Dev) : Dev :=
  let t : TimeSt := { d.time with aligned := d.role != 2 }
  let p : PwrSt := { d.pwr with res := [0, 0, 0, 0, 0] }
  let r := { d with time := t, pwr := p }.exitTimes.raise 40 (tileSlice 0)
  let e := forAll r (List.range r.nHosts) Dev.capacityRecord
  if e.pendingSlot.isSome then e.startPull else e

theorem Dev.primed_eq {d : Dev} (hp : d.prim = .priming false) (hr : d.primeReady = true) : d.primed = d.primeDraw.primeAnnounce := by
  unfold Dev.primed
  rw [hp]
  simp only [hr, Bool.not_true, Bool.false_eq_true, if_false]
  rfl

theorem Dev.primeDraw_settled (d : Dev) : d.primeDraw.prim = .primed ∧ d.primeDraw.cfg.capacity = capacityOf d.cfg.active.regions d.grants ∧
    d.primeDraw.sec.activeAt = d.time.loc ∧ d.primeDraw.cas.epoch ≠ 0#32 := by
  have h1 := (Dev.primeFrames_settled { d with prim := .primed }).trans (Dev.checkLimit_settled _)
  have h2 := h1.trans ((Dev.syncDoms_settled _).trans (Dev.freshDomain0_settled _))
  exact ⟨h2.prim, h2.capacity, h1.loc, Dev.freshEpoch_epoch _⟩

theorem Dev.primeAnnounce_settled (d : Dev) : d.Settled d.primeAnnounce ∧ d.primeAnnounce.Pending 40 := by
  unfold Dev.primeAnnounce
  extract_lets time t pwr p r e
  have h1 : d.Settled { d with time := t, pwr := p } := .of_eq rfl rfl rfl rfl rfl rfl rfl rfl
  have h2 : d.Settled r := (h1.trans (Dev.exitTimes_settled _)).raise 40 _ _
  have h3 : r.Settled e := .forAll Dev.capacityRecord_settled r _
  have h4 : d.Settled e := h2.trans h3
  have h40 : e.Pending 40 := h3.pend 40 (Dev.raise_pending _ 40 _ _ (by decide))
  clear_value e
  split
  · exact ⟨h4.trans e.startPull_settled, e.startPull_settled.pend 40 h40⟩
  · exact ⟨h4, h40⟩

/-- PRIMED ends a priming that is ready (R297): the capacity follows from the active image, FLOOR_HOLD starts, a new epoch is drawn and
EV040 is raised. -/
theorem Dev.primed_of_ready {d : Dev} (hp : d.prim = .priming false) (hr : d.primeReady = true) :
    d.primed.prim = .primed ∧ d.primed.Pending 40 ∧ d.primed.cfg.capacity = capacityOf d.cfg.active.regions d.grants ∧
      d.primed.sec.activeAt = d.time.loc ∧ d.primed.cas.epoch ≠ 0#32 := by
  obtain ⟨hprim, hcap, hat, hep⟩ := d.primeDraw_settled
  obtain ⟨hs, h40⟩ := d.primeDraw.primeAnnounce_settled
  rw [Dev.primed_eq hp hr]
  exact ⟨hs.prim.trans hprim, h40, hs.capacity.trans hcap, hs.activeAt.trans hat, hs.epoch ▸ hep⟩

theorem Dev.primed_of_not_ready {d : Dev} (h : d.primeReady = false ∨ ∀ l, d.prim ≠ .priming l) : d.primed = d := by
  unfold Dev.primed
  split
  · next l hp =>
    rcases h with hr | hl
    · exact if_pos (by rw [hr]; rfl)
    · exact absurd hp (hl l)
  · rfl

/-! ### Reset crossings -/

theorem Dev.drainLedger_raised (d : Dev) : d.Raised d.drainLedger := by
  unfold Dev.drainLedger
  split
  · exact .refl d
  · extract_lets q
    have hrec : ∀ (d : Dev) (r : JRec), d.Raised (match d.journal r with | (e, x) => x.foldl (fun d m => (d.raise1 m {}).1) e) := fun d r =>
      (d.journal_raised r).trans (Dev.Raised.foldl (fun d m => d.raise1_raised m {}) _ _)
    refine Dev.Raised.trans ?_ (forAll_rel Dev.Raised.refl (fun _ _ _ => Dev.Raised.trans) hrec _ q)
    exact ⟨rfl, fun _ h => h, List.prefix_rfl⟩

/-- `e` is `d` but for its clock state. -/
def Dev.ClkOnly (d e : Dev) : Prop := ∃ c, e = { d with clk := c }

theorem Dev.ClkOnly.trans {a b c : Dev} (h : a.ClkOnly b) (g : b.ClkOnly c) : a.ClkOnly c := by
  obtain ⟨x, rfl⟩ := h
  obtain ⟨y, rfl⟩ := g
  exact ⟨y, rfl⟩

theorem Dev.resumeRaise_clkOnly (d : Dev) : d.ClkOnly d.resumeRaise := by
  have hrail : ∀ (e : Dev) (i mv : Nat), e.ClkOnly (e.setRail i mv) := fun _ _ _ => ⟨_, rfl⟩
  have hclk : ∀ (e : Dev) (f : ClkSt → ClkSt), e.ClkOnly (e.setClk f) := fun _ _ => ⟨_, rfl⟩
  unfold Dev.resumeRaise
  split
  · exact (hrail d 0 _).trans ((hrail _ 1 _).trans ((hrail _ 2 _).trans ((hclk _ _).trans (hclk _ _))))
  · exact ⟨d.clk, rfl⟩

/-- The end of a brace state (R366) leaves the heads, the cascade ports and the priming state alone. -/
theorem Dev.braceOver_frame (d : Dev) :
    d.braceOver.sup.brace = false ∧ d.braceOver.heads = d.heads ∧ d.braceOver.cas = d.cas ∧ d.braceOver.prim = d.prim := by
  unfold Dev.braceOver
  split
  · next hb => exact ⟨by simpa using hb, rfl, rfl, rfl⟩
  · extract_lets d1
    have hd : d1.bare = _ := (Dev.drainLedger_raised _).bare
    obtain ⟨c, hc⟩ := d1.resumeRaise_clkOnly
    rw [hc]
    exact ⟨congrArg (·.sup.brace) hd, congrArg (·.heads) hd, congrArg (·.cas) hd, congrArg (·.prim) hd⟩

/-- A port tile whose links are all down has none to take down (R366). -/
theorem Dev.tileLinksDown_of_down {d : Dev} {t : Nat} (h : ∀ p ∈ tilePorts t, (d.head p).up = false ∧ (d.port p).st = .down) :
    d.tileLinksDown t = d := by
  have hheads : forAll d (tilePorts t) Dev.hostLinkDown = d :=
    forAll_eq_self fun p hp => if_neg fun hu => by simp [(h p hp).1] at hu
  unfold Dev.tileLinksDown
  extract_lets d1
  have h1 : d1 = d := hheads
  rw [h1]
  exact forAll_eq_self fun p hp => if_pos (h p hp).2

/-- The SerDes rail crosses with its links already down (R366). -/
theorem Dev.resetCrossing_serdes {d : Dev} {t : Nat} (ct : Bool) (hon : d.monitorOn 6 t = true)
    (hdown : ∀ h ∈ tilePorts t, (d.head h).up = false ∧ (d.port h).st = .down) :
    (d.resetCrossing 6 t ct).Pending 2 ∧ t ∈ (d.resetCrossing 6 t ct).sup.held ∧ (d.resetCrossing 6 t ct).sup.latch = some (6, t) ∧
      (d.resetCrossing 6 t ct).sup.brace = false ∧ (d.resetCrossing 6 t ct).prim = d.prim := by
  obtain ⟨hbrace, hheads, hcas, hprim⟩ := d.braceOver_frame
  have hlinks : (d.braceOver.setSup fun s => { s with latch := some (6, t) }).tileLinksDown t =
      d.braceOver.setSup fun s => { s with latch := some (6, t) } :=
    Dev.tileLinksDown_of_down fun p hp => by simpa only [Dev.head, Dev.port, Dev.setSup, hheads, hcas] using hdown p hp
  have heq : d.resetCrossing 6 t ct = ((d.braceOver.setSup fun s => { s with latch := some (6, t) }).raiseI 2
      { slice := tileSlice t, detail := [6, t], must := true }).holdTile t := by
    unfold Dev.resetCrossing
    rw [hon]
    simp only [Bool.not_true, Bool.false_eq_true, if_false, hlinks]
    rfl
  rw [heq]
  generalize hd1 : (d.braceOver.setSup fun s => { s with latch := some (6, t) }) = d1
  have hp2 := d1.raiseI_pending 2 { slice := tileSlice t, detail := [6, t], must := true } (by decide)
  have hb := (d1.raiseI_bare 2 { slice := tileSlice t, detail := [6, t], must := true })
  generalize d1.raiseI 2 { slice := tileSlice t, detail := [6, t], must := true } = d2 at hp2 hb
  subst hd1
  refine ⟨hp2, by simp [Dev.holdTile, Dev.setSup], congrArg (·.sup.latch) hb, (congrArg (·.sup.brace) hb).trans hbrace,
    (congrArg (·.prim) hb).trans hprim⟩

/-! ### Lost modules -/

/-- A module that retrains after its first loss, at stroke `t`. -/
def Mod.retraining (t : Nat) (y : Mod) : Mod := { y with st := 1, rate := 0, repaired := false, leaves := [t] }

/-- A module of another tile than the guest's that goes down for the first time retrains (R419, R425). -/
theorem Dev.moduleDown_first {d : Dev} {m : Nat} (hst : (d.modu m).st = 2) (ht : modTile m ≠ 10) (hl : (d.modu m).leaves = [])
    (hg : (tileMods 10).any (fun j => (d.modu j).st != 4) = true) : d.moduleDown m false = d.setMod m (Mod.retraining d.time.loc) := by
  have hup : (tileMods 10).all (fun j => ((d.setMod m (Mod.retraining d.time.loc)).modu j).st == 4) = false := by
    obtain ⟨j, hj, hne⟩ := List.any_eq_true.mp hg
    refine List.all_eq_false.mpr ⟨j, hj, ?_⟩
    rw [Dev.modu_setMod]
    split
    · simp [Mod.retraining]
    · simpa using hne
  have hset : (d.setMod m fun y => { y with st := 1, rate := 0, repaired := false, leaves := [d.time.loc] }) =
      d.setMod m (Mod.retraining d.time.loc) := rfl
  simp [-Dev.modu_setMod, Dev.moduleDown, hst, hl, ht, hset, hup]

/-! ### Failed PLLs and released tiles -/

/-- The ranks of a channel whose PLL fails go off with it (R352). -/
theorem Dev.pllFailure_ddr {d : Dev} {c : Nat} (hc : c < d.nChans) (hf : (d.chan c).pllFailed = false) :
    ((d.pllFailure (.ddr c)).chan c).pllFailed = true ∧ ((d.pllFailure (.ddr c)).chan c).up = false ∧
      ((d.pllFailure (.ddr c)).chan c).bringUp = [] := by
  have hmon : ∀ (e : Dev) (k : Nat) (f : Mon → Mon) (j : Nat), (e.setMon k f).chan j = e.chan j := fun _ _ _ _ => rfl
  simp only [Dev.pllFailure, hc, hf, Bool.not_false, and_self, if_true]
  split <;> simp [hmon]

/-- A lost SRAM word of any other kind raises EV006, and resets no device that is latched off (R390, R393). -/
theorem Dev.resetFor_latched {d : Dev} {ev slice : Nat} (hl : d.therm.latched = true) : d.resetFor ev slice = d.raise ev slice := by
  have ht : (d.raise ev slice).therm.latched = true := (congrArg (·.therm.latched) (d.raise_bare ev slice 0)).trans hl
  simp [Dev.resetFor, ht]

theorem Raises.of_raise {c : Instr} {s : State} {n slice : Nat} (h : exec c s = s.done (s.dev.raise n slice)) (hn : evClass n ≠ none) :
    Raises c s n s.dev :=
  .of_done h ⟨s.dev.raise_pending n slice 0 hn, s.dev.raise_bare n slice 0⟩

/-- Settles O59: the frames of a reset and of the end of priming above, and one equation for each of the other clauses. -/
theorem resetsCrossingsAndFaults : Obligations.ResetsCrossingsAndFaults := by
  refine ⟨?resetN, fun s b h => .of_done rfl (Dev.resetN_refused b h), ?deassertion, ?coldReset,
    fun d => ⟨fun hg => if_pos hg, fun hg => if_neg (by simp [hg])⟩, ?primed, ?pll, ?crossing, ?sram, ?module⟩
  case resetN =>
    intro s hh hl
    obtain ⟨hprim, hacts, hwmap, hreads, hkd, hses, htxn⟩ := s.dev.warmReset_cleared
    have hk := s.dev.warmReset_outlasts
    exact .of_done (congrArg s.done (Dev.resetN_pin hh hl))
      ⟨rfl, hprim, hacts, hk.otp, hk.loc, hk.ofs, hwmap, hreads, hkd, hses, hk.dbgEver, htxn, hk.mismatch, hk.pend⟩
  case deassertion =>
    intro s st
    refine ⟨fun h => .of_done rfl (if_pos (by simp [h])), fun h hl d hd => .of_done rfl ?_, fun h hl => .of_done rfl ?_⟩
    · subst hd
      simp [Dev.resetNDeassertion, h, hl, Dev.setClk]
    · simp [Dev.resetNDeassertion, h, hl, Dev.setClk]
  case coldReset =>
    rintro s st _ _ rfl rfl
    exact ⟨fun hg => .of_done rfl (congrArg Dev.primeBegin (if_pos hg)),
      fun hg => .of_done rfl (congrArg Dev.primeBegin (if_neg (by rw [hg]; exact Bool.false_ne_true)))⟩
  case primed =>
    exact fun s => ⟨fun h => .of_done rfl (Dev.primed_of_not_ready h), fun hp hr => .of_done rfl (Dev.primed_of_ready hp hr)⟩
  case pll =>
    refine fun s h c t => ⟨fun e he => ?_, fun hc hf => .of_done rfl (Dev.pllFailure_ddr hc hf), rfl,
      fun hm h8 => .of_done rfl (if_pos ?_), fun h8 => .of_done rfl (if_neg (by simp [h8]))⟩
    · cases he
      exact rfl
    · rw [hm, decide_eq_true h8]
      rfl
  case crossing =>
    exact fun s r t ct => ⟨fun h => .of_done rfl (if_pos (by rw [h]; rfl)),
      fun hon hdown => .of_done rfl (Dev.resetCrossing_serdes ct hon hdown)⟩
  case sram =>
    refine fun s t ht => ⟨.of_done rfl ?_, .of_raise (slice := tileSlice t) (congrArg s.done ?_) (by decide), fun g hg => .of_done rfl ?_,
      fun l hl => .of_done rfl ?_, fun hl => .of_raise (slice := tileSlice t) (congrArg s.done ?_) (by decide)⟩
    · simp [Dev.sramPatrol]
    · simp [Dev.sramPatrol, ht]
    · simp [Dev.sramPatrol, ht, hg]
    · simp [Dev.sramPatrol, ht, hl]
    · simp [Dev.sramPatrol, ht, Dev.resetFor_latched hl]
  case module =>
    refine fun s m b => ⟨fun h => .of_done rfl (if_neg (by rcases h with h | h <;> simp [h])), fun hm hst ht hcut hlv hg => .of_done rfl ?_⟩
    have hdown := Dev.moduleDown_first hst ht hlv hg
    rw [hdown] at hcut
    simp only [Dev.chrotenModuleDown, hm, hst, hdown, hcut]
    rfl

end Sys2Proof.Machine

namespace Sys2Proof.Machine

open Sys2Proof

/-! ### The state after cold reset -/

/-- Settles O3: each clause is the value that the field has in the reset state, and memories with nothing listed are in canonical form. -/
theorem stateAfterColdReset : Obligations.StateAfterColdReset :=
  ⟨rfl, rfl, rfl, rfl, rfl, rfl, rfl, fun _ => rfl, rfl, rfl, rfl, rfl, rfl, rfl, rfl, rfl⟩

/-! ### The stroke count and the offset of the timestamp -/

/-- A property of the stroke count and the timestamp offset alone. -/
def Keep.ofTime (q : Nat → Int → Prop) : Keep := fun _ _ l t => q l t

/-- A property of the stroke count and the timestamp offset looks neither at the NVM nor at what is burnt, so only the commands that
write those two must be allowed. -/
theorem exec_time {q : Nat → Int → Prop} {c : Instr} {s t : State} (hm : OkMem s.dev.dram s.dev.nvm) (hq : q s.dev.time.loc s.dev.time.tsOfs)
    (hstamp : (∃ src v, c = .setTimestamp src v) → ∀ l t u, q l t → q l u)
    (hcross : (∃ r x ct, c = .resetCrossing r x ct) → ∀ l t, q l t → q 0 t)
    (hcold : (∃ x, c = .coldReset x) → q 0 0)
    (hstroke : (∃ x, c = .strokeBoundary x) → q (s.dev.time.loc + 1) s.dev.time.tsOfs)
    (ht : exec c s = .next t) : q t.dev.time.loc t.dev.time.tsOfs := by
  have hk : Kept (.ofTime q) s.dev := ⟨hm, hq⟩
  have ha : (Keep.ofTime q).Allows s.dev c := by
    unfold Keep.Allows
    split
    case h_1 | h_2 | h_3 | h_4 => exact fun _ _ _ _ _ _ h => h
    case h_5 | h_6 | h_7 => exact fun _ _ _ _ _ h => h
    case h_8 => exact fun _ _ l t u h => hstamp ⟨_, _, rfl⟩ l t u h
    case h_9 => exact fun _ _ l t h => hcross ⟨_, _, _, rfl⟩ l t h
    case h_10 => exact ⟨hm, hcold ⟨_, rfl⟩⟩
    case h_11 => exact ⟨hm, hstroke ⟨_, rfl⟩⟩
    case h_12 => trivial
  exact (exec_kept ha hk t ht).2

/-- Settles O8: the stroke count and the timestamp offset are a property that every other command keeps, and a boundary and a cold reset
leave the values stated. -/
theorem onlyBoundariesCountStrokes : Obligations.OnlyBoundariesCountStrokes := by
  refine ⟨fun c s t hm ht => ⟨?boundary, ?others, ?crossing, ?cold, ?stamp⟩, ?idle⟩
  case boundary =>
    rintro x rfl
    cases ht
    exact (Dev.strokeBoundary_kept (.ofTime fun l _ => l = s.dev.time.loc + 1) _ x ⟨hm, rfl⟩).2
  case others =>
    intro hstroke hcold hcross
    refine exec_time (q := fun l _ => l = s.dev.time.loc) hm rfl (fun _ _ _ _ h => h) ?_ ?_ ?_ ht
    · exact fun ⟨r, x, ct, h⟩ => absurd h (hcross r x ct)
    · exact fun ⟨x, h⟩ => absurd h (hcold x)
    · exact fun ⟨x, h⟩ => absurd h (hstroke x)
  case crossing =>
    rintro r x ct rfl
    exact exec_time (q := fun l _ => l = s.dev.time.loc ∨ l = 0) hm (.inl rfl) (fun _ _ _ _ h => h) (fun _ _ _ _ => .inr rfl)
      (fun _ => .inr rfl) (fun ⟨_, h⟩ => nomatch h) ht
  case cold =>
    rintro x rfl
    cases ht
    exact (Dev.coldReset_kept (.ofTime fun l u => l = 0 ∧ u = 0) _ x ⟨hm, rfl, rfl⟩).2
  case stamp =>
    intro hset hcold
    refine exec_time (q := fun _ u => u = s.dev.time.tsOfs) hm rfl ?_ (fun _ _ _ h => h) ?_ (fun _ => rfl) ht
    · exact fun ⟨src, v, h⟩ => absurd h (hset src v)
    · exact fun ⟨x, h⟩ => absurd h (hcold x)
  case idle =>
    intro s t hp hq ht
    have hidle : step s = .next s := by simp [step, idle, hp, hq]
    cases hidle.symm.trans ht
    rfl

end Sys2Proof.Machine

namespace Sys2Proof.Machine

open Sys2Proof

/-! ### Which commands touch stored data -/

/-- Every state that `x` answers has stored data of the property `o`. -/
def AnswerHeld (o : Store) (x : Host.Outcome State Fault Refusal) : Prop := ∀ t, x = .next t → Held o t.dev

section
variable {o : Store} {s : State} {d : Dev}

theorem AnswerHeld.done (h : Held o d) : AnswerHeld o (s.done d) := by
  rintro t ht
  cases ht
  exact h

theorem AnswerHeld.pause (h : Held o s.dev) (i : Instr) : AnswerHeld o (s.pause i) := .done (Dev.wake_held o _ 5 0 h)

theorem AnswerHeld.mail {src : Src} {i : Instr} (hs : Held o s.dev) (h : Held o d) : AnswerHeld o (s.mail src i d) := by
  unfold State.mail
  split
  · exact .pause hs i
  · exact .done h

theorem AnswerHeld.spdmMail {i : Instr} (hs : Held o s.dev) (h : Held o d) : AnswerHeld o (s.spdmMail i d) := by
  unfold State.spdmMail
  split
  · exact .pause hs i
  · exact .done h

end

/-- Every command but those that `storesOf` names keeps every property of the stored data. The commands are taken by kind: those named,
a sender's commands and SPDM messages, which may pause (R30), and all others. -/
theorem exec_held {o : Store} {c : Instr} {s : State} (hc : storesOf c = false) (h : Held o s.dev) : AnswerHeld o (exec c s) := by
  cases c
  case coldReset | resetN | perstAssertion | strokeBoundary | activation | poolOffsetRewrite | hostLinkDown |
      m2sMemRd | m2sMemRdData | m2sMemInv | m2sMemInvNT | m2sMemWr | m2sMemWrPtl | m2sMemClnEvct | m2sBIRsp | readCompletion |
      inlinePromotionEnd | cisternEviction | keepExpiry | clearPoisonList | injectPoison | managementWrite | sweepStep | heatDecayPass |
      pumpJobStart | decoderAvailable | fenceComplete | fenceAbandon | commitPhase | pumpResume | setKey | retireDomain |
      eraseDomain | eraseInvalidationDone | getDomainStatus | arbiterAdmission | transactionAcknowledged | dramReadReturn | scrubRead |
      evacuationWalk | evacuationRetry | terdyMemRd | terdyMemRdData | terdyMemInv | terdyMemInvNT | terdyMemWr | terdyMemWrPtl |
      terdyMemClnEvct | terdyMemWrRetried | terdyMemWrPtlRetried | terdyBIRsp | pageFetch | pageData | pageAck | pageFree | remoteTimeout |
      entryStep | pllFailure | resetCrossing | bayGood | sramPatrol | chrotenModuleDown | guestMemRd | guestMemRdData | guestMemInv |
      guestMemInvNT | guestMemWr | guestMemWrPtl | guestMemClnEvct | guestBIRsp | writeBurst | clockMonitorWindow | pushReply =>
    cases hc
  case pumpAbort | beginTxn | stage | validate | commit | rollback | revert | poolCommit | getChallenge | unlock | relock |
      requestRest | cancelRest | getPowerStatus | clkoutConfiguration | bayPowerStatus | bayPowerOn | bayPowerOff | bayPowerClear |
      thermalResume | eventPendingClear | getEventRecords | clearEventRecords | setEventInterruptPolicy | readCounters | counterReprogram |
      counterOvfClear | bandwidthWindowConfig | perturbationGo | perturbationStop | reattach | rejoinDomain | unsupportedCommand |
      getFwInfo | getTimestamp | setTimestamp | getHealthInfo | getPoisonList | identifyMemoryDevice | getSupportedLogs |
      getLog | getMultiHeadedInfo | requestAbort | getHarluodIdentity | managementRead | deviceReset |
      getReclaimRequest | releaseRange | releaseRangeComplete | retireRank | getRankStatus | scheduleRegisterWrite | setEndpointId |
      getEndpointId | getMessageTypeSupport | mctpGetVersion | identify | getHeadInfo | getDcdInfo | getHostDcRegionConfig |
      setDcRegionConfig | getDcRegionExtentLists | initiateDcAdd | initiateDcRelease | getSldQosControl | setSldQosControl |
      getSldQosStatus =>
    exact .mail h (by simp [h])
  case claimOwnership | transferOwnership | revokeVendorKey | decommission | setCertificate | getCertificate | challenge |
      negotiateAlgorithms | keyExchange | keyUpdate | heartbeat | endSession | getMeasurements | spdmGetVersion | getCapabilities |
      getDigests | finish | getEncapsulatedRequest | deliverEncapsulatedResponse =>
    exact .spdmMail h (by simp [h])
  all_goals exact .done (by simp [h])

/-- Settles O12: the stored data that a command starts from is a property that it keeps. -/
theorem onlyNamedCommandsTouchStoredData : Obligations.OnlyNamedCommandsTouchStoredData := by
  intro c s t hc ht
  have hk : Held (fun dram cist wmap poison => dram = s.dev.dram ∧ cist = s.dev.cist ∧ wmap = s.dev.wmap ∧ poison = s.dev.poison) s.dev :=
    ⟨rfl, rfl, rfl, rfl⟩
  obtain ⟨hdram, hcist, hwmap, hpoison⟩ := exec_held hc hk t ht
  refine ⟨fun a => by rw [hdram], hdram, hcist, hwmap, hpoison, fun page => ?_⟩
  unfold Dev.entry
  rw [hwmap]

end Sys2Proof.Machine

namespace Sys2Proof.Machine

open Sys2Proof

/-! ### Gates -/

theorem Dev.bayPower_gated (d : Dev) (src : Src) (p : List Byte) (f : Dev → Nat → Dev) : d.bayPower src p f =
    d.gated src { manager := true } fun d => d.vend src p (p.length == 8) (zeros (sub p 2 6)) fun d =>
      if fieldAt p 0 1 < d.nBays then f d (fieldAt p 0 1) else d.reply src .invalidInput := rfl

theorem Dev.aboutHead_gated (d : Dev) (src : Src) (h : Nat) (f : Dev → Dev) : d.aboutHead src h f =
    d.gated src { mctp := true } fun d => if h < d.nHosts then f d else d.reply src .invalidInput := rfl

/-- Every command that comes by mailbox or CCI runs behind the gates that `gateOf` names, and may pause over MCTP (R30). -/
theorem exec_gated {c : Instr} {s : State} {src : Src} {g : Gate} (h : gateOf s.dev c = some (src, g)) :
    ∃ f, exec c s = s.mail src c (s.dev.gated src g f) := by
  cases c
  case bayPowerStatus | bayPowerOn | bayPowerOff | bayPowerClear =>
    cases h
    exact ⟨_, congrArg (s.mail _ _) (Dev.bayPower_gated _ _ _ _)⟩
  case getHeadInfo | getHostDcRegionConfig | setDcRegionConfig | getDcRegionExtentLists =>
    cases h
    exact ⟨_, congrArg (s.mail _ _) (Dev.aboutHead_gated _ _ _ _)⟩
  case unsupportedCommand | getFwInfo | getTimestamp | setTimestamp | getEventRecords | clearEventRecords | setEventInterruptPolicy |
      getHealthInfo | getPoisonList | clearPoisonList | injectPoison | identifyMemoryDevice | getSupportedLogs | getLog |
      getMultiHeadedInfo | addDcResponse | releaseDc | requestAbort | getHarluodIdentity | managementRead | managementWrite |
      deviceReset | thermalResume | beginTxn | stage | validate | commit | rollback | revert | poolCommit | requestRest | cancelRest |
      getPowerStatus | getReclaimRequest | releaseRange | retireRank | getRankStatus | rejoinDomain | getChallenge | unlock | relock |
      scheduleRegisterWrite | readCounters | identify | getDcdInfo | initiateDcAdd | initiateDcRelease | getSldQosControl |
      setSldQosControl | getSldQosStatus =>
    cases h
    exact ⟨_, rfl⟩
  all_goals cases h

section
variable {c : Instr} {s : State} {src : Src} {g : Gate} {r : Ret} {e : Nat}

/-- A command that a gate turns away, and that does not pause, leaves nothing but its completion. -/
theorem leaves_of_gateStop (hg : gateOf s.dev c = some (src, g)) (hsrc : s.dev.srcOk src = true)
    (hgone : s.dev.coresGone = true → src ≠ .mctp) (h : (s.dev.heard src g).gateStop src g = some (r, e)) :
    Leaves c s ((s.dev.heard src g).reply src r e) := by
  obtain ⟨f, hf⟩ := exec_gated hg
  have hm : ¬(src = .mctp ∧ s.dev.coresGone = true) := fun ⟨h1, h2⟩ => hgone h2 h1
  rw [Leaves, hf, State.mail, if_neg hm, Dev.gated_of_stop hsrc h]
  rfl

/-- A command over MCTP waits while the management cores are away (R30). -/
theorem leaves_paused (hg : gateOf s.dev c = some (.mctp, g)) (hgone : s.dev.coresGone = true) :
    Leaves c s { s.dev.wake 5 0 with cores := { (s.dev.wake 5 0).cores with paused := (s.dev.wake 5 0).cores.paused ++ [c] } } := by
  obtain ⟨f, hf⟩ := exec_gated hg
  rw [Leaves, hf, State.mail, if_pos ⟨rfl, hgone⟩]
  rfl

/-- The input of a vendor command that is not as long as it must be (R461). -/
theorem Accepted.leaves_wrongLength {p : List Byte} {len zero : Bool} {f : Dev → Dev} {d : Dev} (hg : gateOf s.dev c = some (src, g))
    (hx : exec c s = s.mail src c (s.dev.gated src g fun d => d.vend src p len zero f)) (ha : Accepted c s src d)
    (hp : p.length ≤ 4096) (hl : len = false) : Leaves c s (d.reply src .invalidPayloadLength) :=
  ha.leaves_mail hg hx (Dev.vend_of_short hp hl)

end

section
variable {d : Dev} {src : Src} {g : Gate}

theorem Dev.gateStop_gone (h : d.coresGone = true) : d.gateStop src g = some (.busy, 0) := if_pos h

theorem Dev.gateStop_latched (h : d.coresGone = false) (ht : d.therm.latched = true) (hg : g.latched = false) :
    d.gateStop src g = some (.busy, 0) := by
  simp [Dev.gateStop, h, ht, hg]

variable (h : d.coresGone = false) (ht : d.therm.latched = true → g.latched = true)
include h ht

theorem Dev.gateStop_mctpOnly (hm : g.mctp = true) (hs : src ≠ .mctp) : d.gateStop src g = some (.unsupported, 0) := by
  have ht' : ¬(d.therm.latched = true ∧ g.latched = false) := fun ⟨h1, h2⟩ => by simp [ht h1] at h2
  simp [Dev.gateStop, h, ht', hm, hs]

theorem Dev.gateStop_unprimed (hm : g.mctp = true → src = .mctp) (hp : d.prim ≠ .primed) (hu : g.unprimed = false) :
    d.gateStop src g = some (.unsupported, 0x0107) := by
  have ht' : ¬(d.therm.latched = true ∧ g.latched = false) := fun ⟨h1, h2⟩ => by simp [ht h1] at h2
  have hm' : ¬(g.mctp = true ∧ src ≠ .mctp) := fun ⟨h1, h2⟩ => h2 (hm h1)
  simp [Dev.gateStop, h, ht', hm', hp, hu]

theorem Dev.gateStop_rights (hm : g.mctp = true → src = .mctp) (hp : d.prim ≠ .primed → g.unprimed = true) (hg : g.manager = true)
    (hr : d.mgr src = false) : d.gateStop src g = some (.invalidInput, 0x0108) := by
  have ht' : ¬(d.therm.latched = true ∧ g.latched = false) := fun ⟨h1, h2⟩ => by simp [ht h1] at h2
  have hm' : ¬(g.mctp = true ∧ src ≠ .mctp) := fun ⟨h1, h2⟩ => h2 (hm h1)
  have hp' : ¬(d.prim ≠ .primed ∧ g.unprimed = false) := fun ⟨h1, h2⟩ => by simp [hp h1] at h2
  simp [Dev.gateStop, h, ht', hm', hp', hg, hr]

end

/-- Settles O13: the gates in their order, and the length that each vendor command's input must have. -/
theorem gatesTurnCommandsAway : Obligations.GatesTurnCommandsAway := by
  constructor
  · intro c s src g hg hsrc d
    have hgone : d.coresGone = s.dev.coresGone := s.dev.heard_coresGone src g
    have hstop : ∀ {r e}, (d.coresGone = true → src ≠ .mctp) → d.gateStop src g = some (r, e) → Leaves c s (d.reply src r e) := fun hm h =>
      leaves_of_gateStop hg hsrc (fun hc => hm (hgone.trans hc)) h
    have hback : d.coresGone = false → d.coresGone = true → src ≠ .mctp := fun h h' => by simp [h] at h'
    refine ⟨fun h hm => hstop (fun _ => hm) (Dev.gateStop_gone h), ?paused, fun h ht hl => hstop (hback h) (Dev.gateStop_latched h ht hl),
      fun h ht hm hs => hstop (hback h) (Dev.gateStop_mctpOnly h ht hm hs),
      fun h ht hm hp hu => hstop (hback h) (Dev.gateStop_unprimed h ht hm hp hu),
      fun h ht hm hp hr hn => hstop (hback h) (Dev.gateStop_rights h ht hm hp hr hn)⟩
    rintro h rfl e rfl
    exact leaves_paused hg (hgone.symm.trans h)
  · intro s src p c n hc hn hp d ha
    simp only [List.mem_cons, List.not_mem_nil, or_false, Prod.mk.injEq] at hc
    rcases hc with ⟨rfl, rfl⟩ | ⟨rfl, rfl⟩ | ⟨rfl, rfl⟩ | ⟨rfl, rfl⟩ | ⟨rfl, rfl⟩ | ⟨rfl, rfl⟩ | ⟨rfl, rfl⟩ | ⟨rfl, rfl⟩ | ⟨rfl, rfl⟩ |
      ⟨rfl, rfl⟩ | ⟨rfl, rfl⟩ | ⟨rfl, rfl⟩ | ⟨rfl, rfl⟩ | ⟨rfl, rfl⟩ | ⟨rfl, rfl⟩ | ⟨rfl, rfl⟩ | ⟨rfl, rfl⟩ | ⟨rfl, rfl⟩ | ⟨rfl, rfl⟩ |
      ⟨rfl, rfl⟩ | ⟨rfl, rfl⟩ | ⟨rfl, rfl⟩ | ⟨rfl, rfl⟩ <;>
      exact ha.leaves_wrongLength rfl rfl hp (by simpa using hn)

end Sys2Proof.Machine

namespace Sys2Proof.Machine

open Sys2Proof

/-! ### SPDM messages -/

section
variable {d : Dev} {x : Sess} {f : Dev → Dev}

theorem Dev.spdm_of_heard (h : d.SpdmHeard x) : d.spdm x f = f d := by
  obtain ⟨htr, hgone, hlife⟩ := h
  simp [Dev.spdm, htr, hgone, hlife]

theorem Dev.negotiated_of_heard (h : d.SpdmHeard x) :
    d.negotiated x f = if d.sec.negotiated.contains x.tr then f d else d.emit (.spdm x 1 []) := Dev.spdm_of_heard h

theorem Dev.handshake_of_heard {y : Session} (h : d.SpdmHeard x) (hy : d.session x = some y) (hf : y.finished = false) :
    d.handshake x f = f d := by
  rw [Dev.handshake, Dev.spdm_of_heard h]
  simp [hy, hf]

/-- In a finished session, over another transport than MCTP, whose messages wake (R326, R342). -/
theorem Dev.secured_of_inSession (h : d.SpdmHeard x) (htr : x.tr ≠ .mctp) (hs : d.InSession x) : d.secured x f = f d := by
  obtain ⟨y, hy, hf⟩ := hs
  rw [Dev.secured, Dev.spdm_of_heard h]
  simp [htr, hy, hf]

theorem Dev.secured_of_not_inSession (h : d.SpdmHeard x) (htr : x.tr ≠ .mctp) (hs : ¬d.InSession x) :
    d.secured x f = d.emit (.spdm x 1 []) := by
  rw [Dev.secured, Dev.spdm_of_heard h]
  simp only [htr, if_false]
  split
  · next y hy => exact if_neg fun hf => hs ⟨y, hy, hf⟩
  · rfl

end

section
variable {c : Instr} {s : State} {d : Dev}

theorem leaves_spdmMail (hx : exec c s = s.spdmMail c d) (hc : s.dev.coresGone = false) : Leaves c s d := by
  rw [Leaves, hx, State.spdmMail, hc]
  rfl

theorem leaves_spdmPaused (hx : exec c s = s.spdmMail c d) (hc : s.dev.coresGone = true) :
    Leaves c s { s.dev.wake 5 0 with cores := { (s.dev.wake 5 0).cores with paused := (s.dev.wake 5 0).cores.paused ++ [c] } } := by
  rw [Leaves, hx, State.spdmMail, hc]
  rfl

/-- A message on the session `x` that the responder hears. -/
theorem leaves_heard {x : Sess} {e : Dev} (h : s.dev.SpdmHeard x) (hx : exec c s = s.spdmMail c d) (he : d = e) : Leaves c s e :=
  he ▸ leaves_spdmMail hx h.2.1

end

/-- The SPDM messages on the session `x` that open, negotiate and use it (R322 to R327). -/
def spdmMessages (x : Sess) (ok : Bool) (i a b : Nat) (n : List Byte) (r : BitVec 256) : List Instr :=
  [.spdmGetVersion x, .getCapabilities x, .negotiateAlgorithms x ok, .getDigests x, .getCertificate x i a b, .challenge x i n,
    .keyExchange x, .getMeasurements x i, .finish x ok, .keyUpdate x, .heartbeat x, .endSession x, .getEncapsulatedRequest x,
    .deliverEncapsulatedResponse x r ok, .setCertificate x i n]

theorem Dev.negotiated_spdm (d : Dev) (x : Sess) (f : Dev → Dev) : ∃ k, d.negotiated x f = d.spdm x k := ⟨_, rfl⟩
theorem Dev.handshake_spdm (d : Dev) (x : Sess) (f : Dev → Dev) : ∃ k, d.handshake x f = d.spdm x k := ⟨_, rfl⟩
theorem Dev.secured_spdm (d : Dev) (x : Sess) (f : Dev → Dev) : ∃ k, d.secured x f = d.spdm x k := ⟨_, rfl⟩

/-- Each of them is a request that must reach the responder. -/
theorem exec_spdm (x : Sess) (ok : Bool) (i a b : Nat) (n : List Byte) (r : BitVec 256) (s : State) :
    ∀ c ∈ spdmMessages x ok i a b n r, ∃ f, exec c s = s.spdmMail c (s.dev.spdm x f) := by
  have via : ∀ {c : Instr} {e : Dev}, exec c s = s.spdmMail c e → (∃ k, e = s.dev.spdm x k) → ∃ f, exec c s = s.spdmMail c (s.dev.spdm x f) :=
    fun hx ⟨k, hk⟩ => ⟨k, hk ▸ hx⟩
  have neg := s.dev.negotiated_spdm x
  have hand := s.dev.handshake_spdm x
  have sec := s.dev.secured_spdm x
  simp only [spdmMessages, List.forall_mem_cons]
  exact ⟨⟨_, rfl⟩, ⟨_, rfl⟩, ⟨_, rfl⟩, via rfl (neg _), via rfl (neg _), via rfl (neg _), via rfl (neg _), via rfl (neg _),
    via rfl (hand _), via rfl (sec _), via rfl (sec _), via rfl (sec _), via rfl (hand _), via rfl (hand _), ⟨_, rfl⟩,
    fun _ h => absurd h List.not_mem_nil⟩

theorem Dev.session_dropSession (d : Dev) (x : Sess) : (d.dropSession x).session x = none := by
  simp [Dev.dropSession, Dev.session, Dev.setSec]

/-- A session that is not open yet, on a transport with a session to spare (R326). -/
theorem Dev.keyExchange_opens {d : Dev} {x : Sess} (h : d.SpdmHeard x) (hn : d.sec.negotiated.contains x.tr = true) (hid : x.id ≠ 0)
    (hs : d.session x = none) (hl : (d.sec.sessions.filter fun y => y.sess.tr == x.tr).length < sessionLimit x.tr) :
    d.keyExchange x = ({ d.setSec fun c => { c with sessions := c.sessions ++ [({ sess := x } : Session)] } with free := d.free + 1 }).emit
      (.spdm x 0 (digestBytes (Config.freeKey d.free) ++ d.aliasSign (digestBytes (Config.freeKey d.free)))) := by
  have hopen : ¬(x.id = 0 ∨ (d.session x).isSome = true) := by simp [hid, hs]
  rw [Dev.keyExchange, Dev.negotiated_of_heard h, if_pos hn]
  simp only [hopen, if_false, ge_iff_le, Nat.not_le.mpr hl]
  rfl

/-- A peer over a link whose chain does not end in the pool's owner root loses its session with EV176 (R325). -/
theorem Dev.deliverEncapsulatedResponse_refused {d : Dev} {x : Sess} {y : Session} {p : Nat} {r : BitVec 256} (h : d.SpdmHeard x)
    (hy : d.session x = some y) (hf : y.finished = false) (htr : x.tr = .link p) (hr : d.cfg.active.poolRoot ≠ some r ∨ d.led.chain = []) :
    d.deliverEncapsulatedResponse x r true = ((d.dropSession x).raise 176 (portSlice p)).emit (.spdm x 2 []) := by
  rw [Dev.deliverEncapsulatedResponse, Dev.handshake_of_heard h hy hf, htr]
  rcases hr with hr | hr <;> simp [hr]

/-- Settles O36: what reaches the responder, what it answers before and after the algorithms are negotiated, within a handshake, and
within a session. -/
theorem spdmResponderAnswers : Obligations.SpdmResponderAnswers := by
  refine ⟨?reached, ?fresh, ?negotiated, ?handshake, ?session⟩
  case reached =>
    intro x ok i a b n r s c hc
    obtain ⟨f, hf⟩ := exec_spdm x ok i a b n r s c hc
    refine ⟨fun hg d hd => ?_, fun htr hg => ?_, fun htr hg hl => ?_⟩
    · subst hd
      exact leaves_spdmPaused hf hg
    · have hd : s.dev.spdm x f = s.dev := if_pos (by simp [htr])
      exact hd ▸ leaves_spdmMail hf hg
    · have hd : s.dev.spdm x f = s.dev.emit (.spdm x 4 []) := by simp [Dev.spdm, htr, hg, hl]
      exact hd ▸ leaves_spdmMail hf hg
  case fresh =>
    intro x s h
    refine ⟨leaves_heard h rfl (Dev.spdm_of_heard h), leaves_heard h rfl (Dev.spdm_of_heard h), ?_,
      leaves_heard h rfl (Dev.spdm_of_heard h), fun hn i a b n c hc => ?_⟩
    · refine ⟨_, leaves_heard h rfl (Dev.spdm_of_heard h), rfl, ?_, rfl⟩
      show x.tr ∈ if s.dev.sec.negotiated.contains x.tr then s.dev.sec.negotiated else x.tr :: s.dev.sec.negotiated
      split
      · next hc => exact List.contains_iff_mem.mp hc
      · exact List.mem_cons_self
    · have hneg : ∀ f, s.dev.negotiated x f = s.dev.emit (.spdm x 1 []) := fun f =>
        (Dev.negotiated_of_heard h).trans (if_neg (by rw [hn]; exact Bool.false_ne_true))
      simp only [List.mem_cons, List.not_mem_nil, or_false] at hc
      rcases hc with rfl | rfl | rfl | rfl | rfl <;> exact leaves_heard h rfl (hneg _)
  case negotiated =>
    intro x s h hn
    have hneg : ∀ f, s.dev.negotiated x f = f s.dev := fun f => (Dev.negotiated_of_heard h).trans (if_pos hn)
    refine ⟨fun h1 h0 => leaves_heard h rfl ((hneg _).trans ?_), fun i a b hl => leaves_heard h rfl ((hneg _).trans (if_pos hl)),
      fun i a b hl n hn => leaves_heard h rfl ((hneg _).trans ?_), fun i nonce hc body hb => leaves_heard h rfl ((hneg _).trans ?_),
      fun i h8 h255 => leaves_heard h rfl ((hneg _).trans ?_), fun i h0 h8 body hb => leaves_heard h rfl ((hneg _).trans ?_),
      fun hid hs hl => ?_, fun hid hs hl => leaves_heard h rfl ((hneg _).trans ?_)⟩
    · simp [h1, h0, leBytes]
    · rw [if_neg (Nat.not_le.mpr hl), hn]
    · rw [if_neg hc, hb]
      rfl
    · rw [if_neg (by omega), if_pos (by simp [h8, h255])]
    · have hi : i ≠ 255 := by omega
      simp [Nat.pos_iff_ne_zero.mp h0, h8, hi, hb]
      rfl
    · refine ⟨_, leaves_heard h rfl (Dev.keyExchange_opens h hn hid hs hl), rfl, ?_, _, _, [], rfl⟩
      show (s.dev.sec.sessions ++ [({ sess := x } : Session)]).find? (·.sess == x) = _
      rw [List.find?_append, show s.dev.sec.sessions.find? (·.sess == x) = none from hs]
      simp
    · rw [if_neg (by simp [hid, hs]), if_pos hl]
  case handshake =>
    intro x s h y hy hf
    have hhand : ∀ f, s.dev.handshake x f = f s.dev := fun f => Dev.handshake_of_heard h hy hf
    refine ⟨leaves_heard h rfl (hhand _), leaves_heard h rfl (hhand _), leaves_heard h rfl (hhand _), fun p r htr hr => ?_,
      fun p r htr hr hc => leaves_heard h rfl ((hhand _).trans ?_), fun r htr => leaves_heard h rfl ((hhand _).trans ?_)⟩
    · refine .of_done (leaves_heard h rfl (Dev.deliverEncapsulatedResponse_refused h hy hf htr hr)) ⟨?_, ?_⟩
      · exact Dev.raise_pending (s.dev.dropSession x) 176 _ _ (by decide)
      · have hsec : ((s.dev.dropSession x).raise 176 (portSlice p)).sec = (s.dev.dropSession x).sec := by simp
        exact (congrArg (fun c => c.sessions.find? (·.sess == x)) hsec).trans (s.dev.session_dropSession x)
    · simp [htr, hr, hc]
    · simp [htr]
  case session =>
    intro x s h htr
    refine ⟨fun hs => ⟨leaves_heard h rfl (Dev.secured_of_inSession h htr hs), leaves_heard h rfl (Dev.secured_of_inSession h htr hs),
      leaves_heard h rfl (Dev.secured_of_inSession h htr hs)⟩, fun hs c hc => ?_⟩
    simp only [List.mem_cons, List.not_mem_nil, or_false] at hc
    rcases hc with rfl | rfl | rfl <;> exact leaves_heard h rfl (Dev.secured_of_not_inSession h htr hs)

end Sys2Proof.Machine

namespace Sys2Proof.Machine

open Sys2Proof

/-! ### The management cores -/

/-- The management cores without the records that wait for them (R34). -/
def Cores.bare (c : Cores) : Cores := { c with queue := [], lostRecs := 0 }

/-- From `d` to `e` the stroke count, the priming state, the security state and the management cores are as they were, but for the
records that wait for the cores, of which there are none where there were none and the cores run; and no pending bit is cleared. -/
structure Dev.Attends (d e : Dev) : Prop where
  loc : e.time.loc = d.time.loc
  prim : e.prim = d.prim
  sec : e.sec = d.sec
  cores : e.cores.bare = d.cores.bare
  pend : ∀ n, d.Pending n → e.Pending n
  queue : d.coresGone = false → d.cores.queue = [] → e.cores.queue = []

theorem Dev.logPost_cores (d : Dev) (n : Nat) (l : LogId) (r : EvRec) : (d.logPost n l r).1.cores = d.cores := by
  unfold Dev.logPost
  extract_lets k g
  (repeat' split) <;> rfl

/-- While the cores run, nothing is queued for them (R34). -/
theorem Dev.post_queue {d : Dev} (h : d.coresGone = false) (n : Nat) (l : LogId) (r : EvRec) :
    (d.post n l r).1.cores.queue = d.cores.queue := by
  have hite : ∀ e : Dev, ∀ r, (if (e.logPost n l r).2 then ((e.logPost n l r).1, [255]) else ((e.logPost n l r).1, [])).1.cores = e.cores :=
    fun e r => by split <;> exact e.logPost_cores n l r
  have hgone : (d.cores.away || d.cores.halted) = false := h
  unfold Dev.post
  rw [if_neg (by simp [hgone])]
  extract_lets new r2 c d2
  have h2 : d2.cores.queue = d.cores.queue := by
    unfold d2
    split <;> rfl
  exact (congrArg Cores.queue (hite d2 r2)).trans h2

/-- Nothing joins the queue of the cores from `d` to `e` while they run. -/
structure Dev.Unqueued (d e : Dev) : Prop where
  raised : d.Raised e
  queue : d.coresGone = false → e.cores.queue = d.cores.queue

theorem Dev.Unqueued.refl (d : Dev) : d.Unqueued d := ⟨.refl d, fun _ => rfl⟩

theorem Dev.Unqueued.trans {a b c : Dev} (h : a.Unqueued b) (g : b.Unqueued c) : a.Unqueued c :=
  ⟨h.raised.trans g.raised, fun ha => (g.queue (h.raised.coresGone.trans ha)).trans (h.queue ha)⟩

theorem Dev.Unqueued.foldl {α : Type} {f : Dev → α → Dev} (hf : ∀ (d : Dev) x, d.Unqueued (f d x)) (xs : List α) (d : Dev) :
    d.Unqueued (xs.foldl f d) := by
  induction xs generalizing d with
  | nil => exact .refl d
  | cons x xs ih => exact (hf d x).trans (ih _)

theorem Dev.Unqueued.foldl_fst {α β : Type} {f : Dev × β → α → Dev × β} (hf : ∀ (p : Dev × β) x, p.1.Unqueued (f p x).1) (xs : List α)
    (p : Dev × β) : p.1.Unqueued (xs.foldl f p).1 := by
  induction xs generalizing p with
  | nil => exact .refl _
  | cons x xs ih => exact (hf p x).trans (ih _)

theorem Dev.post_unqueued (d : Dev) (n : Nat) (l : LogId) (r : EvRec) : d.Unqueued (d.post n l r).1 :=
  ⟨d.post_raised n l r, fun h => Dev.post_queue h n l r⟩

theorem Dev.postAll_unqueued (d : Dev) (ns : List Nat) (l : LogId) (r : EvRec) : d.Unqueued (d.postAll ns l r).1 := by
  unfold Dev.postAll
  refine .foldl_fst (fun p x => ?_) ns (d, [])
  exact p.1.post_unqueued x l r

theorem Dev.setPend_unqueued (d : Dev) (n : Nat) : d.Unqueued (d.setPend n) := ⟨d.setPend_raised n, fun _ => rfl⟩

theorem Dev.countEv_unqueued (d : Dev) (n : Nat) : d.Unqueued (d.countEv n).1 := by
  refine .foldl_fst (fun p k => ?_) _ (d, [])
  dsimp only
  split
  · exact ⟨Dev.setCnt_raised _ _ _, fun _ => rfl⟩
  · exact .refl _

theorem Dev.journal_unqueued (d : Dev) (r : JRec) : d.Unqueued (d.journal r).1 := by
  refine ⟨d.journal_raised r, fun _ => ?_⟩
  unfold Dev.journal
  (repeat' split) <;> rfl

theorem Dev.raise1_unqueued (d : Dev) (n : Nat) (i : EvInfo) : d.Unqueued (d.raise1 n i).1 := by
  unfold Dev.raise1
  split
  · exact .refl d
  · extract_lets first
    have h1 : d.Unqueued ((d.setPend n).countEv n).1 := (d.setPend_unqueued n).trans ((d.setPend n).countEv_unqueued n)
    split
    rename_i d1 c h
    rw [h] at h1
    extract_lets e2 d2 r rt heads dests
    have h2 : d.Unqueued d2 := h1.trans ⟨⟨rfl, fun _ h => h, List.prefix_rfl⟩, fun _ => rfl⟩
    clear_value d2
    have h3 := h2.trans (d2.postAll_unqueued dests (evLog n) r)
    split
    rename_i d3 x h4
    rw [h4] at h3
    split
    · exact h3.trans ⟨d3.journalAgain_raised n, fun _ => rfl⟩
    · split
      · split
        rename_i d4 y h5
        have h6 : d3.Unqueued (d4, y).1 := h5 ▸ d3.journal_unqueued _
        exact h3.trans h6
      · exact h3

theorem Dev.raiseI_unqueued (d : Dev) (n : Nat) (i : EvInfo) : d.Unqueued (d.raiseI n i) := by
  rw [Dev.raiseI_eq]
  exact (d.raise1_unqueued n i).trans (.foldl (fun d (m : Nat × EvInfo) => d.raise1_unqueued m.1 m.2) _ _)

theorem Dev.journalNote_unqueued (d : Dev) (c sl : Nat) (dt : List Nat) : d.Unqueued (d.journalNote c sl dt) := by
  unfold Dev.journalNote
  split
  rename_i e x h1
  have h : d.Unqueued (e, x).1 := h1 ▸ d.journal_unqueued _
  exact h.trans (.foldl (fun d m => d.raise1_unqueued m {}) x e)

theorem Dev.emit_unqueued (d : Dev) (o : Out) : d.Unqueued (d.emit o) := ⟨d.emit_raised o, fun _ => rfl⟩

namespace Dev.Attends

theorem refl (d : Dev) : d.Attends d := ⟨rfl, rfl, rfl, rfl, fun _ h => h, fun _ h => h⟩

section
variable {d e : Dev} (h : d.Attends e)
include h

theorem away : e.cores.away = d.cores.away := (congrArg Cores.away h.cores :)
theorem halted : e.cores.halted = d.cores.halted := (congrArg Cores.halted h.cores :)
theorem resets : e.cores.resets = d.cores.resets := (congrArg Cores.resets h.cores :)
theorem mismatch : e.cores.mismatch = d.cores.mismatch := (congrArg Cores.mismatch h.cores :)
theorem wdog : e.cores.wdog = d.cores.wdog := (congrArg Cores.wdog h.cores :)
theorem fetchUe : e.cores.fetchUe = d.cores.fetchUe := (congrArg Cores.fetchUe h.cores :)
theorem coresGone : e.coresGone = d.coresGone := by rw [Dev.coresGone, h.away, h.halted, Dev.coresGone]

end

theorem trans {a b c : Dev} (h : a.Attends b) (g : b.Attends c) : a.Attends c :=
  ⟨g.loc.trans h.loc, g.prim.trans h.prim, g.sec.trans h.sec, g.cores.trans h.cores, fun n hn => g.pend n (h.pend n hn),
    fun ha hq => g.queue (h.coresGone.trans ha) (h.queue ha hq)⟩

theorem of_eq {d e : Dev} (h : (e.time.loc, e.prim, e.sec, e.cores, e.ev) = (d.time.loc, d.prim, d.sec, d.cores, d.ev)) : d.Attends e := by
  simp only [Prod.mk.injEq] at h
  obtain ⟨hloc, hprim, hsec, hcores, hev⟩ := h
  exact ⟨hloc, hprim, hsec, by rw [hcores], fun n hn => by rwa [Dev.Pending, hev], fun _ hq => by rwa [hcores]⟩

theorem of_unqueued {d e : Dev} (h : d.Unqueued e) : d.Attends e := by
  refine ⟨congrArg (·.time.loc) h.raised.bare, congrArg (·.prim) h.raised.bare, congrArg (·.sec) h.raised.bare,
    congrArg (·.cores) h.raised.bare, h.raised.pend, fun ha hq => (h.queue ha).trans hq⟩

theorem raise (d : Dev) (n a b : Nat) : d.Attends (d.raise n a b) := .of_unqueued (d.raiseI_unqueued n _)

theorem emit (d : Dev) (o : Out) : d.Attends (d.emit o) := .of_unqueued (d.emit_unqueued o)

theorem forAll {α : Type} {f : Dev → α → Dev} (hf : ∀ (d : Dev) x, d.Attends (f d x)) (d : Dev) (xs : List α) :
    d.Attends (Machine.forAll d xs f) :=
  forAll_rel refl (fun _ _ _ => trans) hf d xs

theorem forAll_from {α : Type} {f : Dev → α → Dev} {d e : Dev} (h : d.Attends e) (hf : ∀ (d : Dev) x, d.Attends (f d x)) (xs : List α) :
    d.Attends (Machine.forAll e xs f) :=
  h.trans (.forAll hf e xs)

end Dev.Attends

theorem Dev.reply_attends (d : Dev) (src : Src) (r : Ret) (ext : Nat) (p : List Byte) : d.Attends (d.reply src r ext p) := by
  unfold Dev.reply
  split <;> exact .emit d _

theorem Dev.wake_attends (d : Dev) (k i : Nat) : d.Attends (d.wake k i) := by
  have hpwr : ∀ f : PwrSt → PwrSt, d.Attends (d.setPwr f) := fun _ => .of_eq rfl
  unfold Dev.wake
  extract_lets p
  split
  · split
    · exact .refl d
    · exact (hpwr _).trans (.raise _ _ _ _)
  · split
    · exact (hpwr _).trans ((Dev.Attends.raise _ _ _ _).trans (.raise _ _ _ _))
    · split
      · exact .refl d
      · exact (hpwr _).trans (.raise _ _ _ _)

theorem Dev.sendOn_attends (d : Dev) (p op : Nat) (m : Msg) : d.Attends (d.sendOn p op m) := by
  have hport : ∀ (e : Dev) (f : CPort → CPort), e.Attends (e.setPort p f) := fun _ _ => .of_eq rfl
  unfold Dev.sendOn
  extract_lets m' c d1
  split
  · exact (hport d _).trans ((Dev.Attends.emit _ _).trans (.emit _ _))
  · have h1 : d.Attends d1 := hport d _
    split
    · exact h1.trans ((hport d1 _).trans (.emit _ _))
    · exact h1

theorem Dev.broadcast_attends (d : Dev) (k : Nat) (b : Bcast) : d.Attends (d.broadcast k b) := by
  unfold Dev.broadcast
  extract_lets n c d1 b'
  have h1 : d.Attends d1 := .of_eq rfl
  exact h1.trans (.forAll (fun e p => (Dev.Attends.emit e _).trans (Dev.sendOn_attends _ _ _ _)) _ _)

theorem Dev.freeRuns_attends (d : Dev) (ms : List MetaRun) : d.Attends (d.freeRuns ms) := by
  have hframe : ∀ (e : Dev) (f : Nat), e.Attends (e.freeFrame f) := by
    intro e f
    unfold Dev.freeFrame
    split
    · exact .of_eq rfl
    · dsimp only
      split <;> exact .of_eq rfl
  have hrun : ∀ (e : Dev) (a n : Nat), e.Attends (e.freeRun a n) := fun e a n => .forAll (fun e i => hframe e (a + i)) e (List.range n)
  refine .forAll (fun e m => ?_) d ms
  split
  · exact (hrun e _ _).trans (hrun _ _ _)
  · exact hrun e _ _

theorem Dev.setSlotState_attends (d : Dev) (n v : Nat) : d.Attends (d.setSlotState n v) := by
  unfold Dev.setSlotState
  (repeat' split) <;> exact .of_eq rfl

theorem Dev.txnIdle_attends (d : Dev) : d.Attends d.txnIdle := by
  unfold Dev.txnIdle
  extract_lets d1 d2
  have h1 : d.Attends d1 := d.freeRuns_attends _
  have h2 : d1.Attends d2 := by
    unfold d2
    split
    · split
      · exact d1.setSlotState_attends _ _
      · exact .refl d1
    · exact .refl d1
  exact h1.trans (h2.trans (.of_eq rfl))

theorem Dev.abandonRest_attends (d : Dev) : d.Attends d.abandonRest := by
  refine .forAll (fun e b => ?_) d _
  have hhead : ∀ (n : Nat) (f : Head → Head), e.Attends (e.setHead n f) := fun _ _ => .of_eq rfl
  split
  · exact (hhead _ _).trans (Dev.wake_attends _ _ _)
  · exact .refl e

theorem Dev.retireBack_attends (d : Dev) (c r : Nat) : d.Attends (d.retireBack c r) := by
  unfold Dev.retireBack
  extract_lets x
  split <;> exact .of_eq rfl

theorem Dev.abandonParts_attends (d : Dev) : d.Attends d.abandonParts := by
  refine .forAll (fun e b => ?_) d _
  have hdom : ∀ (g : Nat) (f : Dom → Dom), e.Attends (e.setDom g f) := fun _ _ => .of_eq rfl
  have hpump : ∀ (e : Dev) (p : Nat) (f : Pump → Pump), e.Attends (e.setPump p f) := fun _ _ _ => .of_eq rfl
  split
  · exact (e.retireBack_attends _ _).trans (.forAll (fun e p => hpump e p _) _ _)
  · split
    · exact (hdom _ _).trans (Dev.broadcast_attends _ _ _)
    · exact hdom _ _
  · exact .refl e

/-- Scopes 0 to 2 are closed, and but for the security state the device is as it was (R331). -/
theorem Dev.closeScopes_closed (d : Dev) : ({ d with sec := d.closeScopes.sec }).Attends d.closeScopes ∧ d.closeScopes.sec.scope &&& 7#4 = 0#4 := by
  unfold Dev.closeScopes
  split
  · next h => exact ⟨.refl d, h⟩
  · rw [(Dev.Attends.raise (d.setSec fun c => { c with scope := c.scope &&& 8#4, expiry := 0 }) 175 (tileSlice 0) 0).sec]
    refine ⟨.raise _ _ _ _, ?_⟩
    show d.sec.scope &&& 8#4 &&& 7#4 = 0#4
    rw [BitVec.and_assoc]
    exact BitVec.and_zero

/-- What a reset of the control complex leaves (R30 to R33): the cores away, nothing of the sessions and the debug port, and the cores
halted at the third reset within 10 s. -/
structure Dev.CoresLost (d e : Dev) : Prop where
  away : e.cores.away = true
  sessions : e.sec.sessions = []
  keyq : e.sec.keyq = []
  nonce : e.sec.nonce = none
  scope : e.sec.scope &&& 7#4 = 0#4
  halted : d.cores.halted = false →
    (e.cores.halted = true ↔ 2 ≤ (d.cores.resets.filter fun t => decide (d.time.loc < t + 10000000)).length)
  mismatch : e.cores.mismatch = d.cores.mismatch
  wdog : e.cores.wdog = d.cores.wdog
  fetchUe : e.cores.fetchUe = d.cores.fetchUe
  pend : ∀ n, d.Pending n → e.Pending n

theorem Dev.CoresLost.attends {d e f : Dev} (h : d.CoresLost e) (g : e.Attends f) : d.CoresLost f := by
  refine ⟨g.away.trans h.away, ?_, ?_, ?_, ?_, fun hd => g.halted ▸ h.halted hd, g.mismatch.trans h.mismatch, g.wdog.trans h.wdog,
    g.fetchUe.trans h.fetchUe, fun n hn => g.pend n (h.pend n hn)⟩
  · rw [g.sec, h.sessions]
  · rw [g.sec, h.keyq]
  · rw [g.sec, h.nonce]
  · rw [g.sec, h.scope]

theorem Dev.coresReset_lost (d : Dev) : d.CoresLost d.coresReset := by
  have h1 : d.Attends d.abandonRest.abandonParts.abandonBg :=
    d.abandonRest_attends.trans ((Dev.abandonParts_attends _).trans (.of_eq rfl))
  unfold Dev.coresReset
  generalize d.abandonRest.abandonParts.abandonBg = d1 at h1
  obtain ⟨h2, hscope⟩ := d1.closeScopes_closed
  generalize d1.closeScopes = d2 at h2 hscope
  extract_lets recent d2' d3 unqueued c3 d4 c4 d5 e5 c5 d6 k6 g6 d7 k7
  have h4 : d3.Attends d4 := by
    unfold d4
    split
    · exact .of_eq rfl
    · exact .refl d3
  have h5 : d4.Attends d5 := by
    unfold d5
    split
    · exact .trans (b := { d4 with cfg := { c4 with root := {} } }) (.of_eq rfl) (Dev.txnIdle_attends _)
    · exact .refl d4
  have h6 : d5.Attends d6 := by
    unfold d6
    split
    · exact d5.txnIdle_attends
    · exact d5.txnIdle_attends
    · exact (d5.freeRuns_attends _).trans (.of_eq rfl)
    · exact .refl d5
  have h36 : d3.Attends d6 := h4.trans (h5.trans h6)
  have hpend : ∀ n, d.Pending n → d6.Pending n := fun n hn => h36.pend n (h2.pend n (h1.pend n hn))
  have hhalted : d6.cores.halted = d.cores.halted := h36.halted.trans (h2.halted.trans h1.halted)
  have hmismatch : d6.cores.mismatch = d.cores.mismatch := h36.mismatch.trans (h2.mismatch.trans h1.mismatch)
  have hwdog : d6.cores.wdog = d.cores.wdog := h36.wdog.trans (h2.wdog.trans h1.wdog)
  have hfetch : d6.cores.fetchUe = d.cores.fetchUe := h36.fetchUe.trans (h2.fetchUe.trans h1.fetchUe)
  have hsec : ∀ {α : Type} (k : SecSt → α), k d6.sec = k d3.sec := fun k => congrArg k h36.sec
  have hscope6 : d6.sec.scope &&& 7#4 = 0#4 := (hsec fun c => c.scope &&& 7#4).trans hscope
  have hlen : recent.length = (d.cores.resets.filter fun t => decide (d.time.loc < t + 10000000)).length + 1 := rfl
  clear_value d6 recent
  split
  · refine .attends (e := { d7 with cores := { k7 with halted := true } }) ?_ (.raise _ 11 (tileSlice 0) 0)
    exact ⟨rfl, hsec SecSt.sessions, hsec SecSt.keyq, hsec SecSt.nonce, hscope6, fun _ => iff_of_true rfl (by omega),
      hmismatch, hwdog, hfetch, hpend⟩
  · exact ⟨rfl, hsec SecSt.sessions, hsec SecSt.keyq, hsec SecSt.nonce, hscope6,
      fun h => iff_of_false (fun ht => Bool.false_ne_true (h.symm.trans (hhalted.symm.trans ht))) (by omega),
      hmismatch, hwdog, hfetch, hpend⟩

theorem Dev.postQueue_attends (d : Dev) (q : List (Nat × LogId × EvRec)) : d.Attends (d.postQueue q) := by
  induction q generalizing d with
  | nil => exact .refl d
  | cons x q ih =>
    obtain ⟨k, l, r⟩ := x
    have h : d.Unqueued ((d.post k l r).2.foldl (fun d m => (d.raise1 m {}).1) (d.post k l r).1) :=
      (d.post_unqueued k l r).trans (.foldl (fun d m => d.raise1_unqueued m {}) _ _)
    exact (Dev.Attends.of_unqueued h).trans (ih _)

/-- The queued records are delivered, and none is left (R34, R400). -/
theorem Dev.deliverQueue_attends (d : Dev) : ({ d with cores := { d.cores with queue := [] } }).Attends d.deliverQueue := by
  unfold Dev.deliverQueue
  extract_lets c q lost d1
  have h1 : ({ d with cores := { c with queue := [] } } : Dev).Attends d1 := Dev.postQueue_attends _ q
  split
  · exact h1
  · exact h1.trans (.raise _ _ _ _)

theorem Dev.completeBg_attends (d : Dev) : d.Attends d.completeBg := by
  have hreply : ∀ (e : Dev) (xs : List Src) (r : Ret) (x : Nat), e.Attends (forAll e xs fun d a => d.reply a r x) := fun e xs r x =>
    .forAll (fun e a => e.reply_attends a r x []) e xs
  unfold Dev.completeBg
  refine .forAll_from ?_ (fun e b => ?_) _
  · exact .of_eq rfl
  split
  · exact (e.reply_attends _ _ _ _).trans (hreply _ _ _ _)
  · split
    · exact (e.reply_attends _ _ _ _).trans (hreply _ _ _ _)
    · exact .refl e

theorem Dev.rootAgain_attends (d : Dev) : d.Attends d.rootAgain := by
  unfold Dev.rootAgain
  extract_lets r
  split
  · exact (d.broadcast_attends _ _).trans (.of_eq rfl)
  · exact .refl d

/-- Cores that come back to a device that is not primed run, and nothing is queued for them (R32, R34). -/
theorem Dev.coresResume_unprimed {d : Dev} (hh : d.cores.halted = false) (ha : d.cores.away = true) (hp : d.prim ≠ .primed) :
    d.coresResume.cores.away = false ∧ d.coresResume.cores.queue = [] := by
  unfold Dev.coresResume
  rw [if_neg (by simp [hh, ha]), if_neg (by simp [hp])]
  extract_lets c d1 d2 d3 gone g d4
  have h2 : d1.Attends d2 := by
    refine .forAll (fun e n => ?_) d1 _
    split
    · exact e.setSlotState_attends _ _
    · exact .refl e
  have h3 : ({ d2 with cores := { d2.cores with queue := [] } } : Dev).Attends d3 :=
    (Dev.deliverQueue_attends d2).trans ((Dev.completeBg_attends _).trans (Dev.rootAgain_attends _))
  have h4 : d3.Attends d4 := by
    refine .forAll_from ?_ (fun e a => e.reply_attends _ _ _ _) _
    exact .of_eq rfl
  have h34 := h3.trans h4
  clear_value d4 d3 d2
  have haway : d2.cores.away = false := h2.away
  have hhalted : d2.cores.halted = false := h2.halted.trans hh
  have hprim : d4.prim = d.prim := h34.prim.trans h2.prim
  rw [if_neg fun h => hp (hprim.symm.trans h.1)]
  refine ⟨h34.away.trans haway, h34.queue ?_ rfl⟩
  show (d2.cores.away || d2.cores.halted) = false
  rw [haway, hhalted]
  rfl

/-- A core fault is counted in the state of the cores and raises its event (R333). -/
def Dev.countFault (d : Dev) (f : Cores → Cores) (n : Nat) : Dev := ({ d with cores := f d.cores }).raise n (tileSlice 0)

theorem Dev.countFault_attends (d : Dev) (f : Cores → Cores) (n : Nat) : ({ d with cores := f d.cores }).Attends (d.countFault f n) :=
  .raise _ _ _ _

theorem Dev.countFault_pending {d : Dev} (f : Cores → Cores) (n : Nat) (h : evClass n ≠ none) : (d.countFault f n).Pending n :=
  Dev.raise_pending _ _ _ _ h

section
variable {d : Dev} (hh : d.cores.halted = false)
include hh

theorem Dev.lockstepMismatch_eq :
    d.lockstepMismatch = (d.countFault (fun c => { c with mismatch := satInc 255 c.mismatch }) 8).coresReset := if_neg (by simp [hh])

theorem Dev.uncorrectableFetch_eq :
    d.uncorrectableFetch = (d.countFault (fun c => { c with fetchUe := satInc 255 c.fetchUe }) 10).coresReset := if_neg (by simp [hh])

theorem Dev.coreWatchdogExpiry_eq (hs : d.sec.scope.getLsbD 2 = false) :
    d.coreWatchdogExpiry = (d.countFault (fun c => { c with wdog := satInc 255 c.wdog }) 9).coresReset :=
  if_neg (by rw [hh, hs]; decide)

end

/-- Settles O40: what a reset of the control complex leaves, counted and reported by its cause, and the two ways in which the cores may
come back. -/
theorem managementCoresResetAndReturn : Obligations.ManagementCoresResetAndReturn := by
  refine ⟨?halted, ?reset, ?causes, ?resume, fun s h => .of_done rfl (if_pos (by simp [h]))⟩
  case halted =>
    intro s b h c hc
    simp only [List.mem_cons, List.not_mem_nil, or_false] at hc
    rcases hc with rfl | rfl | rfl | rfl | rfl
    · exact .of_done rfl (if_pos h)
    · exact .of_done rfl (if_pos h)
    · exact .of_done rfl (if_pos (.inl h))
    · exact .of_done rfl (if_pos h)
    · exact .of_done rfl (if_pos (by simp [h]))
  case reset =>
    intro s b hh hs c hc
    obtain ⟨d, hst, hx, hloc, hhd, hres⟩ : ∃ d : Dev, storesOf c = false ∧
        exec c s = s.done d.coresReset ∧ d.time.loc = s.dev.time.loc ∧ d.cores.halted = s.dev.cores.halted ∧
        d.cores.resets = s.dev.cores.resets := by
      simp only [List.mem_cons, List.not_mem_nil, or_false] at hc
      rcases hc with rfl | rfl | rfl | rfl
      · have hn := Dev.Attends.of_unqueued (s.dev.journalNote_unqueued (b2n b) (tileSlice 0) [])
        exact ⟨_, rfl, congrArg s.done (if_neg (by simp [hh])), hn.loc, hn.halted, hn.resets⟩
      · have hn := s.dev.countFault_attends (fun c => { c with mismatch := satInc 255 c.mismatch }) 8
        exact ⟨_, rfl, congrArg s.done (Dev.lockstepMismatch_eq hh), hn.loc, hn.halted, hn.resets⟩
      · have hn := s.dev.countFault_attends (fun c => { c with wdog := satInc 255 c.wdog }) 9
        exact ⟨_, rfl, congrArg s.done (Dev.coreWatchdogExpiry_eq hh hs), hn.loc, hn.halted, hn.resets⟩
      · have hn := s.dev.countFault_attends (fun c => { c with fetchUe := satInc 255 c.fetchUe }) 10
        exact ⟨_, rfl, congrArg s.done (Dev.uncorrectableFetch_eq hh), hn.loc, hn.halted, hn.resets⟩
    have h := d.coresReset_lost
    have hdram : d.coresReset.dram = s.dev.dram :=
      exec_held (o := fun dram _ _ _ => dram = s.dev.dram) hst rfl _ hx
    have hhalt := h.halted (hhd.trans hh)
    rw [hres, hloc] at hhalt
    exact .of_done hx ⟨h.away, h.sessions, h.keyq, h.nonce, h.scope, hdram, hhalt⟩
  case causes =>
    intro s hh
    refine ⟨?_, ?_, fun hs => .of_done rfl (if_pos (.inr hs)), fun hs => ?_⟩
    · have h := Dev.coresReset_lost (s.dev.countFault (fun c => { c with mismatch := satInc 255 c.mismatch }) 8)
      exact .of_done (congrArg s.done (Dev.lockstepMismatch_eq hh)) ⟨h.pend 8 (Dev.countFault_pending _ _ (by decide)),
        h.mismatch.trans (Dev.countFault_attends _ _ _).mismatch⟩
    · have h := Dev.coresReset_lost (s.dev.countFault (fun c => { c with fetchUe := satInc 255 c.fetchUe }) 10)
      exact .of_done (congrArg s.done (Dev.uncorrectableFetch_eq hh)) ⟨h.pend 10 (Dev.countFault_pending _ _ (by decide)),
        h.fetchUe.trans (Dev.countFault_attends _ _ _).fetchUe⟩
    · have h := Dev.coresReset_lost (s.dev.countFault (fun c => { c with wdog := satInc 255 c.wdog }) 9)
      exact .of_done (congrArg s.done (Dev.coreWatchdogExpiry_eq hh hs)) ⟨h.pend 9 (Dev.countFault_pending _ _ (by decide)),
        h.wdog.trans (Dev.countFault_attends _ _ _).wdog⟩
  case resume =>
    refine fun s hh ha => ⟨fun hp hf => .of_done rfl ?_, fun hp => .of_done rfl (Dev.coresResume_unprimed hh ha hp)⟩
    have heq : s.dev.coresResume = ({ s.dev with cores := { s.dev.cores with halted := true } }).raise 11 (tileSlice 0) := by
      simp [Dev.coresResume, hh, ha, hp, hf]
    have hr := (Dev.Attends.raise { s.dev with cores := { s.dev.cores with halted := true } } 11 (tileSlice 0) 0)
    rw [heq]
    exact ⟨Dev.raise_pending _ 11 _ _ (by decide), hr.halted, hr.away.trans ha⟩

end Sys2Proof.Machine

namespace Sys2Proof.Machine

open Sys2Proof

/-! ### Host links -/

/-- `e` is `d` but for its coherent domains. -/
def Dev.DomsOnly (d e : Dev) : Prop := ∃ x, e = { d with doms := x }

theorem Dev.DomsOnly.refl (d : Dev) : d.DomsOnly d := ⟨d.doms, rfl⟩

theorem Dev.DomsOnly.trans {a b c : Dev} (h : a.DomsOnly b) (g : b.DomsOnly c) : a.DomsOnly c := by
  obtain ⟨x, rfl⟩ := h
  obtain ⟨y, rfl⟩ := g
  exact ⟨y, rfl⟩

theorem Dev.detectDown_domsOnly (d : Dev) (g c x sl : Nat) : d.DomsOnly (d.detectDown d.devId g c x sl) := by
  unfold Dev.detectDown
  rw [if_pos rfl]
  split
  · exact ⟨_, rfl⟩
  · exact .refl d

/-- A cause that is detected is kept until the domain is down (R187). -/
theorem Dev.detectDown_of_detected {d : Dev} {g n c x sl : Nat} {v : Nat × Nat × Nat} (h : (d.dom g).detected = some v) :
    ((d.detectDown d.devId n c x sl).dom g).detected = some v := by
  unfold Dev.detectDown
  rw [if_pos rfl]
  split
  · next hn =>
    have hne : g ≠ n := by
      rintro rfl
      simp [h] at hn
    rwa [Dev.dom_setDom, if_neg hne]
  · exact h

theorem Dev.detectDown_of_up {d : Dev} {g c x sl : Nat} (hst : (d.dom g).st = .up) (hd : (d.dom g).detected = none) :
    ((d.detectDown d.devId g c x sl).dom g).detected = some (c, x, d.pool) := by
  unfold Dev.detectDown
  rw [if_pos rfl, if_pos ⟨.inl hst, by rw [hd]; rfl⟩, Dev.dom_setDom, if_pos rfl]

theorem Dev.detectDown_other {d : Dev} {g n c x sl : Nat} (h : g ≠ n) : (d.detectDown d.devId n c x sl).dom g = d.dom g := by
  unfold Dev.detectDown
  rw [if_pos rfl]
  split
  · rw [Dev.dom_setDom, if_neg h]
  · rfl

/-- The causes that one member gives in turn: each Up domain in the list has its own detected. -/
theorem detected_forAll {d : Dev} {g c x sl : Nat} {gs : List Nat} (hg : g ∈ gs) (hst : (d.dom g).st = .up)
    (hd : (d.dom g).detected = none) :
    ((forAll d gs fun e n => e.detectDown e.devId n c x sl).dom g).detected = some (c, x, d.pool) := by
  have hkeep : ∀ (ns : List Nat) (e : Dev) (v : Nat × Nat × Nat), (e.dom g).detected = some v →
      ((forAll e ns fun e n => e.detectDown e.devId n c x sl).dom g).detected = some v := by
    intro ns
    induction ns with
    | nil => exact fun e v h => h
    | cons n ns ih => exact fun e v h => ih _ v (Dev.detectDown_of_detected h)
  induction gs generalizing d with
  | nil => cases hg
  | cons n ns ih =>
    by_cases hn : g = n
    · subst hn
      exact hkeep ns _ _ (Dev.detectDown_of_up hst hd)
    · have hother := Dev.detectDown_other (d := d) (c := c) (x := x) (sl := sl) hn
      have hpool : (d.detectDown d.devId n c x sl).pool = d.pool := by
        obtain ⟨y, hy⟩ := d.detectDown_domsOnly n c x sl
        rw [hy]
        rfl
      have h := ih ((List.mem_cons.mp hg).resolve_left hn) (by rw [hother, hst]) (by rw [hother, hd])
      rwa [hpool] at h

theorem Dev.memberDead_domsOnly (d : Dev) (h c : Nat) : d.DomsOnly (d.memberDead h c) :=
  forAll_rel .refl (fun _ _ _ => .trans) (fun e g => e.detectDown_domsOnly g c h _) d _

/-- Every Up domain of which the head is a member goes down (R187). -/
theorem Dev.memberDead_detected {d : Dev} {h c g : Nat} (h0 : 0 < g) (hg : g < 256) (hm : (d.dom g).members.getLsbD h = true)
    (hst : (d.dom g).st = .up) (hd : (d.dom g).detected = none) : ((d.memberDead h c).dom g).detected = some (c, h, d.pool) := by
  refine detected_forAll ?_ hst hd
  simp [hg, hm, hst, Nat.pos_iff_ne_zero.mp h0]

/-- `e` is `d` but for its home slices. -/
def Dev.HsOnly (d e : Dev) : Prop := ∃ x, e = { d with hs := x }

theorem Dev.HsOnly.refl (d : Dev) : d.HsOnly d := ⟨d.hs, rfl⟩

theorem Dev.HsOnly.trans {a b c : Dev} (h : a.HsOnly b) (g : b.HsOnly c) : a.HsOnly c := by
  obtain ⟨x, rfl⟩ := h
  obtain ⟨y, rfl⟩ := g
  exact ⟨y, rfl⟩

/-- What a reset of head `h`'s port leaves as it is: whether `PERST_N` holds it, its dynamic capacity, the DRAM, the domains and the time;
and no pending bit is cleared. -/
structure Dev.PortKept (h : Nat) (d e : Dev) : Prop where
  perst : (e.head h).perst = (d.head h).perst
  blocks : (e.head h).blocks = (d.head h).blocks
  dram : e.dram = d.dram
  doms : e.doms = d.doms
  time : e.time = d.time
  pend : ∀ n, d.Pending n → e.Pending n

theorem Dev.wake_raised (d : Dev) (k i : Nat) : ∃ p, ({ d with pwr := p }).Raised (d.wake k i) := by
  unfold Dev.wake
  extract_lets p
  split
  · split
    · exact ⟨d.pwr, .refl d⟩
    · exact ⟨_, Dev.raise_raised (d.setPwr _) _ _ _⟩
  · split
    · exact ⟨_, (Dev.raise_raised (d.setPwr _) _ _ _).trans (Dev.raise_raised _ _ _ _)⟩
    · split
      · exact ⟨d.pwr, .refl d⟩
      · exact ⟨_, Dev.raise_raised (d.setPwr _) _ _ _⟩

/-- A head's rest request ends (R82). -/
theorem Dev.endHeadRest_frame (d : Dev) (h : Nat) : d.PortKept h (d.endHeadRest h) ∧ ((d.endHeadRest h).head h).restReq = false ∧
    (d.endHeadRest h).reads = d.reads ∧ (d.endHeadRest h).sec = d.sec := by
  unfold Dev.endHeadRest
  split
  · extract_lets att d1
    have h1 : d1.head h = { d.head h with restReq := false, restTol := 0 } := by simp [d1]
    have hk : ∀ e : Dev, e.head h = d1.head h → e.dram = d1.dram → e.doms = d1.doms → e.time = d1.time → e.reads = d1.reads →
        e.sec = d1.sec → (∀ n, d1.Pending n → e.Pending n) →
        d.PortKept h e ∧ (e.head h).restReq = false ∧ e.reads = d.reads ∧ e.sec = d.sec := by
      intro e hh hdram hdoms htime hreads hsec hpend
      exact ⟨⟨by rw [hh, h1], by rw [hh, h1], hdram, hdoms, htime, hpend⟩, by rw [hh, h1], hreads, hsec⟩
    split
    · obtain ⟨p, hp⟩ := d1.wake_raised 8 h
      have hb := hp.bare
      generalize d1.wake 8 h = e at hp hb
      exact hk e (congrArg (·.head h) hb) (congrArg (·.dram) hb) (congrArg (·.doms) hb) (congrArg (·.time) hb) (congrArg (·.reads) hb)
        (congrArg (·.sec) hb) hp.pend
    · exact hk d1 rfl rfl rfl rfl rfl rfl fun _ hn => hn
  · next hr => exact ⟨⟨rfl, rfl, rfl, rfl, rfl, fun _ hn => hn⟩, by simpa using hr, rfl, rfl⟩

/-- What a reset of head `h`'s port clears (R27). -/
structure Dev.PortCleared (h : Nat) (e : Dev) : Prop where
  up : (e.head h).up = false
  rate : (e.head h).rate = 0
  decoders : (e.head h).decoders = []
  ide : (e.head h).ide = 0
  restReq : (e.head h).restReq = false
  reads : ∀ r ∈ e.reads, r.rq ≠ .head h
  sessions : ∀ x ∈ e.sec.sessions, x.sess.tr ≠ .doe h

/-- A port reset with no write of the head's left to complete (R27). -/
theorem Dev.portReset_frame {d : Dev} {h : Nat} (hq : (d.head h).portQ = []) (hw : ∀ n < d.nHs, (d.hsl n).writesOf (.head h) = []) :
    d.PortKept h (d.portReset h) ∧ (d.portReset h).PortCleared h := by
  have hws : (List.range d.nHs).flatMap (fun n => (d.hsl n).writesOf (Rq.head h)) ++ (d.head h).portQ.filter (fun q => q.kind.isWrite) = [] := by
    rw [hq, List.filter_nil, List.append_nil, List.flatMap_eq_nil_iff]
    exact fun n hn => hw n (List.mem_range.mp hn)
  unfold Dev.portReset
  rw [hws]
  extract_lets mine keep ws d1 d2 c d3 sc d4 d5 d6 d7
  obtain ⟨x, hx⟩ : d1.HsOnly d2 := forAll_rel .refl (fun _ _ _ => .trans) (fun e n => ⟨_, rfl⟩) d1 _
  have hheads : d5.heads = d.heads := congrArg (·.heads) hx
  have hhead : d5.head h = d.head h := by rw [Dev.head, hheads, Dev.head]
  have hk : d.PortKept h d5 := by
    refine ⟨by rw [hhead], by rw [hhead], congrArg (·.dram) hx, congrArg (·.doms) hx, congrArg (·.time) hx, fun n hn => ?_⟩
    have hev : d5.ev = d.ev := congrArg (·.ev) hx
    rwa [Dev.Pending, hev]
  have hreads : d5.reads = d.reads.filter fun r => !mine r.rq := congrArg (·.reads) hx
  have hsess : d5.sec.sessions = d.sec.sessions.filter fun y => y.sess.tr != Transport.doe h :=
    congrArg (fun e => e.sec.sessions.filter fun y => y.sess.tr != Transport.doe h) hx
  clear_value d5
  obtain ⟨hrest, hreq, hr6, hs6⟩ := d5.endHeadRest_frame h
  have h7 : d7.head h = { d6.head h with
      up := false, rate := 0, width := 0, cxl := false, ide := 0, ideIo := 0, decoders := [], ltrEn := false
      snoopNs := 0, noSnoopNs := 0, portQ := [], devload := 0 } := by
    simp [d7]
  refine ⟨⟨?_, ?_, hrest.dram.trans hk.dram, hrest.doms.trans hk.doms, hrest.time.trans hk.time,
    fun n hn => hrest.pend n (hk.pend n hn)⟩, ?_⟩
  · exact (congrArg (·.perst) h7).trans (hrest.perst.trans hk.perst)
  · exact (congrArg (·.blocks) h7).trans (hrest.blocks.trans hk.blocks)
  · refine ⟨congrArg (·.up) h7, congrArg (·.rate) h7, congrArg (·.decoders) h7, congrArg (·.ide) h7, (congrArg (·.restReq) h7).trans hreq,
      fun r hr => ?_, fun y hy => ?_⟩
    · have hr' : r ∈ d.reads.filter fun r => !mine r.rq := (hr6.trans hreads) ▸ hr
      simpa [mine] using (List.mem_filter.mp hr').2
    · have hy' : y ∈ d.sec.sessions.filter fun y => y.sess.tr != Transport.doe h := ((congrArg (·.sessions) hs6).trans hsess) ▸ hy
      simpa using (List.mem_filter.mp hy').2

/-- After the port's reset its domains go down (R28, R187). -/
theorem Dev.portReset_memberDead {d : Dev} {h : Nat} (c : Nat) (hq : (d.head h).portQ = [])
    (hw : ∀ n < d.nHs, (d.hsl n).writesOf (.head h) = []) : ∃ e : Dev, d.PortKept h e ∧ e.PortCleared h ∧
      e.DomsOnly ((d.portReset h).memberDead h c) ∧
      ∀ g, 0 < g → g < 256 → (d.dom g).members.getLsbD h = true → (d.dom g).st = .up → (d.dom g).detected = none →
        ((((d.portReset h).memberDead h c).dom g).detected = some (c, h, d.pool)) := by
  obtain ⟨hk, hc⟩ := Dev.portReset_frame hq hw
  refine ⟨_, hk, hc, Dev.memberDead_domsOnly _ _ _, fun g h0 hg hm hst hd => ?_⟩
  have hdom : (d.portReset h).dom g = d.dom g := by rw [Dev.dom, hk.doms, Dev.dom]
  have hpool : (d.portReset h).pool = d.pool := by rw [Dev.pool, hk.time, Dev.pool]
  rw [← hpool]
  exact Dev.memberDead_detected h0 hg (by rw [hdom, hm]) (by rw [hdom, hst]) (by rw [hdom, hd])

theorem Dev.fnConfig_joinDomains (d : Dev) (h : Nat) : (d.joinDomains h).fnConfig = d.fnConfig := by
  obtain ⟨x, hx⟩ : d.DomsOnly (d.joinDomains h) := forAll_rel .refl (fun _ _ _ => .trans) (fun _ _ => ⟨_, rfl⟩) d _
  rw [hx]
  rfl

/-- Settles O44: the frame of a port's reset for `PERST_N` and a lost link, and the conditionals of the other commands. -/
theorem hostLinksDecodersAndIde : Obligations.HostLinksDecodersAndIde := by
  refine ⟨⟨?ports, ?linkUp, ?linkStays⟩, ?decoders, ?ltr, ?ide⟩
  case ports =>
    intro s h hh hl hq hw
    refine ⟨fun hp => ?_, fun hp hu => ?_, fun hp => .of_done rfl (if_pos (by simp [hh, hl, hp])),
      fun hp => .of_done rfl (if_neg (by simp [hp])), fun hp => .of_done rfl (if_neg (by simp [hp])),
      fun hu => .of_done rfl (if_neg (by simp [hu]))⟩
    · have hx : s.dev.perstAssertion h = ((s.dev.setHead h fun x => { x with perst := true }).portReset h).memberDead h 1 :=
        if_pos (by simp [hh, hl, hp])
      obtain ⟨e, hk, hc, ⟨x, he⟩, hd⟩ := Dev.portReset_memberDead (d := s.dev.setHead h fun x => { x with perst := true }) (h := h) 1
        (by simpa using hq) hw
      refine .of_done (congrArg s.done hx) ?_
      rw [he]
      rw [he] at hd
      refine ⟨hk.perst.trans (by simp), hc.up, hc.rate, hc.decoders, hc.ide, hc.restReq, hk.blocks.trans (by simp), hc.reads, hc.sessions,
        hk.dram, hd⟩
    · have hx : s.dev.hostLinkDown h = ((s.dev.raiseI 65 { slice := headSlice h, heads := [h] }).portReset h).memberDead h 1 :=
        if_pos ⟨hh, hu⟩
      have hpe := s.dev.raiseI_pending 65 { slice := headSlice h, heads := [h] } (by decide)
      have hb := s.dev.raiseI_bare 65 { slice := headSlice h, heads := [h] }
      generalize s.dev.raiseI 65 { slice := headSlice h, heads := [h] } = d at hx hpe hb
      have hhead : d.head h = s.dev.head h := congrArg (·.head h) hb
      have hnhs : d.nHs = s.dev.nHs := congrArg (·.nHs) hb
      have hhsl : ∀ n, d.hsl n = s.dev.hsl n := fun n => congrArg (·.hsl n) hb
      obtain ⟨e, hk, hc, ⟨x, he⟩, -⟩ := Dev.portReset_memberDead (d := d) (h := h) 1 (by rw [hhead, hq])
        (fun n hn => by rw [hhsl, hw n (hnhs ▸ hn)])
      refine .of_done (congrArg s.done hx) ?_
      rw [he]
      exact ⟨hk.pend 65 hpe, hc.up, hc.decoders, hk.perst.trans (by rw [hhead, hp]), hc.reads⟩
  case linkUp =>
    intro s h rate width hh hp hl hr hheld hsup h1 h5 hmax w1 w5 low hlow f e hf he
    have hx : s.dev.hostLinkUp h rate width = if low then e.raiseI 64 { slice := headSlice h, heads := [h] } else e := by
      subst hlow hf he
      unfold Dev.hostLinkUp
      have hsup' : 2 + h / 4 ∉ s.dev.sup.held := by simpa using hsup
      simp only [hh, hp, hl, hr, hheld, hsup', h1, h5, hmax, w1, w5, List.contains_eq_mem, decide_false, Bool.not_false, and_self, if_true,
        Dev.fnConfig_joinDomains]
    refine ⟨fun hlo => .of_done rfl (hx.trans (if_neg (Bool.eq_false_iff.mp hlo))),
      fun hlo => .of_done (congrArg s.done (hx.trans (if_pos hlo))) ?_⟩
    exact ⟨e.raiseI_pending 64 _ (by decide), e.raiseI_bare 64 _⟩
  case linkStays =>
    intro s h rate width hs
    refine .of_done rfl (if_neg fun hc => ?_)
    obtain ⟨-, hp, hl, -, -, -, h1, hmax, -⟩ := hc
    rcases hs with hs | hs | hs | hs
    · simp [hs] at hp
    · simp [hs] at hl
    · omega
    · omega
  case decoders =>
    intro s h i x hh hi hu
    have hx : s.dev.hdmDecoderCommit h i x = (
        let ok := s.dev.prim == .primed && decoderOk x && (x.bi || !s.dev.coversShared h x.dpaBase (x.size / x.ways))
        (if ok then s.dev.setHead h fun y => { y with decoders := Tbl.put y.decoders i x } else s.dev).emit (.decoder h i ok)) :=
      if_pos ⟨hh, hi, hu⟩
    refine ⟨fun hp hok hb => .of_done rfl (hx.trans ?_), fun hno => .of_done rfl (hx.trans ?_)⟩
    · have hb' : (x.bi || !s.dev.coversShared h x.dpaBase (x.size / x.ways)) = true := by simpa using hb
      simp [hp, hok, hb']
    · have hno' : (s.dev.prim == .primed && decoderOk x && (x.bi || !s.dev.coversShared h x.dpaBase (x.size / x.ways))) = false := by
        rcases hno with h | h | ⟨h, h'⟩
        · simp [h]
        · simp [h]
        · simp [h, h']
      simp only [hno', Bool.false_eq_true, if_false]
  case ltr =>
    intro s h a b en f e hf he
    have hx : s.dev.attached h = true → s.dev.ltrConfigWrite h en a b = if e.minTol < s.dev.minTol then e.wake 8 h else e := by
      subst hf he
      exact fun hat => if_pos hat
    exact ⟨fun hat hm => .of_done rfl ((hx hat).trans (if_neg (Nat.not_lt.mpr hm))), fun hat hm => .of_done rfl ((hx hat).trans (if_pos hm)),
      fun hat => .of_done rfl (if_neg (by simp [hat]))⟩
  case ide =>
    intro s h hu
    refine ⟨fun hs => ⟨.of_done rfl (if_pos (by simp [hu, hs])), .of_done rfl (if_pos (by simp [hu, hs]))⟩,
      fun io => .of_done rfl (if_neg (by simp)), fun io hi => ?_, fun io hi => .of_done rfl (if_neg fun hc => hi hc.2),
      fun hp => .of_done rfl ?_, fun hp hs => .of_done rfl ?_⟩
    · generalize hm : (s.dev.setHead h fun x => if io then { x with ideIo := 2 } else { x with ide := 2 }) = m
      have hx : s.dev.ideIntegrityFailure h io = (m.raiseI 66 { slice := headSlice h, heads := [h] }).memberDead h 2 :=
        hm ▸ if_pos ⟨hu, hi⟩
      have hpe := m.raiseI_pending 66 { slice := headSlice h, heads := [h] } (by decide)
      have hb := m.raiseI_bare 66 { slice := headSlice h, heads := [h] }
      generalize m.raiseI 66 { slice := headSlice h, heads := [h] } = e at hx hpe hb
      have hhead : e.head h = if io then { s.dev.head h with ideIo := 2 } else { s.dev.head h with ide := 2 } :=
        (congrArg (·.head h) hb : e.head h = m.head h).trans (by simp [← hm])
      have hdom : ∀ g, e.dom g = s.dev.dom g := fun g => (congrArg (·.dom g) hb : e.dom g = m.dom g).trans (by rw [← hm]; rfl)
      have hpool : e.pool = s.dev.pool := (congrArg (·.pool) hb : e.pool = m.pool).trans (by rw [← hm]; rfl)
      obtain ⟨y, hy⟩ := e.memberDead_domsOnly h 2
      have hfin : (e.memberDead h 2).head h = e.head h := by
        rw [hy]
        rfl
      refine .of_done (congrArg s.done hx) ⟨by rw [hy]; exact hpe, ?_, ?_, fun g h0 hg hmem hst hd => ?_⟩
      · rw [hfin, hhead]
        cases io <;> rfl
      · rw [hfin, hhead]
        cases io <;> exact hu
      · rw [← hpool]
        exact Dev.memberDead_detected h0 hg (by rw [hdom, hmem]) (by rw [hdom, hst]) (by rw [hdom, hd])
    · simp [Dev.tableAccess, hu, hp]
    · simp [Dev.tableAccess, hu, hp, hs]

end Sys2Proof.Machine

namespace Sys2Proof.Machine

open Sys2Proof

/-! ### Requests of a host -/

section
variable {d : Dev} {h tag hpa : Nat} {k : ReqKind}

theorem Dev.m2s_dead (hl : d.portLive h = false) : d.m2s h tag hpa k = d := if_pos (by simp [hl])

section
variable (hl : d.portLive h = true)
include hl

theorem Dev.m2s_unprimed (hp : d.prim ≠ .primed) : d.m2s h tag hpa k = d.portAnswer h tag (hpa / 64) k := by
  simp [Dev.m2s, hl, hp]

variable (hp : d.prim = .primed)
include hp

theorem Dev.m2s_needsIde (hi : d.needsIde h = true) : d.m2s h tag hpa k = d.outOfView h tag (hpa / 64) k 105 := by
  simp [Dev.m2s, hl, hp, hi]

theorem Dev.m2s_refused (hi : d.needsIde h = false) (hs : d.portServes h = false) : d.m2s h tag hpa k = d := by
  simp [Dev.m2s, hl, hp, hi, hs]

end

/-- A port that serves needs no IDE key (R161). -/
theorem Dev.needsIde_of_portServes (hs : d.portServes h = true) : d.needsIde h = false := by
  simp only [Dev.portServes, Bool.and_eq_true, Bool.not_eq_true'] at hs
  exact hs.2

theorem Dev.m2s_served (hl : d.portLive h = true) (hp : d.prim = .primed) (hs : d.portServes h = true) : d.m2s h tag hpa k =
    match d.hostAddr h hpa with
    | none => d.outOfView h tag (hpa / 64) k 67
    | some a => d.portAdmit h { rq := .head h, tag := tag, line := a / 64, kind := k } := by
  simp only [Dev.m2s, hl, hp, Dev.needsIde_of_portServes hs, hs]
  rfl

/-- A port's own answer is at most one message sent. -/
theorem Dev.portAnswer_raised (d : Dev) (h tag line : Nat) (k : ReqKind) : d.Raised (d.portAnswer h tag line k) := by
  unfold Dev.portAnswer Dev.respond1
  dsimp only
  split
  · exact d.emit_raised _
  · exact .refl d

/-- A request outside the view raises its event, is counted, and stores nothing (R64, R161). -/
theorem Dev.outOfView_frame (d : Dev) (h tag line : Nat) (k : ReqKind) {ev : Nat} (hev : evClass ev ≠ none) :
    (d.outOfView h tag line k ev).Pending ev ∧ ((d.outOfView h tag line k ev).head h).oov = satInc (2 ^ 32 - 1) (d.head h).oov ∧
      (d.outOfView h tag line k ev).dram = d.dram ∧ (d.outOfView h tag line k ev).wmap = d.wmap := by
  unfold Dev.outOfView
  generalize hm : (d.setHead h fun x => { x with oov := satInc (2 ^ 32 - 1) x.oov }) = m
  have hpe := m.raiseI_pending ev { slice := headSlice h, heads := [h] } hev
  have hb := m.raiseI_bare ev { slice := headSlice h, heads := [h] }
  generalize m.raiseI ev { slice := headSlice h, heads := [h] } = e at hpe hb
  have ha := e.portAnswer_raised h tag line k
  have hm' : (e.portAnswer h tag line k).bare = m.bare := ha.bare.trans hb
  have hh : (e.portAnswer h tag line k).head h = m.head h := congrArg (·.head h) hm'
  have hb' := hm'.trans (congrArg Dev.bare hm.symm)
  refine ⟨ha.pend ev hpe, ?_, congrArg (·.dram) hb', congrArg (·.wmap) hb'⟩
  rw [hh, ← hm, Dev.head_setHead, if_pos rfl]

end

/-- Settles O45: every request of a host is one case of the port's decision, and the snoop answers go to the line's home. -/
theorem hostRequestsAreAnsweredOrSentHome : Obligations.HostRequestsAreAnsweredOrSentHome := by
  refine ⟨?requests, ?answers, ?unmapped⟩
  case requests =>
    intro s h tag hpa mv mask x c hc
    have hx : exec c.1 s = s.done (s.dev.m2s h tag hpa c.2) := by
      simp only [List.mem_cons, List.not_mem_nil, or_false] at hc
      rcases hc with rfl | rfl | rfl | rfl | rfl | rfl | rfl <;> rfl
    refine ⟨fun hl => .of_done hx (Dev.m2s_dead hl), fun hl => ⟨fun hp => .of_done hx (Dev.m2s_unprimed hl hp),
      fun hp hi hs => .of_done hx (Dev.m2s_refused hl hp hi hs), fun hp hi => .of_done hx ?_, fun hp hs => ⟨fun ha => .of_done hx ?_, ?_⟩⟩⟩
    · rw [Dev.m2s_needsIde hl hp hi]
      exact s.dev.outOfView_frame h tag _ _ (by decide)
    · rw [Dev.m2s_served hl hp hs, ha]
      exact s.dev.outOfView_frame h tag _ _ (by decide)
    · intro a ha q hq
      have hm : s.dev.m2s h tag hpa c.2 = s.dev.portAdmit h q := by
        rw [Dev.m2s_served hl hp hs, ha, hq]
      subst hq
      refine ⟨fun he => .of_done hx (hm.trans (if_neg fun hc => ?_)), fun he hq => .of_done hx (hm.trans (if_pos ⟨he, .inl hq⟩))⟩
      rw [he] at hc
      exact Bool.false_ne_true hc.1
  case answers =>
    intro s h hpa dpa r line hd hline
    subst hline
    refine ⟨fun hs hp hr => ⟨.of_done rfl ?_, .of_done rfl ?_⟩, fun hno => ⟨.of_done rfl ?_, .of_done rfl ?_⟩⟩
    · simp [Dev.m2sBIRsp, hd, hs, hp, Dev.memberRsp, hr]
    · simp [Dev.m2sBIConflict, hd, hs, hp, Dev.memberConflict, hr]
    · rcases hno with hno | hno <;> simp [Dev.m2sBIRsp, hd, hno]
    · rcases hno with hno | hno <;> simp [Dev.m2sBIConflict, hd, hno]
  case unmapped =>
    intro s h hpa r hd
    exact ⟨.of_done rfl (by simp [Dev.m2sBIRsp, hd]), .of_done rfl (by simp [Dev.m2sBIConflict, hd])⟩

end Sys2Proof.Machine

namespace Sys2Proof.Machine

open Sys2Proof

/-! ### A read that ends -/

section
variable {d e : Dev} {id : Nat} {r : ReadIn}

theorem Dev.readCompletion_absent (hr : d.reads.find? (fun r => r.id == id) = none) : d.readCompletion id = d := by
  simp only [Dev.readCompletion, hr]

variable (hr : d.reads.find? (fun r => r.id == id) = some r)
include hr

theorem Dev.readCompletion_waits (hm : d.mayDecode (lnPage r.line) (d.entry (lnPage r.line)).tier id = false) :
    d.readCompletion id = d := by
  simp [Dev.readCompletion, hr, hm]

variable (hm : d.mayDecode (lnPage r.line) (d.entry (lnPage r.line)).tier id = true)
  (he : e = { d with reads := d.reads.filter fun x => x.id != id })
include hm he

theorem Dev.readCompletion_failed (hf : r.failed = true) : d.readCompletion id = e.poisonRead r.rq r.tag r.line r.rsp := by
  simp [Dev.readCompletion, hr, hm, he, hf]

variable (hf : r.failed = false)
include hf

theorem Dev.readCompletion_data {l : Line} (hl : e.lookup r.line = .data l) :
    d.readCompletion id = e.respond r.rq r.tag r.line r.rsp l false := by
  subst he
  simp [Dev.readCompletion, hr, hm, hf, hl]

theorem Dev.readCompletion_zero (hl : e.lookup r.line = .zero) : d.readCompletion id = e.respond r.rq r.tag r.line r.rsp 0#512 false := by
  subst he
  simp [Dev.readCompletion, hr, hm, hf, hl]

theorem Dev.readCompletion_poison (hl : e.lookup r.line = .poison) : d.readCompletion id = e.poisonRead r.rq r.tag r.line r.rsp := by
  subst he
  simp [Dev.readCompletion, hr, hm, hf, hl]

variable (hl : e.lookup r.line = .miss) (hh : (e.entry (lnPage r.line)).remote = false)
include hl hh

theorem Dev.readCompletion_broken {x : DecErr} (hs : e.storedPage (e.entry (lnPage r.line)) = .error x) : d.readCompletion id =
    e.readBroken r ((d.homeDec (d.homeTile (lnPage r.line)) id).getD (16 * d.homeTile (lnPage r.line))) x := by
  subst he
  change (d.entry (lnPage r.line)).remote = false at hh
  change Dev.storedPage _ (d.entry (lnPage r.line)) = _ at hs
  simp [Dev.readCompletion, hr, hm, hf, hl, hh, hs]

/-- A read of a compressed page fills the cistern with the whole page (R22, R132). -/
theorem Dev.readCompletion_stored {ls : List (Line × Bool)} {k : Nat} (ht : (e.entry (lnPage r.line)).tier ≠ 0)
    (hs : e.storedPage (e.entry (lnPage r.line)) = .ok (ls, k)) (hp : (ls.getD (lnIdx r.line) (0#512, true)).2 = false) :
    d.readCompletion id =
      (e.fillFrom (lnPage r.line) 0 ls).respond r.rq r.tag r.line r.rsp (ls.getD (lnIdx r.line) (0#512, true)).1 false := by
  subst he
  change (d.entry (lnPage r.line)).remote = false at hh
  change (d.entry (lnPage r.line)).tier ≠ 0 at ht
  change Dev.storedPage _ (d.entry (lnPage r.line)) = _ at hs
  simp [-List.getD_eq_getElem?_getD, Dev.readCompletion, hr, hm, hf, hl, hh, ht, hs, hp]

end

/-! ### An inline promotion that ends -/

section
variable {d e : Dev} {page : Nat} {x : Promo}

theorem Dev.inlinePromotionEnd_absent (hx : d.promos.find? (fun x => x.page == page) = none) : d.inlinePromotionEnd page = d := by
  simp only [Dev.inlinePromotionEnd, hx]

variable (hx : d.promos.find? (fun x => x.page == page) = some x)
include hx

theorem Dev.inlinePromotionEnd_waits (hm : d.mayDecode page x.old.tier x.id = false) : d.inlinePromotionEnd page = d := by
  simp [Dev.inlinePromotionEnd, hx, hm]

variable (hm : d.mayDecode page x.old.tier x.id = true) (he : e = { d with promos := d.promos.filter fun y => y.page != page })
include hm he

theorem Dev.inlinePromotionEnd_erased (hk : e.erasedPage x.old = true) : d.inlinePromotionEnd page = e.promoErased x := by
  subst he
  simp [Dev.inlinePromotionEnd, hx, hm, hk]

variable (hk : e.erasedPage x.old = false)
include hk

theorem Dev.inlinePromotionEnd_failed (hf : x.failed = true) : d.inlinePromotionEnd page = e.promoLost x := by
  subst he
  simp [Dev.inlinePromotionEnd, hx, hm, hk, hf]

theorem Dev.inlinePromotionEnd_stored {ls : List (Line × Bool)} {k : Nat} (hf : x.failed = false)
    (hs : e.storedPage x.old = .ok (ls, k)) : d.inlinePromotionEnd page =
      (((e.setEntry page { e.entry page with
          st := .stable, owner := 0, tier := 0, raw := false, book := 0, loc := locT1 x.frame
          kdom := (e.attrs page).elim (e.entry page).kdom Region.kdom }).releaseStorage x.old).placePage
        page (e.pageView page ls)).promoWrite x := by
  subst he
  simp [Dev.inlinePromotionEnd, hx, hm, hk, hf, hs]

end

/-! ### The cistern -/

section
variable {d : Dev} {g : Nat} {ue : Bool} (hv : ((d.gran g).v0 || (d.gran g).v1) = true)
include hv

theorem Dev.cisternEviction_valid : d.cisternEviction g ue = d.evictGran g ue := if_pos hv

theorem Dev.cisternEviction_clean (h0 : (d.gran g).d0 = false) (h1 : (d.gran g).d1 = false) : d.cisternEviction g ue = d.setGran g {} := by
  rw [Dev.cisternEviction_valid hv]
  simp [Dev.evictGran, h0, h1]

theorem Dev.cisternEviction_dirty (hd : ((d.gran g).d0 || (d.gran g).d1) = true) (he : d.evictable g = true) :
    d.cisternEviction g ue = (d.writeBack g ue).setGran g {} := by
  rw [Dev.cisternEviction_valid hv]
  simp only [Dev.evictGran, hd, he, if_true]

theorem Dev.cisternEviction_stays (hd : ((d.gran g).d0 || (d.gran g).d1) = true) (he : d.evictable g = false) :
    d.cisternEviction g ue = d := by
  rw [Dev.cisternEviction_valid hv]
  simp [Dev.evictGran, hd, he]

end

section
variable {d : Dev} {g t : Nat} (hk : (d.gran g).keep = some t)
include hk

theorem Dev.keepExpiry_ended (ht : t ≤ d.time.loc) : d.keepExpiry g = d.setGran g { d.gran g with keep := none } := by
  simp [Dev.keepExpiry, hk, ht]

theorem Dev.keepExpiry_runs (ht : d.time.loc < t) : d.keepExpiry g = d := by
  simp [Dev.keepExpiry, hk, Nat.not_le.mpr ht]

end

/-- Settles O46: a read and a promotion end by what they find, an eviction by the granule's dirt, and a retention by the clock. -/
theorem readsPromotionsAndEvictionsEnd : Obligations.ReadsPromotionsAndEvictionsEnd := by
  refine ⟨?absent, ?waits, ?read, ?noPromo, ?promo, ?evict, ?keep⟩
  case absent => exact fun s id hr => .of_done rfl (Dev.readCompletion_absent hr)
  case waits => exact fun s id r hr hm => .of_done rfl (Dev.readCompletion_waits hr hm)
  case read =>
    intro s id r d hr hm hd
    refine ⟨fun hf => .of_done rfl (Dev.readCompletion_failed hr hm hd hf), fun hf => ⟨fun l hl => .of_done rfl ?_,
      fun hl => .of_done rfl (Dev.readCompletion_zero hr hm hd hf hl), fun hl => .of_done rfl (Dev.readCompletion_poison hr hm hd hf hl),
      fun x hl hh hs => .of_done rfl (Dev.readCompletion_broken hr hm hd hf hl hh hs),
      fun ls k hl hh ht hs hp => .of_done rfl (Dev.readCompletion_stored hr hm hd hf hl hh ht hs hp)⟩⟩
    exact Dev.readCompletion_data hr hm hd hf hl
  case noPromo => exact fun s page hx => .of_done rfl (Dev.inlinePromotionEnd_absent hx)
  case promo =>
    intro s page x d ls k hx hd
    exact ⟨fun hm => .of_done rfl (Dev.inlinePromotionEnd_waits hx hm),
      fun hm hk => .of_done rfl (Dev.inlinePromotionEnd_erased hx hm hd hk),
      fun hm hk hf => .of_done rfl (Dev.inlinePromotionEnd_failed hx hm hd hk hf),
      fun hm hk hf hs => .of_done rfl (Dev.inlinePromotionEnd_stored hx hm hd hk hf hs)⟩
  case evict =>
    intro s g ue hv
    exact ⟨fun h0 h1 => .of_done rfl (Dev.cisternEviction_clean hv h0 h1), fun hd he => .of_done rfl (Dev.cisternEviction_dirty hv hd he),
      fun hd he => .of_done rfl (Dev.cisternEviction_stays hv hd he)⟩
  case keep => exact fun s g t hk => ⟨fun ht => .of_done rfl (Dev.keepExpiry_ended hk ht), fun ht => .of_done rfl (Dev.keepExpiry_runs hk ht)⟩

end Sys2Proof.Machine

namespace Sys2Proof.Machine

open Sys2Proof

/-! ### Messages between devices -/

/-- A message taken does what its body makes of the device that remembers it (R268, R273). -/
theorem Took.leaves {c : Instr} {s : State} {m : Msg} {d e : Dev} {p op : Nat} {f : Dev → Dev}
    (hx : exec c s = s.done (s.dev.receive p op m f)) (hc : terdyOf c = some (p, op, m)) (ht : Took c s m d) (hf : f d = e) : Leaves c s e := by
  obtain ⟨p', op', hc', hup, hdest, htwice, rfl⟩ := ht
  obtain ⟨rfl, rfl⟩ : p = p' ∧ op = op' := by
    rw [hc, Option.some.injEq, Prod.mk.injEq, Prod.mk.injEq] at hc'
    exact ⟨hc'.1, hc'.2.1⟩
  refine .of_done hx (Eq.trans ?_ hf)
  have hno : ¬(m.resent && s.dev.remembered.any fun x => x.2 == (m.src, m.tag, op, m.addr)) = true := by
    simpa [Dev.Twice] using htwice
  unfold Dev.receive
  rw [if_neg (by simp [hup]), if_neg (by simp [hdest])]
  exact if_neg hno

section
variable {d : Dev} {p : Nat} {m : Msg} {k : ReqKind} {q : Req}

theorem Dev.remoteRequest_outside (hg : d.granted m = false) : d.remoteRequest p m k = d.outsideGrant p m k := by
  simp [Dev.remoteRequest, hg]

theorem Dev.remoteWrite_outside (hg : d.granted m = false) : d.remoteWrite p m k = d.outsideGrant p m k := by
  simp [Dev.remoteWrite, hg]

theorem Dev.cascadeAdmit_free (he : d.therm.enforced = false) : d.cascadeAdmit p q = (d.setPort p fun x =>
    if q.kind.isWrite then { x with capIn := x.capIn + 1 } else { x with capOut := x.capOut + 1 }).request q := by
  simp [Dev.cascadeAdmit, he]

variable (hg : d.granted m = true)
include hg

/-- Inside its grant, a request on REQ passes the port that it came by (R181, R386). -/
theorem Dev.remoteRequest_granted (hk : k ≠ .cleanEvict) : d.remoteRequest p m k =
    d.cascadeAdmit p { rq := msgRq m p, tag := m.tag, line := m.addr / 64, kind := k } := by
  simp [Dev.remoteRequest, hg, hk]

theorem Dev.remoteRequest_cleanEvict : d.remoteRequest p m .cleanEvict =
    d.request { rq := msgRq m p, tag := m.tag, line := m.addr / 64, kind := .cleanEvict } := by
  simp [Dev.remoteRequest, hg]

variable (hq : q = { rq := msgRq m p, tag := m.tag, line := m.addr / 64, kind := k, extra := true })
include hq

theorem Dev.remoteWrite_writeBack (hw : d.isWriteBack q = true) : d.remoteWrite p m k = d.request q := by
  subst hq
  simp [Dev.remoteWrite, hg, hw]

variable (hw : d.isWriteBack q = false)
include hw

theorem Dev.remoteWrite_retry (hh : (d.hsl (d.home (lnPage q.line))).held q.line = true ∨ 64 ≤ (d.hsl (d.home (lnPage q.line))).extras) :
    d.remoteWrite p m k = d.respond1 q.rq q.tag q.line .writeRetry 0#512 false := by
  subst hq
  simp only [Dev.remoteWrite, hg, hw, Bool.not_true, Bool.false_eq_true, if_false]
  exact if_pos hh

theorem Dev.remoteWrite_admitted (hh : (d.hsl (d.home (lnPage q.line))).held q.line = false)
    (hn : (d.hsl (d.home (lnPage q.line))).extras < 64) :
    d.remoteWrite p m k = d.request q := by
  subst hq
  simp only [Dev.remoteWrite, hg, hw, Bool.not_true, Bool.false_eq_true, if_false]
  exact if_neg (by simp [hh, hn])

end

/-- The read that a message asks for is no clean evict. -/
theorem msgReadKind_ne_cleanEvict (m : Msg) : msgReadKind m ≠ .cleanEvict := by
  unfold msgReadKind
  split
  · nofun
  · split <;> nofun

/-- Settles O52: each message is taken once, and its body is one case of the owner's or the importer's side. -/
theorem forwardedRequestsAndResponses : Obligations.ForwardedRequestsAndResponses := by
  refine ⟨?outside, ?inside, ?evict, ?writes, ?discarded, ?answers, ?noTimeout, ?timeout⟩
  case outside =>
    intro p m s d c hc ht hg
    simp only [List.mem_cons, List.not_mem_nil, or_false] at hc
    have hr : ∀ k, d.remoteRequest p m k = d.outsideGrant p m k := fun k => Dev.remoteRequest_outside hg
    have hw : ∀ k, d.remoteWrite p m k = d.outsideGrant p m k := fun k => Dev.remoteWrite_outside hg
    rcases hc with rfl | rfl | rfl | rfl | rfl | rfl | rfl | rfl | rfl
    exacts [ht.leaves rfl rfl (hr _), ht.leaves rfl rfl (hr _), ht.leaves rfl rfl (hr _), ht.leaves rfl rfl (hr _),
      ht.leaves rfl rfl (hw _), ht.leaves rfl rfl (hw _), ht.leaves rfl rfl (hr _), ht.leaves rfl rfl (hr _), ht.leaves rfl rfl (hr _)]
  case inside =>
    intro p m s d c hc ht hg he
    have hr : ∀ k, k ≠ .cleanEvict → d.remoteRequest p m k = _ := fun k hk =>
      (Dev.remoteRequest_granted hg hk).trans (Dev.cascadeAdmit_free he)
    simp only [List.mem_cons, List.not_mem_nil, or_false] at hc
    rcases hc with rfl | rfl | rfl | rfl | rfl | rfl
    exacts [ht.leaves rfl rfl (hr _ (msgReadKind_ne_cleanEvict m)), ht.leaves rfl rfl (hr _ nofun), ht.leaves rfl rfl (hr _ nofun),
      ht.leaves rfl rfl (hr _ nofun), ht.leaves rfl rfl (hr _ nofun), ht.leaves rfl rfl (hr _ nofun)]
  case evict => exact fun p m s d ht hg => ht.leaves rfl rfl (Dev.remoteRequest_cleanEvict hg)
  case writes =>
    intro p m s d q n c hc ht hg hq hn
    subst hn
    have hx : ∀ e, d.remoteWrite p m (msgWriteKind m c.2) = e → Leaves c.1 s e := by
      intro e he
      simp only [List.mem_cons, List.not_mem_nil, or_false] at hc
      rcases hc with rfl | rfl <;> exact ht.leaves rfl rfl he
    exact ⟨fun hw => hx _ (Dev.remoteWrite_writeBack hg hq hw), fun hw hh => hx _ (Dev.remoteWrite_retry hg hq hw hh),
      fun hw hh hl => hx _ (Dev.remoteWrite_admitted hg hq hw hh hl)⟩
  case discarded =>
    intro p m s d c hc ht hf
    simp only [List.mem_cons, List.not_mem_nil, or_false] at hc
    rcases hc with rfl | rfl | rfl <;> exact ht.leaves rfl rfl (by simp only [hf])
  case answers =>
    intro p m s d f hf
    refine ⟨fun k x full mv h ht hk => ht.leaves rfl rfl ?_, fun ht hr => ht.leaves rfl rfl ?_, fun ht hm => ht.leaves rfl rfl ?_⟩
    · simp only [hf, hk]
    · simp only [hf, hr, if_true]
    · simp [hf, hm]
  case noTimeout =>
    exact fun s tag hf => .of_done rfl (by simp only [Dev.remoteTimeout, hf])
  case timeout =>
    intro s tag f hf hg d hd
    subst hd
    exact .of_done rfl (by simp [Dev.remoteTimeout, hf, hg])

end Sys2Proof.Machine

namespace Sys2Proof.Machine

open Sys2Proof

/-! ### Every command answers -/

/-- What a command can do at a state: it leaves a device, or it comes by mailbox or as an SPDM message and then may pause (R30). -/
theorem exec_done_or_mail (c : Instr) (s : State) :
    (∃ d, exec c s = s.done d) ∨ (∃ src d, exec c s = s.mail src c d) ∨ ∃ d, exec c s = s.spdmMail c d := by
  cases c
  case pumpAbort | pumpResume | beginTxn | stage | validate | commit | rollback | revert | poolCommit | getChallenge | unlock | relock |
      requestRest | cancelRest | getPowerStatus | clkoutConfiguration | bayPowerStatus | bayPowerOn | bayPowerOff | bayPowerClear |
      thermalResume | eventPendingClear | getEventRecords | clearEventRecords | setEventInterruptPolicy | readCounters | counterReprogram |
      counterOvfClear | bandwidthWindowConfig | perturbationGo | perturbationStop | reattach | rejoinDomain | unsupportedCommand |
      getFwInfo | getTimestamp | setTimestamp | getHealthInfo | getPoisonList | clearPoisonList | injectPoison | identifyMemoryDevice |
      getSupportedLogs | getLog | getMultiHeadedInfo | requestAbort | getHarluodIdentity | managementRead | managementWrite | deviceReset |
      getReclaimRequest | releaseRange | releaseRangeComplete | retireRank | getRankStatus | scheduleRegisterWrite | setEndpointId |
      getEndpointId | getMessageTypeSupport | mctpGetVersion | identify | getHeadInfo | getDcdInfo | getHostDcRegionConfig |
      setDcRegionConfig | getDcRegionExtentLists | initiateDcAdd | initiateDcRelease | getSldQosControl | setSldQosControl |
      getSldQosStatus =>
    exact .inr (.inl ⟨_, _, rfl⟩)
  case setKey | retireDomain | eraseDomain | getDomainStatus | setCertificate | getCertificate | challenge | negotiateAlgorithms |
      keyExchange | keyUpdate | heartbeat | endSession | getMeasurements | spdmGetVersion | getCapabilities | getDigests | finish |
      getEncapsulatedRequest | deliverEncapsulatedResponse | claimOwnership | transferOwnership | revokeVendorKey | decommission =>
    exact .inr (.inr ⟨_, rfl⟩)
  all_goals exact .inl ⟨_, rfl⟩

theorem State.done_pending (s : State) (d : Dev) : ∃ t, s.done d = .next t ∧ t.pending = s.pending := ⟨_, rfl, rfl⟩

/-- Every command answers a next state with the same waiting commands: a pause keeps its command with the cores, not in the queue (R30). -/
theorem exec_answers (c : Instr) (s : State) : ∃ t, exec c s = .next t ∧ t.pending = s.pending := by
  obtain ⟨d, h⟩ | ⟨src, d, h⟩ | ⟨d, h⟩ := exec_done_or_mail c s
  · exact h ▸ s.done_pending d
  · rw [h, State.mail]
    split <;> exact s.done_pending _
  · rw [h, State.spdmMail]
    split <;> exact s.done_pending _

/-- An idle step answers a next state and touches no queue: it runs a paused command or nothing (log entries 1 and 80). -/
theorem idle_answers (s : State) : ∃ t, idle s = .next t ∧ t.pending = s.pending := by
  unfold idle
  split
  · exact ⟨s, rfl, rfl⟩
  · split
    · exact ⟨s, rfl, rfl⟩
    · exact exec_answers _ _

/-- Settles O2: the command in front runs with the queue's rest, and no command changes the queue. -/
theorem everyStepAnswersAndTakesOneCommand : Obligations.EveryStepAnswersAndTakesOneCommand := by
  intro s
  unfold step
  split
  · next hp =>
    obtain ⟨t, ht, htp⟩ := idle_answers s
    exact ⟨t, ht, by rw [htp, hp]; rfl⟩
  · next c rest hp =>
    obtain ⟨t, ht, htp⟩ := exec_answers c { s with pending := rest }
    exact ⟨t, ht, by rw [htp, hp]; rfl⟩

end Sys2Proof.Machine

namespace Sys2Proof.Machine

open Sys2Proof

/-! ### Temperature samples -/

theorem Dev.tileSensorSample_other {d : Dev} {t : Nat} (raw : Int) (h : d.tilePresent t = false ∨ d.pool % 16 ≠ t) :
    d.tileSensorSample t raw = d :=
  if_neg fun ⟨hp, ht⟩ => by rcases h with h | h <;> simp_all

theorem Dev.tileSensorSample_present {d : Dev} {t : Nat} (raw : Int) (hp : d.tilePresent t = true) (ht : d.pool % 16 = t) :
    d.tileSensorSample t raw =
      if d.stillRuns 4 (tileSlice t) then d.skipDue 4 (tileSlice t) else d.setSens t fun x => { x with fresh := some raw } :=
  if_pos ⟨hp, ht⟩

/-- From `d` to `e` the stroke count, the modules of every channel and their temperatures are as they were. -/
structure Dev.SameTemps (d e : Dev) : Prop where
  loc : e.time.loc = d.time.loc
  dimm : ∀ c i, e.slotDimm c i = d.slotDimm c i
  temp : ∀ c i, (e.chan c).modTemp i = (d.chan c).modTemp i

namespace Dev.SameTemps

theorem refl (d : Dev) : d.SameTemps d := ⟨rfl, fun _ _ => rfl, fun _ _ => rfl⟩

theorem trans {a b c : Dev} (h : a.SameTemps b) (g : b.SameTemps c) : a.SameTemps c :=
  ⟨g.loc.trans h.loc, fun c i => (g.dimm c i).trans (h.dimm c i), fun c i => (g.temp c i).trans (h.temp c i)⟩

theorem of_raised {d e : Dev} (h : d.Raised e) : d.SameTemps e := by
  have hchan : ∀ c, e.chan c = d.chan c := fun c => congrArg (·.chan c) h.bare
  exact ⟨congrArg (·.time.loc) h.bare, fun c i => by rw [Dev.slotDimm, hchan]; rfl, fun c i => by rw [hchan]⟩

/-- A change of a rank's record touches neither the modules nor their temperatures. -/
theorem setRank (d : Dev) (c r : Nat) (f : Rank → Rank) : d.SameTemps (d.setRank c r f) := by
  have hchan : ∀ j, ∃ x, (d.setRank c r f).chan j = { d.chan j with ranks := x } := by
    intro j
    rw [Dev.setRank, Dev.chan_setChan]
    split
    · next h => exact h ▸ ⟨_, rfl⟩
    · exact ⟨_, rfl⟩
  refine ⟨rfl, fun j i => ?_, fun j i => ?_⟩ <;> obtain ⟨x, hx⟩ := hchan j
  · rw [Dev.slotDimm, hx]
    rfl
  · rw [hx]
    rfl

end Dev.SameTemps

theorem Dev.startRetrain_sameTemps (d : Dev) (c r : Nat) : d.SameTemps (d.startRetrain c r) := by
  unfold Dev.startRetrain
  split
  · exact (Dev.SameTemps.setRank d c r _).trans (.of_raised (Dev.raise_raised _ _ _ _))
  · exact .refl d

/-- The read of one slot's module (R381). -/
def Dev.readSlot (d : Dev) (ch : Nat) (rs : List (List (Option Int))) (i : Nat) : Dev :=
  if (d.slotDimm ch i).isNone then d
  else
    let old := (d.chan ch).modTemp i
    let new := old.take d.time.loc (rs.getD i [])
    let e := d.setChan ch fun c => if i = 0 then { c with t0 := new } else { c with t1 := new }
    if new.unread && !old.unread then e.raiseI 216 { slice := chanSlice ch, detail := [i] } else e

theorem Dev.dimmTemperatureRead_eq {d : Dev} {ch : Nat} (rs : List (List (Option Int))) (hc : ch < d.nChans) (hp : d.pool % 16 = 8) :
    d.dimmTemperatureRead ch rs = forAll ((d.readSlot ch rs 0).readSlot ch rs 1) rankList fun d r =>
      if (d.rank ch r).st = .active ∧ d.tempMoved ch r then d.startRetrain ch r else d :=
  if_neg (by simp [hc, hp])

section
variable (d : Dev) (ch : Nat) (rs : List (List (Option Int))) (i : Nat)

/-- The read of one slot changes that slot's temperature and no other, and no module. -/
theorem Dev.readSlot_frame : (d.readSlot ch rs i).time.loc = d.time.loc ∧ (∀ j, (d.readSlot ch rs i).slotDimm ch j = d.slotDimm ch j) ∧
    (∀ j, (j = 0 ↔ i ≠ 0) → ((d.readSlot ch rs i).chan ch).modTemp j = (d.chan ch).modTemp j) ∧
    ((d.slotDimm ch i).isSome = true →
      ((d.readSlot ch rs i).chan ch).modTemp i = ((d.chan ch).modTemp i).take d.time.loc (rs.getD i [])) := by
  unfold Dev.readSlot
  split
  · next hn => exact ⟨rfl, fun _ => rfl, fun _ _ => rfl, fun hs => by simp_all⟩
  · extract_lets old new e
    have he : e.time.loc = d.time.loc ∧ (∀ j, e.slotDimm ch j = d.slotDimm ch j) ∧
        (∀ j, (j = 0 ↔ i ≠ 0) → (e.chan ch).modTemp j = (d.chan ch).modTemp j) ∧ (e.chan ch).modTemp i = new := by
      refine ⟨rfl, fun j => ?_, fun j hj => ?_, ?_⟩
      · simp only [e, Dev.slotDimm, Dev.chan_setChan, if_true]
        split_ifs <;> rfl
      · simp only [e, Dev.chan_setChan, if_true, Chan.modTemp]
        split_ifs <;> simp_all
      · simp only [e, Dev.chan_setChan, if_true, Chan.modTemp]
        split_ifs <;> rfl
    obtain ⟨hloc, hdimm, hother, hthis⟩ := he
    clear_value e
    split
    · have hr : e.SameTemps (e.raiseI 216 { slice := chanSlice ch, detail := [i] }) := .of_raised (e.raiseI_raised _ _)
      exact ⟨hr.loc.trans hloc, fun j => (hr.dimm ch j).trans (hdimm j), fun j hj => (hr.temp ch j).trans (hother j hj),
        fun _ => (hr.temp ch i).trans hthis⟩
    · exact ⟨hloc, hdimm, hother, fun _ => hthis⟩

end

/-- Both slots of a channel take their readings, whichever ranks then retrain (R214, R381). -/
theorem Dev.dimmTemperatureRead_modTemp {d : Dev} {ch : Nat} (rs : List (List (Option Int))) (hc : ch < d.nChans) (hp : d.pool % 16 = 8)
    {i : Nat} (hi : i < 2) (hs : (d.slotDimm ch i).isSome = true) :
    ((d.dimmTemperatureRead ch rs).chan ch).modTemp i = ((d.chan ch).modTemp i).take d.time.loc (rs.getD i []) := by
  obtain ⟨hloc0, hdimm0, hother0, hthis0⟩ := d.readSlot_frame ch rs 0
  obtain ⟨-, -, hother1, hthis1⟩ := (d.readSlot ch rs 0).readSlot_frame ch rs 1
  rw [Dev.dimmTemperatureRead_eq rs hc hp]
  refine ((forAll_rel .refl (fun _ _ _ => .trans) (fun d r => ?_) _ _ : Dev.SameTemps _ _).temp ch i).trans ?_
  · split
    · exact d.startRetrain_sameTemps ch r
    · exact .refl d
  · interval_cases i
    · exact (hother1 0 (by decide)).trans (hthis0 hs)
    · rw [hthis1 ((hdimm0 1).symm ▸ hs), hother0 1 (by decide), hloc0]

/-! ### Enforcement and Thermal Resume -/

/-- Enforcement starts once throttling has lasted its grace (R386). -/
theorem Dev.enforcementStart_due {d : Dev} (ht : d.therm.throttle = true) (he : d.therm.enforced = false)
    (hs : d.therm.startAt + d.fld 0xA00 15 0 ≤ d.time.loc) :
    d.enforcementStart = (d.setTherm fun t => { t with enforced := true }).raise 212 (tileSlice d.therm.tile) :=
  if_pos (by simp [ht, he, hs])

theorem Dev.enforcementStart_early {d : Dev} (h : d.therm.throttle = false ∨ d.time.loc < d.therm.startAt + d.fld 0xA00 15 0) :
    d.enforcementStart = d :=
  if_neg fun ⟨ht, _, hs⟩ => by rcases h with h | h <;> simp_all; omega

/-- Settles O23: each command is one conditional, which the hypotheses decide; the reads of the two modules are followed by retraining, which
keeps their temperatures. -/
theorem thermalCommands : Obligations.ThermalCommands := by
  refine ⟨?sample, fun s t raw h => .of_done rfl (Dev.tileSensorSample_other raw h), ?dimm, ?start,
    fun s h => .of_done rfl (Dev.enforcementStart_early h), ?resume⟩
  case sample =>
    intro s t raw hp ht
    exact ⟨fun hr => .of_done rfl ((Dev.tileSensorSample_present raw hp ht).trans (if_neg (by simp [hr]))),
      fun hr => .of_done rfl ((Dev.tileSensorSample_present raw hp ht).trans (if_pos hr))⟩
  case dimm => exact fun s ch rs hc hp => .of_done rfl fun i hi hs => Dev.dimmTemperatureRead_modTemp rs hc hp hi hs
  case start =>
    intro s ht he hs
    refine .of_done (congrArg s.done (Dev.enforcementStart_due ht he hs)) ⟨Dev.raise_pending _ 212 _ _ (by decide), ?_⟩
    exact Dev.raise_bare _ 212 _ _
  case resume =>
    intro src s d ha
    refine ha.leaves_vend rfl rfl (Nat.zero_le _) rfl rfl ?_
    have hslice : sliceOut (tileSlice d.hottest.2) = leBytes 2 (256 * d.hottest.2) := by
      simp only [sliceOut, tileSlice, sliceOf, Nat.mul_comm d.hottest.2, Nat.zero_mul, Nat.add_zero]
    simp only [Bool.not_eq_true', ge_iff_le, hslice]
    rfl

end Sys2Proof.Machine

namespace Sys2Proof.Machine

open Sys2Proof

/-! ### Boundaries, Stroke Frames and pair words -/

theorem Dev.strokeBoundary_reset {d : Dev} (x : Samples) (h : (d.tick x.halfNs).resetIsDue = true) :
    d.strokeBoundary x = (d.tick x.halfNs).resetAndPrime.plantBoundary x := if_pos h

/-- Without a reset due, a boundary runs the seven steps of R47 in order. -/
theorem Dev.strokeBoundary_steps {d e : Dev} (x : Samples) (h : (d.tick x.halfNs).resetIsDue = false) (he : e = (d.tick x.halfNs).stepOne d x) :
    d.strokeBoundary x = ((((((e.alignBoundary d).cntBoundary d x.signals).bwBoundary d x.bytes e.poolMoves).runActs d).sendFrames).stepsFiveSix
      x.heldBack) := by
  subst he
  exact if_neg (by simp [h])

section
variable {d : Dev} {p : Nat}

/-- A plain frame on a keyed link is not taken (R278). -/
theorem Dev.strokeFrame_plain {f : FrameMsg} (hf : f.plain = true) (hk : (d.port p).keyed = true) : d.strokeFrame p f = d :=
  if_neg (by simp [hf, hk])

theorem Dev.strokeFrame_taken {f : FrameMsg} (hp : p < d.nHosts) (hu : (d.port p).st = .up) (hf : f.plain = false) (hr : d.role ≠ 2) :
    d.strokeFrame p f = d.setPort p fun c => { c with frame := some f, frameAt := d.time.loc } := by
  have hrole : ∀ g, (d.setPort p g).role ≠ 2 := fun _ => hr
  exact (if_pos ⟨hp, .inr hu, by simp [hf]⟩).trans (if_neg fun h => hrole _ h.1)

theorem Dev.pairWord_unbound {w : BitVec 40} (start : Int) (mark : Nat) (hw : pairBnd w = false) : d.pairWord p w start mark = d :=
  if_neg (by simp [hw])

theorem Dev.pairWord_taken {w : BitVec 40} (start : Int) (mark : Nat) (hp : p < d.nHosts) (hu : (d.port p).st = .up) (hw : pairBnd w = true) :
    d.pairWord p w start mark =
      d.setPort p fun c => { c with arr := ((mark % 65536, start - Int.ofNat (pairOfs w)) :: c.arr).take 4 } :=
  if_pos (by simp [hp, CPort.live, hu, hw])

end

/-! ### Alignment and holdover -/

/-- The device that a measurement of the delay of port `p` leaves, before its error is corrected (R277). -/
def Dev.measured (d : Dev) (p : Nat) (a b : Int) : Dev :=
  (d.setPort p fun c => { c with delay := ((a + b) / 2).toNat }).setTime fun t => { t with corrAt := d.time.loc }

theorem Dev.measured_delay (d : Dev) (p : Nat) (a b : Int) : ((d.measured p a b).port p).delay = ((a + b) / 2).toNat :=
  (congrArg CPort.delay (d.port_setPort p _ p)).trans (by rw [if_pos rfl])

theorem Dev.phaseCorrection_measures {d : Dev} {p : Nat} {f : FrameMsg} {a b : Int} (hsp : d.strokePort = some p)
    (hf : (d.port p).goodFrame = some f) (hb : f.arrOfs = some b) (ha : (d.port p).arrivalOf (f.stroke.toNat + 65535) = some a)
    (hr : d.role = 2) (hu : d.portUp p = true) (hat : d.time.loc = (d.port p).frameAt + 1) (hc : d.time.corrAt ≠ d.time.loc) :
    d.phaseCorrection = (d.measured p a b).correctPhase (b - a) := by
  simp only [Dev.phaseCorrection, hsp, hf, hb, ha]
  exact if_pos ⟨hr, hu, hat, hc⟩

section
variable {d : Dev} {e2 : Int}

/-- An error within ±5 ns aligns the device (R52, R54). -/
theorem Dev.correctPhase_aligned (h : e2.natAbs ≤ 160) : (d.correctPhase e2).time.aligned = true ∧
    (d.correctPhase e2).time.phaseErr = e2 / 16 ∧ (d.correctPhase e2).time.slew = 0 ∧ (d.correctPhase e2).cas = d.cas ∧
    (d.correctPhase e2).ev = d.ev := by
  unfold Dev.correctPhase
  rw [if_pos h]
  dsimp only [Dev.setTime]
  split <;> exact ⟨rfl, rfl, rfl, rfl, rfl⟩

/-- An error within the step threshold is slewed away (R52). -/
theorem Dev.correctPhase_slews (h : 160 < e2.natAbs) (hs : e2.natAbs ≤ d.fld 0x214 15 8 * 320) : d.correctPhase e2 = d.setTime fun t => { t with
    phaseErr := e2 / 16, aligned := false
    slew := if 0 < e2 then -Int.ofNat (d.fld 0x214 7 0) else Int.ofNat (d.fld 0x214 7 0) } :=
  (if_neg (Nat.not_le.mpr h)).trans (if_neg (Nat.not_lt.mpr hs))

/-- A larger error is stepped over, with EV050 (R52). -/
theorem Dev.correctPhase_steps (h : 160 < e2.natAbs) (hs : d.fld 0x214 15 8 * 320 < e2.natAbs) : d.correctPhase e2 = (d.setTime fun t => { t with
    phaseErr := e2 / 16, aligned := false, slew := stepSlew (e2 / 16), realigned := true }).raise 50 (tileSlice 0) :=
  (if_neg (Nat.not_le.mpr h)).trans (if_pos hs)

end

section
variable {d : Dev}

theorem Dev.holdoverEntry_not_due (h : d.time.missed < 2 ∨ d.role ≠ 2 ∨ d.time.holdover = true) : d.holdoverEntry = d := by
  refine if_neg fun ⟨hr, hh, hm⟩ => ?_
  rcases h with h | h | h
  · omega
  · exact h hr
  · simp [h] at hh

/-- Without a stroke source, two marks missed start an unplanned holdover (R54). -/
theorem Dev.holdoverEntry_due (hr : d.role = 2) (hh : d.time.holdover = false) (hm : 2 ≤ d.time.missed) (hsp : d.strokePort = none) :
    d.holdoverEntry = (d.setTime fun t => { t with holdover := true, planned := false, aligned := false }).raise 49 (tileSlice 0) := by
  simp only [Dev.holdoverEntry, hsp]
  exact (if_pos ⟨hr, by simp [hh], hm⟩).trans (if_neg Bool.false_ne_true)

theorem Dev.phaseCorrection_unsourced (h : d.strokePort = none) : d.phaseCorrection = d := by
  simp only [Dev.phaseCorrection, h]

theorem Dev.poolOffsetRewrite_not_due (h : d.rewriteDue = false) : d.poolOffsetRewrite = d := if_neg (by simp [h])

theorem Dev.rewriteDue_unsourced (h : d.strokePort = none) : d.rewriteDue = false := by
  simp [Dev.rewriteDue, h]

end

/-! ### The activation queue -/

section
variable {d : Dev} {a : ActEntry}

theorem Dev.activation_none (h : d.dueActs = []) : d.activation = d := by
  simp [Dev.activation, h]

/-- With the clocks still, the cores there and no brace, the one entry due leaves the queue and takes effect (R48). -/
theorem Dev.activation_takes (h : d.dueActs = [a]) (hm : d.clk.moving = false) (hg : d.coresGone = false) (hb : d.sup.brace = false)
    (ha : a ∈ d.acts) (hk : ∀ n, a.kind ≠ .pertEnd n) : d.activation = ({ d with acts := d.acts.erase a }).runAct a := by
  have htake : d.activation = d.takeAct d a := by simp [Dev.activation, h, hm, hg, hb]
  rw [htake, Dev.takeAct, if_neg (by simp [hm, hg, hb]), if_neg, if_pos (by simpa using ha)]
  split
  · next n hn => exact absurd hn (hk n)
  · exact Bool.false_ne_true

/-- An empty queue, with no perturbation running, has nothing due (R48). -/
theorem Dev.dueActs_empty (ha : d.acts = []) (hp : ∀ q, (d.pert q).st ≠ 2) : d.dueActs = [] := by
  have hends : d.pertEnds = [] := by simp [Dev.pertEnds, hp]
  rw [Dev.dueActs, hends, ha]
  rfl

theorem Dev.runActs_none (s0 : Dev) (h : d.dueActs = []) : d.runActs s0 = d := by
  simp [Dev.runActs, h, forAll]

end

/-! ### Rewrites of the pool offset -/

/-- From `d` to `e` the time, the activation queue and the perturbations are as they were, and no pending bit is cleared. -/
structure Dev.SameSchedule (d e : Dev) : Prop where
  time : e.time = d.time
  acts : e.acts = d.acts
  perts : e.perts = d.perts
  pend : ∀ n, d.Pending n → e.Pending n

namespace Dev.SameSchedule

theorem refl (d : Dev) : d.SameSchedule d := ⟨rfl, rfl, rfl, fun _ h => h⟩

theorem trans {a b c : Dev} (h : a.SameSchedule b) (g : b.SameSchedule c) : a.SameSchedule c :=
  ⟨g.time.trans h.time, g.acts.trans h.acts, g.perts.trans h.perts, fun n hn => g.pend n (h.pend n hn)⟩

theorem of_raised {d e : Dev} (h : d.Raised e) : d.SameSchedule e :=
  ⟨congrArg (·.time) h.bare, congrArg (·.acts) h.bare, congrArg (·.perts) h.bare, h.pend⟩

theorem forAll {α : Type} {f : Dev → α → Dev} (hf : ∀ (d : Dev) x, d.SameSchedule (f d x)) (d : Dev) (xs : List α) :
    d.SameSchedule (Machine.forAll d xs f) :=
  forAll_rel refl (fun _ _ _ => trans) hf d xs

end Dev.SameSchedule

theorem Dev.bwClose_sameSchedule (d : Dev) (s : Nat) (part : Bool) : d.SameSchedule (d.bwClose s part) := by
  have hset : ∀ f, d.SameSchedule (d.setBw s f) := fun _ => ⟨rfl, rfl, rfl, fun _ h => h⟩
  exact (hset _).trans (.forAll (fun e _ => .of_raised (e.raise_raised _ _ _)) _ _)

theorem Dev.bwCloseAll_sameSchedule (d : Dev) : d.SameSchedule d.bwCloseAll := by
  refine .forAll (fun e s => ?_) d _
  split
  · exact .refl e
  · exact e.bwClose_sameSchedule s true

/-- The device once a rewrite has put its pool offset at `ofs` (R53). -/
def Dev.realignedTo (d : Dev) (ofs : Int) : Dev := d.setTime fun t => { t with ofs := ofs, markBad := false, realigned := true }

/-- The pool offset that the last frame `f` of port `p` gives (R53). -/
def Dev.frameOfs (d : Dev) (p : Nat) (f : FrameMsg) : Int := Int.ofNat f.stroke.toNat - Int.ofNat (d.port p).frameAt

section
variable {d : Dev} {p : Nat} {f : FrameMsg} (hsp : d.strokePort = some p) (hf : (d.port p).goodFrame = some f)
include hsp hf

theorem Dev.rewriteOfs_eq : d.rewriteOfs = (d.realignedTo (d.frameOfs p f)).raise 50 (tileSlice 0) := by
  simp only [Dev.rewriteOfs, hsp, Option.bind_some, hf, Option.map_some]
  rfl

/-- With nothing scheduled, a rewrite moves the offset, raises EV050 and closes the open windows (R53, R415). -/
theorem Dev.poolOffsetRewrite_due (hdue : d.rewriteDue = true) (ha : d.acts = []) (hp : ∀ q, (d.pert q).st ≠ 2) :
    d.poolOffsetRewrite.Pending 50 ∧ d.poolOffsetRewrite.time = (d.realignedTo (d.frameOfs p f)).time := by
  have hclose := d.rewriteOfs.bwCloseAll_sameSchedule
  have hs : (d.realignedTo (d.frameOfs p f)).SameSchedule d.rewriteOfs.bwCloseAll :=
    (Dev.SameSchedule.of_raised (by rw [Dev.rewriteOfs_eq hsp hf]; exact Dev.raise_raised _ _ _ _)).trans hclose
  have hnone : d.rewriteOfs.bwCloseAll.dueActs = [] :=
    Dev.dueActs_empty (hs.acts.trans ha) fun q => by rw [Dev.pert, hs.perts]; exact hp q
  have hpend : d.rewriteOfs.Pending 50 := by
    rw [Dev.rewriteOfs_eq hsp hf]
    exact Dev.raise_pending _ 50 _ _ (by decide)
  rw [Dev.poolOffsetRewrite, if_pos hdue, Dev.runActs_none d hnone]
  exact ⟨hclose.pend 50 hpend, hs.time⟩

end

/-- A command that raises event `n` on `e` and does nothing else. -/
theorem Raises.of_raise_on {c : Instr} {s : State} {d e : Dev} {n slice : Nat} (h : exec c s = s.done d) (hd : d = e.raise n slice)
    (hn : evClass n ≠ none) : Raises c s n e := by
  subst hd
  exact .of_done h ⟨e.raise_pending n slice 0 hn, e.raise_bare n slice 0⟩

/-- Settles O60: the equation of each command in the case that the hypotheses fix; a rewrite of the pool offset finds nothing to run. -/
theorem strokesAlignmentAndActivations : Obligations.StrokesAlignmentAndActivations := by
  refine ⟨?boundary, ?link, ?phase, ?rest, ?rewrite⟩
  case boundary =>
    rintro s x d rfl
    exact ⟨rfl, rfl, fun h => .of_done rfl (Dev.strokeBoundary_reset x h), fun h e he => .of_done rfl (Dev.strokeBoundary_steps x h he)⟩
  case link =>
    intro s p f hp hu
    exact ⟨fun hf hk => .of_done rfl (Dev.strokeFrame_plain hf hk), fun hf hr => .of_done rfl (Dev.strokeFrame_taken hp hu hf hr),
      fun w start mark => ⟨fun hw => .of_done rfl (Dev.pairWord_unbound start mark hw),
        fun hw => .of_done rfl (Dev.pairWord_taken start mark hp hu hw)⟩⟩
  case phase =>
    intro s p f a b d hsp hf hb ha hr hu hat hc hd
    have hd : d = s.dev.measured p a b := hd
    have hm : s.dev.phaseCorrection = d.correctPhase (b - a) := hd ▸ Dev.phaseCorrection_measures hsp hf hb ha hr hu hat hc
    have hfld : ∀ hi lo, d.fld 0x214 hi lo = s.dev.fld 0x214 hi lo := fun _ _ => by rw [hd]; rfl
    refine ⟨fun h => ?_, fun h hs => .of_done rfl ?_, fun h hs => .of_raise_on rfl (hm.trans (Dev.correctPhase_steps h (by rwa [hfld]))) (by decide)⟩
    · obtain ⟨hal, herr, hsl, hcas, hev⟩ := Dev.correctPhase_aligned (d := d) h
      refine .of_done (congrArg s.done hm) ⟨hal, herr, hsl, ?_, hev.trans (by rw [hd]; rfl)⟩
      have hdelay : (d.port p).delay = ((a + b) / 2).toNat := hd ▸ s.dev.measured_delay p a b
      rw [← hdelay, Dev.port, hcas, Dev.port]
    · rw [hm, Dev.correctPhase_slews h (by rwa [hfld]), hfld]
  case rest =>
    intro s
    exact ⟨fun h => ⟨.of_done rfl (Dev.phaseCorrection_unsourced h), .of_done rfl (Dev.poolOffsetRewrite_not_due (Dev.rewriteDue_unsourced h))⟩,
      fun h => .of_done rfl (Dev.holdoverEntry_not_due h),
      fun hr hh hm hsp => .of_raise_on rfl (Dev.holdoverEntry_due hr hh hm hsp) (by decide),
      fun h => .of_done rfl (Dev.activation_none h),
      fun a h hm hg hb ha hk => .of_done rfl (Dev.activation_takes h hm hg hb ha hk)⟩
  case rewrite =>
    intro s p f hsp hf hr
    refine ⟨fun h => .of_done rfl (Dev.poolOffsetRewrite_not_due h), fun h ha hp => ?_⟩
    obtain ⟨hpend, htime⟩ := Dev.poolOffsetRewrite_due hsp hf h ha hp
    exact .of_done rfl ⟨hpend, congrArg TimeSt.markBad htime, congrArg TimeSt.ofs htime, congrArg TimeSt.realigned htime⟩

end Sys2Proof.Machine

namespace Sys2Proof.Machine

open Sys2Proof

/-! ### Device Reset, scheduled register writes and aborts -/

/-- Device Reset keeps a reset that is already ordered (R72). -/
theorem deviceReset_effect (src : Src) : Effect (.deviceReset src []) src fun d =>
    { d with resetDue := some (d.resetDue.getD (d.time.loc + 2)) }.reply src .success :=
  fun _ _ ha => ha.leaves_vend rfl rfl (Nat.zero_le _) rfl rfl rfl

/-- The background command of `d` that an abort from `src` takes back (R74). -/
def Dev.abortable (d : Dev) (src : Src) : Option Bg :=
  d.cfg.bg.find? fun b => b.src == src && (match b.kind with | .bayOff _ => false | _ => true)

theorem Dev.abortable_none {d : Dev} {src : Src} (h : ∀ b ∈ d.cfg.bg, b.src ≠ src) : d.abortable src = none :=
  List.find?_eq_none.mpr fun b hb => by simp [h b hb]

theorem Dev.abortable_single {d : Dev} {src : Src} {b : Bg} (hbg : d.cfg.bg = [b]) (hsrc : b.src = src) (hk : ∀ n, b.kind ≠ .bayOff n) :
    d.abortable src = some b := by
  rw [Dev.abortable, hbg, List.find?_singleton, if_pos]
  rw [hsrc, beq_self_eq_true, Bool.true_and]
  split
  · next n hn => exact absurd hn (hk n)
  · rfl

theorem requestAbort_leaves {src : Src} {s : State} {d e : Dev} (ha : Accepted (.requestAbort src) s src d)
    (he : (match d.abortable src with | some b => d.askAbort b src | none => d.reply src .success 0x0106) = e) :
    Leaves (.requestAbort src) s e :=
  ha.leaves_mail rfl rfl he

section
variable {src : Src} {p : List Byte} {s : State} {d e : Dev}

/-- A Schedule Register Write to a bad address (R73). -/
theorem scheduleRegisterWrite_refused (ha : Accepted (.scheduleRegisterWrite src p) s src d) (hp : p.length = 16)
    (h : d.accessError (fieldAt p 0 4) 4 = true) :
    Leaves (.scheduleRegisterWrite src p) s (d.reply src .invalidInput 0x0101) := by
  refine ha.leaves_vend rfl rfl (by omega) (beq_iff_eq.mpr hp) rfl ?_
  exact if_pos h

/-- A Schedule Register Write of a good value to a live register takes effect where the activation queue takes it (R73). -/
theorem scheduleRegisterWrite_queued (ha : Accepted (.scheduleRegisterWrite src p) s src d) (hp : p.length = 16)
    (h : d.accessError (fieldAt p 0 4) 4 = false) (hc : closedReg (fieldAt p 0 4) = false)
    (hv : valueOk (fieldAt p 0 4) (BitVec.ofNat 32 (fieldAt p 4 4)) = true)
    (hq : d.queueAct (d.wanted (fieldAt p 8 8)) (if fieldAt p 0 4 = 0x610 then 2 else 4)
      (.regWrite src (fieldAt p 0 4) (BitVec.ofNat 32 (fieldAt p 4 4))) = .ok e) :
    Leaves (.scheduleRegisterWrite src p) s (e.reply src .success 0 (leBytes 8 (d.wanted (fieldAt p 8 8)))) := by
  refine ha.leaves_vend rfl rfl (by omega) (beq_iff_eq.mpr hp) rfl ?_
  simp only [h, hc, hv, hq, Bool.false_eq_true, if_false, Bool.not_true, Bool.or_self, Bool.and_false]

end

/-- Settles O18: Device Reset by its one effect, an abort by what it finds, a scheduled write by its checks. -/
theorem resetScheduleAndAbort : Obligations.ResetScheduleAndAbort := by
  intro src
  refine ⟨deviceReset_effect src, fun s d ha hno => requestAbort_leaves ha ?_, fun s d b ha hbg hsrc hk => requestAbort_leaves ha ?_,
    fun _ _ _ => scheduleRegisterWrite_refused, fun _ _ _ _ => scheduleRegisterWrite_queued⟩
  · rw [Dev.abortable_none hno]
  · rw [Dev.abortable_single hbg hsrc hk]

/-! ### The reset that Device Reset orders -/

/-- The boundary after the stroke count `loc` performs a reset ordered for stroke `t` where `t` is not later. -/
theorem Dev.resetIsDue_tick {d : Dev} {t : Nat} (halfNs : Nat) (ht : d.resetDue = some t) (hh : d.resetHeld = false) :
    (d.tick halfNs).resetIsDue = decide (t ≤ d.time.loc + 1) := by
  have hdue : (d.tick halfNs).resetIsDue = (!d.resetHeld && d.resetDue.any fun t => decide (t ≤ d.time.loc + 1)) := rfl
  rw [hdue, ht, hh]
  rfl

theorem Dev.resetN_released {d : Dev} (hh : d.resetHeld = false) (hl : d.therm.latched = false) : d.resetN false = d.resetAndPrime := by
  simp [Dev.resetN, hh, hl]

/-- Settles O6: the order, what the boundaries make of it, and the reset that it equals. -/
theorem deviceResetAtTheSecondBoundary : Obligations.DeviceResetAtTheSecondBoundary := by
  refine ⟨fun src s d ha hnone => ?order, fun s t x ht hh => ⟨fun hnow => ?due, fun hlater e he => ?early⟩,
    fun s hh hl => .of_done rfl (Dev.resetN_released hh hl)⟩
  case order =>
    have hdue : d.resetDue.getD (d.time.loc + 2) = d.time.loc + 2 := by rw [hnone, Option.getD_none]
    exact hdue ▸ deviceReset_effect src s d ha
  case due => exact .of_done rfl (Dev.strokeBoundary_reset x (by rw [Dev.resetIsDue_tick _ ht hh, hnow, decide_eq_true le_rfl]))
  case early =>
    exact .of_done rfl (Dev.strokeBoundary_steps x (by rw [Dev.resetIsDue_tick _ ht hh, decide_eq_false (Nat.not_le.mpr hlater)]) he)

end Sys2Proof.Machine

namespace Sys2Proof.Machine

open Sys2Proof

/-! ### Identity, time, and the outputs that CXL 3.1 lays out -/

/-- The timestamp counts 1000 a stroke from what it was set to (R459). -/
theorem Dev.stamp_of_tsOfs {d : Dev} {n : Nat} (h : d.time.tsOfs = Int.ofNat n - Int.ofNat (d.time.loc * 1000)) : d.stamp = n := by
  rw [Dev.stamp, h, add_sub_cancel]
  rfl

theorem getLog_effect (src : Src) (o n : Nat) : Effect (.getLog src o n) src fun d =>
    if o + n ≤ (Config.cxlBytes 12 []).length then d.reply src .success 0 (sub (Config.cxlBytes 12 []) o n)
    else d.reply src .invalidInput := by
  intro s d ha
  refine ha.leaves_mail rfl rfl ?_
  by_cases h : o + n ≤ (Config.cxlBytes 12 []).length
  · exact (if_neg (Nat.not_lt.mpr h)).trans (if_pos h).symm
  · exact (if_pos (Nat.lt_of_not_le h)).trans (if_neg h).symm

/-- The 27 bytes of Get Harluod Identity (03_host_ports.md): what the part is, what it has primed with, and who asks. -/
theorem getHarluodIdentity_effect (src : Src) : Effect (.getHarluodIdentity src []) src fun d => d.reply src .success 0 (
    leBytes 4 d.caps0.toNat ++ leBytes 4 d.caps1.toNat ++ leBytes 8 d.serial.toNat ++
    leBytes 1 (if d.prim = .primed then d.cfg.primedSlot else 0xFF) ++ leBytes 4 d.cfgVersion ++ leBytes 4 d.cfg.active.secVersion ++
    leBytes 1 d.role ++ leBytes 1 (match src with | .head h => h | .mctp => 0xFF)) := by
  intro s d ha
  refine ha.leaves_vend rfl rfl (Nat.zero_le _) rfl rfl ?_
  simp only [beq_iff_eq] <;> rfl

/-- Settles O14: each command is its gates and one answer; only Get Log and Set Timestamp have more to show. -/
theorem identityTimeAndCxlOutputs : Obligations.IdentityTimeAndCxlOutputs := by
  refine ⟨fun src => ⟨fun _ => .of_mailed (fun _ => rfl) fun _ => rfl, .of_mailed (fun _ => rfl) fun _ => rfl, fun ts s d ha => ?setTimestamp,
      getHarluodIdentity_effect src, .of_mailed (fun _ => rfl) fun _ => rfl⟩,
    fun src => ⟨.of_mailed (fun _ => rfl) fun _ => rfl, .of_mailed (fun _ => rfl) fun _ => rfl, getLog_effect src,
      .of_mailed (fun _ => rfl) fun _ => rfl, .of_mailed (fun _ => rfl) fun _ => rfl, .of_mailed (fun _ => rfl) fun _ => rfl,
      .of_mailed (fun _ => rfl) fun _ => rfl, .of_mailed (fun _ => rfl) fun _ => rfl⟩⟩
  case setTimestamp => exact ⟨_, ha.leaves_mail rfl rfl rfl, Dev.stamp_of_tsOfs rfl, rfl⟩

end Sys2Proof.Machine

namespace Sys2Proof.Machine

open Sys2Proof

/-! ### Dynamic capacity -/

section
variable {src : Src} {h : Nat} {s : State} {d e : Dev}

/-- Initiate Dynamic Capacity Add offers all of its extents to the head, or none (R65). -/
theorem initiateDcAdd_leaves {es : List Extent} (ha : Accepted (.initiateDcAdd src h es) s src d)
    (he : (if tooManyExtents es || !d.dcOk h es || !es.all d.extTag then d.reply src .invalidInput
      else ((d.setHead h fun x => { x with adds := x.adds ++ es }).emits (es.map fun e => .dcd h true e)).reply src .success) = e) :
    Leaves (.initiateDcAdd src h es) s e :=
  ha.leaves_mail rfl rfl he

/-- The blocks of the extents `es` that head `h` has in its view (R64): those that can be asked back. -/
def Dev.viewedBlocks (d : Dev) (h : Nat) (es : List Extent) : List Nat := (es.flatMap extBlocks).filter fun b => d.inView h b

/-- The device once the blocks of `es` in the view of head `h` are asked back. -/
def Dev.askBack (d : Dev) (h : Nat) (es : List Extent) : Dev :=
  d.setHead h fun x => { x with releases := (x.releases ++ d.viewedBlocks h es).eraseDups }

theorem initiateDcRelease_leaves {es : List Extent} (ha : Accepted (.initiateDcRelease src h es) s src d)
    (he : (if tooManyExtents es || !d.dcOk h es then d.reply src .invalidInput
      else ((d.askBack h es).emits (es.map fun x => .dcd h false x)).reply src .success) = e) :
    Leaves (.initiateDcRelease src h es) s e :=
  ha.leaves_mail rfl rfl he

theorem Dev.askBack_blocks (d : Dev) (h : Nat) (es : List Extent) : ((d.askBack h es).head h).blocks = (d.head h).blocks := by
  simp [Dev.askBack]

theorem Dev.mem_askBack_releases {es : List Extent} {b : Nat} : b ∈ ((d.askBack h es).head h).releases ↔
    b ∈ (d.head h).releases ∨ (b ∈ es.flatMap extBlocks ∧ d.inView h b = true) := by
  simp [Dev.askBack, Dev.viewedBlocks, -List.mem_flatMap]

/-- Every block of `bs` lies in an extent offered to head `h` (R65). -/
def Dev.offers (d : Dev) (h : Nat) (bs : List Nat) : Bool := bs.all fun b => (d.head h).adds.any fun e => (extBlocks e).contains b

theorem Dev.offers_iff {bs : List Nat} : d.offers h bs = true ↔ ∀ b ∈ bs, ∃ e ∈ (d.head h).adds, b ∈ extBlocks e := by
  simp [Dev.offers]

/-- The device once head `h` has accepted the blocks `bs`; an empty response turns the oldest offer down. -/
def Dev.acceptBlocks (d : Dev) (h : Nat) (bs : List Nat) : Dev :=
  let rest := if bs.isEmpty then (d.head h).adds.drop 1 else (d.head h).adds.filter fun e => !((extBlocks e).any bs.contains)
  d.setHead h fun x => { x with adds := rest, blocks := (x.blocks ++ bs).eraseDups }

theorem addDcResponse_leaves {bs : List Nat} (ha : Accepted (.addDcResponse h bs) s (.head h) d)
    (he : (if !d.offers h bs then d.reply (.head h) .invalidInput else (d.acceptBlocks h bs).reply (.head h) .success) = e) :
    Leaves (.addDcResponse h bs) s e :=
  ha.leaves_mail rfl rfl he

theorem Dev.mem_acceptBlocks_blocks {bs : List Nat} {b : Nat} :
    b ∈ ((d.acceptBlocks h bs).head h).blocks ↔ b ∈ (d.head h).blocks ∨ b ∈ bs := by
  simp [Dev.acceptBlocks]

/-- Head `h` holds every block of `bs` (R65). -/
def Dev.holds (d : Dev) (h : Nat) (bs : List Nat) : Bool := bs.all fun b => (d.head h).blocks.contains b

theorem Dev.holds_iff {bs : List Nat} : d.holds h bs = true ↔ ∀ b ∈ bs, b ∈ (d.head h).blocks := by
  simp [Dev.holds]

/-- The device once head `h` has given the blocks `bs` back. -/
def Dev.giveBack (d : Dev) (h : Nat) (bs : List Nat) : Dev :=
  d.setHead h fun x => { x with blocks := x.blocks.filter (!bs.contains ·), releases := x.releases.filter (!bs.contains ·) }

theorem releaseDc_leaves {bs : List Nat} (ha : Accepted (.releaseDc h bs) s (.head h) d)
    (he : (if !d.holds h bs then d.reply (.head h) .invalidInput else (d.giveBack h bs).reply (.head h) .success) = e) :
    Leaves (.releaseDc h bs) s e :=
  ha.leaves_mail rfl rfl he

theorem Dev.mem_giveBack_blocks {bs : List Nat} {b : Nat} :
    b ∈ ((d.giveBack h bs).head h).blocks ↔ b ∈ (d.head h).blocks ∧ b ∉ bs := by
  simp [Dev.giveBack]

end

/-! ### Poison -/

section
variable {src : Src} {dpa a : Nat} {s : State} {d : Dev}

theorem injectPoison_closed (ha : Accepted (.injectPoison src dpa) s src d) (hs : d.sec.scope.getLsbD 1 = false) :
    Leaves (.injectPoison src dpa) s (d.reply src .unsupported 0x0109) :=
  by
  refine ha.leaves_mail rfl rfl ?_
  exact if_pos (by rw [hs]; rfl)

theorem injectPoison_open (ha : Accepted (.injectPoison src dpa) s src d) (hs : d.sec.scope.getLsbD 1 = true) (hd : dpa % 64 = 0)
    (hm : d.srcAddr src dpa = some a) : Leaves (.injectPoison src dpa) s ((d.loseLine (a / 64)).reply src .success) :=
  ha.leaves_mail rfl rfl (by simp [hs, hm, hd])

/-- Clear Poison refuses an address that is outside the sender's view (R64), or that starts no line. -/
theorem clearPoisonList_refused {data : Line} (ha : Accepted (.clearPoisonList src dpa data) s src d)
    (h : d.srcAddr src dpa = none ∨ dpa % 64 ≠ 0) : Leaves (.clearPoisonList src dpa data) s (d.reply src .invalidPhysicalAddress) := by
  refine ha.leaves_mail rfl rfl ?_
  cases hm : d.srcAddr src dpa with
  | none => rfl
  | some a =>
    have hd : dpa % 64 ≠ 0 := h.resolve_left (by simp [hm])
    simp [hd]

/-- The write of the whole line `a` that Clear Poison makes of its data, and that nobody waits for. -/
def clearingWrite (a : Nat) (data : Line) : Req :=
  { rq := .push 0 0, tag := 0, line := a / 64, kind := .write (BitVec.allOnes 64) data true .i { kind := 0, tile := 0 } }

theorem clearPoisonList_writes {data : Line} (ha : Accepted (.clearPoisonList src dpa data) s src d) (hm : d.srcAddr src dpa = some a)
    (hd : dpa % 64 = 0) : Leaves (.clearPoisonList src dpa data) s
      ((d.serveWrite (clearingWrite a data) (BitVec.allOnes 64) data true { kind := 0, tile := 0 }).reply src .success) := by
  refine ha.leaves_mail rfl rfl ?_
  simp only [hm, hd]
  rfl

end

/-- Settles O16: each command of the extents by its check and the one head that it changes, each poison command by its check. -/
theorem dynamicCapacityAndPoison : Obligations.DynamicCapacityAndPoison := by
  refine ⟨⟨?add, ?release, ?response, ?giveBack⟩, fun src => ⟨fun _ _ => .of_mailed (fun _ => rfl) fun _ => rfl,
    fun _ _ _ => injectPoison_closed, fun _ _ _ _ => injectPoison_open, fun _ _ _ _ => clearPoisonList_refused,
    fun _ a data _ _ ha hm hd => ⟨clearingWrite a data, rfl, clearPoisonList_writes ha hm hd⟩⟩⟩
  case add =>
    intro src h es s d ha
    exact ⟨fun hbad => initiateDcAdd_leaves ha (if_pos (by simpa [or_assoc] using hbad)),
      fun hmany hok htag => initiateDcAdd_leaves ha (if_neg (by simp [hmany, hok, htag]))⟩
  case release =>
    intro src h es s d ha
    exact ⟨fun hbad => initiateDcRelease_leaves ha (if_pos (by simpa using hbad)),
      fun hmany hok => ⟨d.askBack h es, initiateDcRelease_leaves ha (if_neg (by simp [hmany, hok])), d.askBack_blocks h es,
        fun _ => Dev.mem_askBack_releases, rfl⟩⟩
  case response =>
    intro h bs s d ha
    constructor
    · rintro ⟨b, hb, hnone⟩
      have hno : ¬d.offers h bs = true := fun ho => by
        obtain ⟨e, he, hbe⟩ := Dev.offers_iff.mp ho b hb
        exact hnone e he hbe
      exact addDcResponse_leaves ha (if_pos (by simpa using hno))
    · intro hall
      exact ⟨d.acceptBlocks h bs, addDcResponse_leaves ha (if_neg (by simp [Dev.offers_iff.mpr hall])),
        fun _ => Dev.mem_acceptBlocks_blocks, rfl⟩
  case giveBack =>
    intro h bs s d ha
    constructor
    · rintro ⟨b, hb, hnone⟩
      have hno : ¬d.holds h bs = true := fun ho => hnone (Dev.holds_iff.mp ho b hb)
      exact releaseDc_leaves ha (if_pos (by simpa using hno))
    · intro hall
      exact ⟨d.giveBack h bs, releaseDc_leaves ha (if_neg (by simp [Dev.holds_iff.mpr hall])), fun _ => Dev.mem_giveBack_blocks, rfl⟩

end Sys2Proof.Machine

namespace Sys2Proof.Machine

open Sys2Proof

/-! ### Rest requests -/

section
variable {h : Nat} {s : State} {d e : Dev}

/-- Request Rest (R82), where `r` is the device with the head's request recorded. -/
theorem requestRest_leaves {p : List Byte} {r : Dev} (ha : Accepted (.requestRest (.head h) p) s (.head h) d) (hp : p.length = 8)
    (hz : zeros (sub p 4 4) = true) (hr : r = d.setHead h fun x => { x with restReq := true, restTol := fieldAt p 0 4 })
    (he : (if d.bgRuns (.head h) then d.reply (.head h) .busy
      else if d.allResting || !r.allResting then r.reply (.head h) .success 0 (restOut d.pwr.st 3 0 0 0)
      else if r.choose = 0 then r.reply (.head h) .success 0 (restOut 0 0 0 0 0)
      else r.startBg (.head h) .rest) = e) : Leaves (.requestRest (.head h) p) s e := by
  subst hr
  exact ha.leaves_vend rfl rfl (by omega) (beq_iff_eq.mpr hp) hz he

theorem cancelRest_leaves (ha : Accepted (.cancelRest (.head h) []) s (.head h) d) (he : d.endHeadRest h = e) :
    Leaves (.cancelRest (.head h) []) s (e.reply (.head h) .success) :=
  ha.leaves_vend rfl rfl (Nat.zero_le _) rfl rfl (congrArg (Dev.reply · (.head h) .success) he)

theorem Dev.endHeadRest_awake (hr : (d.head h).restReq = false) : d.endHeadRest h = d := if_neg (by simp [hr])

/-- The end of an attached head's rest wakes the device (R342). -/
theorem Dev.endHeadRest_attached (hr : (d.head h).restReq = true) (ha : d.attached h = true) :
    d.endHeadRest h = (d.setHead h fun x => { x with restReq := false, restTol := 0 }).wake 8 h := by
  simp [Dev.endHeadRest, hr, ha]

theorem Dev.endHeadRest_detached (hr : (d.head h).restReq = true) (ha : d.attached h = false) :
    d.endHeadRest h = d.setHead h fun x => { x with restReq := false, restTol := 0 } := by
  simp [Dev.endHeadRest, hr, ha]

end

/-! ### Fields of an output -/

@[simp] theorem length_leBytes (n v : Nat) : (leBytes n v).length = n := by
  induction n generalizing v with
  | zero => rfl
  | succ n ih => exact congrArg (· + 1) (ih _)

/-- The bytes of a part of an output, where the part lies. -/
theorem sub_append {pre mid post : List Byte} {off n : Nat} (hoff : pre.length = off) (hn : mid.length = n) :
    sub (pre ++ mid ++ post) off n = mid := by
  subst hoff hn
  refine List.ext_getElem (by simp [sub]) fun i hi hm => ?_
  simp [sub, List.getD_eq_getElem?_getD, List.getElem?_append, hm]

theorem fieldAt_append {pre mid post : List Byte} {off n : Nat} (hoff : pre.length = off) (hn : mid.length = n) :
    fieldAt (pre ++ mid ++ post) off n = leNat mid := by
  rw [fieldAt, sub_append hoff hn]

theorem leNat_leBytes_one (v : Nat) : leNat (leBytes 1 v) = v % 256 := by
  simp [leBytes, leNat]

/-! ### Get Power Status -/

/-- Whether `src` rests, and its tolerance; the management port does neither (R81). -/
def Dev.restAndTol (d : Dev) : Src → Bool × Nat
  | .head h => ((d.head h).restReq, min (d.head h).tolerance 0xFFFFFFFF)
  | .mctp => (false, 0)

/-- A value that only a manager is shown (R66). -/
def Dev.shown (d : Dev) (src : Src) (x : Nat) : Nat := if d.mgr src then x else 0

/-- The bytes of the power status from its third to its eighth: the flags, the wake source, and the sender's tolerance. -/
def Dev.powerOwn (d : Dev) (src : Src) : List Byte :=
  leBytes 1 (b2n (d.restAndTol src).1 + 2 * b2n d.pwr.entering + 4 * b2n d.pwr.waking) ++ leBytes 1 d.pwr.src ++ leBytes 4 (d.restAndTol src).2

/-- The next eight bytes, which only a manager is shown: the smallest tolerance and the heads attached and at rest (R66). -/
def Dev.powerHeads (d : Dev) (src : Src) : List Byte :=
  leBytes 4 (d.shown src (if d.allResting then min d.minTol 0xFFFFFFFF else 0)) ++ leBytes 2 (d.shown src (headMask d.attachedHeads)) ++
    leBytes 2 (d.shown src (headMask ((List.range d.nHosts).filter fun h => (d.head h).restReq)))

/-- The rest of the power status: the last refusal and the last change. -/
def Dev.powerLast (d : Dev) (src : Src) : List Byte :=
  leBytes 2 (d.shown src d.pwr.lastSlice) ++ leBytes 1 (d.shown src d.pwr.lastCause) ++ leBytes 1 d.pwr.idx ++ leBytes 8 d.pwr.changed ++
    leBytes 4 0

/-- The output of Get Power Status (13_power_states.md). -/
def Dev.powerStatus (d : Dev) (src : Src) : List Byte :=
  leBytes 1 d.pwr.st ++ (leBytes 1 d.pwr.target ++ (d.powerOwn src ++ (d.powerHeads src ++ d.powerLast src)))

theorem getPowerStatus_effect (src : Src) : Effect (.getPowerStatus src []) src fun d => d.reply src .success 0 (d.powerStatus src) := by
  intro s d ha
  refine ha.leaves_vend rfl rfl (Nat.zero_le _) rfl rfl ?_
  cases src <;> simp only [Dev.powerStatus, Dev.powerOwn, Dev.powerHeads, Dev.powerLast, List.append_assoc] <;> rfl

section
variable (d : Dev) (src : Src)

theorem Dev.length_powerOwn : (d.powerOwn src).length = 6 := by simp [Dev.powerOwn]
theorem Dev.length_powerHeads : (d.powerHeads src).length = 8 := by simp [Dev.powerHeads]
theorem Dev.length_powerLast : (d.powerLast src).length = 16 := by simp [Dev.powerLast]

theorem Dev.length_powerStatus : (d.powerStatus src).length = 32 := by
  simp [Dev.powerStatus, Dev.length_powerOwn, Dev.length_powerHeads, Dev.length_powerLast]

theorem Dev.powerStatus_state : fieldAt (d.powerStatus src) 0 1 = d.pwr.st % 256 :=
  (fieldAt_append (pre := []) rfl rfl).trans (leNat_leBytes_one _)

theorem Dev.powerStatus_target : fieldAt (d.powerStatus src) 1 1 = d.pwr.target % 256 := by
  rw [Dev.powerStatus, ← List.append_assoc, fieldAt_append (length_leBytes _ _) (length_leBytes _ _), leNat_leBytes_one]

theorem Dev.powerStatus_heads (h : d.mgr src = false) : fieldAt (d.powerStatus src) 8 8 = 0 := by
  have hshown : ∀ x, d.shown src x = 0 := fun x => by simp [Dev.shown, h]
  have hzero : d.powerHeads src = List.replicate 8 0#8 := by
    simp only [Dev.powerHeads, hshown]
    rfl
  have hsplit : d.powerStatus src = (leBytes 1 d.pwr.st ++ leBytes 1 d.pwr.target ++ d.powerOwn src) ++ d.powerHeads src ++ d.powerLast src := by
    simp only [Dev.powerStatus, List.append_assoc]
  rw [hsplit, fieldAt_append (by simp [d.length_powerOwn]) (d.length_powerHeads src), hzero]
  rfl

end

/-! ### The state chosen -/

/-- In a falling list the first element with a property is the greatest. -/
theorem find?_falling {l : List Nat} {p : Nat → Bool} {c n : Nat} (hl : l.Pairwise (· > ·)) (hf : l.find? p = some c) (hn : n ∈ l)
    (hc : c < n) : p n = false := by
  obtain ⟨-, as, bs, rfl, has⟩ := List.find?_eq_some_iff_append.mp hf
  obtain ⟨hcb, -⟩ := List.pairwise_cons.mp (List.pairwise_append.mp hl).2.1
  rcases List.mem_append.mp hn with h | h
  · simpa using has n h
  · rcases List.mem_cons.mp h with rfl | h
    · exact absurd hc (lt_irrefl _)
    · exact absurd hc (hcb n h).not_gt

/-- The settings enable the state `n`, and its exit time is within the smallest tolerance (R336). -/
def Dev.stateFits (d : Dev) (n : Nat) : Bool := d.fld 0x504 (n - 1) (n - 1) == 1 && decide (d.pwr.exit n * 1000 ≤ d.minTol)

theorem Dev.stateFits_iff {d : Dev} {n : Nat} :
    d.stateFits n = true ↔ d.fld 0x504 (n - 1) (n - 1) = 1 ∧ d.pwr.exit n * 1000 ≤ d.minTol := by
  simp [Dev.stateFits]

/-- The states of rest, the deepest first. -/
def restStates : List Nat := [4, 3, 2, 1]

theorem mem_restStates {n : Nat} : n ∈ restStates ↔ 0 < n ∧ n ≤ 4 := by
  simp only [restStates, List.mem_cons, List.not_mem_nil, or_false]
  omega

section
variable {d : Dev}

theorem Dev.choose_awake (h : d.allResting = false ∨ d.prim ≠ .primed) : d.choose = 0 :=
  if_neg fun ⟨hp, hr⟩ => h.elim (fun h => by simp [h] at hr) (fun h => h hp)

theorem Dev.choose_resting (hr : d.allResting = true) (hp : d.prim = .primed) : d.choose = (restStates.find? d.stateFits).getD 0 :=
  if_pos ⟨hp, hr⟩

/-- A state chosen is a state of rest that fits. -/
theorem Dev.choose_fits (h : d.choose ≠ 0) : d.choose ∈ restStates ∧ d.stateFits d.choose = true := by
  have hr : d.allResting = true := by
    by_contra hr
    exact h (Dev.choose_awake (.inl (by simpa using hr)))
  have hp : d.prim = .primed := by
    by_contra hp
    exact h (Dev.choose_awake (.inr hp))
  rw [Dev.choose_resting hr hp] at h ⊢
  cases hf : restStates.find? d.stateFits with
  | none => simp [hf] at h
  | some c => exact ⟨List.mem_of_find?_eq_some hf, List.find?_some hf⟩

/-- No deeper state of rest fits (R336). -/
theorem Dev.choose_deepest {n : Nat} (hr : d.allResting = true) (hp : d.prim = .primed) (hn : n ∈ restStates) (hc : d.choose < n) :
    d.stateFits n = false := by
  rw [Dev.choose_resting hr hp] at hc
  cases hf : restStates.find? d.stateFits with
  | none => simpa using List.find?_eq_none.mp hf n hn
  | some c =>
    rw [hf] at hc
    exact find?_falling (by decide) hf hn hc

end

/-- Settles O32: the requests by their checks, the power status by where its fields lie, and the state chosen as the first that fits of a
falling list. -/
theorem restRequestsAndTheStateChosen : Obligations.RestRequestsAndTheStateChosen := by
  refine ⟨⟨?request, ?cancel, fun s d ha => ?cancelMctp, fun p s d ha hp hz => ?requestMctp, ?status⟩, ?chosen⟩
  case request =>
    intro h p s d ha hp hz e he
    refine ⟨fun hb => requestRest_leaves ha hp hz he (if_pos hb), fun hb hr => requestRest_leaves ha hp hz he ?_,
      fun hb hd hr hc => requestRest_leaves ha hp hz he ?_, fun hb hd hr hc => requestRest_leaves ha hp hz he ?_⟩
    · rw [if_neg (by simp [hb]), if_pos (by simpa using hr)]
    · rw [if_neg (by simp [hb]), if_neg (by simp [hd, hr]), if_pos hc]
    · rw [if_neg (by simp [hb]), if_neg (by simp [hd, hr]), if_neg hc]
  case cancel =>
    intro h s d ha
    exact ⟨fun hr => cancelRest_leaves ha (Dev.endHeadRest_awake hr), fun hr hat => cancelRest_leaves ha (Dev.endHeadRest_attached hr hat),
      fun hr hat => cancelRest_leaves ha (Dev.endHeadRest_detached hr hat)⟩
  case cancelMctp => exact ha.leaves_vend rfl rfl (Nat.zero_le _) rfl rfl rfl
  case requestMctp => exact ha.leaves_vend rfl rfl (by omega) (beq_iff_eq.mpr hp) hz rfl
  case status =>
    exact fun src s d ha => ⟨d.powerStatus src, d.length_powerStatus src, getPowerStatus_effect src s d ha, d.powerStatus_state src,
      d.powerStatus_target src, d.powerStatus_heads src⟩
  case chosen =>
    refine fun d => ⟨Dev.choose_awake, ?_, fun h => Dev.stateFits_iff.mp (Dev.choose_fits h).2, fun n hc hn hr hp hfit => ?_⟩
    · rcases Nat.eq_zero_or_pos d.choose with h | h
      · omega
      · exact (mem_restStates.mp (Dev.choose_fits h.ne').1).2
    · have hno := Dev.choose_deepest hr hp (mem_restStates.mpr ⟨by omega, hn⟩) hc
      exact Bool.false_ne_true (hno.symm.trans (Dev.stateFits_iff.mpr hfit))

end Sys2Proof.Machine

namespace Sys2Proof.Machine

open Sys2Proof

/-! ### The word of a well map entry -/

/-- `w` has every field of the entry `e` at its place, and 0 in the reserved bits (R88). -/
structure MapEntry.Spelled (e : MapEntry) (w : BitVec 128) : Prop where
  st : w.extractLsb' 125 3 = BitVec.ofNat 3 e.st.code
  tier : w.extractLsb' 123 2 = BitVec.ofNat 2 e.tier
  raw : w.extractLsb' 122 1 = BitVec.ofBool e.raw
  parity : w.extractLsb' 121 1 = BitVec.ofBool e.parity
  owner : w.extractLsb' 118 3 = BitVec.ofNat 3 e.owner
  poison : w.extractLsb' 116 2 = BitVec.ofNat 2 e.poison
  book : w.extractLsb' 112 4 = BitVec.ofNat 4 e.book
  kdom : w.extractLsb' 100 12 = BitVec.ofNat 12 e.kdom
  heat : w.extractLsb' 92 8 = BitVec.ofNat 8 e.heat
  stamp : w.extractLsb' 76 16 = BitVec.ofNat 16 e.stamp
  cold : w.extractLsb' 72 4 = BitVec.ofNat 4 e.cold
  reserved : w.extractLsb' 48 24 = 0#24
  loc : w.extractLsb' 0 48 = e.loc

/-- The fields below the one asked for are passed over, from the low end of the word up; what is then at the low end is the field. -/
theorem MapEntry.encode_spelled (e : MapEntry) : e.Spelled e.encode := by
  constructor
  case st =>
    iterate 12 refine (BitVec.extractLsb'_append_eq_of_le (by decide)).trans ?_
    exact BitVec.extractLsb'_eq_self
  all_goals
    repeat refine (BitVec.extractLsb'_append_eq_of_le (by decide)).trans ?_
    exact BitVec.extractLsb'_append_eq_right

/-- The fields cover the word, so no other word spells the entry. -/
theorem MapEntry.Spelled.encode_eq {e : MapEntry} {w : BitVec 128} (h : e.Spelled w) : e.encode = w := by
  rw [MapEntry.encode, ← h.st, ← h.tier, ← h.raw, ← h.parity, ← h.owner, ← h.poison, ← h.book, ← h.kdom, ← h.heat, ← h.stamp, ← h.cold,
    ← h.reserved, ← h.loc]
  iterate 12 rw [BitVec.extractLsb'_append_extractLsb'_eq_extractLsb' (by rfl)]
  exact BitVec.extractLsb'_eq_self

section
variable {n : Nat}

theorem extractLsb'_one (w : BitVec n) (i : Nat) : w.extractLsb' i 1 = BitVec.ofBool (w.getLsbD i) := by
  ext j hj
  simp [show j = 0 by omega]

theorem getLsbD_of_extractLsb' {w : BitVec n} {i : Nat} {b : Bool} (h : w.extractLsb' i 1 = BitVec.ofBool b) : w.getLsbD i = b :=
  BitVec.ofBool_eq_iff_eq.mp ((extractLsb'_one w i).symm.trans h)

theorem toNat_of_extractLsb' {w : BitVec n} {i k v : Nat} (h : w.extractLsb' i k = BitVec.ofNat k v) (hv : v < 2 ^ k) :
    (w.extractLsb' i k).toNat = v := by
  rw [h, BitVec.toNat_ofNat, Nat.mod_eq_of_lt hv]

theorem extractLsb'_eq_ofNat_toNat (w : BitVec n) (i k : Nat) : w.extractLsb' i k = BitVec.ofNat k (w.extractLsb' i k).toNat := by
  rw [BitVec.ofNat_toNat, BitVec.setWidth_eq]

end

theorem PgSt.code_lt (st : PgSt) : st.code < 2 ^ 3 := by cases st <;> decide

theorem PgSt.ofCode_eq_some {n : Nat} {st : PgSt} : PgSt.ofCode n = some st ↔ n = st.code := by
  constructor
  · intro h
    unfold PgSt.ofCode at h
    split at h <;> cases h <;> rfl
  · rintro rfl
    cases st <;> rfl

theorem MapEntry.fits_iff {e : MapEntry} : e.fits = true ↔ e.tier < 2 ^ 2 ∧ e.owner < 2 ^ 3 ∧ e.poison < 2 ^ 2 ∧ e.book < 2 ^ 4 ∧
    e.kdom < 2 ^ 12 ∧ e.heat < 2 ^ 8 ∧ e.stamp < 2 ^ 16 ∧ e.cold < 2 ^ 4 := by
  simp [MapEntry.fits, and_assoc]

theorem MapEntry.Spelled.decode_eq {e : MapEntry} {w : BitVec 128} (h : e.Spelled w) (hf : e.fits = true) : MapEntry.decode w = some e := by
  obtain ⟨tier, owner, poison, book, kdom, heat, stamp, cold⟩ := MapEntry.fits_iff.mp hf
  rw [MapEntry.decode, PgSt.ofCode_eq_some.mpr (toNat_of_extractLsb' h.st e.st.code_lt), Option.map_some, toNat_of_extractLsb' h.tier tier,
    getLsbD_of_extractLsb' h.raw, getLsbD_of_extractLsb' h.parity, toNat_of_extractLsb' h.owner owner, toNat_of_extractLsb' h.poison poison,
    toNat_of_extractLsb' h.book book, toNat_of_extractLsb' h.kdom kdom, toNat_of_extractLsb' h.heat heat,
    toNat_of_extractLsb' h.stamp stamp, toNat_of_extractLsb' h.cold cold, h.loc]

theorem MapEntry.spelled_of_decode {e : MapEntry} {w : BitVec 128} (h : MapEntry.decode w = some e) (hr : w.extractLsb' 48 24 = 0#24) :
    e.Spelled w := by
  obtain ⟨st, hst, rfl⟩ := Option.map_eq_some_iff.mp h
  constructor
  case st => rw [← PgSt.ofCode_eq_some.mp hst]; exact extractLsb'_eq_ofNat_toNat w 125 3
  case raw => exact extractLsb'_one w 122
  case parity => exact extractLsb'_one w 121
  case reserved => exact hr
  case loc => rfl
  all_goals exact extractLsb'_eq_ofNat_toNat w _ _

theorem MapEntry.fits_of_decode {e : MapEntry} {w : BitVec 128} (h : MapEntry.decode w = some e) : e.fits = true := by
  obtain ⟨st, -, rfl⟩ := Option.map_eq_some_iff.mp h
  exact MapEntry.fits_iff.mpr ⟨BitVec.isLt _, BitVec.isLt _, BitVec.isLt _, BitVec.isLt _, BitVec.isLt _, BitVec.isLt _, BitVec.isLt _,
    BitVec.isLt _⟩

/-- Settles O7: the word of an entry spells it, and spelling determines the word from the entry and, where its fields fit, the entry from
the word. -/
theorem mapEntryAndItsWordAgree : Obligations.MapEntryAndItsWordAgree :=
  ⟨fun e => e.encode_spelled.decode_eq, fun e => e.encode_spelled.reserved,
    fun _ _ h hr => ⟨(MapEntry.spelled_of_decode h hr).encode_eq, MapEntry.fits_of_decode h⟩⟩

end Sys2Proof.Machine

namespace Sys2Proof.Machine

open Sys2Proof

/-! ### Commands over MCTP while the management cores are away -/

theorem Dev.Attends.paused {d e : Dev} (h : d.Attends e) : e.cores.paused = d.cores.paused := (congrArg Cores.paused h.cores :)

/-- A command that pauses joins those that wait for the cores (R30, log entry 80), so it leaves no device with the same ones waiting as
before. -/
theorem not_leaves_of_pause {c : Instr} {s : State} {e : Dev} (hx : exec c s = s.pause c) (he : e.cores.paused = s.dev.cores.paused) :
    ¬ Leaves c s e := by
  intro h
  have hnext : (⟨_, s.pending⟩ : State) = ⟨e, s.pending⟩ := Host.Outcome.next.inj (hx.symm.trans h)
  have hpaused : (s.dev.wake 5 0).cores.paused ++ [c] = e.cores.paused := congrArg (·.dev.cores.paused) hnext
  rw [(s.dev.wake_attends 5 0).paused, he] at hpaused
  simp at hpaused

/-- A primed device whose management cores are away while these background commands run, and no command in the queue. -/
def State.coresAway (bg : List Bg) : State := { dev := { prim := .primed, cores := { away := true }, cfg := { bg := bg } }, pending := [] }

/-- Refutes O19: the clauses about the end of a Release Range ask nothing of the management cores. While they are away a Release Range
Complete over MCTP, whose release of page 0 is not yet at its end, waits for them (R30, log entry 80) and does not leave the device as it
is. -/
theorem not_reclaimAndRetireCommands : ¬ Obligations.ReclaimAndRetireCommands := by
  rintro ⟨-, -, hcomplete, -⟩
  let b : Bg := { src := .mctp, kind := .release 0 1 0 0 }
  have hwaits : ¬ Leaves (.releaseRangeComplete .mctp) (.coresAway [b]) (State.coresAway [b]).dev := not_leaves_of_pause rfl rfl
  exact hwaits ((hcomplete .mctp (.coresAway [b]) b 0 1 0 0 rfl rfl rfl rfl).2 Nat.one_pos)

/-- Refutes O57: a write of ABORT over MCTP that finds the management cores away is said to leave the device as it is, where it waits for
the cores (R30, log entry 80). -/
theorem not_pumpsFencesSweepAndBooks : ¬ Obligations.PumpsFencesSweepAndBooks := by
  rintro ⟨-, -, -, -, -, hrefused, -⟩
  have hwaits : ¬ Leaves (.pumpAbort .mctp 0) (.coresAway []) (State.coresAway []).dev := not_leaves_of_pause rfl rfl
  exact hwaits (hrefused .mctp (.coresAway []) 0 rfl).1

end Sys2Proof.Machine

namespace Sys2Proof.Machine

open Sys2Proof

/-! ### Key messages -/

section
variable {d : Dev} {x : Sess} {r : List Byte} {op h : Nat}

theorem Dev.dropDomain_attends (d : Dev) (n : Nat) : d.Attends (d.dropDomain n) :=
  .forAll (f := fun e g => e.dropPage g) (fun _ _ => .of_eq rfl) d _

theorem Dev.keyReply_attends (d : Dev) (x : Sess) (op st n : Nat) : d.Attends (d.keyReply x op st n) := by
  unfold Dev.keyReply
  split
  · exact .refl d
  · exact .emit d _

theorem Dev.setKd_attends (d : Dev) (n : Nat) (f : KDom → KDom) : d.Attends (d.setKd n f) := .of_eq rfl

/-- A key message that is handled opens and closes no session and queues no other. -/
theorem Dev.keyHandle_attends (d : Dev) (q : KeyReq) : d.Attends (d.keyHandle q) := by
  unfold Dev.keyHandle
  extract_lets n
  split
  · exact d.keyReply_attends _ _ _ _
  · split
    · split
      · exact .of_eq rfl
      · exact d.setKd_attends _ _
    · split
      · exact d.setKd_attends _ _
      · split
        · exact (d.setKd_attends _ _).trans (Dev.dropDomain_attends _ _)
        · exact d.keyReply_attends _ _ _ _

theorem Dev.keyDrain_nil (hq : d.sec.keyq = []) (n : Nat) : d.keyDrain n = d := by
  cases n with
  | zero => rfl
  | succ n => simp only [Dev.keyDrain, hq]

theorem Dev.keyPump_nil (hq : d.sec.keyq = []) : d.keyPump = d := Dev.keyDrain_nil hq _

/-- A message that comes while none waits and none is being handled is handled at once (R153). -/
theorem Dev.keyPump_one (hq : d.sec.keyq = []) (hb : d.keyBusy = false) (q : KeyReq) :
    (d.setSec fun c => { c with keyq := c.keyq ++ [q] }).keyPump = d.keyHandle q := by
  have hone : (d.setSec fun c => { c with keyq := c.keyq ++ [q] }).sec.keyq = [q] := by simp [Dev.setSec, hq]
  have hback : ((d.setSec fun c => { c with keyq := c.keyq ++ [q] }).setSec fun c => { c with keyq := [] }) = d := by
    rw [← hq]
    rfl
  have hidle : (d.setSec fun c => { c with keyq := c.keyq ++ [q] }).keyBusy = false := hb
  simp only [Dev.keyPump, Dev.keyDrain, hone, hidle, hback, Bool.false_eq_true, if_false]
  exact Dev.keyDrain_nil ((congrArg SecSt.keyq (d.keyHandle_attends q).sec).trans hq) _

/-- The session `x` is the key manager's: finished, mutually authenticated, and its peer's chain ends in the key manager's root (R152). -/
def Dev.ManagedBy (d : Dev) (x : Sess) : Prop := ∃ y, d.session x = some y ∧ y.finished = true ∧ y.bothAuth = true ∧ y.kmRoot = true

variable (hx : d.SpdmHeard x) (htr : x.tr = .doe h)
include hx htr

theorem Dev.keyMessage_unmanaged (hm : ¬d.ManagedBy x) : d.keyMessage x op r = d.emit (.spdm x 1 []) := by
  have hok : ((d.session x).any fun y => y.finished && y.bothAuth && y.kmRoot) = false := by
    rw [Bool.eq_false_iff, ne_eq, Option.any_eq_true]
    rintro ⟨y, hy, hf⟩
    simp only [Bool.and_eq_true, and_assoc] at hf
    exact hm ⟨y, hy, hf⟩
  rw [Dev.keyMessage, Dev.spdm_of_heard hx]
  simp [htr, hok]

variable (hm : d.ManagedBy x) (hq : d.sec.keyq = []) (hb : d.keyBusy = false)
include hm hq hb

theorem Dev.keyMessage_managed : d.keyMessage x op r = d.keyHandle { sess := x, op := op, req := r } := by
  obtain ⟨y, hy, hf, ha, hk⟩ := hm
  rw [Dev.keyMessage, Dev.spdm_of_heard hx]
  simp [htr, hy, hf, ha, hk, Dev.keyPump_one hq hb]

end

theorem Dev.ManagedBy.reply {d : Dev} {x : Sess} (h : d.ManagedBy x) (op st n : Nat) : d.keyReply x op st n = d.emit (.spdm x 0
    (leBytes 1 (op + 128) ++ leBytes 1 st ++ leBytes 2 n ++ leBytes 1 (d.kdSt n).num ++ leBytes 3 0 ++ leBytes 8 (d.kdomRefs n))) := by
  obtain ⟨y, hy, -⟩ := h
  exact if_neg (by simp [hy])

/-! ### Rolling a job back -/

theorem Dev.freeFrame_attends (d : Dev) (f : Nat) : d.Attends (d.freeFrame f) := by
  unfold Dev.freeFrame
  split
  · exact .of_eq rfl
  · dsimp only
    split <;> exact .of_eq rfl

theorem Dev.freeSlots_attends (d : Dev) (i n : Nat) : d.Attends (d.freeSlots i n) := by
  unfold Dev.freeSlots
  extract_lets f m
  split
  · exact d.freeFrame_attends f
  · exact .of_eq rfl

theorem Dev.send_attends (d : Dev) (op : Nat) (m : Msg) : d.Attends (d.send op m) := by
  have hroute : ∀ f, d.Attends (d.setRoute m.dest f) := fun _ => .of_eq rfl
  unfold Dev.send Dev.sendTo
  split
  · exact hroute _
  · split
    · exact (hroute _).trans (Dev.sendOn_attends _ _ _ _)
    · exact (hroute _).trans (Dev.Attends.raise _ 156 (tileSlice 1) 0)

theorem Dev.sendPageFree_attends (d : Dev) (dev addr : Nat) : d.Attends (d.sendPageFree dev addr) := by
  refine .trans ?_ (Dev.send_attends _ _ _)
  exact .of_eq rfl

theorem Dev.freeDest_attends (d : Dev) (x : JobDest) (acked : Bool) : d.Attends (d.freeDest x acked) := by
  unfold Dev.freeDest
  split
  · exact .refl d
  · split
    · exact d.freeFrame_attends _
    · split
      · exact d.freeSlots_attends _ _
      · split
        · exact d.sendPageFree_attends _ _
        · exact .refl d

theorem Dev.restorePage_attends (d : Dev) (p page : Nat) : d.Attends (d.restorePage p page) := by
  unfold Dev.restorePage
  dsimp only
  split
  · exact .of_eq rfl
  · exact .refl d

theorem Dev.endJob_attends (d : Dev) (p r n : Nat) : d.Attends (d.endJob p r n) := by
  refine .of_eq ?_
  unfold Dev.endJob
  split
  · dsimp only
    split <;> split <;> rfl
  · rfl

/-- A job that rolls back frees what it reserved and returns its pages; the sessions and the key messages are not touched (R108). -/
theorem Dev.rollBack_attends (d : Dev) (p r : Nat) : d.Attends (d.rollBack p r) := by
  unfold Dev.rollBack
  split
  · exact .refl d
  · next j _ =>
    extract_lets d1 d2
    have h1 : d.Attends d1 := .forAll (fun e (x : Nat × MapEntry) => e.restorePage_attends p x.1) d _
    have hframes : ∀ fs : List Nat, d1.Attends (forAll d1 fs fun e f => e.freeFrame f) := .forAll Dev.freeFrame_attends d1
    refine (h1.trans ?_).trans (d2.endJob_attends p r 0)
    unfold d2
    split
    · exact hframes _
    · split
      · exact hframes _
      · exact .forAll (fun e x => e.freeDest_attends x _) d1 _

/-! ### The life of a key domain -/

theorem Dev.keyReply_kd (d : Dev) (x : Sess) (op st n m : Nat) : (d.keyReply x op st n).kd m = d.kd m := by
  unfold Dev.keyReply
  split <;> rfl

/-- With no key message waiting, the end of an invalidation erases the key of its domain (R156). -/
theorem Dev.eraseInvalidationDone_kd {d : Dev} {n : Nat} (he : (d.kd n).erasing = true) (hq : d.sec.keyq = []) :
    ∃ k : KDom, (d.eraseInvalidationDone n).kd n = { k with st := .erased, k1 := 0#256, k2 := 0#256, erasing := false, sess := none } := by
  unfold Dev.eraseInvalidationDone
  extract_lets k d1 jobs d2 d3 d4
  have h2 : d.Attends d2 := (d.dropDomain_attends n).trans (.forAll (fun e p => e.rollBack_attends p 3) d1 jobs)
  have h4 : d3.Attends d4 ∧ d4.kd n = d3.kd n := by
    unfold d4
    split
    · exact ⟨d3.keyReply_attends _ _ _ _, d3.keyReply_kd _ _ _ _ _⟩
    · exact ⟨.refl d3, rfl⟩
  have hq4 : d4.sec.keyq = [] :=
    (congrArg SecSt.keyq (h2.trans ((d2.setKd_attends n _).trans h4.1)).sec).trans hq
  rw [if_neg (by simp [k, he]), Dev.keyPump_nil hq4, h4.2]
  exact ⟨d2.kd n, (d2.kd_setKd n _ n).trans (if_pos rfl)⟩

/-- Settles O37: over DOE a key message goes to `keyMessage`, which answers or handles it at once; the rest is the case that the state
of the domain fixes. -/
theorem keyMessagesAndDomains : Obligations.KeyMessagesAndDomains := by
  refine ⟨?unmanaged, ?managed, ?erased, ?empty⟩
  case unmanaged =>
    intro x r h s hx htr hm c hc
    simp only [List.mem_cons, List.not_mem_nil, or_false] at hc
    rcases hc with rfl | rfl | rfl | rfl <;> exact leaves_heard hx rfl (Dev.keyMessage_unmanaged hx htr hm)
  case managed =>
    intro x r h n s y hx htr hy hf ha hk hq hb hn
    have hm : s.dev.ManagedBy x := ⟨y, hy, hf, ha, hk⟩
    have hmsg : ∀ op, s.dev.keyMessage x op r = s.dev.keyHandle { sess := x, op := op, req := r } := fun op =>
      Dev.keyMessage_managed hx htr hm hq hb
    subst hn
    refine ⟨fun henc c hc => ?_, fun hr h0 => leaves_heard hx rfl ((hmsg 1).trans ?_),
      fun hr h1 => leaves_heard hx rfl ((hmsg 1).trans ?_), fun hr => leaves_heard hx rfl ((hmsg 2).trans ?_),
      fun hr => leaves_heard hx rfl ((hmsg 3).trans ?_), fun hr => leaves_heard hx rfl ((hmsg 4).trans ?_)⟩
    · have hdeny : ∀ op, s.dev.keyMessage x op r = s.dev.keyReply x op 4 (fieldAt r 2 2) := fun op =>
        (hmsg op).trans (by simp [Dev.keyHandle, Dev.keyRefused, henc])
      simp only [List.mem_cons, List.not_mem_nil, or_false] at hc
      rcases hc with rfl | rfl | rfl | rfl <;> exact leaves_heard hx rfl (hdeny _)
    · simp [Dev.keyHandle, hr, h0]
    · simp [Dev.keyHandle, hr, h1, Dev.fresh]
    · simp [Dev.keyHandle, hr]
    · simp [Dev.keyHandle, hr]
    · simp [Dev.keyHandle, hr, hm.reply]
  case erased =>
    intro s n he hq
    obtain ⟨k, hk⟩ := Dev.eraseInvalidationDone_kd he hq
    exact .of_done rfl (by simp [hk])
  case empty =>
    intro s n hn hst he
    refine ⟨fun hrefs => ?_, fun hrefs => .of_done rfl (if_neg fun hc => hrefs hc.2.2.2)⟩
    have hdue : n ≠ 0 ∧ ((s.dev.kd n).st = .retiring ∨ (s.dev.kd n).st = .erased) ∧ !(s.dev.kd n).erasing ∧ s.dev.kdomRefs n = 0 :=
      ⟨hn, hst, by simp [he], hrefs⟩
    refine .of_done (congrArg s.done (if_pos hdue)) ⟨Dev.raiseI_pending _ 102 _ (by decide), Dev.raiseI_bare _ 102 _⟩

end Sys2Proof.Machine

namespace Sys2Proof.Machine

open Sys2Proof

/-! ### The record of one cascade port -/

theorem Tbl.put_put {α : Type} (t : Tbl α) (k : Nat) (v w : α) : Tbl.put (Tbl.put t k v) k w = Tbl.put t k w := by
  induction t with
  | nil => simp [Tbl.put]
  | cons x t ih =>
    obtain ⟨j, u⟩ := x
    by_cases hj : k = j
    · simp [Tbl.put, hj]
    · by_cases hlt : k < j
      · simp [Tbl.put, hj, hlt]
      · simp [Tbl.put, hj, hlt, ih]

theorem Tbl.del_put {α : Type} (t : Tbl α) (k : Nat) (v : α) : Tbl.del (Tbl.put t k v) k = Tbl.del t k := by
  unfold Tbl.del
  induction t with
  | nil => simp [Tbl.put]
  | cons x t ih =>
    obtain ⟨j, u⟩ := x
    by_cases hj : k = j
    · simp [Tbl.put, hj]
    · by_cases hlt : k < j
      · simp [Tbl.put, hj, hlt]
      · simp [Tbl.put, hj, hlt, List.filter_cons, ih]

section
variable {d : Dev} {p : Nat}

theorem Dev.setPort_congr {f g : CPort → CPort} (h : f (d.port p) = g (d.port p)) : d.setPort p f = d.setPort p g := by
  simp only [Dev.setPort, Tbl.upd]
  rw [show f (Tbl.get {} d.cas.ports p) = g (Tbl.get {} d.cas.ports p) from h]

/-- Two changes of one port are one, where the first leaves a record that the table lists. -/
theorem Dev.setPort_setPort {f g : CPort → CPort} (h : f (d.port p) ≠ {}) :
    (d.setPort p f).setPort p g = d.setPort p fun c => g (f c) := by
  have hget : Tbl.get {} (Tbl.upd {} d.cas.ports p f) p = f (d.port p) := (Tbl.get_upd _ _ p f p).trans (if_pos rfl)
  have hput : Tbl.upd {} d.cas.ports p f = Tbl.put d.cas.ports p (f (d.port p)) := if_neg h
  have hfuse : Tbl.upd {} (Tbl.upd {} d.cas.ports p f) p g = Tbl.upd {} d.cas.ports p fun c => g (f c) := by
    rw [Tbl.upd, hget, hput]
    simp only [Tbl.set, Tbl.put_put, Tbl.del_put]
    rfl
  simp only [Dev.setPort, hfuse]

theorem CPort.ne_default_of_live {c : CPort} (h : c.live = true) : c ≠ {} := by
  rintro rfl
  exact absurd h (by decide)

theorem Dev.setPort_setPort_of_live {f g : CPort → CPort} (h : (f (d.port p)).live = true) :
    (d.setPort p f).setPort p g = d.setPort p fun c => g (f c) := Dev.setPort_setPort (CPort.ne_default_of_live h)

theorem Dev.port_setPort_same (d : Dev) (p : Nat) (f : CPort → CPort) : (d.setPort p f).port p = f (d.port p) :=
  (d.port_setPort p f p).trans (if_pos rfl)

theorem Dev.Raised.port {e : Dev} (h : d.Raised e) (p : Nat) : e.port p = d.port p := (congrArg (·.port p) h.bare :)

theorem Dev.Raised.forAll {α : Type} {f : Dev → α → Dev} (hf : ∀ (d : Dev) x, d.Raised (f d x)) (d : Dev) (xs : List α) :
    d.Raised (Machine.forAll d xs f) :=
  forAll_rel Dev.Raised.refl (fun _ _ _ => Dev.Raised.trans) hf d xs

theorem Dev.Raised.sent {e : Dev} {o : Out} (h : (d.emit o).Raised e) : d.Sent e o := by
  obtain ⟨b, hb⟩ := h.out
  exact ⟨o.announced, b, by rw [← hb]; simp [Dev.emit]⟩

/-! ### NAK, acceptance and tag failure -/

theorem Dev.nakOnce_again (h : (d.port p).nak = true) : d.nakOnce p = d := if_pos h

theorem Dev.nakOnce_first (h : (d.port p).nak = false) : d.nakOnce p = (d.setPort p fun c => { c with nak := true }).emit
    (.linkCtl p true (((d.port p).rxNext + 4095) % 4096) (List.replicate 8 0)) := if_neg (by simp [h])

theorem Dev.nakOnce_port (d : Dev) (p : Nat) : (d.nakOnce p).port p = { d.port p with nak := true } := by
  cases h : (d.port p).nak with
  | true =>
    rw [Dev.nakOnce_again h, ← h]
  | false =>
    rw [Dev.nakOnce_first h]
    exact d.port_setPort_same p _

theorem Dev.nakOnce_pending {n : Nat} (h : d.Pending n) : (d.nakOnce p).Pending n := by
  unfold Dev.nakOnce
  dsimp only
  split <;> exact h

/-- The port slice once the flit in turn is accepted under the key in use: the next is expected, and the mark of a flit under a key
counts (R158, R258). -/
def CPort.took (c : CPort) (f : Flit) : CPort :=
  let c := { c with rxNext := c.rxNext + 1, nak := false, tagFailSeq := c.tagFailSeq.filter (· != f.seq) }
  if c.keyed then { c with mark := f.mark, markNew := true } else c

theorem CPort.took_rxNext (c : CPort) (f : Flit) : (c.took f).rxNext = c.rxNext + 1 := by
  unfold CPort.took
  dsimp only
  split <;> rfl

theorem CPort.took_of_keyed {c : CPort} (h : 2 ≤ c.secSt) (f : Flit) : (c.took f).mark = f.mark ∧ (c.took f).markNew = true := by
  have hk : ({ c with rxNext := c.rxNext + 1, nak := false, tagFailSeq := c.tagFailSeq.filter (· != f.seq) } : CPort).keyed = true :=
    decide_eq_true h
  rw [CPort.took, if_pos hk]
  exact ⟨rfl, rfl⟩

theorem CPort.took_of_unkeyed {c : CPort} (h : c.secSt < 2) (f : Flit) :
    c.took f = { c with rxNext := c.rxNext + 1, nak := false, tagFailSeq := c.tagFailSeq.filter (· != f.seq) } :=
  if_neg (by simpa [CPort.keyed] using h)

/-- The messages of a plain flit are in the clear (R259). -/
theorem CPort.msgsIn_plain {f : Flit} (h : f.plain = true) (b c : CPort) : b.msgsIn f = c.msgsIn f := by
  simp only [CPort.msgsIn, h, if_true]

theorem Dev.acceptFlit_eq (d : Dev) (p : Nat) (f : Flit) : d.acceptFlit p f (d.port p).rxNext false =
    forAll ((d.setPort p fun c => c.took f).emit (.linkCtl p false ((d.port p).rxNext % 4096) (creditsOf (((d.port p).took f).msgsIn f))))
      ((((d.port p).took f).msgsIn f).filter fun m => !sizeOk m.op m.size) fun d _ => d.raise 159 (portSlice p) := by
  rw [Dev.acceptFlit, Dev.setPort_congr (g := fun c => c.took f) rfl, Dev.port_setPort_same]

theorem Dev.acceptFlit_raised (d : Dev) (p : Nat) (f : Flit) :
    (d.setPort p fun c => c.took f).Raised (d.acceptFlit p f (d.port p).rxNext false) := by
  rw [Dev.acceptFlit_eq]
  exact (Dev.emit_raised _ _).trans (.forAll (fun d _ => d.raise_raised _ _ _) _ _)

theorem Dev.acceptFlit_port (d : Dev) (p : Nat) (f : Flit) :
    (d.acceptFlit p f (d.port p).rxNext false).port p = (d.port p).took f :=
  ((d.acceptFlit_raised p f).port p).trans (d.port_setPort_same p _)

/-- A malformed message in an accepted flit is discarded with EV159 (R259). -/
theorem Dev.acceptFlit_malformed {f : Flit} (h : ∃ m ∈ ((d.port p).took f).msgsIn f, sizeOk m.op m.size = false) :
    (d.acceptFlit p f (d.port p).rxNext false).Pending 159 := by
  obtain ⟨m, hm, hbad⟩ := h
  rw [Dev.acceptFlit_eq]
  cases hb : (((d.port p).took f).msgsIn f).filter fun m => !sizeOk m.op m.size with
  | nil => exact absurd (List.filter_eq_nil_iff.mp hb m hm) (by simp [hbad])
  | cons y ys => exact (Dev.Raised.forAll (fun d _ => d.raise_raised _ _ _) _ ys).pend 159 (Dev.raise_pending _ 159 _ _ (by decide))

theorem Dev.acceptFlit_wellFormed {f : Flit} (h : ∀ m ∈ ((d.port p).took f).msgsIn f, sizeOk m.op m.size = true) :
    d.acceptFlit p f (d.port p).rxNext false = (d.setPort p fun c => c.took f).emit
      (.linkCtl p false ((d.port p).rxNext % 4096) (creditsOf (((d.port p).took f).msgsIn f))) := by
  have hnil : ((((d.port p).took f).msgsIn f).filter fun m => !sizeOk m.op m.size) = [] :=
    List.filter_eq_nil_iff.mpr fun m hm => by simp [h m hm]
  rw [Dev.acceptFlit_eq, hnil]
  rfl

/-- A first tag failure on a sequence number, with fewer than 3 in the stroke before it, is answered with a NAK (R160). -/
theorem Dev.tagFailure_first {n : Nat} (hs : n ∉ (d.port p).tagFailSeq) (hn : (d.port p).tagFailNow < 3) : d.tagFailure p n =
    (d.setPort p fun c => { c with
      tagFail := satInc 65535 c.tagFail, tagFailNow := c.tagFailNow + 1, tagFailSeq := c.tagFailSeq ++ [n] }).nakOnce p :=
  if_neg (by simp [hs]; omega)

end

/-! ### Receiving a flit -/

section
variable {d : Dev} {p : Nat} {f : Flit}

/-- A flit without corrected symbols arrives on a live port, whose count of corrections stands (R252). -/
structure Dev.Hears (d : Dev) (p : Nat) (f : Flit) : Prop where
  there : p < d.nHosts
  live : (d.port p).live = true
  clean : f.corrected = 0
  fec : (d.port p).fec < 2 ^ 64

/-- The port can read the flit: it is corrected, aligned and has its tag, it is plain just where no key is installed, and no key is in
change (R159, R252, R259). -/
structure Dev.Reads (d : Dev) (p : Nat) (f : Flit) : Prop where
  correctable : f.correctable = true
  aligned : (d.port p).aligned = true
  plain : f.plain = !(d.port p).keyed
  settled : (d.port p).keyed = true → (d.port p).oldRxKey = false
  tag : (d.port p).tagOk f = true

variable (h : d.Hears p f)
include h

/-- Counting the corrected symbols of such a flit writes the port's record back as it is. -/
theorem Dev.Hears.recount : (d.setPort p fun c => { c with fec := (c.fec + f.corrected) % 2 ^ 64, corrNow := c.corrNow + f.corrected }) =
    d.setPort p fun c => c := by
  refine Dev.setPort_congr ?_
  simp only [h.clean, Nat.add_zero, Nat.mod_eq_of_lt h.fec]

theorem Dev.Hears.setPort_again (g : CPort → CPort) : (d.setPort p fun c => c).setPort p g = d.setPort p g :=
  Dev.setPort_setPort_of_live h.live

theorem Dev.flitReceive_uncorrectable (hc : f.correctable = false) :
    d.flitReceive p f = (d.setPort p fun c => c).uncorrectable p f.uncorrectable := by
  unfold Dev.flitReceive
  rw [if_neg (by simp [h.there, h.live])]
  simp only [h.recount, hc, Bool.not_false, if_true]

/-- Once keys are installed a plain flit is a tag failure (R160, R259). -/
theorem Dev.flitReceive_plainKeyed (hc : f.correctable = true) (ha : (d.port p).aligned = true) (hf : f.plain = true)
    (hk : 2 ≤ (d.port p).secSt) : d.flitReceive p f = (d.setPort p fun c => c).tagFailure p f.seq := by
  unfold Dev.flitReceive
  rw [if_neg (by simp [h.there, h.live])]
  have hkeyed : (d.port p).keyed = true := decide_eq_true hk
  simp only [h.recount, Dev.port_setPort_same, hc, ha, hf, hkeyed, Bool.not_true, Bool.and_self, Bool.false_eq_true, if_false, if_true]

/-- A flit that can be read is accepted in turn, and else answered with a NAK (R265). -/
theorem Dev.flitReceive_read (hr : d.Reads p f) : d.flitReceive p f =
    if f.seq % 4096 = (d.port p).rxNext % 4096 then (d.setPort p fun c => c).acceptFlit p f (d.port p).rxNext false
    else (d.setPort p fun c => c).nakOnce p := by
  have hexp : (d.port p).expected f = ((d.port p).rxNext, false) := by
    refine if_neg fun hc => ?_
    simp only [Bool.and_eq_true] at hc
    exact absurd (hr.settled hc.1.1) (by simp [hc.1.2])
  unfold Dev.flitReceive
  rw [if_neg (by simp [h.there, h.live])]
  simp only [h.recount, Dev.port_setPort_same, hr.correctable, hr.aligned, hr.plain, hr.tag, hexp]
  cases (d.port p).keyed <;> simp

variable (hr : d.Reads p f)
include hr

/-- What is accepted in turn leaves the port as `took` makes it. -/
theorem Dev.flitReceive_taken (hs : f.seq % 4096 = (d.port p).rxNext % 4096) : (d.flitReceive p f).port p = (d.port p).took f := by
  have hport : (d.setPort p fun c => c).port p = d.port p := d.port_setPort_same p _
  rw [Dev.flitReceive_read h hr, if_pos hs, ← hport, Dev.acceptFlit_port]

theorem Dev.flitReceive_malformed (hs : f.seq % 4096 = (d.port p).rxNext % 4096)
    (hm : ∃ m ∈ ((d.port p).took f).msgsIn f, sizeOk m.op m.size = false) : (d.flitReceive p f).Pending 159 := by
  have hport : (d.setPort p fun c => c).port p = d.port p := d.port_setPort_same p _
  rw [Dev.flitReceive_read h hr, if_pos hs, ← hport]
  exact Dev.acceptFlit_malformed (by rwa [hport])

theorem Dev.flitReceive_wellFormed (hs : f.seq % 4096 = (d.port p).rxNext % 4096)
    (hm : ∀ m ∈ ((d.port p).took f).msgsIn f, sizeOk m.op m.size = true) : d.flitReceive p f = (d.setPort p fun c => c.took f).emit
      (.linkCtl p false ((d.port p).rxNext % 4096) (creditsOf (((d.port p).took f).msgsIn f))) := by
  have hport : (d.setPort p fun c => c).port p = d.port p := d.port_setPort_same p _
  rw [Dev.flitReceive_read h hr, if_pos hs, ← hport, Dev.acceptFlit_wellFormed (by rwa [hport]), hport, h.setPort_again]

theorem Dev.flitReceive_outOfTurn (hs : f.seq % 4096 ≠ (d.port p).rxNext % 4096) :
    d.flitReceive p f = (d.setPort p fun c => c).nakOnce p := (Dev.flitReceive_read h hr).trans (if_neg hs)

end

theorem Dev.uncorrectable_zero (d : Dev) (p : Nat) : d.uncorrectable p 0 = d.nakOnce p := rfl

/-- One codeword that no earlier flit met is counted with EV154, and answered with a NAK (R252, R265). -/
theorem Dev.uncorrectable_one (d : Dev) (p : Nat) : (d.uncorrectable p 1).Pending 154 ∧ (d.uncorrectable p 1).port p = { d.port p with
    uncorr := satInc 255 (d.port p).uncorr, nak := true,
    uncorrAt := ((d.port p).uncorrAt.filter fun t => decide (d.time.loc < t + 1024)) ++ [d.time.loc] } := by
  refine ⟨Dev.nakOnce_pending (Dev.raise_pending _ 154 _ _ (by decide)), ?_⟩
  rw [Dev.uncorrectable, Dev.nakOnce_port]
  exact congrArg (fun c : CPort => { c with nak := true }) (((Dev.raise_raised _ 154 _ _).port p).trans (d.port_setPort_same p _))

/-! ### Replay and loss of a link -/

theorem Dev.failRoutes_ports (d : Dev) (p : Nat) : (d.failRoutes p).cas.ports = d.cas.ports :=
  forAll_rel (R := fun a b => b.cas.ports = a.cas.ports) (f := fun d n => d.setRoute n fun r => { r with switchDue := true })
    (fun _ => rfl) (fun _ _ _ h g => g.trans h) (fun _ _ => rfl) d _

theorem Dev.linkDown_port (d : Dev) (p : Nat) : (d.linkDown p).port p = { (d.port p).drop with
    downs := if (d.port p).st = .up then satInc 255 (d.port p).downs else (d.port p).downs, stepAt := d.time.loc } := by
  refine ((Dev.raise_raised _ 151 _ _).port p).trans ?_
  rw [Dev.port, Dev.failRoutes_ports]
  exact d.port_setPort_same p _

theorem Dev.linkDown_pending (d : Dev) (p : Nat) : (d.linkDown p).Pending 151 := Dev.raise_pending _ 151 _ _ (by decide)

theorem Dev.linkEnds_up {d : Dev} {p : Nat} (h : (d.port p).st = .up) : d.linkEnds p = d.linkDown p := if_pos h

section
variable {d : Dev} {p : Nat} {x : SentFlit} {xs : List SentFlit}

/-- A replay of a buffer that no flit has left 4 times: each is sent again, in order, with EV153 (R266). -/
theorem Dev.replay_sends (hs : (d.port p).sent = x :: xs) (ht : ∀ y ∈ x :: xs, y.tries < 4) : (d.replay p).Pending 153 ∧
    (d.replay p).port p = { d.port p with
      sent := (x :: xs).map fun y => { y with tries := y.tries + 1, since := d.time.loc }
      replays := min 65535 ((d.port p).replays + (xs.length + 1)) } ∧
    d.Sent (d.replay p) (.resend p x.seq x.bytes) := by
  have hnone : ¬((d.port p).sent.any fun s => decide (4 ≤ s.tries)) = true := by
    simpa [hs] using ht
  have hstep : ∀ (e : Dev) (y : SentFlit), e.Raised ((e.emit (.resend p y.seq y.bytes)).raise 153 (portSlice p)) := fun e y =>
    (e.emit_raised _).trans (Dev.raise_raised _ _ _ _)
  rw [Dev.replay, if_neg hnone, hs]
  extract_lets e
  have hrest := Dev.Raised.forAll hstep ((e.emit (.resend p x.seq x.bytes)).raise 153 (portSlice p)) xs
  refine ⟨hrest.pend 153 (Dev.raise_pending _ 153 _ _ (by decide)), (((hstep e x).trans hrest).port p).trans ?_,
    ((Dev.raise_raised _ 153 _ _).trans hrest).sent⟩
  rw [d.port_setPort_same p, hs]
  rfl

/-- A flit that has been sent 4 times ends a link that is Up (R266). -/
theorem Dev.replay_ends (hs : (d.port p).sent = x :: xs) (ht : ∃ y ∈ x :: xs, 4 ≤ y.tries) (hu : (d.port p).st = .up) :
    d.replay p = d.linkDown p := by
  rw [Dev.replay, if_pos (by simpa [hs] using ht), Dev.linkEnds_up hu]

variable (hp : p < d.nHosts) (hl : (d.port p).live = true) (hs : (d.port p).sent = x :: xs)
include hp hl hs

theorem Dev.replayTimeout_early (ht : d.time.loc < x.since + 2) : d.replayTimeout p = d := by
  simp [Dev.replayTimeout, hp, hl, hs, Nat.not_le.mpr ht]

theorem Dev.replayTimeout_due (ht : x.since + 2 ≤ d.time.loc) : d.replayTimeout p = d.replay p := by
  simp [Dev.replayTimeout, hp, hl, hs, ht]

end

/-! ### Acknowledgement -/

theorem CPort.acked_sent (c : CPort) (a t : Nat) : ∃ l, c.acked a t = { c with sent := l } := by
  unfold CPort.acked
  split
  · exact ⟨_, rfl⟩
  · exact ⟨c.sent, rfl⟩

theorem Dev.flushPort_none {d : Dev} {p : Nat} (h : (d.port p).kept = []) : d.flushPort p = d.setPort p fun c => c := by
  rw [Dev.flushPort, h]
  refine Dev.setPort_congr ?_
  rw [← h]

/-- An ACK where no message waits on the port (R265, R266). -/
theorem Dev.linkControl_ack {d : Dev} {p : Nat} (ack : Nat) (cr : List Nat) (hp : p < d.nHosts) (hl : (d.port p).live = true)
    (hk : (d.port p).kept = []) : d.linkControl p false ack cr = d.setPort p fun c => { c.acked (ack % 4096) d.time.loc with
      credits := (List.range 8).map fun i => c.credits.getD i 0 + cr.getD i 0 } := by
  unfold Dev.linkControl
  rw [if_neg (by simp [hp, hl])]
  extract_lets e e'
  obtain ⟨l, hacked⟩ := (d.port p).acked_sent (ack % 4096) d.time.loc
  have hport : e.port p = { d.port p with
      sent := l, credits := (List.range 8).map fun i => (d.port p).credits.getD i 0 + cr.getD i 0 } := by
    rw [d.port_setPort_same p, hacked]
  have hflush : e.flushPort p = e := by
    rw [Dev.flushPort_none (by rw [hport]; exact hk)]
    refine Dev.setPort_setPort_of_live ?_
    rw [hacked]
    exact hl
  show (if e.portUp p = true then e.flushPort p else e) = e
  rw [hflush, ite_self]

/-! ### Link keys -/

section
variable {d : Dev} {p : Nat}

theorem Dev.keysFor_upstream (h : d.upstream p = true) (o : Option LinkKeys) : d.keysFor p o =
    some ((d.linkKeys.1.down, d.linkKeys.1.up, d.linkKeys.1.salt), d.linkKeys.2.emit (.linkKeys p d.linkKeys.1)) := by
  simp only [Dev.keysFor, h, if_true]

theorem Dev.keysFor_downstream (h : d.upstream p = false) (k : LinkKeys) : d.keysFor p (some k) = some ((k.up, k.down, k.salt), d) := by
  simp [Dev.keysFor, h]

theorem Dev.emit_linkKeys_out (d : Dev) (p : Nat) (k : LinkKeys) : (d.emit (.linkKeys p k)).out = d.out ++ [.linkKeys p k] := by
  simp [Dev.emit, Out.announced]

/-- Keys are installed at a port that waits for them (R158). -/
theorem Dev.linkKeyMessage_installs {o : Option LinkKeys} {k : BitVec 256 × BitVec 256 × BitVec 32} {e : Dev} (hp : p < d.nHosts)
    (hst : (d.port p).st = .keying) (hsec : (d.port p).secSt = 1) (hc : d.chainOk = true) (hs : d.linkSession p = true)
    (hg : d.coresGone = false) (hk : d.keysFor p o = some (k, e)) : d.linkKeyMessage p o = e.setPort p fun c => { c with
      kTx := k.1, kRx := k.2.1, kRxOld := 0#256, salt := k.2.2, secSt := 2, txSeq := 0, rxNext := 0, sent := [], keyAt := e.time.loc,
      keySel := false, rxSel := false, nak := false, tagFailSeq := [] } := by
  unfold Dev.linkKeyMessage
  rw [if_pos ⟨hp, hst, hsec, hc, hs, by simp [hg]⟩, hk]

theorem Dev.linkKeyMessage_refused (o : Option LinkKeys) (h : d.chainOk = false ∨ d.linkSession p = false ∨ d.coresGone = true) :
    d.linkKeyMessage p o = d := by
  refine if_neg ?_
  rintro ⟨-, -, -, hc, hs, hg⟩
  rcases h with h | h | h
  · exact absurd hc (by simp [h])
  · exact absurd hs (by simp [h])
  · exact absurd hg (by simp [h])

/-- New keys at a port that is Up and holds one pair (R159). -/
theorem Dev.linkRekey_takes {o : Option LinkKeys} {k : BitVec 256 × BitVec 256 × BitVec 32} {e : Dev} (hu : d.portUp p = true)
    (hsec : (d.port p).secSt = 2) (hg : d.coresGone = false) (hdue : d.upstream p = false ∨ d.rekeyDue p = true)
    (hk : d.keysFor p o = some (k, e)) : d.linkRekey p o = e.setPort p fun c => { c with
      kTxNew := k.1, kRx := k.2.1, kRxOld := c.kRx, secSt := 3, newKey := true, oldRxKey := true } := by
  unfold Dev.linkRekey
  rw [if_pos ⟨hu, hsec, by simp [hg], by simpa using hdue⟩, hk]

theorem Dev.linkRekey_not_due (o : Option LinkKeys) (h : d.upstream p = true) (hn : d.rekeyDue p = false) : d.linkRekey p o = d :=
  if_neg (by simp [h, hn])

/-! ### Secured transport -/

variable (hp : p < d.nHosts) (hl : (d.port p).live = true)
include hp hl

theorem Dev.securedTransport_starts (total : Nat) (fr : List Byte) :
    d.securedTransport p 0 total fr = d.setPort p fun c => { c with frag := fr.take total, fragTotal := total } := by
  simp [Dev.securedTransport, hp, hl]

theorem Dev.securedTransport_continues {total : Nat} (fr : List Byte) (hn : (d.port p).frag ≠ []) (ht : total = (d.port p).fragTotal) :
    d.securedTransport p (d.port p).frag.length total fr = d.setPort p fun c => { c with frag := (c.frag ++ fr).take total } := by
  simp [Dev.securedTransport, hp, hl, hn, ht]

end

/-- Settles O49: what each flit, acknowledgement, timeout, key message and fragment does, by the case that the port's record fixes. -/
theorem flitsReplayAndLinkKeys : Obligations.FlitsReplayAndLinkKeys := by
  refine ⟨?flits, ?replay, fun s p ack cr hp hl hk => .of_done rfl (Dev.linkControl_ack ack cr hp hl hk), ?keys, ?fragments⟩
  case flits =>
    intro s p f n hp hl h0 hfec
    have hears : s.dev.Hears p f := ⟨hp, hl, h0, hfec⟩
    have hport : (s.dev.setPort p fun c => c).port p = s.dev.port p := s.dev.port_setPort_same p _
    refine ⟨fun hc hu => ?one, fun hc hu => ?none, fun hc ha hf hk ht hn => ?plain, fun hc ha hf hk ho ht hs => ?sealed,
      fun hc ha hf hk hs hn => ?failure⟩
    case one =>
      obtain ⟨hpend, hone⟩ := (s.dev.setPort p fun c => c).uncorrectable_one p
      refine .of_done (congrArg s.done (Dev.flitReceive_uncorrectable hears hc)) ?_
      rw [hu, hone, hport]
      exact ⟨hpend, rfl, rfl, rfl⟩
    case none =>
      refine .of_done (congrArg s.done (Dev.flitReceive_uncorrectable hears hc)) ?_
      rw [hu, Dev.uncorrectable_zero, Dev.nakOnce_port, hport]
      exact ⟨rfl, rfl, rfl⟩
    case plain =>
      have hkeyed : (s.dev.port p).keyed = false := decide_eq_false (Nat.not_le.mpr hk)
      have hr : s.dev.Reads p f := ⟨hc, ha, by simp [hf, hkeyed], by simp [hkeyed], ht⟩
      have hms := CPort.msgsIn_plain hf ((s.dev.port p).took f) (s.dev.port p)
      subst hn
      refine ⟨fun hs hnak => .of_done rfl ?_, fun hs hnak => .of_done rfl ?_, fun hs hm => .of_done rfl ?_, fun hs hm => ?_⟩
      · rw [Dev.flitReceive_outOfTurn hears hr hs, Dev.nakOnce_first (by rw [hport]; exact hnak), hport, hears.setPort_again]
      · rw [Dev.flitReceive_outOfTurn hears hr hs, Dev.nakOnce_again (by rw [hport]; exact hnak)]
      · rw [Dev.flitReceive_wellFormed hears hr hs (by rwa [hms]), hms]
        exact congrArg (Dev.emit · _) (Dev.setPort_congr (CPort.took_of_unkeyed hk f))
      · refine .of_done rfl ⟨Dev.flitReceive_malformed hears hr hs (by rwa [hms]), ?_⟩
        rw [Dev.flitReceive_taken hears hr hs, CPort.took_rxNext]
    case sealed =>
      have hr : s.dev.Reads p f := ⟨hc, ha, by simp [hf, CPort.keyed, hk], fun _ => ho, ht⟩
      obtain ⟨hmark, hnew⟩ := CPort.took_of_keyed hk f
      refine .of_done rfl ?_
      rw [Dev.flitReceive_taken hears hr hs]
      exact ⟨CPort.took_rxNext _ f, hmark, hnew⟩
    case failure =>
      refine .of_done (congrArg s.done (Dev.flitReceive_plainKeyed hears hc ha hf hk)) ?_
      rw [Dev.tagFailure_first (by rwa [hport]) (by rwa [hport]), Dev.nakOnce_port, Dev.port_setPort_same, hport]
      exact ⟨rfl, rfl, rfl, rfl⟩
  case replay =>
    intro s p x xs hp hl hs
    refine ⟨fun ht => .of_done rfl (Dev.replayTimeout_early hp hl hs ht), fun ht htries => ?_, fun ht htries hu => ?_⟩
    · obtain ⟨hpend, hport, hsent⟩ := Dev.replay_sends hs htries
      refine .of_done (congrArg s.done (Dev.replayTimeout_due hp hl hs ht)) ⟨hpend, ?_, ?_, hsent⟩ <;> rw [hport]
    · have hdown : s.dev.replayTimeout p = s.dev.linkDown p := (Dev.replayTimeout_due hp hl hs ht).trans (Dev.replay_ends hs htries hu)
      refine .of_done (congrArg s.done hdown) ⟨s.dev.linkDown_pending p, ?_⟩
      rw [Dev.linkDown_port]
      rfl
  case keys =>
    intro s p hp
    refine ⟨fun hst hsec hc hg => ⟨fun o k hu hk => ?_, fun k hu hs => ?_⟩, fun o h => .of_done rfl (Dev.linkKeyMessage_refused o h),
      fun hu hsec hg => ⟨fun o hup hdue => ?_, fun o hup hdue => .of_done rfl (Dev.linkRekey_not_due o hup hdue),
        fun k hup => .of_done rfl (Dev.linkRekey_takes hu hsec hg (.inl hup) (Dev.keysFor_downstream hup k))⟩⟩
    · have hinst := Dev.linkKeyMessage_installs hp hst hsec hc (by simp [Dev.linkSession, hu]) hg (Dev.keysFor_upstream hu o)
      subst hk
      refine .of_done (congrArg s.done hinst) ?_
      rw [Dev.port_setPort_same]
      exact ⟨rfl, rfl, rfl, rfl, rfl, rfl, s.dev.linkKeys.2.emit_linkKeys_out p _⟩
    · have hinst := Dev.linkKeyMessage_installs hp hst hsec hc hs hg (Dev.keysFor_downstream hu k)
      refine .of_done (congrArg s.done hinst) ?_
      rw [Dev.port_setPort_same]
      exact ⟨rfl, rfl, rfl, rfl, rfl, rfl, rfl⟩
    · have hnew := Dev.linkRekey_takes hu hsec hg (.inr hdue) (Dev.keysFor_upstream hup o)
      refine .of_done (congrArg s.done hnew) ?_
      rw [Dev.port_setPort_same]
      exact ⟨rfl, rfl, rfl, rfl, rfl, rfl, rfl⟩
  case fragments =>
    intro s p total fr hp hl
    refine ⟨.of_done rfl (Dev.securedTransport_starts hp hl total fr), fun ht => .of_done rfl ?_⟩
    split
    · next hn =>
      rw [hn]
      exact Dev.securedTransport_starts hp hl total fr
    · next hn => exact Dev.securedTransport_continues hp hl fr hn ht

end Sys2Proof.Machine

namespace Sys2Proof.Machine

open Sys2Proof

/-! ### Home slices -/

/-- The hash of R165 by division: each six-bit field of a page number of 34 bits, and the four bits above them. -/
theorem homeHash_eq {p : Nat} (hp : p < 2 ^ 34) :
    homeHash p = p % 64 ^^^ p / 2 ^ 6 % 64 ^^^ p / 2 ^ 12 % 64 ^^^ p / 2 ^ 18 % 64 ^^^ p / 2 ^ 24 % 64 ^^^ p / 2 ^ 30 := by
  have hlow : bits p 5 0 = p % 64 := by simp [bits]
  have htop : bits p 33 30 = p / 2 ^ 30 := Nat.mod_eq_of_lt (by omega)
  rw [homeHash, hlow, htop]
  rfl

theorem Dev.home_of_64 {d : Dev} (h : d.nHs = 64) (p : Nat) : d.home p = homeHash p := if_pos h

theorem Dev.home_of_32 {d : Dev} (h : d.nHs = 32) (p : Nat) : d.home p = homeHash p % 32 := if_neg (by omega)

/-- A hash below 32 names the same home slice on every part. -/
theorem Dev.home_of_hash_lt {p : Nat} (h : homeHash p < 32) (d : Dev) : d.home p = homeHash p := by
  rw [Dev.home, Nat.mod_eq_of_lt h, ite_self]

/-- Settles O4: the hash is the stated exclusive or, and the worked example's hash fits in five bits. -/
theorem homeSliceOfAPage : Obligations.HomeSliceOfAPage := by
  refine ⟨fun d p h hp hh => ?_, fun d => ?_⟩
  · rw [← homeHash_eq hp] at hh
    subst hh
    exact ⟨fun h => Dev.home_of_64 h p, fun h => Dev.home_of_32 h p, rfl⟩
  · have hhome : d.home (0x12345000 / 4096) = 26 := Dev.home_of_hash_lt (by decide) d
    exact ⟨hhome, congrArg (· / 16) hhome⟩

end Sys2Proof.Machine

namespace Sys2Proof.Machine

open Sys2Proof

/-! ### Admission -/

section
variable {d : Dev} {n : Nat}

theorem Dev.useCredits_nobody (h : (d.hsl n).noCredit = []) (fuel : Nat) : d.useCredits n fuel = d := by
  cases fuel with
  | zero => rfl
  | succ k => simp only [Dev.useCredits, h]

/-- A slice that is absent, unprimed or asleep admits nothing (R335). -/
theorem Dev.arbiterAdmission_idle (h : d.nHs ≤ n ∨ d.prim ≠ .primed ∨ d.asleep = true) (x : DirEcc) : d.arbiterAdmission n x = d := by
  refine if_neg ?_
  rintro ⟨hn, hp, ha⟩
  rcases h with h | h | h
  · omega
  · exact h hp
  · simp [h] at ha

theorem Dev.dirCheck_good : d.dirCheck n .good = (d, true) := ite_self _

theorem Dev.dirCheck_corrupt (h : ((d.linesRead n).any fun l => ((d.hsl n).ent l).isSome) = true) :
    d.dirCheck n .corrupt = (d.corruptDir n, false) := if_pos h

theorem Dev.dirCheck_badWord (h : ((d.linesRead n).any fun l => ((d.hsl n).ent l).isSome) = true) {w : BitVec 96} (hw : dirBad w = true) :
    d.dirCheck n (.word w) = (d.corruptDir n, false) := (if_pos h).trans (if_pos hw)

/-- A cycle that admits nothing reads no entry, and finds no error (R191). -/
theorem Dev.dirCheck_noRequest (hw : d.pickWriteBack n = none) (ho : d.pickOrdered n = none) (x : DirEcc) : d.dirCheck n x = (d, true) := by
  refine if_neg ?_
  simp [Dev.linesRead, hw, ho]

section
variable {x : DirEcc} (hn : n < d.nHs) (hp : d.prim = .primed) (ha : d.asleep = false)
include hn hp ha

theorem Dev.arbiterAdmission_stops {e : Dev} (h : d.dirCheck n x = (e, false)) : d.arbiterAdmission n x = e := by
  simp [Dev.arbiterAdmission, hn, hp, ha, h]

theorem Dev.arbiterAdmission_goesOn (h : d.dirCheck n x = (d, true)) : d.arbiterAdmission n x = d.arbitrate n := by
  simp [Dev.arbiterAdmission, hn, hp, ha, h]

end

section
variable (hc : (d.hsl n).noCredit = []) (hw : d.pickWriteBack n = none)
include hc hw

theorem Dev.arbitrate_nothing (ho : d.pickOrdered n = none) : d.arbitrate n = d := by
  simp only [Dev.arbitrate, Dev.useCredits_nobody hc, hw, ho]

/-- The ordered request that is picked is admitted, or keeps its place when every way of its set is held (R169, R175). -/
theorem Dev.arbitrate_ordered {q : Req} {e : Dev} (ho : d.pickOrdered n = some q) (he : e = d.setHs n fun h => h.unwait q) :
    d.arbitrate n = if (e.admitReq q).2 then (e.admitReq q).1.useCredits n 256 else
      (e.admitReq q).1.setHs n fun h => { h with waiting := (d.hsl n).waiting, bounced := h.bounced ++ [q] } := by
  subst he
  simp only [Dev.arbitrate, Dev.useCredits_nobody hc, hw, ho]

end
end

/-! ### Acknowledgement -/

theorem Dev.fetchRun_nobody {d : Dev} (h : d.cas.fetchIn = []) : d.fetchRun = d := by
  simp only [Dev.fetchRun, h, forAll, List.foldl_nil]
  show { d with cas := { d.cas with fetchIn := [] } } = d
  rw [← h]

section
variable {d : Dev} {line : Nat} (hf : d.cas.fetchIn = [])
include hf

/-- A write that waits for a promotion keeps its line held (R26, R172). -/
theorem Dev.transactionAcknowledged_promoting (hp : d.promos.any (fun x => x.req.line == line && !x.dropped) = true) :
    d.transactionAcknowledged line = d :=
  (congrArg Dev.fetchRun (if_pos hp)).trans (Dev.fetchRun_nobody hf)

theorem Dev.transactionAcknowledged_releases (hp : d.promos.any (fun x => x.req.line == line && !x.dropped) = false)
    (hc : (d.hsl (d.home (lnPage line))).noCredit = []) :
    d.transactionAcknowledged line = d.setHs (d.home (lnPage line)) fun h => { h with
      holds := h.holds.filter fun x => !(x.line == line && x.responded && !x.push && !x.accept) } := by
  rw [Dev.transactionAcknowledged, Dev.releaseHold, if_neg (Bool.eq_false_iff.mp hp), Dev.useCredits_nobody (by simpa using hc)]
  exact Dev.fetchRun_nobody hf

end

/-! ### Snoop and hold timeouts -/

/-- A domain of this or of another device that is detected going down changes nothing but the records of the domains (R187). -/
theorem Dev.detectDown_frame (d : Dev) (dev g c x sl : Nat) :
    ∃ a b t, d.detectDown dev g c x sl = { d with doms := a, remDown := b, remAt := t } := by
  unfold Dev.detectDown
  split
  · split <;> exact ⟨_, _, _, rfl⟩
  · extract_lets e
    split <;> exact ⟨_, _, _, rfl⟩

/-- The cause that a timeout raises: EV110, and the domain, where it is Up here, has its cause detected (R173, R187). -/
theorem Dev.raise110_detectDown (d : Dev) (sl dev g c who : Nat) :
    ((d.raise 110 sl).detectDown dev g c who sl).Pending 110 ∧ ((d.raise 110 sl).detectDown dev g c who sl).hs = d.hs ∧
      (dev = d.devId → (d.dom g).st = .up → (d.dom g).detected = none →
        ∃ w, (((d.raise 110 sl).detectDown dev g c who sl).dom g).detected = some (c, w, d.pool)) := by
  have hpend : (d.raise 110 sl).Pending 110 := d.raise_pending 110 _ _ (by decide)
  have hb := d.raise_bare 110 sl 0
  generalize d.raise 110 sl = e at hpend hb
  have hdev : e.devId = d.devId := congrArg (·.devId) hb
  have hdom : e.dom g = d.dom g := congrArg (·.dom g) hb
  have hpool : e.pool = d.pool := congrArg (·.pool) hb
  obtain ⟨a, b, t, he⟩ := e.detectDown_frame dev g c who sl
  refine ⟨?_, ?_, fun hd hst hdet => ⟨who, ?_⟩⟩
  · rw [he]
    exact hpend
  · rw [he]
    exact congrArg (·.hs) hb
  · rw [hd, ← hdev, ← hpool]
    exact Dev.detectDown_of_up (by rw [hdom, hst]) (by rw [hdom, hdet])

/-- Settles O47: a cycle stops at a corrupted entry or takes what the arbiter picked, an acknowledged hold is dropped, and an overdue
snoop or hold is the detected cause of its domain. -/
theorem admissionAndItsTimeouts : Obligations.AdmissionAndItsTimeouts := by
  refine ⟨fun s n x h => .of_done rfl (Dev.arbiterAdmission_idle h x), ?ordered, ?nothing, ?acknowledged, ?timeouts⟩
  case ordered =>
    intro s n q hn hp ha ho
    refine ⟨fun hr => ⟨.of_done rfl (Dev.arbiterAdmission_stops hn hp ha (Dev.dirCheck_corrupt hr)), fun w hbad => .of_done rfl ?_⟩,
      fun hc hw d hd => ?_⟩
    · exact Dev.arbiterAdmission_stops hn hp ha (Dev.dirCheck_badWord hr hbad)
    · have harb : s.dev.arbiterAdmission n .good = _ :=
        (Dev.arbiterAdmission_goesOn hn hp ha Dev.dirCheck_good).trans (Dev.arbitrate_ordered hc hw ho hd)
      exact ⟨fun h => .of_done rfl (harb.trans (if_pos h)), fun h => .of_done rfl (harb.trans (if_neg (Bool.eq_false_iff.mp h)))⟩
  case nothing =>
    intro s n x hn hp ha ho hc hw
    exact .of_done rfl ((Dev.arbiterAdmission_goesOn hn hp ha (Dev.dirCheck_noRequest hw ho x)).trans (Dev.arbitrate_nothing hc hw ho))
  case acknowledged =>
    intro s line hf
    exact ⟨fun hp => .of_done rfl (Dev.transactionAcknowledged_promoting hf hp),
      fun hp hc => .of_done rfl (Dev.transactionAcknowledged_releases hf hp hc)⟩
  case timeouts =>
    intro s line n hn
    subst hn
    refine ⟨fun h => .of_done rfl ?_, fun x h => .of_done rfl ?_, fun h => .of_done rfl ?_, fun x h => .of_done rfl ?_⟩
    · simp only [Dev.snoopTimeout, h]
    · simp only [Dev.snoopTimeout, h]
      exact s.dev.raise110_detectDown _ _ _ _ _
    · simp only [Dev.holdTimeout, h]
    · simp only [Dev.holdTimeout, h]
      exact s.dev.raise110_detectDown _ _ _ _ _

end Sys2Proof.Machine

namespace Sys2Proof.Machine

open Sys2Proof

/-! ### Broadcasts heard, and their acknowledgements -/

section
variable {d e : Dev} {p : Nat} {b : Bcast}

/-- A port that is not Up hears no broadcast (R270). -/
theorem Dev.hear_of_down (h : d.portUp p = false) (k : Nat) : d.hear p k b = none := by
  simp [Dev.hear, h]

theorem Dev.domainDown_unheard (h : d.hear p 1 b = none) : d.domainDown p b = d := by
  simp only [Dev.domainDown, h]

theorem Dev.domainUp_unheard (h : d.hear p 2 b = none) : d.domainUp p b = d := by
  simp only [Dev.domainUp, h]

theorem Dev.domainDown_heard (h : d.hear p 1 b = some e) : d.domainDown p b = e.detectDown b.dev b.group 7 17 (portSlice p) := by
  simp only [Dev.domainDown, h]

theorem Dev.domainUp_heard (h : d.hear p 2 b = some e) : d.domainUp p b = { e with
    remDown := Tbl.put e.remDown (b.dev * 256 + b.group) 3, cas := { e.cas with ups := e.cas.ups ++ [(b.dev * 256 + b.group, b)] } } := by
  simp only [Dev.domainUp, h]

/-- A domain of another device that served goes down when that device says so (R189). -/
theorem Dev.detectDown_remote {dev g sl : Nat} (hd : dev ≠ d.devId) (hn : Tbl.look d.remDown (dev * 256 + g) = none) (x : Nat) :
    d.detectDown dev g 7 x sl =
      { d with remDown := Tbl.put d.remDown (dev * 256 + g) 1, remAt := Tbl.put d.remAt (dev * 256 + g) d.pool } := by
  simp [Dev.detectDown, hd, hn]

variable {a : BcastAck}

theorem Dev.broadcastAck_discarded (h : d.portUp p = false ∨ a.epoch ≠ d.cas.epoch) : d.broadcastAck p a = d :=
  if_pos (by simpa using h)

/-- What an acknowledgement of a Domain Up adds to the record of a domain that awaits it (R194). -/
def Dom.ackedBy (m : Nat) (x : Dom) : Dom := { x with acks := if x.acks.contains m then x.acks else m :: x.acks }

theorem Dom.mem_ackedBy (m : Nat) (x : Dom) : m ∈ (x.ackedBy m).acks := by
  unfold Dom.ackedBy
  dsimp only
  split
  · next h => simpa using h
  · exact List.mem_cons_self

theorem Dom.ackedBy_keeps {m n : Nat} {x : Dom} (h : n ∈ x.acks) : n ∈ (x.ackedBy m).acks := by
  unfold Dom.ackedBy
  dsimp only
  split
  · exact h
  · exact List.mem_cons_of_mem _ h

theorem Dev.broadcastAck_domainUp (hp : d.portUp p = true) (he : a.epoch = d.cas.epoch) (hk : a.kind = 2) {g : Nat} {x : Dom}
    (hd : d.doms = [(g, x)]) (hst : x.st = .rejoining) (hb : x.bseq = a.bseq) : d.broadcastAck p a = d.setDom g (Dom.ackedBy a.member) := by
  have hnot : ¬(!d.portUp p || a.epoch != d.cas.epoch) = true := by simp [hp, he]
  have hone : (d.doms.filter fun y => y.2.st == .rejoining && y.2.bseq == a.bseq) = [(g, x)] := by simp [hd, hst, hb]
  rw [Dev.broadcastAck, if_neg hnot, hk, hone]
  rfl

end

/-! ### Rejoin Domain -/

/-- What Rejoin Domain leaves where it is accepted and its input is well formed (R193). -/
theorem Accepted.leaves_rejoinDomain {src : Src} {q : List Byte} {s : State} {d e : Dev} (ha : Accepted (.rejoinDomain src q) s src d)
    (hl : q.length = 8) (hg : fieldAt q 1 1 < 2) (hz : fieldAt q 4 4 = 0)
    (he : (if !d.rejoinOk (fieldAt q 0 1) (BitVec.ofNat 16 (fieldAt q 2 2)) (bit (fieldAt q 1 1) 0) then d.reply src .invalidInput
      else if (d.dom (fieldAt q 0 1)).want.isSome || (d.dom (fieldAt q 0 1)).st == .rejoining then d.reply src .busy
      else d.asBg src fun d => (d.setDom (fieldAt q 0 1) fun x => { x with
        want := some (BitVec.ofNat 16 (fieldAt q 2 2), bit (fieldAt q 1 1) 0) }).startBg src (.rejoin (fieldAt q 0 1))) = e) :
    Leaves (.rejoinDomain src q) s e :=
  ha.leaves_vend rfl rfl (by omega) (by simp [hl]) (by simp [hg, hz]) he

/-! ### The end of a Rejoin Domain -/

/-- `e` is `d` but for the state of the cascade and what it has sent since. -/
def Dev.CastOnly (d e : Dev) : Prop := ∃ c o, e = { d with cas := c, out := d.out ++ o }

namespace Dev.CastOnly

theorem refl (d : Dev) : d.CastOnly d := ⟨d.cas, [], by rw [List.append_nil]⟩

theorem trans {a b c : Dev} (h : a.CastOnly b) (g : b.CastOnly c) : a.CastOnly c := by
  obtain ⟨x, o, rfl⟩ := h
  obtain ⟨y, u, rfl⟩ := g
  exact ⟨y, o ++ u, by rw [← List.append_assoc]⟩

theorem emit (d : Dev) (o : Out) : d.CastOnly (d.emit o) := ⟨d.cas, o.announced ++ [o], by rw [Dev.emit, List.append_assoc]⟩

theorem setPort (d : Dev) (p : Nat) (f : CPort → CPort) : d.CastOnly (d.setPort p f) :=
  ⟨(d.setPort p f).cas, [], by rw [List.append_nil]; rfl⟩

end Dev.CastOnly

theorem Dev.sendOn_castOnly (d : Dev) (p op : Nat) (m : Msg) : d.CastOnly (d.sendOn p op m) := by
  unfold Dev.sendOn
  extract_lets m' c d1
  split
  · exact (Dev.CastOnly.setPort d p _).trans ((Dev.CastOnly.emit _ _).trans (.emit _ _))
  · have h1 : d.CastOnly d1 := .setPort d p _
    split
    · exact h1.trans ((Dev.CastOnly.setPort d1 p _).trans (.emit _ _))
    · exact h1

theorem Dev.broadcast_castOnly (d : Dev) (k : Nat) (b : Bcast) : d.CastOnly (d.broadcast k b) := by
  unfold Dev.broadcast
  extract_lets n c d1 b'
  have h1 : d.CastOnly d1 := ⟨d1.cas, [], by rw [List.append_nil]⟩
  exact h1.trans (forAll_rel Dev.CastOnly.refl (fun _ _ _ => .trans)
    (fun e p => (Dev.CastOnly.emit e _).trans (Dev.sendOn_castOnly _ p _ _)) d1 _)

/-- The record of a domain whose Rejoin Domain ends without effect (R194). -/
def Dom.backDown (x : Dom) : Dom := { x with st := .down, want := none, acks := [], ackAll := false }

/-- A Rejoining domain that goes back to Down, and nothing else but the broadcast of it (R194). -/
theorem Dev.rejoinBack_frame (d : Dev) (g : Nat) :
    (d.setDom g Dom.backDown).CastOnly (d.rejoinBack g) :=
  Dev.broadcast_castOnly _ _ _

theorem Dev.reply_sent (d : Dev) (src : Src) (r : Ret) (ext : Nat) {o : List Byte} (ho : o.length ≤ 4096) :
    d.Sent (d.reply src r ext o) (.cci src r ext o) := by
  rw [Dev.reply, if_neg fun h => Nat.not_lt.mpr ho h.2]
  exact Dev.Raised.sent (.refl _)

section
variable {d : Dev} {b : Bg} {r : Ret} {ext : Nat} {out : List Byte}

theorem Dev.finishBg_doms : (d.finishBg b r ext out).doms = d.doms := by
  unfold Dev.finishBg
  extract_lets c gone
  split
  · rfl
  · split
    · rfl
    · simp [gone]

theorem Dev.rejoinEnd_doms {g : Nat} : (d.rejoinEnd g r ext out).doms = d.doms := by
  unfold Dev.rejoinEnd
  split
  · exact Dev.finishBg_doms
  · rfl

/-- A background command that no one has abandoned is answered when it ends, while the cores are there (R31). -/
theorem Dev.finishBg_answered (ha : b.abandoned = false) (hm : b.mute = false) (hc : d.coresGone = false) :
    d.finishBg b r ext out = Dev.reply { d with
      cfg := { d.cfg with bg := d.cfg.bg.filter (· != b), lateAborts := d.cfg.lateAborts ++ b.aborts } } b.src r ext out := by
  rw [Dev.finishBg, if_neg (by simp [ha, hm]), if_neg (by simp [hc])]

/-- The Rejoin Domain that alone runs is gone when it ends, and answered (R193). -/
theorem Dev.rejoinEnd_only {g : Nat} (hb : d.cfg.bg = [b]) (hk : b.kind = .rejoin g) (hr : b.result = none) (ha : b.abandoned = false)
    (hm : b.mute = false) (hc : d.coresGone = false) (ho : out.length ≤ 4096) :
    (d.rejoinEnd g r ext out).cfg.bg = [] ∧ d.Sent (d.rejoinEnd g r ext out) (.cci b.src r ext out) := by
  have hfind : (d.cfg.bg.find? fun b => b.kind == .rejoin g && b.result.isNone) = some b := by simp [hb, hk, hr]
  simp only [Dev.rejoinEnd, hfind, Dev.finishBg_answered ha hm hc]
  exact ⟨by simp [hb], Dev.reply_sent _ b.src r ext ho⟩

end

section
variable {d : Dev} {g : Nat}

theorem Dev.rejoinTimeout_early (h : (d.dom g).st ≠ .rejoining ∨ d.time.loc < (d.dom g).since + 1024) : d.rejoinTimeout g = d := by
  refine if_neg ?_
  rintro ⟨hst, -, ht⟩
  rcases h with h | h
  · exact h hst
  · omega

theorem Dev.rejoinTimeout_late {m : Nat} (hst : (d.dom g).st = .rejoining) (ha : (d.dom g).ackAll = false)
    (ht : (d.dom g).since + 1024 ≤ d.time.loc) (hm : d.lateMember g = some m) :
    d.rejoinTimeout g = (d.rejoinBack g).rejoinEnd g .retryRequired 0x0105 (sliceOut (portSlice (d.portToward m))) := by
  rw [Dev.rejoinTimeout, if_pos ⟨hst, by simp [ha], ht⟩, hm]

/-- A Rejoin Domain that ends without effect leaves its domain Down, and its command, where it alone runs, is answered (R194). -/
theorem Dev.rejoinBack_end (d : Dev) (g : Nat) (r : Ret) (ext sl : Nat) {e : Dev}
    (he : e = (d.rejoinBack g).rejoinEnd g r ext (sliceOut sl)) : (e.dom g).st = .down ∧ (e.dom g).want = none ∧
      ∀ b, d.cfg.bg = [b] → b.kind = .rejoin g → b.result = none → b.abandoned = false → b.mute = false → d.coresGone = false →
        e.cfg.bg = [] ∧ d.Sent e (.cci b.src r ext (sliceOut sl)) := by
  obtain ⟨c, o, hback⟩ := d.rejoinBack_frame g
  have hdom : e.dom g = (d.dom g).backDown := calc
    e.dom g = (d.rejoinBack g).dom g := by rw [he, Dev.dom, Dev.rejoinEnd_doms, Dev.dom]
    _ = (d.setDom g Dom.backDown).dom g := congrArg (·.dom g) hback
    _ = (d.dom g).backDown := (d.dom_setDom g _ g).trans (if_pos rfl)
  refine ⟨congrArg Dom.st hdom, congrArg Dom.want hdom, fun b hb hk hr ha hm hc => ?_⟩
  have hbg : (d.rejoinBack g).cfg.bg = [b] := by rw [hback]; exact hb
  have hgone : (d.rejoinBack g).coresGone = false := by rw [hback]; exact hc
  obtain ⟨hnone, x, y, hsent⟩ := Dev.rejoinEnd_only (r := r) (ext := ext) (out := sliceOut sl) hbg hk hr ha hm hgone
    (by simp [sliceOut, leBytes])
  refine ⟨he ▸ hnone, o ++ x, y, ?_⟩
  rw [he, hsent, hback]
  simp

end

/-- Settles O58: a broadcast heard is what the port's record makes of it, an acknowledgement is added to its domain's, Rejoin Domain is one
conditional behind its gates, and a late Rejoining domain goes back. -/
theorem domainsDownUpAndRejoined : Obligations.DomainsDownUpAndRejoined := by
  refine ⟨?broadcasts, ?acks, ?rejoin, ?timeout⟩
  case broadcasts =>
    intro s p b d
    refine ⟨fun hp => ⟨.of_done rfl (Dev.domainDown_unheard (Dev.hear_of_down hp 1)),
        .of_done rfl (Dev.domainUp_unheard (Dev.hear_of_down hp 2))⟩,
      fun h => .of_done rfl (Dev.domainDown_heard h), fun h hd hn => .of_done rfl ?_, fun h => .of_done rfl (Dev.domainUp_heard h)⟩
    exact (Dev.domainDown_heard h).trans (Dev.detectDown_remote hd hn 17)
  case acks =>
    intro s p a
    refine ⟨fun h => .of_done rfl (Dev.broadcastAck_discarded h), fun g x hp he hk hd hst hb =>
      .of_done (congrArg s.done (Dev.broadcastAck_domainUp hp he hk hd hst hb)) ?_⟩
    have hx : s.dev.dom g = x := by simp [Dev.dom, hd, Tbl.get]
    have hdom : (s.dev.setDom g (Dom.ackedBy a.member)).dom g = x.ackedBy a.member := by rw [Dev.dom_setDom, if_pos rfl, hx]
    rw [hdom]
    exact ⟨x.mem_ackedBy a.member, fun _ => Dom.ackedBy_keeps⟩
  case rejoin =>
    intro src q s d g mask gu ha hl hg hz hgr hmask hgu
    subst hgr hmask hgu
    refine ⟨fun hok => ha.leaves_rejoinDomain hl hg hz ?_, fun hok hst => ha.leaves_rejoinDomain hl hg hz ?_,
      fun hok hst hw hbg => ha.leaves_rejoinDomain hl hg hz ?_⟩
    · exact if_pos (by simp [hok])
    · rw [if_neg (by simp [hok]), if_pos (by simp [hst])]
    · rw [if_neg (by simp [hok]), if_neg (by simp [hst, hw]), Dev.asBg, if_neg (by simp [hbg])]
  case timeout =>
    intro s g
    refine ⟨fun h => .of_done rfl (Dev.rejoinTimeout_early h), fun m hst ha ht hm => .of_done rfl ?_⟩
    obtain ⟨hdown, hwant, hend⟩ := s.dev.rejoinBack_end g .retryRequired 0x0105 (portSlice (s.dev.portToward m))
      (Dev.rejoinTimeout_late hst ha ht hm)
    exact ⟨hdown, hwant, fun b hb hk hr hab hmu hc => (hend b hb hk hr hab hmu hc).imp_right fun h => ⟨_, h⟩⟩

end Sys2Proof.Machine

namespace Sys2Proof.Machine

open Sys2Proof

/-! ### The record of one channel -/

/-- Two changes of one key are one, where the first leaves a value that the table lists. -/
theorem Tbl.upd_upd {α : Type} [DecidableEq α] {dflt : α} {t : Tbl α} {k : Nat} {f g : α → α} (h : f (Tbl.get dflt t k) ≠ dflt) :
    Tbl.upd dflt (Tbl.upd dflt t k f) k g = Tbl.upd dflt t k fun x => g (f x) := by
  have hget : Tbl.get dflt (Tbl.upd dflt t k f) k = f (Tbl.get dflt t k) := (Tbl.get_upd dflt t k f k).trans (if_pos rfl)
  have hput : Tbl.upd dflt t k f = Tbl.put t k (f (Tbl.get dflt t k)) := if_neg h
  rw [Tbl.upd, hget, hput]
  simp only [Tbl.upd, Tbl.set, Tbl.put_put, Tbl.del_put]

section
variable {d : Dev} {ch : Nat}

theorem Dev.chan_setChan_same (d : Dev) (ch : Nat) (f : Chan → Chan) : (d.setChan ch f).chan ch = f (d.chan ch) :=
  (d.chan_setChan ch f ch).trans (if_pos rfl)

/-- Two changes of one channel are one, where the first leaves a record that the table lists. -/
theorem Dev.setChan_setChan {f g : Chan → Chan} (h : f (d.chan ch) ≠ {}) :
    (d.setChan ch f).setChan ch g = d.setChan ch fun c => g (f c) :=
  congrArg (fun t => { d with chans := t }) (Tbl.upd_upd h)

/-- A change of one channel writes the record that it leaves there. -/
theorem Dev.setChan_eq_write (f : Chan → Chan) : d.setChan ch f = d.setChan ch fun _ => (d.setChan ch f).chan ch := by
  rw [Dev.chan_setChan_same]
  rfl

end

/-! ### Requests at a channel -/

section
variable {c : Chan} {g hint : Nat}

theorem Chan.accept_order (c : Chan) (wr : Bool) (g hint : Nat) : (c.accept wr g hint).order = c.order + 1 := by
  cases wr with
  | true => rw [Chan.accept, if_pos rfl]; dsimp only; split <;> rfl
  | false =>
    rw [Chan.accept, if_neg Bool.false_ne_true]
    dsimp only
    split
    · rfl
    · rw [Chan.addRead]; split <;> rfl

/-- A write enters a write queue that has a free place (R200). -/
theorem Chan.accept_write_enters (hl : c.wq.length < 64) (hw : c.wwait = []) : c.accept true g hint =
    (Chan.addWrite { c with order := c.order + 1 } { gran := g, hint := hint, order := c.order }).sampled := by
  have hroom : ¬(64 ≤ c.wq.length ∨ (!c.wwait.isEmpty) = true) := by simp [hw, hl]
  rw [Chan.accept, if_pos rfl]
  exact congrArg Chan.sampled (if_neg hroom)

/-- A write waits for a credit while the write queue is full (R200). -/
theorem Chan.accept_write_waits (hl : 64 ≤ c.wq.length) : c.accept true g hint =
    Chan.sampled { c with order := c.order + 1, wwait := c.wwait ++ [{ gran := g, hint := hint, order := c.order }] } := by
  rw [Chan.accept, if_pos rfl]
  exact congrArg Chan.sampled (if_pos (Or.inl hl))

section
variable (hl : c.rq.length < 64) (hw : c.rwait = [])
include hl hw

theorem Chan.accept_read_room : c.accept false g hint =
    (Chan.addRead { c with order := c.order + 1 } { gran := g, hint := hint, order := c.order }).sampled := by
  have hroom : ¬(64 ≤ c.rq.length ∨ (!c.rwait.isEmpty) = true) := by simp [hw, hl]
  rw [Chan.accept, if_neg Bool.false_ne_true]
  exact congrArg Chan.sampled (if_neg hroom)

/-- A read enters a read queue that has a free place, where no write of its granule waits (R200). -/
theorem Chan.accept_read_enters (hq : c.wq.any (fun x => x.gran == g) = false) : c.accept false g hint =
    Chan.sampled { c with order := c.order + 1, rq := c.rq ++ [{ gran := g, hint := hint, order := c.order }] } := by
  rw [Chan.accept_read_room hl hw]
  exact congrArg Chan.sampled (if_neg (Bool.eq_false_iff.mp hq))

/-- A read of a granule that waits to be written has its data from the write queue (R200). -/
theorem Chan.accept_read_served (hq : c.wq.any (fun x => x.gran == g) = true) :
    c.accept false g hint = Chan.sampled { c with order := c.order + 1 } := by
  rw [Chan.accept_read_room hl hw]
  exact congrArg Chan.sampled (if_pos hq)

end
end

section
variable {d : Dev} {ch gran : Nat} {wr : Bool}

theorem Dev.channelRequest_unserved (h : d.chServes (chGran ch (granOf gran)) wr = false) (who : ChOrigin) :
    d.channelRequest ch wr gran who = d := if_neg (by simp [h])

/-- A request that its rank takes changes the record of its channel alone, whose queues and order are as it is accepted there (R200). -/
theorem Dev.channelRequest_accepted {a : Chan} {e : Dev} (who : ChOrigin) (hch : ch < d.nChans) (hself : (d.chan ch).selfRef = false)
    (hs : d.chServes (chGran ch (granOf gran)) wr = true) (ha : a = (d.chan ch).accept wr (granOf gran) (d.hintOf (granOf gran) who))
    (he : e = d.channelRequest ch wr gran who) : (e.chan ch).wq = a.wq ∧ (e.chan ch).rq = a.rq ∧ (e.chan ch).wwait = a.wwait ∧
      (e.chan ch).order = a.order ∧ e = d.setChan ch fun _ => e.chan ch := by
  have hlisted (q : List Nat) : { a with servedQ := q } ≠ ({} : Chan) := by
    intro h
    have hzero : a.order = 0 := congrArg Chan.order h
    rw [ha, Chan.accept_order] at hzero
    exact Nat.succ_ne_zero _ hzero
  subst ha
  have hone : e = d.setChan ch _ := he.trans ((if_pos ⟨hch, by simp [hself], hs⟩).trans (Dev.setChan_setChan (hlisted _)))
  rw [hone, Dev.chan_setChan_same]
  exact ⟨rfl, rfl, rfl, rfl, rfl⟩

end

/-! ### Granules that return -/

section
variable {d : Dev} {pg : Nat} {err : List (Nat × Nat)}

theorem Dev.readReturn_clean (h : d.readGran pg err = .clean) (who : Reader) : d.readReturn pg who err = d := by
  simp only [Dev.readReturn, h]

theorem Dev.readReturn_poisoned {x : Nat} (h : d.readGran pg err = .poisoned x) (who : Reader) : d.readReturn pg who err = d := by
  simp only [Dev.readReturn, h]

theorem Dev.readReturn_corrected {n : Nat} (h : d.readGran pg err = .corrected (some n)) (who : Reader) :
    d.readReturn pg who err = (d.correction pg n).rewriteLater pg (who == .scrub) := by
  simp only [Dev.readReturn, h]

theorem Dev.readReturn_uncorrectable (h : d.readGran pg err = .uncorrectable) (who : Reader) :
    d.readReturn pg who err = d.readUe pg who := by
  simp only [Dev.readReturn, h]

/-- A granule of a module that is there returns to its reader once its read has left the queue (R200, R222). -/
theorem Dev.dramReadReturn_there {ch gran : Nat} (hch : ch < d.nChans) (hp : (d.place (chGran ch (granOf gran) / 32)).isSome = true)
    (who : Reader) (errs : List (Nat × Byte)) : d.dramReadReturn ch gran who errs =
      (d.accessDone ch false (granOf gran)).readReturn (chGran ch (granOf gran)) who (errNats errs) := if_pos ⟨hch, hp⟩

end

/-! ### Write bursts -/

section
variable {d : Dev} {ch gran : Nat}

/-- A write waits for an older read of its granule (R200). -/
theorem Dev.writeBurst_waits (h : (d.chan ch).readFirst (granOf gran) = true) (ok : Bool) : d.writeBurst ch gran ok = d :=
  if_neg (by simp [h])

theorem Dev.writeBurst_nothing (hq : (d.chan ch).wq.any (fun x => x.gran == granOf gran) = false)
    (hn : (d.chan ch).newer.contains (granOf gran) = false) (ok : Bool) : d.writeBurst ch gran ok = d :=
  if_neg (by simp only [hq, hn]; simp)

section
variable (hch : ch < d.nChans) (hq : (d.chan ch).wq.any (fun x => x.gran == granOf gran) = true)
  (hr : (d.chan ch).readFirst (granOf gran) = false)
include hch hq hr

/-- A queued write completes: its burst leaves, and the granule's entry of the error address table has been written back (R229). -/
theorem Dev.writeBurst_completes {e : Dev} (he : e = d.accessDone ch true (granOf gran)) : d.writeBurst ch gran true =
    (e.emit (.burst ch (granOf gran) (burstBeats (eccCodeword ((e.storedBytes (chGran ch (granOf gran))).map BitVec.toNat)
      (Tbl.get 0 e.poison (chGran ch (granOf gran))))))).setChan ch
        fun c => { c with eat := c.eat.map fun x => if x.gran = granOf gran then { x with wb := true } else x } := by
  rw [Dev.writeBurst, if_pos ⟨hch, .inl hq, by simp [hr]⟩, he]
  simp only [hq, if_true]

/-- A queued write that fails in the destination of a pump halts the pump (R109, R238). -/
theorem Dev.writeBurst_halts {p : Nat} (hp : (d.accessDone ch true (granOf gran)).destPump (chGran ch (granOf gran) / 32) = some p) :
    d.writeBurst ch gran false = (d.accessDone ch true (granOf gran)).haltPump p 3 0 (chGran ch (granOf gran)) := by
  rw [Dev.writeBurst, if_pos ⟨hch, .inl hq, by simp [hr]⟩]
  simp only [hq, if_true, Bool.false_eq_true, if_false, hp]

end
end

/-- Settles O54: a request leaves its channel's record as it is accepted there, a returned granule is what the code makes of it, and a
write burst is what its place in the queue allows. -/
theorem dramRequestsAndReturns : Obligations.DramRequestsAndReturns := by
  refine ⟨?requests, ?returns, ?bursts, fun s ch r bank => .of_done rfl rfl⟩
  case requests =>
    intro s ch gran g who x hch hself hg hx
    subst hg hx
    refine ⟨fun hs hl hw => .of_done rfl ?_, fun hs hl => .of_done rfl ?_, fun hs hl hw hq => .of_done rfl ?_,
      fun hs hl hw hq => .of_done rfl ?_, fun w hs => .of_done rfl (Dev.channelRequest_unserved hs who)⟩
    · obtain ⟨hwq, hrq, -, ho, hframe⟩ := Dev.channelRequest_accepted who hch hself hs (Chan.accept_write_enters hl hw).symm rfl
      exact ⟨hwq, hrq, ho, hframe⟩
    · obtain ⟨hwq, -, hww, -, hframe⟩ := Dev.channelRequest_accepted who hch hself hs (Chan.accept_write_waits hl).symm rfl
      exact ⟨hwq, hww, hframe⟩
    · obtain ⟨hwq, hrq, -, -, hframe⟩ := Dev.channelRequest_accepted who hch hself hs (Chan.accept_read_enters hl hw hq).symm rfl
      exact ⟨hrq, hwq, hframe⟩
    · obtain ⟨hwq, hrq, -⟩ := Dev.channelRequest_accepted who hch hself hs (Chan.accept_read_served hl hw hq).symm rfl
      exact ⟨hrq, hwq⟩
  case returns =>
    intro s ch gran pg who errs d hch hpg hp hd
    subst hpg hd
    have hret := Dev.dramReadReturn_there hch hp who errs
    exact ⟨fun h => .of_done rfl (hret.trans (Dev.readReturn_clean h who)),
      fun x h => .of_done rfl (hret.trans (Dev.readReturn_poisoned h who)),
      fun n h => .of_done rfl (hret.trans (Dev.readReturn_corrected h who)),
      fun h => .of_done rfl (hret.trans (Dev.readReturn_uncorrectable h who))⟩
  case bursts =>
    intro s ch gran g ok hch hg
    subst hg
    exact ⟨fun d hd hq hr => .of_done rfl (Dev.writeBurst_completes hch hq hr hd),
      fun hr => .of_done rfl (Dev.writeBurst_waits hr ok),
      fun p hq hr hp => .of_done rfl (Dev.writeBurst_halts hch hq hr hp),
      fun hq hn => .of_done rfl (Dev.writeBurst_nothing hq hn ok)⟩

end Sys2Proof.Machine

namespace Sys2Proof.Machine

open Sys2Proof

/-! ### The record of one rank -/

theorem Dev.rank_setRank_same (d : Dev) (ch r : Nat) (f : Rank → Rank) : (d.setRank ch r f).rank ch r = f (d.rank ch r) :=
  (d.rank_setRank ch r f ch r).trans (if_pos ⟨rfl, rfl⟩)

/-- A change of a channel that leaves its ranks' records alone. -/
theorem Dev.rank_setChan {d : Dev} {ch j k : Nat} {f : Chan → Chan} (hf : ∀ c, (f c).ranks = c.ranks) :
    (d.setChan ch f).rank j k = d.rank j k := by
  by_cases hj : j = ch
  · subst hj
    simp only [Dev.rank, Chan.rank, Dev.chan_setChan_same, hf]
  · simp only [Dev.rank, Dev.chan_setChan, hj, if_false]

theorem Chan.rank_setRank_same (c : Chan) (r : Nat) (f : Rank → Rank) : (c.setRank r f).rank r = f (c.rank r) :=
  (Tbl.get_upd ({} : Rank) c.ranks r f r).trans (if_pos rfl)

theorem Dev.emit_chan (d : Dev) (o : Out) (ch : Nat) : (d.emit o).chan ch = d.chan ch := rfl

theorem Dev.emit_rank (d : Dev) (o : Out) (ch r : Nat) : (d.emit o).rank ch r = d.rank ch r := rfl

theorem Dev.ite_emit (p : Prop) [Decidable p] (d : Dev) (o : Out) :
    (if p then d.emit o else d).ev = d.ev ∧ (if p then d.emit o else d).chans = d.chans := by
  split <;> exact ⟨rfl, rfl⟩

theorem Dev.Raised.chan {d e : Dev} (h : d.Raised e) (ch : Nat) : e.chan ch = d.chan ch := (congrArg (·.chan ch) h.bare :)

theorem Dev.Raised.rank {d e : Dev} (h : d.Raised e) (ch r : Nat) : e.rank ch r = d.rank ch r := (congrArg (·.rank ch r) h.bare :)

/-- What a run of changes, each of one rank by the same idempotent change of its record, makes of rank `k`. -/
theorem rank_forAll {h : Rank → Rank} {f : Dev → Nat → Dev} {ch : Nat} (hh : ∀ x, h (h x) = h x)
    (hf : ∀ (d : Dev) r k, (f d r).rank ch k = if k = r then h (d.rank ch k) else d.rank ch k) (d : Dev) (rs : List Nat) (k : Nat) :
    (forAll d rs f).rank ch k = if k ∈ rs then h (d.rank ch k) else d.rank ch k := by
  induction rs generalizing d with
  | nil => rfl
  | cons r rs ih =>
    rw [forAll, List.foldl_cons, ← forAll, ih, hf]
    by_cases hk : k = r <;> by_cases hm : k ∈ rs <;> simp [hk, hm, hh]

theorem rank_forAll_of_kept {α : Type} {f : Dev → α → Dev} {j k : Nat} (hf : ∀ d x, (f d x).rank j k = d.rank j k) (d : Dev)
    (xs : List α) : (forAll d xs f).rank j k = d.rank j k :=
  forAll_rel (R := fun a b => b.rank j k = a.rank j k) (fun _ => rfl) (fun _ _ _ h g => g.trans h) hf d xs

/-! ### Refresh -/

section
variable {d : Dev} {ch r : Nat}

theorem Chan.of_mem_closeRank {c : Chan} {x : OpenRow} (h : x ∈ (c.closeRank r).rows) : x.r ≠ r := by
  simpa using (List.mem_filter.mp h).2

/-- The end of refresh urgency (R208) leaves the ranks, the open rows, what was sent and the stored data as they were. -/
theorem Dev.endUrgent_keeps {e : Dev} (he : e = d.endUrgent ch) : (e.chan ch).ranks = (d.chan ch).ranks ∧
    (e.chan ch).rows = (d.chan ch).rows ∧ e.out = d.out ∧ e.dram = d.dram := by
  subst he
  unfold Dev.endUrgent
  split
  · rw [Dev.chan_setChan_same]
    exact ⟨rfl, rfl, rfl, rfl⟩
  · exact ⟨rfl, rfl, rfl, rfl⟩

/-- A refresh pays 1 of the rank's debt, closes its rows and is sent (R208). -/
theorem Dev.refabIssue_pays {e : Dev} (hch : ch < d.nChans) (hr : r < 8) (hself : (d.chan ch).selfRef = false)
    (href : (d.rank ch r).refreshed = true) (hdebt : 65536 ≤ (d.rank ch r).debt) (he : e = d.refabIssue ch r) :
    (e.rank ch r).debt = (d.rank ch r).debt - 65536 ∧ (∀ x ∈ (e.chan ch).rows, x.r ≠ r) ∧ d.Sent e (.dram ch r 1) ∧
      e.dram = d.dram := by
  rw [Dev.refabIssue, if_pos ⟨hch, hr, by simp [hself], href, hdebt⟩] at he
  obtain ⟨hranks, hrows, hout, hdram⟩ := Dev.endUrgent_keeps he
  rw [Dev.emit_chan, Dev.chan_setChan_same] at hranks hrows
  have hrank : e.rank ch r = { d.rank ch r with debt := (d.rank ch r).debt - 65536 } := by
    rw [Dev.rank, Chan.rank, hranks]
    exact d.rank_setRank_same ch r _
  exact ⟨(congrArg Rank.debt hrank :), fun x hx => Chan.of_mem_closeRank (hrows ▸ hx), ⟨[], [], hout⟩, hdram.trans (by simp)⟩

theorem Dev.refabIssue_nothing_owed (h : (d.rank ch r).debt < 65536) : d.refabIssue ch r = d := if_neg fun hc => by omega

/-! ### MR4 polls -/

/-- A poll that falls due while the last one runs is skipped (R46). -/
theorem Dev.mr4Poll_running (hdue : d.pollDue ch = true) (hruns : d.stillRuns 2 (chanSlice ch) = true) (l : List (Nat × Nat)) :
    d.mr4Poll ch l = (d.setChan ch fun c => { c with pollAt := d.time.loc + 1, oweP := false }).skipDue 2 (chanSlice ch) :=
  (if_pos hdue).trans (if_pos hruns)

/-- A rank's MR4 read gives it the rate that waits for the boundary, with EV121 where it differs or is the highest (R206). -/
theorem Dev.mr4Rank_takes {code m : Nat} {e : Dev} (href : (d.rank ch r).refreshed = true) (hm : m = d.mr4Floor ch code)
    (he : e = d.mr4Rank ch r code) : (e.rank ch r).mNew = some m ∧ (e.rank ch r).m = (d.rank ch r).m ∧
      (m ≠ (d.rank ch r).m ∨ m = 4 → e.Pending 121) := by
  obtain ⟨a, hraised, hpend, ha⟩ : ∃ a, d.Raised a ∧ (m ≠ (d.rank ch r).m ∨ m = 4 → a.Pending 121) ∧
      e = a.setRank ch r fun x => { x with mNew := some m, hot := mr4Rate code == 4 } := by
    rw [Dev.mr4Rank, if_pos href, ← hm] at he
    dsimp only at he
    by_cases hev : m ≠ (d.rank ch r).m ∨ m = 4
    · exact ⟨_, d.raise_raised 121 (chanSlice ch) 0, fun _ => d.raise_pending 121 _ _ (by decide),
        by rw [he, if_pos (by simpa using hev)]⟩
    · exact ⟨d, .refl d, fun h => absurd h hev, by rw [he, if_neg (by simpa using hev)]⟩
  rw [ha, Dev.rank_setRank_same]
  exact ⟨rfl, (congrArg Rank.m (hraised.rank ch r) :), hpend⟩

theorem rankList_filter_eq (hr : r < 8) : rankList.filter (fun x => r == x) = [r] := by
  revert r
  decide

/-- A poll that reads one rank (R206). -/
theorem Dev.mr4Poll_one (hr : r < 8) (hdue : d.pollDue ch = true) (hruns : d.stillRuns 2 (chanSlice ch) = false) (code : Nat) :
    ∃ b : Dev, d.mr4Poll ch [(r, code)] = b.mr4Rank ch r code ∧ b.rank ch r = d.rank ch r ∧ b.mr4Floor ch code = d.mr4Floor ch code := by
  refine ⟨d.setChan ch fun c => { c with pollAt := d.time.loc + 1, oweP := false }, ?_, Dev.rank_setChan fun _ => rfl, rfl⟩
  rw [Dev.mr4Poll, if_pos hdue]
  simp [hruns, rankList_filter_eq hr, forAll]

theorem Dev.mr4Poll_not_due (h : d.pollDue ch = false) (l : List (Nat × Nat)) : d.mr4Poll ch l = d := if_neg (by simp [h])

/-! ### Calibration and retraining -/

theorem Dev.calibrationBurst_not_due (h : d.burstDue ch r = false) (ps : List Probe) : d.calibrationBurst ch r ps = d := by
  simp [Dev.calibrationBurst, h]

/-- A burst without live adjustment takes the rank's turn and counts, and raises nothing (R212). -/
theorem Dev.calibrationBurst_counts {ps : List Probe} {e : Dev} (hdue : d.burstDue ch r = true)
    (hruns : d.stillRuns 3 (chanSlice ch) = false) (hlive : d.fld (chBase ch + 0x10) 3 3 = 0) (he : e = d.calibrationBurst ch r ps) :
    e.ev = d.ev ∧ e.chan ch = Chan.setRank { d.chan ch with burstAt := d.time.loc + 1, oweB := false, nextRank := (r + 1) % 8 } r
      fun x => { x with bursts := x.bursts + 1 } := by
  rw [Dev.calibrationBurst, if_neg (by simp [hruns]), if_pos hdue] at he
  extract_lets live a b n z at he
  rw [if_neg (by simp [live, hlive])] at he
  obtain ⟨hev, hchans⟩ : z.ev = b.ev ∧ z.chans = b.chans := Dev.ite_emit _ b _
  have hchan : z.chan ch = b.chan ch := (congrArg (Tbl.get {} · ch) hchans :)
  rw [he]
  exact ⟨hev, hchan.trans (by simp only [b, a, Dev.setRank, Dev.chan_setChan_same])⟩

section
variable (hch : ch < d.nChans) (hst : (d.rank ch r).st = .retraining)
include hch hst

theorem Dev.retrainingWindow_opens {ns : Nat} (hu : (d.chan ch).urgent = false) (hns : ns ≤ d.fld (chBase ch + 0x10) 15 8 * 10)
    (hw : (d.rank ch r).winAt ≠ d.time.loc + 1) :
    d.retrainingWindow ch r ns = (d.setRank ch r fun x => { x with winAt := d.time.loc + 1 }).emit (.dram ch r 4) :=
  if_pos ⟨hch, hst, by simp [hu], hns, hw⟩

/-- What training found waits for the next boundary (R216). -/
theorem Dev.retrainingEnd_waits (hi : (d.rank ch r).install = none) (found : Bool) (x : Setting) :
    d.retrainingEnd ch r found x = d.setRank ch r fun y => { y with install := some (x, found) } := if_pos ⟨hch, hst, by simp [hi]⟩

end

/-- No window opens while the channel is refresh-urgent, in a stroke that has had one, or for longer than `RT_WIN` (R215). -/
theorem Dev.retrainingWindow_refused {ns : Nat} (h : (d.chan ch).urgent = true ∨ (d.rank ch r).winAt = d.time.loc + 1 ∨
    d.fld (chBase ch + 0x10) 15 8 * 10 < ns) : d.retrainingWindow ch r ns = d := by
  refine if_neg ?_
  rintro ⟨-, -, hu, hns, hw⟩
  rcases h with h | h | h
  · simp [h] at hu
  · exact hw h
  · omega

theorem Dev.retrainingTimeout_due (h : (d.rank ch r).retrainAt + 1024 ≤ d.time.loc) (x : Setting) :
    d.retrainingTimeout ch r x = d.retrainingEnd ch r false x := if_pos h

theorem Dev.retrainingTimeout_early (h : d.time.loc < (d.rank ch r).retrainAt + 1024) (x : Setting) :
    d.retrainingTimeout ch r x = d := if_neg (by omega)

end

/-! ### Parity alerts -/

/-- A rank that is up has a command error as what starts its retirement, where nothing else does yet (R217). -/
def Rank.commandError (x : Rank) : Rank := if rankUp x.st then { x with trigger := if x.trigger = 0 then 2 else x.trigger } else x

theorem Rank.commandError_twice (x : Rank) : x.commandError.commandError = x.commandError := by
  unfold Rank.commandError
  split
  · split <;> simp_all
  · simp_all

/-- The command error of one rank. -/
def Dev.commandError (d : Dev) (ch r : Nat) : Dev :=
  if rankUp (d.rank ch r).st then d.setRank ch r fun x => { x with trigger := if x.trigger = 0 then 2 else x.trigger } else d

theorem Dev.commandError_rank (ch : Nat) (d : Dev) (r k : Nat) :
    (d.commandError ch r).rank ch k = if k = r then (d.rank ch k).commandError else d.rank ch k := by
  unfold Dev.commandError
  by_cases hk : k = r
  · subst hk
    split <;> simp_all [Rank.commandError]
  · split <;> simp [hk]

theorem Dev.commandError_frame (ch : Nat) (d : Dev) (r : Nat) : (d.commandError ch r).ev = d.ev ∧
    ((d.commandError ch r).chan ch).alert0 = (d.chan ch).alert0 := by
  unfold Dev.commandError
  split
  · rw [Dev.setRank, Dev.chan_setChan_same]
    exact ⟨rfl, rfl⟩
  · exact ⟨rfl, rfl⟩

section
variable {d : Dev} {ch : Nat} (hch : ch < d.nChans) (hm : ((d.chan ch).dimm 0).isSome = true)
include hch hm

/-- The first alert of a slot is noted, and the commands are issued again (R217). -/
theorem Dev.caParityAlert_first (h : (d.chan ch).alert0 = none) : d.caParityAlert ch 0 =
    (d.setChan ch fun c => { c with alert0 := some d.time.loc }).emit (.dram ch 0 7) := by
  simp [Dev.caParityAlert, hch, hm, h]

/-- A second alert within 1,024 strokes raises EV128 besides, and is a command error of the slot's ranks (R217). -/
theorem Dev.caParityAlert_second {t : Nat} (h : (d.chan ch).alert0 = some t) (ht : d.time.loc ≤ t + 1024) :
    ∃ a, (d.setChan ch fun c => { c with alert0 := some d.time.loc }).Raised a ∧ a.Pending 128 ∧
      d.caParityAlert ch 0 = forAll a (List.range 4) fun d r => d.commandError ch r :=
  ⟨_, (Dev.emit_raised _ (.dram ch 0 7)).trans (Dev.raise_raised _ 128 (chanSlice ch) 0), Dev.raise_pending _ 128 _ _ (by decide),
    by simp [Dev.caParityAlert, hch, hm, h, ht, Dev.commandError]⟩

/-- What a second alert leaves: EV128, its time, and the command error of each rank of the slot that is up. -/
theorem Dev.caParityAlert_error {t : Nat} {e : Dev} (h : (d.chan ch).alert0 = some t) (ht : d.time.loc ≤ t + 1024)
    (he : e = d.caParityAlert ch 0) : e.Pending 128 ∧ (e.chan ch).alert0 = some d.time.loc ∧
      ∀ r < 4, e.rank ch r = (d.rank ch r).commandError := by
  obtain ⟨a, hraised, hpend, ha⟩ := Dev.caParityAlert_second hch hm h ht
  rw [ha] at he
  obtain ⟨hev, halert⟩ : e.ev = a.ev ∧ (e.chan ch).alert0 = (a.chan ch).alert0 := he ▸
    forAll_rel (R := fun a b => b.ev = a.ev ∧ (b.chan ch).alert0 = (a.chan ch).alert0) (fun _ => ⟨rfl, rfl⟩)
      (fun _ _ _ h g => ⟨g.1.trans h.1, g.2.trans h.2⟩) (Dev.commandError_frame ch) a (List.range 4)
  refine ⟨by rwa [Dev.Pending, hev], ?_, fun r hr => ?_⟩
  · rw [halert, hraised.chan ch, Dev.chan_setChan_same]
  · have hrank : a.rank ch r = d.rank ch r := (hraised.rank ch r).trans (Dev.rank_setChan fun _ => rfl)
    rw [he, rank_forAll Rank.commandError_twice (Dev.commandError_rank ch), if_pos (List.mem_range.mpr hr), hrank]

end

/-! ### Bring-up -/

/-- The repairs that are repeated at bring-up change no rank's record (R233, R403). -/
theorem Dev.replayRepairs_rank (d : Dev) (ch r j k : Nat) : (d.replayRepairs ch r).rank j k = d.rank j k := by
  unfold Dev.replayRepairs
  split
  · rfl
  · refine rank_forAll_of_kept (fun a x => ?_) d _
    split
    · refine rank_forAll_of_kept (fun _ _ => ?_) a _
      rfl
    · rw [Dev.emit_rank]
      exact Dev.rank_setChan fun _ => rfl

section
variable {d : Dev} {ch : Nat} {b : BringUp}

/-- The result of one rank in training, where no delay table is in use: the rank is as its result leaves it, and waits for none (R210). -/
theorem Dev.bringUpComplete_one {e : Dev} (hch : ch < d.nChans) (ht : (d.chan ch).table = false)
    (hb : (d.chan ch).bringUp.contains b.r = true) (hst : (d.rank ch b.r).st = .training) (he : e = d.bringUpComplete ch [b]) :
    e.ev = (d.rankUpNow ch b).ev ∧ e.rank ch b.r = (d.rankUpNow ch b).rank ch b.r ∧ (e.chan ch).up = true ∧
      b.r ∉ (e.chan ch).bringUp := by
  have hone : ([b].filter fun b => (d.chan ch).bringUp.contains b.r && (d.rank ch b.r).st == .training) = [b] := by
    rw [List.filter_cons_of_pos (by simp only [hb, hst]; rfl), List.filter_nil]
  have hnow : e = (d.rankUpNow ch b).setChan ch fun c => { c with
      bringUp := c.bringUp.filter fun r => !([b].any fun b => b.r == r), up := true } := by
    rw [he, Dev.bringUpComplete, hone]
    simp [hch, ht, forAll, hst]
  rw [hnow, Dev.chan_setChan_same]
  exact ⟨rfl, Dev.rank_setChan fun _ => rfl, rfl, by simp⟩

theorem Dev.bringUpComplete_nil (d : Dev) (ch : Nat) : d.bringUpComplete ch [] = d := if_neg (by simp)

/-- A rank that found no working setting stays Empty, with EV127 (R211). -/
theorem Dev.rankUpNow_empty (ht : (d.chan ch).table = false) (hf : b.found = false) :
    (d.rankUpNow ch b).Pending 127 ∧ ((d.rankUpNow ch b).rank ch b.r).st = .empty := by
  rw [Dev.rankUpNow, if_neg (by simp [ht, hf]), (Dev.raise_raised _ 127 _ _).rank, Dev.rank_setRank_same]
  exact ⟨Dev.raise_pending _ 127 _ _ (by decide), rfl⟩

/-- A rank that trained is Active at the rate that MR4 shows (R206, R210). -/
theorem Dev.rankUpNow_active (hf : b.found = true) : ((d.rankUpNow ch b).rank ch b.r).st = .active ∧
    ((d.rankUpNow ch b).rank ch b.r).m = d.mr4Floor ch b.mr4 := by
  rw [Dev.rankUpNow, if_pos (by simp [hf]), Dev.replayRepairs_rank]
  have hrank := d.rank_setRank_same ch b.r
  exact ⟨congrArg Rank.st (hrank _), congrArg Rank.m (hrank _)⟩

end

/-- Settles O55: a refresh, a poll, a burst, a window and an alert are each one conditional, and a rank that comes up is one record. -/
theorem dramRefreshTrainingAndAlerts : Obligations.DramRefreshTrainingAndAlerts := by
  refine ⟨?refresh, fun s ch l hdue hruns => .of_done rfl (Dev.mr4Poll_running hdue hruns l), ?poll,
    fun s ch l r ps => ⟨fun h => .of_done rfl (Dev.mr4Poll_not_due h l), fun h => .of_done rfl (Dev.calibrationBurst_not_due h ps)⟩,
    ?burst, ?retraining, ?alerts, ?bringUp, fun s ch => .of_done rfl (s.dev.bringUpComplete_nil ch)⟩
  case refresh =>
    intro s ch r hch hr hself href
    exact ⟨fun h => .of_done rfl (Dev.refabIssue_pays hch hr hself href h rfl), fun h => .of_done rfl (Dev.refabIssue_nothing_owed h)⟩
  case poll =>
    intro s ch r code m hr hdue hruns href hm
    obtain ⟨b, hpoll, hrank, hfloor⟩ := Dev.mr4Poll_one hr hdue hruns code
    have htakes := Dev.mr4Rank_takes (hrank ▸ href) (hm.trans hfloor.symm) hpoll
    rw [hrank] at htakes
    exact .of_done rfl htakes
  case burst =>
    intro s ch r ps hdue hruns hlive
    refine .of_done rfl ?_
    obtain ⟨hev, hchan⟩ := Dev.calibrationBurst_counts hdue hruns hlive rfl
    have hrank := (congrArg (Chan.rank · r) hchan).trans (Chan.rank_setRank_same _ r _)
    exact ⟨(congrArg Chan.nextRank hchan :), (congrArg Chan.burstAt hchan :), (congrArg Rank.bursts hrank :),
      (congrArg Rank.devs hrank :), hev⟩
  case retraining =>
    intro s ch r ns f x hch hst
    refine ⟨fun hu hns hw => .of_done rfl (Dev.retrainingWindow_opens hch hst hu hns hw),
      fun h => .of_done rfl (Dev.retrainingWindow_refused h),
      fun hi => ⟨.of_done rfl (Dev.retrainingEnd_waits hch hst hi f x), fun ht => .of_done rfl ?_⟩,
      fun ht => .of_done rfl (Dev.retrainingTimeout_early ht x)⟩
    exact (Dev.retrainingTimeout_due ht x).trans (Dev.retrainingEnd_waits hch hst hi false x)
  case alerts =>
    intro s ch hch hm
    refine ⟨fun h => .of_done rfl (Dev.caParityAlert_first hch hm h), fun t h ht => .of_done rfl ?_⟩
    obtain ⟨hpend, halert, hranks⟩ := Dev.caParityAlert_error hch hm h ht rfl
    refine ⟨hpend, halert, fun r hr hup htr => ?_⟩
    rw [hranks r hr, Rank.commandError, if_pos hup]
    exact if_pos htr
  case bringUp =>
    intro s ch b hch ht hb hst
    obtain ⟨hev, hrank, hup, hgone⟩ := Dev.bringUpComplete_one hch ht hb hst rfl
    refine ⟨fun hf => .of_done rfl ?_, fun hf => .of_done rfl ?_⟩
    · obtain ⟨hpend, hempty⟩ := Dev.rankUpNow_empty ht hf
      exact ⟨by rwa [Dev.Pending, hev], hrank ▸ hempty, hup, hgone⟩
    · obtain ⟨hact, hrate⟩ := Dev.rankUpNow_active (d := s.dev) (ch := ch) hf
      exact ⟨hrank ▸ hact, hup, hrank ▸ hrate⟩

end Sys2Proof.Machine

namespace Sys2Proof.Machine

open Sys2Proof

/-! ### The canonical form of the byte memories -/

/-- Every command keeps both byte memories canonical: it keeps the property of the OTP that asks nothing. -/
theorem exec_okMem {c : Instr} {s t : State} (hm : OkMem s.dev.dram s.dev.nvm) (ht : exec c s = .next t) : OkMem t.dev.dram t.dev.nvm :=
  have hk : Kept (.ofOtp fun _ => True) s.dev := ⟨hm, trivial⟩
  (exec_kept (Keep.ofOtp_allows (fun _ _ _ _ _ _ _ _ => trivial) hk) hk t ht).1

/-- A step is one command, run on a state with the memories that the step began with, or it changes nothing (log entries 1 and 80). -/
theorem step_cases {s t : State} (h : step s = .next t) :
    t = s ∨ ∃ c u, exec c u = .next t ∧ u.dev.dram = s.dev.dram ∧ u.dev.nvm = s.dev.nvm := by
  unfold step at h
  split at h
  next =>
    unfold idle at h
    split at h
    next => exact .inl (by cases h; rfl)
    next c _ _ =>
      split at h
      · exact .inl (by cases h; rfl)
      · exact .inr ⟨c, _, h, rfl, rfl⟩
  next c _ _ => exact .inr ⟨c, _, h, rfl, rfl⟩

/-- Settles O9: a step is at most one command, and every command keeps the canonical form. -/
theorem memoryStaysCanonical : Obligations.MemoryStaysCanonical := by
  intro s t hm ht
  rcases step_cases ht with rfl | ⟨c, u, hx, hdram, hnvm⟩
  · exact hm
  · exact exec_okMem (by rwa [hdram, hnvm]) hx

end Sys2Proof.Machine

namespace Sys2Proof.Machine

open Sys2Proof

/-! ### The scrubber -/

/-- The device whose scrubber of channel `ch` stands at granule `g` of the window (R234). -/
def Dev.scrubTo (d : Dev) (ch g : Nat) : Dev := d.setChan ch fun c => { c with scrubPos := g }

section
variable {d : Dev} {ch : Nat}

theorem Dev.dimm_scrubTo (g j i : Nat) : ((d.scrubTo ch g).chan j).dimm i = (d.chan j).dimm i := by
  rw [Dev.scrubTo, Dev.chan_setChan]
  split
  next h => rw [h]; rfl
  next => rfl

/-- Where a frame lies depends on the modules (R198), not on the scrubber. -/
theorem Dev.place_scrubTo (g frame : Nat) : (d.scrubTo ch g).place frame = d.place frame := by
  simp only [Dev.place, Dev.dimm_scrubTo]
  rfl

theorem Dev.rank_scrubTo (g j k : Nat) : (d.scrubTo ch g).rank j k = d.rank j k := Dev.rank_setChan fun _ => rfl

theorem Dev.readGran_scrubTo (g pg : Nat) (err : List (Nat × Nat)) : (d.scrubTo ch g).readGran pg err = d.readGran pg err := by
  simp only [Dev.readGran, Dev.place_scrubTo, Dev.rank_scrubTo]
  rfl

/-- Of two positions the later stands, where the channel's record is listed. -/
theorem Dev.scrubTo_scrubTo {g k : Nat} (hat : (d.chan ch).scrubAt ≠ 0) : (d.scrubTo ch g).scrubTo ch k = d.scrubTo ch k :=
  Dev.setChan_setChan fun h => hat (congrArg Chan.scrubAt h :)

/-- A scrub read that finds its granule clean moves the position on, and does nothing else (R234). -/
theorem Dev.scrubOne_clean {g : Nat} {p : Place} {errs : List (Nat × List (Nat × Byte))} (hat : (d.chan ch).scrubAt ≠ 0)
    (hn : d.nextScrub ch (d.chan ch).scrubPos = some (g, false)) (hp : d.place (chGran ch g / 32) = some p)
    (hs : (d.rank ch p.r).scrub = 2) (hr : d.readGran (chGran ch g) [] = .clean) (herrs : ∀ x ∈ errs, x.1 ≠ g) :
    d.scrubOne ch errs = d.scrubTo ch (granOf (g + 1)) := by
  have hfind : errs.find? (fun x => x.1 == g) = none := by simpa using herrs
  have hgran : d.scrubOne ch errs = (d.scrubTo ch g).scrubGran ch g errs := by rw [Dev.scrubOne, hn]; rfl
  have hread : d.scrubOne ch errs = ((d.scrubTo ch g).scrubTo ch (granOf (g + 1))).readReturn (chGran ch g) .scrub [] := by
    rw [hgran, Dev.scrubGran, Dev.place_scrubTo, hp]
    dsimp only
    rw [Dev.rank_scrubTo, if_pos hs, hfind]
    rfl
  rw [hread, Dev.scrubTo_scrubTo hat]
  exact Dev.readReturn_clean ((Dev.readGran_scrubTo _ _ _).trans hr) _

/-- A channel that sleeps, or whose scrubber has had its turn of this stroke, scrubs nothing (R234). -/
theorem Dev.scrubRead_not_due {n : Nat} {errs : List (Nat × List (Nat × Byte))}
    (h : (d.chan ch).selfRef = true ∨ (d.chan ch).scrubAt = d.time.loc + 1) : d.scrubRead ch n errs = d := by
  refine if_neg ?_
  rintro ⟨-, hself, hat⟩
  rcases h with h | h
  · simp [h] at hself
  · exact hat h

/-- The turn of this stroke is the walk alone, where no rewrite is queued after it (R228, R234). -/
theorem Dev.scrubRead_walk {n : Nat} {errs : List (Nat × List (Nat × Byte))} {e w : Dev} (hch : ch < d.nChans)
    (hself : (d.chan ch).selfRef = false) (hat : (d.chan ch).scrubAt ≠ d.time.loc + 1)
    (he : e = d.setChan ch fun c => { c with scrubAt := d.time.loc + 1 })
    (hw : forAll e (List.range (min n (d.fld (chBase ch + 0x100) 31 28))) (fun a _ => a.scrubOne ch errs) = w)
    (hrw : (w.chan ch).rewrite = []) : d.scrubRead ch n errs = w := by
  have hserve : w.serveRewrite ch errs = w := by rw [Dev.serveRewrite, hrw]
  subst he
  rw [Dev.scrubRead, if_pos ⟨hch, by simp [hself], hat⟩]
  exact (congrArg (fun a => forAll a [0, 1] fun a _ => a.serveRewrite ch errs) hw).trans (forAll_eq_self fun _ _ => hserve)

end

/-! ### Soft repair -/

/-- What a device has sent stays sent. -/
theorem Dev.Sent.mono {a b c : Dev} {o : Out} (h : a.Sent b o) (g : b.out <+: c.out) : a.Sent c o := by
  obtain ⟨x, y, hb⟩ := h
  obtain ⟨z, hc⟩ := g
  exact ⟨x, y ++ z, by rw [← hc, hb]; simp⟩

theorem Dev.mgrRecord_raised (d : Dev) (l : LogId) (k : RecKind) (dt : List Nat) : d.Raised (d.mgrRecord l k dt) :=
  d.record_raised _ l k _ _ _ dt

/-- A row written to the ledger touches nothing else, but for the event of a full table (R403). -/
theorem Dev.recordRepair_raised (d : Dev) (x : Repair) : d.Raised (d.recordRepair x) := by
  unfold Dev.recordRepair
  extract_lets l
  split
  · exact ⟨rfl, fun _ h => h, List.prefix_rfl⟩
  · split
    · exact ⟨rfl, fun _ h => h, List.prefix_rfl⟩
    · exact Dev.raise_raised _ _ _ _

/-- Frames freed change the frame table and their tiles' sumps, no channel, and raise and send nothing (R113). -/
theorem Dev.freeFrames_frame (d : Dev) (fs : List Nat) :
    (forAll d fs fun d f => d.freeFrame f).chans = d.chans ∧ (forAll d fs fun d f => d.freeFrame f).out = d.out := by
  refine forAll_rel (R := fun a b => b.chans = a.chans ∧ b.out = a.out) (fun _ => ⟨rfl, rfl⟩)
    (fun _ _ _ h g => ⟨g.1.trans h.1, g.2.trans h.2⟩) (fun a f => ?_) d fs
  unfold Dev.freeFrame
  split
  · exact ⟨rfl, rfl⟩
  · extract_lets b k
    split <;> exact ⟨rfl, rfl⟩

/-- The record of a channel once the repair of row `x` has been tried on the device, bank group and rank of `key` (R232). -/
def Chan.repairTried (c : Chan) (x : RepairRow) (key : Nat × Nat × Nat) : Chan :=
  { (c.closeRank x.r) with
    repair := c.repair.erase x, pprUsed := if c.pprUsed.contains key then c.pprUsed else c.pprUsed ++ [key] }

/-- The record of a channel once a repair in the row of granule `gran` has passed (R232). -/
def Chan.repairPassed (c : Chan) (ch gran : Nat) : Chan :=
  { c with pprDone := satInc 255 c.pprDone, eat := c.eat.filter fun e => !(e.remap && chGran ch e.gran / 128 == gran / 128) }

/-- The device once the repair of row `x` has been tried: the refresh that its rank owes is paid first (R219, R232). -/
def Dev.tryRepair (d : Dev) (ch : Nat) (x : RepairRow) (key : Nat × Nat × Nat) : Dev :=
  ((d.payRefresh ch x.r).setChan ch fun c => c.repairTried x key).emit (.dram ch x.r 6)

/-- The record of a rank that has paid what it owed, down to less than 1 (R219, R232). -/
def Rank.paid (x : Rank) : Rank := { x with debt := x.debt % 65536 }

theorem Chan.mem_repairTried (c : Chan) (x : RepairRow) (key : Nat × Nat × Nat) : key ∈ (c.repairTried x key).pprUsed := by
  unfold Chan.repairTried
  dsimp only
  split
  next h => exact List.contains_iff_mem.mp h
  next => exact List.mem_append_right _ List.mem_cons_self

/-- Of the record after a repair is tried: the row is no longer queued, its key is used, and its rank owes less than 1 (R232). -/
theorem Chan.repairTried_fields {c e : Chan} {x : RepairRow} {key : Nat × Nat × Nat}
    (he : e = (c.setRank x.r Rank.paid).repairTried x key) :
    e.pprDone = c.pprDone ∧ e.pprFailed = c.pprFailed ∧ e.repair = c.repair.erase x ∧ key ∈ e.pprUsed ∧
      e.rank x.r = (c.rank x.r).paid := by
  have hused : key ∈ e.pprUsed := he ▸ Chan.mem_repairTried _ x key
  have hranks : e.ranks = (c.setRank x.r Rank.paid).ranks := by simp only [he, Chan.repairTried, Chan.closeRank]
  have hrank : e.rank x.r = (c.rank x.r).paid := by
    rw [Chan.rank, hranks, ← Chan.rank, Chan.rank_setRank_same]
  simp only [hused, hrank, and_true]
  simp only [he, Chan.repairTried, Chan.closeRank, Chan.setRank, true_and]

/-- Paying what a rank owes sends its refreshes and leaves less than 1 owed (R219, R232). -/
theorem Dev.payRefresh_frame (d : Dev) (ch r : Nat) :
    (d.payRefresh ch r).chan ch = (d.chan ch).setRank r Rank.paid ∧ d.out <+: (d.payRefresh ch r).out := by
  unfold Dev.payRefresh
  have hraised : d.Raised (forAll d (List.range ((d.rank ch r).debt / 65536)) fun d _ => d.emit (.dram ch r 1)) :=
    .forAll (fun a _ => a.emit_raised _) d _
  refine ⟨?_, hraised.out⟩
  rw [Dev.setRank, Dev.chan_setChan_same, hraised.chan]
  rfl

section
variable {d : Dev} {ch : Nat} {x : RepairRow}

/-- The channel's record after a repair is tried, and the command sent (R232). -/
theorem Dev.tryRepair_frame (key : Nat × Nat × Nat) :
    (d.tryRepair ch x key).chan ch = ((d.chan ch).setRank x.r Rank.paid).repairTried x key ∧
      d.Sent (d.tryRepair ch x key) (.dram ch x.r 6) := by
  obtain ⟨hchan, y, hout⟩ := d.payRefresh_frame ch x.r
  refine ⟨?_, y ++ (Out.dram ch x.r 6).announced, [], ?_⟩
  · rw [Dev.tryRepair, Dev.emit_chan, Dev.chan_setChan_same, hchan]
  · rw [← List.append_assoc, hout]
    rfl

theorem Dev.softPpr_none (h : d.pprRow ch = none) (b : Bool) : d.softPpr ch b = d := by
  simp only [Dev.softPpr, h, ite_self]

variable {p : Place} {a : DramAddr} {m : Dimm} (hch : ch < d.nChans) (hx : d.pprRow ch = some x) (hp : d.granPlace x.gran = some (p, a))
  (hm : (d.chan ch).dimm (x.r / 4) = some m)
include hch hx hp hm

/-- A repair that passes frees the frames of its row and raises EV134 (R232, R233). -/
theorem Dev.softPpr_passes (hu : (d.chan ch).pprUsed.contains (x.r, x.dev, a.bg) = false) :
    ((forAll ((d.tryRepair ch x (x.r, x.dev, a.bg)).setChan ch fun c => c.repairPassed ch x.gran) (rowFrames x.gran)
      fun d f => d.freeFrame f).raise 134 (chanSlice ch)).Raised (d.softPpr ch true) := by
  simp only [Dev.softPpr, if_pos hch, hx, hp, hm, hu, Bool.not_false, Bool.and_true, if_true]
  exact (Dev.mgrRecord_raised _ _ _ _).trans (Dev.recordRepair_raised _ _)

/-- A repair that fails is counted, and raises EV135 (R232, R233). -/
theorem Dev.softPpr_fails : (((d.tryRepair ch x (x.r, x.dev, a.bg)).setChan ch fun c =>
    { c with pprFailed := satInc 255 c.pprFailed }).raise 135 (chanSlice ch)).Raised (d.softPpr ch false) := by
  simp only [Dev.softPpr, if_pos hch, hx, hp, hm, Bool.false_and, Bool.false_eq_true, if_false]
  exact (Dev.mgrRecord_raised _ _ _ _).trans (Dev.recordRepair_raised _ _)

/-- What a passing repair leaves: EV134, the channel's record, and the command sent. -/
theorem Dev.softPpr_done {e : Dev} (hu : (d.chan ch).pprUsed.contains (x.r, x.dev, a.bg) = false) (he : e = d.softPpr ch true) :
    e.Pending 134 ∧ (e.chan ch).pprDone = satInc 255 (d.chan ch).pprDone ∧ (e.chan ch).repair = (d.chan ch).repair.erase x ∧
      (x.r, x.dev, a.bg) ∈ (e.chan ch).pprUsed ∧ d.Sent e (.dram ch x.r 6) := by
  have hraised := Dev.softPpr_passes hch hx hp hm hu
  rw [← he] at hraised
  obtain ⟨hchan, hsent⟩ := d.tryRepair_frame (ch := ch) (x := x) (x.r, x.dev, a.bg)
  obtain ⟨hdone, -, hrepair, hused, -⟩ := Chan.repairTried_fields hchan
  obtain ⟨hchans, hout⟩ := Dev.freeFrames_frame ((d.tryRepair ch x (x.r, x.dev, a.bg)).setChan ch fun c => c.repairPassed ch x.gran)
    (rowFrames x.gran)
  have hall := (Dev.raise_raised _ 134 (chanSlice ch) 0).trans hraised
  have hpassed : e.chan ch = ((d.tryRepair ch x (x.r, x.dev, a.bg)).chan ch).repairPassed ch x.gran := by
    rw [hall.chan, Dev.chan, hchans, ← Dev.chan, Dev.chan_setChan_same]
  simp only [hpassed, Chan.repairPassed, hdone, true_and]
  exact ⟨hraised.pend 134 (Dev.raise_pending _ 134 _ _ (by decide)), hrepair, hused,
    hsent.mono (hout ▸ hall.out)⟩

/-- What a failing repair leaves: EV135, the channel's record, and the rank's debt. -/
theorem Dev.softPpr_failed {e : Dev} (he : e = d.softPpr ch false) : e.Pending 135 ∧
    (e.chan ch).pprFailed = satInc 255 (d.chan ch).pprFailed ∧ (e.chan ch).repair = (d.chan ch).repair.erase x ∧
      e.rank ch x.r = (d.rank ch x.r).paid := by
  have hraised := Dev.softPpr_fails hch hx hp hm
  rw [← he] at hraised
  obtain ⟨hchan, -⟩ := d.tryRepair_frame (ch := ch) (x := x) (x.r, x.dev, a.bg)
  obtain ⟨-, hfailed, hrepair, -, hrank⟩ := Chan.repairTried_fields hchan
  have hnow : e.chan ch = { (d.tryRepair ch x (x.r, x.dev, a.bg)).chan ch with
      pprFailed := satInc 255 ((d.tryRepair ch x (x.r, x.dev, a.bg)).chan ch).pprFailed } := by
    rw [((Dev.raise_raised _ 135 (chanSlice ch) 0).trans hraised).chan, Dev.chan_setChan_same]
  simp only [Dev.rank, hnow, hfailed, true_and]
  exact ⟨hraised.pend 135 (Dev.raise_pending _ 135 _ _ (by decide)), hrepair, hrank⟩

end

/-! ### Retirement -/

section
variable {d : Dev} {ch r : Nat}

/-- The record of a rank once it is reported empty (R245). -/
def Rank.emptied (x : Rank) : Rank := { x with st := .empty, trigger := 0, m := 0, mNew := none }

/-- The device once rank `r` is empty and its tile walks it no more (R245). -/
def Dev.emptyRank (d : Dev) (ch r : Nat) : Dev :=
  (d.setRank ch r Rank.emptied).setTile (ch / 8) fun t => { t with evacs := t.evacs.filter (· != { ch := ch, r := r }) }

theorem Dev.rankEmpty_holds (h : d.rankHolds ch r = true) : d.rankEmpty ch r = d := if_neg (by simp [h])

/-- The end of a background command leaves the channels, the tiles and the events as they were (R31). -/
theorem Dev.finishBg_frame (b : Bg) (x : Ret) (ext : Nat) (out : List Byte) : (d.finishBg b x ext out).chans = d.chans ∧
    (d.finishBg b x ext out).tiles = d.tiles ∧ (d.finishBg b x ext out).ev = d.ev := by
  unfold Dev.finishBg
  extract_lets c gone
  split
  · exact ⟨rfl, rfl, rfl⟩
  · split
    · exact ⟨rfl, rfl, rfl⟩
    · simp [gone]

theorem Dev.Raised.retireBg {e : Dev} (h : d.Raised e) (ch r : Nat) : e.retireBg ch r = d.retireBg ch r :=
  (congrArg (·.retireBg ch r) h.bare :)

theorem Dev.emptyRank_retireBg (d : Dev) (ch r : Nat) : (d.emptyRank ch r).retireBg ch r = d.retireBg ch r := rfl

/-- A rank found empty is reported, and the command that retired it ends (R245, R249). -/
theorem Dev.rankEmpty_reports (hch : ch < d.nChans) (hst : (d.rank ch r).st = .retired) (hh : d.rankHolds ch r = false) :
    ∃ a, ((d.emptyRank ch r).raise 138 (chanSlice ch)).Raised a ∧
      d.rankEmpty ch r = (d.retireBg ch r).elim a fun b => a.finishBg b .success 0 (d.rank ch r).retireOut := by
  have hraised := Dev.mgrRecord_raised ((d.emptyRank ch r).raise 138 (chanSlice ch)) .info .memoryModule [ch, r]
  have hbg : (((d.emptyRank ch r).raise 138 (chanSlice ch)).mgrRecord .info .memoryModule [ch, r]).retireBg ch r =
      (d.emptyRank ch r).retireBg ch r := ((Dev.raise_raised _ _ _ _).trans hraised).retireBg ch r
  refine ⟨_, hraised, ?_⟩
  rw [← d.emptyRank_retireBg ch r, ← hbg]
  refine (if_pos ⟨hch, hst, by simp [hh]⟩).trans ?_
  dsimp only
  split
  next h => exact h ▸ rfl
  next b h => exact h ▸ rfl

/-- What the report of an empty rank leaves (R245, R249). -/
theorem Dev.rankEmpty_frame {e : Dev} (hch : ch < d.nChans) (hst : (d.rank ch r).st = .retired) (hh : d.rankHolds ch r = false)
    (he : e = d.rankEmpty ch r) : e.Pending 138 ∧ e.rank ch r = (d.rank ch r).emptied ∧
      (e.tile (ch / 8)).evacs = (d.tile (ch / 8)).evacs.filter (· != { ch := ch, r := r }) := by
  obtain ⟨a, hraised, ha⟩ := Dev.rankEmpty_reports hch hst hh
  obtain ⟨hchans, htiles, hev⟩ : e.chans = a.chans ∧ e.tiles = a.tiles ∧ e.ev = a.ev := by
    rw [he, ha]
    cases d.retireBg ch r with
    | none => exact ⟨rfl, rfl, rfl⟩
    | some b => exact Dev.finishBg_frame b _ _ _
  have hall := (Dev.raise_raised _ 138 (chanSlice ch) 0).trans hraised
  have htile : a.tile (ch / 8) = (d.emptyRank ch r).tile (ch / 8) := (congrArg (·.tile (ch / 8)) hall.bare :)
  refine ⟨?_, ?_, ?_⟩
  · rw [Dev.Pending, hev]
    exact hraised.pend 138 (Dev.raise_pending _ 138 _ _ (by decide))
  · calc e.rank ch r = a.rank ch r := by rw [Dev.rank, Dev.chan, hchans]; rfl
      _ = (d.emptyRank ch r).rank ch r := hall.rank ch r
      _ = (d.rank ch r).emptied := d.rank_setRank_same ch r _
  · rw [Dev.tile, htiles, ← Dev.tile, htile, Dev.emptyRank, Dev.tile_setTile, if_pos rfl]
    rfl

theorem Rank.length_retireOut (x : Rank) : x.retireOut.length = 16 := by simp [Rank.retireOut]

/-- The command that retired the rank is answered, while the cores are there (R31, R249). -/
theorem Dev.rankEmpty_answers {b : Bg} (hch : ch < d.nChans) (hst : (d.rank ch r).st = .retired) (hh : d.rankHolds ch r = false)
    (hb : d.retireBg ch r = some b) (ha : b.abandoned = false) (hm : b.mute = false) (hc : d.coresGone = false) :
    d.Sent (d.rankEmpty ch r) (.cci b.src .success 0 (d.rank ch r).retireOut) := by
  obtain ⟨a, hraised, he⟩ := Dev.rankEmpty_reports hch hst hh
  have hall := (Dev.raise_raised _ 138 (chanSlice ch) 0).trans hraised
  have hgone : a.coresGone = false := hall.coresGone.trans hc
  obtain ⟨x, hout⟩ : d.out <+: a.out := hall.out
  have hlen : (d.rank ch r).retireOut.length ≤ 4096 := by
    rw [Rank.length_retireOut]
    omega
  rw [he, hb, Option.elim_some, Dev.finishBg_answered ha hm hgone]
  obtain ⟨y, z, hsent⟩ := Dev.reply_sent { a with
    cfg := { a.cfg with bg := a.cfg.bg.filter (· != b), lateAborts := a.cfg.lateAborts ++ b.aborts } } b.src .success 0 hlen
  exact ⟨x ++ y, z, by rw [hsent, ← hout]; simp⟩

end

/-- Settles O56: a turn of the scrubber is its walk where no rewrite waits, a repair is its record and its event, and each of the others is
one conditional. -/
theorem dramScrubRepairAndRetirement : Obligations.DramScrubRepairAndRetirement := by
  refine ⟨?scrub, fun s ch b h => .of_done rfl (Dev.softPpr_none h b), ?repair,
    fun s ch r hch hr => .of_done rfl (if_pos ⟨hch, hr⟩), ?walk, ?empty⟩
  case scrub =>
    intro s ch n errs
    refine ⟨fun h => .of_done rfl (Dev.scrubRead_not_due h), fun hch hself hat hz hrw => .of_done rfl ?_,
      fun d g p hch hself hat hone hrw hd hn hp hs hr herrs => .of_done rfl ?_⟩
    · have hmin : min n (s.dev.fld (chBase ch + 0x100) 31 28) = 0 := by omega
      refine Dev.scrubRead_walk hch hself hat rfl (by rw [hmin]; rfl) ?_
      rwa [Dev.chan_setChan_same]
    · have hnow : d.chan ch = { s.dev.chan ch with scrubAt := s.dev.time.loc + 1 } := by rw [hd, Dev.chan_setChan_same]
      have hlisted : (d.chan ch).scrubAt ≠ 0 := by simp [hnow]
      refine Dev.scrubRead_walk hch hself hat hd (by rw [hone]; exact Dev.scrubOne_clean hlisted hn hp hs hr herrs) ?_
      rw [Dev.chan_setChan_same, hnow]
      exact hrw
  case repair =>
    intro s ch x p a m hch hx hp hm
    refine ⟨fun hu => .of_done rfl (Dev.softPpr_done hch hx hp hm hu rfl), .of_done rfl ?_⟩
    obtain ⟨hpend, hfailed, hrepair, hrank⟩ := Dev.softPpr_failed hch hx hp hm rfl
    exact ⟨hpend, hfailed, hrepair, congrArg Rank.debt hrank⟩
  case walk =>
    intro s k
    refine ⟨fun h => .of_done rfl ?_, fun e hk he => .of_done rfl ?_, fun hk hb ht => .of_done rfl (if_pos ⟨hk, hb, ht⟩),
      fun h => .of_done rfl (if_neg ?_)⟩
    · unfold Dev.evacuationWalk
      split
      next hk => rw [h.resolve_right (by omega)]; rfl
      next => rfl
    · rw [Dev.evacuationWalk, if_pos hk, he]
      rfl
    · rintro ⟨-, hb, ht⟩
      rcases h with h | h
      · simp [h] at hb
      · exact h ht
  case empty =>
    intro s ch r hch hst
    refine ⟨fun h => .of_done rfl (Dev.rankEmpty_holds h), fun h => .of_done rfl ?_⟩
    obtain ⟨hpend, hrank, hevacs⟩ := Dev.rankEmpty_frame hch hst h rfl
    rw [hrank, hevacs]
    exact ⟨hpend, rfl, rfl, by simp, fun b hb ha hm hc => Dev.rankEmpty_answers hch hst h hb ha hm hc⟩

end Sys2Proof.Machine

namespace Sys2Proof.Machine

open Sys2Proof

/-! ### Training of a cascade port -/

section
variable {d : Dev} {p : Nat}

theorem Dev.cascadeTrainingStart_starts (hp : p < d.nHosts) (hprim : d.prim = .primed) (hheld : d.sup.held.contains (2 + p / 4) = false)
    (hen : bit (d.portReg p).toNat 31 = true) (hst : (d.port p).st = .down) (hat : (d.port p).stepAt ≤ d.time.loc) :
    d.cascadeTrainingStart p = d.trainFrom1 p :=
  if_pos ⟨hp, hprim, by rw [hheld]; rfl, hen, .inl ⟨hst, hat⟩⟩

theorem Dev.cascadeTrainingStart_waits
    (h : bit (d.portReg p).toNat 31 = false ∨ ((d.port p).st = .down ∧ d.time.loc < (d.port p).stepAt)) : d.cascadeTrainingStart p = d := by
  refine if_neg ?_
  rintro ⟨-, -, -, hen, hgo⟩
  rcases h with h | ⟨hst, hat⟩
  · exact absurd hen (by simp [h])
  · rcases hgo with ⟨-, ht⟩ | ⟨hrefused, -⟩
    · omega
    · exact absurd hst (by simp [hrefused])

variable (hp : p < d.nHosts) (hl : (d.port p).live = true)

section
include hp hl

/-- Alignment ends steps 1 and 2 of a training (R252). -/
theorem Dev.pairAlignmentAcquired_training (hst : (d.port p).st = .training) (hstep : (d.port p).step ≤ 2) :
    d.pairAlignmentAcquired p = (d.setPort p fun c => { c with
      aligned := true, step := 3, stepAt := d.time.loc, txSeq := 0, rxNext := 0, sent := [] }).sendHello p := by
  have hlive : ({ d.port p with aligned := true } : CPort).live = true := hl
  unfold Dev.pairAlignmentAcquired
  rw [if_neg (by simp [hp, hl])]
  dsimp only
  rw [if_pos ⟨hst, hstep⟩, Dev.setPort_setPort_of_live hlive]
  rfl

theorem Dev.pairAlignmentAcquired_up (hst : (d.port p).st = .up) :
    d.pairAlignmentAcquired p = d.setPort p fun c => { c with aligned := true } := by
  unfold Dev.pairAlignmentAcquired
  rw [if_neg (by simp [hp, hl])]
  exact if_neg (by simp [hst])

/-- A Hello in step 3 is kept with its sender, and checked against the configuration in force (R254). -/
theorem Dev.hello_checked (h : Hello) (hst : (d.port p).st = .training) (hstep : (d.port p).step = 3) : d.hello p h =
    if d.neighbourOk p h then d.setPort p fun c => { c with
      hello := some h, neighbour := h.dev, st := .keying, step := 4, stepAt := d.time.loc, secSt := 1, credits := h.credits.map (8 * ·) }
    else (d.setPort p fun c => { c with hello := some h, neighbour := h.dev, st := .refused }).raise 158 (portSlice p) := by
  have hlive : ({ d.port p with hello := some h, neighbour := h.dev } : CPort).live = true := hl
  have hcfg : (d.setPort p fun c => { c with hello := some h, neighbour := h.dev }).portCfg p = d.portCfg p := by
    simp only [Dev.portCfg, Dev.port_setPort_same]
    rfl
  have hok : (d.setPort p fun c => { c with hello := some h, neighbour := h.dev }).neighbourOk p h = d.neighbourOk p h := by
    simp only [Dev.neighbourOk, hcfg]
    rfl
  unfold Dev.hello
  rw [if_neg (by simp [hp, hl])]
  dsimp only
  rw [if_neg (by simp [hst]), if_pos ⟨hst, hstep⟩, hok, Dev.setPort_setPort_of_live hlive, Dev.setPort_setPort_of_live hlive]
  rfl

end

include hp

theorem Dev.pairAlignmentLost_aligned (ha : (d.port p).aligned = true) :
    d.pairAlignmentLost p = d.setPort p fun c => { c with aligned := false, lostAt := d.time.loc } := if_pos ⟨hp, ha⟩

end

/-! ### A link that comes Up -/

section
variable {d e : Dev} {p : Nat} {f : CPort → CPort}

/-- With nothing kept on a live port there is nothing to flush, whatever events its change has raised. -/
theorem Dev.Raised.flushPort_eq (h : (d.setPort p f).Raised e) (hl : (f (d.port p)).live = true) (hk : (f (d.port p)).kept = []) :
    e.flushPort p = e := by
  have hport : e.port p = f (d.port p) := (h.port p).trans (d.port_setPort_same p f)
  have hcas : e.cas = (d.setPort p f).cas := (congrArg Dev.cas h.bare :)
  have hid : (e.setPort p fun c => c).cas = e.cas := by
    have htwice := congrArg Dev.cas (Dev.setPort_setPort_of_live (g := fun c => c) hl)
    simp only [Dev.setPort, hcas] at htwice ⊢
    exact htwice
  rw [Dev.flushPort_none (by rw [hport]; exact hk)]
  exact congrArg (fun c => { e with cas := c }) hid

/-- The record of a port whose link comes Up at stroke `now` (R253, R255). -/
def CPort.comeUp (c : CPort) (rate width lanes now : Nat) : CPort :=
  { c with st := .up, step := 5, rate := rate, width := width, lanes := lanes, upAt := now
           degraded := c.degraded || (decide (rate < 2) || decide (width < 3)) }

theorem Dev.cascadeLinkUp_comesUp {rate width lanes : Nat} (hp : p < d.nHosts) (hst : (d.port p).st = .keying) (hsec : (d.port p).secSt = 2)
    (hr : 1 ≤ rate) (hr' : rate ≤ bits (d.portCfg p).toNat 23 22) (hw : 1 ≤ width) (hw' : width ≤ bits (d.portCfg p).toNat 25 24)
    (hlanes : lanes * 2 ^ (width + 1) < 16) (hk : (d.port p).kept = []) :
    (d.setPort p fun c => c.comeUp rate width lanes d.time.loc).Raised (d.cascadeLinkUp p rate width lanes) ∧
    (d.cascadeLinkUp p rate width lanes).Pending 150 ∧ (rate < 2 ∨ width < 3 → (d.cascadeLinkUp p rate width lanes).Pending 152) := by
  unfold Dev.cascadeLinkUp
  rw [if_pos ⟨hp, hst, hsec, hr, hr', hw, hw', hlanes⟩]
  extract_lets low d1 d2 d3
  have h2 : d1.Raised d2 := d1.raise_raised 150 _ _
  have h2' : d2.Pending 150 := d1.raise_pending 150 _ _ (by decide)
  have h3 : d2.Raised d3 ∧ (rate < 2 ∨ width < 3 → d3.Pending 152) := by
    cases hlow : low with
    | true =>
      rw [show d3 = d2.raise 152 (portSlice p) from if_pos hlow]
      exact ⟨d2.raise_raised 152 _ _, fun _ => d2.raise_pending 152 _ _ (by decide)⟩
    | false =>
      rw [show d3 = d2 from if_neg (by simp [hlow])]
      refine ⟨.refl d2, fun h => absurd hlow ?_⟩
      simpa [low, Nat.lt_succ_iff, imp_iff_not_or] using h
  have hflush : d3.flushPort p = d3 := Dev.Raised.flushPort_eq (h2.trans h3.1) rfl hk
  rw [hflush]
  exact ⟨h2.trans h3.1, h3.1.pend 150 h2', h3.2⟩

end

/-! ### A link that goes down -/

section
variable {d : Dev} {p : Nat}

theorem Dev.failRoutes_sec (d : Dev) (p : Nat) : (d.failRoutes p).sec = d.sec :=
  forAll_rel (R := fun a b => b.sec = a.sec) (f := fun d n => d.setRoute n fun r => { r with switchDue := true })
    (fun _ => rfl) (fun _ _ _ h g => g.trans h) (fun _ _ => rfl) d _

theorem Dev.linkDown_sec (d : Dev) (p : Nat) : (d.linkDown p).sec =
    { d.sec with sessions := d.sec.sessions.filter fun x => x.sess.tr != .link p } :=
  (congrArg Dev.sec (Dev.raise_bare _ 151 _ _) :).trans (Dev.failRoutes_sec _ p)

theorem Dev.linkDown_sessions (d : Dev) (p : Nat) : ∀ x ∈ (d.linkDown p).sec.sessions, x.sess.tr ≠ .link p := by
  intro x hx
  rw [Dev.linkDown_sec] at hx
  simpa using (List.mem_filter.mp hx).2

theorem Dev.linkFail_port (d : Dev) (p wait : Nat) : (d.linkFail p wait).port p = { (d.port p).drop with stepAt := d.time.loc + wait } :=
  Dev.port_setPort_same _ p _

theorem Dev.linkFail_sessions (d : Dev) (p wait : Nat) : ∀ x ∈ (d.linkFail p wait).sec.sessions, x.sess.tr ≠ .link p := by
  intro x hx
  simpa using (List.mem_filter.mp hx).2

theorem Dev.cascadeTrainingStepTimeout_due (hp : p < d.nHosts) (hst : (d.port p).st = .training)
    (ht : (d.port p).stepAt + (if (d.port p).step = 3 then 1000 else 25000) ≤ d.time.loc) :
    d.cascadeTrainingStepTimeout p = d.linkFail p 10000 := by
  simp [Dev.cascadeTrainingStepTimeout, hp, hst, ht]

theorem Dev.cascadeTrainingStepTimeout_early (hst : (d.port p).st = .training)
    (ht : d.time.loc < (d.port p).stepAt + (if (d.port p).step = 3 then 1000 else 25000)) : d.cascadeTrainingStepTimeout p = d := by
  simp [Dev.cascadeTrainingStepTimeout, hst, Nat.not_le.mpr ht]

section
variable (hp : p < d.nHosts) (hst : (d.port p).st = .up)
include hp hst

theorem Dev.alignmentLossTimeout_due (ha : (d.port p).aligned = false) (ht : (d.port p).lostAt + 1 ≤ d.time.loc) :
    d.alignmentLossTimeout p = d.linkDown p :=
  (if_pos ⟨hp, .inl hst, by simp [ha], ht⟩).trans (Dev.linkEnds_up hst)

theorem Dev.lossOfSignal_up : d.lossOfSignal p = d.linkDown p := by
  simp [Dev.lossOfSignal, hp, hst, Dev.linkEnds_up]

end

theorem Dev.alignmentLossTimeout_holds (h : (d.port p).aligned = true ∨ d.time.loc < (d.port p).lostAt + 1) : d.alignmentLossTimeout p = d := by
  refine if_neg ?_
  rintro ⟨-, -, ha, ht⟩
  rcases h with h | h
  · exact absurd ha (by simp [h])
  · omega

theorem Dev.adaptationRetrain_due (hu : d.portUp p = true) (hc : 16 ≤ (d.port p).corrRun) :
    d.adaptationRetrain p = (d.linkDown p).raise 163 (portSlice p) := if_pos ⟨hu, .inl hc⟩

theorem Dev.adaptationRetrain_clean (hc : (d.port p).corrRun < 16) (hu : (d.port p).uncorrAt = []) : d.adaptationRetrain p = d := by
  refine if_neg ?_
  rintro ⟨-, hrun | hrecent⟩
  · omega
  · simp [hu] at hrecent

/-- A link that was Up is Down, is counted, and keeps what no flit of it was acknowledged for (R266, R271). -/
theorem Dev.linkDown_port_of_up (hst : (d.port p).st = .up) : ((d.linkDown p).port p).st = .down ∧
    ((d.linkDown p).port p).downs = satInc 255 (d.port p).downs ∧
    ((d.linkDown p).port p).kept = (d.port p).unacked ++ (d.port p).kept.filter fun x => x.1 != 0x40 := by
  rw [Dev.linkDown_port, if_pos hst]
  exact ⟨rfl, rfl, rfl⟩

end

/-- Settles O48: each step of a training by its conditions, and each way down by what `linkDown` and `linkFail` leave. -/
theorem cascadeLinksTrain : Obligations.CascadeLinksTrain := by
  refine ⟨?start, ?align, ?up, ?timeout, ?down⟩
  case start =>
    exact fun s p hp hprim hheld => ⟨fun hen hst hat => .of_done rfl (Dev.cascadeTrainingStart_starts hp hprim hheld hen hst hat),
      fun h => .of_done rfl (Dev.cascadeTrainingStart_waits h)⟩
  case align =>
    refine fun s p hp hl => ⟨fun hst hstep => .of_done rfl (Dev.pairAlignmentAcquired_training hp hl hst hstep),
      fun hst => .of_done rfl (Dev.pairAlignmentAcquired_up hp hl hst), fun ha => .of_done rfl (Dev.pairAlignmentLost_aligned hp ha),
      fun h hst hstep => ?_⟩
    have hc := Dev.hello_checked hp hl h hst hstep
    exact ⟨fun hok => .of_done rfl (hc.trans (if_pos hok)),
      fun hok => .of_raise_on rfl (hc.trans (if_neg (by simp [hok]))) (by decide)⟩
  case up =>
    intro s p rate width lanes hp hst hsec hr hr' hw hw' hlanes hk
    obtain ⟨hraised, hev, hlow⟩ := Dev.cascadeLinkUp_comesUp hp hst hsec hr hr' hw hw' hlanes hk
    exact .of_done rfl ⟨hev, hlow, hraised.bare⟩
  case timeout =>
    rintro s p _ hp hst rfl
    refine ⟨fun ht => .of_done rfl (Dev.cascadeTrainingStepTimeout_early hst ht), fun ht => ?_⟩
    refine .of_done (congrArg s.done (Dev.cascadeTrainingStepTimeout_due hp hst ht)) ?_
    rw [Dev.linkFail_port]
    exact ⟨rfl, rfl, rfl, Dev.linkFail_sessions _ _ _⟩
  case down =>
    intro s p hp hst
    obtain ⟨hdown, hcount, hkept⟩ := Dev.linkDown_port_of_up hst
    refine ⟨fun ha ht => ?_, fun h => .of_done rfl (Dev.alignmentLossTimeout_holds h), ?_, fun hu hc => ?_,
      fun hc hu => .of_done rfl (Dev.adaptationRetrain_clean hc hu)⟩
    · exact .of_done (congrArg s.done (Dev.alignmentLossTimeout_due hp hst ha ht)) ⟨Dev.linkDown_pending _ _, hdown, hcount⟩
    · exact .of_done (congrArg s.done (Dev.lossOfSignal_up hp hst))
        ⟨Dev.linkDown_pending _ _, hdown, hcount, hkept, Dev.linkDown_sessions _ _⟩
    · have hraise := (s.dev.linkDown p).raise_raised 163 (portSlice p) 0
      refine .of_done (congrArg s.done (Dev.adaptationRetrain_due hu hc)) ⟨hraise.pend 151 (Dev.linkDown_pending _ _),
        Dev.raise_pending _ 163 _ _ (by decide), ?_⟩
      rw [hraise.port]
      exact hdown

end Sys2Proof.Machine

namespace Sys2Proof.Machine

open Sys2Proof

/-! ### What sending on a port leaves alone -/

section
variable {d : Dev} {p op : Nat} {m : Msg}

theorem Dev.Sent.of_emit {e : Dev} {o : Out} (h : (d.emit o).out <+: e.out) : d.Sent e o :=
  Dev.Sent.mono (Dev.Raised.sent (.refl _)) h

theorem Dev.sendOn_out (d : Dev) (p op : Nat) (m : Msg) : d.out <+: (d.sendOn p op m).out := by
  obtain ⟨c, o, h⟩ := d.sendOn_castOnly p op m
  rw [h]
  exact List.prefix_append _ _

theorem Dev.sendOn_routes (d : Dev) (p op : Nat) (m : Msg) : (d.sendOn p op m).cas.routes = d.cas.routes := by
  unfold Dev.sendOn
  extract_lets m' c d1
  split
  · rfl
  · split <;> rfl

/-- A message put out on a port, or kept there, leaves a link that does not sleep in its state, Draining or not (R266). -/
theorem Dev.sendOn_link (h : (d.port p).st ≠ .sleep) :
    ((d.sendOn p op m).port p).st = (d.port p).st ∧ ((d.sendOn p op m).port p).draining = (d.port p).draining := by
  unfold Dev.sendOn
  extract_lets m' c d1
  split
  · have hport : (d.putFlit p op m').port p = _ := d.port_setPort_same p _
    rw [hport]
    exact ⟨rfl, rfl⟩
  · rw [show d1.port p = _ from d.port_setPort_same p _]
    exact ⟨rfl, rfl⟩

theorem Dev.sendNotice_out (d : Dev) (p n : Nat) (b : Bool) : (d.emit (.notice p n b)).out <+: (d.sendNotice p n b).out :=
  Dev.sendOn_out _ _ _ _

theorem Dev.sendNotice_routes (d : Dev) (p n : Nat) (b : Bool) : (d.sendNotice p n b).cas.routes = d.cas.routes :=
  Dev.sendOn_routes _ _ _ _

end

/-! ### Routes that switch and return -/

section
variable {d : Dev} {p n t : Nat}

theorem Dev.setRoute_congr {f g : Route → Route} (h : f (d.route n) = g (d.route n)) : d.setRoute n f = d.setRoute n g := by
  simp only [Dev.setRoute, Tbl.upd]
  rw [show f (Tbl.get {} d.cas.routes n) = g (Tbl.get {} d.cas.routes n) from h]

theorem Dev.route_setRoute_same (d : Dev) (n : Nat) (f : Route → Route) : (d.setRoute n f).route n = f (d.route n) :=
  (d.route_setRoute n f n).trans (if_pos rfl)

section
variable (hu : d.portUp p = true) (hv : d.routeValid n = true) (hp : d.routePrimary n = p)
include hu hv hp

/-- A switch notice for a route that still uses PRIMARY (R272). -/
theorem Dev.routeNoticeSwitch_eq (ha : (d.route n).usingAlt = false) : d.routeNoticeSwitch p n =
    if (d.routeAlt n).any d.portUp then d.setRoute n fun r => { r with switchDue := true } else d.raise 156 (portSlice p) :=
  if_pos ⟨hu, hv, hp, by simp [ha]⟩

theorem Dev.routeNoticeRestore_returns (ha : (d.route n).usingAlt = true) (hb : (d.route n).byNotice = true) :
    d.routeNoticeRestore p n = d.startReturn n := if_pos ⟨hu, hv, hp, ha, hb⟩

end

theorem Dev.routeNoticeRestore_ignored (h : (d.route n).usingAlt = false ∨ (d.route n).byNotice = false) : d.routeNoticeRestore p n = d := by
  refine if_neg ?_
  rintro ⟨-, -, -, ha, hb⟩
  rcases h with h | h
  · exact absurd ha (by simp [h])
  · exact absurd hb (by simp [h])

/-- A route whose hold has ended; one that was due to return is back on PRIMARY (R274). -/
def Route.released (r : Route) : Route :=
  { r with holdUntil := none, returnDue := false, usingAlt := r.usingAlt && !r.returnDue, byNotice := r.byNotice && !r.returnDue }

/-- The Route Notice of a route that has returned goes out on its ALT (R274). -/
def Dev.noticeReturn (d : Dev) (n : Nat) : Dev := (d.routeAlt n).elim d fun a => d.sendNotice a n true

section
variable (hh : (d.route n).holdUntil = some t)
include hh

theorem Dev.foQuietExpiry_early (ht : d.time.loc < t) : d.foQuietExpiry n = d := by
  unfold Dev.foQuietExpiry
  simp only [hh, if_pos ht]

/-- A hold that ends with nothing held (R271 to R274). -/
theorem Dev.foQuietExpiry_ends (ht : t ≤ d.time.loc) (hheld : (d.route n).held = []) : d.foQuietExpiry n =
    if (d.route n).returnDue then ((d.setRoute n Route.released).noticeReturn n).raise 155 (tileSlice 1) else d.setRoute n Route.released := by
  have hset : (d.setRoute n fun r => { r with
      holdUntil := none, held := [], returnDue := false, usingAlt := r.usingAlt && !r.returnDue, byNotice := r.byNotice && !r.returnDue }) =
      d.setRoute n Route.released :=
    Dev.setRoute_congr (by rw [← hheld]; rfl)
  unfold Dev.foQuietExpiry
  simp only [hh, if_neg (Nat.not_lt.mpr ht), hheld, hset, Dev.noticeReturn]
  cases (d.setRoute n Route.released).routeAlt n <;> rfl

end

theorem Dev.noticeReturn_routes (d : Dev) (n : Nat) : (d.noticeReturn n).cas.routes = d.cas.routes := by
  unfold Dev.noticeReturn
  cases d.routeAlt n with
  | none => rfl
  | some a => exact d.sendNotice_routes a n true

theorem Dev.noticeReturn_sent {a : Nat} (ha : d.routeAlt n = some a) : d.Sent (d.noticeReturn n) (.notice a n true) := by
  rw [Dev.noticeReturn, ha]
  exact .of_emit (d.sendNotice_out a n true)

/-- A route is on its way back: it is held until stroke `t` (R272, R274). -/
def Route.Returning (r : Route) (t : Nat) : Prop := r.returnDue = true ∧ r.holdUntil = some t

theorem Dev.startReturn_returning {k : Nat} (h : k = n ∨ (d.route n).Returning (d.time.loc + d.foQuiet)) :
    ((d.startReturn k).route n).Returning (d.time.loc + d.foQuiet) := by
  rw [Dev.startReturn, Dev.route_setRoute]
  split
  · exact ⟨rfl, rfl⟩
  · next hne => exact h.resolve_left (Ne.symm hne)

/-- Every route that starts to return is held for FO_QUIET strokes, whatever others start with it. -/
theorem Dev.forAll_startReturn {ns : List Nat} (h : n ∈ ns ∨ (d.route n).Returning (d.time.loc + d.foQuiet)) :
    ((forAll d ns Dev.startReturn).route n).Returning (d.time.loc + d.foQuiet) := by
  induction ns generalizing d with
  | nil => exact h.resolve_left List.not_mem_nil
  | cons k ks ih =>
    refine ih (d := d.startReturn k) ?_
    rcases h with h | h
    · rcases List.mem_cons.mp h with rfl | hk
      · exact .inr (Dev.startReturn_returning (.inl rfl))
      · exact .inl hk
    · exact .inr (Dev.startReturn_returning (.inr h))

theorem Dev.failbackPort_early (h : d.time.loc < (d.port p).upAt + d.failback * 64) : d.failbackPort p = d :=
  if_neg fun hc => Nat.not_le.mpr h hc.2

/-- The routes over a port that has been Up for FAILBACK start to return (R274). -/
theorem Dev.failbackPort_returns (hu : d.portUp p = true) (h : (d.port p).upAt + d.failback * 64 ≤ d.time.loc) (hn : n ∈ d.members)
    (hp : d.routePrimary n = p) (ha : (d.route n).usingAlt = true) (hb : (d.route n).byNotice = false) (hr : (d.route n).returnDue = false) :
    ((d.failbackPort p).route n).Returning (d.time.loc + d.foQuiet) := by
  rw [Dev.failbackPort, if_pos ⟨hu, h⟩]
  refine Dev.forAll_startReturn (.inl (List.mem_filter.mpr ⟨hn, ?_⟩))
  simp [hp, ha, hb, hr]

end

/-! ### A link that goes to sleep -/

section
variable {d : Dev} {p src : Nat}

theorem Dev.port_st_of_portUp (h : d.portUp p = true) : (d.port p).st = .up := by
  simpa using (Bool.and_eq_true_iff.mp h).2

/-- Answering a Sleep Request leaves the link Up, and Draining where the answer accepts (R285). -/
theorem Dev.sleepAnswer_link (ok : Bool) (hu : (d.port p).st = .up) (hd : (d.port p).draining = false) :
    ((d.sleepAnswer p ok).port p).st = .up ∧ ((d.sleepAnswer p ok).port p).draining = ok := by
  have hawake : (d.port p).st ≠ .sleep := by simp [hu]
  have hlink : ∀ (o : Out) op a b, (((d.emit o).toNeighbour p op a b []).port p).st = .up ∧
      (((d.emit o).toNeighbour p op a b []).port p).draining = false := fun o op a b =>
    (Dev.sendOn_link (d := d.emit o) hawake).imp (·.trans hu) (·.trans hd)
  cases ok with
  | true =>
    have hport : (d.sleepAnswer p true).port p = _ := Dev.port_setPort_same _ p _
    rw [hport]
    exact ⟨(hlink _ _ _ _).1, rfl⟩
  | false => exact hlink _ _ _ _

theorem Dev.sleepAnswer_sent (d : Dev) (p : Nat) (ok : Bool) :
    d.Sent (d.sleepAnswer p ok) (.sleepReply p ok (if ok then 0 else portSlice p)) := by
  have hsend := Dev.sendOn_out (d.emit (.sleepReply p ok (if ok then 0 else portSlice p))) p
  cases ok <;> exact .of_emit (hsend _ _)

theorem Dev.sleepRequest_answered (hu : d.portUp p = true) (hd : (d.port p).draining = false) (ha : (d.port p).sleepAsked = false) :
    d.sleepRequest p src = d.sleepAnswer p ((d.port p).sleepOrdered && (d.port p).kept.isEmpty) := by
  simp [Dev.sleepRequest, hu, hd, ha]

/-- Of two requests at once the lower device's stands (R285). -/
theorem Dev.sleepRequest_lower (ha : (d.port p).sleepAsked = true) (hs : d.devId < src) : d.sleepRequest p src = d := by
  simp [Dev.sleepRequest, ha, hs]

section
variable (hu : d.portUp p = true) (ha : (d.port p).sleepAsked = true)
include hu ha

theorem Dev.sleepReply_accepted (sl : Nat) :
    d.sleepReply p true sl = d.setPort p fun c => { c with sleepAsked := false, draining := true } := if_pos ⟨hu, ha⟩

theorem Dev.sleepReply_refused (sl : Nat) : d.sleepReply p false sl =
    (d.setPort p fun c => { c with sleepAsked := false, draining := false }).refuseEntry (portSlice p) 3 (d.port p).neighbour sl :=
  if_pos ⟨hu, ha⟩

end

/-- An entry that is refused turns into a wake, with EV181 and a record of who refused it (R338, R341). -/
theorem Dev.refuseEntry_entering (he : d.pwr.entering = true) (slice cause partner ps : Nat) :
    let e := d.refuseEntry slice cause partner ps
    e.Pending 181 ∧ e.pwr.lastCause = cause ∧ e.pwr.lastPartner = partner ∧ e.pwr.partnerSlice = ps ∧ e.pwr.waking = true := by
  intro e
  have he' : e = d.refuseEntry slice cause partner ps := rfl
  rw [Dev.refuseEntry, if_neg (by simp [he])] at he'
  extract_lets r r1 r2 at he'
  have hpwr : e.pwr = r2.pwr := by
    rw [he']
    exact (congrArg Dev.pwr (r2.raiseI_bare 181 _) :)
  refine ⟨he' ▸ r2.raiseI_pending 181 _ (by decide), ?_⟩
  rw [hpwr]
  exact ⟨rfl, rfl, rfl, rfl⟩

/-- A drained port sleeps, after a last planned Stroke Frame where the stroke does not come by it (R285). -/
theorem Dev.sleepDrainComplete_sleeps (hu : d.portUp p = true) (hd : (d.port p).draining = true) (hs : (d.port p).sent = [])
    (hk : (d.port p).kept = []) (ho : (d.port p).sleepOrdered = true) : d.sleepDrainComplete p =
    (if d.strokePort = some p then d else d.putFrame p true).setPort p fun c => { c with st := .sleep, draining := false } := by
  simp [Dev.sleepDrainComplete, hu, hd, hs, hk, ho]

theorem Dev.sleepDrainComplete_undrained (hs : (d.port p).sent ≠ []) : d.sleepDrainComplete p = d :=
  if_neg fun h => hs (List.isEmpty_iff.mp h.2.2)

theorem Dev.putFrame_sent (d : Dev) (p : Nat) (b : Bool) : d.Sent (d.putFrame p b) (.frame p (d.frameFor p b)) := by
  refine .of_emit ?_
  obtain ⟨c, o, h⟩ : (d.emit (.frame p (d.frameFor p b))).CastOnly (d.putFrame p b) :=
    (Dev.CastOnly.setPort _ p _).trans ((Dev.CastOnly.emit _ _).trans (.emit _ _))
  rw [h]
  exact List.prefix_append _ _

/-! ### A link that wakes -/

section
variable (hp : p < d.nHosts)
include hp

theorem Dev.wakePatternDetected_wakes (hst : (d.port p).st = .sleep) : d.wakePatternDetected p =
    ((d.setPort p fun c => { c with st := .waking, stepAt := d.time.loc }).emit (.wakePattern p)).wake 3 p := by
  rw [Dev.wakePatternDetected, if_pos ⟨hp, hst⟩, Dev.wakeLink, if_pos hst]

/-- A link that resumes with nothing kept for it (R287). -/
theorem Dev.linkResumed_up (hst : (d.port p).st = .waking) (hk : (d.port p).kept = []) : d.linkResumed p =
    ((d.setPort p fun c => { c with st := .up, aligned := true, sleepOrdered := false }).emit
      (.linkCtl p false (((d.port p).rxNext + 4095) % 4096) (List.replicate 8 0))).raise 162 (portSlice p) := by
  rw [Dev.linkResumed, if_pos ⟨hp, hst⟩]
  exact Dev.Raised.flushPort_eq ((Dev.emit_raised _ _).trans (Dev.raise_raised _ 162 _ _)) rfl hk

theorem Dev.resumptionTimeout_due (hst : (d.port p).st = .waking) (ht : (d.port p).stepAt + 50 ≤ d.time.loc) :
    d.resumptionTimeout p = d.linkDown p := if_pos ⟨hp, hst, ht⟩

end

theorem Dev.resumptionTimeout_early (ht : d.time.loc < (d.port p).stepAt + 50) : d.resumptionTimeout p = d :=
  if_neg fun h => Nat.not_le.mpr ht h.2.2

end

/-- Settles O50: a notice and a hold by what the route's record says, a request, a reply and a drain by the port's. -/
theorem routesSwitchAndLinksSleep : Obligations.RoutesSwitchAndLinksSleep := by
  refine ⟨?notice, ?hold, ?failback, ?request, ?reply, ?drain, ?wake, ?resume⟩
  case notice =>
    intro s p n hu hv hp
    refine ⟨fun ha hup => .of_done rfl ?_, fun ha hup => .of_raise_on (slice := portSlice p) rfl ?_ (by decide), fun ha hb => .of_done rfl ?_,
      fun h => .of_done rfl (Dev.routeNoticeRestore_ignored h)⟩
    · exact (Dev.routeNoticeSwitch_eq hu hv hp ha).trans (if_pos hup)
    · exact (Dev.routeNoticeSwitch_eq hu hv hp ha).trans (if_neg (by simp [hup]))
    · exact Dev.routeNoticeRestore_returns hu hv hp ha hb
  case hold =>
    intro s n t hh
    refine ⟨fun ht => .of_done rfl (Dev.foQuietExpiry_early hh ht), fun ht hheld hr => ?_, fun ht hheld hr => .of_done rfl ?_⟩
    · refine .of_done (congrArg s.done ((Dev.foQuietExpiry_ends hh ht hheld).trans (if_pos hr)))
        ⟨Dev.raise_pending _ 155 _ _ (by decide), ?_, fun a ha => ?_⟩
      · have hroutes : ∀ e : Dev, (e.raise 155 (tileSlice 1)).route n = e.route n := fun e =>
          (congrArg (·.route n) (e.raise_bare 155 (tileSlice 1) 0) :)
        rw [hroutes, Dev.route, Dev.noticeReturn_routes]
        refine (s.dev.route_setRoute_same n _).trans ?_
        simp [Route.released, hr]
      · exact (Dev.noticeReturn_sent (d := s.dev.setRoute n Route.released) ha).mono (Dev.raise_raised _ 155 _ _).out
    · refine ((Dev.foQuietExpiry_ends hh ht hheld).trans (if_neg (by simp [hr]))).trans (Dev.setRoute_congr ?_)
      simp [Route.released, hr]
  case failback =>
    exact fun s p hu => ⟨fun h => .of_done rfl (Dev.failbackPort_early h), fun h => .of_done rfl fun n hn hp ha hb hr =>
      Dev.failbackPort_returns hu h hn hp ha hb hr⟩
  case request =>
    intro s p src hu hd ha
    have hup := Dev.port_st_of_portUp hu
    have hx : ∀ ok, ((s.dev.port p).sleepOrdered && (s.dev.port p).kept.isEmpty) = ok → Does (.sleepRequest p src) s fun e =>
        (e.port p).draining = ok ∧ (e.port p).st = .up ∧ s.dev.Sent e (.sleepReply p ok (if ok then 0 else portSlice p)) := by
      rintro ok rfl
      obtain ⟨hst, hdr⟩ := Dev.sleepAnswer_link ((s.dev.port p).sleepOrdered && (s.dev.port p).kept.isEmpty) hup hd
      exact .of_done (congrArg s.done (Dev.sleepRequest_answered hu hd ha)) ⟨hdr, hst, s.dev.sleepAnswer_sent p _⟩
    exact ⟨fun ho hk => hx true (by simp [ho, hk]), fun h => hx false (by simpa [imp_iff_not_or] using h)⟩
  case reply =>
    intro s p sl hu ha
    refine ⟨.of_done rfl (Dev.sleepReply_accepted hu ha sl), fun he => ?_, fun hs => .of_done rfl (Dev.sleepRequest_lower ha hs)⟩
    exact .of_done (congrArg s.done (Dev.sleepReply_refused hu ha sl)) (Dev.refuseEntry_entering (d := s.dev.setPort p _) he _ _ _ _)
  case drain =>
    refine fun s p hu => ⟨fun hd hs hk ho => ?_, fun hs => .of_done rfl (Dev.sleepDrainComplete_undrained hs)⟩
    refine .of_done (congrArg s.done (Dev.sleepDrainComplete_sleeps hu hd hs hk ho)) ⟨?_, fun hsp => ?_⟩
    · rw [Dev.port_setPort_same]
    · rw [if_neg hsp]
      exact s.dev.putFrame_sent p true
  case wake => exact fun s p hp hst => .of_done rfl (Dev.wakePatternDetected_wakes hp hst)
  case resume =>
    refine fun s p hp hst => ⟨fun hk => ?_, fun ht => ?_, fun ht => .of_done rfl (Dev.resumptionTimeout_early ht)⟩
    · refine .of_done (congrArg s.done (Dev.linkResumed_up hp hst hk)) ⟨Dev.raise_pending _ 162 _ _ (by decide), ?_, ?_⟩
      · exact Dev.raise_bare _ 162 _ _
      · exact Dev.Raised.sent (d := s.dev.setPort p _) (Dev.raise_raised _ 162 _ _)
    · refine .of_done (congrArg s.done (Dev.resumptionTimeout_due hp hst ht)) ⟨Dev.linkDown_pending _ _, ?_⟩
      rw [Dev.linkDown_port]
      rfl

end Sys2Proof.Machine

namespace Sys2Proof.Machine

open Sys2Proof

/-! ### Terdy messages that are lost, pass on, or were accepted before -/

/-- Every Terdy message is received in the same way, before its own meaning (R263, R268, R273). -/
theorem exec_terdy {c : Instr} {s : State} {p op : Nat} {m : Msg} (h : terdyOf c = some (p, op, m)) :
    ∃ f, exec c s = s.done (s.dev.receive p op m f) := by
  unfold terdyOf at h
  split at h
  case h_24 => cases h
  all_goals
    cases h
    exact ⟨_, rfl⟩

section
variable {d : Dev} {p op : Nat} {m : Msg}

theorem Dev.receive_lost (f : Dev → Dev) (hu : d.portUp p = false) : d.receive p op m f = d := if_pos (by simp [hu])

theorem Dev.receive_elsewhere (f : Dev → Dev) (hu : d.portUp p = true) (hd : m.dest ≠ d.devId) : d.receive p op m f = d.passOn p op m :=
  (if_neg (by simp [hu])).trans (if_pos hd)

theorem Dev.receive_twice (f : Dev → Dev) (hu : d.portUp p = true) (hd : m.dest = d.devId) (ht : d.Twice op m) :
    d.receive p op m f = d.raise 160 (portSlice p) := by
  unfold Dev.receive
  rw [if_neg (by simp [hu]), if_neg (by simp [hd])]
  exact if_pos (by simpa [Dev.Twice, Dev.remembered] using ht)

theorem Dev.passOn_sends (h : (d.route m.dest).holdUntil ≠ none ∨ d.reachable m.dest = true) : d.passOn p op m = d.send op m := by
  refine if_neg fun hc => ?_
  simp only [Bool.and_eq_true, Bool.not_eq_true', Option.isSome_eq_false_iff, Option.isNone_iff_eq_none] at hc
  rcases h with h | h
  · exact h hc.1
  · exact absurd hc.2 (by simp [h])

theorem Dev.passOn_unreachable (hh : (d.route m.dest).holdUntil = none) (hr : d.reachable m.dest = false) :
    d.passOn p op m = (d.setRoute m.dest fun r => { r with unreach := true }).raise 156 (portSlice p) := if_pos (by simp [hh, hr])

end

/-- A message taken whose body raises an event on the device that remembers it, and does nothing else. -/
theorem Took.raises {c : Instr} {s : State} {m : Msg} {d : Dev} {p op n slice : Nat} {f : Dev → Dev}
    (hx : exec c s = s.done (s.dev.receive p op m f)) (hc : terdyOf c = some (p, op, m)) (ht : Took c s m d) (hf : f d = d.raise n slice)
    (hn : evClass n ≠ none) : Raises c s n d :=
  .of_raise_on (ht.leaves hx hc hf) rfl hn

/-! ### Snoops of an owner -/

section
variable {d : Dev} {m : Msg} {l : Nat} {k : Snp}

theorem Dev.remoteSnoop_dropped (h : d.importerLine m = none ∨ 16 < m.origin) : d.remoteSnoop m k = d := by
  unfold Dev.remoteSnoop
  split
  · rfl
  · next hl => exact if_neg (Nat.not_le.mpr (h.resolve_left (by simp [hl])))

theorem Dev.remoteSnoop_snoops (hl : d.importerLine m = some l) (ho : m.origin ≤ 16) :
    d.remoteSnoop m k = d.snoop d.devId m.group m.origin l k := by
  simp only [Dev.remoteSnoop, hl, if_pos ho]

end

/-- Settles O51: every message is received in one way, and the snoops and conflicts that are taken are one case each of its body. -/
theorem terdyMessagesAndSnoops : Obligations.TerdyMessagesAndSnoops := by
  refine ⟨fun c s p op m hc => ?received, ?snoops, ?answers⟩
  case received =>
    obtain ⟨f, hx⟩ := exec_terdy (s := s) hc
    refine ⟨fun hu => .of_done hx (Dev.receive_lost f hu),
      fun hu hd => ⟨fun h => .of_done hx ?_, fun hh hr => .of_raise_on (slice := portSlice p) hx ?_ (by decide)⟩,
      fun hu hd ht => .of_raise_on hx (Dev.receive_twice f hu hd ht) (by decide)⟩
    · exact (Dev.receive_elsewhere f hu hd).trans (Dev.passOn_sends h)
    · exact (Dev.receive_elsewhere f hu hd).trans (Dev.passOn_unreachable hh hr)
  case snoops =>
    intro p m s d c hc ht
    have hx : ∀ e, d.remoteSnoop m c.2 = e → Leaves c.1 s e := by
      intro e he
      simp only [List.mem_cons, List.not_mem_nil, or_false] at hc
      rcases hc with rfl | rfl | rfl <;> exact ht.leaves rfl rfl he
    exact ⟨fun h => hx _ (Dev.remoteSnoop_dropped h), fun l hl ho => hx _ (Dev.remoteSnoop_snoops hl ho)⟩
  case answers =>
    refine fun p m s d => ⟨fun ht => ht.leaves rfl rfl rfl, fun ht hg => ht.leaves rfl rfl (if_pos hg),
      fun ht hg => ht.raises rfl rfl (if_neg (by simp [hg])) (by decide), fun l ht ho hl => ht.leaves rfl rfl ?_⟩
    simp [memberOf, ho, hl]

end Sys2Proof.Machine

namespace Sys2Proof.Machine

open Sys2Proof

/-! ### Page messages at the owner -/

section
variable {d : Dev} {p : Nat} {m : Msg}

/-- The record of a page that starts to arrive at its owner in T1 frame `f` (R282). -/
def Dev.startPageIn (d : Dev) (m : Msg) (f : Nat) : Dev :=
  let x : PageIn :=
    { src := m.src, tag := m.tag, page := m.addr / 4096, frame := f, kdom := (d.attrs (m.addr / 4096)).elim 0 Region.kdom, got := 0, poison := [] }
  { d with cas := { d.cas with pagesIn := d.cas.pagesIn ++ [x] } }

/-- Where the owner places a page inside its grant, if anywhere: a frame of the home tile, for a page that has a key (R282). -/
def Dev.placeFor (d : Dev) (page : Nat) : Option (Nat × Dev) :=
  if d.keyless page then none else d.allocFrame (d.homeTile page) .promote 1 0#16

theorem Took.leaves_pagePlace {s : State} {e i : Dev} (hi : i = (d.wake 2 (16 + p)).dropIncoming m.src (m.addr / 4096))
    (ht : Took (.pagePlace p m) s m d) (he : (if d.granted m then
      (i.placeFor (m.addr / 4096)).elim (i.answerMsg m 0x29 1) fun x => x.2.startPageIn m x.1 else d.noGrant p m) = e) :
    Leaves (.pagePlace p m) s e := by
  refine ht.leaves rfl rfl (Eq.trans ?_ he)
  subst hi
  cases hg : d.granted m with
  | false => simp
  | true =>
    simp only [Bool.not_true, Bool.false_eq_true, if_false, if_true, Dev.placeFor]
    split
    · rfl
    · split
      · next h => simp only [h, Option.elim_none]
      · next h =>
        simp only [h, Option.elim_some]
        rfl

theorem Dev.placeFor_none {page : Nat} (h : d.keyless page = true ∨ d.allocFrame (d.homeTile page) .promote 1 0#16 = none) :
    d.placeFor page = none := by
  unfold Dev.placeFor
  split
  · rfl
  · next hk => exact h.resolve_left hk

theorem Dev.placeFor_some {page : Nat} {x : Nat × Dev} (hk : d.keyless page = false)
    (h : d.allocFrame (d.homeTile page) .promote 1 0#16 = some x) : d.placeFor page = some x :=
  (if_neg (by simp [hk])).trans h

/-- A granule before the last of a page that arrives is stored, and noted with its poison (R282). -/
theorem Dev.granuleIn_more {x : PageIn} (h : x.got < 31) : d.granuleIn m x =
    { d.putGran x.kdom (frameGran x.frame (m.addr / 128 % 32)) m.data m.data2 m.mval with
      cas := { d.cas with pagesIn := d.cas.pagesIn.map fun z => if z = x then { x with
        got := x.got + 1, poison := if m.mval = 0 then x.poison else x.poison ++ [(m.addr / 128 % 32, m.mval)] } else z } } :=
  if_pos (by dsimp only; omega)

end

/-! ### Acknowledgements and their timeouts -/

section
variable {d : Dev} {q tag : Nat} {j : Job}

theorem Dev.pageAckTimeout_waits (hj : (d.pump q).job = some j) (h : j.remote ≠ 1 ∨ d.time.loc < j.remSince + d.remTo) :
    d.pageAckTimeout q = d := by
  simp only [Dev.pageAckTimeout, hj]
  refine if_neg ?_
  rintro ⟨-, hr, ht⟩
  rcases h with h | h
  · exact h hr
  · omega

/-- A Pull that has waited for REM_TO drops its page (R284). -/
theorem Dev.pageAckTimeout_pull (hj : (d.pump q).job = some j) (hq : q < d.nPumps) (hr : j.remote = 1)
    (ht : j.remSince + d.remTo ≤ d.time.loc) (hty : j.ty ≠ 5) : d.pageAckTimeout q = d.dropRemote q j := by
  simp only [Dev.pageAckTimeout, hj]
  rw [if_pos ⟨hq, hr, ht⟩]
  split
  · next h5 _ => exact absurd h5 hty
  · rfl

theorem Dev.pageFreeTimeout_waits (h : ∀ f ∈ d.cas.frees, f.tag = tag → d.time.loc < f.since + d.remTo) : d.pageFreeTimeout tag = d := by
  have hnone : (d.cas.frees.find? fun f => f.tag == tag && decide (d.time.loc ≥ f.since + d.remTo)) = none := by
    simpa [List.find?_eq_none] using h
  simp only [Dev.pageFreeTimeout, hnone]

section
variable {f : FreeOut} (hf : d.cas.frees = [f]) (ht : f.since + d.remTo ≤ d.time.loc)
include hf ht

theorem Dev.frees_find?_overdue : (d.cas.frees.find? fun g => g.tag == f.tag && decide (d.time.loc ≥ g.since + d.remTo)) = some f := by
  simp [hf, ht]

/-- A Page Free sent twice is abandoned (R284). -/
theorem Dev.pageFreeTimeout_abandons (ha : f.again = true) :
    (d.pageFreeTimeout f.tag).Pending 156 ∧ (d.pageFreeTimeout f.tag).cas.frees = [] := by
  simp only [Dev.pageFreeTimeout, Dev.frees_find?_overdue hf ht, ha, if_true]
  refine ⟨Dev.raise_pending _ 156 _ _ (by decide), (congrArg (·.cas.frees) (Dev.raise_bare _ 156 _ _) :).trans ?_⟩
  show (d.cas.frees.filter fun x => x.tag != f.tag) = []
  simp [hf]

theorem Dev.pageFreeTimeout_again (ha : f.again = false) : d.pageFreeTimeout f.tag =
    ({ d with cas := { d.cas with frees := [{ f with again := true, since := d.time.loc }] } } : Dev).send 0x12
      { msg0 with dest := f.dest, src := d.devId, tag := f.tag, addr := f.addr } := by
  have hframe : (d.cas.frees.map fun (x : FreeOut) => if x.tag = f.tag then { x with again := true, since := d.time.loc } else x) =
      [{ f with again := true, since := d.time.loc }] := by
    simp [hf]
  simp only [Dev.pageFreeTimeout, Dev.frees_find?_overdue hf ht, ha, Bool.false_eq_true, if_false, hframe]
  rfl

end

end

/-- Settles O53: a message outside its grant is refused in one way, and each of the others is one case of its body. -/
theorem pageMessagesBetweenDevices : Obligations.PageMessagesBetweenDevices := by
  refine ⟨?outside, ?inside, ?data, ?ack, ?ackTimeout, ?freeWaits, ?freeTimeout⟩
  case outside =>
    intro p m s d c hc ht hg
    simp only [List.mem_cons, List.not_mem_nil, or_false] at hc
    have hno : ¬d.granted m = true := by simp [hg]
    rcases hc with rfl | rfl | rfl
    · exact ht.leaves rfl rfl (if_neg hno)
    · exact ht.leaves_pagePlace rfl (if_neg hno)
    · exact ht.leaves rfl rfl (if_neg hno)
  case inside =>
    rintro p _ m s d _ rfl hg rfl
    refine ⟨fun ht => ht.leaves rfl rfl (if_pos hg), fun ht => ht.leaves rfl rfl (if_pos hg), fun i hi ht h => ?_,
      fun i f g hi ht hk hf => ?_⟩
    · exact ht.leaves_pagePlace hi ((if_pos hg).trans (by rw [Dev.placeFor_none h]; rfl))
    · exact ht.leaves_pagePlace hi ((if_pos hg).trans (by rw [Dev.placeFor_some hk hf]; rfl))
  case data =>
    intro p m s d x ht hx hgot
    exact ht.leaves rfl rfl (by simp only [hx]; exact Dev.granuleIn_more hgot)
  case ack =>
    intro p m s d ht
    exact ⟨fun h => ht.leaves rfl rfl (if_pos h), fun hf hp => ht.leaves rfl rfl (by simp [hf, hp])⟩
  case ackTimeout =>
    exact fun s q j hj => ⟨fun h => .of_done rfl (Dev.pageAckTimeout_waits hj h),
      fun hq hr ht hty => .of_done rfl (Dev.pageAckTimeout_pull hj hq hr ht hty)⟩
  case freeWaits => exact fun s tag h => .of_done rfl (Dev.pageFreeTimeout_waits h)
  case freeTimeout =>
    exact fun s f hf ht => ⟨fun ha => .of_done rfl (Dev.pageFreeTimeout_abandons hf ht ha),
      fun ha => .of_done rfl (Dev.pageFreeTimeout_again hf ht ha)⟩

end Sys2Proof.Machine

namespace Sys2Proof.Machine

open Sys2Proof

/-! ### The NVM -/

/-- A property of the NVM alone. -/
def Keep.ofNvm (q : List Host.Cell → Prop) : Keep := fun _ n _ _ => q n

/-- The commands at which a Stage, a Validate or a Commit ends its write of the NVM (R289, R304 to R306). -/
def writesNvm : Instr → Bool
  | .stageComplete _ | .validateComplete _ | .commitSlotWritten _ => true
  | _ => false

/-- A property of the NVM alone stands in the way of no command but the three that write it. -/
theorem Keep.ofNvm_allows {q : List Host.Cell → Prop} {d : Dev} {c : Instr} (hw : writesNvm c = false) (h : Kept (.ofNvm q) d) :
    (Keep.ofNvm q).Allows d c := by
  obtain ⟨hm, hq⟩ := h
  unfold Keep.Allows
  split
  case h_1 | h_2 | h_3 | h_4 => exact fun _ _ _ _ _ _ hp => hp
  case h_5 | h_6 | h_7 => exact Bool.noConfusion hw
  case h_8 => exact fun _ _ _ _ _ hp => hp
  case h_9 => exact fun _ _ _ _ hp => hp
  case h_10 | h_11 => exact ⟨hm, hq⟩
  case h_12 => trivial

theorem exec_nvm {c : Instr} {s t : State} (hm : OkMem s.dev.dram s.dev.nvm) (hw : writesNvm c = false) (ht : exec c s = .next t) :
    t.dev.nvm = s.dev.nvm :=
  have hk : Kept (.ofNvm (· = s.dev.nvm)) s.dev := ⟨hm, rfl⟩
  (exec_kept (Keep.ofNvm_allows hw hk) hk t ht).2

/-- Settles O11: the contents of the NVM are a property that every other command keeps. -/
theorem nvmIsOnlyWrittenByTheTransaction : Obligations.NvmIsOnlyWrittenByTheTransaction := by
  intro c s t hm ht hstage hvalidate hcommit a
  have hw : writesNvm c = false := by
    unfold writesNvm
    split
    · exact absurd rfl (hstage _)
    · exact absurd rfl (hvalidate _)
    · exact absurd rfl (hcommit _)
    · rfl
  rw [exec_nvm hm hw ht]

end Sys2Proof.Machine

namespace Sys2Proof.Machine

open Sys2Proof

/-! ### Bytes of a memory that was written or wiped -/

/-- A table reduced to the keys that `p` admits reads blank at every other key. -/
theorem Tbl.get_filter {α : Type} (dflt : α) (t : Tbl α) (p : Nat → Bool) (k : Nat) :
    Tbl.get dflt (t.filter fun e => p e.1) k = if p k then Tbl.get dflt t k else dflt := by
  induction t with
  | nil => simp
  | cons x t ih =>
    obtain ⟨j, v⟩ := x
    by_cases hk : k = j
    · subst hk
      cases hp : p k <;> simp [Tbl.get, hp, ih]
    · cases hp : p j <;> simp [Tbl.get, hp, ih, hk]

section
variable {blank : Byte} {m : List Host.Cell} {a x : Nat}

theorem Memory.read_write (v : Byte) : Memory.read blank (Memory.write blank m a v) x = if x = a then v else Memory.read blank m x :=
  Tbl.get_set _ _ _ _ _

theorem Memory.read_wipe (n : Nat) :
    Memory.read blank (Memory.wipe m a n) x = if a ≤ x ∧ x < a + n then blank else Memory.read blank m x := by
  refine (Tbl.get_filter blank m (fun y => !(decide (a ≤ y) && decide (y < a + n))) x).trans ?_
  by_cases h : a ≤ x ∧ x < a + n <;> simp [h, Memory.read]

theorem Memory.read_writeN_outside (bs : List Byte) (h : x < a ∨ a + bs.length ≤ x) :
    Memory.read blank (Memory.writeN blank m a bs) x = Memory.read blank m x := by
  induction bs generalizing m a with
  | nil => rfl
  | cons b bs ih =>
    rw [List.length_cons] at h
    rw [Memory.writeN, ih (by omega), Memory.read_write, if_neg (by omega)]

theorem Memory.read_writeN_inside (bs : List Byte) (i : Nat) (h : i < bs.length) :
    Memory.read blank (Memory.writeN blank m a bs) (a + i) = bs[i] := by
  induction bs generalizing m a i with
  | nil => exact absurd h (Nat.not_lt_zero i)
  | cons b bs ih =>
    cases i with
    | zero => rw [Memory.writeN, Memory.read_writeN_outside bs (.inl (by omega)), Memory.read_write, if_pos (Nat.add_zero a)]; rfl
    | succ i =>
      rw [show a + (i + 1) = a + 1 + i by omega]
      exact ih i (Nat.lt_of_succ_lt_succ h)

end

/-! ### What a transaction gives up -/

/-- `e` is `d` but for the frames, the free frames that the tiles count, and the ledger. -/
def Dev.FreedOnly (d e : Dev) : Prop := ∃ f t l, e = { d with frames := f, tiles := t, led := l }

namespace Dev.FreedOnly

theorem refl (d : Dev) : d.FreedOnly d := ⟨d.frames, d.tiles, d.led, rfl⟩

theorem trans {a b c : Dev} (h : a.FreedOnly b) (g : b.FreedOnly c) : a.FreedOnly c := by
  obtain ⟨f, t, l, rfl⟩ := h
  obtain ⟨f', t', l', rfl⟩ := g
  exact ⟨f', t', l', rfl⟩

end Dev.FreedOnly

theorem Dev.setSlotState_freedOnly (d : Dev) (n v : Nat) : d.FreedOnly (d.setSlotState n v) := by
  unfold Dev.setSlotState
  (repeat' split) <;> exact ⟨_, _, _, rfl⟩

theorem Dev.freeFrame_freedOnly (d : Dev) (f : Nat) : d.FreedOnly (d.freeFrame f) := by
  unfold Dev.freeFrame
  split
  · exact ⟨_, _, _, rfl⟩
  · dsimp only
    split <;> exact ⟨_, _, _, rfl⟩

theorem Dev.freeRuns_freedOnly (d : Dev) (ms : List MetaRun) : d.FreedOnly (d.freeRuns ms) := by
  have hrun : ∀ (e : Dev) (a n : Nat), e.FreedOnly (e.freeRun a n) := fun e a n =>
    forAll_rel Dev.FreedOnly.refl (fun _ _ _ => .trans) (fun e i => e.freeFrame_freedOnly (a + i)) e (List.range n)
  refine forAll_rel Dev.FreedOnly.refl (fun _ _ _ => .trans) (fun e m => ?_) d ms
  dsimp only
  split
  · exact (hrun e _ _).trans (hrun _ _ _)
  · exact hrun e _ _

/-- The runs reserved for a transaction are freed, and a target slot that is Pending is Discarded. -/
theorem Dev.giveUp_freedOnly (d : Dev) (ms : List MetaRun) (t : Option Nat) : d.FreedOnly
    (match t with
      | some n => if (d.freeRuns ms).slotState n = 2 then (d.freeRuns ms).setSlotState n 3 else d.freeRuns ms
      | none => d.freeRuns ms) := by
  refine (d.freeRuns_freedOnly ms).trans ?_
  split
  · split
    · exact Dev.setSlotState_freedOnly _ _ _
    · exact .refl _
  · exact .refl _

/-- A change of the transaction after what frees frames and slots. -/
theorem Dev.FreedOnly.setTxn {d e : Dev} (h : d.FreedOnly e) (f : Txn → Txn) : (d.setTxn f).FreedOnly (e.setTxn f) := by
  obtain ⟨a, b, c, rfl⟩ := h
  exact ⟨a, b, c, rfl⟩

/-- The transaction as Stage and Validate leave it: Open, with nothing of a passed Validate (R304, R305). -/
def Txn.reopened (t : Txn) : Txn := { t with st := .opened, image := none, metaReserved := [], target := none }

theorem Dev.reopen_freedOnly (d : Dev) : (d.setTxn Txn.reopened).FreedOnly d.reopen :=
  (d.giveUp_freedOnly d.cfg.txn.metaReserved _).setTxn Txn.reopened

theorem Dev.txnIdle_freedOnly (d : Dev) : (d.setTxn fun t => { num := t.num }).FreedOnly d.txnIdle :=
  (d.giveUp_freedOnly d.cfg.txn.metaReserved _).setTxn fun t => { num := t.num }

end Sys2Proof.Machine

namespace Sys2Proof.Machine

open Sys2Proof

/-! ### Commands of a transaction's owner, and background commands -/

theorem Does.of_leaves {c : Instr} {s : State} {e : Dev} {P : Dev → Prop} (h : Leaves c s e) (hp : P e) : Does c s P := .of_done h hp

/-- The input of a vendor command whose payload may fill the mailbox of a head (R68, R76, R461). -/
theorem Dev.vend_of_fits {d : Dev} {src : Src} {p : List Byte} {a b : Bool} {f : Dev → Dev} (hm : src = .mctp → p.length ≤ 4096)
    (hp : p.length ≤ 65536) (ha : a = true) (hb : b = true) : d.vend src p a b f = f d := by
  subst ha hb
  rw [Dev.vend, if_neg (by simpa using hm), if_neg (by simpa using hp), if_neg (by simp)]

section
variable {d : Dev} {src : Src} {f : Dev → Dev}

theorem Dev.owned_idle (h : d.cfg.txn.st = .idle) : d.owned src f = d.reply src .invalidInput 0x0102 := if_pos h

theorem Dev.owned_foreign (hs : d.cfg.txn.st ≠ .idle) (ho : d.cfg.txn.owner ≠ some src) :
    d.owned src f = d.reply src .invalidInput 0x0103 := by
  rw [Dev.owned, if_neg hs, if_pos (by simpa using ho)]

theorem Dev.owned_own (hs : d.cfg.txn.st ≠ .idle) (ho : d.cfg.txn.owner = some src) : d.owned src f = f d := by
  rw [Dev.owned, if_neg hs, if_neg (by simp [ho])]

theorem Dev.asBg_free (h : d.bgRuns src = false) : d.asBg src f = f d := if_neg (by simp [h])

end

/-- What a vendor command of the transaction's owner leaves where it is accepted and its input is well formed. -/
theorem Accepted.leaves_ownedVend {c : Instr} {src : Src} {g : Gate} {p : List Byte} {len zero : Bool} {f : Dev → Dev} {s : State}
    {d e : Dev} (hg : gateOf s.dev c = some (src, g))
    (hx : exec c s = s.mail src c (s.dev.gated src g fun d => d.owned src fun d => d.vend src p len zero f))
    (ha : Accepted c s src d) (hs : d.cfg.txn.st ≠ .idle) (ho : d.cfg.txn.owner = some src) (hm : src = .mctp → p.length ≤ 4096)
    (hp : p.length ≤ 65536) (hl : len = true) (hz : zero = true) (he : f d = e) : Leaves c s e :=
  ha.leaves_mail hg hx ((Dev.owned_own hs ho).trans ((Dev.vend_of_fits hm hp hl hz).trans he))

/-- The first background command serves the transaction where it runs and is of the kind asked for. -/
theorem Dev.txnBg_head {d : Dev} {b : Bg} {bs : List Bg} {f : BgKind → Bool} (hb : d.cfg.bg = b :: bs) (hr : b.result = none)
    (ha : b.abandoned = false) (hf : f b.kind = true) : d.txnBg f = some b := by
  rw [Dev.txnBg, hb]
  exact List.find?_cons_of_pos (by simp [hr, ha, hf])

section
variable {d : Dev} {r : Ret} {ext : Nat} {out : List Byte}

theorem Dev.emit_sent (d : Dev) (o : Out) : d.Sent (d.emit o) o := Dev.Raised.sent (.refl _)

/-- A completion that fits an MCTP message goes out as it is (R76). -/
theorem Dev.reply_of_fits (src : Src) (ho : out.length ≤ 4096) : d.reply src r ext out = d.emit (.cci src r ext out) :=
  if_neg fun h => Nat.not_lt.mpr ho h.2

/-- A background command starts with its first completion, behind those that run (R68). -/
theorem Dev.startBg_eq (src : Src) (k : BgKind) (q : Bool) : d.startBg src k q =
    Dev.emit { d with cfg := { d.cfg with bg := d.cfg.bg ++ [{ src := src, kind := k, queued := q }] } }
      (.cci src .backgroundStarted 0 []) :=
  Dev.reply_of_fits src (Nat.zero_le _)

variable {b : Bg}

/-- The device once the background command `b` is over. -/
def Dev.withoutBg (d : Dev) (b : Bg) : Dev :=
  { d with cfg := { d.cfg with bg := d.cfg.bg.filter (· != b), lateAborts := d.cfg.lateAborts ++ b.aborts } }

theorem Dev.not_mem_withoutBg (d : Dev) (b : Bg) : b ∉ (d.withoutBg b).cfg.bg := by simp [Dev.withoutBg]

/-- The end of a background command changes the list of those that run, the aborts that came too late, and what was sent (R31). -/
theorem Dev.finishBg_only (d : Dev) (b : Bg) (r : Ret) (ext : Nat) (out : List Byte) : ∃ bg late o,
    d.finishBg b r ext out = { d with cfg := { d.cfg with bg := bg, lateAborts := late }, out := d.out ++ o } := by
  unfold Dev.finishBg
  extract_lets c gone
  split
  · exact ⟨gone.cfg.bg, gone.cfg.lateAborts, [], by rw [List.append_nil]⟩
  · split
    · exact ⟨_, d.cfg.lateAborts, [], by rw [List.append_nil]⟩
    · obtain ⟨o, ho⟩ : ∃ o, gone.reply b.src r ext out = gone.emit o := by
        unfold Dev.reply
        split <;> exact ⟨_, rfl⟩
      exact ⟨gone.cfg.bg, gone.cfg.lateAborts, o.announced ++ [o], by rw [ho, Dev.emit, List.append_assoc]⟩

/-- A background command that ends is gone and answered, where its sender awaits it and the cores are there (R31). -/
theorem Dev.finishBg_eq (ha : b.abandoned = false) (hm : b.mute = false) (hc : d.coresGone = false) (ho : out.length ≤ 4096) :
    d.finishBg b r ext out = (d.withoutBg b).emit (.cci b.src r ext out) :=
  (Dev.finishBg_answered ha hm hc).trans (Dev.reply_of_fits b.src ho)

end

/-! ### Begin, Stage and Rollback -/

section
variable {src : Src} {p : List Byte} {s : State} {d e : Dev}

/-- What Begin leaves where it is accepted and its input is well formed (R303). -/
theorem Accepted.leaves_beginTxn (ha : Accepted (.beginTxn src p) s src d) (hp : p.length = 8) (h0 : fieldAt p 0 1 < 2)
    (hz : zeros (sub p 1 3) = true)
    (he : (if d.cfg.txn.st != .idle || d.decisionOpen then d.busy104 src
      else if fieldAt p 4 4 ≠ 0 ∧ fieldAt p 4 4 ≠ d.cfgVersion then d.reply src .invalidInput
      else (d.setTxn fun _ => { st := .opened, owner := some src, num := (d.cfg.txn.num + 1) % 2 ^ 32, pool := bit (fieldAt p 0 1) 0,
                                lastCmd := d.time.loc }).reply src .success 0 (leBytes 4 ((d.cfg.txn.num + 1) % 2 ^ 32))) = e) :
    Leaves (.beginTxn src p) s e :=
  ha.leaves_vend rfl rfl (by omega) (by simp [hp]) (by simp [h0, hz]) he

theorem bit_zero_of_lt_two {n : Nat} (h : n < 2) : bit n 0 = (n == 1) := by
  interval_cases n <;> rfl

/-- What Rollback leaves for the owner or a manager (R308). -/
theorem Accepted.leaves_rollback (ha : Accepted (.rollback src []) s src d) (ho : d.cfg.txn.owner = some src ∨ d.mgr src = true)
    (he : (match d.cfg.txn.st with
      | .idle => d.reply src .invalidInput 0x0102
      | .opened | .ready => d.txnIdle.reply src .success
      | .writing =>
        (match d.txnBg fun k => match k with | .commit _ => true | _ => false with
         | some b => d.askAbort b src
         | none => d.reply src .success)
      | .queued => d.reply src .success 0x0106
      | .voted => d.reply src .busy) = e) : Leaves (.rollback src []) s e := by
  refine ha.leaves_mail rfl rfl (Eq.trans ?_ he)
  have hmay : ¬(d.cfg.txn.owner != some src && !d.mgr src) = true := by rcases ho with h | h <;> simp [h]
  exact (if_neg hmay).trans (Dev.vend_of_ok (Nat.zero_le _) rfl rfl)

/-- An open or a ready transaction that is rolled back is Idle (R308). -/
theorem Dev.txnIdle_reply (d : Dev) (src : Src) :
    d.Sent (d.txnIdle.reply src .success) (.cci src .success 0 []) ∧
      (d.txnIdle.reply src .success).cfg.txn = { num := d.cfg.txn.num } := by
  obtain ⟨f, t, l, h⟩ := d.txnIdle_freedOnly
  rw [Dev.reply_of_fits src (Nat.zero_le _), h]
  exact ⟨Dev.emit_sent _ _, rfl⟩

/-- What Stage leaves where it is accepted, its input is well formed and the transaction is Open (R304). -/
theorem Accepted.leaves_stage (ha : Accepted (.stage src p) s src d) (hl : 8 ≤ p.length) (hp : p.length ≤ 65536)
    (hm : src = .mctp → p.length ≤ 4096) (hz : zeros (sub p 4 4) = true) (ho : d.cfg.txn.owner = some src) (hs : d.cfg.txn.st = .opened)
    (he : (if d.stageOk (fieldAt p 0 4) (p.length - 8) = true then d.touchTxn.asBg src fun d =>
        ({ d.reopen.setTxn fun t => { t with stageIssued := true } with nvmWait := 0 }).startBg src (.stage (fieldAt p 0 4) (p.drop 8))
      else d.touchTxn.reply src .invalidInput) = e) : Leaves (.stage src p) s e := by
  refine ha.leaves_ownedVend rfl rfl (by simp [hs]) ho hm hp (by simpa using hl) hz (Eq.trans ?_ he)
  have hst : (d.touchTxn.cfg.txn.st == .opened || d.touchTxn.cfg.txn.st == .ready) = true := by simp [Dev.touchTxn, hs]
  have hok : d.touchTxn.stageOk (fieldAt p 0 4) (p.length - 8) = d.stageOk (fieldAt p 0 4) (p.length - 8) := rfl
  dsimp only
  rw [hst, hok]
  cases d.stageOk (fieldAt p 0 4) (p.length - 8) <;> rfl

/-- A Stage that runs has issued bytes for its transaction, and what a passed Validate left is given up (R304). -/
theorem Dev.stage_started (off : Nat) (data : List Byte)
    (he : e = ({ d.reopen.setTxn fun t => { t with stageIssued := true } with nvmWait := 0 }).startBg src (.stage off data)) :
    d.Sent e (.cci src .backgroundStarted 0 []) ∧ e.cfg.bg = d.cfg.bg ++ [{ src := src, kind := .stage off data }] ∧
      e.cfg.txn.stageIssued = true ∧ e.cfg.txn.st = .opened ∧ e.nvmWait = 0 ∧ e.nvm = d.nvm := by
  obtain ⟨f, t, l, h⟩ := d.reopen_freedOnly
  rw [he, Dev.startBg_eq, h]
  exact ⟨Dev.emit_sent _ _, rfl, rfl, rfl, rfl, rfl⟩

end

section
variable {d : Dev} {b : Bg} {bs : List Bg} {off : Nat} {data : List Byte} (hb : d.cfg.bg = b :: bs) (hr : b.result = none)
  (ha : b.abandoned = false) (hk : b.kind = .stage off data)
include hb hr ha hk

/-- A Stage whose write has not ended waits, as does one while the NVM may not be written (R289). -/
theorem Dev.stageComplete_waits {ok : Bool} (h : ok = false ∨ d.nvmWritable = false) : d.stageComplete ok = d := by
  rw [Dev.stageComplete, Dev.txnBg_head hb hr ha (by rw [hk])]
  exact if_pos (by simpa using h)

/-- The end of a Stage writes its bytes into the staging area, which the transaction's first Stage erases (R304). -/
theorem Dev.stageComplete_ends (hw : d.nvmWritable = true) (hm : b.mute = false) (hc : d.coresGone = false) : d.stageComplete true =
    Dev.emit (Dev.withoutBg (Dev.touchTxn (Dev.setTxn { d with
      nvm := Memory.writeN nvmBlank (if d.cfg.txn.staged.isEmpty then Memory.wipe d.nvm stageBase areaSize else d.nvm)
        (stageBase + off) data }
        fun t => { t with staged := t.staged ++ [(off, data.length)] })) b) (.cci b.src .success 0 []) := by
  rw [Dev.stageComplete, Dev.txnBg_head hb hr ha (by rw [hk])]
  dsimp only
  rw [if_neg (by simp [hw]), hk]
  exact Dev.finishBg_eq ha hm hc (Nat.zero_le _)

end

/-- Settles O27: each command of the owner is its gates and one conditional, and the end of a Stage is one write of the NVM. -/
theorem transactionBegunStagedRolledBack : Obligations.TransactionBegunStagedRolledBack := by
  refine ⟨fun src p s d => ⟨?begin, ?owned, ?stage, ?rollback⟩, ?complete⟩
  case begin =>
    intro ha hp h0 hz
    refine ⟨fun h => ha.leaves_beginTxn hp h0 hz (if_pos ?_), fun hs ht hr hn hv => ha.leaves_beginTxn hp h0 hz ?_,
      fun hs ht hr hv => ha.leaves_beginTxn hp h0 hz ?_⟩
    · simpa [Dev.decisionOpen] using h
    · rw [if_neg (by simp [Dev.decisionOpen, hs, ht, hr]), if_pos ⟨hn, hv⟩]
    · rw [if_neg (by simp [Dev.decisionOpen, hs, ht, hr]), if_neg (by tauto), bit_zero_of_lt_two h0]
      rfl
  case owned =>
    intro c hc ha
    have hx : ∀ e, (∀ f, d.owned src f = e) → Leaves c s e := by
      intro e he
      simp only [List.mem_cons, List.not_mem_nil, or_false] at hc
      rcases hc with rfl | rfl | rfl <;> exact ha.leaves_mail rfl rfl (he _)
    exact ⟨fun hs => hx _ fun _ => Dev.owned_idle hs, fun hs ho => hx _ fun _ => Dev.owned_foreign hs ho⟩
  case stage =>
    intro ha hl hp hm hz ho hs hbg
    refine ⟨fun hok => .of_leaves (ha.leaves_stage hl hp hm hz ho hs (if_neg (by simp [hok]))) ?_,
      fun hok => .of_leaves (ha.leaves_stage hl hp hm hz ho hs ((if_pos hok).trans (Dev.asBg_free hbg))) ?_⟩
    · rw [Dev.reply_of_fits src (Nat.zero_le _)]
      exact ⟨Dev.emit_sent _ _, rfl, rfl⟩
    · exact Dev.stage_started (d := d.touchTxn) _ _ rfl
  case rollback =>
    intro ha ho
    refine ⟨fun hs => .of_leaves (ha.leaves_rollback ho ?_) (d.txnIdle_reply src), fun hs => ha.leaves_rollback ho (by rw [hs]),
      fun hs => ha.leaves_rollback ho (by rw [hs])⟩
    rcases hs with hs | hs <;> rw [hs]
  case complete =>
    intro s b bs off data hb hr ha hk hc hm
    have hends := fun hw => Dev.stageComplete_ends hb hr ha hk hw hm hc
    refine ⟨fun ok h => .of_done rfl (Dev.stageComplete_waits hb hr ha hk h), fun hw hst => .of_done (congrArg s.done (hends hw)) ?_,
      fun hw hst => .of_done (congrArg s.done (hends hw)) ?_⟩
    · rw [if_neg (by simpa using hst)]
      exact ⟨fun i hi => Memory.read_writeN_inside data i hi, fun a h => Memory.read_writeN_outside data h, rfl,
        Dev.not_mem_withoutBg _ b, Dev.emit_sent _ _, rfl⟩
    · rw [if_pos (by simp [hst])]
      refine ⟨fun i hi => Memory.read_writeN_inside data i hi, fun a h => ?_, congrArg (· ++ [(off, data.length)]) hst⟩
      exact (Memory.read_writeN_outside data h).trans (Memory.read_wipe areaSize)

end Sys2Proof.Machine

namespace Sys2Proof.Machine

open Sys2Proof

/-! ### Validate -/

section
variable {src : Src} {s : State} {d e : Dev}

/-- What Validate leaves where it is accepted and the transaction is Open (R305). -/
theorem Accepted.leaves_validate (ha : Accepted (.validate src []) s src d) (ho : d.cfg.txn.owner = some src) (hs : d.cfg.txn.st = .opened)
    (he : (d.touchTxn.asBg src fun d => ({ d.reopen with nvmWait := 0 }).startBg src .validate) = e) : Leaves (.validate src []) s e := by
  refine ha.leaves_ownedVend rfl rfl (by simp [hs]) ho (fun _ => Nat.zero_le _) (Nat.zero_le _) rfl rfl (Eq.trans (if_neg ?_) he)
  simp [Dev.touchTxn, hs]

theorem Dev.validate_started (he : e = ({ d.reopen with nvmWait := 0 }).startBg src .validate) :
    d.Sent e (.cci src .backgroundStarted 0 []) ∧ e.cfg.bg = d.cfg.bg ++ [{ src := src, kind := .validate }] ∧
      e.cfg.txn.st = .opened := by
  obtain ⟨f, t, l, h⟩ := d.reopen_freedOnly
  rw [he, Dev.startBg_eq, h]
  exact ⟨Dev.emit_sent _ _, rfl, rfl⟩

end

theorem validateOut_passed : validateOut none 0 = List.replicate 16 0#8 := by decide

theorem length_validateOut (f : Option ImgFail) (n : Nat) : (validateOut f n).length = 16 := by
  cases f <;> simp [validateOut]

/-- The device whose transaction a failed Validate leaves Open, with the reason recorded (R305). -/
def Dev.failedFor (d : Dev) (f : ImgFail) : Dev :=
  (Dev.setTxn { d with cfg := { d.cfg with lastReason := f.reason } } fun t => { t with st := .opened, image := none }).touchTxn

/-- The device whose transaction a passing Validate leaves Ready (R305). -/
def Dev.readied (d : Dev) (i : Option Image) (ms : List MetaRun) (t : Option Nat) : Dev :=
  (d.setTxn fun x => { x with st := .ready, image := i, metaReserved := ms, target := t }).touchTxn

section
variable {d : Dev} {b : Bg} {f : ImgFail} {n : Nat}

theorem Dev.validateFail_eq : d.validateFail b f n = (d.failedFor f).finishBg b .invalidInput 0 (validateOut (some f) n) := rfl

theorem Dev.validatePass_eq (i : Option Image) (ms : List MetaRun) (t : Option Nat) :
    d.validatePass b i ms t n = (d.readied i ms t).finishBg b .success 0 (validateOut none n) := rfl

theorem Dev.validateFail_txn : (d.validateFail b f n).cfg.txn.st = .opened ∧ (d.validateFail b f n).cfg.lastReason = f.reason := by
  obtain ⟨bg, late, o, h⟩ := (d.failedFor f).finishBg_only b .invalidInput 0 (validateOut (some f) n)
  rw [Dev.validateFail_eq, h]
  exact ⟨rfl, rfl⟩

section
variable (ha : b.abandoned = false) (hm : b.mute = false) (hc : d.coresGone = false)
include ha hm hc

theorem Dev.validateFail_sent : d.Sent (d.validateFail b f n) (.cci b.src .invalidInput 0 (validateOut (some f) n)) := by
  have hgone : (d.failedFor f).coresGone = false := hc
  rw [Dev.validateFail_eq, Dev.finishBg_eq ha hm hgone (by simp [length_validateOut])]
  exact Dev.emit_sent _ _

/-- A passing Validate leaves the transaction Ready, with its overlay as it is (R305). -/
theorem Dev.validatePass_ready {e : Dev} (i : Option Image) (ms : List MetaRun) (t : Option Nat) (he : e = d.validatePass b i ms t n) :
    e.cfg.txn.st = .ready ∧ e.cfg.txn.image = i ∧ b ∉ e.cfg.bg ∧ e.cfg.txn.overlay = d.cfg.txn.overlay ∧
      d.Sent e (.cci b.src .success 0 (validateOut none n)) := by
  have hgone : (d.readied i ms t).coresGone = false := hc
  rw [he, Dev.validatePass_eq, Dev.finishBg_eq ha hm hgone (by simp [length_validateOut])]
  exact ⟨rfl, rfl, Dev.not_mem_withoutBg _ b, rfl, Dev.emit_sent _ _⟩

end
end

section
variable {d : Dev} {b : Bg} {bs : List Bg} (hb : d.cfg.bg = b :: bs) (hr : b.result = none) (ha : b.abandoned = false)
  (hk : b.kind = .validate)
include hb hr ha hk

/-- The end of a Validate without a staged image is decided by the overlay (R305, R310). -/
theorem Dev.validateComplete_overlay (hi : d.cfg.txn.stageIssued = false) (ok : Bool) :
    d.validateComplete ok = d.checkOverlay.elim (d.validatePass b none [] none 0) fun f => d.validateFail b f 0 := by
  rw [Dev.validateComplete, Dev.txnBg_head hb hr ha (by rw [hk]; rfl)]
  dsimp only
  rw [if_pos (by simp [hi])]
  cases d.checkOverlay <;> rfl

/-- A Validate whose staged bytes are gone fails for its length (R305). -/
theorem Dev.validateComplete_nothingStaged (hi : d.cfg.txn.stageIssued = true) (hs : d.cfg.txn.staged = []) (ok : Bool) :
    d.validateComplete ok = d.validateFail b { reason := 16 } 0 := by
  rw [Dev.validateComplete, Dev.txnBg_head hb hr ha (by rw [hk]; rfl)]
  dsimp only
  rw [if_neg (by simp [hi]), if_pos (.inr (by simp [hs]))]

end

/-- Settles O28: the start is one conditional behind its gates, and the end is a pass or a failure by what the checks find. -/
theorem validateEndsReadyOrOpen : Obligations.ValidateEndsReadyOrOpen := by
  refine ⟨fun src s d ha ho hs hbg => .of_leaves (ha.leaves_validate ho hs (Dev.asBg_free hbg)) ?start, ?complete⟩
  case start => exact Dev.validate_started (d := d.touchTxn) rfl
  case complete =>
    intro s b bs ok hb hr ha hk hc hm
    refine ⟨fun hi ho => .of_done rfl ?_, fun f hi ho => .of_done rfl ?_, fun hi hst => .of_done rfl ?_⟩
    · rw [Dev.validateComplete_overlay hb hr ha hk hi, ho, ← validateOut_passed]
      exact Dev.validatePass_ready ha hm hc none [] none rfl
    · rw [Dev.validateComplete_overlay hb hr ha hk hi, ho]
      exact ⟨Dev.validateFail_txn.1, Dev.validateFail_txn.2, Dev.validateFail_sent ha hm hc⟩
    · rw [Dev.validateComplete_nothingStaged hb hr ha hk hi hst]
      exact Dev.validateFail_txn

end Sys2Proof.Machine

namespace Sys2Proof.Machine

open Sys2Proof

/-! ### The activation queue -/

theorem Dev.queueAct_ok {d : Dev} {n cls : Nat} {k : ActKind} (hn : d.earliest ≤ n) (ha : d.acts.length < 16) :
    d.queueAct n cls k = .ok { d with acts := d.acts ++ [{ stroke := n, cls := cls, kind := k }] } := by
  rw [Dev.queueAct, if_neg (Nat.not_lt.mpr hn), if_neg (Nat.not_le.mpr ha)]

/-- A Commit that asks for no stroke has its activation queued for the earliest (R49, R306). -/
theorem Dev.commitQueue_earliest {d e : Dev} {b : Bg} (ha : d.acts.length < 16) (hw : d.cfg.txn.wantStroke = 0) (he : e = d.commitQueue b) :
    e.cfg.txn.st = .queued ∧ e.acts = d.acts ++ [{ stroke := d.pool + 2, cls := 1, kind := .config }] ∧ e.out = d.out := by
  have hwant : d.wanted d.cfg.txn.wantStroke = d.earliest := if_pos hw
  rw [he, Dev.commitQueue, hwant, Dev.queueAct_ok le_rfl ha]
  exact ⟨rfl, rfl, rfl⟩

/-! ### Commit -/

/-- The device at which a Commit runs that asks for stroke `n` (R306). -/
def Dev.commitBegun (d : Dev) (src : Src) (n : Nat) : Dev :=
  Dev.startBg { d.setTxn fun t => { t with st := .writing, wantStroke := n } with nvmWait := 0 } src (.commit 0)

/-- The target slot is Pending, and is the transaction's (R299, R306). -/
def Dev.aimed (d : Dev) : Dev := (d.setSlotState d.targetSlot 2).setTxn fun t => { t with target := some d.targetSlot }

theorem Dev.commitBegun_eq (d : Dev) (src : Src) (n : Nat) : d.commitBegun src n = Dev.emit { d with
    cfg := { d.cfg with txn := { d.cfg.txn with st := .writing, wantStroke := n }, bg := d.cfg.bg ++ [{ src := src, kind := .commit 0 }] }
    nvmWait := 0 } (.cci src .backgroundStarted 0 []) :=
  Dev.startBg_eq src (.commit 0) false

section
variable {src : Src} {p : List Byte} {s : State} {d e : Dev}

/-- What Commit leaves where it is accepted and its input is well formed (R306). -/
theorem Accepted.leaves_commit (ha : Accepted (.commit src p) s src d) (hp : p.length = 8) (ho : d.cfg.txn.owner = some src)
    (hs : d.cfg.txn.st ≠ .idle)
    (he : (if d.cfg.txn.st != .ready || d.cfg.txn.pool then d.touchTxn.reply src .invalidInput
      else d.touchTxn.asBg src fun d =>
        let d := d.commitBegun src (fieldAt p 0 8)
        if d.cfg.txn.image.isSome then d.aimed
        else match d.txnBg fun k => k == .commit 0 with
          | some b => d.commitQueue b
          | none => d) = e) :
    Leaves (.commit src p) s e := by
  exact ha.leaves_ownedVend rfl rfl hs ho (fun _ => by omega) (by omega) (by simp [hp]) rfl he

/-- A Commit with an image waits for its slot to be written (R306). -/
theorem Dev.aimed_writing (he : e = (d.commitBegun src (fieldAt p 0 8)).aimed) : d.Sent e (.cci src .backgroundStarted 0 []) ∧
    e.cfg.txn.st = .writing ∧ e.cfg.txn.target = some d.targetSlot ∧ e.cfg.txn.wantStroke = fieldAt p 0 8 := by
  obtain ⟨f, t, l, h⟩ := (d.commitBegun src (fieldAt p 0 8)).setSlotState_freedOnly (d.commitBegun src (fieldAt p 0 8)).targetSlot 2
  rw [he, Dev.aimed, h, Dev.commitBegun_eq]
  exact ⟨Dev.emit_sent _ _, rfl, rfl, rfl⟩

/-- A Commit without an image that alone runs has its activation queued at once (R306). -/
theorem Dev.commitBegun_queued (ha : d.acts.length < 16)
    (he : e = (d.commitBegun src 0).commitQueue { src := src, kind := .commit 0 }) : d.Sent e (.cci src .backgroundStarted 0 []) ∧
      e.cfg.txn.st = .queued ∧ e.acts = d.acts ++ [{ stroke := d.pool + 2, cls := 1, kind := .config }] := by
  have hbegun := d.commitBegun_eq src 0
  obtain ⟨hst, hacts, hout⟩ := Dev.commitQueue_earliest (by rwa [hbegun]) (by rw [hbegun]; rfl) he
  rw [hbegun] at hacts hout
  refine ⟨?_, hst, hacts⟩
  rw [Dev.Sent, hout]
  exact Dev.emit_sent _ _

theorem Dev.commitBegun_runs (hbg : d.cfg.bg = []) (n : Nat) :
    ((d.commitBegun src n).txnBg fun k => k == .commit 0) = some { src := src, kind := .commit 0 } := by
  refine Dev.txnBg_head (bs := []) ?_ rfl rfl rfl
  rw [Dev.commitBegun_eq]
  exact congrArg (· ++ _) hbg

end

/-! ### The slot that a Commit writes -/

theorem Dev.slotState_setSlotState (d : Dev) (n v : Nat) : (d.setSlotState n v).slotState n = if n < 2 then v else 0 := by
  match n with
  | 0 => rfl
  | 1 => rfl
  | n + 2 => simp [Dev.slotState]

/-- A slot that is written and read back changes the NVM and the record of the slot (R306). -/
theorem Dev.readBack_only (d : Dev) (n : Nat) (ok : Bool) :
    ∃ v x, ((d.writeSlot n).readBack n ok).1 = { d with nvm := v, cfg := { d.cfg with slots := x } } := by
  unfold Dev.writeSlot Dev.readBack
  extract_lets len bs m len' bs' good
  exact ⟨_, _, rfl⟩

section
variable {d : Dev} {b : Bg} {bs : List Bg} {n : Nat} {i : Image} (hb : d.cfg.bg = b :: bs) (hr : b.result = none)
  (ha : b.abandoned = false) (hk : b.kind = .commit 0) (ht : d.cfg.txn.target = some n) (hi : d.cfg.txn.image = some i)
include hb hr ha hk ht hi

/-- The write of a slot waits while the NVM may not be written (R289). -/
theorem Dev.commitSlotWritten_waits (hw : d.nvmWritable = false) (ok : Bool) : d.commitSlotWritten ok = d := by
  rw [Dev.commitSlotWritten, Dev.txnBg_head hb hr ha (by rw [hk]; rfl), ht, hi]
  exact if_pos (by simp [hw])

section
variable (hs : d.cfg.txn.st = .writing) (hq : b.queued = false) (hw : d.nvmWritable = true)
include hs hq hw

/-- A slot that does not read back is Discarded, and the Commit ends with its transaction Ready (R306). -/
theorem Dev.commitSlotWritten_unread {ok : Bool} (h : ((d.writeSlot n).readBack n ok).2 = false) : d.commitSlotWritten ok =
    ((((d.writeSlot n).readBack n ok).1.dropTarget .ready).touchTxn).finishBg b .invalidInput := by
  rw [Dev.commitSlotWritten, Dev.txnBg_head hb hr ha (by rw [hk]; rfl), ht, hi]
  dsimp only
  rw [if_neg (by simp [hs, hq, hw]), if_pos (by simp [h])]

/-- A slot that reads back has its activation queued, once the device is primed (R299, R306). -/
theorem Dev.commitSlotWritten_read {ok : Bool} (h : ((d.writeSlot n).readBack n ok).2 = true) (hp : d.prim = .primed) :
    d.commitSlotWritten ok = ((d.writeSlot n).readBack n ok).1.commitQueue b := by
  rw [Dev.commitSlotWritten, Dev.txnBg_head hb hr ha (by rw [hk]; rfl), ht, hi]
  dsimp only
  rw [if_neg (by simp [hs, hq, hw]), if_neg (by simp [h])]
  obtain ⟨v, x, hread⟩ := d.readBack_only n ok
  rw [if_pos (by rw [hread]; exact hp)]

end
end

section
variable {d : Dev} {b : Bg} {n : Nat}

theorem Dev.readBack_failed : (d.readBack n false).2 = false := rfl

/-- A target slot that does not read back is Discarded, and the transaction is Ready without it (R306). -/
theorem Dev.dropTarget_ends {e : Dev} (ht : d.cfg.txn.target = some n) (ha : b.abandoned = false) (hm : b.mute = false)
    (hc : d.coresGone = false) (he : e = ((d.dropTarget .ready).touchTxn).finishBg b .invalidInput) :
    e.cfg.txn.st = .ready ∧ e.cfg.txn.target = none ∧ e.slotState n = (if n < 2 then 3 else 0) ∧ d.Sent e (.cci b.src .invalidInput 0 []) := by
  obtain ⟨f, t, l, h⟩ := d.setSlotState_freedOnly n 3
  have hslot := d.slotState_setSlotState n 3
  rw [Dev.dropTarget, ht] at he
  dsimp only at he
  rw [h] at he hslot
  rw [he, Dev.finishBg_eq ha hm]
  · exact ⟨rfl, rfl, hslot, Dev.emit_sent _ _⟩
  · exact hc
  · exact Nat.zero_le _

end

end Sys2Proof.Machine

namespace Sys2Proof.Machine

open Sys2Proof

/-! ### Timeouts of the transaction -/

section
variable {d : Dev}

/-- A transaction left alone for 30 s ends, with whatever runs for it (R309). -/
theorem Dev.transactionTimeout_due (hs : d.cfg.txn.st = .opened ∨ d.cfg.txn.st = .ready)
    (ht : d.cfg.txn.lastCmd + 30000000 ≤ d.time.loc) :
    d.transactionTimeout.cfg.txn = { num := d.cfg.txn.num } ∧ d.transactionTimeout.Pending 45 := by
  have hidle : ∀ e : Dev, e.cfg.txn = d.cfg.txn →
      (e.txnIdle.raise 45).cfg.txn = { num := d.cfg.txn.num } ∧ (e.txnIdle.raise 45).Pending 45 := by
    intro e he
    obtain ⟨f, t, l, h⟩ := e.txnIdle_freedOnly
    have htxn : e.txnIdle.cfg.txn = { num := e.cfg.txn.num } := by rw [h]; rfl
    exact ⟨by simp [htxn, he], Dev.raise_pending _ 45 _ _ (by decide)⟩
  rw [Dev.transactionTimeout]
  dsimp only
  rw [if_pos (by simpa [ht] using hs)]
  split
  next b _ =>
    obtain ⟨bg, late, o, h⟩ := d.finishBg_only b .aborted 0 []
    exact hidle _ (by rw [h])
  next => exact hidle d rfl

theorem Dev.transactionTimeout_early (ht : d.time.loc < d.cfg.txn.lastCmd + 30000000) (ho : d.ownerGone = false) :
    d.transactionTimeout = d :=
  if_neg (by simp [ho, ht])

theorem Dev.dropTarget_freedOnly (d : Dev) (st : TxnSt) :
    (d.setTxn fun t => { t with st := st, target := none }).FreedOnly (d.dropTarget st) := by
  refine Dev.FreedOnly.setTxn (e := match d.cfg.txn.target with | some n => d.setSlotState n 3 | none => d) ?_ _
  split
  · exact d.setSlotState_freedOnly _ _
  · exact .refl d

/-- What is rolled back of a Stage, a Validate or a Commit is its transaction's state and what the transaction holds (R464). -/
theorem Dev.rollBackTxn_freedOnly (d : Dev) (b : Bg) : ∃ f, (d.setTxn f).FreedOnly (d.rollBackTxn b) := by
  unfold Dev.rollBackTxn
  split
  · exact ⟨_, d.reopen_freedOnly⟩
  · exact ⟨_, d.dropTarget_freedOnly .ready⟩
  · exact ⟨id, .refl d⟩

variable {b : Bg} {bs : List Bg} (hb : d.cfg.bg = b :: bs) (hr : b.result = none) (ha : b.abandoned = false) (hq : b.queued = false)
  (hk : (∃ off data, b.kind = .stage off data) ∨ (b.kind = .validate ∧ d.cfg.txn.pool = true) ∨
    (b.kind = .commit 0 ∧ d.cfg.txn.st = .writing))
include hb hr ha hq hk

/-- The first of the background commands that write the NVM (R289). -/
theorem Dev.nvmWriteTimeout_eq : d.nvmWriteTimeout = if d.nvmWait < 10000000 then d else
    (((if b.kind == .validate then d.setSlotState d.targetSlot 3 else d).rollBackTxn b).touchTxn).finishBg b .retryRequired 0x0105
      (sliceOut (tileSlice 0)) := by
  rw [Dev.nvmWriteTimeout, Dev.txnBg_head hb hr ha]
  · simp only [hq, Bool.or_false, decide_eq_true_eq]
  · rcases hk with ⟨off, data, h⟩ | ⟨h, hp⟩ | ⟨h, hs⟩
    · rw [h]
    · rw [h]; exact hp
    · rw [h]; simp [hs]

/-- A write that has waited for 10 s ends its command with Retry Required (R289). -/
theorem Dev.nvmWriteTimeout_due (hw : 10000000 ≤ d.nvmWait) (hm : b.mute = false) (hc : d.coresGone = false) :
    d.Sent d.nvmWriteTimeout (.cci b.src .retryRequired 0x0105 (leBytes 2 0)) ∧ b ∉ d.nvmWriteTimeout.cfg.bg := by
  have hslot : d.FreedOnly (if b.kind == .validate then d.setSlotState d.targetSlot 3 else d) := by
    split
    · exact d.setSlotState_freedOnly _ _
    · exact .refl d
  rw [Dev.nvmWriteTimeout_eq hb hr ha hq hk, if_neg (by omega)]
  generalize (if b.kind == .validate then d.setSlotState d.targetSlot 3 else d) = d1 at hslot
  obtain ⟨f, t, l, rfl⟩ := hslot
  obtain ⟨g, f', t', l', h⟩ := Dev.rollBackTxn_freedOnly { d with frames := f, tiles := t, led := l } b
  rw [h, Dev.finishBg_eq ha hm]
  · exact ⟨Dev.emit_sent _ _, Dev.not_mem_withoutBg _ b⟩
  · exact hc
  · simp [sliceOut]

end

/-! ### Revert -/

section
variable {src : Src} {p : List Byte} {s : State} {d e : Dev} (ha : Accepted (.revert src p) s src d) (hp : p.length = 9)
  (hpool : fieldAt p 8 1 < 2)
include ha hp hpool

/-- A Revert that meets a transaction or a decision, or a pool Revert at another device than the root, is refused (R302, R313). -/
theorem Accepted.leaves_revert_busy (h : d.cfg.txn.st ≠ .idle ∨ d.decisionOpen = true) :
    Leaves (.revert src p) s (d.reply src .busy 0x0104 d.busyOut) := by
  refine ha.leaves_vend rfl rfl (by omega) (by simp [hp]) (by simp [hpool]) ?_
  exact if_pos (by simpa using h)

section
variable (hs : d.cfg.txn.st = .idle) (hd : d.decisionOpen = false)
include hs hd

theorem Accepted.leaves_revert_notRoot (h1 : fieldAt p 8 1 = 1) (hr : d.isRoot = false) :
    Leaves (.revert src p) s (d.reply src .invalidInput) := by
  refine ha.leaves_vend rfl rfl (by omega) (by simp [hp]) (by simp [hpool]) ?_
  exact (if_neg (by simp [hs, hd])).trans (if_pos (by simp [h1, hr]))

section
variable (h0 : fieldAt p 8 1 = 0) (hbg : d.bgRuns src = false)
include h0 hbg

/-- A Revert of the device alone that finds no previous image is refused (R302). -/
theorem Accepted.leaves_revert_noImage (hn : (d.findPrev false).2 = none) :
    Leaves (.revert src p) s ((d.findPrev false).1.reply src .invalidInput) := by
  refine ha.leaves_vend rfl rfl (by omega) (by simp [hp]) (by simp [hpool]) ?_
  have hno : (fieldAt p 8 1 == 1) = false := by simp [h0]
  dsimp only
  rw [hno, if_neg (by simp [hs, hd]), if_neg (by simp), Dev.asBg_free hbg]
  generalize d.findPrev false = q at hn
  obtain ⟨f, o⟩ := q
  obtain rfl : o = none := hn
  rfl

/-- A Revert of the device alone queues the previous image (R302). -/
theorem Accepted.leaves_revert_queued {n : Nat} {i : Image} (hf : (d.findPrev false).2 = some (n, i))
    (hq : (d.findPrev false).1.queueAct ((d.findPrev false).1.wanted (fieldAt p 0 8)) 1 .toSlot = .ok e) :
    Leaves (.revert src p) s (Dev.startBg { e with cfg := { e.cfg with toSlot := some (n, i, true) } } src
      (.revert ((d.findPrev false).1.wanted (fieldAt p 0 8)) i.version) true) := by
  refine ha.leaves_vend rfl rfl (by omega) (by simp [hp]) (by simp [hpool]) ?_
  have hno : (fieldAt p 8 1 == 1) = false := by simp [h0]
  dsimp only
  rw [hno, if_neg (by simp [hs, hd]), if_neg (by simp), Dev.asBg_free hbg]
  generalize d.findPrev false = q at hf hq
  obtain ⟨f, o⟩ := q
  obtain rfl : o = some (n, i) := hf
  dsimp only at hq ⊢
  rw [if_neg Bool.false_ne_true, hq]

end
end
end

/-- Settles O29: Commit and Revert are their gates and one conditional, a slot that is written reads back or not, and a timeout is due or
not. -/
theorem commitAndRevertQueueActivations : Obligations.CommitAndRevertQueueActivations := by
  refine ⟨⟨?commit, ?slot, ?timeout, ?nvm⟩, ?revert⟩
  case commit =>
    intro src p s d ha hp ho
    refine ⟨fun h hs => .of_leaves (ha.leaves_commit hp ho hs (if_pos ?_)) ?_,
      fun hs hpool hbg hi => .of_leaves (ha.leaves_commit hp ho (by simp [hs]) rfl) ?_,
      fun hs hpool hbg hi hacts hw => .of_leaves (ha.leaves_commit hp ho (by simp [hs]) rfl) ?_⟩
    · rcases h with h | h <;> simp [h]
    · rw [Dev.reply_of_fits src (Nat.zero_le _)]
      exact ⟨Dev.emit_sent _ _, rfl, rfl⟩
    · rw [if_neg (by simp [hs, hpool]), Dev.asBg_free (d := d.touchTxn) hbg]
      have himg : (d.touchTxn.commitBegun src (fieldAt p 0 8)).cfg.txn.image.isSome = true := by rw [Dev.commitBegun_eq]; exact hi
      dsimp only
      rw [if_pos himg]
      exact Dev.aimed_writing (d := d.touchTxn) rfl
    · have hbg : d.touchTxn.cfg.bg = [] := hbg
      have hnone : (d.touchTxn.commitBegun src 0).cfg.txn.image = none := by rw [Dev.commitBegun_eq]; exact hi
      rw [if_neg (by simp [hs, hpool]), Dev.asBg_free (by simp [Dev.bgRuns, hbg]), hw]
      dsimp only
      rw [hnone, Dev.commitBegun_runs hbg]
      exact Dev.commitBegun_queued (d := d.touchTxn) hacts rfl
  case slot =>
    intro s b bs n i hb hr ha hk ht hi hs hq
    refine ⟨fun ok hw => .of_done rfl (Dev.commitSlotWritten_waits hb hr ha hk ht hi hw ok), fun hw hm hc => .of_done rfl ?_,
      fun hw hp hacts hwant hread => .of_done rfl ?_⟩
    · obtain ⟨v, x, h⟩ := s.dev.readBack_only n false
      rw [Dev.commitSlotWritten_unread hb hr ha hk ht hi hs hq hw Dev.readBack_failed, h]
      exact Dev.dropTarget_ends (d := { s.dev with nvm := v, cfg := { s.dev.cfg with slots := x } }) ht ha hm hc rfl
    · obtain ⟨v, x, h⟩ := s.dev.readBack_only n true
      rw [Dev.commitSlotWritten_read hb hr ha hk ht hi hs hq hw hread hp, h]
      obtain ⟨hst, hqueue, -⟩ :=
        Dev.commitQueue_earliest (d := { s.dev with nvm := v, cfg := { s.dev.cfg with slots := x } }) (b := b) hacts hwant rfl
      exact ⟨hst, hqueue⟩
  case timeout =>
    exact fun s hs => ⟨fun ht => .of_done rfl (Dev.transactionTimeout_due hs ht),
      fun ht ho => .of_done rfl (Dev.transactionTimeout_early ht ho)⟩
  case nvm =>
    intro s b bs hb hr ha hq hk
    refine ⟨fun hw => .of_done rfl ?_, fun hw hm hc => .of_done rfl (Dev.nvmWriteTimeout_due hb hr ha hq hk hw hm hc)⟩
    exact (Dev.nvmWriteTimeout_eq hb hr ha hq hk).trans (if_pos hw)
  case revert =>
    intro src p s d ha hp hpool
    exact ⟨ha.leaves_revert_busy hp hpool, ha.leaves_revert_notRoot hp hpool, fun hs hd h0 hbg =>
      ⟨ha.leaves_revert_noImage hp hpool hs hd h0 hbg, fun n i e => ha.leaves_revert_queued hp hpool hs hd h0 hbg⟩⟩

end Sys2Proof.Machine

namespace Sys2Proof.Machine

open Sys2Proof

/-! ### What an event leaves of the root's decision -/

/-- The root's decision as the ledger holds it (R311). -/
def Ledger.decided (l : Ledger) : Nat × BitVec 32 × BitVec 64 × Nat := (l.decision, l.decVer, l.decDigest, l.decStroke)

theorem foldl_fst_rel {α β : Type} {R : Dev → Dev → Prop} (hr : ∀ d, R d d) (ht : ∀ a b c, R a b → R b c → R a c)
    {f : Dev × β → α → Dev × β} (hf : ∀ p x, R p.1 (f p x).1) (xs : List α) (p : Dev × β) : R p.1 (xs.foldl f p).1 := by
  induction xs generalizing p with
  | nil => exact hr _
  | cons x xs ih => exact ht _ _ _ (hf p x) (ih _)

section
variable (d : Dev)

theorem Dev.logPost_led (n : Nat) (l : LogId) (r : EvRec) : (d.logPost n l r).1.led = d.led := by
  unfold Dev.logPost
  extract_lets k g
  (repeat' split) <;> rfl

theorem Dev.post_led (n : Nat) (l : LogId) (r : EvRec) : (d.post n l r).1.led = d.led := by
  unfold Dev.post
  split
  · (repeat' split) <;> rfl
  · extract_lets new r2 c d2 x
    have hx : x.1.led = d2.led := d2.logPost_led n l r2
    have h2 : d2.led = d.led := by
      unfold d2
      split <;> rfl
    split <;> exact hx.trans h2

theorem Dev.postAll_led (ns : List Nat) (l : LogId) (r : EvRec) : (d.postAll ns l r).1.led = d.led := by
  unfold Dev.postAll
  refine foldl_fst_rel (R := fun d e => e.led = d.led) (fun _ => rfl) (fun _ _ _ h g => g.trans h) (fun p n => ?_) ns (d, [])
  exact p.1.post_led n l r

theorem Dev.countEv_led (n : Nat) : (d.countEv n).1.led = d.led := by
  refine foldl_fst_rel (R := fun d e => e.led = d.led) (fun _ => rfl) (fun _ _ _ h g => g.trans h) (fun p k => ?_) _ (d, [])
  dsimp only
  split <;> rfl

/-- A journal record is written beside the decision, or waits (R401, R402). -/
theorem Dev.journal_decided (r : JRec) : (d.journal r).1.led.decided = d.led.decided := by
  unfold Dev.journal
  split
  · extract_lets note
    (repeat' split) <;> rfl
  · rfl

theorem Dev.raise1_decided (n : Nat) (i : EvInfo) : (d.raise1 n i).1.led.decided = d.led.decided := by
  unfold Dev.raise1
  split
  · rfl
  · extract_lets first
    have h1 : ((d.setPend n).countEv n).1.led = d.led := (d.setPend n).countEv_led n
    split
    rename_i d1 c h
    rw [h] at h1
    extract_lets e2 d2 r rt heads dests
    have h3 : (d2.postAll dests (evLog n) r).1.led = d.led := (d2.postAll_led _ _ _).trans h1
    split
    rename_i d3 x h4
    rw [h4] at h3
    have h5 : d3.led.decided = d.led.decided := congrArg Ledger.decided h3
    split
    · exact h5
    · split
      · split
        rename_i d4 y h6
        have h7 : (d4, y).1.led.decided = d3.led.decided := h6 ▸ d3.journal_decided _
        exact h7.trans h5
      · exact h5

/-- Raising an event leaves the root's decision as the ledger holds it. -/
theorem Dev.raise_decided (n a b : Nat) : (d.raise n a b).led.decided = d.led.decided := by
  unfold Dev.raise
  rw [Dev.raiseI_eq]
  exact (forAll_rel (R := fun d e => e.led.decided = d.led.decided) (fun _ => rfl) (fun _ _ _ h g => g.trans h)
    (fun d (m : Nat × EvInfo) => d.raise1_decided m.1 m.2) _ _).trans (d.raise1_decided n _)

end

/-! ### What a message to another device leaves -/

/-- From `d` to `e` messages have gone out, or events tell that they could not: the configuration, the activation queue, the time and the
root's decision are as they were, no pending bit is cleared, and what was sent stays sent. -/
structure Dev.Messaged (d e : Dev) : Prop where
  cfg : e.cfg = d.cfg
  acts : e.acts = d.acts
  time : e.time = d.time
  decided : e.led.decided = d.led.decided
  pend : ∀ n, d.Pending n → e.Pending n
  out : d.out <+: e.out

namespace Dev.Messaged

theorem trans {a b c : Dev} (h : a.Messaged b) (g : b.Messaged c) : a.Messaged c :=
  ⟨g.cfg.trans h.cfg, g.acts.trans h.acts, g.time.trans h.time, g.decided.trans h.decided, fun n hn => g.pend n (h.pend n hn),
    h.out.trans g.out⟩

theorem of_castOnly {d e : Dev} (h : d.CastOnly e) : d.Messaged e := by
  obtain ⟨c, o, rfl⟩ := h
  exact ⟨rfl, rfl, rfl, rfl, fun _ hn => hn, List.prefix_append _ _⟩

theorem raise (d : Dev) (n a b : Nat) : d.Messaged (d.raise n a b) := by
  have h := d.raise_raised n a b
  exact ⟨by simp, by simp, by simp, d.raise_decided n a b, h.pend, h.out⟩

theorem devId {d e : Dev} (h : d.Messaged e) : e.devId = d.devId := by
  simp only [Dev.devId, Dev.fld, Dev.cfgReg, h.cfg]

theorem poolNow {d e : Dev} (h : d.Messaged e) : e.poolNow = d.poolNow := by
  rw [Dev.poolNow, h.cfg, Dev.poolNow]

end Dev.Messaged

theorem Dev.send_messaged (d : Dev) (op : Nat) (m : Msg) : d.Messaged (d.send op m) := by
  have hroute : ∀ f, d.CastOnly (d.setRoute m.dest f) := fun f => ⟨(d.setRoute m.dest f).cas, [], by rw [List.append_nil]; rfl⟩
  unfold Dev.send Dev.sendTo
  split
  · exact .of_castOnly (hroute _)
  · split
    · exact .of_castOnly ((hroute _).trans (Dev.sendOn_castOnly _ _ _ _))
    · exact (Dev.Messaged.of_castOnly (hroute fun r => { r with unreach := true })).trans (.raise _ 156 (tileSlice 1) 0)

/-- An acknowledgement goes to the broadcast's originator (R270). -/
theorem Dev.ack_messaged (d : Dev) (k : Nat) (b : Bcast) (st sl : Nat) (v : BitVec 32) : d.Messaged (d.ack k b st sl v) ∧
    d.Sent (d.ack k b st sl v) (.bcastAck b.src
      { kind := k, member := d.devId, epoch := b.epoch, bseq := b.bseq, status := st, slice := sl, ver := v }) := by
  have hsend := fun a m => Dev.send_messaged (d.emit (.bcastAck b.src a)) 0x44 m
  exact ⟨(Dev.Messaged.of_castOnly (.emit d _)).trans (hsend _ _), Dev.Sent.of_emit (hsend _ _).out⟩

/-- A Configuration Pull goes to a device (R314). -/
theorem Dev.pullMsgTo_messaged (d : Dev) (dest : Nat) (q : PullMsg) :
    d.Messaged (d.pullMsgTo dest q) ∧ d.Sent (d.pullMsgTo dest q) (.pull dest q) := by
  have hsend := fun m => Dev.send_messaged (d.emit (.pull dest q)) 0x47 m
  exact ⟨(Dev.Messaged.of_castOnly (.emit d _)).trans (hsend _), Dev.Sent.of_emit (hsend _).out⟩

end Sys2Proof.Machine

namespace Sys2Proof.Machine

open Sys2Proof

/-! ### Pool Commit -/

/-- The root's decision on the image of its transaction begins (R311). -/
def Dev.poolBegun (d : Dev) (src : Src) (v : BitVec 32) (g : BitVec 64) : Dev :=
  (d.setRoot fun _ => { phase := 1, src := some src, ver := v, digest := g }).startBg src .poolCommit

section
variable {src : Src} {s : State} {d : Dev} (ha : Accepted (.poolCommit src []) s src d)
include ha

/-- Pool Commit at another device than the root, or without a Ready pool transaction, is refused (R311). -/
theorem Accepted.leaves_poolCommit_refused
    (h : d.isRoot = false ∨ d.cfg.txn.st ≠ .ready ∨ d.cfg.txn.pool = false ∨ d.txnTag = none) :
    Leaves (.poolCommit src []) s (d.reply src .invalidInput 0x0102) := by
  refine ha.leaves_vend rfl rfl (Nat.zero_le _) rfl rfl (if_pos ?_)
  rcases h with h | h | h | h <;> simp [h]

/-- Pool Commit of the root's Ready pool transaction begins its decision (R311). -/
theorem Accepted.leaves_poolCommit_begun {v : BitVec 32} {g : BitVec 64} (hroot : d.isRoot = true) (hs : d.cfg.txn.st = .ready)
    (hpool : d.cfg.txn.pool = true) (ht : d.txnTag = some (v, g)) (hphase : d.cfg.root.phase = 0) (hbg : d.bgRuns src = false) :
    Leaves (.poolCommit src []) s (d.poolBegun src v g) := by
  refine ha.leaves_vend rfl rfl (Nat.zero_le _) rfl rfl ((if_neg ?_).trans ((if_neg ?_).trans ((Dev.asBg_free hbg).trans ?_)))
  · simp [hroot, hs, hpool, ht]
  · simp [hphase]
  · rw [ht]
    rfl

end

/-! ### Members that hear the root -/

/-- A member that hears a pool broadcast knows the root by it (R311). -/
def Dev.knowsRoot (d : Dev) (b : Bcast) : Dev := d.setMember fun m => { m with rootId := some b.src }

theorem Dev.Messaged.sent {a b c : Dev} {o : Out} (h : a.Messaged b) (g : b.Sent c o) : a.Sent c o := by
  obtain ⟨x, hx⟩ := h.out
  obtain ⟨y, z, hy⟩ := g
  exact ⟨x ++ y, z, by rw [hy, ← hx, List.append_assoc a.out x y]⟩

section
variable (d : Dev) (f : PoolMember → PoolMember)

theorem Dev.record1_setMember : (d.setMember f).record1 = d.record1 := by rfl

theorem Dev.walk_setMember (bs : List Byte) (fw : Bool) (stop n off : Nat) (w : Walk) :
    (d.setMember f).walk bs fw stop n off w = d.walk bs fw stop n off w := by
  induction n generalizing off w with
  | zero => rfl
  | succ n ih => simp only [Dev.walk, ih, Dev.record1_setMember]

theorem Dev.checkRecords_setMember (bs : List Byte) (h : Header) : (d.setMember f).checkRecords bs h = d.checkRecords bs h := by
  simp only [Dev.checkRecords, Dev.walk_setMember]

/-- What is Pending does not depend on the member's record of the pool (R315). -/
theorem Dev.pendingSlot_setMember : (d.setMember f).pendingSlot = d.pendingSlot := by
  have hstate : (d.setMember f).slotState = d.slotState := by rfl
  have hheader : (d.setMember f).headerAt = d.headerAt := by rfl
  have hbytes : (d.setMember f).nvmBytes = d.nvmBytes := by rfl
  simp only [Dev.pendingSlot, hstate, hheader, hbytes, Dev.checkRecords_setMember]

end

section
variable {d e : Dev} {p k : Nat} {b : Bcast} {f : Dev → Dev}

theorem Dev.hearPool_unheard (h : d.hear p k b = none) : d.hearPool p k b f = d := by
  rw [Dev.hearPool, h]

theorem Dev.hearPool_heard (h : d.hear p k b = some e) (hc : e.coresGone = false) : d.hearPool p k b f = f (e.knowsRoot b) := by
  rw [Dev.hearPool, h]
  exact if_neg (by simp [hc])

/-- A pool broadcast on a port that is not Up is lost (R270). -/
theorem Dev.poolBroadcast_down (h : d.portUp p = false) :
    d.poolPrepare p b = d ∧ d.poolCommitBroadcast p b = d ∧ d.poolAbort p b = d ∧ d.poolRevert p b = d :=
  have hnone := Dev.hear_of_down (b := b) h
  ⟨Dev.hearPool_unheard (hnone 3), Dev.hearPool_unheard (hnone 4), Dev.hearPool_unheard (hnone 5), Dev.hearPool_unheard (hnone 6)⟩

/-! ### Pool Prepare -/

/-- The member that votes for what it has validated (R311). -/
def Dev.voted (d : Dev) (b : Bcast) : Dev :=
  ((d.knowsRoot b).setTxn fun t => { t with st := .voted }).setMember fun m => { m with votedAt := d.time.loc }

section
variable (h : d.hear p 3 b = some e) (hc : e.coresGone = false)
include h hc

theorem Dev.poolPrepare_votes (hs : e.cfg.txn.st = .ready) (hp : e.cfg.txn.pool = true) (ht : e.txnTag = some (b.ver, b.digest)) :
    d.poolPrepare p b = (e.voted b).ack 3 b 0 0 e.poolNow.1 := by
  rw [Dev.poolPrepare, Dev.hearPool_heard h hc]
  exact (if_pos ⟨hs, hp⟩).trans (if_pos ht)

theorem Dev.poolPrepare_notReady (hs : e.cfg.txn.st ≠ .ready ∨ e.cfg.txn.pool = false) :
    d.poolPrepare p b = (e.knowsRoot b).ack 3 b 1 0 e.poolNow.1 := by
  rw [Dev.poolPrepare, Dev.hearPool_heard h hc]
  refine if_neg ?_
  rintro ⟨hst, hp⟩
  rcases hs with hs | hs
  · exact hs hst
  · exact Bool.false_ne_true (hs.symm.trans hp)

end

/-! ### The broadcast of Pool Commit -/

/-- The member whose activation is queued for `n` by the Commit that it is told, with the status that it acknowledges (R312). -/
def Dev.commitTold (d : Dev) (b : Bcast) (n st : Nat) : Dev :=
  (({ d.knowsRoot b with acts := d.acts ++ [{ stroke := n, cls := 1, kind := .config }] } : Dev).setTxn fun t =>
    { t with st := .queued }).setMember fun m => { m with lastAck := some (b.ver, b.act.toNat, st) }

theorem Dev.ackedBefore_knowsRoot (hl : e.cfg.member.lastAck = none) : (e.knowsRoot b).ackedBefore b = none := by
  have hnone : (e.knowsRoot b).cfg.member.lastAck = none := hl
  rw [Dev.ackedBefore, hnone]

section
variable (h : d.hear p 4 b = some e) (hc : e.coresGone = false) (hl : e.cfg.member.lastAck = none)
include h hc hl

section
variable (hs : e.cfg.txn.st = .voted) (ht : e.txnTag = some (b.ver, b.digest)) (ha : e.acts.length < 16)
include hs ht ha

theorem Dev.poolCommitBroadcast_early (hn : e.pool + 2 ≤ b.act.toNat) :
    d.poolCommitBroadcast p b = (e.commitTold b b.act.toNat 0).ack 4 b 0 0 e.poolNow.1 := by
  have hlate : decide (b.act.toNat < (e.knowsRoot b).earliest) = false := decide_eq_false (Nat.not_lt.mpr hn)
  have hqueue := Dev.queueAct_ok (d := e.knowsRoot b) (cls := 1) (k := .config) hn ha
  rw [Dev.poolCommitBroadcast, Dev.hearPool_heard h hc]
  dsimp only
  rw [Dev.ackedBefore_knowsRoot hl, hlate]
  dsimp only
  rw [if_pos ⟨hs, ht⟩, if_neg Bool.false_ne_true, hqueue]
  rfl

theorem Dev.poolCommitBroadcast_late (hn : b.act.toNat < e.pool + 2) :
    d.poolCommitBroadcast p b = ((e.commitTold b (e.pool + 2) 1).raise 47).ack 4 b 1 0 e.poolNow.1 := by
  have hlate : decide (b.act.toNat < (e.knowsRoot b).earliest) = true := decide_eq_true hn
  have hqueue := Dev.queueAct_ok (d := e.knowsRoot b) (n := (e.knowsRoot b).earliest) (cls := 1) (k := .config) le_rfl ha
  rw [Dev.poolCommitBroadcast, Dev.hearPool_heard h hc]
  dsimp only
  rw [Dev.ackedBefore_knowsRoot hl, hlate]
  dsimp only
  rw [if_pos ⟨hs, ht⟩, if_pos rfl, hqueue]
  rfl

end

theorem Dev.poolCommitBroadcast_unknown (hs : e.cfg.txn.st ≠ .voted) (hn : e.poolNow ≠ (b.ver, b.digest)) :
    d.poolCommitBroadcast p b = (e.knowsRoot b).ack 4 b 2 0 e.poolNow.1 := by
  rw [Dev.poolCommitBroadcast, Dev.hearPool_heard h hc]
  dsimp only
  rw [Dev.ackedBefore_knowsRoot hl]
  exact (if_neg fun hv => hs hv.1).trans (if_neg hn)

end

/-! ### Pool Abort and Pool Revert -/

theorem Dev.poolAbort_ends (h : d.hear p 5 b = some e) (hc : e.coresGone = false) (hs : e.cfg.txn.st = .voted ∨ e.cfg.txn.st = .ready)
    (hp : e.cfg.txn.pool = true) (ht : e.txnTag = some (b.ver, b.digest)) : (d.poolAbort p b).cfg.txn = { num := e.cfg.txn.num } := by
  have htag : (e.knowsRoot b).txnTag = some (b.ver, b.digest) := ht
  have hst : (e.knowsRoot b).cfg.txn.st = .voted ∨ (e.knowsRoot b).cfg.txn.st = .ready := hs
  have hpool : (e.knowsRoot b).cfg.txn.pool = true := hp
  obtain ⟨f, t, l, hidle⟩ := (e.knowsRoot b).txnIdle_freedOnly
  rw [Dev.poolAbort, Dev.hearPool_heard h hc, if_pos (by simpa [htag, hpool] using hst), hidle]
  rfl

section
variable (h : d.hear p 6 b = some e) (hc : e.coresGone = false)
include h hc

/-- A Revert from and to images that the member does not hold is not followed (R313). -/
theorem Dev.poolRevert_lost (hn : e.poolNow ≠ (b.ver, b.digest)) (ht : e.poolNow ≠ (b.targetVer, b.targetDigest)) :
    d.poolRevert p b = ((e.knowsRoot b).raise 46).ack 6 b 2 0 e.poolNow.1 := by
  rw [Dev.poolRevert, Dev.hearPool_heard h hc]
  exact (if_neg hn).trans (if_neg ht)

/-- A Revert to the image in force, with nothing Pending, is acknowledged (R313). -/
theorem Dev.poolRevert_reached (hn : e.poolNow ≠ (b.ver, b.digest)) (ht : e.poolNow = (b.targetVer, b.targetDigest))
    (hp : e.pendingSlot = none) : d.poolRevert p b = (e.knowsRoot b).ack 6 b 0 0 e.poolNow.1 := by
  have hdrop : (e.knowsRoot b).dropPending (b.ver, b.digest) = e.knowsRoot b := by
    rw [Dev.dropPending, Dev.knowsRoot, Dev.pendingSlot_setMember, hp]
  rw [Dev.poolRevert, Dev.hearPool_heard h hc]
  exact (if_neg hn).trans ((if_pos ht).trans (by rw [hdrop]; rfl))

/-- A Revert of the image in force queues the previous one (R313). -/
theorem Dev.poolRevert_queued {g : Dev} {n : Nat} {i : Image} (hn : (e.knowsRoot b).poolNow = (b.ver, b.digest))
    (hf : (e.knowsRoot b).findPrev true = (g, some (n, i))) (ha : g.pool + 2 ≤ b.act.toNat) (hl : g.acts.length < 16) :
    d.poolRevert p b = ({ g with acts := g.acts ++ [{ stroke := b.act.toNat, cls := 1, kind := .toSlot }],
                                 cfg := { g.cfg with toSlot := some (n, i, true) } } : Dev).ack 6 b 0 0 g.poolNow.1 := by
  have hlate : decide (b.act.toNat < g.earliest) = false := decide_eq_false (Nat.not_lt.mpr ha)
  rw [Dev.poolRevert, Dev.hearPool_heard h hc, if_pos hn, hf]
  dsimp only
  rw [hlate, if_neg Bool.false_ne_true, Dev.queueAct_ok ha hl]
  rfl

end
end

/-! ### The root's windows -/

/-- The end of a Pool Commit changes what runs in the background and what is sent, and nothing else. -/
theorem Dev.endPoolCmd_only (d : Dev) (r : Ret) (ext : Nat) (out : List Byte) : ∃ bg late o,
    d.endPoolCmd r ext out = { d with cfg := { d.cfg with bg := bg, lateAborts := late }, out := d.out ++ o } := by
  unfold Dev.endPoolCmd
  split
  · exact d.finishBg_only _ r ext out
  · exact ⟨d.cfg.bg, d.cfg.lateAborts, [], by rw [List.append_nil]⟩

/-- The root that aborts decides nothing more, its transaction is Ready again, and its ledger holds the abort (R311). -/
theorem Dev.rootAbort_aborted {d : Dev} {cause m : Nat} (hs : d.cfg.txn.st = .voted) :
    (d.rootAbort cause m).cfg.root.phase = 0 ∧ (d.rootAbort cause m).cfg.txn.st = .ready ∧ (d.rootAbort cause m).led.decision = 2 ∧
      (d.rootAbort cause m).led.decVer = d.cfg.root.ver := by
  unfold Dev.rootAbort
  extract_lets r b d1 d2
  obtain ⟨c, o, h⟩ : d.CastOnly d1 := d.broadcast_castOnly 5 _
  have hst : d1.cfg.txn.st = .voted := (congrArg (fun e : Dev => e.cfg.txn.st) h).trans hs
  exact ⟨rfl, congrArg Txn.st (if_pos hst), rfl, rfl⟩

section
variable {d : Dev} {m : Nat}

theorem Dev.voteWindowExpiry_idle (h : d.coresGone = true ∨ d.pool < d.cfg.root.startP + d.voteWin) : d.voteWindowExpiry = d := by
  refine if_neg ?_
  rintro ⟨-, hc, hp⟩
  rcases h with h | h
  · simp [h] at hc
  · exact Nat.not_lt.mpr hp h

theorem Dev.voteWindowExpiry_aborts (hphase : d.cfg.root.phase = 2) (hm : d.members.find? (fun m => !d.cfg.root.yes.contains m) = some m)
    (hc : d.coresGone = false) (hp : d.cfg.root.startP + d.voteWin ≤ d.pool) :
    d.voteWindowExpiry = (d.rootAbort 2 m).endPoolCmd .retryRequired 0x0105 (poolOut 1 2 m 0) := by
  refine (if_pos ⟨hphase, by simp [hc], hp⟩).trans ?_
  rw [hm]

theorem Dev.commitWaitExpiry_idle (h : d.coresGone = true ∨ d.pool < d.cfg.root.actS + d.commitWait) : d.commitWaitExpiry = d := by
  refine if_neg ?_
  rintro ⟨-, hc, hp⟩
  rcases h with h | h
  · simp [h] at hc
  · omega

theorem Dev.commitWaitExpiry_reverts (hphase : d.cfg.root.phase = 3) (hm : d.members.find? (fun m => !d.cfg.root.acks.contains m) = some m)
    (hc : d.coresGone = false) (ha : d.cfg.root.actS + d.commitWait ≤ d.pool) (hs : d.cfg.root.startP + d.commitWait ≤ d.pool) :
    d.commitWaitExpiry = d.setRoot fun r => { r with phase := 4, named := m } := by
  refine (if_pos ⟨hphase, by simp [hc], by omega⟩).trans ?_
  rw [hm]

end

/-- Settles O30: a member that hears the root takes the branch that its transaction and its tags name and acknowledges it, and the root's
windows are one conditional each. -/
theorem poolDecisions : Obligations.PoolDecisions := by
  refine ⟨⟨?commit, ?prepare, ?down, ?vote⟩, ?told, ?abort, ?lost, ?reached, ?revert, ?wait⟩
  case commit =>
    exact fun src s d ha => ⟨ha.leaves_poolCommit_refused, fun v g hr hs hp ht h0 hbg => ha.leaves_poolCommit_begun hr hs hp ht h0 hbg⟩
  case prepare =>
    intro p b s d h hc
    refine ⟨fun hs hp ht => .of_done (congrArg s.done (Dev.poolPrepare_votes h hc hs hp ht)) ?_,
      fun hs => .of_done (congrArg s.done (Dev.poolPrepare_notReady h hc hs)) ?_⟩
    · obtain ⟨hm, hsent⟩ := (d.voted b).ack_messaged 3 b 0 0 d.poolNow.1
      rw [hm.cfg]
      exact ⟨rfl, rfl, rfl, hsent⟩
    · obtain ⟨hm, hsent⟩ := (d.knowsRoot b).ack_messaged 3 b 1 0 d.poolNow.1
      rw [hm.cfg]
      exact ⟨rfl, hsent⟩
  case down =>
    intro p b s c hmem hp
    obtain ⟨hprepare, hcommit, habort, hrevert⟩ := Dev.poolBroadcast_down (b := b) hp
    simp only [List.mem_cons, List.not_mem_nil, or_false] at hmem
    rcases hmem with rfl | rfl | rfl | rfl
    · exact .of_done rfl hprepare
    · exact .of_done rfl hcommit
    · exact .of_done rfl habort
    · exact .of_done rfl hrevert
  case vote =>
    intro s m hphase hm
    refine ⟨fun hc => .of_done rfl (Dev.voteWindowExpiry_idle (.inl hc)), fun hp => .of_done rfl (Dev.voteWindowExpiry_idle (.inr hp)),
      fun hc hp hs => .of_done (congrArg s.done (Dev.voteWindowExpiry_aborts hphase hm hc hp)) ?_⟩
    obtain ⟨bg, late, o, h⟩ := (s.dev.rootAbort 2 m).endPoolCmd_only .retryRequired 0x0105 (poolOut 1 2 m 0)
    rw [h]
    exact Dev.rootAbort_aborted hs
  case told =>
    intro p b s d h hc hl
    refine ⟨fun hs ht hn ha => .of_done (congrArg s.done (Dev.poolCommitBroadcast_early h hc hl hs ht ha hn)) ?_,
      fun hs ht hn ha => .of_done (congrArg s.done (Dev.poolCommitBroadcast_late h hc hl hs ht ha hn)) ?_,
      fun hs hn => .of_done (congrArg s.done (Dev.poolCommitBroadcast_unknown h hc hl hs hn)) ?_⟩
    · obtain ⟨hm, hsent⟩ := (d.commitTold b b.act.toNat 0).ack_messaged 4 b 0 0 d.poolNow.1
      rw [hm.cfg, hm.acts]
      exact ⟨rfl, rfl, rfl, hsent⟩
    · have hr := Dev.Messaged.raise (d.commitTold b (d.pool + 2) 1) 47 0 0
      obtain ⟨hm, -⟩ := ((d.commitTold b (d.pool + 2) 1).raise 47).ack_messaged 4 b 1 0 d.poolNow.1
      rw [hm.cfg, hm.acts, hr.cfg, hr.acts]
      exact ⟨rfl, hm.pend 47 (Dev.raise_pending _ 47 0 0 (by decide)), rfl⟩
    · obtain ⟨hm, hsent⟩ := (d.knowsRoot b).ack_messaged 4 b 2 0 d.poolNow.1
      rw [hm.acts]
      exact ⟨rfl, hsent⟩
  case abort => exact fun p b s d h hc hs hp ht => .of_done rfl (Dev.poolAbort_ends h hc hs hp ht)
  case lost =>
    intro p b s d h hc hn ht
    have hr := Dev.Messaged.raise (d.knowsRoot b) 46 0 0
    obtain ⟨hm, hsent⟩ := ((d.knowsRoot b).raise 46).ack_messaged 6 b 2 0 d.poolNow.1
    refine .of_done (congrArg s.done (Dev.poolRevert_lost h hc hn ht)) ⟨hm.pend 46 (Dev.raise_pending _ 46 0 0 (by decide)), ?_, ?_⟩
    · rw [hm.acts, hr.acts]
      rfl
    · rw [hr.devId] at hsent
      exact hr.sent hsent
  case reached =>
    intro p b s d h hc hn ht hp
    obtain ⟨hm, hsent⟩ := (d.knowsRoot b).ack_messaged 6 b 0 0 d.poolNow.1
    refine .of_done (congrArg s.done (Dev.poolRevert_reached h hc hn ht hp)) ⟨?_, hsent⟩
    rw [hm.acts]
    rfl
  case revert =>
    intro p b s d e f n i h hc he hn hf ha hl
    subst he
    refine .of_done (congrArg s.done (Dev.poolRevert_queued h hc hn hf ha hl)) ?_
    obtain ⟨hm, hsent⟩ := ({ f with acts := f.acts ++ [{ stroke := b.act.toNat, cls := 1, kind := .toSlot }],
                                    cfg := { f.cfg with toSlot := some (n, i, true) } } : Dev).ack_messaged 6 b 0 0 f.poolNow.1
    rw [hm.cfg, hm.acts]
    exact ⟨rfl, rfl, hsent⟩
  case wait =>
    intro s m hphase hm
    exact ⟨fun hc => .of_done rfl (Dev.commitWaitExpiry_idle (.inl hc)),
      fun hc ha hs => .of_done rfl (Dev.commitWaitExpiry_reverts hphase hm hc ha hs),
      fun hp => .of_done rfl (Dev.commitWaitExpiry_idle (.inr hp))⟩

end Sys2Proof.Machine

namespace Sys2Proof.Machine

open Sys2Proof

/-! ### Configuration Pull at the root -/

/-- The root's answer to a Configuration Pull: its decision and the configuration in force (R314). -/
def Dev.pullAnswer (d : Dev) : PullMsg :=
  { src := d.devId, kind := 2, outcome := d.led.decision, ver := d.led.decVer, digest := d.led.decDigest, pendVer := 0#32,
    pendDigest := 0#64, act := BitVec.ofNat 64 d.led.decStroke, rootVer := d.poolNow.1, rootDigest := d.poolNow.2 }

/-- The root reverts for the member that pulls (R314). -/
def Dev.revertFor (d : Dev) (q : PullMsg) : Dev :=
  d.setRoot fun r => { r with phase := 4, named := q.src, ver := d.led.decVer, digest := d.led.decDigest }

/-- The root still reverts for a member: it has committed, COMMIT_WAIT has not ended, and no Revert is under way (R314). -/
def Dev.revertOpen (d : Dev) : Bool :=
  d.led.decision == 1 && decide (d.pool ≤ d.led.decStroke + d.commitWait) && decide (d.cfg.root.phase < 4)

theorem Dev.Messaged.revertOpen {d e : Dev} (h : d.Messaged e) : e.revertOpen = d.revertOpen := by
  have hdec : e.led.decision = d.led.decision := congrArg Prod.fst h.decided
  have hstroke : e.led.decStroke = d.led.decStroke := congrArg (fun x => x.2.2.2) h.decided
  have hpool : e.pool = d.pool := by simp only [Dev.pool, h.time]
  have hwait : e.commitWait = d.commitWait := by simp only [Dev.commitWait, Dev.fld, Dev.cfgReg, h.cfg]
  rw [Dev.revertOpen, hdec, hstroke, hpool, hwait, h.cfg, Dev.revertOpen]

section
variable {d : Dev} {p : Nat} {q : PullMsg}

theorem Dev.configurationPull_discarded (h : d.portUp p = false ∨ d.isRoot = false ∨ d.prim ≠ .primed) :
    d.configurationPull p q = d := by
  refine if_pos ?_
  rcases h with h | h | h <;> simp [h]

section
variable (hp : d.portUp p = true) (hroot : d.isRoot = true) (hprim : d.prim = .primed) (hc : d.coresGone = false)
include hp hroot hprim hc

/-- The root answers a pull of another kind than 3 and does nothing else (R314). -/
theorem Dev.configurationPull_answers (hk : q.kind ≠ 3) : d.configurationPull p q = d.pullMsgTo q.src d.pullAnswer :=
  (if_neg (by simp [hp, hroot, hprim, hc])).trans (if_neg fun h => hk h.1)

/-- The root reverts for a pull of kind 3 while its decision is within COMMIT_WAIT (R314). -/
theorem Dev.configurationPull_reverts (hk : q.kind = 3) (hd : d.led.decision = 1) (ht : d.pool ≤ d.led.decStroke + d.commitWait)
    (hphase : d.cfg.root.phase < 4) : d.configurationPull p q = (d.pullMsgTo q.src d.pullAnswer).revertFor q := by
  have hopen : (d.pullMsgTo q.src d.pullAnswer).revertOpen = true := by
    rw [(d.pullMsgTo_messaged q.src d.pullAnswer).1.revertOpen]
    simp [Dev.revertOpen, hd, ht, hphase]
  exact (if_neg (by simp [hp, hroot, hprim, hc])).trans (if_pos ⟨hk, hopen⟩)

end

/-! ### Configuration Pull at a member -/

/-- The root's configuration is the member's own, and nothing is Pending: the member has stopped pulling (R315). -/
theorem Dev.configurationPullReply_same (hp : d.portUp p = true) (hpull : d.cfg.member.pulling = true) (hc : d.coresGone = false)
    (hk : q.kind = 2) (hn : d.poolNow = (q.rootVer, q.rootDigest)) (hnone : d.pendingSlot = none) :
    d.configurationPullReply p q = d.setMember fun m => { m with pulling := false } := by
  refine (if_neg (by simp [hp, hpull, hc, hk])).trans ((if_pos hn).trans ?_)
  dsimp only
  rw [Dev.pendingSlot_setMember, hnone]

end

/-- A pull goes to the root as the member knows it, with its own configuration (R314). -/
theorem Dev.sendPull_sent (d : Dev) (k : Nat) : (d.sendPull k).cfg = d.cfg ∧
    ∃ dst q, d.Sent (d.sendPull k) (.pull dst q) ∧ q.kind = k ∧ q.src = d.devId ∧ q.ver = d.poolNow.1 := by
  unfold Dev.sendPull
  extract_lets tag
  obtain ⟨hm, hsent⟩ := d.pullMsgTo_messaged d.rootDest 
    { src := d.devId, kind := k, outcome := 0, ver := d.poolNow.1, digest := d.poolNow.2,
      pendVer := tag.1, pendDigest := tag.2, act := 0#64, rootVer := 0#32, rootDigest := 0#64 }
  exact ⟨hm.cfg, _, _, hsent, rfl, rfl, rfl⟩

section
variable {d : Dev}

/-- A vote that has waited for its decision too long begins to pull (R314). -/
theorem Dev.votedTimeout_pulls (hs : d.cfg.txn.st = .voted) (hroot : d.isRoot = false) (hpull : d.cfg.member.pulling = false)
    (hc : d.coresGone = false) (ht : d.cfg.member.votedAt + d.voteWin + d.commitWait ≤ d.time.loc) : d.votedTimeout =
      (d.setMember fun m => { m with pulling := true, pullStart := d.time.loc, pullLast := d.time.loc }).sendPull 1 :=
  (if_pos ⟨hs, by simp [hroot], ht⟩).trans (if_neg (by simp [hroot, hpull, hc]))

/-- A pull without an answer is sent again (R314). -/
theorem Dev.pullRetry_pulls (hpull : d.cfg.member.pulling = true) (hc : d.coresGone = false)
    (hl : d.cfg.member.pullLast + d.pullTo ≤ d.time.loc) (hs : d.time.loc < d.cfg.member.pullStart + d.commitWait) :
    d.pullRetry = (d.setMember fun m => { m with pullLast := d.time.loc }).sendPull 1 :=
  if_pos ⟨hpull, by simp [hc], hl, hs⟩

theorem Dev.pullRetry_over (hs : d.cfg.member.pullStart + d.commitWait ≤ d.time.loc) : d.pullRetry = d :=
  if_neg fun h => Nat.not_lt.mpr hs h.2.2.2

/-- The member gives up once COMMIT_WAIT has ended (R314). -/
theorem Dev.pullGiveUp_ends (hpull : d.cfg.member.pulling = true) (hs : d.cfg.member.pullStart + d.commitWait ≤ d.time.loc) :
    d.pullGiveUp = (d.setMember fun m => { m with pulling := false }).raise 46 :=
  if_pos ⟨hpull, hs⟩

theorem Dev.pullGiveUp_early (hs : d.time.loc < d.cfg.member.pullStart + d.commitWait) : d.pullGiveUp = d :=
  if_neg fun h => Nat.not_lt.mpr h.2 hs

/-- A Pending slot that passes its checks has its activation queued for the earliest stroke (R315). -/
theorem Dev.slotVerificationComplete_queues {n : Nat} {t : BitVec 32 × BitVec 64} (hv : d.cfg.member.verify ≠ none)
    (hslot : d.cfg.toSlot = none) (hp : d.pendingSlot = some (n, t)) (hf : (d.checkSlot n).2.fail = none)
    (ha : (d.checkSlot n).1.acts.length < 16) (ht : (d.checkSlot n).1.cfg.txn.target ≠ some n) : d.slotVerificationComplete =
      { (d.checkSlot n).1 with
        acts := (d.checkSlot n).1.acts ++ [{ stroke := (d.checkSlot n).1.pool + 2, cls := 1, kind := .toSlot }]
        cfg := { (d.checkSlot n).1.cfg with toSlot := some (n, (d.checkSlot n).2.img, false) } } := by
  have hopen : ¬(d.cfg.member.verify.isNone || d.cfg.toSlot.isSome) = true := by
    simpa [hslot, Option.isNone_iff_eq_none] using hv
  rw [Dev.slotVerificationComplete, if_neg hopen, hp]
  dsimp only
  generalize d.checkSlot n = q at hf ha ht ⊢
  obtain ⟨e, c⟩ := q
  have hqueue := Dev.queueAct_ok (n := e.earliest) (cls := 1) (k := .toSlot) le_rfl ha
  have hpass : ¬c.fail.isSome = true := by simp [show c.fail = none from hf]
  dsimp only
  rw [if_neg hpass, hqueue]
  dsimp only
  rw [if_neg ht]
  rfl

end

/-- Settles O31: each command is one conditional, a pull that is sent leaves the configuration as it is, and a Pending slot that passes its
checks is queued. -/
theorem configurationPulled : Obligations.ConfigurationPulled := by
  refine ⟨?pull, fun p q s h => .of_done rfl (Dev.configurationPull_discarded h), ?reply, ?voted, ?retry, ?verified⟩
  case pull =>
    intro p q s hp hroot hprim hc a ha
    subst ha
    refine ⟨fun hk => .of_done rfl (Dev.configurationPull_answers hp hroot hprim hc hk), fun hk hd ht hphase =>
      .of_done (congrArg s.done (Dev.configurationPull_reverts hp hroot hprim hc hk hd ht hphase)) ⟨rfl, rfl, ?_⟩⟩
    exact (s.dev.pullMsgTo_messaged q.src s.dev.pullAnswer).2
  case reply => exact fun p q s hp hpull hc hk hn hnone => .of_done rfl (Dev.configurationPullReply_same hp hpull hc hk hn hnone)
  case voted =>
    intro s hs hroot hpull hc ht
    obtain ⟨hcfg, dst, q, hsent, hkind, hsrc, hver⟩ :=
      (s.dev.setMember fun m => { m with pulling := true, pullStart := s.dev.time.loc, pullLast := s.dev.time.loc }).sendPull_sent 1
    refine .of_done (congrArg s.done (Dev.votedTimeout_pulls hs hroot hpull hc ht)) ?_
    rw [hcfg]
    exact ⟨rfl, rfl, dst, q, hsent, hkind, hsrc, hver⟩
  case retry =>
    intro s hpull
    refine ⟨fun hc hl hs => .of_done (congrArg s.done (Dev.pullRetry_pulls hpull hc hl hs)) ?_,
      fun hs => ⟨.of_done rfl (Dev.pullRetry_over hs), .of_done (congrArg s.done (Dev.pullGiveUp_ends hpull hs)) ?_⟩,
      fun hs => .of_done rfl (Dev.pullGiveUp_early hs)⟩
    · obtain ⟨hcfg, dst, q, hsent, hkind, -⟩ := (s.dev.setMember fun m => { m with pullLast := s.dev.time.loc }).sendPull_sent 1
      rw [hcfg]
      exact ⟨rfl, hpull, dst, q, hsent, hkind⟩
    · have hr := Dev.Messaged.raise (s.dev.setMember fun m => { m with pulling := false }) 46 0 0
      rw [hr.cfg]
      exact ⟨rfl, Dev.raise_pending _ 46 0 0 (by decide)⟩
  case verified =>
    intro s hv hslot n t hp hf ha ht
    exact .of_done (congrArg s.done (Dev.slotVerificationComplete_queues hv hslot hp hf ha ht)) ⟨rfl, rfl⟩

end Sys2Proof.Machine

namespace Sys2Proof.Machine

open Sys2Proof

/-! ### Commands at the front of the queue -/

/-- Settles O1: `step` and `idle` by the queue that each looks at. -/
theorem stepRunsTheFrontCommand : Obligations.StepRunsTheFrontCommand := by
  refine ⟨fun c cs s h => ?front, fun c s => rfl, fun s hs => ?idle⟩
  case front => rw [step, h]
  case idle =>
    have hidle : step s = idle s := by rw [step, hs]
    refine ⟨fun hp => ?_, fun hg => ?_, fun c cs hp hg => ?_⟩
    · rw [hidle, idle, hp]
    · rw [hidle, idle, hg]
      split <;> rfl
    · rw [hidle, idle, hp, hg]
      rfl

/-- Settles O5: the packet only adds one to VIOLATIONS, which holds at its largest value. -/
theorem guestRegisterPacketsAreDiscarded : Obligations.GuestRegisterPacketsAreDiscarded :=
  fun _ h => .of_done rfl (if_pos h)

end Sys2Proof.Machine

namespace Sys2Proof.Machine

open Sys2Proof

/-! ### What an event leaves alone, messages sent last, and senders of registers -/

section
variable {d e : Dev} (h : d.Raised e)
include h

theorem Dev.Raised.sec : e.sec = d.sec := (congrArg Dev.sec h.bare :)
theorem Dev.Raised.pwr : e.pwr = d.pwr := (congrArg Dev.pwr h.bare :)
theorem Dev.Raised.clk : e.clk = d.clk := (congrArg Dev.clk h.bare :)
theorem Dev.Raised.sup : e.sup = d.sup := (congrArg Dev.sup h.bare :)
theorem Dev.Raised.bays : e.bays = d.bays := (congrArg Dev.bays h.bare :)
theorem Dev.Raised.mods : e.mods = d.mods := (congrArg Dev.mods h.bare :)
theorem Dev.Raised.gst : e.gst = d.gst := (congrArg Dev.gst h.bare :)

end

/-- What is sent last is sent, and nothing sent before is gone. -/
theorem Dev.sent_emit {d e : Dev} (h : d.out <+: e.out) (o : Out) : d.Sent (e.emit o) o := by
  obtain ⟨a, ha⟩ := h
  exact ⟨a ++ o.announced, [], by simp [Dev.emit, ← ha]⟩

/-- A register write that its gates let through comes while the management cores are there (R30). -/
theorem leaves_registerWrite {c : Instr} {src : Src} {s : State} {d e : Dev} (hx : exec c s = s.mail src c d)
    (hr : s.dev.regOk src = true) (he : d = e) : Leaves c s e := by
  have hgone : s.dev.coresGone = false := by
    simp only [Dev.regOk, Bool.and_eq_true, Bool.not_eq_true'] at hr
    exact hr.1.1.2
  rw [Leaves, hx, State.mail, if_neg (by simp [hgone]), he]
  rfl

/-! ### Debug unlock -/

/-- GET_CHALLENGE (R330) draws a nonce and answers it with the serial number and the scopes that are open. -/
theorem getChallenge_effect {p : List Byte} (hp : p.length = 1) : Effect (.getChallenge ⟨.mctp, p⟩) .mctp fun d =>
    (({ d with free := d.free + 1 }).setSec fun c => { c with nonce := some (Config.freeKey d.free) }).reply .mctp .success 0
      (digestBytes (Config.freeKey d.free) ++ leBytes 8 d.serial.toNat ++ leBytes 1 d.sec.scope.toNat) :=
  fun _ _ ha => ha.leaves_vend (p := p) rfl rfl (by omega) (by simp [hp]) rfl rfl

section
variable {p : List Byte} {s : State} {d e : Dev} (ha : Accepted (.unlock .mctp p) s .mctp d) (hp : p.length = 137)
  (hz : zeros (sub p 2 2) = true)
include ha hp hz

/-- R330: an Unlock while the lockout lasts is turned away. -/
theorem Accepted.leaves_unlock_locked {u : Nat} (hu : d.sec.lockUntil = some u) (ht : d.time.loc < u) :
    Leaves (.unlock .mctp p) s (d.reply .mctp .busy) :=
  ha.leaves_vend rfl rfl (by omega) (by simp [hp]) hz (if_pos (by simp [hu, ht]))

variable (hl : d.sec.lockUntil = none)
include hl

/-- R330: an Unlock that asks for an unknown scope or does not verify counts towards the lockout. -/
theorem Accepted.leaves_unlock_bad (hb : 16 ≤ fieldAt p 1 1 ∨ d.unlockOk p = false) : Leaves (.unlock .mctp p) s
    (((d.setSec fun c => { c with
        nonce := none, fails := d.sec.fails + 1, lockUntil := if d.sec.fails = 7 then some (d.time.loc + 2 ^ 20) else none }).raise 174
      (tileSlice 0)).reply .mctp .invalidInput) := by
  refine ha.leaves_vend rfl rfl (by omega) (by simp [hp]) hz ?_
  have hbad : (decide (16 ≤ fieldAt p 1 1) || !d.unlockOk p) = true := by simpa using hb
  simp only [hl, Option.any_none, Option.isSome_none, Bool.false_eq_true, if_false, hbad, if_true, Nat.reduceEqDiff]

variable (hs : fieldAt p 1 1 < 16) (hv : d.unlockOk p = true)
include hs hv

/-- R330: a verified Unlock is refused for its duration. -/
theorem Accepted.leaves_unlock_duration (hd : fieldAt p 4 4 = 0 ∨ 4096 < fieldAt p 4 4) :
    Leaves (.unlock .mctp p) s ((d.setSec fun c => { c with nonce := none }).reply .mctp .invalidInput) := by
  refine ha.leaves_vend rfl rfl (by omega) (by simp [hp]) hz ?_
  have hgood : (decide (16 ≤ fieldAt p 1 1) || !d.unlockOk p) = false := by simp [hv, hs]
  simp only [hl, Option.any_none, Option.isSome_none, Bool.false_eq_true, if_false, hgood]
  exact if_pos hd

/-- R330, R331: a verified Unlock waits for the next boundary to open its scopes. -/
theorem Accepted.leaves_unlock_opens (hd : 1 ≤ fieldAt p 4 4) (hd' : fieldAt p 4 4 ≤ 4096) : Leaves (.unlock .mctp p) s
    ((d.setSec fun c => { c with
        nonce := none, fails := 0, dbgEver := true, scopePend := some (BitVec.ofNat 4 (fieldAt p 1 1), fieldAt p 4 4 * 2 ^ 20) }).reply
      .mctp .success 0 (leBytes 1 d.sec.scope.toNat)) := by
  refine ha.leaves_vend rfl rfl (by omega) (by simp [hp]) hz ?_
  have hgood : (decide (16 ≤ fieldAt p 1 1) || !d.unlockOk p) = false := by simp [hv, hs]
  simp only [hl, Option.any_none, Option.isSome_none, Bool.false_eq_true, if_false, hgood]
  exact if_neg (by omega)

end

section
variable {d : Dev}

theorem Dev.closeScopes_shut (h : d.sec.scope &&& 7#4 = 0#4) : d.closeScopes = d := if_pos h

theorem Dev.closeScopes_open (h : d.sec.scope &&& 7#4 ≠ 0#4) :
    d.closeScopes = (d.setSec fun c => { c with scope := c.scope &&& 8#4, expiry := 0 }).raise 175 (tileSlice 0) := if_neg h

/-- Closing scopes 0 to 2 leaves scope 3 as it was, and raises EV175 where one of them was open (R331). -/
theorem Dev.closeScopes_spec (d : Dev) : d.closeScopes.sec.scope &&& 7#4 = 0#4 ∧ d.closeScopes.sec.scope &&& 8#4 = d.sec.scope &&& 8#4 ∧
    (d.sec.scope &&& 7#4 ≠ 0#4 → d.closeScopes.Pending 175) ∧ d.out <+: d.closeScopes.out := by
  by_cases h : d.sec.scope &&& 7#4 = 0#4
  · rw [Dev.closeScopes_shut h]
    exact ⟨h, rfl, fun hn => absurd h hn, List.prefix_rfl⟩
  · rw [Dev.closeScopes_open h]
    generalize hd1 : (d.setSec fun c => { c with scope := c.scope &&& 8#4, expiry := 0 }) = d1
    have hr := d1.raise_raised 175 (tileSlice 0) 0
    have hsec : (d1.raise 175 (tileSlice 0)).sec.scope = d.sec.scope &&& 8#4 := by
      rw [hr.sec, ← hd1]
      rfl
    have hout : d1.out = d.out := by rw [← hd1]; rfl
    refine ⟨?_, ?_, fun _ => d1.raise_pending 175 _ _ (by decide), hout ▸ hr.out⟩ <;> rw [hsec] <;> generalize d.sec.scope = v <;>
      revert v <;> decide

end

/-- RELOCK (R331) closes the scopes that are open and those that an Unlock is about to open. -/
theorem Accepted.leaves_relock {p : List Byte} {s : State} {d : Dev} (ha : Accepted (.relock ⟨.mctp, p⟩) s .mctp d) (hp : p.length = 1) :
    Leaves (.relock ⟨.mctp, p⟩) s (((d.setSec fun c => { c with
      scopePend := c.scopePend.map fun x => (x.1 &&& 8#4, x.2) }).closeScopes).reply .mctp .success) :=
  ha.leaves_vend (p := p) rfl rfl (by omega) (by simp [hp]) rfl rfl

/-- Settles O39: each Unlock by the branch that its conditions choose, and the scopes by `closeScopes`. -/
theorem debugUnlockAndRelock : Obligations.DebugUnlockAndRelock := by
  refine ⟨fun p hp => getChallenge_effect hp, ?unlock, ?lockout, ?relock, ?expiry⟩
  case unlock =>
    intro p s d ha hp hz
    refine ⟨fun u hu ht => ha.leaves_unlock_locked hp hz hu ht, fun hl => ⟨fun hb => ?_,
      fun hs hv hd => ha.leaves_unlock_duration hp hz hl hs hv hd, fun hs hv hd hd' => ha.leaves_unlock_opens hp hz hl hs hv hd hd'⟩⟩
    refine .of_leaves (ha.leaves_unlock_bad hp hz hl hb) ?_
    generalize hd1 : (d.setSec fun c => { c with nonce := none, fails := d.sec.fails + 1, lockUntil := _ }) = d1
    have hr := d1.raise_raised 174 (tileSlice 0) 0
    rw [Dev.reply_of_fits .mctp (Nat.zero_le _)]
    refine ⟨d1.raise_pending 174 _ _ (by decide), hr.sec.trans (by rw [← hd1]; rfl), ?_⟩
    subst hd1
    exact Dev.sent_emit hr.out _
  case lockout =>
    intro s u hu
    exact ⟨fun h => .of_done rfl (if_pos (by simp [hu, h])), fun h => .of_done rfl (if_neg (by simp [hu, h]))⟩
  case relock =>
    intro p s d hp ha
    refine .of_leaves (ha.leaves_relock hp) ?_
    obtain ⟨hshut, hkeep, hpend, hout⟩ := Dev.closeScopes_spec (d.setSec fun c => { c with
      scopePend := c.scopePend.map fun x => (x.1 &&& 8#4, x.2) })
    rw [Dev.reply_of_fits .mctp (Nat.zero_le _)]
    exact ⟨hshut, hkeep, hpend, Dev.sent_emit hout _⟩
  case expiry =>
    intro s ho
    exact ⟨fun h => .of_raise_on rfl ((if_pos ⟨ho, h⟩).trans (Dev.closeScopes_open ho)) (by decide),
      fun h => .of_done rfl (if_neg fun hn => Nat.not_lt.mpr hn.2 h)⟩

end Sys2Proof.Machine

namespace Sys2Proof.Machine

open Sys2Proof

/-! ### Ownership messages -/

section
variable {d : Dev} {x : Sess} {f : Dev → Dev}

theorem Dev.wake_inSession (h : d.InSession x) (k i : Nat) : (d.wake k i).InSession x := by
  obtain ⟨y, hy, hf⟩ := h
  exact ⟨y, by rw [Dev.session, (d.wake_attends k i).sec]; exact hy, hf⟩

/-- In a finished session over MCTP, whose messages wake the device (R326, R342). -/
theorem Dev.secured_over_mctp (h : d.SpdmHeard x) (htr : x.tr = .mctp) (hs : d.InSession x) : d.secured x f = f (d.wake 5 0) := by
  obtain ⟨y, hy, hf⟩ := d.wake_inSession hs 5 0
  rw [Dev.secured, Dev.spdm_of_heard h]
  simp only [htr, if_true, hy, hf]

end

section
variable {d : Dev} {x : Sess} {op len : Nat} {overDoe : Bool} {req : List Byte} {f : Dev → Nat × Dev} (h : d.SpdmHeard x) (hs : d.InSession x)
include h hs

/-- A security message that its transport does not carry (R318, R319). -/
theorem Dev.secMessage_over_doe {n : Nat} (htr : x.tr = .doe n) :
    d.secMessage x op false len req f = d.emit (.spdm x 0 (leBytes 1 (op + 128) ++ leBytes 1 4)) := by
  rw [Dev.secMessage, Dev.secured_of_inSession h (by simp [htr]) hs, htr]
  rfl

variable (htr : x.tr = .mctp)
include htr

/-- A security message of another length than its own (R318). -/
theorem Dev.secMessage_wrongLength (hl : req.length ≠ len) :
    d.secMessage x op overDoe len req f = (d.wake 5 0).emit (.spdm x 0 (leBytes 1 (op + 128) ++ leBytes 1 2)) := by
  rw [Dev.secMessage, Dev.secured_over_mctp h htr hs]
  simp only [htr, Bool.not_true, Bool.false_eq_true, if_false, if_pos hl]

/-- A security message of the right length is answered with the status that its meaning gives (R318). -/
theorem Dev.secMessage_answered {n : Nat} {e : Dev} (hl : req.length = len) (hf : f (d.wake 5 0) = (n, e)) :
    d.secMessage x op overDoe len req f = e.emit (.spdm x 0 (leBytes 1 (op + 128) ++ leBytes 1 n)) := by
  rw [Dev.secMessage, Dev.secured_over_mctp h htr hs]
  simp only [htr, Bool.not_true, Bool.false_eq_true, if_false, hl, ne_eq, not_true_eq_false, hf]

end

/-! ### Burning an owner -/

section
variable (d : Dev)

theorem Dev.burnOwner_spec (i : Nat) (h : BitVec 256) : (d.burnOwner i h).Pending 170 ∧ d.out <+: (d.burnOwner i h).out ∧
    (d.burnOwner i h).otp = { d.otp with
      owners := d.otp.owners ++ List.replicate (i - d.otp.owners.length) (false, 0#256) ++ [(true, h)] } := by
  unfold Dev.burnOwner
  extract_lets pad
  generalize hd1 : ({ d with otp := { d.otp with owners := d.otp.owners ++ pad ++ [(true, h)] } } : Dev) = d1
  have hr := d1.raise_raised 170 (tileSlice 0) 0
  have hout : d1.out = d.out := by rw [← hd1]
  exact ⟨d1.raise_pending 170 _ _ (by decide), hout ▸ hr.out, (congrArg Dev.otp hr.bare :).trans (by rw [← hd1]; rfl)⟩

variable {d}

/-- Where the first entry is the next to burn, none is burnt (R317, R319). -/
theorem Dev.owners_of_nextOwner_zero (h : d.nextOwner = 0) : d.otp.owners = [] := by
  have hfirst : (List.range 4).find? (fun i => decide (d.otp.owners.length ≤ i) && !d.otp.bad.contains (10 + i)) = some 0 := by
    rw [Dev.nextOwner] at h
    generalize (List.range 4).find? _ = o at h ⊢
    cases o with
    | none => exact absurd h (by decide)
    | some i => exact congrArg some h
  have hlen := List.find?_some hfirst
  simp only [Bool.and_eq_true, decide_eq_true_eq, Nat.le_zero] at hlen
  exact List.eq_nil_of_length_eq_zero hlen.1

end

/-! ### Each ownership message -/

section
variable {x : Sess} {r : List Byte} {s : State} (h : s.dev.SpdmHeard x) (hs : s.dev.InSession x) (htr : x.tr = .mctp)
include h hs htr

section
variable (hl : r.length = 136)
include hl

theorem claimOwnership_notMade (hlc : (s.dev.wake 5 0).lifecycle ≠ 1) :
    Leaves (.claimOwnership x r) s ((s.dev.wake 5 0).emit (.spdm x 0 (leBytes 1 0xA0 ++ leBytes 1 1))) :=
  leaves_heard h rfl (Dev.secMessage_answered h hs htr hl (if_pos (.inl hlc)))

/-- CLAIM_OWNERSHIP (R319) by the holder of the key, on a device that nobody owns. -/
theorem claimOwnership_burns {key : List Byte} (hkey : key = sub r 8 64) (hlc : (s.dev.wake 5 0).lifecycle = 1)
    (hp : (s.dev.wake 5 0).prim ≠ .primed) (hn : (s.dev.wake 5 0).nextOwner = 0) (hw : (s.dev.wake 5 0).nvmWritable = true)
    (hv : Config.ecdsaVerify key (sub r 72 64) (Config.sha256 (leBytes 8 (s.dev.wake 5 0).serial.toNat ++ key)) = true) :
    Leaves (.claimOwnership x r) s (((s.dev.wake 5 0).burnOwner 0 (Config.sha256 key)).emit (.spdm x 0 (leBytes 1 0xA0 ++ leBytes 1 0))) := by
  subst hkey
  refine leaves_heard h rfl (Dev.secMessage_answered h hs htr hl ?_)
  dsimp only
  rw [if_neg (by simp [hlc, hp]), if_neg (by simp [hn]), if_neg (by simp [hv]), if_neg (by simp [hw])]

/-- REVOKE_VENDOR_KEY (R321) signed by a later key. -/
theorem revokeVendorKey_burns {k j : Nat} {key : List Byte} (hkey : key = sub r 8 64) (hk : k = fieldAt r 1 1) (hj : j = fieldAt r 2 1)
    (hkj : k < j) (hj4 : j < 4) (hw : (s.dev.wake 5 0).nvmWritable = true) (hok : (s.dev.wake 5 0).vendorKeyOk j key = true)
    (hv : Config.ecdsaVerify key (sub r 72 64) (Config.sha256 (leBytes 1 0x22 ++ leBytes 1 k)) = true) : Leaves (.revokeVendorKey x r) s
      ((Dev.raise { s.dev.wake 5 0 with otp := { (s.dev.wake 5 0).otp with revoke := (s.dev.wake 5 0).otp.revoke ||| (1#4 <<< k) } } 171
        (tileSlice 0)).emit (.spdm x 0 (leBytes 1 0xA2 ++ leBytes 1 0))) := by
  subst hkey hk hj
  refine leaves_heard h rfl (Dev.secMessage_answered h hs htr hl ?_)
  dsimp only
  rw [if_neg (by simp [hkj, hj4]), if_neg (by simp [hok, hv]), if_neg (by simp [hw])]

theorem revokeVendorKey_notLater (hkj : fieldAt r 2 1 ≤ fieldAt r 1 1 ∨ 4 ≤ fieldAt r 2 1) :
    Leaves (.revokeVendorKey x r) s ((s.dev.wake 5 0).emit (.spdm x 0 (leBytes 1 0xA2 ++ leBytes 1 3))) :=
  leaves_heard h rfl (Dev.secMessage_answered h hs htr hl (if_pos (by
    simp only [Bool.not_eq_true', Bool.and_eq_false_iff, decide_eq_false_iff_not]
    omega)))

/-- DECOMMISSION (R318) signed by the owner. -/
theorem decommission_burns {i : Nat} {k : BitVec 256} (hlc : (s.dev.wake 5 0).lifecycle = 2)
    (ho : (s.dev.wake 5 0).currentOwner = some (i, k)) (hw : (s.dev.wake 5 0).nvmWritable = true)
    (hv : hashVerify k (sub r 72 64) (Config.sha256 (leBytes 8 (s.dev.wake 5 0).serial.toNat ++ leBytes 1 0x23)) = true) :
    Leaves (.decommission x r) s (({ s.dev.wake 5 0 with otp := { (s.dev.wake 5 0).otp with
      lifecycle := 3, uds := BitVec.allOnes 256 } }).emit (.spdm x 0 (leBytes 1 0xA3 ++ leBytes 1 0))) := by
  refine leaves_heard h rfl (Dev.secMessage_answered h hs htr hl ?_)
  simp only [hlc, ho, hv, hw, Bool.not_true, Bool.false_eq_true, if_false]

end

section
variable (hl : r.length = 200)
include hl

theorem transferOwnership_notOwned (hlc : (s.dev.wake 5 0).lifecycle ≠ 2) :
    Leaves (.transferOwnership x r) s ((s.dev.wake 5 0).emit (.spdm x 0 (leBytes 1 0xA1 ++ leBytes 1 1))) := by
  refine leaves_heard h rfl (Dev.secMessage_answered h hs htr hl ?_)
  dsimp only
  split
  · next heq _ => exact absurd heq hlc
  · rfl

variable {i : Nat} {k dig : BitVec 256} {key : List Byte} (hkey : key = sub r 8 64) (hlc : (s.dev.wake 5 0).lifecycle = 2)
  (ho : (s.dev.wake 5 0).currentOwner = some (i, k)) (hn : (s.dev.wake 5 0).nextOwner < 4)
  (hdig : dig = Config.sha256 (leBytes 8 (s.dev.wake 5 0).serial.toNat ++ key ++ leBytes 1 i))
include hkey hlc ho hn hdig

/-- TRANSFER_OWNERSHIP (R319) signed by the new owner and by the present one. -/
theorem transferOwnership_burns (hw : (s.dev.wake 5 0).nvmWritable = true) (hv : Config.ecdsaVerify key (sub r 72 64) dig = true)
    (hv' : hashVerify k (sub r 136 64) dig = true) : Leaves (.transferOwnership x r) s
      (((s.dev.wake 5 0).burnOwner (s.dev.wake 5 0).nextOwner (Config.sha256 key)).emit (.spdm x 0 (leBytes 1 0xA1 ++ leBytes 1 0))) := by
  subst hkey hdig
  refine leaves_heard h rfl (Dev.secMessage_answered h hs htr hl ?_)
  simp only [hlc, ho, hn.ne, hv, hv', hw, Bool.and_self, Bool.not_true, Bool.false_eq_true, if_false]

theorem transferOwnership_unsigned (hv : hashVerify k (sub r 136 64) dig = false) :
    Leaves (.transferOwnership x r) s ((s.dev.wake 5 0).emit (.spdm x 0 (leBytes 1 0xA1 ++ leBytes 1 2))) := by
  subst hkey hdig
  refine leaves_heard h rfl (Dev.secMessage_answered h hs htr hl ?_)
  simp only [hlc, ho, hn.ne, hv, Bool.and_false, Bool.not_false, if_true, if_false]

end

end

/-! ### SET_CERTIFICATE -/

section
variable {x : Sess} {slot : Nat} {ch : List Byte} {d : Dev} (h : d.SpdmHeard x)
include h

/-- R324: a chain is only taken over MCTP, for slot 1, at most 4096 bytes long. -/
theorem Dev.setCertificate_refused (hc : x.tr ≠ .mctp ∨ slot ≠ 1 ∨ 4096 < ch.length ∨ ch = []) :
    d.setCertificate x slot ch = d.emit (.spdm x 2 []) := by
  rw [Dev.setCertificate, Dev.spdm_of_heard h]
  refine if_neg ?_
  simp only [Bool.and_eq_true, not_and, beq_iff_eq, decide_eq_true_eq, Bool.not_eq_true', List.isEmpty_eq_false_iff]
  rintro ⟨⟨⟨⟨⟨⟨htr, -⟩, hsl⟩, hlen⟩, hne⟩, -⟩, -⟩
  rcases hc with hc | hc | hc | hc
  · exact absurd htr hc
  · exact absurd hsl hc
  · omega
  · exact absurd hc hne

/-- R324: in a session, a chain that verifies for the device's key up to the pool's owner root is written. -/
theorem Dev.setCertificate_written (htr : x.tr = .mctp) (hsl : slot = 1) (hlen : ch.length ≤ 4096) (hne : ch ≠ []) (hs : d.InSession x)
    (hv : Config.chainVerify ch = true) (hk : Config.chainLeafKey ch = Config.deviceKey d.otp.uds)
    (hr : d.cfg.active.poolRoot = some (Config.chainRootHash ch)) :
    d.setCertificate x slot ch = (d.writeLed fun l => { l with chain := ch }).emit (.spdm x 0 []) := by
  obtain ⟨y, hy, hf⟩ := hs
  rw [Dev.setCertificate, Dev.spdm_of_heard h]
  exact if_pos (by simp [htr, hsl, hlen, hne, hy, hf, hv, hk, hr])

end

/-! ### What an event leaves of the ledger -/

section
variable {α : Type} {g : Ledger → α} (hg : ∀ l j n w q p, g { l with journal := j, next := n, wrapped := w, jseq := q, pinned := p } = g l)
include hg

/-- An event changes the ledger only in its journal (R401, R402). -/
theorem Dev.raise1_led (d : Dev) (n : Nat) (i : EvInfo) : g (d.raise1 n i).1.led = g d.led := by
  have hjournal : ∀ (e : Dev) (r : JRec), g (e.journal r).1.led = g e.led := fun e r => by
    unfold Dev.journal
    split
    · extract_lets note
      (repeat' split) <;> rfl
    · exact hg _ _ _ _ _ _
  unfold Dev.raise1
  split
  · rfl
  · extract_lets first
    have h1 : ((d.setPend n).countEv n).1.led = d.led := (d.setPend n).countEv_led n
    split
    rename_i d1 c h
    rw [h] at h1
    extract_lets e2 d2 r rt heads dests
    have h3 : (d2.postAll dests (evLog n) r).1.led = d.led := (d2.postAll_led _ _ _).trans h1
    split
    rename_i d3 x h4
    rw [h4] at h3
    split
    · exact (hg _ _ _ _ _ _).trans (congrArg g h3)
    · split
      · split
        rename_i d4 y h6
        have h7 : g (d4, y).1.led = g d3.led := h6 ▸ hjournal d3 _
        exact h7.trans (congrArg g h3)
      · exact congrArg g h3

theorem Dev.raiseI_led (d : Dev) (n : Nat) (i : EvInfo) : g (d.raiseI n i).led = g d.led := by
  rw [Dev.raiseI_eq]
  exact (forAll_rel (R := fun d e => g e.led = g d.led) (fun _ => rfl) (fun _ _ _ h k => k.trans h)
    (fun d (m : Nat × EvInfo) => d.raise1_led hg m.1 m.2) _ _).trans (d.raise1_led hg n i)

end

/-- FLOOR_RISE (R328) where it is due: the floor is the active image's version, whatever EV172 journals. -/
theorem Dev.floorRise_due {d : Dev} (hp : d.prim = .primed) (hf : d.floorNow < d.cfg.active.secVersion)
    (ht : d.sec.activeAt + d.fld 0x448 15 0 * 2 ^ 20 ≤ d.time.loc) :
    d.floorRise.Pending 172 ∧ d.floorRise.led.floor = d.cfg.active.secVersion ∧ d.floorRise.Agrees d := by
  have hdue : (d.prim == .primed && decide (d.floorNow < d.cfg.active.secVersion) &&
      decide (d.sec.activeAt + d.fld 0x448 15 0 * 2 ^ 20 ≤ d.time.loc)) = true := by
    rw [hp, decide_eq_true hf, decide_eq_true ht]
    rfl
  have heq : d.floorRise = (d.writeLed fun l => { l with floor := d.cfg.active.secVersion }).raiseI 172
    { slice := tileSlice 0, detail := [d.cfg.active.secVersion] } := if_pos hdue
  rw [heq]
  exact ⟨Dev.raiseI_pending _ 172 _ (by decide), Dev.raiseI_led (g := Ledger.floor) (fun _ _ _ _ _ _ => rfl) _ 172 _,
    (Dev.raiseI_bare _ 172 _).trans rfl⟩

/-- Settles O38: each message by the branch that its conditions choose, a burnt owner by `burnOwner_spec`, and the floor by what EV172
leaves of the ledger. -/
theorem ownershipCertificatesAndFloor : Obligations.OwnershipCertificatesAndFloor := by
  refine ⟨?overDoe, ?messages, fun x slot ch s h => ⟨fun hc => leaves_heard h rfl (Dev.setCertificate_refused h hc),
    fun htr hsl hlen hne hs hv hk hr => leaves_heard h rfl (Dev.setCertificate_written h htr hsl hlen hne hs hv hk hr)⟩, ?floor⟩
  case overDoe =>
    intro x r n s h hs htr c hc
    simp only [List.mem_cons, List.not_mem_nil, or_false] at hc
    rcases hc with rfl | rfl | rfl <;> exact leaves_heard h rfl (Dev.secMessage_over_doe h hs htr)
  case messages =>
    rintro x r key s d h hs htr rfl hkey
    refine ⟨fun hl => leaves_heard h rfl (Dev.secMessage_wrongLength h hs htr hl), fun hl hlc => claimOwnership_notMade h hs htr hl hlc,
      fun hl hlc hp hn hw hv => ?claim, fun hl hlc => transferOwnership_notOwned h hs htr hl hlc,
      fun i k dig hl hlc ho hn hw hdig hv => ⟨fun hv' => ?transfer, transferOwnership_unsigned h hs htr hl hkey hlc ho hn hdig⟩,
      fun k j hk hj hl hkj hj4 hw hok hv => ?revoke, fun hl hkj => revokeVendorKey_notLater h hs htr hl hkj,
      fun i k hl hlc ho hw hv => decommission_burns h hs htr hl hlc ho hw hv⟩
    case claim =>
      obtain ⟨hpend, hout, hotp⟩ := (s.dev.wake 5 0).burnOwner_spec 0 (Config.sha256 key)
      refine .of_leaves (claimOwnership_burns h hs htr hl hkey hlc hp hn hw hv) ⟨hpend, hotp.trans ?_, Dev.sent_emit hout _⟩
      rw [Dev.owners_of_nextOwner_zero hn]
      rfl
    case transfer =>
      obtain ⟨hpend, -, hotp⟩ := (s.dev.wake 5 0).burnOwner_spec (s.dev.wake 5 0).nextOwner (Config.sha256 key)
      exact .of_leaves (transferOwnership_burns h hs htr hl hkey hlc ho hn hdig hw hv hv') ⟨hpend, congrArg Otp.owners hotp⟩
    case revoke =>
      exact .of_leaves (revokeVendorKey_burns h hs htr hl hkey hk hj hkj hj4 hw hok hv)
        ⟨Dev.raise_pending _ 171 _ _ (by decide), congrArg Dev.otp (Dev.raise_bare _ 171 _ _)⟩
  case floor =>
    rintro s v rfl hp
    exact ⟨fun hf ht => .of_done rfl (Dev.floorRise_due hp hf ht), fun hv => .of_done rfl (if_neg (by simp [Nat.not_lt.mpr hv]))⟩

end Sys2Proof.Machine

namespace Sys2Proof.Machine

open Sys2Proof

/-! ### A refused entry -/

/-- From `d` to `e` the entry is refused for `cause` by `slice`: EV181 is raised, the device wakes again to the state that it held, notes the
refusal and when to try again, and apart from its power state and events nothing changes (R339 to R341). -/
structure Dev.Refused (d e : Dev) (slice cause : Nat) : Prop where
  raised : e.Pending 181
  entering : e.pwr.entering = false
  waking : e.pwr.waking = true
  wakeTo : e.pwr.wakeTo = d.pwr.st
  cause : e.pwr.lastCause = cause
  slice : e.pwr.lastSlice = slice
  retryAt : e.pwr.retryAt = some (d.time.loc + d.fld 0x504 31 16)
  frame : e.Agrees { d with pwr := e.pwr }
  pend : ∀ n, d.Pending n → e.Pending n

theorem Dev.refuseEntry_refused {d : Dev} (h : d.pwr.entering = true) (slice cause partner at_ : Nat) :
    d.Refused (d.refuseEntry slice cause partner at_) slice cause := by
  obtain ⟨rs, o, heq⟩ : ∃ rs o, d.refuseEntry slice cause partner at_ = (d.setPwr fun p => { p with
      refusers := rs, refOrder := o, entering := false, waking := true, wakeTo := p.st, refused := true, done := p.done + b2n p.stepBusy,
      stepBusy := false, woken := 0, lastCause := cause, lastSlice := slice, lastHeld := p.st, lastPartner := partner, partnerSlice := at_,
      retryAt := some (d.time.loc + d.fld 0x504 31 16) }).raiseI 181 { slice := slice, cause := cause, detail := [d.pwr.st, partner, at_] } :=
    ⟨_, _, if_neg (by simp [h])⟩
  rw [heq]
  generalize hd1 : d.setPwr _ = d1
  have hr := d1.raiseI_raised 181 { slice := slice, cause := cause, detail := [d.pwr.st, partner, at_] }
  have hp := d1.raiseI_pending 181 { slice := slice, cause := cause, detail := [d.pwr.st, partner, at_] } (by decide)
  generalize d1.raiseI 181 _ = e at hr hp
  have hpwr := hr.pwr
  subst hd1
  refine ⟨hp, ?_, ?_, ?_, ?_, ?_, ?_, ?_, hr.pend⟩
  case refine_7 => rw [hpwr]; exact hr.bare
  all_goals rw [hpwr]; rfl

/-! ### Entry steps -/

section
variable {d : Dev} {f : EntryFacts}

theorem Dev.entryStep_idle (f : EntryFacts) (h : d.pwr.entering = false ∨ d.pwr.mark = d.time.loc + 1) : d.entryStep f = d :=
  if_pos (by rcases h with h | h <;> simp [h])

theorem Dev.endStep_waits (h : d.pwr.stepBusy = true → d.stepOver (d.pwr.done + 1) = false) : d.endStep f = d :=
  if_neg fun ⟨_, hb, ho⟩ => by simp [h hb] at ho

theorem Dev.endStep_ends (he : d.pwr.entering = true) (hb : d.pwr.stepBusy = true) (ho : d.stepOver (d.pwr.done + 1) = true)
    (h8 : d.pwr.done + 1 ≠ 8) : d.endStep f = d.setPwr fun p => { p with done := p.done + 1, stepBusy := false } := by
  rw [Dev.endStep, if_pos ⟨he, hb, ho⟩, if_neg h8]

theorem Dev.reachState_not_over (h : d.pwr.stepBusy = true ∨ d.pwr.done < groupEnd (d.pwr.st + 1)) : d.reachState = d :=
  if_neg fun ⟨_, hb, _, hg⟩ => by
    rcases h with h | h
    · simp [h] at hb
    · exact Nat.not_lt.mpr hg h

theorem Dev.endRest_only (d : Dev) (r : Ret) (ext : Nat) (out : List Byte) :
    (d.endRest r ext out).pwr = d.pwr ∧ (d.endRest r ext out).ev = d.ev ∧ (d.endRest r ext out).pool = d.pool := by
  unfold Dev.endRest
  split
  · next b _ =>
    obtain ⟨bg, late, o, h⟩ := d.finishBg_only b r ext out
    rw [h]
    exact ⟨rfl, rfl, rfl⟩
  · exact ⟨rfl, rfl, rfl⟩

/-- The target is reached: EV180, and the Request Rest that waited for it completes (R82, R338). -/
theorem Dev.reachState_target {n : Nat} (he : d.pwr.entering = true) (hb : d.pwr.stepBusy = false) (ht : d.pwr.target = n)
    (hs : d.pwr.st + 1 = n) (hg : d.pwr.done = groupEnd n) : d.reachState.Pending 180 ∧ d.reachState.pwr = { d.pwr with
      st := n, entries := satInc 65535 d.pwr.entries, changed := d.pool, entering := false } := by
  have heq : d.reachState = ((d.setPwr fun p => { p with
      st := n, entries := satInc 65535 p.entries, changed := d.pool, entering := n != p.target }).raiseI 180
        { slice := tileSlice 0, detail := [n] }).endRest .success 0 (restOut n 0 0 0 0) := by
    rw [Dev.reachState, if_pos ⟨he, by simp [hb], by omega, by rw [hs, hg]⟩, hs, if_pos ht.symm]
  rw [heq]
  generalize hd1 : d.setPwr _ = d1
  obtain ⟨hpwr, hev, -⟩ := (d1.raiseI 180 { slice := tileSlice 0, detail := [n] }).endRest_only .success 0 (restOut n 0 0 0 0)
  have hp := d1.raiseI_pending 180 { slice := tileSlice 0, detail := [n] } (by decide)
  refine ⟨by rwa [Dev.Pending, hev], ?_⟩
  rw [hpwr, (d1.raiseI_raised 180 _).pwr, ← hd1]
  simp [Dev.setPwr, ht]

variable (he : d.pwr.entering = true) (hm : d.pwr.mark ≠ d.time.loc + 1)
include he hm

theorem Dev.entryStep_waits (hb : d.pwr.stepBusy = true) (ho : d.stepOver (d.pwr.done + 1) = false) :
    d.entryStep f = d.setPwr fun p => { p with mark := d.time.loc + 1 } := by
  have hend : (d.setPwr fun p => { p with mark := d.time.loc + 1 }).endStep f = d.setPwr fun p => { p with mark := d.time.loc + 1 } :=
    Dev.endStep_waits fun _ => ho
  have hreach : (d.setPwr fun p => { p with mark := d.time.loc + 1 }).reachState = d.setPwr fun p => { p with mark := d.time.loc + 1 } :=
    Dev.reachState_not_over (.inl hb)
  rw [Dev.entryStep, if_neg (by simp [he, hm]), hend, hreach]
  exact if_pos (by simp [Dev.setPwr, hb])

/-- Step 3, that begins a deeper state's group, waits for the home slices (R338). -/
theorem Dev.entryStep_third (hb : d.pwr.stepBusy = false) (hdone : d.pwr.done = 2) (hst : d.pwr.st = 1) (ht : 2 ≤ d.pwr.target) :
    d.entryStep f = (d.setPwr fun p => { p with mark := d.time.loc + 1, stepBusy := true, stepAt := d.time.loc }).endStep f := by
  have hend : (d.setPwr fun p => { p with mark := d.time.loc + 1 }).endStep f = d.setPwr fun p => { p with mark := d.time.loc + 1 } :=
    Dev.endStep_waits fun h => absurd (hb.symm.trans h) Bool.false_ne_true
  have hreach : (d.setPwr fun p => { p with mark := d.time.loc + 1 }).reachState = d.setPwr fun p => { p with mark := d.time.loc + 1 } :=
    Dev.reachState_not_over (.inr (by simp [Dev.setPwr, hdone, hst, groupEnd]))
  have hgroup : ¬groupEnd d.pwr.target ≤ 2 := by
    rcases hn : d.pwr.target with _ | _ | _ | _ | n <;> simp [groupEnd] <;> omega
  rw [Dev.entryStep, if_neg (by simp [he, hm]), hend, hreach]
  simp [Dev.setPwr, he, hb, hdone, hgroup, Dev.beginStep]

omit hm in
theorem Dev.endStep_third_over (hdone : d.pwr.done = 2) (ho : d.stepOver 3 = true) :
    (d.setPwr fun p => { p with mark := d.time.loc + 1, stepBusy := true, stepAt := d.time.loc }).endStep f =
      d.setPwr fun p => { p with mark := d.time.loc + 1, done := 3, stepBusy := false, stepAt := d.time.loc } := by
  generalize hd1 : d.setPwr (fun p => { p with mark := d.time.loc + 1, stepBusy := true, stepAt := d.time.loc }) = d1
  have h1 : d1.pwr.done = 2 := by rw [← hd1]; exact hdone
  have hover : d1.stepOver (d1.pwr.done + 1) = true := by rw [h1, ← hd1]; exact ho
  rw [Dev.endStep_ends (by rw [← hd1]; exact he) (by rw [← hd1]; rfl) hover (by omega), ← hd1]
  simp only [Dev.setPwr, hdone]

omit he hm in
theorem Dev.endStep_third_waits (hdone : d.pwr.done = 2) (ho : d.stepOver 3 = false) :
    (d.setPwr fun p => { p with mark := d.time.loc + 1, stepBusy := true, stepAt := d.time.loc }).endStep f =
      d.setPwr fun p => { p with mark := d.time.loc + 1, stepBusy := true, stepAt := d.time.loc } := by
  generalize hd1 : d.setPwr (fun p => { p with mark := d.time.loc + 1, stepBusy := true, stepAt := d.time.loc }) = d1
  have h1 : d1.pwr.done = 2 := by rw [← hd1]; exact hdone
  refine Dev.endStep_waits fun _ => ?_
  rw [h1, ← hd1]
  exact ho

/-- The last step of the group of the target state ends (R338). -/
theorem Dev.entryStep_reaches {n : Nat} (hb : d.pwr.stepBusy = true) (ho : d.stepOver (d.pwr.done + 1) = true) (ht : d.pwr.target = n)
    (hs : d.pwr.st + 1 = n) (hg : d.pwr.done + 1 = groupEnd n) (h3 : n ≠ 3) :
    (d.entryStep f).pwr.st = n ∧ (d.entryStep f).pwr.done = groupEnd n ∧ (d.entryStep f).pwr.entering = false ∧
      (d.entryStep f).pwr.changed = d.pool ∧ (d.entryStep f).Pending 180 := by
  have h8 : d.pwr.done + 1 ≠ 8 := by
    rw [hg]
    rcases n with _ | _ | _ | _ | n <;> simp [groupEnd] at h3 ⊢
  have hend : (d.setPwr fun p => { p with mark := d.time.loc + 1 }).endStep f = d.setPwr fun p => { p with
      mark := d.time.loc + 1, done := p.done + 1, stepBusy := false } := Dev.endStep_ends he hb ho h8
  generalize hd1 : (d.setPwr fun p => { p with mark := d.time.loc + 1, done := p.done + 1, stepBusy := false }) = d1 at hend
  obtain ⟨hpend, hpwr⟩ := d1.reachState_target (n := n) (by rw [← hd1]; exact he) (by rw [← hd1]; rfl) (by rw [← hd1]; exact ht)
    (by rw [← hd1]; exact hs) (by rw [← hd1]; exact hg)
  have hstep : d.entryStep f = d1.reachState := by
    rw [Dev.entryStep, if_neg (by simp [he, hm]), hend]
    exact if_pos (by rw [hpwr]; rfl)
  rw [hstep, hpwr]
  subst hd1
  exact ⟨rfl, hg, rfl, rfl, hpend⟩

end

/-! ### Waits that end in a refusal, and the retry -/

section
variable {d : Dev}

theorem Dev.hsWaitExpiry_early (h : d.time.loc < d.pwr.stepAt + d.fld 0x504 7 4) : d.hsWaitExpiry = d :=
  if_neg fun ⟨_, _, _, ht⟩ => Nat.not_lt.mpr ht h

theorem Dev.sleepReplyTimeout_early (h : d.time.loc < d.pwr.stepAt + 4) : d.sleepReplyTimeout = d :=
  if_neg fun ⟨_, _, _, ht⟩ => Nat.not_lt.mpr ht h

section
variable (he : d.pwr.entering = true) (hb : d.pwr.stepBusy = true)
include he hb

/-- HS_WAIT_EXPIRY (R338): the first home slice that is not idle refuses. -/
theorem Dev.hsWaitExpiry_refuses {n : Nat} (hd : d.pwr.done = 2) (hf : (List.range d.nHs).find? (fun n => !d.hsIdle n) = some n)
    (ht : d.pwr.stepAt + d.fld 0x504 7 4 ≤ d.time.loc) : d.Refused d.hsWaitExpiry (hsSlice n) 1 := by
  have heq : d.hsWaitExpiry = d.refuseEntry (hsSlice n) 1 := by
    rw [Dev.hsWaitExpiry, if_pos ⟨he, hb, hd, ht⟩, hf]
  rw [heq]
  exact Dev.refuseEntry_refused he _ _ _ _

/-- SLEEP_REPLY_TIMEOUT (R338, R341): the first partner that has not answered refuses, and is no longer asked. -/
theorem Dev.sleepReplyTimeout_refuses {q : Nat} (hd : d.pwr.done = 7) (hf : d.ports.find? (fun q =>
    (d.port q).sleepAsked && (d.port q).st == .up && !(d.port q).draining) = some q) (ht : d.pwr.stepAt + 4 ≤ d.time.loc) :
    (d.setPort q fun x => { x with sleepAsked := false }).Refused d.sleepReplyTimeout (portSlice q) 3 := by
  have heq : d.sleepReplyTimeout =
      (d.setPort q fun x => { x with sleepAsked := false }).refuseEntry (portSlice q) 3 (d.port q).neighbour 0 := by
    rw [Dev.sleepReplyTimeout, if_pos ⟨he, hb, hd, ht⟩, hf]
  rw [heq]
  exact Dev.refuseEntry_refused (d := d.setPort q fun x => { x with sleepAsked := false }) he _ _ _ _

end

/-- ENTRY_RETRY (R340) where the device holds less than its target and the time to try again has come. -/
theorem Dev.entryRetry_due (he : d.pwr.entering = false) (hw : d.pwr.waking = false) (hs : d.pwr.st < d.pwr.target)
    (hr : ∃ t, d.pwr.retryAt = some t ∧ t ≤ d.time.loc) :
    d.entryRetry = d.setPwr fun p => { p with retryAt := none, entering := true } := by
  obtain ⟨t, hr, ht⟩ := hr
  exact if_pos (by simp [he, hw, hs, hr, ht])

theorem Dev.entryRetry_not_due (h : d.pwr.entering = true ∨ d.pwr.waking = true ∨ d.pwr.retryAt = none) : d.entryRetry = d :=
  if_neg (by rcases h with h | h | h <;> simp [h])

/-! ### The guest's answer to Quiesce (R441) -/

/-- The device once the guest's answer to Quiesce is awaited no more. -/
def Dev.quiesced (d : Dev) : Dev := { d with gst := { d.gst with quiesce := 0 } }

theorem Dev.refuse_refused (hq : d.gst.quiesce = 1) (he : d.pwr.entering = true) : d.quiesced.Refused d.refuse 0xA00 4 := by
  have heq : d.refuse = d.quiesced.refuseEntry 0xA00 4 := if_pos hq
  rw [heq]
  exact Dev.refuseEntry_refused (d := d.quiesced) he _ _ _ _

theorem Dev.quiesceTimeout_early (h : d.time.loc < d.pwr.stepAt + 10) : d.quiesceTimeout = d := if_neg fun hn => Nat.not_lt.mpr hn.2 h

theorem Dev.quiesceTimeout_refused (hq : d.gst.quiesce = 1) (he : d.pwr.entering = true) (ht : d.pwr.stepAt + 10 ≤ d.time.loc) :
    (d.quiesced.raise 226 0xA00).Refused d.quiesceTimeout 0xA00 4 := by
  have heq : d.quiesceTimeout = (d.quiesced.raise 226 0xA00).refuseEntry 0xA00 4 := if_pos ⟨hq, ht⟩
  rw [heq]
  refine Dev.refuseEntry_refused ?_ _ _ _ _
  rw [(d.quiesced.raise_raised 226 0xA00 0).pwr]
  exact he

end

/-- Settles O33: the steps by what begins, waits and ends, and each refusal by `Dev.Refused`. -/
theorem entryStepsWaitAndAreRefused : Obligations.EntryStepsWaitAndAreRefused := by
  refine ⟨fun f s h => .of_done rfl (Dev.entryStep_idle f h), fun f s he hm hb ho => .of_done rfl (Dev.entryStep_waits he hm hb ho),
    ?third, fun f s n he hm hb ho ht hs hg h3 => .of_done rfl (Dev.entryStep_reaches he hm hb ho ht hs hg h3), ?homes, ?ports,
    fun s => ⟨fun he hw hs hr => .of_done rfl (Dev.entryRetry_due he hw hs hr), fun h => .of_done rfl (Dev.entryRetry_not_due h)⟩,
    ?guest, ?unasked⟩
  case third =>
    intro f s he hm hb hdone hst ht
    have hstep := Dev.entryStep_third (f := f) he hm hb hdone hst ht
    have hover : s.dev.stepOver 3 = true ↔ ∀ n < s.dev.nHs, s.dev.hsIdle n = true := by simp [Dev.stepOver]
    refine ⟨fun hi => .of_done rfl (hstep.trans ?_), fun ⟨n, hn, hi⟩ => .of_done rfl (hstep.trans ?_)⟩
    · exact Dev.endStep_third_over he hdone (hover.mpr hi)
    · exact Dev.endStep_third_waits hdone (Bool.eq_false_iff.mpr fun h => by simp [hover.mp h n hn] at hi)
  case homes =>
    intro s n he hb hd hf
    refine ⟨fun h => .of_done rfl (Dev.hsWaitExpiry_early h), fun ht => .of_done rfl ?_⟩
    have hr := Dev.hsWaitExpiry_refuses he hb hd hf ht
    exact ⟨hr.raised, hr.entering, hr.waking, hr.wakeTo, hr.cause, hr.slice, hr.retryAt⟩
  case ports =>
    intro s q he hb hd hf
    refine ⟨fun h => .of_done rfl (Dev.sleepReplyTimeout_early h), fun ht => .of_done rfl ?_⟩
    have hr := Dev.sleepReplyTimeout_refuses he hb hd hf ht
    refine ⟨hr.raised, hr.entering, hr.waking, hr.cause, hr.slice, ?_⟩
    have hport : s.dev.sleepReplyTimeout.port q = (s.dev.setPort q fun x => { x with sleepAsked := false }).port q :=
      (congrArg (·.port q) hr.frame :)
    rw [hport, Dev.port_setPort_same]
  case guest =>
    intro s hq
    refine ⟨.of_done rfl (if_pos hq), fun he => .of_done rfl ?_, fun h => .of_done rfl (Dev.quiesceTimeout_early h),
      fun ht he => .of_done rfl ?_⟩
    · have hr := Dev.refuse_refused hq he
      exact ⟨hr.raised, hr.waking, hr.cause, hr.slice, (congrArg (·.gst.quiesce) hr.frame :)⟩
    · have hr := Dev.quiesceTimeout_refused hq he ht
      have hgst := (s.dev.quiesced.raise_raised 226 0xA00 0).gst
      refine ⟨hr.pend 226 (Dev.raise_pending _ 226 _ _ (by decide)), hr.raised, ?_, hr.cause⟩
      exact (congrArg (·.gst.quiesce) hr.frame : _).trans (congrArg GuestSt.quiesce hgst)
  case unasked =>
    intro s hq c hc
    simp only [List.mem_cons, List.not_mem_nil, or_false] at hc
    rcases hc with rfl | rfl | rfl
    · exact .of_done rfl (if_neg hq)
    · exact .of_done rfl (if_neg hq)
    · exact .of_done rfl (if_neg fun h => hq h.1)

end Sys2Proof.Machine

namespace Sys2Proof.Machine

open Sys2Proof

/-! ### A wake -/

section
variable {d : Dev} {code idx : Nat}

theorem Dev.wake_awake (hw : d.pwr.waking = false) (he : d.pwr.entering = false) (hs : d.pwr.st = 0) : d.wake code idx = d := by
  simp [Dev.wake, hw, he, hs]

theorem Dev.wake_resting (hw : d.pwr.waking = false) (he : d.pwr.entering = false) (hs : d.pwr.st ≠ 0) : d.wake code idx =
    (d.setPwr fun p => { p with waking := true, wakeTo := 0, woken := 0, src := code, idx := idx, retryAt := none }).raise 183 := by
  simp [Dev.wake, hw, he, hs]

/-- The device that a wake source has interrupted in an entry (R345). -/
def Dev.interrupted (d : Dev) (code idx : Nat) : Dev := d.setPwr fun p => { p with
  entering := false, waking := true, wakeTo := 0, cut := true, done := p.done + b2n p.stepBusy, stepBusy := false, woken := 0,
  interrupted := satInc 65535 p.interrupted, src := code, idx := idx, retryAt := none }

theorem Dev.wake_entering (hw : d.pwr.waking = false) (he : d.pwr.entering = true) :
    d.wake code idx = ((d.interrupted code idx).raise 182).raise 183 := by
  simp [Dev.wake, hw, he, Dev.interrupted]

theorem Dev.wake_deeper (hw : d.pwr.waking = true) (ht : d.pwr.wakeTo ≠ 0) :
    d.wake code idx = (d.setPwr fun p => { p with wakeTo := 0, src := code, idx := idx }).raise 183 := by
  simp [Dev.wake, hw, ht]

/-- An interrupted entry raises EV182 and EV183 (R345). -/
theorem Dev.interrupted_raised (d : Dev) (code idx : Nat) : (((d.interrupted code idx).raise 182).raise 183).Pending 182 ∧
    (((d.interrupted code idx).raise 182).raise 183).Pending 183 ∧
      (((d.interrupted code idx).raise 182).raise 183).Agrees (d.interrupted code idx) :=
  ⟨(Dev.raise_raised _ 183 _ _).pend 182 (Dev.raise_pending _ 182 _ _ (by decide)), Dev.raise_pending _ 183 _ _ (by decide),
    (Dev.raise_bare _ 183 _ _).trans (Dev.raise_bare _ 182 _ _)⟩

/-- A wake source that finds the device resting or entering starts a wake to DS0 and is recorded (R342, R345). -/
theorem Dev.wake_starts (hw : d.pwr.waking = false) (hs : d.pwr.st ≠ 0) : (d.wake code idx).Pending 183 ∧
    (d.wake code idx).pwr.waking = true ∧ (d.wake code idx).pwr.wakeTo = 0 ∧ (d.wake code idx).pwr.src = code ∧
      (d.wake code idx).pwr.idx = idx := by
  cases he : d.pwr.entering with
  | false =>
    rw [Dev.wake_resting hw he hs]
    refine ⟨Dev.raise_pending _ 183 _ _ (by decide), ?_⟩
    rw [(Dev.raise_raised _ 183 _ _).pwr]
    exact ⟨rfl, rfl, rfl, rfl⟩
  | true =>
    rw [Dev.wake_entering hw he]
    refine ⟨Dev.raise_pending _ 183 _ _ (by decide), ?_⟩
    rw [(Dev.raise_raised _ 183 _ _).pwr, (Dev.raise_raised _ 182 _ _).pwr]
    exact ⟨rfl, rfl, rfl, rfl⟩

/-! ### The end of a wake -/

theorem Dev.wakeStep_idle (h : d.pwr.waking = false ∨ d.pwr.mark = d.time.loc + 1) : d.wakeStep = d :=
  if_pos (by rcases h with h | h <;> simp [h])

/-- A wake that followed no refusal is over: the device holds the state aimed at (R343, R346). -/
theorem Dev.wakeDone_pwr (hr : d.pwr.refused = false) : d.wakeDone.pwr = { d.pwr with
    waking := false, st := d.pwr.wakeTo, refused := false, changed := if d.pwr.wakeTo != d.pwr.st then d.pool else d.pwr.changed,
    afterWake := d.pwr.wakeTo == 0, woken := 0, cut := false,
    idleSince := if d.pwr.wakeTo = 0 then d.time.loc else d.pwr.idleSince } := by
  unfold Dev.wakeDone
  extract_lets p moved d1
  rw [if_neg (by simp [p, hr])]
  split
  · exact (d1.endRest_only _ _ _).1
  · rfl

theorem Dev.wakeStep_done (hw : d.pwr.waking = true) (hm : d.pwr.mark ≠ d.time.loc + 1) (hd : d.pwr.done ≤ groupEnd d.pwr.wakeTo) :
    d.wakeStep = (d.setPwr fun p => { p with mark := d.time.loc + 1 }).wakeDone := by
  rw [Dev.wakeStep, if_neg (by simp [hw, hm])]
  exact if_pos hd

/-! ### Re-entry and activations -/

theorem Dev.activationWake_due {a : ActEntry} (hs : 0 < d.pwr.st) (hw : d.pwr.waking = false)
    (ha : d.acts.find? (fun a => decide (a.stroke ≤ d.pool + d.pwr.exit d.pwr.st + 2)) = some a) : d.activationWake = d.wake 7 a.cls := by
  rw [Dev.activationWake, if_pos (by simp [hs, hw]), ha]

theorem Dev.activationWake_awake (hs : d.pwr.st = 0) (he : d.pwr.entering = false) : d.activationWake = d := if_neg (by simp [hs, he])

end

/-- Settles O34: the wake by the state that its source finds, and its end by `wakeDone`. -/
theorem wakeSourcesStartTheWake : Obligations.WakeSourcesStartTheWake := by
  refine ⟨?source, fun s hg t ht => ?guest, fun s hg => .of_done rfl (if_neg hg), fun s h => .of_done rfl (Dev.wakeStep_idle h), ?step,
    fun s => ⟨fun ha hi => .of_done rfl (if_pos ⟨ha, hi⟩), fun h => .of_done rfl (if_neg fun hn => Nat.not_lt.mpr hn.2 h)⟩,
    fun s => ⟨fun hs hw a ha => ?activation, fun hs he => .of_done rfl (Dev.activationWake_awake hs he)⟩⟩
  case source =>
    intro s code idx h1 h9
    have hsrc : s.dev.wakeSource code idx = s.dev.wake code idx := if_neg (by omega)
    refine ⟨fun hw he hs => .of_done rfl (hsrc.trans (Dev.wake_awake hw he hs)),
      fun hw he hs => .of_raise_on rfl (hsrc.trans (Dev.wake_resting hw he hs)) (by decide), fun hw he => .of_done rfl ?_,
      fun hw ht => .of_raise_on rfl (hsrc.trans (Dev.wake_deeper hw ht)) (by decide)⟩
    rw [hsrc, Dev.wake_entering hw he]
    exact s.dev.interrupted_raised code idx
  case guest =>
    cases ht
    exact .of_done rfl (if_pos hg)
  case step =>
    intro s hw hm hd hr
    refine .of_done (congrArg s.done (Dev.wakeStep_done hw hm hd)) ?_
    have hpwr := Dev.wakeDone_pwr (d := s.dev.setPwr fun p => { p with mark := s.dev.time.loc + 1 }) hr
    rw [hpwr]
    exact ⟨rfl, rfl, fun h => if_pos (bne_iff_ne.mpr h), rfl, fun h => if_pos h⟩
  case activation =>
    exact .of_done (congrArg s.done (Dev.activationWake_due hs hw ha)) (Dev.wake_starts hw hs.ne')

end Sys2Proof.Machine

namespace Sys2Proof.Machine

open Sys2Proof

/-! ### Clock monitors -/

section
variable {d : Dev} {k : Nat}

theorem Dev.mon_setMon_same (d : Dev) (k : Nat) (f : Mon → Mon) : (d.setMon k f).mon k = f (d.mon k) :=
  (Tbl.get_upd _ _ k f k).trans (if_pos rfl)

theorem Dev.setMon_congr {f g : Mon → Mon} (h : f (d.mon k) = g (d.mon k)) : d.setMon k f = d.setMon k g := by
  simp only [Dev.setMon, Dev.setClk, Tbl.upd]
  rw [show f (Tbl.get {} d.clk.mons k) = g (Tbl.get {} d.clk.mons k) from h]

/-- Choosing the reference changes nothing of the clocks but the reference, and clears no pending bit (R351). -/
theorem Dev.chooseRef_clk (d : Dev) : (∃ r, d.chooseRef.clk = { d.clk with refSrc := r }) ∧ ∀ n, d.Pending n → d.chooseRef.Pending n := by
  have hset : ∀ r, (∃ q, (d.setRef r).clk = { d.clk with refSrc := q }) ∧ ∀ n, d.Pending n → (d.setRef r).Pending n := by
    intro r
    by_cases h : d.clk.refSrc = r
    · rw [Dev.setRef, if_pos h]
      exact ⟨⟨d.clk.refSrc, rfl⟩, fun _ h => h⟩
    · rw [Dev.setRef, if_neg h]
      have hr := Dev.raiseI_raised { d.setClk fun c => { c with refSrc := r } with time := { d.time with refMoved := true } } 197
        { slice := tileSlice 0, detail := [r] }
      exact ⟨⟨r, hr.clk⟩, hr.pend⟩
  unfold Dev.chooseRef
  extract_lets
  exact hset _

/-- A window that does not declare its clock failed is the judgement of the window alone (R354). -/
theorem Dev.monitorWindow_of_failed_eq {c : ClockId} {dev : Nat} {e : Dev} (he : d.clockMonitorWindow c dev = e)
    (h : (e.mon (clockKey c)).failed = (d.mon (clockKey c)).failed) : d.monitorWindow c dev = e := by
  rw [Dev.monitorWindow, he, if_neg (by simp [h])]

/-- A fabric clock has a failover, and nothing else follows from its failure (R352). -/
theorem Dev.monitorWindow_fabric (d : Dev) (t dev : Nat) : d.monitorWindow (.fabric t) dev = d.clockMonitorWindow (.fabric t) dev :=
  ite_self _

variable {c : ClockId} {dev : Nat} (hm : d.monitored c = true)
include hm

theorem Dev.monitorWindow_skipped (hs : (d.mon (clockKey c)).skip = true) :
    d.monitorWindow c dev = d.setMon (clockKey c) fun m => { m with skip := false } :=
  Dev.monitorWindow_of_failed_eq (by simp [Dev.clockMonitorWindow, hm, hs]) (by rw [Dev.mon_setMon_same])

variable (hs : (d.mon (clockKey c)).skip = false)
include hs

/-- A window within the limit clears the count of bad ones (R354). -/
theorem Dev.monitorWindow_good (hd : dev ≤ d.fld 0x604 23 16) : ((d.monitorWindow c dev).mon (clockKey c)).bad = 0 ∧
    ((d.monitorWindow c dev).mon (clockKey c)).goodNow = true := by
  have heq : d.clockMonitorWindow c dev = (d.setMon (clockKey c) fun m => { m with bad := 0, good := satInc 255 m.good, goodNow := true }).chooseRef := by
    simp [Dev.clockMonitorWindow, hm, hs, Nat.not_lt.mpr hd]
  have hmon : ∀ f, (d.setMon (clockKey c) f).chooseRef.mon (clockKey c) = f (d.mon (clockKey c)) := by
    intro f
    obtain ⟨⟨r, hclk⟩, -⟩ := (d.setMon (clockKey c) f).chooseRef_clk
    rw [← d.mon_setMon_same (clockKey c) f, Dev.mon, hclk, Dev.mon]
  rw [Dev.monitorWindow_of_failed_eq heq (by rw [hmon]), hmon]
  exact ⟨rfl, rfl⟩

variable (hd : d.fld 0x604 23 16 < dev)
include hd

theorem Dev.clockMonitorWindow_bad : d.clockMonitorWindow c dev = d.clockBad c := by
  simp [Dev.clockMonitorWindow, hm, hs, hd]

omit hm hs hd in
/-- The first bad window is counted (R354). -/
theorem Dev.clockBad_first (hb : (d.mon (clockKey c)).bad = 0) :
    d.clockBad c = d.setMon (clockKey c) fun m => { m with bad := 1, good := 0, goodNow := false } := by
  unfold Dev.clockBad
  extract_lets k d1 m fails
  have hbad : m.bad = 1 := by
    show (d1.mon k).bad = 1
    rw [Dev.mon_setMon_same]
    simp [k, hb, satInc]
  rw [if_neg (by simp [fails, hbad])]
  exact Dev.setMon_congr (by simp [k, hb, satInc])

omit hm hs hd in
/-- The second bad window of a fabric clock in a row: its tile goes to its RC oscillator (R354 to R356). -/
theorem Dev.clockBad_second_fabric {t : Nat} (hb : (d.mon (clockKey (.fabric t))).bad = 1) (hf : (d.mon (clockKey (.fabric t))).failed = false) :
    (d.clockBad (.fabric t)).Pending 1 ∧ (d.clockBad (.fabric t)).clk.failTile = t ∧ (d.clockBad (.fabric t)).clk.failDom = 3 ∧
      ((d.clockBad (.fabric t)).mon (clockKey (.fabric t))).failed = true ∧
      (d.clockBad (.fabric t)).clk.onRc = (d.clk.onRc ||| (1#11 <<< t)) := by
  unfold Dev.clockBad
  extract_lets k d1 m fails d2
  have hmon : m = { d.mon k with bad := 2, good := 0, goodNow := false } := by
    show d1.mon k = _
    rw [Dev.mon_setMon_same]
    simp [k, hb, satInc]
  have hf' : (d.mon k).failed = false := hf
  have hk : k ≠ 0 := show 2 + t ≠ 0 by omega
  have hfails : fails = true := by simp [fails, hmon, hf', hk]
  rw [if_pos hfails]
  have hmon2 : (d2.mon k).failed = true := by
    show ((d1.setMon k _).mon k).failed = true
    rw [Dev.mon_setMon_same]
  have hrc : d2.clk.onRc = d.clk.onRc := rfl
  clear_value d2
  generalize hd3 : ((d2.setClk fun c => { c with failTile := t, failDom := 3, failIdx := 0 }).setClk fun c => { c with
    onRc := c.onRc ||| (1#11 <<< t) }) = d3
  have hfail : d2.failover (.fabric t) = d3.raise 1 (tileSlice t) := by rw [← hd3]; rfl
  rw [hfail]
  obtain ⟨⟨r, hclk⟩, hpend⟩ := (d3.raise 1 (tileSlice t)).chooseRef_clk
  have hclk3 := (d3.raise_raised 1 (tileSlice t) 0).clk
  refine ⟨hpend 1 (d3.raise_pending 1 _ _ (by decide)), ?_, ?_, ?_, ?_⟩ <;>
    simp only [Dev.mon, hclk, hclk3] <;> subst hd3
  · rfl
  · rfl
  · exact hmon2
  · rw [← hrc]
    rfl

end

/-! ### Trims of the RC oscillators -/

/-- One step of one trim that stays off its ends is taken, and raises nothing (R357). -/
theorem Dev.rcTrim_one {d : Dev} {t : Nat} {i v : Int} (hp : d.pool % 1024 = 0) (ht : d.clk.trimAt ≠ d.time.loc + 1)
    (hr : d.clk.refSrc < 2) (hpres : t = 0 ∨ d.tilePresent (t - 1) = true) (hv : v = Tbl.get 0 d.clk.trims t + max (-1) (min 1 i))
    (hlo : -126 ≤ v) (hhi : v ≤ 126) : d.rcTrim [(t, i)] = d.setClk fun c => { c with
      trimFrozen := false, trimAt := d.time.loc + 1, trims := Tbl.set 0 c.trims t v } := by
  have hone : ([(t, i)].filter fun s => s.1 == 0 || d.tilePresent (s.1 - 1)) = [(t, i)] := by simpa using hpres
  have hclamp : max (-127) (min 127 v) = v := by omega
  rw [Dev.rcTrim, if_neg (by simp [hp, ht]), if_pos (by simp [hr]), hone]
  simp only [forAll, List.foldl_cons, List.foldl_nil, Dev.setClk, ← hv, hclamp]
  exact if_neg (by omega)

/-! ### Operating points -/

section
variable {d : Dev} {i : Nat}

theorem Dev.pllLocked_counts {t : Nat} (hm : d.clk.moving = true) (hf : d.fabricTiles.contains t = true)
    (hn : d.clk.pllLocked.contains t = false) : d.pllLocked t = d.setClk fun c => { c with pllLocked := t :: c.pllLocked } :=
  if_pos (by rw [hm, hf, hn]; rfl)

theorem Dev.railPoll_settles {mv tgt : Nat} (hi : i < 4) (hs : d.clk.settled.contains i = false) (ht : tgt = d.clk.railTgt.getD i 0)
    (h1 : mv ≤ tgt + 5) (h2 : tgt ≤ mv + 5) :
    d.railPoll i mv = d.setClk fun c => { c with railMv := c.railMv.set i mv, settled := i :: c.settled } := by
  rw [Dev.railPoll, if_pos ⟨hi, by rw [hs]; rfl⟩]
  simp only [← ht, if_pos (And.intro h1 h2)]

theorem Dev.railPoll_moves {mv tgt : Nat} (hi : i < 4) (hs : d.clk.settled.contains i = false) (ht : tgt = d.clk.railTgt.getD i 0)
    (h : mv > tgt + 5 ∨ tgt > mv + 5) : d.railPoll i mv = d.setClk fun c => { c with railMv := c.railMv.set i mv } := by
  rw [Dev.railPoll, if_pos ⟨hi, by rw [hs]; rfl⟩]
  simp only [← ht, if_neg (show ¬(mv ≤ tgt + 5 ∧ tgt ≤ mv + 5) by omega)]

theorem Dev.opSequenceFault_paused (h : d.coresGone = true) (why : OpFaultReason) : d.opSequenceFault i why = d := if_pos (by simp [h])

theorem Dev.opSequenceFault_pll_early (h : d.time.loc < d.clk.opStart + 20) : d.opSequenceFault i .pll = d :=
  if_pos (by simp [Nat.not_le.mpr h])

theorem Dev.opSequenceFault_rail_early (h : d.time.loc < d.clk.slewAt + d.slewTime + 64 ∨ d.clk.deferred = true) :
    d.opSequenceFault i .rail = d :=
  if_pos (by rcases h with h | h <;> simp [Nat.not_le.mpr, h])

/-- Three AVSBus frames without an answer end the sequence (R360). -/
theorem Dev.opSequenceFault_avsbus (hm : d.clk.moving = true) (hi : i < 4) (hg : d.coresGone = false) :
    (d.opSequenceFault i .avsbus).Pending 195 ∧ (d.opSequenceFault i .avsbus).clk.moving = false ∧
      (d.opSequenceFault i .avsbus).clk.opFault = true ∧ (d.opSequenceFault i .avsbus).clk.faultRail = i ∧
      (d.opSequenceFault i .avsbus).clk.opNow = max d.clk.opNow d.clk.opTo := by
  unfold Dev.opSequenceFault
  extract_lets c due d1 d2
  rw [if_neg (by simp [c, due, hm, hi, hg])]
  have hr := d2.raise_raised 195 (tileSlice 0) 0
  have h1 : d1.clk.opNow = d.clk.opNow ∧ d1.clk.opTo = d.clk.opTo := by
    unfold d1
    split <;> exact ⟨rfl, rfl⟩
  have h2 : d2.clk = { d1.clk with
    moving := false, opNow := max d1.clk.opNow d1.clk.opTo, opFault := true, faultRail := i % 4, deferred := false } := rfl
  refine ⟨d2.raise_pending 195 _ _ (by decide), ?_⟩
  rw [hr.clk, h2, h1.1, h1.2]
  exact ⟨rfl, rfl, Nat.mod_eq_of_lt hi, rfl⟩

/-! ### Gates and supplies -/

theorem Dev.gateRefusalTimeout_counts {sl : Nat} (hp : d.slicePresent sl = true) (he : d.pwr.entering = false) : d.gateRefusalTimeout sl =
    (d.setClk fun c => { c with gateRefused := Tbl.upd 0 c.gateRefused (sl / 256) (satInc 65535) }).raise 193 sl := by
  have hent : (d.countGate sl).pwr.entering = false := by
    unfold Dev.countGate
    rw [(Dev.raise_raised _ 193 sl 0).pwr]
    exact he
  rw [Dev.gateRefusalTimeout, if_neg (by simp [hp])]
  exact if_neg (by simp [hent])

/-- WARNING_CROSSING (R364) starts the brace state, or goes on with it. -/
theorem Dev.warningCrossing_braces {r t : Nat} (hm : d.monitorOn r t = true) : (d.warningCrossing r t).Pending 190 ∧
    (d.warningCrossing r t).sup.brace = true ∧ (d.warningCrossing r t).sup.rail = r ∧ (d.warningCrossing r t).sup.tile = t ∧
      (d.warningCrossing r t).sup.since = if d.sup.brace then d.sup.since else d.time.loc := by
  unfold Dev.warningCrossing
  extract_lets d1 m d2
  rw [if_neg (by simp [hm])]
  have h2 : d2.sup = d1.sup := by
    unfold d2
    split <;> rfl
  refine ⟨d2.raiseI_pending 190 _ (by decide), ?_⟩
  rw [(d2.raiseI_raised 190 _).sup, h2]
  exact ⟨rfl, rfl, rfl, rfl⟩

/-- BRACE_END (R365) after eight good strokes. -/
theorem Dev.braceEnd_ends (hb : d.sup.brace = true) (hg : 8 ≤ d.sup.goodRun) : d.braceEnd.Pending 191 ∧ d.braceEnd.sup.brace = false ∧
    d.braceEnd.sup.dips = satInc 65535 d.sup.dips := by
  unfold Dev.braceEnd
  extract_lets sup d1 long d2 d3
  rw [if_neg (by simp [hb, hg])]
  obtain ⟨c, hc⟩ := d2.resumeRaise_clkOnly
  have h3 : d3.sup = d2.sup := by
    show d2.resumeRaise.sup = d2.sup
    rw [hc]
  have h2 : d2.sup = d1.sup := (d1.drainLedger_raised.trans (Dev.journalNote_raised _ _ _ _)).sup
  refine ⟨d3.raise_pending 191 _ _ (by decide), ?_⟩
  rw [(d3.raise_raised 191 _ 0).sup, h3, h2]
  exact ⟨rfl, rfl⟩

theorem Dev.braceEnd_not_over (h : d.sup.brace = false ∨ d.sup.goodRun < 8) : d.braceEnd = d :=
  if_pos (by rcases h with h | h <;> simp [h])

end

/-- Raising an event about any detail raises it and does nothing else. -/
theorem Raises.of_raiseI {c : Instr} {s : State} {d e : Dev} {n : Nat} {i : EvInfo} (h : exec c s = s.done d) (hd : d = e.raiseI n i)
    (hn : evClass n ≠ none) : Raises c s n e := by
  subst hd
  exact .of_done h ⟨e.raiseI_pending n i hn, e.raiseI_bare n i⟩

/-- Settles O35: each monitor, sequence step and crossing by the lemma about it. -/
theorem clocksRailsAndSupplies : Obligations.ClocksRailsAndSupplies := by
  refine ⟨?window, fun c n s => ⟨fun h => .of_raiseI rfl (if_neg (by simp [h])) (by decide), fun h => .of_done rfl (if_pos (by simp [h]))⟩,
    ?trim, fun s t hm hf hn => .of_done rfl (Dev.pllLocked_counts hm hf hn),
    fun s i mv tgt hi hs ht => ⟨fun h1 h2 => .of_done rfl (Dev.railPoll_settles hi hs ht h1 h2),
      fun h => .of_done rfl (Dev.railPoll_moves hi hs ht h)⟩,
    fun s i hm => ⟨fun h why => .of_done rfl (Dev.opSequenceFault_paused h why),
      fun hi hg => .of_done rfl (Dev.opSequenceFault_avsbus hm hi hg), fun h => .of_done rfl (Dev.opSequenceFault_pll_early h),
      fun h => .of_done rfl (Dev.opSequenceFault_rail_early h)⟩,
    fun src v s hr => leaves_registerWrite rfl hr (if_pos hr),
    fun s sl hp he => .of_raise_on rfl (Dev.gateRefusalTimeout_counts hp he) (by decide),
    fun s r t hm => .of_done rfl (Dev.warningCrossing_braces hm),
    fun s => ⟨fun hb hg => .of_done rfl (Dev.braceEnd_ends hb hg), fun h => .of_done rfl (Dev.braceEnd_not_over h)⟩,
    fun s r t mv hm => ⟨fun h => .of_raiseI rfl (if_pos ⟨hm, h⟩) (by decide),
      fun h => .of_done rfl (if_neg fun hn => Nat.not_lt.mpr h hn.2)⟩⟩
  case window =>
    intro c dev s hm
    refine ⟨fun hs => .of_done rfl (Dev.monitorWindow_skipped hm hs), fun hs hd => .of_done rfl (Dev.monitorWindow_good hm hs hd),
      fun hs hd hb _ => .of_done rfl (Dev.monitorWindow_of_failed_eq ((Dev.clockMonitorWindow_bad hm hs hd).trans (Dev.clockBad_first hb))
        (by rw [Dev.mon_setMon_same])), ?_⟩
    rintro t rfl hs hd hb hf
    exact .of_done (congrArg s.done ((s.dev.monitorWindow_fabric t dev).trans (Dev.clockMonitorWindow_bad hm hs hd))) (Dev.clockBad_second_fabric hb hf)
  case trim =>
    intro s t i hp ht hr hpres hlo hhi
    refine .of_done (congrArg s.done (Dev.rcTrim_one hp ht hr hpres rfl hlo hhi)) ⟨?_, rfl⟩
    exact (Tbl.get_set 0 _ t _ t).trans (if_pos rfl)

end Sys2Proof.Machine

namespace Sys2Proof.Machine

open Sys2Proof

/-! ### The record of one bay -/

section
variable {d : Dev} {n : Nat}

theorem Dev.bay_setBay_same (d : Dev) (n : Nat) (f : Bay → Bay) : (d.setBay n f).bay n = f (d.bay n) :=
  (d.bay_setBay n f n).trans (if_pos rfl)

theorem Dev.setBay_congr {f g : Bay → Bay} (h : f (d.bay n) = g (d.bay n)) : d.setBay n f = d.setBay n g := by
  simp only [Dev.setBay, Tbl.upd]
  rw [show f (Tbl.get {} d.bays n) = g (Tbl.get {} d.bays n) from h]

/-- Two changes of one bay are one, where the first leaves a record that the table lists. -/
theorem Dev.setBay_setBay {f g : Bay → Bay} (h : f (d.bay n) ≠ {}) : (d.setBay n f).setBay n g = d.setBay n fun b => g (f b) :=
  congrArg (fun t => { d with bays := t }) (Tbl.upd_upd h)

/-- A bay in use is listed. -/
theorem Bay.ne_default {b : Bay} (h : b.st ≠ .empty) : b ≠ {} := by
  rintro rfl
  exact h rfl

theorem Bay.setCause_new {b : Bay} {now c : Nat} (h : b.causeAt ≠ now + 1) : b.setCause now c = { b with cause := c, causeAt := now + 1 } :=
  if_neg fun hn => h hn.1

/-- The time of a cause does not matter to the other fields that a bay's switch-off sets. -/
theorem Bay.setCause_fields (b : Bay) (now c : Nat) : (b.setCause now c).st = b.st ∧ (b.setCause now c).retries = b.retries ∧
    (b.setCause now c).limitCnt = b.limitCnt ∧ (b.setCause now c).trip = b.trip ∧ (b.setCause now c).gateLow = b.gateLow := by
  unfold Bay.setCause
  split <;> exact ⟨rfl, rfl, rfl, rfl, rfl⟩

theorem Dev.Raised.setBay {e : Dev} (h : d.Raised e) (n : Nat) (f : Bay → Bay) : (e.setBay n f).bare = (d.setBay n f).bare :=
  congrArg (·.setBay n f) h.bare

theorem Dev.Raised.bay {e : Dev} (h : d.Raised e) (n : Nat) : e.bay n = d.bay n := (congrArg (·.bay n) h.bare :)

theorem Dev.bayEvent_raised (d : Dev) (ev n : Nat) : d.Raised (d.bayEvent ev n) := d.raiseI_raised ev _

theorem Dev.bayEvent_pending (d : Dev) {ev : Nat} (n : Nat) (h : evClass ev ≠ none) : (d.bayEvent ev n).Pending ev := d.raiseI_pending ev _ h

/-! ### The ranks of a bay go Off -/

theorem Dev.rankOff_setBay (d : Dev) (n : Nat) (f : Bay → Bay) (ch r : Nat) :
    (d.setBay n f).rankOff ch r = (d.rankOff ch r).setBay n f := by
  unfold Dev.rankOff
  simp only [apply_ite (fun e : Dev => e.setBay n f)]
  rfl

theorem Dev.rankOff_chans (d : Dev) (ch r : Nat) : ∃ c, d.rankOff ch r = { d with chans := c } := by
  unfold Dev.rankOff
  extract_lets e
  split
  · exact ⟨d.chans, rfl⟩
  · split
    · split
      · exact ⟨_, rfl⟩
      · exact ⟨_, rfl⟩
    · split
      · exact ⟨_, rfl⟩
      · exact ⟨_, rfl⟩

/-- A change that every step of a run commutes with may as well follow the run. -/
theorem forAll_hom {α : Type} {g : Dev → Dev} {f : Dev → α → Dev} (h : ∀ d x, f (g d) x = g (f d x)) (d : Dev) (xs : List α) :
    forAll (g d) xs f = g (forAll d xs f) := List.foldl_hom g h

theorem Dev.slotOff_setBay (d : Dev) (n : Nat) (f : Bay → Bay) (ch slot : Nat) :
    (d.setBay n f).slotOff ch slot = (d.slotOff ch slot).setBay n f := by
  unfold Dev.slotOff
  exact forAll_hom (g := (·.setBay n f)) (fun e r => e.rankOff_setBay n f ch r) d _

theorem Dev.bayRanksOff_setBay (d : Dev) (m n : Nat) (f : Bay → Bay) : (d.setBay n f).bayRanksOff m = (d.bayRanksOff m).setBay n f := by
  unfold Dev.bayRanksOff
  exact forAll_hom (g := (·.setBay n f)) (f := fun e pos => e.slotOff (bayChan m pos) (m % 2)) (fun e pos => e.slotOff_setBay n f _ _) d _

theorem Dev.bayRanksOff_chans (d : Dev) (m : Nat) : ∃ c, d.bayRanksOff m = { d with chans := c } := by
  have hrel : ∀ {α : Type} {f : Dev → α → Dev}, (∀ d x, ∃ c, f d x = { d with chans := c }) → ∀ (d : Dev) (xs : List α),
      ∃ c, forAll d xs f = { d with chans := c } := fun {_ _} =>
    forAll_rel (R := fun d e => ∃ c, e = { d with chans := c }) (fun d => ⟨d.chans, rfl⟩)
      fun a b c ⟨x, hx⟩ ⟨y, hy⟩ => ⟨y, by rw [hy, hx]⟩
  exact hrel (fun d pos => hrel (fun d r => d.rankOff_chans _ r) d _) d _

theorem Dev.bayRanksOff_fields (d : Dev) (m n : Nat) : (d.bayRanksOff m).bay n = d.bay n ∧ (d.bayRanksOff m).time = d.time ∧
    (d.bayRanksOff m).ev = d.ev ∧ ∀ hi lo, (d.bayRanksOff m).bayCtl n hi lo = d.bayCtl n hi lo := by
  obtain ⟨c, hc⟩ := d.bayRanksOff_chans m
  rw [hc]
  exact ⟨rfl, rfl, rfl, fun _ _ => rfl⟩

end

end Sys2Proof.Machine

namespace Sys2Proof.Machine

open Sys2Proof

/-! ### Bays while a channel is brought up -/

/-- From `d` to `e` the bays stay as they are, and no pending bit is cleared. -/
structure Dev.BaysStay (d e : Dev) : Prop where
  bays : e.bays = d.bays
  pend : ∀ n, d.Pending n → e.Pending n

theorem Dev.BaysStay.of_eq {d e : Dev} (hb : e.bays = d.bays) (hv : e.ev = d.ev) : d.BaysStay e :=
  ⟨hb, fun n h => by rw [Dev.Pending, hv]; exact h⟩

theorem Dev.BaysStay.refl (d : Dev) : d.BaysStay d := ⟨rfl, fun _ h => h⟩

theorem Dev.BaysStay.trans {a b c : Dev} (h : a.BaysStay b) (g : b.BaysStay c) : a.BaysStay c :=
  ⟨g.bays.trans h.bays, fun n hn => g.pend n (h.pend n hn)⟩

theorem Dev.BaysStay.forAll {α : Type} {f : Dev → α → Dev} (hf : ∀ (d : Dev) x, d.BaysStay (f d x)) (d : Dev) (xs : List α) :
    d.BaysStay (Machine.forAll d xs f) :=
  forAll_rel Dev.BaysStay.refl (fun _ _ _ => Dev.BaysStay.trans) hf d xs

theorem Dev.Raised.baysStay {d e : Dev} (h : d.Raised e) : d.BaysStay e := ⟨h.bays, h.pend⟩

theorem Dev.freeFrame_baysStay (d : Dev) (f : Nat) : d.BaysStay (d.freeFrame f) := by
  unfold Dev.freeFrame
  extract_lets d1 k
  split
  · exact .of_eq rfl rfl
  · split <;> exact .of_eq rfl rfl

theorem Dev.queueJob_baysStay (d : Dev) (ty page : Nat) (front : Bool) : d.BaysStay (d.queueJob ty page front) := by
  unfold Dev.queueJob
  extract_lets k
  split
  · exact .refl d
  · exact .of_eq rfl rfl

theorem Dev.leaveSegment_baysStay (d : Dev) (e : MapEntry) : d.BaysStay (d.leaveSegment e) := by
  unfold Dev.leaveSegment
  extract_lets h m d1
  have h1 : d.BaysStay d1 := .of_eq rfl rfl
  split
  · exact .forAll (fun d i => d.freeFrame_baysStay (h + i)) d _
  · split
    · split
      · exact h1.trans (d1.queueJob_baysStay _ _ _)
      · exact h1
    · exact h1

theorem Dev.releaseStorage_baysStay (d : Dev) (e : MapEntry) : d.BaysStay (d.releaseStorage e) := by
  unfold Dev.releaseStorage
  split
  · exact .refl d
  · split
    · exact d.freeFrame_baysStay _
    · split
      · unfold Dev.freeSlots
        extract_lets f m
        split
        · exact d.freeFrame_baysStay _
        · exact .of_eq rfl rfl
      · split
        · exact d.leaveSegment_baysStay e
        · exact .refl d

theorem Dev.mediaRecord_raised (d : Dev) (a l c t : Nat) : d.Raised (d.mediaRecord a l c t) :=
  (Dev.Raised.forAll (fun d _ => d.record_raised _ _ _ _ _ _ _) d (d.viewers (a / 2 ^ 28))).trans (Dev.record_raised _ _ _ _ _ _ _ _)

theorem Dev.loseAt_baysStay (d : Dev) (ch r page : Nat) : d.BaysStay (d.loseAt ch r page) := by
  unfold Dev.loseAt Dev.losePage
  extract_lets e d1 d2 d3
  have h1 : d.BaysStay d1 := .of_eq rfl rfl
  have h2 : d1.BaysStay d2 := (d1.releaseStorage_baysStay e).trans (.of_eq rfl rfl)
  have h3 : d2.BaysStay d3 := .of_eq rfl rfl
  have h4 := ((d3.raise_raised 143 (hsSlice (d3.home page)) 0).trans (Dev.mediaRecord_raised _ (page * 4096) 4096 0 3)).baysStay
  exact h1.trans (h2.trans (h3.trans (h4.trans (.of_eq rfl rfl))))

theorem Dev.clearSlot_baysStay (d : Dev) (ch slot : Nat) : d.BaysStay (d.clearSlot ch slot) := by
  unfold Dev.clearSlot
  extract_lets e
  have hrun : d.BaysStay e := by
    refine .forAll (fun d r => ?_) d _
    extract_lets q d1 d2 d3
    have h1 : d.BaysStay d1 := by
      refine .forAll (fun d x => .forAll (fun d y => ?_) d _) d _
      exact d.loseAt_baysStay ch r y.1
    exact h1.trans (.of_eq rfl rfl)
  exact hrun.trans (.of_eq rfl rfl)

theorem Dev.channelStart_baysStay (d : Dev) (ch : Nat) (slots : List Nat) (a b : Option Dimm) : d.BaysStay (d.channelStart ch slots a b) := by
  unfold Dev.channelStart
  extract_lets use0 use1 rate use0' use1' bad d1 d2 d3 came
  have h1 : d.BaysStay d1 := .forAll (fun d _ => (d.raise_raised 125 _ 0).baysStay) d _
  have h2 : d1.BaysStay d2 := .forAll (fun d s => d.clearSlot_baysStay ch s) d1 _
  have h3 : d.BaysStay d3 := h1.trans (h2.trans (.of_eq rfl rfl))
  split
  · next rt m _ _ _ =>
    extract_lets d4 d5 news d6
    have h4 : d3.BaysStay d4 := .of_eq rfl rfl
    have h5 : d4.BaysStay d5 := by
      unfold d5
      split
      · exact (d4.raise_raised 129 _ 0).baysStay
      · exact .refl d4
    have h6 : d5.BaysStay d6 := by
      refine .forAll (fun d r => ?_) d5 _
      exact .of_eq rfl rfl
    exact h3.trans (h4.trans (h5.trans (h6.trans (.of_eq rfl rfl))))
  · exact h3

end Sys2Proof.Machine

namespace Sys2Proof.Machine

open Sys2Proof

/-! ### Modules seated and pulled -/

section
variable {d : Dev} {n : Nat} {m : Dimm} (hn : n < d.nBays)

theorem Dev.queueBay_bay (d : Dev) (n : Nat) : (d.queueBay n).bay n = { (d.bay n).rest .queued with order := d.time.loc } := by
  unfold Dev.queueBay
  generalize hd1 : d.setBay n _ = d1
  obtain ⟨p, hp⟩ := d1.wake_raised 9 0
  have hbay : (d1.wake 9 0).bay n = d1.bay n := hp.bay n
  rw [hbay, ← hd1, Dev.bay_setBay_same]

include hn

/-- A module seated in an unpowered bay that is not switched on leaves the bay Off (R369, R376). -/
theorem Dev.bayInsertion_off (hst : (d.bay n).st = .empty ∨ (d.bay n).st = .off) (h0 : (d.bay n).pres0 = false) (hoff : d.fld 0x700 15 15 = 0)
    (hp : ∀ l, d.prim ≠ .priming l) : d.bayInsertion n 0 m = d.setBay n fun b => { b with pres0 := true, dimm0 := some m, st := .off } := by
  have htwice : (d.setBay n fun b => { b with pres0 := true, dimm0 := some m }).setBay n (fun b => { b with st := .off }) =
      d.setBay n fun b => { b with pres0 := true, dimm0 := some m, st := .off } :=
    Dev.setBay_setBay fun h => Bool.noConfusion (congrArg Bay.pres0 h)
  unfold Dev.bayInsertion
  extract_lets b d1 d2
  have hfld : d2.fld 0x700 15 15 = 0 := hoff
  have hprim : d2.prim = d.prim := rfl
  rw [if_neg (by simp [b, h0, hn])]
  have hb : b.st = .empty ∨ b.st = .off := hst
  rcases hb with hb | hb
  · simp only [hb, hfld, hprim]
    exact htwice
  · simp only [hb, hfld, hprim]
    exact htwice

/-- A module seated in an unpowered bay that is switched on queues the bay (R369, R370). -/
theorem Dev.bayInsertion_queued (hst : (d.bay n).st = .empty ∨ (d.bay n).st = .off) (h1 : (d.bay n).pres1 = false)
    (hon : d.fld 0x700 15 15 = 1) : ((d.bayInsertion n 1 m).bay n).st = .queued ∧ ((d.bayInsertion n 1 m).bay n).pres1 = true ∧
      ((d.bayInsertion n 1 m).bay n).dimm1 = some m ∧ ((d.bayInsertion n 1 m).bay n).order = d.time.loc := by
  have heq : d.bayInsertion n 1 m = ((d.setBay n fun b => { b with pres1 := true, dimm1 := some m }).setBay n
      fun b => { b with st := .off }).queueBay n := by
    unfold Dev.bayInsertion
    extract_lets b d1 d2
    have hfld : d2.fld 0x700 15 15 = 1 := hon
    rw [if_neg (by simp [b, h1, hn])]
    have hb : b.st = .empty ∨ b.st = .off := hst
    rcases hb with hb | hb
    · simp only [hb, hfld]
      rfl
    · simp only [hb, hfld]
      rfl
  rw [heq, Dev.queueBay_bay, Dev.bay_setBay_same, Dev.bay_setBay_same]
  exact ⟨rfl, rfl, rfl, rfl⟩

/-- A module seated in a bay that was switched off for a fault is noted (R376). -/
theorem Dev.bayInsertion_noted (hst : (d.bay n).st = .latched ∨ (d.bay n).st = .retry) (h0 : (d.bay n).pres0 = false) :
    d.bayInsertion n 0 m = (d.setBay n fun b => { b with pres0 := true, dimm0 := some m, reinsert := true }).raiseI 205
      { slice := tileSlice 0, detail := [n] } := by
  have htwice : (d.setBay n fun b => { b with pres0 := true, dimm0 := some m }).setBay n (fun b => { b with reinsert := true }) =
      d.setBay n fun b => { b with pres0 := true, dimm0 := some m, reinsert := true } :=
    Dev.setBay_setBay fun h => Bool.noConfusion (congrArg Bay.pres0 h)
  rw [← htwice]
  unfold Dev.bayInsertion
  extract_lets b d1
  rw [if_neg (by simp [b, h0, hn])]
  have hb : b.st = .latched ∨ b.st = .retry := hst
  rcases hb with hb | hb
  · simp only [hb]
    rfl
  · simp only [hb]
    rfl

/-- The last module is pulled from an unpowered bay (R376). -/
theorem Dev.bayRemoval_last (hst : (d.bay n).st = .off ∨ (d.bay n).st = .queued) (h0 : (d.bay n).pres0 = true) (h1 : (d.bay n).pres1 = false) :
    d.bayRemoval n 0 = d.setBay n fun b => { b with pres0 := false, dimm0 := none }.rest .empty := by
  have hne : ({ d.bay n with pres0 := false, dimm0 := none } : Bay) ≠ {} := Bay.ne_default (by rcases hst with h | h <;> simp [h])
  unfold Dev.bayRemoval
  extract_lets b d1 idle
  have htwice : d1.setBay n idle = d.setBay n fun b => { b with pres0 := false, dimm0 := none }.rest .empty :=
    (Dev.setBay_setBay hne).trans (Dev.setBay_congr (if_pos (by simp [Bay.vacant, h1])))
  rw [if_neg (by simp [b, h0, hn])]
  have hb : b.st = .off ∨ b.st = .queued := hst
  rcases hb with hb | hb
  · simp only [hb]
    exact htwice
  · simp only [hb]
    exact htwice

/-- A module is pulled from a powered bay: its ranks are Off, and the bay switches off with cause 6 and EV204 (R375). -/
theorem Dev.bayRemoval_powered (hst : (d.bay n).st = .good ∨ (d.bay n).st = .ramping ∨ (d.bay n).st = .limiting)
    (h1 : (d.bay n).pres1 = true) (hc : (d.bay n).causeAt ≠ d.time.loc + 1) :
    ∃ x : Bay, (d.bayRemoval n 1).Agrees ((d.bayRanksOff n).setBay n fun _ => x) ∧ (d.bayRemoval n 1).Pending 204 ∧
      x.st = (if (d.bay n).pres0 then .off else .empty) ∧ x.cause = 6 ∧ x.pulls = satInc 255 (d.bay n).pulls ∧ x.pres1 = false := by
  have hne : ({ d.bay n with pres1 := false, dimm1 := none } : Bay) ≠ {} := Bay.ne_default (by rcases hst with h | h | h <;> simp [h])
  obtain ⟨hbay, htime, -, -⟩ := (d.setBay n fun b => { b with pres1 := false, dimm1 := none }).bayRanksOff_fields n n
  obtain ⟨hbay0, -, -, -⟩ := d.bayRanksOff_fields n n
  have heq : d.bayRemoval n 1 = (((d.setBay n fun b => { b with pres1 := false, dimm1 := none }).bayRanksOff n).setBay n fun b =>
      { (b.rest (if b.vacant then .empty else .off)).setCause d.time.loc 6 with pulls := satInc 255 b.pulls }).bayEvent 204 n := by
    unfold Dev.bayRemoval
    extract_lets b d1 idle d2
    rw [if_neg (by simp [b, h1, hn])]
    have htime2 : d2.time = d.time := htime
    have hb : b.st = .good ∨ b.st = .ramping ∨ b.st = .limiting := hst
    rcases hb with hb | hb | hb
    all_goals
      simp only [hb, htime2]
      rfl
  rw [Dev.bayRanksOff_setBay, Dev.setBay_setBay (by rw [hbay0]; exact hne), Dev.setBay_congr (g := fun _ =>
    { (Bay.rest { d.bay n with pres1 := false, dimm1 := none } (if (d.bay n).pres0 then .off else .empty)) with
      cause := 6, causeAt := d.time.loc + 1, pulls := satInc 255 (d.bay n).pulls }) ?same] at heq
  case same =>
    simp only [hbay0]
    rw [Bay.setCause_new (by exact hc)]
    cases (d.bay n).pres0 <;> simp [Bay.vacant]
  rw [heq]
  exact ⟨_, (Dev.bayEvent_raised _ 204 n).bare, Dev.bayEvent_pending _ n (by decide), rfl, rfl, rfl, rfl⟩

/-- BAY_GOOD of a ramping bay: Good with EV200, or Down where its module is rejected (R371, R195). -/
theorem Dev.bayGood_ramped (hst : (d.bay n).st = .ramping) : (d.bayGood n).Pending 200 ∧
    (((d.bayGood n).bay n).st = .good ∨ ((d.bayGood n).bay n).st = .down) := by
  unfold Dev.bayGood
  extract_lets s d1 d2 bad
  rw [if_neg (by simp [hst, hn])]
  have h1 : (d1.bay n).st = .good ∧ d1.Pending 200 := by
    unfold d1
    generalize hd0 : d.setBay n _ = d0
    rw [(d0.raiseI_raised 200 _).bay n, ← hd0, Dev.bay_setBay_same]
    exact ⟨rfl, Dev.raiseI_pending _ 200 _ (by decide)⟩
  have h2 : d1.BaysStay d2 := by
    unfold d2
    clear_value d1
    refine .forAll (fun d pos => ?_) d1 _
    extract_lets m c o
    clear_value m c o
    split
    · exact .refl d
    · apply Dev.channelStart_baysStay
  clear_value d1 d2 bad
  split
  · obtain ⟨-, -, hev, -⟩ := d2.bayRanksOff_fields n n
    unfold Dev.powerDown
    generalize d2.bayRanksOff n = d3 at hev
    rw [Dev.bay_setBay_same]
    exact ⟨by rw [Dev.Pending, show (d3.setBay n _).ev = d2.ev from hev]; exact h2.pend 200 h1.2, .inr rfl⟩
  · have hbay : d2.bay n = d1.bay n := by rw [Dev.bay, h2.bays, Dev.bay]
    exact ⟨h2.pend 200 h1.2, .inl (by rw [hbay, h1.1])⟩

end

/-! ### The ramp -/

theorem Dev.bayRampStart_starts {d : Dev} {n : Nat} (hr : d.nextRamp = some n)
    (hc : ((List.range d.nBays).filter fun k => (d.bay k).st == .ramping).length < d.fld 0x700 31 28) (hb : d.sup.brace = false)
    (hl : d.therm.latched = false) (hp : d.prim ≠ .unprimed) (ho : (d.bay n).order < d.time.loc) :
    d.bayRampStart n = d.setBay n fun b => { b with st := .ramping, fromGood := false, rampAt := d.time.loc } :=
  if_pos ⟨hr, ho, hc, by simp [hb], by simp [hl], hp⟩

theorem Dev.bayRampStart_waits {d : Dev} {n : Nat} (h : d.sup.brace = true ∨ d.therm.latched = true ∨ d.time.loc ≤ (d.bay n).order) :
    d.bayRampStart n = d := by
  refine if_neg fun hn => ?_
  obtain ⟨-, ho, -, hb, hl, -⟩ := hn
  rcases h with h | h | h
  · simp [h] at hb
  · simp [h] at hl
  · omega

/-- Settles O20: each insertion, removal, ramp and end of a ramp by the lemma about it. -/
theorem baysSeatedPulledAndRamped : Obligations.BaysSeatedPulledAndRamped := by
  intro s n hn b
  refine ⟨fun m hst h0 hoff hp => .of_done rfl (Dev.bayInsertion_off hn hst h0 hoff hp),
    fun m hst h1 hon => .of_done rfl (Dev.bayInsertion_queued hn hst h1 hon), fun m hst h0 => ?noted,
    fun hst h0 h1 => ⟨_, .of_done rfl ((Dev.bayRemoval_last hn hst h0 h1).trans (Dev.setBay_congr rfl)), rfl, rfl, rfl⟩,
    fun hst h1 hc => .of_done rfl (Dev.bayRemoval_powered hn hst h1 hc),
    fun hr hc hb hl hp ho => .of_done rfl (Dev.bayRampStart_starts hr hc hb hl hp ho),
    fun h => .of_done rfl (Dev.bayRampStart_waits h), fun hst => .of_done rfl (Dev.bayGood_ramped hn hst)⟩
  case noted => exact Raises.of_raiseI rfl (Dev.bayInsertion_noted hn hst h0) (by decide)

end Sys2Proof.Machine

namespace Sys2Proof.Machine

open Sys2Proof

/-! ### Faults of a bay -/

section
variable {d : Dev} {n : Nat}

theorem Dev.Raised.bayCtl {e : Dev} (h : d.Raised e) (n hi lo : Nat) : e.bayCtl n hi lo = d.bayCtl n hi lo :=
  (congrArg (·.bayCtl n hi lo) h.bare :)

theorem Dev.Raised.time {e : Dev} (h : d.Raised e) : e.time = d.time := (congrArg Dev.time h.bare :)

/-- A bay latches: its ranks are Off, the cause is recorded, the damage counted and the event raised (R372, R377). -/
theorem Dev.latchBay_latches (cause : Nat) {ev : Nat} (hev : evClass ev ≠ none) (hc : (d.bay n).causeAt ≠ d.time.loc + 1) :
    ∃ x : Bay, (d.latchBay n cause ev).Agrees ((d.bayRanksOff n).setBay n fun _ => x) ∧ (d.latchBay n cause ev).Pending ev ∧
      x.st = .latched ∧ x.cause = cause ∧ x.damaged = satInc 255 (d.bay n).damaged := by
  obtain ⟨hbay, htime, -, -⟩ := d.bayRanksOff_fields n n
  have heq : d.latchBay n cause ev = ((d.bayRanksOff n).setBay n fun _ => { (d.bay n).rest .latched with
      cause := cause, causeAt := d.time.loc + 1, damaged := satInc 255 (d.bay n).damaged }).bayEvent ev n := by
    unfold Dev.latchBay
    extract_lets d1
    refine congrArg (·.bayEvent ev n) (Dev.setBay_congr ?_)
    simp only [d1, hbay, htime]
    rw [Bay.setCause_new (by exact hc)]
  rw [heq]
  exact ⟨_, (Dev.bayEvent_raised _ ev n).bare, Dev.bayEvent_pending _ n hev, rfl, rfl, rfl⟩

/-- The record of a bay that a fault of this cause switched off: it waits for its retry, which is counted with the cause (R374). -/
def Bay.switchedOff (b : Bay) (now cause : Nat) : Bay :=
  { (b.rest .retry).setCause now cause with
      retries := satInc 16 b.retries, limitCnt := if cause = 2 then satInc 255 b.limitCnt else b.limitCnt,
      trip := if cause = 3 then satInc 255 b.trip else b.trip }

theorem Bay.switchedOff_st (b : Bay) (now cause : Nat) : (b.switchedOff now cause).st = .retry :=
  ((b.rest .retry).setCause_fields now cause).1

/-- A fault switches a bay off and counts a retry, until none is left (R373, R374). -/
theorem Dev.faultRetry_counts (cause : Nat) : ∃ x : Bay, (d.faultRetry n cause).Agrees ((d.bayRanksOff n).setBay n fun _ => x) ∧
    (d.faultRetry n cause).Pending 201 ∧ x.retries = satInc 16 (d.bay n).retries ∧
    x.limitCnt = (if cause = 2 then satInc 255 (d.bay n).limitCnt else (d.bay n).limitCnt) ∧
    x.trip = (if cause = 3 then satInc 255 (d.bay n).trip else (d.bay n).trip) ∧
    (d.bayCtl n 11 8 < x.retries ∨ d.bayCtl n 18 12 = 0 → x.st = .latched ∧ (d.faultRetry n cause).Pending 202) ∧
    (x.retries ≤ d.bayCtl n 11 8 → d.bayCtl n 18 12 ≠ 0 → x.st = .retry ∧ x.timerEnd = d.time.loc + d.bayCtl n 18 12 * 100000) := by
  obtain ⟨hbay, htime, -, hctl⟩ := d.bayRanksOff_fields n n
  generalize hb : (d.bay n).switchedOff d.time.loc cause = b
  have hst : b.st = .retry := hb ▸ Bay.switchedOff_st _ _ _
  have hret : b.retries = satInc 16 (d.bay n).retries := by rw [← hb, Bay.switchedOff]
  have hlim : b.limitCnt = (if cause = 2 then satInc 255 (d.bay n).limitCnt else (d.bay n).limitCnt) := by rw [← hb, Bay.switchedOff]
  have htrip : b.trip = (if cause = 3 then satInc 255 (d.bay n).trip else (d.bay n).trip) := by rw [← hb, Bay.switchedOff]
  unfold Dev.faultRetry
  generalize d.bayRanksOff n = d1 at hbay htime hctl ⊢
  extract_lets d1' d2 d3 t
  have h2 : d2 = d1.setBay n fun _ => b := Dev.setBay_congr (by
    simp only [d1', hbay, htime, ← hb]
    rfl)
  have hb2 : d2.bay n = b := by rw [h2, Dev.bay_setBay_same]
  have h3 : d2.Raised d3 := d2.bayEvent_raised 201 n
  have hpend : d3.Pending 201 := d2.bayEvent_pending n (by decide)
  have hb3 : d3.bay n = b := (h3.bay n).trans hb2
  have hctl3 : ∀ hi lo, d3.bayCtl n hi lo = d.bayCtl n hi lo := by
    intro hi lo
    rw [← hctl, h3.bayCtl, h2]
    rfl
  have htime3 : d3.time = d.time := by
    rw [← htime, h3.time, h2]
    rfl
  have hset : ∀ g : Bay → Bay, (d3.setBay n g).bare = (d1.setBay n fun _ => g b).bare := by
    intro g
    have hne : b ≠ {} := Bay.ne_default (by rw [hst]; decide)
    rw [h3.setBay, h2, Dev.setBay_setBay hne]
  have ht : t = d.bayCtl n 18 12 := hctl3 18 12
  clear_value d3 t
  rw [hb3, hctl3, ht]
  split
  · next hout =>
    refine ⟨b.rest .latched, ?_, (Dev.raiseI_raised _ 202 _).pend 201 hpend, hret, hlim, htrip,
      fun _ => ⟨rfl, Dev.raiseI_pending _ 202 _ (by decide)⟩, fun hle hne => ?_⟩
    · exact ((Dev.raiseI_raised _ 202 _).bare).trans (hset _)
    · rcases hout with h | h
      · exact absurd h (Nat.not_lt.mpr hle)
      · exact absurd h hne
  · next hmore =>
    refine ⟨{ b with timerOn := true, timerEnd := d.time.loc + d.bayCtl n 18 12 * 100000 }, ?_, hpend, hret, hlim, htrip,
      fun hout => absurd hout hmore, fun _ _ => ⟨hst, rfl⟩⟩
    rw [htime3]
    exact hset _

theorem Dev.currentLimitCleared_good (hn : n < d.nBays) (hst : (d.bay n).st = .limiting) (ht : d.time.loc < (d.bay n).timerEnd)
    (hg : (d.bay n).fromGood = true) : d.currentLimitCleared n =
      d.setBay n fun b => { b with st := .good, goodAt := d.time.loc, timerOn := false, timerEnd := 0 } := by
  rw [Dev.currentLimitCleared, if_pos ⟨hn, hst, ht⟩]
  exact Dev.setBay_congr (by simp [hg])

theorem Dev.currentLimitCleared_ramping (hn : n < d.nBays) (hst : (d.bay n).st = .limiting) (ht : d.time.loc < (d.bay n).timerEnd)
    (hg : (d.bay n).fromGood = false) : d.currentLimitCleared n = d.setBay n fun b =>
      { b with st := .ramping, rampAt := b.rampAt + (d.time.loc - b.limAt), timerOn := false, timerEnd := 0 } := by
  rw [Dev.currentLimitCleared, if_pos ⟨hn, hst, ht⟩]
  exact Dev.setBay_congr (by simp [hg])

theorem Dev.retryTimerExpiry_seated (hn : n < d.nBays) (hst : (d.bay n).st = .retry) (ht : (d.bay n).timerEnd ≤ d.time.loc)
    (hv : (d.bay n).vacant = false) : d.retryTimerExpiry n =
      d.setBay n fun b => { b.rest .off with debounce := some (d.time.loc + d.fld 0x700 27 20 * 10000) } := by
  rw [Dev.retryTimerExpiry, if_pos ⟨hn, hst, ht⟩]
  exact if_neg (by simp [hv])

theorem Dev.retryTimerExpiry_vacant (hn : n < d.nBays) (hst : (d.bay n).st = .retry) (ht : (d.bay n).timerEnd ≤ d.time.loc)
    (hv : (d.bay n).vacant = true) : d.retryTimerExpiry n = d.setBay n fun b => { b.rest .empty with retries := 0 } := by
  rw [Dev.retryTimerExpiry, if_pos ⟨hn, hst, ht⟩]
  exact if_pos hv

theorem Dev.shortedTransistor_latches (hn : n < d.nBays) (hst : (d.bay n).st = .off ∨ (d.bay n).st = .queued ∨ (d.bay n).st = .retry) :
    d.shortedTransistor n = d.latchBay n 5 3 := by
  unfold Dev.shortedTransistor
  extract_lets b gateOff
  refine if_pos ?_
  have hb : b.st = .off ∨ b.st = .queued ∨ b.st = .retry := hst
  rcases hb with hb | hb | hb <;> simp [gateOff, hb, hn]

end

/-- Settles O21: the timers by the lemma about each; the two switch-offs by the lemma about a retry, and the three latches by the lemma about
a bay that latches. -/
theorem bayFaultsRetriesAndLatches : Obligations.BayFaultsRetriesAndLatches := by
  refine ⟨fun s n hn => ?timers, ?latch⟩
  case timers =>
    intro b now
    refine ⟨fun hst => .of_done rfl (if_pos ⟨hn, hst⟩),
      fun hst ht hg => .of_done rfl (Dev.currentLimitCleared_good hn hst ht hg),
      fun hst ht hg => .of_done rfl (Dev.currentLimitCleared_ramping hn hst ht hg), ?fault,
      fun hst ht hv => ⟨_, .of_done rfl ((Dev.retryTimerExpiry_seated hn hst ht hv).trans (Dev.setBay_congr rfl)), rfl, rfl, rfl⟩,
      fun hst ht hv => ⟨_, .of_done rfl ((Dev.retryTimerExpiry_vacant hn hst ht hv).trans (Dev.setBay_congr rfl)), rfl, rfl⟩,
      fun hst ht => .of_done rfl (if_pos ⟨hn, hst, ht⟩),
      fun _ ht => .of_done rfl (if_neg fun h => Nat.not_lt.mpr h.2.2 ht)⟩
    rintro c (⟨rfl, hst, ht⟩ | ⟨rfl, hst⟩)
    · obtain ⟨x, hx, hpend, hret, hlim, htrip, hout, hmore⟩ := s.dev.faultRetry_counts (n := n) 2
      exact .of_done (congrArg s.done (if_pos ⟨hn, hst, ht⟩)) ⟨x, hx, hpend, hret, fun _ => ⟨hlim, htrip⟩, nofun, hout, hmore⟩
    · obtain ⟨x, hx, hpend, hret, hlim, htrip, hout, hmore⟩ := s.dev.faultRetry_counts (n := n) 3
      exact .of_done (congrArg s.done (if_pos ⟨hn, hst⟩)) ⟨x, hx, hpend, hret, nofun, fun _ => ⟨htrip, hlim⟩, hout, hmore⟩
  case latch =>
    rintro s n hn hc c ev cause (⟨rfl, hst, ht, rfl, rfl⟩ | ⟨rfl, hst, rfl, rfl⟩ | ⟨rfl, hst, rfl, rfl⟩)
    · exact .of_done (congrArg s.done (if_pos ⟨hn, hst, ht⟩)) (Dev.latchBay_latches 4 (by decide) hc)
    · exact .of_done (congrArg s.done (if_pos ⟨hn, hst⟩)) (Dev.latchBay_latches 4 (by decide) hc)
    · exact .of_done (congrArg s.done (Dev.shortedTransistor_latches hn hst)) (Dev.latchBay_latches 5 (by decide) hc)

end Sys2Proof.Machine

namespace Sys2Proof.Machine

open Sys2Proof

/-! ### Powering down and Bay Power -/

/-- The output of a bay that powers down is low: EV206, and the bay is unpowered (R379). -/
theorem Dev.bayOutputLow_ends {d : Dev} {n : Nat} (hn : n < d.nBays) (hst : (d.bay n).st = .down) (hg : (d.bay n).gateLow = true) :
    (d.bayOutputLow n).Pending 206 ∧ ((d.bayOutputLow n).bay n).st = (if (d.bay n).vacant then .empty else .off) ∧
      ((d.bayOutputLow n).bay n).gateLow = false := by
  have hfinish : ∀ (d : Dev) (x : Bg), d.BaysStay (d.finishBg x .success 0 (d.bayOut n)) := by
    intro d x
    obtain ⟨bg, late, o, h⟩ := d.finishBg_only x .success 0 (d.bayOut n)
    rw [h]
    exact .of_eq rfl rfl
  unfold Dev.bayOutputLow
  extract_lets b d1 d2
  rw [if_pos ⟨hn, hst, hg⟩]
  have h1 : d1.bay n = (b.rest (if b.vacant then .empty else .off)).setCause d.time.loc 1 := d.bay_setBay_same n _
  have hr : d1.Raised d2 := d1.raiseI_raised 206 _
  have hpend : d2.Pending 206 := d1.raiseI_pending 206 _ (by decide)
  have hrun := Dev.BaysStay.forAll hfinish d2 (d2.cfg.bg.filter fun x => x.kind == .bayOff n && x.result.isNone)
  generalize forAll d2 _ _ = e at hrun
  have hbay : e.bay n = (b.rest (if b.vacant then .empty else .off)).setCause d.time.loc 1 := by
    rw [Dev.bay, hrun.bays, ← Dev.bay, hr.bay, h1]
  obtain ⟨hst', -, -, -, hgate⟩ := (b.rest (if b.vacant then .empty else .off)).setCause_fields d.time.loc 1
  rw [hbay, hst', hgate]
  exact ⟨hrun.pend 206 hpend, rfl, rfl⟩

section
variable {s : State} {src : Src} {p : List Byte} {n : Nat} {d : Dev}

/-- A Bay Power command of the right shape about a bay that is present is the command about that bay (R7, R379). -/
theorem Accepted.leaves_bayPower {c : Instr} {f : Dev → Nat → Dev} {e : Dev} (hg : gateOf s.dev c = some (src, { manager := true }))
    (hx : exec c s = s.mail src c (s.dev.bayPower src p f)) (ha : Accepted c s src d) (hl : p.length = 8)
    (hz : zeros (sub p 2 6) = true) (hp : n = fieldAt p 0 1) (hn : n < d.nBays) (he : f d n = e) : Leaves c s e :=
  ha.leaves_vend hg hx (by omega) (by simp [hl]) hz ((if_pos (hp ▸ hn)).trans (hp ▸ he))

/-- A Bay Power command about a bay that is absent is refused (R7). -/
theorem Accepted.leaves_bayPower_absent {c : Instr} {f : Dev → Nat → Dev} (hg : gateOf s.dev c = some (src, { manager := true }))
    (hx : exec c s = s.mail src c (s.dev.bayPower src p f)) (ha : Accepted c s src d) (hl : p.length = 8)
    (hz : zeros (sub p 2 6) = true) (hp : n = fieldAt p 0 1) (hn : d.nBays ≤ n) : Leaves c s (d.reply src .invalidInput) :=
  ha.leaves_vend hg hx (by omega) (by simp [hl]) hz (if_neg (by omega))

variable (hl : p.length = 8) (hz : zeros (sub p 2 6) = true) (hp : n = fieldAt p 0 1) (hn : n < d.nBays)
include hl hz hp hn

theorem Accepted.leaves_bayPowerOn_off (ha : Accepted (.bayPowerOn src p) s src d) (hst : (d.bay n).st = .off) :
    Leaves (.bayPowerOn src p) s ((d.queueBay n).reply src .success 0 ((d.queueBay n).bayOut n)) := by
  refine ha.leaves_bayPower rfl rfl hl hz hp hn ?_
  simp only [hst]

theorem Accepted.leaves_bayPowerOn_faulted (ha : Accepted (.bayPowerOn src p) s src d)
    (hst : (d.bay n).st = .latched ∨ (d.bay n).st = .retry ∨ (d.bay n).st = .empty) :
    Leaves (.bayPowerOn src p) s (d.reply src .invalidInput) := by
  refine ha.leaves_bayPower rfl rfl hl hz hp hn ?_
  rcases hst with hst | hst | hst <;> simp only [hst]

theorem Accepted.leaves_bayPowerOff_inUse (ha : Accepted (.bayPowerOff src p) s src d) (hc : d.bayClear n = false) :
    Leaves (.bayPowerOff src p) s (d.reply src .invalidInput) :=
  ha.leaves_bayPower rfl rfl hl hz hp hn (if_pos (by simp [hc]))

theorem Accepted.leaves_bayPowerOff_good (ha : Accepted (.bayPowerOff src p) s src d) (hc : d.bayClear n = true)
    (hst : (d.bay n).st = .good) (hbg : d.bgRuns src = false) :
    Leaves (.bayPowerOff src p) s ((d.powerDown n).startBg src (.bayOff n)) := by
  refine ha.leaves_bayPower rfl rfl hl hz hp hn ((if_neg (by simp [hc])).trans ?_)
  simp only [hst]
  exact Dev.asBg_free hbg

theorem Accepted.leaves_bayPowerClear_latched (ha : Accepted (.bayPowerClear src p) s src d) (hst : (d.bay n).st = .latched) :
    ∃ x : Bay, x.st = .off ∧ x.retries = 0 ∧ x.reinsert = false ∧
      Leaves (.bayPowerClear src p) s ((d.setBay n fun _ => x).reply src .success 0 ((d.setBay n fun _ => x).bayOut n)) :=
  ⟨{ (d.bay n).rest .off with retries := 0, reinsert := false }, rfl, rfl, rfl,
    ha.leaves_bayPower rfl rfl hl hz hp hn (if_pos hst)⟩

end

/-- Settles O22: powering down by the lemmas about its two steps; each Bay Power command behind its gates by the equation of its branch. -/
theorem bayPowerCommands : Obligations.BayPowerCommands := by
  refine ⟨fun s n hn hst => ⟨fun ht => .of_done rfl (if_pos ⟨hn, hst, ht⟩),
    fun ht => .of_done rfl (if_neg fun h => Nat.not_lt.mpr h.2.2 ht), fun hg => ?low⟩, fun src p n s d c hc ha hl hz hp => ?power⟩
  case low => exact .of_done rfl (Dev.bayOutputLow_ends hn hst hg)
  case power =>
    simp only [List.mem_cons, List.not_mem_nil, or_false] at hc
    rcases hc with rfl | rfl | rfl | rfl
    · exact ⟨fun hn => ha.leaves_bayPower_absent rfl rfl hl hz hp hn, fun hn => ⟨fun _ => ha.leaves_bayPower rfl rfl hl hz hp hn rfl,
        nofun, nofun, nofun, nofun, nofun, nofun⟩⟩
    · exact ⟨fun hn => ha.leaves_bayPower_absent rfl rfl hl hz hp hn, fun hn => ⟨nofun, fun _ => ha.leaves_bayPowerOn_off hl hz hp hn,
        fun _ => ha.leaves_bayPowerOn_faulted hl hz hp hn, nofun, nofun, nofun, nofun⟩⟩
    · exact ⟨fun hn => ha.leaves_bayPower_absent rfl rfl hl hz hp hn, fun hn => ⟨nofun, nofun, nofun,
        fun _ => ha.leaves_bayPowerOff_inUse hl hz hp hn, fun _ => ha.leaves_bayPowerOff_good hl hz hp hn, nofun, nofun⟩⟩
    · exact ⟨fun hn => ha.leaves_bayPower_absent rfl rfl hl hz hp hn, fun hn => ⟨nofun, nofun, nofun, nofun, nofun,
        fun _ => ha.leaves_bayPowerClear_latched hl hz hp hn, fun _ hst => ha.leaves_bayPower rfl rfl hl hz hp hn (if_neg hst)⟩⟩

end Sys2Proof.Machine

namespace Sys2Proof.Machine

open Sys2Proof

/-! ### Pending bits and the fault pin -/

/-- Word `w` of the pending bits without those that a mask names. -/
theorem getLsbD_clearWord (pend : BitVec 256) (mask : BitVec 32) (w i : Nat) :
    (pend &&& ~~~(mask.zeroExtend 256 <<< (32 * w))).getLsbD i = (pend.getLsbD i && !(i / 32 == w && mask.getLsbD (i % 32))) := by
  rcases Nat.lt_or_ge i 256 with hi | hi
  case inr => rw [BitVec.getLsbD_of_ge _ _ hi, BitVec.getLsbD_of_ge _ _ hi, Bool.false_and]
  have hbit : (mask.zeroExtend 256 <<< (32 * w)).getLsbD i = (i / 32 == w && mask.getLsbD (i % 32)) := by
    rcases Nat.lt_trichotomy (i / 32) w with h | h | h
    · have hlow : i < 32 * w := by omega
      simp [hlow, Nat.ne_of_lt h]
    · have hpos : i - 32 * w = i % 32 := by omega
      have hle : 32 * w ≤ i := by omega
      simp [hi, hpos, h, hle]
    · have hout : mask.getLsbD (i - 32 * w) = false := BitVec.getLsbD_of_ge _ _ (by omega)
      simp [hout, Nat.ne_of_gt h]
  rw [BitVec.getLsbD_and, BitVec.getLsbD_not, hbit, decide_eq_true hi, Bool.true_and]

section
variable {d : Dev} {w : Nat} {mask : BitVec 32}

/-- Clearing pending bits changes the pending bits and the times of the fault pin alone (R396, R397). -/
theorem Dev.clearPend_spec (d : Dev) (w : Nat) (mask : BitVec 32) : d.clearPend w mask = { d with ev := (d.clearPend w mask).ev } ∧
    (d.clearPend w mask).ev.pend = d.ev.pend &&& ~~~(mask.zeroExtend 256 <<< (32 * w)) ∧
    (d.clearPend w mask).ev.logs = d.ev.logs ∧ (d.clearPend w mask).ev.faultPin = d.ev.faultPin ∧
    (d.anyN = true → (d.clearPend w mask).anyN = false → (d.clearPend w mask).ev.faultClear = d.time.loc) := by
  unfold Dev.clearPend
  extract_lets had d1
  split
  · exact ⟨rfl, rfl, rfl, rfl, fun _ _ => rfl⟩
  · next h =>
    refine ⟨rfl, rfl, rfl, rfl, fun hd h1 => absurd ?_ h⟩
    rw [h1, show had = true from hd]
    rfl

theorem Dev.faultNRelease_waits (h : d.anyN = true ∨ d.time.loc < d.ev.faultClear + 1) : d.faultNRelease = d :=
  if_neg (by rcases h with h | h <;> simp [h, Nat.not_le.mpr])

/-! ### The logs of a sender -/

/-- A log whose records are all removed has none. -/
theorem EvLog.without_all (g : EvLog) (hs : List Nat) : (g.without true hs).recs = [] := by
  unfold EvLog.without
  extract_lets rs
  split
  · rfl
  · next h => exact List.eq_nil_of_length_eq_zero (Nat.eq_zero_of_not_pos h)

end

section
variable {s : State} {src : Src} {n : Nat} {l : LogId}

theorem getEventRecords_effect (hl : logOf n = some l) : Effect (.getEventRecords src n) src (fun d =>
    let g := d.log (logKey (srcDest src) l)
    let rs := g.recs.take (if src = .mctp then 31 else g.recs.length)
    d.reply src .success 0 (leBytes 1 (b2n g.overflow + if rs.length < g.recs.length then 2 else 0) ++ [0#8] ++ leBytes 2 g.count ++
      leBytes 8 g.firstTs ++ leBytes 8 g.lastTs ++ leBytes 2 rs.length ++ List.replicate 10 0#8 ++ (rs.map (EvRec.bytes l)).flatten)) := by
  intro s d ha
  refine ha.leaves_mail rfl rfl ?_
  simp only [hl]
  generalize d.log (logKey (srcDest src) l) = g
  have hrecs : (if src = .mctp then g.recs.take 31 else g.recs) = g.recs.take (if src = .mctp then 31 else g.recs.length) := by
    split
    · rfl
    · exact List.take_length.symm
  rw [hrecs]
  generalize g.recs.take _ = rs
  have hmore : 2 * b2n (decide (rs.length < g.recs.length)) = if rs.length < g.recs.length then 2 else 0 := by
    by_cases h : rs.length < g.recs.length <;> simp [h, b2n]
  rw [hmore]
  rfl

theorem Accepted.leaves_clearEventRecords_unknown {hs : List Nat} {d : Dev} (hl : logOf n = some l)
    (ha : Accepted (.clearEventRecords src n false hs) s src d)
    (hh : ∃ h ∈ hs, ∀ r ∈ (d.log (logKey (srcDest src) l)).recs, r.handle ≠ h) :
    Leaves (.clearEventRecords src n false hs) s (d.reply src .invalidHandle) := by
  refine ha.leaves_mail rfl rfl ?_
  simp only [hl]
  exact if_pos (by simpa using hh)

theorem Accepted.leaves_clearEventRecords_all {hs : List Nat} {d : Dev} (hl : logOf n = some l)
    (ha : Accepted (.clearEventRecords src n true hs) s src d) : Leaves (.clearEventRecords src n true hs) s
      ((d.setLog (logKey (srcDest src) l) fun g => g.without true hs).reply src .success) := by
  refine ha.leaves_mail rfl rfl ?_
  simp only [hl]
  exact if_neg (by simp)

end

/-- Settles O24: the bits cleared by the lemma about one word of them, the release of the pin and each log command by its equation. -/
theorem eventBitsPinsAndLogs : Obligations.EventBitsPinsAndLogs := by
  refine ⟨fun src w mask s hr hw => ?clear, fun s => ⟨fun ⟨hp, hn, ht⟩ => .of_done rfl (if_pos (by simp [hp, hn, ht])),
    fun h => .of_done rfl (Dev.faultNRelease_waits h)⟩, fun src n l hl => ⟨getEventRecords_effect hl,
      fun hs s d ha => ha.leaves_clearEventRecords_unknown hl, fun hs s d ha => ?removed⟩, fun h v => .of_mailed (fun _ => rfl) fun _ => rfl⟩
  case clear =>
    obtain ⟨heq, hpend, hlogs, hpin, hclear⟩ := s.dev.clearPend_spec w mask
    refine ⟨s.dev.clearPend w mask, leaves_registerWrite rfl hr (if_pos (by simp [hr, hw])), heq, fun i => ?_, hlogs, hpin, hclear⟩
    rw [hpend, getLsbD_clearWord]
  case removed =>
    refine ⟨_, ha.leaves_clearEventRecords_all hl, ?_, rfl⟩
    rw [Dev.log_setLog, if_pos rfl, EvLog.without_all]

end Sys2Proof.Machine

namespace Sys2Proof.Machine

open Sys2Proof

/-! ### A counter that its own wrap counts -/

/-- A state that no step reaches and that the obligation does not exclude: its table of counters lists counter 300 twice. Reads see the first
entry, which counts signal 1 of slice 0. The counters of EV240 are found over the whole table (R405), and the second entry selects EV240. -/
def twiceListed : State := { dev := { cnts := [(300, { cfg := 0x40800000#32 }), (300, { cfg := 0x0000F000#32 })] }, pending := [] }

theorem twiceListed_counts : ((twiceListed.dev.cnt 300).mode = 1 ∧ twiceListed.dev.cntSource 300 = (1, 0) ∧
    (twiceListed.dev.cnt 300).count = 0) ∧ twiceListed.dev.cntBad 300 = false ∧ twiceListed.dev.cntRuns 300 = true := by decide

/-- COUNT wraps to 0, and the EV240 of this wrap is counted by the same counter. -/
theorem twiceListed_counterWrap : ((twiceListed.dev.counterWrap 300 (2 ^ 48)).cnt 300).count = 1 := by decide

/-- A command that is done leaves the device that it is done with, and no other. -/
theorem dev_of_done {c : Instr} {s t : State} {d : Dev} (h : exec c s = s.done d) (ht : exec c s = .next t) : t.dev = d := by
  rw [h] at ht
  cases ht
  rfl

/-- Refutes O25: in `twiceListed` the wrap of counter 300 by 2^48 raises EV240, which that counter counts as its own event, so that COUNT is 1
where the statement says 0. -/
theorem not_countersProgrammedReadAndWrapped : ¬ Obligations.CountersProgrammedReadAndWrapped := by
  unfold Obligations.CountersProgrammedReadAndWrapped
  rintro ⟨-, hwrap, -⟩
  obtain ⟨⟨hmode, hsrc, hcount⟩, hbad, hruns⟩ := twiceListed_counts
  obtain ⟨t, ht, -, -, hwrapped, -⟩ := hwrap 300 (2 ^ 48) twiceListed (by decide) (by rw [hmode]; decide) hbad hruns
    (fun _ => by rw [hsrc]; decide) (by rw [hcount]; decide)
  rw [dev_of_done rfl ht, twiceListed_counterWrap, hcount] at hwrapped
  exact absurd hwrapped (by decide)

end Sys2Proof.Machine

namespace Sys2Proof.Machine

open Sys2Proof

/-! ### Messages toward the guest -/

section
variable {d : Dev} {m : Nat}

theorem Dev.modu_setMod_same (d : Dev) (m : Nat) (f : Mod → Mod) : (d.setMod m f).modu m = f (d.modu m) :=
  (d.modu_setMod m f m).trans (if_pos rfl)

theorem Dev.setMod_congr {f g : Mod → Mod} (h : f (d.modu m) = g (d.modu m)) : d.setMod m f = d.setMod m g := by
  simp only [Dev.setMod, Tbl.upd]
  rw [show f (Tbl.get {} d.mods m) = g (Tbl.get {} d.mods m) from h]

/-- With no message kept for the guest, none is sent. -/
theorem Dev.flushGuest_none (h : d.gst.kept = []) : d.flushGuest = d := by
  have hid : { d with gst := { d.gst with kept := [] } } = d := by rw [← h]
  rw [Dev.flushGuest, h, hid]
  rfl

/-- From `d` to `e` the guest is sent messages, or they are kept for it: the events and the memory are as before, and so is what the device
knows of the guest but for the messages kept. -/
structure Dev.GuestSent (d e : Dev) : Prop where
  ev : e.ev = d.ev
  dram : e.dram = d.dram
  gst : ∃ k, e.gst = { d.gst with kept := k }

theorem Dev.GuestSent.refl (d : Dev) : d.GuestSent d := ⟨rfl, rfl, d.gst.kept, rfl⟩

theorem Dev.GuestSent.trans {a b c : Dev} (h : a.GuestSent b) (g : b.GuestSent c) : a.GuestSent c := by
  obtain ⟨k, hk⟩ := h.gst
  obtain ⟨j, hj⟩ := g.gst
  exact ⟨g.ev.trans h.ev, g.dram.trans h.dram, j, by rw [hj, hk]⟩

theorem Dev.guestOut_sent (d : Dev) (x : GMsg) : d.GuestSent (d.guestOut x) := by
  unfold Dev.guestOut
  extract_lets ms c m
  split
  · exact .refl d
  · split
    · exact ⟨rfl, rfl, _, rfl⟩
    · exact ⟨rfl, rfl, d.gst.kept, rfl⟩

theorem Dev.respond_guest_sent (d : Dev) (tag line : Nat) (rs : List Rsp) (data : Line) (poison : Bool) :
    d.GuestSent (d.respond .guest tag line rs data poison) :=
  forAll_rel Dev.GuestSent.refl (fun _ _ _ => Dev.GuestSent.trans) (fun d _ => d.guestOut_sent _) d rs

/-! ### Modules, flits and credits -/

theorem Dev.chrotenModuleUp_ignored {rate : Nat} (rep : Bool) (h : d.modPresent m = false ∨ (d.modu m).st = 4 ∨ rate = 0 ∨ 6 < rate) :
    d.chrotenModuleUp m rate rep = d := by
  refine if_neg fun ⟨hp, hst, h1, h6⟩ => ?_
  rcases h with h | h | h | h
  · rw [h] at hp
    cases hp
  all_goals omega

section
variable {rate : Nat} (rep : Bool) (hp : d.modPresent m = true) (hst : (d.modu m).st = 0 ∨ (d.modu m).st = 1) (h1 : 1 ≤ rate) (h6 : rate ≤ 6)
  (hk : d.gst.kept = [])
include hp hst h1 h6 hk

/-- A module's first training (R419). -/
theorem Dev.chrotenModuleUp_first (ht : (d.modu m).trained = false) :
    d.chrotenModuleUp m rate rep = d.setMod m fun y => { y with st := 2, rate := rate, repaired := rep, trained := true } := by
  unfold Dev.chrotenModuleUp
  extract_lets x d1
  rw [if_pos ⟨hp, hst, h1, h6⟩, if_neg (by simp [x, ht]), Dev.flushGuest_none (d := d1) hk]
  exact Dev.setMod_congr (by simp [ht])

/-- A module trained before has a retrain (R419). -/
theorem Dev.chrotenModuleUp_again (ht : (d.modu m).trained = true) : d.chrotenModuleUp m rate rep = (d.setMod m fun y => { y with
    st := 2, rate := rate, repaired := rep, retrains := satInc 255 y.retrains }).raise 220 (tileSlice (modTile m)) := by
  unfold Dev.chrotenModuleUp
  extract_lets x d1
  have h1' : d1 = d.setMod m fun y => { y with st := 2, rate := rate, repaired := rep, retrains := satInc 255 y.retrains } :=
    Dev.setMod_congr (by simp [ht])
  have hkept : (d1.raise 220 (tileSlice (modTile m))).gst.kept = [] := by
    rw [(d1.raise_raised 220 _ 0).gst, h1']
    exact hk
  rw [if_pos ⟨hp, hst, h1, h6⟩, if_pos ht, Dev.flushGuest_none hkept, h1']

end

section
variable {op size : Nat} (hp : d.modPresent m = true) (hst : (d.modu m).st = 2)
include hp hst

/-- A flit that fails its CRC is counted and answered with a retry, and raises EV222 (R420). -/
theorem Dev.chrotenFlitReceive_badCrc : (d.chrotenFlitReceive m false op size).Pending 222 ∧
    ((d.chrotenFlitReceive m false op size).modu m).retries = satInc 255 (d.modu m).retries ∧
    d.Sent (d.chrotenFlitReceive m false op size) (.chroten m 1) := by
  have heq : d.chrotenFlitReceive m false op size = ((d.setMod m fun x => { x with retries := satInc 255 x.retries }).emit
      (.chroten m 1)).raise 222 (tileSlice (modTile m)) := (if_neg (by simp [hp, hst])).trans (if_pos rfl)
  have hmod := d.modu_setMod_same m fun x => { x with retries := satInc 255 x.retries }
  have hout : (d.setMod m fun x => { x with retries := satInc 255 x.retries }).out = d.out := rfl
  rw [heq]
  generalize d.setMod m _ = d1 at hmod hout
  have hr := (d1.emit (.chroten m 1)).raise_raised 222 (tileSlice (modTile m)) 0
  refine ⟨Dev.raise_pending _ 222 _ _ (by decide), ?_, ?_⟩
  · rw [show ((d1.emit (.chroten m 1)).raise 222 (tileSlice (modTile m))).modu m = d1.modu m from (congrArg (·.modu m) hr.bare :), hmod]
  · obtain ⟨a, b, hab⟩ := hr.sent
    exact ⟨a, b, by rw [hab, hout]⟩

theorem Dev.chrotenFlitReceive_wellFormed (hop : chrotenSlots op ≠ 0) (hs : size + 1 = chrotenSlots op) : d.chrotenFlitReceive m true op size = d :=
  (if_neg (by simp [hp, hst])).trans ((if_neg (by simp)).trans (if_pos ⟨hop, hs⟩))

theorem Dev.chrotenFlitReceive_malformed (h : chrotenSlots op = 0 ∨ size + 1 ≠ chrotenSlots op) : d.chrotenFlitReceive m true op size =
    if modTile m = 10 then d.violate.raise 225 0xA00 else d.raise 7 (tileSlice (modTile m)) :=
  (if_neg (by simp [hp, hst])).trans ((if_neg (by simp)).trans (if_neg fun hn => h.elim hn.1 fun h => h hn.2))

/-- Credits that return are added, class by class (R422). -/
theorem Dev.creditReturn_adds (hk : d.gst.kept = []) (slots : List Nat) :
    d.creditReturn m slots = (d.setMod m fun x => { x with credits := ((d.creditReturn m slots).modu m).credits }) ∧
    ((d.creditReturn m slots).modu m).credits.length = (d.modu m).credits.length ∧
    ∀ i < (d.modu m).credits.length,
      ((d.creditReturn m slots).modu m).credits.getD i 0 = (d.modu m).credits.getD i 0 + slots.getD i 0 := by
  have heq : d.creditReturn m slots = d.setMod m fun x => { x with credits := (x.credits.zipIdx).map fun c => c.1 + slots.getD c.2 0 } :=
    (if_pos (by simp [hp, hst])).trans (Dev.flushGuest_none hk)
  have hcr : ((d.creditReturn m slots).modu m).credits = (d.modu m).credits.zipIdx.map fun c => c.1 + slots.getD c.2 0 := by
    rw [heq, Dev.modu_setMod_same]
  refine ⟨?_, by rw [hcr]; simp, fun i hi => ?_⟩
  · rw [hcr]
    exact heq
  · rw [hcr]
    simp [List.getD_eq_getElem?_getD, hi]

end

end

/-- Settles O41: each command by the lemma about its case. -/
theorem chrotenModulesFlitsAndCredits : Obligations.ChrotenModulesFlitsAndCredits := by
  refine ⟨fun s m rate rep hp hst h1 h6 hk => ⟨fun ht => .of_done rfl (Dev.chrotenModuleUp_first rep hp hst h1 h6 hk ht),
      fun ht => .of_raise_on rfl (Dev.chrotenModuleUp_again rep hp hst h1 h6 hk ht) (by decide)⟩,
    fun s m rate rep h => .of_done rfl (Dev.chrotenModuleUp_ignored rep h),
    fun s m op size hp hst => ⟨.of_done rfl (Dev.chrotenFlitReceive_badCrc hp hst),
      fun hop hs => .of_done rfl (Dev.chrotenFlitReceive_wellFormed hp hst hop hs),
      fun h ht => .of_raise_on rfl ((Dev.chrotenFlitReceive_malformed hp hst h).trans (if_neg ht)) (by decide),
      fun h ht => .of_raise_on rfl ((Dev.chrotenFlitReceive_malformed hp hst h).trans (if_pos ht)) (by decide),
      fun hk slots => .of_done rfl (Dev.creditReturn_adds hp hst hk slots)⟩,
    fun s m op size ok l hst => ⟨.of_done rfl (if_pos (by simp [hst])), .of_done rfl (if_neg (by simp [hst]))⟩⟩

end Sys2Proof.Machine

namespace Sys2Proof.Machine

open Sys2Proof

/-! ### The guest attaches and fails -/

section
variable {d : Dev}

theorem Dev.guestDead_domsOnly (d : Dev) : d.DomsOnly d.guestDead :=
  forAll_rel .refl (fun _ _ _ => .trans) (fun d g => d.detectDown_domsOnly g 8 16 0xA00) d _

/-- A guest that was released or attached fails: the cause is noted for the boundary, and its domains go down (R436). -/
theorem Dev.guestFail_spec (cause : Nat) (hst : d.gst.st = 1 ∨ d.gst.st = 2) (hf : d.gst.failPend = none) :
    (d.guestFail cause).gst = { d.gst with failPend := some cause } ∧ (d.guestFail cause).ev = d.ev := by
  rw [Dev.guestFail, if_pos ⟨hst, by simp [hf]⟩]
  obtain ⟨x, hx⟩ := (d.setGst fun g => { g with failPend := some cause }).guestDead_domsOnly
  rw [hx]
  exact ⟨rfl, rfl⟩

/-- A guest fails with an event. -/
theorem Dev.raise_guestFail (cause : Nat) {n : Nat} (slice : Nat) (hst : d.gst.st = 1 ∨ d.gst.st = 2) (hf : d.gst.failPend = none)
    (hn : evClass n ≠ none) : ((d.raise n slice).guestFail cause).gst = { d.gst with failPend := some cause } ∧
      ((d.raise n slice).guestFail cause).Pending n := by
  have hgst : (d.raise n slice).gst = d.gst := (d.raise_raised n slice 0).gst
  obtain ⟨hg, hev⟩ := (d.raise n slice).guestFail_spec cause (by rwa [hgst]) (by rwa [hgst])
  refine ⟨hg.trans (by rw [hgst]), ?_⟩
  rw [Dev.Pending, hev]
  exact d.raise_pending n slice 0 hn

/-- A change of the modules of a list gives each of them the record that it leaves there, and nothing but modules changes. -/
theorem forAll_setMod (d : Dev) (cr : List Nat) (ms : List Nat) :
    (∃ x, forAll d ms (fun d m => d.setMod m fun y => { y with credits := cr }) = { d with mods := x }) ∧
    ∀ m, m ∈ ms ∨ (d.modu m).credits = cr →
      ((forAll d ms fun d m => d.setMod m fun y => { y with credits := cr }).modu m).credits = cr := by
  induction ms generalizing d with
  | nil => exact ⟨⟨d.mods, rfl⟩, fun m hm => hm.resolve_left (List.not_mem_nil)⟩
  | cons j ms ih =>
    obtain ⟨⟨x, hx⟩, hcr⟩ := ih (d.setMod j fun y => { y with credits := cr })
    refine ⟨⟨x, hx⟩, fun m hm => hcr m ?_⟩
    rw [Dev.modu_setMod]
    split
    · exact .inr rfl
    · next hne => exact hm.imp_left fun h => (List.mem_cons.mp h).resolve_left hne

/-- A valid Attach (R427, R428, R438). -/
theorem Dev.attach_ok {i c : BitVec 32} {cr : List Nat} (hst : d.gst.st = 1) (hf : d.gst.failPend = none) (hok : d.attachOk c cr = true)
    (hp : d.prim ≠ .waiting) : (d.attach i c cr).Pending 223 ∧ (d.attach i c cr).gst.st = 2 ∧ (d.attach i c cr).gst.idReg = i ∧
      (d.attach i c cr).gst.caps = c ∧ (d.attach i c cr).gst.coherent = c.getLsbD 31 ∧
      (∀ m ∈ guestMods, ((d.attach i c cr).modu m).credits = cr) ∧ d.Sent (d.attach i c cr) (.side 3 0 d.pool) := by
  unfold Dev.attach
  extract_lets d1 d2
  rw [if_neg (by simp [hst, hf]), if_pos hok]
  obtain ⟨⟨x, hx⟩, hcr⟩ := forAll_setMod d1 cr guestMods
  have h2 : d2 = { d1 with mods := x } := hx
  have hcr2 : ∀ m ∈ guestMods, (d2.modu m).credits = cr := fun m hm => hcr m (.inl hm)
  have hgst : d2.gst = d1.gst := by rw [h2]
  have hpool : d2.pool = d.pool := by rw [h2]; rfl
  have hout : d2.out = d.out := by rw [h2]; rfl
  have hprim : d2.prim = d.prim := by rw [h2]; rfl
  clear_value d2
  have hr := (d2.emit (.side 3 0 d2.pool)).raise_raised 223 0xA00 0
  have hpend := (d2.emit (.side 3 0 d2.pool)).raise_pending 223 0xA00 0 (by decide)
  generalize (d2.emit (.side 3 0 d2.pool)).raise 223 0xA00 0 = e at hr hpend
  have hprim' : e.prim = d2.prim := (congrArg Dev.prim hr.bare :)
  rw [Dev.primeGuest, if_neg (by rw [hprim', hprim]; exact hp)]
  have hg : e.gst = d1.gst := hr.gst.trans hgst
  rw [hg]
  refine ⟨hpend, rfl, rfl, rfl, rfl, fun m hm => ?_, ?_⟩
  · rw [show e.modu m = d2.modu m from (congrArg (·.modu m) hr.bare :), hcr2 m hm]
  · obtain ⟨a, b, hab⟩ := hr.sent
    exact ⟨a, b, by rw [hab, hout, hpool]⟩

theorem Dev.attach_bad {i c : BitVec 32} {cr : List Nat} (hst : d.gst.st = 1) (hf : d.gst.failPend = none) (hok : d.attachOk c cr = false) :
    d.attach i c cr = (d.raise 226 0xA00).guestFail 5 := by
  unfold Dev.attach
  rw [if_neg (by simp [hst, hf]), if_neg (by simp [hok])]

theorem Dev.attach_notReleased {i c : BitVec 32} {cr : List Nat} (h : d.gst.st ≠ 1) : d.attach i c cr = d := if_pos (.inl h)

theorem Dev.resumedTimeout_fails {t : Nat} (hst : d.gst.st = 2) (hf : d.gst.failPend = none) (hw : d.gst.resumeWait = some t)
    (ht : t + 10 ≤ d.time.loc) : d.resumedTimeout.Pending 226 ∧ d.resumedTimeout.gst.failPend = some 4 ∧
      d.resumedTimeout.gst.resumeWait = none := by
  have heq : d.resumedTimeout = ((d.setGst fun g => { g with resumeWait := none }).raise 226 0xA00).guestFail 4 := by
    rw [Dev.resumedTimeout, hw]
    exact if_pos ht
  obtain ⟨hg, hp⟩ := (d.setGst fun g => { g with resumeWait := none }).raise_guestFail 4 0xA00 (.inr hst) hf (n := 226) (by decide)
  rw [heq, hg]
  exact ⟨hp, rfl, rfl⟩

theorem Dev.resumed_ends (hw : d.gst.resumeWait ≠ none) (hk : d.gst.kept = []) (hm : d.guestModsUp ≠ []) :
    d.resumed = d.setGst fun g => { g with resumeWait := none } :=
  (if_pos ⟨Option.isSome_iff_ne_none.mpr hw, by simpa using hm⟩).trans (Dev.flushGuest_none hk)

/-! ### Register accesses -/

/-- Sending the first access that waits changes the accesses and what was sent, and nothing else. -/
theorem Dev.guestAccessSend_cons {b : GAccess} {t : List GAccess} (h : d.gst.access = b :: t) : d.guestAccessSend =
    (d.setGst fun g => { g with access := { b with at_ := d.time.loc } :: t }).emit (.side (if b.write then 5 else 4) b.off b.val) := by
  rw [Dev.guestAccessSend, h]

theorem Dev.guestAccessSend_nil (h : d.gst.access = []) : d.guestAccessSend = d := by rw [Dev.guestAccessSend, h]

variable {a : GAccess} {t : List GAccess} (ha : d.gst.access = a :: t) (hb : a.abandoned = false)
include ha hb

theorem Dev.guestAccessCompletion_answers (v : BitVec 64) : d.guestAccessCompletion v = ((d.setGst fun g => { g with access := t }).reply a.src
    .success 0 (if a.write then [] else leBytes 8 (v.toNat % 2 ^ (8 * a.size)))).guestAccessSend := by
  rw [Dev.guestAccessCompletion, ha]
  exact if_neg (by simp [hb])

theorem Dev.guestAccessTimeout_refuses (ht : a.at_ + 2 ≤ d.time.loc) : d.guestAccessTimeout =
    (((d.setGst fun g => { g with access := t }).reply a.src .invalidInput 0x0101).raise 226 0xA00).guestAccessSend := by
  rw [Dev.guestAccessTimeout, ha]
  exact if_pos ⟨ht, by simp [hb]⟩

omit hb in
theorem Dev.guestAccessTimeout_early (ht : d.time.loc < a.at_ + 2) : d.guestAccessTimeout = d := by
  rw [Dev.guestAccessTimeout, ha]
  exact if_neg fun h => Nat.not_lt.mpr h.1 ht

end

section
variable {d : Dev} {a : GAccess}

/-- The only access is refused 2 µs after it was sent (R442). -/
theorem Dev.guestAccessTimeout_last (ha : d.gst.access = [a]) (hb : a.abandoned = false) (ht : a.at_ + 2 ≤ d.time.loc) :
    d.guestAccessTimeout.Pending 226 ∧ d.guestAccessTimeout.gst.access = [] ∧
      d.Sent d.guestAccessTimeout (.cci a.src .invalidInput 0x0101 []) := by
  rw [Dev.guestAccessTimeout_refuses ha hb ht, Dev.reply_of_fits a.src (Nat.zero_le _)]
  generalize hd1 : d.setGst _ = d1
  have hr := (d1.emit (.cci a.src .invalidInput 0x0101 [])).raise_raised 226 0xA00 0
  have hp := (d1.emit (.cci a.src .invalidInput 0x0101 [])).raise_pending 226 0xA00 0 (by decide)
  generalize (d1.emit (.cci a.src .invalidInput 0x0101 [])).raise 226 0xA00 0 = e at hr hp
  have hacc : e.gst.access = [] := by rw [hr.gst, ← hd1]; rfl
  rw [Dev.guestAccessSend_nil hacc]
  obtain ⟨x, y, hxy⟩ := hr.sent
  exact ⟨hp, hacc, x, y, by rw [hxy, ← hd1]; rfl⟩

/-- A completion begins the next access (R442). -/
theorem Dev.guestAccessCompletion_next {b : GAccess} {t : List GAccess} (ha : d.gst.access = a :: b :: t) (hb : a.abandoned = false)
    (v : BitVec 64) : (d.guestAccessCompletion v).gst.access = { b with at_ := d.time.loc } :: t ∧
      d.Sent (d.guestAccessCompletion v) (.side (if b.write then 5 else 4) b.off b.val) := by
  have hlen : (if a.write then [] else leBytes 8 (v.toNat % 2 ^ (8 * a.size))).length ≤ 4096 := by
    split
    · exact Nat.zero_le _
    · exact (length_leBytes _ _).le.trans (by decide)
  have hout := ((d.setGst fun g => { g with access := b :: t }).emit_raised (.cci a.src .success 0
    (if a.write then [] else leBytes 8 (v.toNat % 2 ^ (8 * a.size))))).out
  rw [Dev.guestAccessCompletion_answers ha hb, Dev.reply_of_fits a.src hlen, Dev.guestAccessSend_cons (b := b) (t := t) rfl]
  exact ⟨rfl, Dev.sent_emit hout _⟩

end

/-- Settles O42: the guest's life by the lemmas about Attach and failure, the accesses by the lemmas about the first of them. -/
theorem guestLifeAndRegisterAccesses : Obligations.GuestLifeAndRegisterAccesses := by
  refine ⟨⟨fun s hst => ⟨fun hg ht => .of_done rfl (if_pos ⟨hg, hst, ht⟩), fun h => .of_done rfl (if_neg fun hn => ?unreleased)⟩,
      fun s i c cr hst hf => ⟨fun hok hp => .of_done rfl (Dev.attach_ok hst hf hok hp), fun hok => ?badAttach, fun ht => ?lateAttach,
        fun ht => .of_done rfl (if_neg fun hn => Nat.not_lt.mpr hn.2.2 ht)⟩,
      fun s i c cr hst => ⟨.of_done rfl (Dev.attach_notReleased hst), .of_done rfl (if_neg fun hn => hst hn.1)⟩,
      fun s hst hf => ⟨?detach, fun hm ht => ?loss, fun h => .of_done rfl (if_neg fun hn => ?present),
        fun t hw ht => .of_done rfl (Dev.resumedTimeout_fails hst hf hw ht)⟩,
      fun s hst => ⟨.of_done rfl (if_neg hst), .of_done rfl (if_neg fun hn => hst hn.1)⟩,
      fun src s hr hg => ⟨fun hst => leaves_registerWrite rfl hr ((if_pos (by simp [hr, hg])).trans (if_pos hst)),
        fun hst => leaves_registerWrite rfl hr ((if_pos (by simp [hr, hg])).trans (if_neg hst))⟩,
      fun s hw hk => ⟨fun hm => .of_done rfl (Dev.resumed_ends hw hk hm), fun hm => .of_done rfl (if_neg (by simp [hm]))⟩⟩,
    fun s a v ha hb => ⟨?answer, fun ht => .of_done rfl (Dev.guestAccessTimeout_last ha hb ht),
      fun ht => .of_done rfl (Dev.guestAccessTimeout_early ha ht)⟩,
    fun s a b t v ha hb => .of_done rfl (Dev.guestAccessCompletion_next ha hb v),
    fun s => ⟨fun hg => .of_done rfl (if_pos hg), fun hg => .of_done rfl (if_neg (by simp [hg]))⟩⟩
  case unreleased =>
    rcases h with h | h
    · exact Bool.noConfusion (h.symm.trans hn.1)
    · exact Nat.not_lt.mpr hn.2.2 h
  case badAttach =>
    obtain ⟨hg, hp⟩ := s.dev.raise_guestFail 5 0xA00 (.inl hst) hf (n := 226) (by decide)
    refine .of_done (congrArg s.done (Dev.attach_bad hst hf hok)) ⟨hp, ?_, ?_⟩
    · rw [hg]
      exact hst
    · rw [hg]
  case lateAttach =>
    obtain ⟨hg, hp⟩ := s.dev.raise_guestFail 5 0xA00 (.inl hst) hf (n := 226) (by decide)
    exact .of_done (congrArg s.done (if_pos ⟨hst, by simp [hf], ht⟩)) ⟨hp, by rw [hg]⟩
  case detach =>
    obtain ⟨hg, -⟩ := s.dev.guestFail_spec 2 (.inr hst) hf
    refine .of_done (congrArg s.done (if_pos hst)) ⟨by rw [hg], ?_⟩
    rw [hg]
    exact hst
  case loss =>
    obtain ⟨hg, -⟩ := s.dev.guestFail_spec 1 (.inr hst) hf
    exact .of_done (congrArg s.done (if_pos ⟨hst, by simp [hm], ht⟩)) (by rw [hg])
  case present =>
    obtain ⟨-, hm, ht⟩ := hn
    rcases h with h | h
    · simp [h] at hm
    · exact Nat.not_lt.mpr ht h
  case answer =>
    exact .of_done rfl ((Dev.guestAccessCompletion_answers ha hb v).trans (Dev.guestAccessSend_nil (by simp [Dev.setGst])))

end Sys2Proof.Machine

namespace Sys2Proof.Machine

open Sys2Proof

/-! ### Requests of the guest -/

section
variable {d : Dev} {tag addr line : Nat} {k : ReqKind}

/-- A coherence violation of an attached guest is counted and raises EV225, and the guest fails (R434). -/
theorem Dev.guestBad_fails (hst : d.gst.st = 2) (hf : d.gst.failPend = none) (tag line : Nat) (k : Option ReqKind) :
    (d.guestBad tag line k).Pending 225 ∧ (d.guestBad tag line k).gst.failPend = some 3 ∧
      (d.guestBad tag line k).gst.violations = satInc 65535 d.gst.violations := by
  obtain ⟨e, he, hbad⟩ : ∃ e, d.GuestSent e ∧ d.guestBad tag line k = (e.violate.raise 225 0xA00).guestFail 3 := by
    unfold Dev.guestBad
    split
    · exact ⟨_, d.respond_guest_sent _ _ _ _ _, rfl⟩
    · exact ⟨_, d.respond_guest_sent _ _ _ _ _, rfl⟩
    · exact ⟨_, d.respond_guest_sent _ _ _ _ _, rfl⟩
    · exact ⟨d, .refl d, rfl⟩
  obtain ⟨x, hx⟩ := he.gst
  have hgst : e.violate.gst = { d.gst with kept := x, violations := satInc 65535 d.gst.violations } := by
    rw [Dev.violate, Dev.setGst, hx]
  obtain ⟨hg, hp⟩ := e.violate.raise_guestFail 3 0xA00 (n := 225) (.inr (by rw [hgst]; exact hst)) (by rw [hgst]; exact hf) (by decide)
  rw [hbad, hg, hgst]
  exact ⟨hp, rfl, rfl⟩

/-- A request of the guest outside both views is counted, raises EV067, and stores nothing (R64, R429). -/
theorem Dev.guestOov_counts (d : Dev) (tag line : Nat) (k : ReqKind) : (d.guestOov tag line k).Pending 67 ∧
    (d.guestOov tag line k).gst.failPend = d.gst.failPend ∧ (d.guestOov tag line k).gst.oov = satInc 65535 d.gst.oov ∧
    (d.guestOov tag line k).dram = d.dram := by
  unfold Dev.guestOov
  extract_lets e
  obtain ⟨hpend, hgst, hdram⟩ : e.Pending 67 ∧ e.gst = { d.gst with oov := satInc 65535 d.gst.oov } ∧ e.dram = d.dram := by
    have hr := (d.setGst fun g => { g with oov := satInc 65535 g.oov }).raise_raised 67 0xA00 0
    exact ⟨Dev.raise_pending _ 67 _ _ (by decide), hr.gst, (congrArg Dev.dram hr.bare :)⟩
  clear_value e
  have hsent : ∀ f : Dev, e.GuestSent f → f.Pending 67 ∧ f.gst.failPend = d.gst.failPend ∧ f.gst.oov = satInc 65535 d.gst.oov ∧
      f.dram = d.dram := by
    intro f hef
    obtain ⟨x, hx⟩ := hef.gst
    rw [Dev.Pending, hef.ev, hx, hgst, hef.dram]
    exact ⟨hpend, rfl, rfl, hdram⟩
  split
  · exact hsent _ (e.respond_guest_sent _ _ _ _ _)
  · exact hsent _ (e.respond_guest_sent _ _ _ _ _)
  · exact hsent _ (e.respond_guest_sent _ _ _ _ _)
  · exact hsent _ (e.respond_guest_sent _ _ _ _ _)

/-- What a guest's request does (R424, R426, R429, R434): from a guest not attached, nothing; a coherent one needs membership of the line's
domain, an uncached one a view of the line. -/
theorem guestRequest_cases {c : Instr} {s : State} {coh : Bool} (hx : exec c s = s.done (s.dev.guestRequest tag addr k coh)) :
    (s.dev.gst.st ≠ 2 ∨ s.dev.gst.failPend ≠ none → Leaves c s s.dev) ∧
    (s.dev.gst.st = 2 → s.dev.gst.failPend = none →
      (coh = true → s.dev.guestMember (addr / 64) = true → Leaves c s
        (s.dev.request { rq := .guest, tag := tag, line := addr / 64, kind := k })) ∧
      (coh = true → s.dev.guestMember (addr / 64) = false → Does c s fun e => e.Pending 225 ∧ e.gst.failPend = some 3 ∧
        e.gst.violations = satInc 65535 s.dev.gst.violations) ∧
      (coh = false → s.dev.guestViews (addr / 64) = true → Leaves c s
        (s.dev.request { rq := .guest, tag := tag, line := addr / 64, kind := k, extra := k.isWrite })) ∧
      (coh = false → s.dev.guestViews (addr / 64) = false → Does c s fun e => e.Pending 67 ∧ e.gst.failPend = none ∧
        e.gst.oov = satInc 65535 s.dev.gst.oov ∧ e.dram = s.dev.dram)) := by
  refine ⟨fun h => .of_done hx (if_pos (h.imp_right Option.isSome_iff_ne_none.mpr)), fun hst hf => ?_⟩
  have hserved : s.dev.guestRequest tag addr k coh = if coh = true then
      (if s.dev.guestMember (addr / 64) = true then s.dev.request { rq := .guest, tag := tag, line := addr / 64, kind := k }
        else s.dev.guestBad tag (addr / 64) (some k))
      else if s.dev.guestViews (addr / 64) = true then
        s.dev.request { rq := .guest, tag := tag, line := addr / 64, kind := k, extra := k.isWrite }
      else s.dev.guestOov tag (addr / 64) k := if_neg (by simp [hst, hf])
  rw [hserved] at hx
  refine ⟨fun hc hm => ?_, fun hc hm => ?_, fun hc hv => ?_, fun hc hv => ?_⟩ <;> rw [hc] at hx
  · rw [if_pos rfl, if_pos hm] at hx
    exact .of_done hx rfl
  · rw [if_pos rfl, if_neg (by simp [hm])] at hx
    exact .of_done hx (Dev.guestBad_fails hst hf _ _ _)
  · rw [if_neg Bool.false_ne_true, if_pos hv] at hx
    exact .of_done hx rfl
  · rw [if_neg Bool.false_ne_true, if_neg (by simp [hv])] at hx
    have hoov := s.dev.guestOov_counts tag (addr / 64) k
    rw [hf] at hoov
    exact .of_done hx hoov

/-! ### Responses and push replies -/

section
variable (hst : d.gst.st = 2) (hf : d.gst.failPend = none)
include hst hf

theorem Dev.guestBIRsp_local (hr : d.remoteHome (addr / 64) = none) (r : SnpRsp) :
    d.guestBIRsp addr r = d.snoopResponse d.devId (d.groupOf (lnPage (addr / 64))) 16 (addr / 64) r := by
  rw [Dev.guestBIRsp, if_pos ⟨hst, by simp [hf]⟩, Dev.memberRsp, hr]

theorem Dev.guestBIConflict_local (hm : d.guestMember (addr / 64) = true) (hr : d.remoteHome (addr / 64) = none) :
    d.guestBIConflict addr = d.respond1 .guest 0 (addr / 64) .conflictAck 0#512 false := by
  rw [Dev.guestBIConflict, if_neg (by simp [hst, hf]), if_pos hm, Dev.memberConflict, hr]

theorem Dev.guestBIConflict_foreign (hm : d.guestMember (addr / 64) = false) : d.guestBIConflict addr = d.guestBad 0 (addr / 64) none := by
  rw [Dev.guestBIConflict, if_neg (by simp [hst, hf]), if_neg (by simp [hm])]

end

section
variable {n : Nat} {x : Hold} (hn : n = d.home (lnPage (addr / 64)))
  (hx : (d.hsl n).holds.find? (fun x => x.line == addr / 64 && x.push) = some x)
include hn hx

/-- The reply to a push that the home slice holds (R185, R435). -/
theorem Dev.pushReply_held (accept : Bool) : d.pushReply addr accept =
    if (accept && (d.hsl n).setFull (addr / 64)) = true then
      (d.setHs n fun h => h.setHold (addr / 64) fun y => { y with push := false, accept := true }).settle n 64
    else d.setHs n fun h =>
      { (if accept then h.grant (addr / 64) x.dev x.group .s [16] else h) with
        holds := (if accept then h.grant (addr / 64) x.dev x.group .s [16] else h).holds.filter fun y => y.line != addr / 64 } := by
  simp only [Dev.pushReply, ← hn, hx]

/-- A push that is refused releases the line (R185). -/
theorem Dev.pushReply_refused : d.pushReply addr false =
    d.setHs n fun h => { h with holds := h.holds.filter fun y => y.line != addr / 64 } :=
  (Dev.pushReply_held hn hx false).trans (if_neg Bool.false_ne_true)

/-- A push that is accepted makes the guest a sharer of the line, and releases it (R185, R435). -/
theorem Dev.pushReply_accepted (hf : (d.hsl n).setFull (addr / 64) = false) : d.pushReply addr true = d.setHs n fun h =>
    { h.grant (addr / 64) x.dev x.group .s [16] with
      holds := (h.grant (addr / 64) x.dev x.group .s [16]).holds.filter fun y => y.line != addr / 64 } :=
  (Dev.pushReply_held hn hx true).trans (if_neg (by simp [hf]))

/-- A push that is accepted where the directory's set is full waits for an eviction (R185). -/
theorem Dev.pushReply_waits (hf : (d.hsl n).setFull (addr / 64) = true) : d.pushReply addr true =
    (d.setHs n fun h => h.setHold (addr / 64) fun y => { y with push := false, accept := true }).settle n 64 :=
  (Dev.pushReply_held hn hx true).trans (if_pos (by simp [hf]))

end

end

/-- Settles O43: each kind of request by the lemma about a guest's request, the responses and the replies by their equations. -/
theorem guestRequestsAreServedOrRefused : Obligations.GuestRequestsAreServedOrRefused := by
  refine ⟨fun s tag addr mv h mask x c hc => ?requests, fun s addr r hst hf => ⟨fun hr => .of_done rfl (Dev.guestBIRsp_local hst hf hr r),
      fun hm hr => .of_done rfl (Dev.guestBIConflict_local hst hf hm hr), fun hm => ?foreign⟩,
    fun s addr n x hn hx => ⟨.of_done rfl (Dev.pushReply_refused hn hx), fun hf => .of_done rfl (Dev.pushReply_accepted hn hx hf),
      fun hf => .of_done rfl (Dev.pushReply_waits hn hx hf)⟩⟩
  case requests =>
    simp only [List.mem_cons, List.not_mem_nil, or_false] at hc
    rcases hc with rfl | rfl | rfl | rfl | rfl | rfl | rfl
    all_goals exact guestRequest_cases rfl
  case foreign =>
    obtain ⟨hp, hg, -⟩ := Dev.guestBad_fails hst hf 0 (addr / 64) none
    exact .of_done (congrArg s.done (Dev.guestBIConflict_foreign hst hf hm)) ⟨hp, hg⟩

end Sys2Proof.Machine
